-- ==== Sys2Proof/Word.lean ====
section
/-! DEFINITION. The word types and plainest arithmetic of the model: octets, 32-bit registers, wrapping naturals,
sparse tables keyed by natural numbers. -/

namespace Sys2Proof

/-- One octet (R6). -/
abbrev Byte := BitVec 8

/-- A 32-bit direct register (R477). -/
abbrev Reg := BitVec 32

/-- A sparse table: keys strictly rising, one value a key. `Sys2Proof.Machine.Tab.wf` says so. -/
abbrev Tab (α : Type) := List (Nat × α)

/-- `n` modulo 2^w: the value a w-bit field keeps. -/
def wrap (w n : Nat) : Nat := n % 2 ^ w

/-- The two's complement of `i` in w bits. -/
def signed (w : Nat) (i : Int) : Nat := (i % (2 ^ w : Int)).toNat

/-- Bits [hi:lo] of `n` (R6). -/
def bits (n hi lo : Nat) : Nat := n / 2 ^ lo % 2 ^ (hi + 1 - lo)

/-- Bit `k` of `n`. -/
def bit (n k : Nat) : Bool := n / 2 ^ k % 2 = 1

/-- 1 for true, 0 for false. -/
def flag (b : Bool) : Nat := if b then 1 else 0

/-- The quotient rounded up. -/
def ceilDiv (a b : Nat) : Nat := (a + b - 1) / b

/-- The quotient of integers rounded down (b positive). -/
def floorDiv (a : Int) (b : Nat) : Int := a / (b : Int)

/-- The value of a list of octets, most significant first (R6). -/
def beNat : List Nat → Nat → Nat
  | [], acc => acc
  | x :: xs, acc => beNat xs (acc * 256 + x % 256)

/-- `n` as k octets, least significant first (R6, R483). -/
def leOctets : Nat → Nat → List Nat
  | 0, _ => []
  | k + 1, n => n % 256 :: leOctets k (n / 256)

/-- `x` cut to the range lo..hi. -/
def clampI (lo hi x : Int) : Int := if x < lo then lo else if hi < x then hi else x

end Sys2Proof
end

