-- ==== Sys2Proof/Syntax.lean ====
section
/-! DEFINITION. The commands of the block: one constructor of `Instr` per row of spec/opcode_table.json, with the
operands the row's rule gives it. A Kilak command carries the request it was posted with and its arguments; an event of
a line, pin, timer or engine carries what the device observes there. -/

namespace Sys2Proof

/-- A Kilak request: the port of its ring, its tag and its result capacity (R483). -/
structure Req where
  port : Nat
  tag : Nat
  resCap : Nat
deriving DecidableEq, Repr

/-- A PF2 request: the port, the slot it was posted in and its tag (R501). -/
structure AmpReq where
  port : Nat
  slot : Nat
  tag : Nat
deriving DecidableEq, Repr

/-- The monitored rails (R525). -/
inductive Rail
  | vddAo | vddTime | vddAmp | vddIo | vddCore | vddPon | vddUl | vddaLane | vddhLane | vddHbm | vddqHbm | vppHbm
deriving DecidableEq, Repr

/-- The reset sources (R505). -/
inductive ResetSource
  | pwrGood | brownOut | resetN | perst | wdt | devCmd | reqSystem | coreCmd | bexedWdt | reqCore
deriving DecidableEq, Repr

/-- A W1C write of RESET_CAUSE: the word, and the sources whose bits the controller sets in the same cycle (R476, R509). -/
structure CauseWrite where
  v : Reg
  meet : List ResetSource := []
deriving DecidableEq, Repr

/-- A fault as a block detects it: its kind and detail field (R540, R541). -/
structure FaultIn where
  kind : Nat
  detail : Nat
deriving DecidableEq, Repr

/-- A command descriptor as Bexed fetches it (R483); `reservedOk` says every reserved field is 0. -/
structure CmdDesc where
  opcode : Nat
  irq : Bool
  fence : Bool
  reservedOk : Bool
  tag : Nat
  resCap : Nat
deriving DecidableEq, Repr

/-- A firmware image (R379): the fields of its header, its reserved octets as numbers, its ciphertext and its tag. -/
structure Image where
  magic : Nat
  kind : Nat
  /-- Octets 5 to 7. -/
  resA : Nat := 0
  version : Nat
  stateVersion : Nat
  length : Nat
  iv : Nat := 0
  /-- Octets 32 to 63. -/
  resB : Nat := 0
  body : List Nat := []
  tag : Nat := 0
deriving DecidableEq, Repr

/-- A preset record of an option copy (R519). -/
structure Preset where
  pid : Nat
  index : Nat
  value : Nat
deriving DecidableEq, Repr

/-- One group entry of a margin plan (R556). -/
structure PlanGroup where
  vTarget : Nat
  margin : Int
  shortfall : Bool
  excluded : Bool
deriving DecidableEq, Repr

/-- The Annealer's margin plan (R556): version 0 is the empty plan. -/
structure MarginPlan where
  version : Nat
  runCount : Nat
  runSec : Nat
  facetTstart : List Nat
  groups : List PlanGroup
  trims : Tab Int
  eyes : Tab Nat
deriving DecidableEq, Repr

/-- An option copy's fields (R519), and the verdicts over its octets that are not among the fields: its CRC, its GMAC
tag and the zeros of its reserved fields. -/
structure OptImage where
  magic : Nat
  layout : Nat
  isSigned : Bool
  reservedZero : Bool
  crcOk : Bool
  tagOk : Bool
  seq : Nat
  macBase : Nat
  ssvid : Nat
  ssid : Nat
  stackRole : Nat
  pcieMode : Nat
  port1Write : Nat
  testMode : Nat
  domains : Nat
  bootSlot : Nat
  capStageMax : Nat
  capW : Nat
  stackTag : Nat
  presets : List Preset
  plan : MarginPlan
deriving DecidableEq, Repr

/-- A connection memory entry (R85). -/
structure SlotEntry where
  valid : Bool
  trib : Nat
  seg : Nat
  slotsM1 : Nat
deriving DecidableEq, Repr

/-- The attributes of a tributary (R83). -/
structure TribArgs where
  channel : Nat
  slots : Nat
  fill : Nat
  gem : Nat
  alloc : Nat
  feedPayload : Nat
deriving DecidableEq, Repr

/-- Kinds of map entry (R145). -/
inductive EntryKind
  | dynamic | fixed | snWindow | ranging | quiet
deriving DecidableEq, Repr

/-- A map entry (R144). -/
structure MapEntry where
  kind : EntryKind
  alloc : Nat
  start : Nat
  len : Nat
  cont : Bool
  profile : Nat
  rate : Nat
  ploamu : Bool
  dbru : Bool
  onu : Nat
deriving DecidableEq, Repr

/-- A fixed pattern entry: a map entry with its phase and period (R149). -/
structure FixedEntry where
  entry : MapEntry
  phase : Nat
  periodLog2 : Nat
deriving DecidableEq, Repr

/-- The fields of an allocation context that AllocCreate and AllocModify give (R175). -/
structure AllocArgs where
  patternOnly : Bool
  assured : Nat
  nonassured : Nat
  maxBytes : Nat
  weight : Nat
  pollLog2 : Nat
  minGrant : Nat
deriving DecidableEq, Repr

/-- A policy scope (R179). -/
inductive Scope
  | device | tree (t : Nat) | chan (g : Nat)
deriving DecidableEq, Repr

/-- The head of an upstream PLOAM message as received: channel pair, ONU-ID, SeqNo, the octets its integrity check covers and the
check it carries (R122, R358). -/
structure UsHead where
  g : Nat
  onuId : Nat
  seq : Nat
  octets : List Nat
  mic : Nat
deriving DecidableEq, Repr

/-- The fields of Ext_Capability (R127). -/
structure ExtCap where
  version : Nat
  maxRate : Nat
  tribOk : Bool
  carryOk : Bool
  standingOk : Bool
  chanMask : Nat
  tuneTime : Nat
  tribMax : Nat
deriving DecidableEq, Repr

/-- An XGEM frame, or fragment, as a receive lane takes it from the header chain of an allocation (R206): whether its header's
HEC can correct it, its GEM port, key index, the 8 octets of its header and the octets of its payload as they came, the tag of a
GCM message among them (R366), whether it is the last fragment of its SDU, whether it finds the delineation input buffer full (R17), and the first and last codeword of the burst that it has a
byte in (R204). -/
structure GemFrame where
  hecOk : Bool
  gem : Nat
  keyIndex : Nat
  header : List Nat
  octets : List Nat
  last : Bool
  bufFull : Bool
  words : Nat × Nat
deriving DecidableEq, Repr

/-- One allocation of a received burst (R206): a buffer report with its CRC verdict, its payload bytes, the frames of its header
chain, and the octets of a tributary container. -/
structure RxAlloc where
  report : Option Nat
  reportCrcOk : Bool
  bytes : Nat
  frames : List GemFrame
  container : List Nat
deriving DecidableEq, Repr

/-- A FEC codeword of a burst (R204): the bits the decoder corrected, and whether it could. -/
structure FecWord where
  corr : Nat
  ok : Bool
deriving DecidableEq, Repr

/-- What a receive lane observes of one expected burst (R201 to R206): the recovery loop; for bit positions about the delimiter's
expected one, the offset from it in 1/64 tick and the bits that differ from the delimiter; the burst header; the
codewords, where the profile has FEC on, and the FEC-protected bits; the allocations in entry order. -/
structure BurstRx where
  loopLocked : Bool
  delims : List (Int × Nat)
  headerOk : Bool
  onuId : Nat
  dyingGasp : Bool
  freqErr : Int
  level : Nat
  words : List FecWord
  protBits : Nat
  allocs : List RxAlloc
deriving DecidableEq, Repr

/-- A sideband event word (R56). -/
structure SbEvent where
  chan : Nat
  type : Nat
  time : Nat
  param : Nat
deriving DecidableEq, Repr

/-- A sideband frame as the return receiver takes it from the line (R55): 256 bits, frame bit 0 the most significant. -/
structure SbFrame where
  word : Nat
deriving DecidableEq, Repr

/-- A Facet entry (R234). -/
structure FacetEntry where
  value : Nat
  mask : Nat
  valid : Bool
  pg : Nat
  prio : Nat
  width : Nat
  action : Nat
  /-- Bits [31:0] of the words of the gang's other banks, lowest bank first: the layout has 0 there (R234, R240). -/
  upper : List Nat := []
deriving DecidableEq, Repr

/-- An action record (R235). -/
structure ActionRec where
  type : Nat
  destKind : Nat
  dest : Nat
  policer : Nat
  counter : Nat
  emProfile : Nat
  tc : Nat
  mirror : Nat
  puntReason : Nat
  decap : Nat
  trib : Nat
  seqOffset : Nat
deriving DecidableEq, Repr

/-- A bank load: the banks (within the group), the entry width code, the entries in order, the action records (R243). -/
structure FacetLoad where
  banks : List Nat
  width : Nat
  entries : List FacetEntry
  records : Tab ActionRec
deriving DecidableEq, Repr

/-- An exact-match entry's arguments (R290). -/
structure TableArgs where
  kind : Nat
  key : Nat
  destKind : Nat
  dest : Nat
  tcValid : Bool
  tc : Nat
  isStatic : Bool
  noOwner : Bool
  ownerKind : Nat
  owner : Nat
deriving DecidableEq, Repr

/-- A buffer profile (R313). -/
structure BufProfile where
  spill : Bool
  spillOn : Nat
  refillLow : Nat
  ondieMax : Nat
  deepMax : Nat
  be : Bool
deriving DecidableEq, Repr

/-- The context fields of a node (R329). -/
structure NodeArgs where
  parent : Nat
  prio : Nat
  weight : Nat
  lenProfile : Nat
  bufProfile : Nat
  sagKeep : Bool
  gated : Bool
  gate : Nat
  maxRate : Nat
  maxBurst : Nat
  minRate : Nat
  minBurst : Nat
deriving DecidableEq, Repr

/-- A policer record (R338). -/
structure PolicerRec where
  valid : Bool
  lenProfile : Nat
  rate : Nat
  burst : Nat
deriving DecidableEq, Repr

/-- A gate list page's data (R341). -/
structure GateList where
  baseSec : Nat
  baseNs : Nat
  count : Nat
  entries : List (Bool × Nat)
deriving DecidableEq, Repr

/-- An inject ring entry with its frame (R498). -/
structure InjectEntry where
  frame : List Nat
  mode : Nat
  dir : Nat
  noOnu : Bool
  source : Nat
  queue : Nat
  tc : Nat
deriving DecidableEq, Repr

/-- A node of the scheduler named by kind: a downstream queue, an upstream queue or a vertex. -/
inductive NodeId
  | dq (q : Nat) | uq (q : Nat) | vx (v : Nat)
deriving DecidableEq, Repr

/-- A key record of a CASCADE_KEY frame (R257). -/
structure CascadeKey where
  slice : Nat
  width : Nat
  slot : Nat
  tag : Nat
  key : Nat
deriving DecidableEq, Repr

/-- A result record of a CASCADE_RESULT frame (R257). -/
structure CascadeResult where
  slice : Nat
  position : Nat
  slot : Nat
  tag : Nat
  level : Nat
  index : Nat
  action : ActionRec
deriving DecidableEq, Repr

/-- A HEARTBEAT payload with its link and sender (R441, R72). -/
structure Heartbeat where
  link : Nat
  srcUnit : Nat
  seq : Nat
  ltbSet : Bool
  sagS5 : Bool
  classF : Bool
  stackRole : Nat
  sfc : Nat
  stackTag : Nat
  members : Nat
  masters : Nat
  groupState : List Nat
  mirrorSeq : Nat
  digestMap : Nat
  macBase : Nat
deriving DecidableEq, Repr

/-- A TIME frame payload (R418), times in 1/64 tick. -/
structure IxrTime where
  link : Nat
  seq : Nat
  msg : Nat
  ltbSet : Bool
  locked : Bool
  holdover : Bool
  steps : Nat
  clockClass : Nat
  utcOffset : Int
  leap : Nat
  tTx : Int
  tRx : Int
  arrival : Int
  refSeq : Nat
  maxErr : Nat
deriving DecidableEq, Repr

/-- A time-of-day message (R406). -/
structure TodMsg where
  input : Nat
  crcOk : Bool
  startMs : Nat
  endMs : Nat
  valid : Bool
  leap61 : Bool
  leap59 : Bool
  utcValid : Bool
  sec : Nat
  utcOffset : Int
  clockClass : Nat
  accuracyNs : Nat
deriving DecidableEq, Repr

/-- A PTP message as terminated on a port (R407, R408): kind 0 Sync and Delay_Req exchange completed, 1 Announce,
2 Delay_Req to answer, 3 peer delay, management, signalling or unicast. Times in 1/64 tick. -/
structure PtpMsg where
  port : Nat
  kind : Nat
  domain : Nat
  srcIdentity : Nat
  t1 : Int
  t2 : Int
  t3 : Int
  t4 : Int
  /-- The correction fields of Sync (with its Follow_Up) and of Delay_Resp, in 1/64 tick. -/
  corr : Int
  corrResp : Int
  clockClass : Nat
  priority2 : Nat
  gmIdentity : Nat
  stepsRemoved : Nat
  accuracyNs : Nat
  utcOffset : Int
  leap : Nat
deriving DecidableEq, Repr

/-- Settings of a PTP port (R407, R408; PIDs 0xB050 to 0xB059). -/
structure PtpArgs where
  ingressLat : Nat
  egressLat : Nat
  delayAsym : Int
  destAddr : Nat
  domain : Nat
  twoStep : Nat
  priority2 : Nat
  clockLocalPrio : Nat
  portLocalPrio : Nat
  notSlave : Nat
  enable : Bool
deriving DecidableEq, Repr

/-- Settings of a PPS output (R415). -/
structure PulseArgs where
  mode : Nat
  period : Nat
  offset : Int
  width : Nat
  polarity : Nat
  delay : Nat
deriving DecidableEq, Repr

/-- Asymmetry coefficients of a channel pair (R411). -/
structure AsymArgs where
  nDs : Nat
  nUs : Nat
  txDelay : Nat
  rxDelay : Nat
  recRatio : Nat
deriving DecidableEq, Repr

/-- The sealed parameters (R431). -/
structure SealedParams where
  dsOverhead : Int
  usOverhead : Int
  maxerrAlarmNs : Nat
  sourceMask : Nat
  certId : Nat
deriving DecidableEq, Repr

/-- A mirror record (R452), by kind, with its group; the objects are carried whole: an ONU context as the word of R108
with its ONU-ID's validity, its quiet intervals (g1, g2, first, last) and its retune (target, Q); a key context as the word
of R359 with its key wrapped. -/
inductive MirrorRec
  | onu (group h word : Nat) (hasId : Bool) (quiet : List (Nat × Nat × Nat × Nat)) (tune : Option (Nat × Nat))
  | eqRecord (group h c word : Nat)
  | alloc (group a onu allocId : Nat) (valid : Bool) (args : AllocArgs)
  | page (group g sfc : Nat) (entries : List MapEntry)
  | fixedSet (group g actSfc : Nat) (entries : List FixedEntry)
  | slotPage (group g : Nat) (entries : List SlotEntry) (tribs : Tab TribArgs)
  | keyCtx (group h dir slot word wrapped : Nat)
  | bcastKey (group g slot word wrapped : Nat)
  | digest (group value : Nat)
  | resyncBegin (group : Nat)
  | resyncEnd (group : Nat)
deriving DecidableEq, Repr

/-- One sample filter (R549). -/
structure SampleFilter where
  privMask : Nat
  masterLo : Nat
  masterHi : Nat
  addrLo : Nat
  addrHi : Nat
  classMask : Nat
deriving DecidableEq, Repr

/-- What an Annealer run measured (R558): per group its valid slacks in ps and its rail voltage; per lane its eye and the
eyes of the two adjacent settings, in 5 mV steps. -/
structure AnnealMeas where
  slacks : Tab (List Int)
  volts : Tab Nat
  excluded : List Nat
  eyes : Tab (Nat × Nat × Nat)
deriving DecidableEq, Repr

/-- One claim round as the claim engine decides it for one group (R445): whether this device sent presence and never
stopped, whether the peer's presence read 1 (silent), the winning claim read. -/
structure RoundResult where
  group : Nat
  neverStopped : Bool
  peerSilent : Bool
  claim : Nat
deriving DecidableEq, Repr

/-- What a release consumes at a step: blocks without a running clock. -/
abbrev Blocks := List Nat

/-- The commands: one constructor per row of spec/opcode_table.json. -/
inductive Instr
  /-- PWR_GOOD going low asserts a power-on reset over every state that R507 gives to power-on. (R505) -/
  | powerOnReset
  /-- A monitored rail stays below its brown-out level for 1 µs and causes the effect that R525 lists for that rail. (R525) -/
  | brownOut (rail : Rail)
  /-- VDD_AO falls below its brown-out level, which clears all state, the class-F latch and the real class-F records included. (R542) -/
  | vddAoFall
  /-- The AMP rail restarts, and Ampoule begins a new run while the tap tables keep their deltas. (R435) -/
  | ampRailRestart
  /-- The filtered RESET_N input asserts a system reset. (R506) -/
  | resetNAssert (lowNs : Nat)
  /-- A fundamental reset of PCIe port 0 asserts a system reset. (R505) -/
  | pciePerstPort0
  /-- In mode 1, a fundamental reset of port 1 resets only port 1's link and functions. (R471) -/
  | pciePerstPort1
  /-- The last reset source is released, and the controller starts the release sequence with the clocks-present check. (R510) -/
  | resetSourceRelease (src : ResetSource)
  /-- The clocks-present check ends, either because every island has reported or because 10 ms have passed, and release continues. (R512) -/
  | clocksPresentCheckEnd (absent : Blocks)
  /-- An island held for a missing clock releases itself 32 clocks after its clock starts, and its block rebuilds state. (R512) -/
  | islandLateClockRelease (b : Nat)
  /-- The AO domain samples STACK_ID[2:0] 100 µs after the last power-on source is released. (R567) -/
  | strapSample (v : Nat)
  /-- The option loader finishes checking copy A, copy B or neither, and commits the options in force in one cycle. (R521) -/
  | optionCommit
  /-- HBM PHY training completes, and the HBM controllers, XTS engines, pool, slices and Marver groups are released with new keys. (R513) -/
  | hbmTrainingDone
  /-- The boot ROM finishes loading and verifying the Bexed and Marver images, falling back to the other slot or to ROM mode, and sets bexed_ready. (R523) -/
  | bootLoadDone
  /-- The Bexed watchdog runs 500 ms without a restart and asserts a core reset. (R514) -/
  | bexedWatchdogExpiry
  /-- The device watchdog asserts a system reset, because bexed_ready is late or because of a third Bexed watchdog core reset within 60 s. (R514) -/
  | deviceWatchdogExpiry
  /-- A block reset's hold ends, the island is released through the clocks-present check, and its block rebuilds state. (R516) -/
  | blockResetRelease (b : Nat) (clockPresent : Bool)
  /-- The ledger sweep after a block reset finishes, freeing the chains held by the reset block with RESET_LOSS, and BlockReset completes. (R321) -/
  | ledgerSweepDone (b : Nat)
  /-- The orphan sweep finishes and frees every cell that no live chain reaches. (R322) -/
  | orphanSweepDone
  /-- A RESET_REQ write with key 0x5EA1 and level 1 asserts a core reset. (R479) -/
  | resetReqCore (v : Reg)
  /-- A RESET_REQ write with key 0x5EA1 and level 2 asserts a system reset. (R479) -/
  | resetReqSystem (v : Reg)
  /-- A W1C write to RESET_CAUSE clears the source bits written with 1. (R509) -/
  | resetCauseClear (w : CauseWrite)
  /-- A KL_CTRL write that sets enable checks the ring configuration and either zeroes every head and tail or sets cfg_err. (R482) -/
  | klRingEnable (p : Nat)
  /-- A KL_CTRL write that clears enable stops the rings, lets fetched commands finish and discards their completions. (R482) -/
  | klRingDisable (p : Nat)
  /-- A KL_CMD_TAIL write posts commands for fetching, or sets cmd_err when it passes the head or the ring end. (R486) -/
  | klCmdDoorbell (p : Nat) (tail : Reg)
  /-- Bexed fetches a posted command once the ring is enabled, bexed_ready is set and a completion entry is free. (R486) -/
  | klCommandFetch (p : Nat) (d : CmdDesc)
  /-- Host software writes the completion-ring head, and a value out of range is ignored with head_err set. (R482) -/
  | klCplHeadWrite (p : Nat) (v : Reg)
  /-- Host software writes the event-ring head, and a value out of range is ignored with head_err set. (R482) -/
  | klEvtHeadWrite (p : Nat) (v : Reg)
  /-- A read of KL_EVT_LOST returns the saturating count of lost events and clears it. (R548) -/
  | klEvtLostRead (p : Nat) (meet : Bool)
  /-- A W1C write to FAULT_STATUS clears recorded kinds, except class-F bits. (R481) -/
  | faultStatusClear (b : Nat) (v : Reg) (meet : List FaultIn)
  /-- A write of 1 to FAULT_FIRST.valid clears the held first fault and its time, unless the held fault is class F or a new fault meets the write. (R538) -/
  | faultFirstClear (b : Nat) (v : Reg) (meet : List FaultIn)
  /-- A FAULT_MASK write changes which fault kinds raise MSI-X, from the cycle in which it arrives. (R537) -/
  | faultMaskWrite (b : Nat) (v : Reg) (meet : List FaultIn)
  /-- A FAULT_INJECT write injects the kinds written in the next island cycle, with recording and no containment action. (R545) -/
  | faultInjectWrite (b : Nat) (v : Reg) (real : List FaultIn)
  /-- A block detects a fault and records it in its fault window, raising the MSI-X vector when the kind is unmasked. (R537) -/
  | faultDetect (b : Nat) (fs : List FaultIn)
  /-- A BAR0 access of wrong size or alignment completes as Unsupported Request if it is a read, or is discarded and counted if it is a write. (R475) -/
  | bar0BadAccess (write : Bool)
  /-- A write reaches a register that has no behaviour of its own and is stored under its access code. (R475) -/
  | registerWrite (fn : Nat) (port : Nat) (off : Nat) (v : Reg)
  /-- A Function Level Reset of PF0 disables its port's Kilak rings and MSI-X and discards the completions of fetched commands. (R473) -/
  | flrPf0 (p : Nat)
  /-- A Function Level Reset of PF1 disables the port's packet rings and drops punt packets in flight with PUNT_FLR. (R473) -/
  | flrPf1 (p : Nat)
  /-- A Function Level Reset of PF2 empties the port's command slots. (R473) -/
  | flrPf2 (p : Nat)
  /-- A RING_CTRL write enables or disables a punt or inject ring and accepts its base and size. (R495) -/
  | pf1RingEnable (inject : Bool) (r : Nat) (ctrl : Reg) (base : Nat) (size : Nat)
  /-- A punt-ring TAIL write posts receive buffers. (R497) -/
  | puntRingDoorbell (r : Nat) (tail : Reg)
  /-- An inject-ring TAIL write posts frames, which the device reads in order and sends, enqueues or drops with INJECT_BAD. (R498) -/
  | injectRingDoorbell (r : Nat) (tail : Reg) (entries : List InjectEntry)
  /-- A read of RING_DROPS returns the saturating count of ring drops and clears it. (R548) -/
  | ringDropsRead (inject : Bool) (r : Nat) (meet : Nat)
  /-- A punted packet is written to a posted buffer of its reason's ring, or is dropped as PUNT_OVERSIZE or PUNT_RING_FULL. (R497) -/
  | puntDelivery (k : Nat)
  /-- An AMP_CMD_TAIL write posts PF2 command slots, which Ampoule serves in ring order. (R501) -/
  | ampCmdDoorbell (p : Nat) (tail : Reg)
  /-- The Nop command completes with no effect. (R490) -/
  | nop (q : Req)
  /-- DeviceInfo returns identity, versions, option copy, PCIe mode and unit ID. (R490) -/
  | deviceInfo (q : Req)
  /-- DeviceReset requests an Ampoule checkpoint and then asserts a system reset, with no completion. (R437) -/
  | deviceReset (q : Req)
  /-- CoreReset asserts a core reset, with no completion. (R505) -/
  | coreReset (q : Req)
  /-- BlockReset resets one idle island, or completes with BUSY or DENIED. (R516) -/
  | blockReset (q : Req) (b : Nat) (idle : Bool)
  /-- ParamGet returns the values of a PID over a range of indices. (R490) -/
  | paramGet (q : Req) (pid : Nat) (first : Nat) (count : Nat)
  /-- ParamSet writes values of a PID of access 1 over a range of indices, all or none. (R490) -/
  | paramSet (q : Req) (pid : Nat) (first : Nat) (count : Nat) (vals : List Int)
  /-- ParamDescribe returns the 64-octet descriptor of a PID. (R491) -/
  | paramDescribe (q : Req) (pid : Nat)
  /-- ParamNext returns the next higher PID that exists, or END. (R491) -/
  | paramNext (q : Req) (pid : Nat)
  /-- LedgerAudit returns the balance records of the last closed window and the cumulative imbalance. (R490) -/
  | ledgerAudit (q : Req) (quantity : Nat) (first : Nat) (count : Nat)
  /-- BexedImageLoad verifies a signed Bexed image into the standby bank. (R380) -/
  | bexedImageLoad (q : Req) (img : Image)
  /-- BexedRestart pauses command service while core group 1 boots the standby image. (R503) -/
  | bexedRestart (q : Req)
  /-- Core group 1 adopts the state and takes over every duty at a superframe boundary, group 0 reboots, and fetching resumes. (R503) -/
  | bexedTakeover
  /-- Group 1 has not taken over within 500 ms, so it reboots on the old image and BexedRestart completes with FAILED. (R504) -/
  | bexedRestartTimeout
  /-- BexedStatus returns BEXED_STATUS, the image versions and their state_version values. (R490) -/
  | bexedStatus (q : Req)
  /-- ChannelEnable starts the channel ladder of a channel pair at rung P0. (R43) -/
  | channelEnable (q : Req) (g : Nat)
  /-- A rung of the channel ladder succeeds and the next rung starts, up to handing the channel pair to discovery. (R43) -/
  | ladderRungSuccess (g : Nat)
  /-- A rung exceeds its timeout, so the ladder ends with LANE_FAIL, the lanes stay in STANDBY, and ChannelEnable completes with FAILED. (R43) -/
  | ladderRungTimeout (g : Nat)
  /-- A lane completes a change of power state. (R42) -/
  | laneTransitionDone (g : Nat) (rx : Bool)
  /-- ChannelDisable ends any ladder in progress and turns the channel pair's lanes OFF. (R489) -/
  | channelDisable (q : Req) (g : Nat)
  /-- PhaseMemoryRead returns the phase memory entry of an ONU on a channel pair. (R47) -/
  | phaseMemoryRead (q : Req) (h : Nat) (c : Nat)
  /-- ModuleRead queues an I3C read of a module register. (R66) -/
  | moduleRead (q : Req) (g : Nat) (addr : Nat) (len : Nat)
  /-- ModuleWrite queues an I3C write of a module register. (R66) -/
  | moduleWrite (q : Req) (g : Nat) (addr : Nat) (data : List Nat)
  /-- The poll interval expires and the device polls the monitoring values of a module. (R66) -/
  | i3cPoll (g : Nat)
  /-- An I3C transfer ends, after up to three retries when it is not acknowledged, counting MODULE_UNREACHABLE and ending the host transfer with NO_TARGET. (R66) -/
  | i3cTransferDone (bus : Nat) (ack : Bool) (data : List Nat)
  /-- A module raises an in-band interrupt with up to 4 payload bytes. (R63) -/
  | i3cInBandInterrupt (g : Nat) (payload : Nat)
  /-- TributaryCreate sets up a tributary and sends Trib_Offer, completing after the ONU's answer. (R130) -/
  | tributaryCreate (q : Req) (id : Nat) (a : TribArgs)
  /-- TributaryStatus returns a tributary's attributes, defects and counters. (R489) -/
  | tributaryStatus (q : Req) (id : Nat)
  /-- TributaryResize records a pending n and fill, or withdraws a pending resize. (R105) -/
  | tributaryResize (q : Req) (id : Nat) (slots : Nat) (fill : Nat)
  /-- TributaryMove moves a tributary to another channel pair of its tree through three page changes. (R106) -/
  | tributaryMove (q : Req) (id : Nat) (channel : Nat)
  /-- TributaryDelete ends a tributary that no active or committed page holds, and sends Trib_Offer with enable 0. (R107) -/
  | tributaryDelete (q : Req) (id : Nat)
  /-- SlotMapLoad writes connection memory entries into the WRITABLE page. (R85) -/
  | slotMapLoad (q : Req) (g : Nat) (entries : List SlotEntry)
  /-- SlotMapCommit commits the slot map page and starts its check. (R104) -/
  | slotMapCommit (q : Req) (g : Nat)
  /-- The check of a committed slot map page ends, and the page either stays COMMITTED or is rejected with SLOTMAP_REJECT. (R103) -/
  | slotMapCheckDone (g : Nat)
  /-- SlotMapWithdraw returns a COMMITTED slot map page to WRITABLE. (R31) -/
  | slotMapWithdraw (q : Req) (g : Nat) (meet : Bool)
  /-- A tributary feed packet reaches the elastic store, with gap filling or a late drop. (R92) -/
  | tribFeedWrite (id : Nat) (seq : Nat) (octets : List Nat)
  /-- At the end of each superframe's allocation stream, the device evaluates a tributary's upstream defects. (R100) -/
  | tribDefectEval (id : Nat) (delineated : Nat)
  /-- OnuCreate creates a PROVISIONED context for a serial number. (R489) -/
  | onuCreate (q : Req) (tree : Nat) (serial : Nat) (onuId : Nat)
  /-- OnuDestroy frees a context that is DISABLED, PROVISIONED or FREE. (R139) -/
  | onuDestroy (q : Req) (h : Nat)
  /-- OnuStatus returns the ONU context summary. (R108) -/
  | onuStatus (q : Req) (h : Nat)
  /-- OnuRangeRead returns the eight equalisation records of an ONU. (R109) -/
  | onuRangeRead (q : Req) (h : Nat)
  /-- OnuAccept sends Ext_Inquire to an ONU in AUTHORISING and moves it to EXTENDING. (R113) -/
  | onuAccept (q : Req) (h : Nat)
  /-- OnuReject disables the serial number, retires the ONU and moves it to DISABLED. (R113) -/
  | onuReject (q : Req) (h : Nat)
  /-- OnuDeactivate sends Deactivate_ONU-ID and releases the context. (R139) -/
  | onuDeactivate (q : Req) (h : Nat)
  /-- OnuDisable sends Disable_Serial_Number and moves the context to DISABLED. (R139) -/
  | onuDisable (q : Req) (h : Nat)
  /-- OnuEnable re-enables a DISABLED serial number and returns the context to PROVISIONED. (R113) -/
  | onuEnable (q : Req) (h : Nat)
  /-- OnuEnableAll broadcasts Disable_Serial_Number enable-all on a tree. (R124) -/
  | onuEnableAll (q : Req) (tree : Nat)
  /-- OnuRetune sends Tuning_Control and schedules a quiet interval, completing at arrival or failure. (R132) -/
  | onuRetune (q : Req) (h : Nat) (c : Nat)
  /-- OnuPin sets or clears the pinned flag of an ONU. (R108) -/
  | onuPin (q : Req) (h : Nat) (on : Bool)
  /-- OnuLadderRestart restarts an ONU's upstream rate ladder. (R45) -/
  | onuLadderRestart (q : Req) (h : Nat)
  /-- The discovery interval expires, and Bexed requests a serial-number window and its quiet interval. (R116) -/
  | serialNumberWindow (g : Nat)
  /-- A valid Serial_Number_ONU is acted on: it causes discovery, a duplicate or disabled answer, or rediscovery. (R113) -/
  | serialNumberOnu (hd : UsHead) (serial : Nat) (windowQuiet : Bool)
  /-- A serial-number window's quiet interval ends, and a collision is declared if signal produced no valid message. (R118) -/
  | snWindowEnd (g : Nat) (signal : Bool) (overlap : Bool)
  /-- A ranging burst is delineated, and the device either computes EqD and sends Ranging_Time or releases the ONU as OUT_OF_REACH. (R119) -/
  | rangingBurst (g : Nat) (h : Nat) (rtd64 : Int)
  /-- A ranging window ends without a delineated burst, counting RANGE_MISS and opening another window or releasing with RANGE_FAIL. (R113) -/
  | rangingWindowEnd (h : Nat)
  /-- An upstream Acknowledgement answers the outstanding message of its ONU with OK or a decline. (R124) -/
  | acknowledgement (hd : UsHead) (code : Nat)
  /-- A Registration moves the ONU to AUTHORISING and reports OnuRegistered. (R113) -/
  | registration (hd : UsHead) (regId : Nat)
  /-- Ext_Capability records the ONU's capabilities and moves it to OPERATION. (R127) -/
  | extCapability (hd : UsHead) (x : ExtCap)
  /-- A Key_Report fragment arrives for a PENDING slot and the device unwraps and installs the key, or discards a stale report. (R361) -/
  | keyReport (hd : UsHead) (slot : Nat) (frag : Nat) (octets : List Nat)
  /-- Tuning_Response acknowledges or refuses a retune, and a NACK withdraws the quiet interval. (R113) -/
  | tuningResponse (hd : UsHead) (ack : Bool)
  /-- A Sleep_Request is discarded and counted in PLOAM_UNSUPPORTED. (R124) -/
  | sleepRequest (hd : UsHead)
  /-- An upstream PLOAM message that is not listed is discarded and counted. (R124) -/
  | ploamUnsupported (hd : UsHead)
  /-- The 16-superframe answer period of a unicast PLOAM message passes, so the message is retried, or PLOAM_NO_ACK is counted and the state table decides. (R123) -/
  | ploamAnswerTimeout (h : Nat)
  /-- No answer to Ext_Inquire arrives in 16 superframes, so the ONU enters OPERATION with ext = 0. (R113) -/
  | extendingTimeout (h : Nat)
  /-- onu.auth_timeout passes in AUTHORISING, and the ONU is released. (R113) -/
  | authTimeout (h : Nat)
  /-- onu.lost_timeout passes in LOST, and the ONU is released. (R113) -/
  | lostTimeout (h : Nat)
  /-- The ONU-ID quarantine ends, and the context returns to PROVISIONED or FREE. (R111) -/
  | onuIdQuarantineEnd (tree : Nat) (onuId : Nat)
  /-- No Tuning_Response arrives in 16 superframes, so the quiet interval is withdrawn with TUNE_NACK. (R113) -/
  | tuningResponseTimeout (h : Nat)
  /-- No burst arrives on the target by quiet end + 8 superframes, after one full ranging window, so TUNE_FAIL applies. (R134) -/
  | tuneArrivalTimeout (h : Nat) (foundOld : Bool)
  /-- No acknowledgement of a ladder step arrives within 16 superframes, so the ONU falls back with LADDER_FAIL. (R45) -/
  | ladderAckTimeout (h : Nat)
  /-- The 32-superframe trial of a ladder step ends with success or fall-back. (R45) -/
  | ladderTrialEnd (h : Nat)
  /-- ladder.retry_interval passes, and the ladder step is tried again. (R45) -/
  | ladderRetry (h : Nat)
  /-- The balance interval passes, and Bexed computes channel loads and retunes ONUs. (R135) -/
  | balanceInterval (tree : Nat)
  /-- MapBudgetSet sets a channel pair's block budget. (R147) -/
  | mapBudgetSet (q : Req) (g : Nat) (b : Nat)
  /-- FixedPatternLoad installs the next fixed pattern set with its act_sfc. (R150) -/
  | fixedPatternLoad (q : Req) (g : Nat) (actSfc : Nat) (entries : List FixedEntry)
  /-- FixedPatternRead returns the current or next fixed pattern set. (R165) -/
  | fixedPatternRead (q : Req) (g : Nat) (next : Bool)
  /-- MapPageRead returns the state and entries of a map page. (R165) -/
  | mapPageRead (q : Req) (g : Nat) (standby : Bool) (changes : Bool)
  /-- MapStats returns the channel pair's burst map counters. (R166) -/
  | mapStats (q : Req) (g : Nat)
  /-- OnuGrantStats returns an ONU's grant statistics. (R167) -/
  | onuGrantStats (q : Req) (h : Nat)
  /-- AllocCreate creates an allocation context after admission and sends Assign_Alloc-ID. (R176) -/
  | allocCreate (q : Req) (onu : Nat) (allocId : Nat) (a : AllocArgs)
  /-- AllocModify changes an allocation context from the next snapshot. (R176) -/
  | allocModify (q : Req) (alloc : Nat) (a : AllocArgs)
  /-- AllocDestroy stops grants and completes after the last page compiled before the snapshot is read. (R178) -/
  | allocDestroy (q : Req) (alloc : Nat)
  /-- AllocStatus returns an allocation context and its state. (R175) -/
  | allocStatus (q : Req) (alloc : Nat)
  /-- MapPolicySet sets compile limits at device, tree or channel-pair scope. (R179) -/
  | mapPolicySet (q : Req) (scope : Scope) (vals : List (Nat × Int))
  /-- MapPolicyGet returns the policy values in force at a scope. (R179) -/
  | mapPolicyGet (q : Req) (scope : Scope)
  /-- MapHints returns the last hint record of a channel pair. (R195) -/
  | mapHints (q : Req) (g : Nat)
  /-- GrantLatencyBind binds an allocation's or ONU's grant latency to a histogram unit. (R194) -/
  | grantLatencyBind (q : Req) (isOnu : Bool) (handle : Nat) (unit : Nat)
  /-- MarverImageLoad verifies a signed Marver image into every core's standby bank. (R197) -/
  | marverImageLoad (q : Req) (img : Image)
  /-- MarverImageActivate schedules the bank swap for an SFC. (R197) -/
  | marverImageActivate (q : Req) (sfc : Nat)
  /-- MarverStatus returns a core's image versions, watch state and compile.cycles_max. (R199) -/
  | marverStatus (q : Req) (core : Nat)
  /-- A superframe boundary increments the SFC and swaps or replays every boundary-paged object of the superframe. (R77) -/
  | superframeBoundary
  /-- A Marver core completes a page and commits it to the burst engine. (R170) -/
  | mapCommit (g : Nat)
  /-- The map.compile_lead deadline passes with a page incomplete, so COMPILE_LATE is counted. (R170) -/
  | compileDeadline (g : Nat)
  /-- The burst engine finishes checking a committed map page, which either passes or is rejected. (R152) -/
  | mapPageCheckDone (g : Nat)
  /-- Every map.hint_interval superframes, each core publishes a hint record per channel pair. (R195) -/
  | hintPublish (k : Nat)
  /-- A Marver core traps, raises a class-U fault and restarts from its active bank, or from the old bank during a watch. (R196) -/
  | marverCoreTrap (k : Nat) (cause : Nat)
  /-- The 64-superframe watch after a bank swap ends, and the old bank becomes the standby bank. (R197) -/
  | marverWatchEnd (k : Nat)
  /-- A buffer report reaches its Marver core and updates the allocation's latest report. (R173) -/
  | bufferReportArrival (alloc : Nat) (bytes : Nat) (burstPos : Nat)
  /-- 64 ticks before an expected arrival, the receive lane loads loop and slicer from the phase memory. (R48) -/
  | phaseMemoryLoad (g : Nat) (h : Nat)
  /-- An expected burst is searched, decoded and delineated, and ends in one outcome. (R201) -/
  | burstReception (g : Nat) (rx : BurstRx)
  /-- An upstream GCM frame's tag result becomes known, and the frame is accepted or dropped with AUTH_TAG_FAIL. (R370) -/
  | decryptVerify (slice : Nat) (clocks : Nat)
  /-- A verified frame leaves the decryptor in arrival order, from a hold slot or in place from quarantine. (R371) -/
  | decryptRelease (slice : Nat)
  /-- An SDU's last fragment has not arrived within cipher.reasm_time, so the SDU is dropped. (R372) -/
  | reasmTimeout (slice : Nat) (h : Nat) (gem : Nat)
  /-- The per-superframe evaluation updates runs and main-path defects of a channel pair and its ONUs. (R209) -/
  | upstreamEvaluation (g : Nat)
  /-- An ONU's SDB interval ends and SDB is judged. (R209) -/
  | sdbIntervalEnd (h : Nat)
  /-- rx.dg_window passes after a dying gasp, which ends the dying gasp in force. (R215) -/
  | dyingGaspExpiry (h : Nat)
  /-- A sideband frame is taken whole, hunted for sync and checked by CRC. (R58) -/
  | sidebandFrameReceive (link : Nat) (f : SbFrame)
  /-- A returned RSSI_RESULT event records received signal strength. (R57) -/
  | rssiResult (link : Nat) (chan : Nat) (code : Nat) (onu : Nat)
  /-- A returned SIG_DETECT event reports a change of the module's signal-detect output. (R57) -/
  | sigDetect (link : Nat) (chan : Nat) (v : Bool)
  /-- A returned TX_FAULT event reports a change of the module's transmit-fault output. (R57) -/
  | txFault (link : Nat) (chan : Nat) (v : Bool)
  /-- A returned MOD_PRESENT event reports presence, and the device assigns the module's dynamic address. (R64) -/
  | modPresent (link : Nat) (chan : Nat) (v : Bool) (answers : Bool)
  /-- A returned LATE event reports an outbound event that the carrier discarded, counted in SBL_LATE. (R61) -/
  | late (link : Nat) (type : Nat)
  /-- A returned ECHO gives a round trip, from which the link delay is updated. (R60) -/
  | echo (link : Nat) (tag : Nat) (turnaround8 : Nat) (roundTrip : Nat)
  /-- A returned event of reserved or outbound type is ignored and counted. (R57) -/
  | sblBadEvent (link : Nat) (ev : SbEvent)
  /-- Every 1,215 frames the device sends an ECHO to recalibrate the link. (R60) -/
  | sidebandCalibration (link : Nat)
  /-- A frame arrives at an uplink MAC input buffer, or is dropped with PIPE_OVERRUN. (R17) -/
  | uplinkFrameArrival (port : Nat) (octets : List Nat) (bufFull : Bool)
  /-- A PCS lane gains or loses block lock. (R70) -/
  | uplinkBlockLock (port : Nat) (lane : Nat) (headers : List Bool)
  /-- A packet enters the parser and is parsed, classified, looked up, policed and enqueued or dropped. (R16) -/
  | ingressPass (k : Nat)
  /-- frag.hold_time passes for a held fragment, which takes frag.no_first_action. (R261) -/
  | fragHoldTimeout (slice : Nat)
  /-- A fragment table entry unused for frag.life is removed. (R260) -/
  | fragEntryExpiry (slice : Nat) (key : Nat)
  /-- A free reaches its bank and the cell becomes FREE, and a double free raises a fault. (R304) -/
  | cellFree (cell : Nat)
  /-- A descriptor reaches the egress half and its packet is enqueued, spilled or dropped. (R314) -/
  | descriptorArrival (k : Nat)
  /-- The egress half walks a root's tree, chooses a queue, dequeues a packet and charges every node on its path. (R332) -/
  | dequeueWalk (root : Nat)
  /-- dbuf.flush_time passes since an open page's first cell, so the page is written partly filled. (R315) -/
  | dbufFlushTimeout (queue : Nat)
  /-- A deep-buffer page write completes, and its staged cells are freed. (R315) -/
  | dbufPageWriteDone (queue : Nat)
  /-- A deep-buffer page read completes, and its packets join the head segment. (R316) -/
  | dbufPageReadDone (queue : Nat) (err : Nat) (lost : List Bool)
  /-- A round-robin packet waits lag.reorder_wait, so the blocking member is skipped. (R263) -/
  | lagReorderTimeout (grp : Nat)
  /-- An aggregation member goes down, and its buckets pass to the members still up. (R265) -/
  | lagMemberDown (grp : Nat) (port : Nat)
  /-- An aggregation member comes up or is added, and buckets are rebalanced to it. (R265) -/
  | lagMemberUp (grp : Nat) (port : Nat)
  /-- An uplink MAC finishes sending a frame, and its tap credits the frame. (R424) -/
  | uplinkFrameTransmit (port : Nat)
  /-- FacetImageLoad writes whole banks into the WRITABLE page. (R243) -/
  | facetImageLoad (q : Req) (slice : Nat) (group : Nat) (ld : FacetLoad)
  /-- FacetImageCommit commits the slice's WRITABLE rule page. (R242) -/
  | facetImageCommit (q : Req) (slice : Nat)
  /-- FacetImageWithdraw returns a COMMITTED rule page to WRITABLE. (R242) -/
  | facetImageWithdraw (q : Req) (slice : Nat) (meet : Bool)
  /-- FacetImageSwap asks for an epoch boundary. (R240) -/
  | facetImageSwap (q : Req) (slice : Nat) (timeoutUs : Nat)
  /-- A pending swap finds its page committed and checked, and the epoch increments. (R240) -/
  | facetEpochBoundary (slice : Nat)
  /-- The swap's timeout passes with no committed page, and it completes with TIMEOUT. (R240) -/
  | facetSwapTimeout (slice : Nat)
  /-- The previous epoch's in-flight count reaches 0, the WRITABLE page is made equal to ACTIVE, and the swap completes. (R241) -/
  | facetEpochDrain (slice : Nat)
  /-- FacetEntryInsert places an entry, shifting entries when needed. (R245) -/
  | facetEntryInsert (q : Req) (slice : Nat) (group : Nat) (after : Nat) (e : FacetEntry) (r : ActionRec)
  /-- FacetEntryDelete clears the WRITABLE page's bit of an entry. (R247) -/
  | facetEntryDelete (q : Req) (slice : Nat) (group : Nat) (index : Nat)
  /-- FacetEntryRead returns entry words and action records. (R234) -/
  | facetEntryRead (q : Req) (slice : Nat) (group : Nat) (index : Nat)
  /-- FacetEpochStatus returns epoch, in-flight counts, page states and throttle level. (R268) -/
  | facetEpochStatus (q : Req) (slice : Nat)
  /-- Every 100 µs the slice's temperature sets its Facet throttle level. (R248) -/
  | facetThrottleSample (slice : Nat) (tjA : Int) (tjB : Int)
  /-- CascadeEnable sets up a cascade and starts training. (R251) -/
  | cascadeEnable (q : Req) (length : Nat) (position : Nat) (partition : List Nat)
  /-- A 4,096-slot training period ends, and an unlocked receiver trains again. (R253) -/
  | matchTrainingEnd (slice : Nat) (line : List Bool)
  /-- A CASCADE_KEY record arrives, and the position relays it and searches its partition. (R254) -/
  | cascadeKeyReceive (link : Nat) (seq : Nat) (rs : List CascadeKey) (inTime : List Bool)
  /-- A position combines its own level with MATCH_IN for a slot and drives MATCH_OUT. (R255) -/
  | matchSymbol (slice : Nat) (slot : Nat) (sym : Nat)
  /-- A CASCADE_RESULT arrives and is relayed, applied or discarded. (R256) -/
  | cascadeResultReceive (link : Nat) (seq : Nat) (rs : List CascadeResult)
  /-- No result arrives within cascade.timeout, so cascade.incomplete_action applies. (R256) -/
  | cascadeTimeout (slice : Nat) (tag : Nat)
  /-- LagCreate forms an aggregation group. (R262) -/
  | lagCreate (q : Req) (grp : Nat) (ports : List Nat)
  /-- LagMemberSet sets the members of a group. (R263) -/
  | lagMemberSet (q : Req) (grp : Nat) (ports : List Nat)
  /-- LagDestroy removes an aggregation group that nothing names. (R268) -/
  | lagDestroy (q : Req) (grp : Nat)
  /-- LagStatus returns a group's mode, members and bucket table. (R268) -/
  | lagStatus (q : Req) (grp : Nat)
  /-- ClassStats returns classifier counters. (R267) -/
  | classStats (q : Req) (kind : Nat) (idx : Nat)
  /-- TableInsert places or updates an exact-match entry. (R279) -/
  | tableInsert (q : Req) (a : TableArgs)
  /-- TableDelete removes an exact-match entry. (R290) -/
  | tableDelete (q : Req) (kind : Nat) (key : Nat)
  /-- TableSearch returns an entry from a slice's copy. (R290) -/
  | tableSearch (q : Req) (kind : Nat) (key : Nat) (slice : Nat)
  /-- TableWalkOpen opens a table walk. (R291) -/
  | tableWalkOpen (q : Req) (kindF : Option Nat) (ownerF : Option (Nat × Nat))
  /-- TableNext returns the next entries of a walk. (R291) -/
  | tableNext (q : Req) (walk : Nat) (count : Nat)
  /-- TableWalkClose closes a walk, and deferred promotions run when it is the last. (R291) -/
  | tableWalkClose (q : Req) (walk : Nat)
  /-- em.walk_timeout passes without a TableNext, and the walk closes. (R291) -/
  | tableWalkTimeout (walk : Nat)
  /-- TableFlushByPort deletes an owner's entries. (R292) -/
  | tableFlushByPort (q : Req) (ownerKind : Nat) (owner : Nat) (bd : Option Nat) (includeStatic : Bool)
  /-- TableStats returns table counters and owner counts. (R294) -/
  | tableStats (q : Req) (isOwner : Bool) (idx : Nat)
  /-- A copy applies a write from the table writer and acknowledges it. (R270) -/
  | tableWriteApply (slice : Nat)
  /-- The writer takes a learn notification and learns, moves or refuses. (R284) -/
  | learnTake
  /-- The ager sweeps an entry, clearing hits, ageing it or retiring it. (R287) -/
  | agerSweep (pos : Nat)
  /-- After all copies acknowledge retiring, conditional invalidation removes the entry or restores it. (R288) -/
  | conditionalInvalidation (pos : Nat) (hitMeets : Bool)
  /-- The writer rewrites a copy that failed parity, or reports TableEntryLost. (R289) -/
  | parityRepair (slice : Nat) (pos : Nat) (failed : Bool)
  /-- PoolStatus returns pool state. (R326) -/
  | poolStatus (q : Req)
  /-- PoolQuotaSet sets a requester's reserve and limit. (R307) -/
  | poolQuotaSet (q : Req) (r : Nat) (reserve : Nat) (limit : Nat)
  /-- PoolCellRead returns a cell's link entry and chain header. (R298) -/
  | poolCellRead (q : Req) (cell : Nat)
  /-- DbufProfileSet sets a buffer profile. (R313) -/
  | dbufProfileSet (q : Req) (n : Nat) (p : BufProfile)
  /-- DbufStatus returns a stack's free pages and ceiling use. (R326) -/
  | dbufStatus (q : Req) (stack : Nat)
  /-- QueueBufferStatus returns a queue's buffer mode and segments. (R326) -/
  | queueBufferStatus (q : Req) (queue : Nat)
  /-- DbufPageRead returns a page record. (R315) -/
  | dbufPageRead (q : Req) (page : Nat)
  /-- QueueCreate creates a queue. (R350) -/
  | queueCreate (q : Req) (dir : Nat) (id : Nat) (a : NodeArgs)
  /-- QueueModify changes a queue's context. (R350) -/
  | queueModify (q : Req) (queue : Nat) (a : NodeArgs)
  /-- QueueMove moves a queue to a new parent. (R351) -/
  | queueMove (q : Req) (queue : Nat) (parent : Nat) (prio : Nat) (weight : Nat)
  /-- VertexMove moves a vertex to a new parent. (R351) -/
  | vertexMove (q : Req) (v : Nat) (parent : Nat) (prio : Nat) (weight : Nat)
  /-- QueueDelete drops a queue's packets and deletes it. (R351) -/
  | queueDelete (q : Req) (queue : Nat)
  /-- QueueStatus returns a queue's context, levels and statistics. (R354) -/
  | queueStatus (q : Req) (queue : Nat)
  /-- VertexCreate creates a vertex and returns its ID. (R350) -/
  | vertexCreate (q : Req) (dir : Nat) (a : NodeArgs)
  /-- VertexModify changes a vertex's context. (R354) -/
  | vertexModify (q : Req) (v : Nat) (a : NodeArgs)
  /-- VertexStatus returns a vertex's context and levels. (R354) -/
  | vertexStatus (q : Req) (v : Nat)
  /-- VertexDelete deletes a vertex without children. (R351) -/
  | vertexDelete (q : Req) (v : Nat)
  /-- LenProfileSet sets a length profile's overhead. (R334) -/
  | lenProfileSet (q : Req) (n : Nat) (overhead : Int)
  /-- PolicerSet writes a policer record. (R338) -/
  | policerSet (q : Req) (slice : Nat) (policer : Nat) (r : PolicerRec)
  /-- PolicerStatus returns a policer record and level. (R338) -/
  | policerStatus (q : Req) (slice : Nat) (policer : Nat)
  /-- GateListLoad writes the WRITABLE gate list page. (R341) -/
  | gateListLoad (q : Req) (gate : Nat) (l : GateList)
  /-- GateListCommit checks a gate list and schedules its start S. (R343) -/
  | gateListCommit (q : Req) (gate : Nat)
  /-- GateListWithdraw returns a COMMITTED gate list to WRITABLE. (R31) -/
  | gateListWithdraw (q : Req) (gate : Nat) (meet : Bool)
  /-- GateStatus returns both gate pages and state. (R354) -/
  | gateStatus (q : Req) (gate : Nat)
  /-- At S, a committed gate list becomes ACTIVE. (R343) -/
  | gateListStart (gate : Nat)
  /-- A gate's open window begins, and waiting head frames are tested again. (R344) -/
  | gateWindowOpen (gate : Nat)
  /-- PortQueueSet maps a port and traffic class to an upstream queue. (R346) -/
  | portQueueSet (q : Req) (port : Nat) (tc : Nat) (queue : Nat)
  /-- QueueSampleBind feeds a queue's samples to a histogram unit. (R349) -/
  | queueSampleBind (q : Req) (queue : Nat) (delay : Bool) (unit : Nat)
  /-- SchedStats returns scheduler counters. (R353) -/
  | schedStats (q : Req) (kind : Nat) (idx : Nat)
  /-- Every 1 µs of LTB, the egress half samples depth and delay of every queue. (R349) -/
  | queueSample (k : Nat)
  /-- OnuMasterKeySet sets an ONU's MSK and MK, forcing an exchange in OPERATION. (R361) -/
  | onuMasterKeySet (q : Req) (h : Nat) (msk : Nat) (mk : Nat)
  /-- OnuRekey starts a key exchange. (R360) -/
  | onuRekey (q : Req) (h : Nat)
  /-- KeyStatus returns key contexts without keys. (R359) -/
  | keyStatus (q : Req) (isOnu : Bool) (idx : Nat)
  /-- BroadcastKeySet installs a broadcast key to become CURRENT at act_sfc. (R373) -/
  | broadcastKeySet (q : Req) (g : Nat) (slot : Nat) (key : Nat) (actSfc : Nat)
  /-- CipherParamSet sets cipher parameters. (R389) -/
  | cipherParamSet (q : Req) (scope : Scope) (vals : List (Nat × Int))
  /-- KeKeyLoad writes a clear key into a host key slot. (R378) -/
  | keKeyLoad (q : Req) (slot : Nat) (key : Nat)
  /-- KeKeyUnwrap writes a wrapped key into a host key slot. (R378) -/
  | keKeyUnwrap (q : Req) (kek : Nat) (slot : Nat) (wrapped : Nat)
  /-- KeKeyClear zeroises a host key slot. (R378) -/
  | keKeyClear (q : Req) (slot : Nat)
  /-- KeEncrypt streams a GCM job between host buffers. (R381) -/
  | keEncrypt (q : Req) (slot : Nat) (mode : Nat) (iv : Nat) (aadLen : Nat) (src : List Nat) (dst : Nat) (len : Nat)
  /-- KeDecrypt streams and verifies a GCM job, zeroing the output on tag failure. (R381) -/
  | keDecrypt (q : Req) (slot : Nat) (mode : Nat) (iv : Nat) (aadLen : Nat) (src : List Nat) (dst : Nat) (len : Nat) (tag : Nat)
  /-- KeStatus returns KE_LOCK and the generator state. (R377) -/
  | keStatus (q : Req)
  /-- The Key Engine becomes free and is granted to the waiting master of highest priority. (R377) -/
  | keLockGrant
  /-- A Key Engine job completes. (R376) -/
  | keJobDone
  /-- The noise source fails its repetition test, and the generator stops. (R382) -/
  | rngFail
  /-- CrcScanStart starts or resumes a CRC scan. (R385) -/
  | crcScanStart (q : Req) (unit : Nat) (alg : Nat) (space : Nat) (addr : Nat) (len : Nat) (init : Nat) (run : Nat)
  /-- CrcScanPause stops a scan and returns its context. (R385) -/
  | crcScanPause (q : Req) (unit : Nat) (data : List Nat)
  /-- CrcScanStatus returns a scan context and final CRC. (R390) -/
  | crcScanStatus (q : Req) (unit : Nat) (data : List Nat)
  /-- A CRC scan reaches the end of its length. (R385) -/
  | crcScanDone (unit : Nat) (data : List Nat)
  /-- CipherStats returns cipher counters. (R388) -/
  | cipherStats (q : Req) (kind : Nat) (idx : Nat)
  /-- cipher.rekey_interval passes and a key exchange becomes due. (R360) -/
  | rekeyInterval (h : Nat)
  /-- cipher.rekey_retry passes after a failed exchange, and the exchange is retried. (R363) -/
  | rekeyRetry (h : Nat)
  /-- A Key_Report fragment is not followed within 16 superframes, so the exchange fails. (R363) -/
  | keyFragmentTimeout (h : Nat)
  /-- cipher.retire_time passes, and a RETIRING slot becomes EMPTY and is zeroised. (R359) -/
  | keyRetire (h : Nat) (dir : Nat) (slot : Nat)
  /-- TimeStatus returns the state of the time base. (R420) -/
  | timeStatus (q : Req)
  /-- TimeSet makes the initial set of the LTB from a host value. (R403) -/
  | timeSet (q : Req) (sec : Nat) (ns : Nat)
  /-- TimeSourceSet assigns a domain's source and priority. (R399) -/
  | timeSourceSet (q : Req) (td : Nat) (kind : Nat) (inst : Nat) (prio : Nat)
  /-- TimeParamSet sets servo and qualification parameters. (R420) -/
  | timeParamSet (q : Req) (vals : List (Nat × Int))
  /-- PtpPortSet configures and enables a PTP port. (R407) -/
  | ptpPortSet (q : Req) (p : Nat) (a : PtpArgs)
  /-- PtpPortStatus returns a PTP port's state. (R420) -/
  | ptpPortStatus (q : Req) (p : Nat)
  /-- PtpClockStatus returns the clock data sets. (R420) -/
  | ptpClockStatus (q : Req)
  /-- AsymSet sets asymmetry coefficients and derives range.rtd_ppm. (R411) -/
  | asymSet (q : Req) (g : Nat) (a : AsymArgs)
  /-- TodPairRead returns the time of day for an ONU and superframe. (R412) -/
  | todPairRead (q : Req) (h : Nat) (n : Nat)
  /-- PulseOutSet configures a PPS output. (R415) -/
  | pulseOutSet (q : Req) (k : Nat) (a : PulseArgs)
  /-- PpsInSet sets a PPS input's board delay. (R406) -/
  | ppsInSet (q : Req) (input : Nat) (delay : Nat)
  /-- At each of 128 updates per second, the servo acts on events since the last update and steers the DCO. (R405) -/
  | servoUpdate
  /-- The preferred domain has been qualified for time.wtr, and steering switches back to it. (R401) -/
  | wtrExpiry
  /-- A reference input is lost, and the DCO changes its clock. (R398) -/
  | refclkLoss (inputB : Bool)
  /-- A reference input has shown good edges for 1 s and is qualified. (R397) -/
  | refclkQualify (inputB : Bool)
  /-- 10 s after REFCLK_B is qualified again, the DCO returns to it. (R398) -/
  | refclkBReturn
  /-- A PPS_IN rising edge is timestamped. (R406) -/
  | ppsInEdge (input : Nat) (at64 : Int)
  /-- A TOD_IN message is checked and, with its edge, gives a sample. (R406) -/
  | todInMessage (m : TodMsg)
  /-- A second passes with no PPS_IN edge. (R406) -/
  | ppsInMiss (input : Nat)
  /-- A domain's source goes without a sample for its loss time, and the domain is disqualified. (R399) -/
  | timeSourceLoss (td : Nat)
  /-- A PTP message of the instance is terminated, timestamped and processed by the BMCA or port state machine. (R407) -/
  | ptpMessageReceive (m : PtpMsg)
  /-- A port's message timer sends Sync, Delay_Req or Announce. (R407) -/
  | ptpMessageSend (port : Nat) (kind : Nat)
  /-- The announce receipt timeout passes on a port. (R407) -/
  | announceReceiptTimeout (port : Nat)
  /-- 128 times per second a SYNC is sent on every Ixrardo link that is up. (R418) -/
  | ixrSyncSend (link : Nat)
  /-- A TIME SYNC is answered, or a TIME RESP gives an offset sample. (R418) -/
  | ixrTimeReceive (m : IxrTime)
  /-- A SYNC's RESP has not arrived within 1 ms, which is counted in IXR_TIME_GAP. (R418) -/
  | ixrRespTimeout (link : Nat) (seq : Nat)
  /-- A PPS_OUT edge is generated. (R415) -/
  | ppsOutEdge (k : Nat)
  /-- 10 ms after a PPS_OUT[0] edge, TOD_OUT sends its message. (R416) -/
  | todOutMessage
  /-- At each whole second, the TIME island sends Ampoule a record. (R419) -/
  | timeRecordToAmpoule
  /-- Every 10 ms Ampoule drains the six tap delta tables into the meters. (R426) -/
  | tapDrain
  /-- A binding notice closes a meter and starts a new binding. (R428) -/
  | bindingNotice (h : Nat) (serial : Nat)
  /-- At a minute's end, Ampoule builds, signs and stores an evidence record. (R429) -/
  | evidenceMinute
  /-- Three consecutive per-second records fail to arrive, so TIME_GAP is logged. (R429) -/
  | timeGap
  /-- AMP_SEAL_N changes level, which is logged, and while OPEN it aborts the break. (R432) -/
  | ampSealPinChange (level : Bool)
  /-- 600 s pass without a commit, so the seal break aborts. (R432) -/
  | sealOpenTimeout
  /-- An OTP burn completes. (R432) -/
  | sealBurnDone
  /-- AmpouleIdentity returns the signed IDENTITY record. (R434) -/
  | ampouleIdentity (q : AmpReq)
  /-- AmpouleEvidenceRead returns an EVIDENCE record. (R436) -/
  | ampouleEvidenceRead (q : AmpReq) (first : Nat) (count : Nat)
  /-- AmpouleMeterRead returns a signed METER record. (R436) -/
  | ampouleMeterRead (q : AmpReq) (first : Nat) (count : Nat)
  /-- AmpouleLogRead returns log entries. (R436) -/
  | ampouleLogRead (q : AmpReq) (first : Nat) (count : Nat)
  /-- AmpouleLogAck acknowledges log entries up to a seq. (R430) -/
  | ampouleLogAck (q : AmpReq) (seq : Nat)
  /-- AmpouleCheckpoint makes a full drain and logs CHECKPOINT. (R436) -/
  | ampouleCheckpoint (q : AmpReq)
  /-- AmpouleSealOpen burns a seal-counter bit and opens a seal break. (R432) -/
  | ampouleSealOpen (q : AmpReq)
  /-- AmpouleParamStage checks and stages sealed parameters. (R432) -/
  | ampouleParamStage (q : AmpReq) (p : SealedParams)
  /-- AmpouleSealCommit burns the staged parameters into the next slot. (R432) -/
  | ampouleSealCommit (q : AmpReq)
  /-- AmpouleSealAbort ends a seal break without writing. (R432) -/
  | ampouleSealAbort (q : AmpReq)
  /-- ProtEnable moves a group from OFF to SYNC. (R448) -/
  | protEnable (q : Req) (t : Nat)
  /-- ProtDisable returns a group to OFF. (R449) -/
  | protDisable (q : Req) (t : Nat)
  /-- ProtActivate raises a claim from SYNC or RELEASED. (R450) -/
  | protActivate (q : Req) (t : Nat)
  /-- ProtSwitch darkens the ACTIVE device and releases the group. (R448) -/
  | protSwitch (q : Req) (t : Option Nat)
  /-- ProtAuditNow starts an audit. (R458) -/
  | protAuditNow (q : Req) (t : Nat)
  /-- ProtStatus returns the group status word. (R468) -/
  | protStatus (q : Req) (t : Nat)
  /-- SpareSet names a tree's spare channel pair. (R461) -/
  | spareSet (q : Req) (t : Nat) (c : Nat)
  /-- ChannelSpare starts sparing of a working channel pair. (R462) -/
  | channelSpare (q : Req) (g : Nat)
  /-- StackStatus returns the stack state. (R467) -/
  | stackStatus (q : Req)
  /-- A HEARTBEAT frame arrives from a peer, or a miswired link is refused. (R442) -/
  | heartbeatReceive (m : Heartbeat)
  /-- An Ixrardo frame of reserved type or version is dropped. (R73) -/
  | ixrardoBadType (link : Nat) (version : Nat) (type : Nat)
  /-- An Ixrardo link goes up or down. (R74) -/
  | ixrardoLinkChange (link : Nat) (up : Bool)
  /-- A claim round ends and decides holds, wins and losses for every group. (R445) -/
  | claimRoundEnd (rs : List RoundResult)
  /-- The check slot reads 0 in 3 cycles or CLAIM_CLK stays low for 4 µs, and the bus fault is declared. (R447) -/
  | claimBusFault (stuckLow : Bool)
  /-- 64 good cycles clear the claim bus fault. (R447) -/
  | claimBusFaultClear
  /-- At the first boundary at least 20 µs after a won round, the standby takes over the tree. (R455) -/
  | promotion (t : Nat)
  /-- prot.settle superframes after promotion, misses again advance runs. (R455) -/
  | protSettleEnd (t : Nat)
  /-- A MIRROR frame's records are applied by the standby, or a gap starts resynchronisation. (R452) -/
  | mirrorReceive (link : Nat) (seq : Nat) (rs : List MirrorRec)
  /-- prot.audit_interval passes, and the ACTIVE device sends an AUDIT request. (R458) -/
  | auditInterval
  /-- An AUDIT request or result arrives, and a scan is scheduled or CRCs are compared. (R458) -/
  | auditReceive (link : Nat) (seq : Nat) (group : Nat) (isResult : Bool) (sfcA : Nat) (mirrorSeq : Nat) (digest : Nat) (crcs : Tab Nat)
  /-- prot.drill_watch passes after a ProtSwitch. (R459) -/
  | drillWatchEnd (t : Nat)
  /-- PowerStatus returns power state. (R533) -/
  | powerStatus (q : Req)
  /-- DomainPowerSet switches a domain on or off. (R527) -/
  | domainPowerSet (q : Req) (domain : Nat) (allHbm : Bool) (on : Bool)
  /-- A domain that was switched on is released from reset. (R527) -/
  | domainPowerUpDone (domain : Nat)
  /-- PowerCapSet sets the power cap and cap_stage_max. (R531) -/
  | powerCapSet (q : Req) (capW : Nat) (capStageMax : Nat)
  /-- SagStatus returns the sag stages and margin. (R533) -/
  | sagStatus (q : Req)
  /-- OptionImageRead returns a decrypted option copy. (R533) -/
  | optionImageRead (q : Req) (copyB : Bool)
  /-- OptionImageWrite starts a write of both option copies. (R522) -/
  | optionImageWrite (q : Req) (img : OptImage)
  /-- A write of the option store finishes or fails its read-back. (R522) -/
  | optionStoreWriteDone (ok1 : Bool) (ok2 : Bool)
  /-- OptionStatus returns option state. (R533) -/
  | optionStatus (q : Req)
  /-- BootImageWrite writes a verified image into a boot slot. (R524) -/
  | bootImageWrite (q : Req) (slot : Nat) (marver : Bool) (img : Image)
  /-- BootImageStatus returns the boot slots. (R533) -/
  | bootImageStatus (q : Req)
  /-- Two samples meet a stage threshold, the voltage stage rises, and shedding acts. (R529) -/
  | sagStageRise (margin : Int) (group : Nat)
  /-- The margin has stayed 10 mV above the stage's threshold for 1 ms, so the stage falls by one. (R529) -/
  | sagStageFall (margin : Int) (group : Nat)
  /-- Every 1 ms, the power estimate drives the guard and cap-stage steps. (R531) -/
  | powerEstimate (watts : Nat)
  /-- 20 µs after a ledger window ends, the ledger checks every balance. (R33) -/
  | ledgerWindowClose
  /-- FaultSummary reads the fault windows. (R539) -/
  | faultSummary (q : Req) (first : Nat) (count : Nat)
  /-- SampleConfig sets the sample filters, rate and mode. (R549) -/
  | sampleConfig (q : Req) (filters : List SampleFilter) (rate : Nat) (mode : Nat)
  /-- SampleStart empties the buffer and starts sampling. (R551) -/
  | sampleStart (q : Req)
  /-- SampleStop stops sampling. (R563) -/
  | sampleStop (q : Req)
  /-- SampleRead returns sample records. (R551) -/
  | sampleRead (q : Req) (first : Nat) (count : Nat)
  /-- BwWindowSet sets the bandwidth window length. (R552) -/
  | bwWindowSet (q : Req) (ns : Nat)
  /-- BwWindowRead returns bandwidth values and resets the extremes. (R552) -/
  | bwWindowRead (q : Req) (isPort : Bool) (idx : Nat) (dir : Nat)
  /-- A bandwidth window ends and its counts are recorded. (R552) -/
  | bwWindowEnd
  /-- HistogramConfig binds a histogram unit. (R553) -/
  | histogramConfig (q : Req) (source : Nat) (shift : Nat)
  /-- HistogramRead returns a unit's fields. (R553) -/
  | histogramRead (q : Req) (unit : Nat)
  /-- HistogramClear zeroes a unit. (R554) -/
  | histogramClear (q : Req) (unit : Nat)
  /-- HistogramRelease frees a unit. (R553) -/
  | histogramRelease (q : Req) (unit : Nat)
  /-- AnnealRun starts an Annealer run. (R558) -/
  | annealRun (q : Req)
  /-- AnnealStatus returns the run state. (R563) -/
  | annealStatus (q : Req)
  /-- AnnealPlanRead returns the margin plan in force. (R556) -/
  | annealPlanRead (q : Req)
  /-- MonitorRead returns a monitor reading. (R563) -/
  | monitorRead (q : Req) (lane : Bool) (hub : Nat) (idx : Nat)
  /-- A run starts at its interval, after bexed_ready with an empty plan, or at an hourly retry. (R558) -/
  | annealRunStart
  /-- Measurements end, a new plan is computed, raised targets are applied, and the plan write starts. (R559) -/
  | annealMeasureDone (m : AnnealMeas)
  /-- A raised target is reached, or 2 ms pass, and the sag evaluation adopts it. (R560) -/
  | annealTargetSettle (group : Nat)
  /-- The plan write completes, lowered targets apply, and AnnealDone is reported. (R558) -/
  | annealPlanWritten
  /-- RxThresholdSet sets the delimiter, SDB, dying-gasp and spare-hold thresholds of a channel pair, taking effect at the next evaluation. (R224) -/
  | rxThresholdSet (q : Req) (g : Nat) (vals : List (Nat × Nat × Int))
  /-- OnuRxStats returns an ONU's receive counters and arrival statistics and resets ARR_MIN and ARR_MAX to ARR_LAST. (R208) -/
  | onuRxStats (q : Req) (h : Nat) (chan : Option Nat)
  /-- A transmit or receive lane PLL loses or regains lock, which the evaluations then sample as TX_UNLOCK or RX_UNLOCK. (R217) -/
  | lanePllLockChange (g : Nat) (rx : Bool) (locked : Bool)
  /-- A logical uplink port is set administratively down or up, dropping its packets in flight with PORT_DOWN when it goes down. (R71) -/
  | portAdminStateChange (port : Nat) (up : Bool)
  /-- The holdoff time of KL_IRQ_MOD or a ring's IRQ_MOD runs out, and the moderated MSI-X vector is signalled for the entries written. (R482) -/
  | irqHoldoffExpiry (src : Nat) (idx : Nat)
  /-- 64 ns after the first record was placed in a CASCADE_KEY or CASCADE_RESULT frame, the sender closes the frame and sends it. (R257) -/
  | cascadeFrameClose (slice : Nat) (result : Bool)
deriving DecidableEq, Repr

end Sys2Proof
end

