-- ==== Sys2Proof/Config.lean ====
section
/-! DEFINITION. What an implementation of the device fixes and the manual leaves open, and the free values: opaque
constants without a body, so that no proof can rest on a value of one (notes/assumptions/2.md). -/

namespace Sys2Proof.Config

/-- The stream of free values: an undefined or unstated value is this function applied to State.free, which the step
advances. -/
opaque freeNat : Nat → Nat

/-- DEV_SERIAL0-3, from the ID array (R477, R518). -/
opaque devSerial : BitVec 128
/-- Fuse bit opt_sign_required (R518). -/
opaque optSignRequired : Bool
/-- Fuse bit opt_xts (R518). -/
opaque optXts : Bool
/-- Fuse bit test_mode_disable (R518). -/
opaque testModeDisable : Bool
/-- Fuse field avs_cal, 32 bits (R518, R557). -/
opaque avsCal : Nat
/-- Fuse field grade (R518). -/
opaque grade : Nat
/-- ds.tx_latency in ticks per rate code, at most 1,024 (R78). -/
opaque txLatencyRaw : Nat → Nat
/-- ds.fs_bytes at rate codes 2 and 3, which G.9804.3 gives (R75). -/
opaque fsBytesG9804 : Nat → Nat
/-- Bytes of the FS header with so many allocation structures and PLOAM messages (R79: the recommendation's layout). -/
opaque fsHeaderBytes : Nat → Nat → Nat
/-- range.zero_arrival per channel pair and rate code: calibrated at rung P3 (R119). -/
opaque zeroArrival : Nat → Nat → Nat
/-- map.grid_ticks per rate code: the recommendation's unit (R146). -/
opaque gridTicksRaw : Nat → Nat
/-- The default Alloc-ID the recommendation defines for an ONU-ID (R184). -/
opaque defaultAllocId : Nat → Nat
/-- Bytes of an obligation or poll grant of minimal length, without and with a PLOAM message (R181, R184). -/
opaque minGrantBytes : Bool → Nat
/-- Length in ticks of a serial-number (false) or ranging (true) grant entry (R190). -/
opaque windowGrantTicks : Bool → Nat
/-- Upstream FEC parity bytes for a payload of n bytes at a rate code, where FEC is on (R183, R204). -/
opaque fecParityBytes : Nat → Nat → Nat
/-- Upstream FEC is on in a profile, 0 standard and 1 seeded, at a rate code (R128, R183, R204). -/
opaque usFecOn : Nat → Nat → Bool
/-- The time in 1/65,536 ns from the first PSync bit of a superframe to the end of the first n bytes of its FS frame at a rate
code, FEC parity included (R409: the recommendation's frame and code). -/
opaque dsLineTime : Nat → Nat → Nat
/-- The measured receive skew of a channel pair at a rate, 1/64 tick (R46). -/
opaque rateSkew : Nat → Nat → Int
/-- Fuse bits [255:0]: IMAGE_KEY (R378). -/
opaque imageKey : Nat
/-- Fuse bits [383:256]: DS, unique per device (R378). -/
opaque deviceSecret : Nat
/-- The REC suite's AES-128 counter mode, as the recommendation defines it, from the key, the superframe, the XGEM header and the
payload (R355). -/
opaque recCipher : Nat → Nat → List Nat → List Nat → List Nat
/-- The 8 octets of an XGEM header as the recommendation defines them, from the payload length, the key index, the GEM handle, the
options field and the last-fragment bit (R366). -/
opaque xgemHeader : Nat → Nat → Nat → Nat → Bool → List Nat
/-- The PLOAM integrity key from a master session key, and the check of a message under such a key, as the recommendation defines
them (R358). -/
opaque ploamKey : Nat → Nat
opaque ploamMic : Nat → List Nat → Nat
/-- The key that a REC ONU reports, as the recommendation defines, from its MSK and the octets of Key_Report (R361). -/
opaque recKey : Nat → List Nat → Nat
/-- The recommendation's default master session key (R358). -/
opaque defaultMsk : Nat
/-- Random bits of the Key Engine's generator (R382), by draw number. -/
opaque randomBits : Nat → Nat
/-- SHA-256 prefix of sealed parameters, for SEAL_COMMIT log data (R430). -/
opaque shaPrefix : List Nat → Nat
/-- Deterministic ECDSA P-256 signature of a record (R433, FIPS 186-5), uninterpreted. -/
opaque ecdsaSign : List Nat → Nat
/-- Ampoule's public key, x then y (R434). -/
opaque amplePublicKey : Nat
/-- Factory calibration k_g of AVS group g in ps per mV times 10 (R559). -/
opaque slackSensitivity : Nat → Nat
/-- The handle of the ONU that owns a GEM handle (R83 names the owner, and no rule binds it). -/
opaque gemOnu : Nat → Nat
/-- The GEM handle of an ONU's OMCI port, as the recommendation defines that port (R499). -/
opaque omciGem : Nat → Nat

/-- The IV that the device gives the write of an option copy with a seq (R519, R522). -/
opaque optIv : Nat → Nat
/-- The number, hub × 148 + monitor, of the i-th path-delay monitor of AVS group g (R555 gives no placement). -/
opaque monitorAt : Nat → Nat → Nat

/-- The master number a sample record gives the fault recordings of a block (R549 names no master for them). -/
opaque faultMaster : Nat → Nat
/-- The 40-bit internal address of a BAR0 register: function, port, offset (R549 gives no map). -/
opaque internalAddr : Nat → Nat → Nat → Nat

/-- The prediction of a domain's estimator from its last samples, newest first, in 1/64 tick (R400 names it and gives no
rule for it). -/
opaque predict : List Int → Int
/-- The source frequency that an estimator gives from its samples, in ppb (R402 gives no rule). -/
opaque sourceFreq : List Int → Int
/-- The measured ratio of the DCO's inputs at a change from one to the other at a time, as a difference in ppb (R398). -/
opaque inputRatio : Nat → Nat → Nat → Int
/-- The frequency of REFCLK_A as measured at a time, in ppb (R397 takes it from the input). -/
opaque refFreq : Nat → Int
/-- The payload length of an AUDIT or MIRROR frame, by its type and the number of CRCs or records in it (R452 and R458 give
no length of every object). -/
opaque ixrPayload : Nat → Nat → Nat
/-- The share of a phase difference, in ps, that one servo update absorbs before the cap, from the difference and
time.servo_bw in mHz (R402 gives the bandwidth, not the loop). -/
opaque servoGain : Nat → Int → Nat

end Sys2Proof.Config
end

