-- ==== Sys2Proof/Machine/ParamTable.lean ====
section
/-! DEFINITION. The parameter descriptors (R491): every PID the manual defines, in ascending order. A width is the
least that holds the range where the manual states none (notes/assumptions/5.md). -/

namespace Sys2Proof.Machine

/-- A descriptor: access 0 RO, 1 ParamSet, 2 by command, 3 option image; index kind and unit coded as R491 does. -/
structure PidDesc where
  pid : Nat
  access : Nat
  indexKind : Nat
  indexCount : Nat
  width : Nat
  unit : Nat
  flags : Nat
  min : Int
  max : Int
  dflt : Int
  opcode : Nat
  name : String
deriving DecidableEq, Repr

/-- PIDs 0x0010 to 0x2010. -/
def pidTable0 : List PidDesc := [
  ⟨0x0010, 3, 0, 1, 48, 0, 4, 0, 281474976710655, 0, 0x0000, "device.mac_base"⟩,
  ⟨0x0100, 1, 7, 256, 5, 0, 2, 0, 31, 0, 0x0000, "pf1.reason_ring"⟩,
  ⟨0x0101, 1, 1, 512, 17, 8, 0, 1000, 100000, 10000, 0x0000, "pf1.omci_rate"⟩,
  ⟨0x0200, 3, 0, 1, 1, 0, 4, 0, 1, 0, 0x0000, "pcie.mode"⟩,
  ⟨0x0201, 3, 0, 1, 1, 0, 4, 0, 1, 0, 0x0000, "pcie.port1_write"⟩,
  ⟨0x1010, 1, 1, 512, 13, 15, 0, 0, 4118, 0, 0x0000, "lane.tx_ffe"⟩,
  ⟨0x1011, 1, 1, 512, 10, 15, 0, 300, 900, 600, 0x0000, "lane.tx_swing"⟩,
  ⟨0x1012, 1, 7, 1024, 1, 0, 0, 0, 1, 0, 0x0000, "lane.polarity"⟩,
  ⟨0x1013, 1, 7, 2048, 4, 0, 0, 0, 15, 8, 0x0000, "lane.rx_ctle"⟩,
  ⟨0x1020, 1, 1, 512, 2, 0, 0, 0, 3, 3, 0x0000, "lane.ds_rate"⟩,
  ⟨0x1021, 1, 1, 512, 2, 0, 0, 0, 3, 3, 0x0000, "lane.us_rate_max"⟩,
  ⟨0x1100, 1, 0, 1, 12, 6, 0, 1, 3600, 60, 0x0000, "ladder.retry_interval"⟩,
  ⟨0x1101, 1, 0, 1, 8, 0, 0, 1, 255, 3, 0x0000, "ladder.max_retries"⟩,
  ⟨0x1200, 1, 0, 1, 6, 6, 0, 1, 60, 10, 0x0000, "seed.stale_time"⟩,
  ⟨0x1300, 1, 0, 1, 8, 1, 0, 8, 200, 24, 0x0000, "sbl.reset_lead"⟩,
  ⟨0x1400, 1, 0, 1, 2, 0, 0, 0, 2, 0, 0x0000, "i3c.bus_mode"⟩,
  ⟨0x1401, 1, 0, 1, 14, 5, 0, 10, 10000, 100, 0x0000, "i3c.poll_interval"⟩,
  ⟨0x1500, 1, 7, 32, 3, 0, 0, 0, 4, 0, 0x0000, "uplink.group_mode"⟩,
  ⟨0x1501, 1, 7, 32, 2, 0, 0, 0, 2, 0, 0x0000, "uplink.an_mode"⟩,
  ⟨0x1502, 1, 7, 256, 32, 15, 0, 0, 4294967295, 16384, 0x0000, "uplink.tx_ffe"⟩,
  ⟨0x2000, 1, 1, 512, 32, 0, 0, 0, 4294967295, 0, 0x0000, "ds.pon_id"⟩,
  ⟨0x2001, 1, 0, 1, 4, 0, 0, 1, 8, 4, 0x0000, "ds.ploam_max"⟩,
  ⟨0x2002, 0, 7, 4, 11, 1, 4, 0, 1024, 0, 0x0000, "ds.tx_latency"⟩,
  ⟨0x2003, 0, 7, 4, 32, 9, 4, 0, 4294967295, 0, 0x0000, "ds.fs_bytes"⟩,
  ⟨0x2010, 2, 7, 8192, 9, 0, 0, 0, 511, 0, 0x2000, "trib.channel"⟩]

/-- PIDs 0x2011 to 0x3036. -/
def pidTable1 : List PidDesc := [
  ⟨0x2011, 2, 7, 8192, 14, 0, 0, 1, 10000, 0, 0x2000, "trib.slots"⟩,
  ⟨0x2012, 2, 7, 8192, 18, 9, 0, 1, 160000, 0, 0x2000, "trib.fill"⟩,
  ⟨0x2013, 2, 7, 8192, 18, 0, 0, 0, 262143, 0, 0x2000, "trib.gem_handle"⟩,
  ⟨0x2014, 2, 7, 8192, 17, 0, 0, 0, 131071, 0, 0x2000, "trib.alloc_handle"⟩,
  ⟨0x2015, 2, 7, 8192, 11, 9, 0, 32, 1024, 0, 0x2000, "trib.feed_payload"⟩,
  ⟨0x3000, 1, 1, 512, 1, 0, 0, 0, 1, 1, 0x0000, "disc.enable"⟩,
  ⟨0x3001, 1, 1, 512, 16, 5, 0, 10, 60000, 1000, 0x0000, "disc.interval"⟩,
  ⟨0x3002, 1, 1, 512, 16, 15, 0, 0, 60000, 0, 0x0000, "disc.reach_min"⟩,
  ⟨0x3003, 1, 1, 512, 16, 15, 0, 0, 60000, 20000, 0x0000, "disc.reach_max"⟩,
  ⟨0x3004, 1, 1, 512, 18, 2, 0, 0, 200000, 48000, 0x0000, "disc.random_max"⟩,
  ⟨0x3010, 1, 2, 64, 2, 0, 0, 0, 2, 0, 0x0000, "onu.auto_mode"⟩,
  ⟨0x3011, 1, 2, 64, 12, 6, 0, 1, 3600, 10, 0x0000, "onu.auth_timeout"⟩,
  ⟨0x3012, 1, 0, 1, 13, 7, 0, 16, 4096, 64, 0x0000, "onu.id_quarantine"⟩,
  ⟨0x3013, 1, 2, 64, 16, 5, 0, 10, 60000, 2000, 0x0000, "onu.lost_timeout"⟩,
  ⟨0x3020, 1, 1, 512, 22, 1, 0, 0, 4194303, 500000, 0x0000, "range.teqd"⟩,
  ⟨0x3021, 0, 7, 2048, 32, 1, 4, 0, 4294967295, 0, 0x0000, "range.zero_arrival"⟩,
  ⟨0x3022, 0, 1, 512, 9, 11, 5, -200, 200, 0, 0x0000, "range.rtd_ppm"⟩,
  ⟨0x3023, 1, 1, 512, 4, 0, 0, 1, 15, 3, 0x0000, "range.max_tries"⟩,
  ⟨0x3030, 1, 2, 64, 13, 7, 0, 1, 8000, 16, 0x0000, "tune.default_time"⟩,
  ⟨0x3031, 1, 0, 1, 1, 0, 0, 0, 1, 0, 0x0000, "tune.balance_mode"⟩,
  ⟨0x3032, 1, 0, 1, 7, 13, 0, 5, 80, 20, 0x0000, "tune.balance_threshold"⟩,
  ⟨0x3033, 1, 0, 1, 10, 6, 0, 1, 600, 10, 0x0000, "tune.balance_interval"⟩,
  ⟨0x3034, 1, 0, 1, 7, 0, 0, 1, 64, 4, 0x0000, "tune.balance_max_moves"⟩,
  ⟨0x3035, 1, 0, 1, 1, 0, 0, 0, 1, 0, 0x0000, "tune.balance_standard"⟩,
  ⟨0x3036, 2, 2, 64, 4, 0, 0, 0, 8, 8, 0xC006, "tune.spare_chan"⟩]

/-- PIDs 0x3037 to 0x5040. -/
def pidTable2 : List PidDesc := [
  ⟨0x3037, 1, 2, 64, 7, 7, 0, 4, 64, 8, 0x0000, "tune.lods_wait"⟩,
  ⟨0x3041, 1, 0, 1, 3, 0, 0, 0, 7, 3, 0x0000, "ploam.retries"⟩,
  ⟨0x4010, 1, 0, 1, 9, 1, 0, 32, 256, 64, 0x0000, "map.guard_ticks"⟩,
  ⟨0x4011, 0, 7, 4096, 8, 1, 4, 0, 255, 0, 0x0000, "map.pre_ticks"⟩,
  ⟨0x4012, 0, 7, 4096, 8, 1, 4, 0, 255, 0, 0x0000, "map.del_ticks"⟩,
  ⟨0x4013, 0, 7, 4, 8, 1, 4, 0, 255, 0, 0x0000, "map.grid_ticks"⟩,
  ⟨0x4014, 0, 1, 512, 21, 1, 4, 0, 1244160, 0, 0x0000, "map.up_ref"⟩,
  ⟨0x4015, 0, 0, 1, 14, 1, 0, 8192, 8192, 8192, 0x0000, "map.commit_guard"⟩,
  ⟨0x4020, 2, 1, 512, 5, 0, 0, 0, 16, 8, 0x4000, "map.block_budget"⟩,
  ⟨0x4030, 1, 0, 1, 7, 0, 0, 2, 64, 8, 0x0000, "map.replay_max"⟩,
  ⟨0x4A10, 2, 1, 512, 17, 1, 0, 8448, 65536, 8448, 0x400A, "map.compile_lead"⟩,
  ⟨0x4A11, 2, 1, 512, 4, 7, 0, 1, 8, 2, 0x400A, "map.credit_depth"⟩,
  ⟨0x4A12, 2, 1, 512, 7, 13, 0, 50, 100, 90, 0x400A, "map.assured_limit"⟩,
  ⟨0x4A13, 2, 1, 512, 4, 7, 0, 1, 8, 4, 0x400A, "map.ploam_interval"⟩,
  ⟨0x4A14, 2, 1, 512, 7, 13, 0, 0, 100, 100, 0x400A, "map.be_share"⟩,
  ⟨0x4A15, 2, 1, 512, 17, 1, 0, 256, 65536, 2048, 0x400A, "map.split_min"⟩,
  ⟨0x4A16, 2, 1, 512, 3, 0, 0, 1, 4, 2, 0x400A, "map.window_max"⟩,
  ⟨0x4A17, 2, 1, 512, 7, 7, 0, 1, 64, 8, 0x400A, "map.hint_interval"⟩,
  ⟨0x4A20, 0, 2, 64, 32, 0, 4, 0, 4294967295, 0, 0x0000, "compile.cycles_max"⟩,
  ⟨0x5001, 2, 7, 4096, 4, 15, 2, 0, 10, 4, 0x5003, "rx.delim_errmax"⟩,
  ⟨0x5020, 2, 1, 512, 4, 0, 0, 3, 8, 4, 0x5003, "rx.sdb_set"⟩,
  ⟨0x5021, 2, 1, 512, 14, 5, 0, 100, 10000, 1000, 0x5003, "rx.sdb_interval"⟩,
  ⟨0x5030, 2, 1, 512, 11, 7, 0, 8, 1024, 64, 0x5003, "rx.dg_window"⟩,
  ⟨0x5031, 2, 1, 512, 4, 7, 0, 1, 8, 2, 0x5003, "rx.spare_hold"⟩,
  ⟨0x5040, 0, 1, 512, 32, 15, 5, -2147483648, 2147483647, 0, 0x0000, "rx.standby_skew"⟩]

/-- PIDs 0x6000 to 0x7013. -/
def pidTable3 : List PidDesc := [
  ⟨0x6000, 1, 7, 768, 1, 0, 0, 0, 1, 0, 0x0000, "parse.len_conflict_action"⟩,
  ⟨0x6002, 1, 0, 1, 16, 0, 0, 0, 65535, 4789, 0x0000, "parse.vxlan_port"⟩,
  ⟨0x6003, 1, 0, 1, 16, 0, 0, 0, 65535, 6081, 0x0000, "parse.geneve_port"⟩,
  ⟨0x6010, 1, 0, 1, 7, 0, 0, 8, 64, 16, 0x0000, "facet.hole_interval"⟩,
  ⟨0x6011, 1, 7, 64, 2, 0, 0, 0, 3, 0, 0x0000, "facet.key_profile"⟩,
  ⟨0x6012, 1, 7, 33024, 4, 0, 0, 0, 15, 0, 0x0000, "facet.source_class"⟩,
  ⟨0x6013, 1, 7, 16, 64, 0, 0, 0, 18446744073709551615, 0, 0x0000, "facet.udf_offsets"⟩,
  ⟨0x6014, 0, 5, 8, 8, 0, 4, 0, 255, 0, 0x0000, "facet.epoch"⟩,
  ⟨0x6015, 0, 7, 16, 32, 0, 4, 0, 4294967295, 0, 0x0000, "facet.epoch_inflight"⟩,
  ⟨0x6016, 1, 5, 8, 7, 14, 0, 85, 95, 95, 0x0000, "facet.throttle_start"⟩,
  ⟨0x6017, 0, 5, 8, 8, 0, 4, 0, 255, 0, 0x0000, "facet.throttle_level"⟩,
  ⟨0x6020, 2, 0, 1, 3, 0, 0, 1, 4, 1, 0x6008, "cascade.length"⟩,
  ⟨0x6021, 2, 0, 1, 2, 0, 0, 0, 3, 0, 0x6008, "cascade.position"⟩,
  ⟨0x6022, 2, 7, 16, 8, 0, 0, 0, 255, 0, 0x6008, "cascade.partition"⟩,
  ⟨0x6023, 1, 0, 1, 13, 15, 0, 256, 4096, 512, 0x0000, "cascade.slot_lead"⟩,
  ⟨0x6024, 1, 0, 1, 5, 4, 0, 1, 20, 4, 0x0000, "cascade.timeout"⟩,
  ⟨0x6025, 1, 0, 1, 2, 0, 0, 0, 2, 0, 0x0000, "cascade.incomplete_action"⟩,
  ⟨0x6030, 1, 0, 1, 9, 4, 0, 0, 500, 500, 0x0000, "frag.hold_time"⟩,
  ⟨0x6031, 1, 0, 1, 10, 5, 0, 1, 1000, 30, 0x0000, "frag.life"⟩,
  ⟨0x6032, 1, 7, 33024, 2, 0, 0, 0, 2, 0, 0x0000, "frag.no_first_action"⟩,
  ⟨0x6040, 1, 0, 1, 7, 4, 0, 1, 100, 10, 0x0000, "lag.reorder_wait"⟩,
  ⟨0x7000, 1, 0, 1, 32, 0, 0, 0, 4294967295, 4294967295, 0x0000, "em.hash_seed"⟩,
  ⟨0x7010, 1, 7, 16, 23, 0, 0, 0, 8388607, 0, 0x0000, "em.profile"⟩,
  ⟨0x7012, 1, 7, 65536, 16, 0, 0, 0, 65535, 0, 0x0000, "em.vid_bd"⟩,
  ⟨0x7013, 1, 7, 16, 16, 0, 0, 0, 65535, 0, 0x0000, "em.vrf"⟩]

/-- PIDs 0x7021 to 0xA000. -/
def pidTable4 : List PidDesc := [
  ⟨0x7021, 1, 7, 33024, 18, 0, 0, 0, 262143, 0, 0x0000, "learn.dest"⟩,
  ⟨0x7022, 1, 3, 32768, 13, 0, 0, 0, 4096, 64, 0x0000, "learn.onu_limit"⟩,
  ⟨0x7023, 1, 7, 33024, 1, 0, 0, 0, 1, 0, 0x0000, "learn.limit_action"⟩,
  ⟨0x7024, 1, 4, 256, 21, 0, 0, 0, 1048576, 65536, 0x0000, "learn.port_limit"⟩,
  ⟨0x7025, 1, 7, 65536, 1, 0, 0, 0, 1, 0, 0x0000, "learn.move_mode"⟩,
  ⟨0x7026, 1, 0, 1, 21, 0, 0, 0, 1056768, 917504, 0x0000, "learn.total_limit"⟩,
  ⟨0x7030, 1, 0, 1, 16, 6, 0, 0, 65535, 300, 0x0000, "em.age_time"⟩,
  ⟨0x7031, 1, 0, 1, 10, 6, 0, 1, 600, 10, 0x0000, "em.walk_timeout"⟩,
  ⟨0x8000, 1, 0, 1, 1, 0, 0, 0, 1, 0, 0x0000, "pool.mode"⟩,
  ⟨0x8001, 0, 0, 1, 1, 0, 4, 0, 1, 0, 0x0000, "pool.mode_in_force"⟩,
  ⟨0x8010, 2, 7, 24, 20, 10, 2, 0, 786432, 8192, 0x8001, "pool.reserve"⟩,
  ⟨0x8011, 2, 7, 24, 20, 10, 2, 0, 917504, 917504, 0x8001, "pool.limit"⟩,
  ⟨0x8012, 0, 7, 24, 20, 10, 4, 0, 917504, 0, 0x0000, "pool.held"⟩,
  ⟨0x8020, 0, 0, 1, 20, 10, 4, 0, 917504, 917504, 0x0000, "pool.free"⟩,
  ⟨0x8030, 1, 0, 1, 16, 10, 0, 256, 32768, 4096, 0x0000, "pool.quarantine_max"⟩,
  ⟨0x8040, 1, 0, 1, 7, 15, 0, 4, 92, 64, 0x0000, "dbuf.size"⟩,
  ⟨0x8041, 1, 0, 1, 16, 2, 0, 500, 50000, 2000, 0x0000, "dbuf.flush_time"⟩,
  ⟨0x8042, 0, 7, 4, 23, 0, 4, 0, 6029312, 4194304, 0x0000, "dbuf.free_pages"⟩,
  ⟨0x8050, 2, 7, 16, 77, 0, 0, 0, 0, 0, 0x8003, "dbuf.profile"⟩,
  ⟨0x9000, 1, 0, 1, 13, 9, 0, 64, 4096, 64, 0x0000, "sched.quantum"⟩,
  ⟨0x9001, 1, 0, 1, 15, 0, 0, 1, 16384, 12, 0x0000, "sched.depth_max"⟩,
  ⟨0x9010, 2, 7, 16, 7, 9, 1, -32, 63, 0, 0x900A, "sched.len_overhead"⟩,
  ⟨0x9030, 1, 7, 4096, 14, 2, 0, 0, 10000, 0, 0x0000, "gate.lead"⟩,
  ⟨0x9040, 2, 7, 2048, 13, 0, 4, 0, 8191, 0, 0x9011, "sched.port_tc_queue"⟩,
  ⟨0xA000, 2, 3, 64, 1, 0, 0, 0, 1, 1, 0xA004, "cipher.rec_allowed"⟩]

/-- PIDs 0xA010 to 0xB043. -/
def pidTable5 : List PidDesc := [
  ⟨0xA010, 2, 0, 1, 17, 0, 0, 60, 86400, 3600, 0xA004, "cipher.rekey_interval"⟩,
  ⟨0xA011, 2, 0, 1, 7, 0, 0, 2, 64, 4, 0xA004, "cipher.switch_lead"⟩,
  ⟨0xA012, 2, 0, 1, 11, 0, 0, 8, 1024, 64, 0xA004, "cipher.retire_time"⟩,
  ⟨0xA013, 2, 0, 1, 10, 0, 0, 1, 600, 10, 0xA004, "cipher.rekey_retry"⟩,
  ⟨0xA020, 1, 0, 262144, 1, 0, 0, 0, 1, 0, 0x0000, "cipher.gem_encrypt"⟩,
  ⟨0xA030, 1, 0, 1, 10, 0, 0, 1, 1000, 128, 0x0000, "cipher.reasm_time"⟩,
  ⟨0xB000, 0, 0, 1, 2, 0, 0, 0, 3, 0, 0x0000, "time.state"⟩,
  ⟨0xB003, 0, 0, 1, 32, 3, 1, -2147483648, 2147483647, 0, 0x0000, "time.slew_residual"⟩,
  ⟨0xB011, 2, 0, 1, 1, 0, 0, 0, 1, 0, 0xB003, "time.freq_assist"⟩,
  ⟨0xB012, 2, 0, 1, 4, 12, 0, 1, 10, 10, 0xB003, "time.slew_max"⟩,
  ⟨0xB013, 2, 0, 1, 10, 15, 0, 10, 1000, 100, 0xB003, "time.servo_bw"⟩,
  ⟨0xB014, 2, 0, 1, 12, 6, 0, 0, 3600, 300, 0xB003, "time.wtr"⟩,
  ⟨0xB015, 2, 0, 1, 12, 6, 0, 1, 3600, 60, 0xB003, "time.holdover_avg"⟩,
  ⟨0xB016, 2, 0, 1, 16, 12, 0, 1, 50000, 10, 0xB003, "time.holdover_ppb"⟩,
  ⟨0xB017, 2, 0, 1, 32, 2, 0, 0, 4294967295, 100, 0xB003, "time.holdover_limit"⟩,
  ⟨0xB018, 2, 0, 1, 14, 2, 0, 10, 10000, 100, 0xB003, "time.qual_window"⟩,
  ⟨0xB019, 2, 0, 1, 4, 6, 0, 1, 10, 2, 0xB003, "time.loss_time"⟩,
  ⟨0xB01A, 2, 0, 1, 8, 0, 0, 0, 255, 165, 0xB003, "time.class_limit"⟩,
  ⟨0xB020, 2, 7, 2, 9, 0, 0, 0, 511, 0, 0xB002, "time.td_source"⟩,
  ⟨0xB021, 2, 7, 2, 8, 0, 0, 0, 255, 0, 0xB002, "time.td_prio"⟩,
  ⟨0xB030, 2, 7, 2, 17, 3, 0, 0, 100000, 0, 0xB00A, "pps.in_delay"⟩,
  ⟨0xB040, 2, 1, 512, 24, 0, 0, 13000000, 16000000, 14682000, 0xB007, "asym.n_ds"⟩,
  ⟨0xB041, 2, 1, 512, 24, 0, 0, 13000000, 16000000, 14682000, 0xB007, "asym.n_us"⟩,
  ⟨0xB042, 2, 1, 512, 17, 3, 0, 0, 100000, 0, 0xB007, "asym.tx_delay"⟩,
  ⟨0xB043, 2, 1, 512, 17, 3, 0, 0, 100000, 0, 0xB007, "asym.rx_delay"⟩]

/-- PIDs 0xB044 to 0xC011. -/
def pidTable6 : List PidDesc := [
  ⟨0xB044, 2, 1, 512, 30, 15, 0, 400000000, 600000000, 500000000, 0xB007, "tod.rec_ratio"⟩,
  ⟨0xB045, 1, 0, 1, 7, 2, 0, 1, 100, 1, 0x0000, "tod.update_ns"⟩,
  ⟨0xB050, 2, 4, 256, 20, 3, 0, 0, 1000000, 0, 0xB004, "ptp.ingress_lat"⟩,
  ⟨0xB051, 2, 4, 256, 20, 3, 0, 0, 1000000, 0, 0xB004, "ptp.egress_lat"⟩,
  ⟨0xB052, 2, 4, 256, 21, 3, 1, -1000000, 1000000, 0, 0xB004, "ptp.delay_asym"⟩,
  ⟨0xB053, 2, 4, 256, 1, 0, 0, 0, 1, 0, 0xB004, "ptp.dest_addr"⟩,
  ⟨0xB054, 2, 0, 1, 6, 0, 0, 24, 43, 24, 0xB004, "ptp.domain"⟩,
  ⟨0xB055, 2, 4, 256, 1, 0, 0, 0, 1, 0, 0xB004, "ptp.two_step"⟩,
  ⟨0xB056, 2, 0, 1, 8, 0, 0, 0, 255, 128, 0xB004, "ptp.priority2"⟩,
  ⟨0xB057, 2, 0, 1, 8, 0, 0, 1, 255, 128, 0xB004, "ptp.clock_local_prio"⟩,
  ⟨0xB058, 2, 4, 256, 8, 0, 0, 1, 255, 128, 0xB004, "ptp.port_local_prio"⟩,
  ⟨0xB059, 2, 4, 256, 1, 0, 0, 0, 1, 0, 0xB004, "ptp.not_slave"⟩,
  ⟨0xB060, 2, 7, 4, 2, 0, 2, 0, 2, 1, 0xB009, "pps.out_mode"⟩,
  ⟨0xB061, 2, 7, 4, 30, 2, 0, 1000, 1000000000, 1000000000, 0xB009, "pps.out_period"⟩,
  ⟨0xB062, 2, 7, 4, 46, 15, 1, -32768000000000, 32768000000000, 0, 0xB009, "pps.out_offset"⟩,
  ⟨0xB063, 2, 7, 4, 29, 2, 0, 8, 500000000, 100000000, 0xB009, "pps.out_width"⟩,
  ⟨0xB064, 2, 7, 4, 1, 0, 0, 0, 1, 0, 0xB009, "pps.out_polarity"⟩,
  ⟨0xB065, 2, 7, 4, 17, 3, 0, 0, 100000, 0, 0xB009, "pps.out_delay"⟩,
  ⟨0xB070, 1, 7, 2, 18, 3, 1, -100000, 100000, 0, 0x0000, "ixr.asym"⟩,
  ⟨0xC001, 0, 0, 1, 3, 0, 4, 0, 7, 0, 0x0000, "stack.unit_id"⟩,
  ⟨0xC002, 0, 0, 1, 2, 0, 4, 0, 2, 0, 0x0000, "stack.role"⟩,
  ⟨0xC003, 3, 0, 1, 32, 0, 4, 0, 4294967295, 0, 0x0000, "stack.tag"⟩,
  ⟨0xC004, 0, 0, 1, 48, 0, 4, 0, 281474976710655, 0, 0x0000, "stack.id"⟩,
  ⟨0xC010, 2, 2, 64, 1, 0, 0, 0, 1, 0, 0xC000, "prot.mode"⟩,
  ⟨0xC011, 1, 0, 1, 3, 0, 0, 0, 7, 0, 0x0000, "prot.peer_unit"⟩]

/-- PIDs 0xC030 to 0xD812. -/
def pidTable7 : List PidDesc := [
  ⟨0xC030, 1, 0, 1, 5, 7, 0, 2, 16, 4, 0x0000, "prot.hb_miss"⟩,
  ⟨0xC031, 1, 0, 1, 12, 6, 0, 1, 3600, 10, 0x0000, "prot.audit_interval"⟩,
  ⟨0xC032, 1, 0, 1, 12, 6, 0, 0, 3600, 60, 0x0000, "prot.min_hold"⟩,
  ⟨0xC033, 1, 0, 1, 7, 7, 0, 4, 64, 16, 0x0000, "prot.settle"⟩,
  ⟨0xC034, 1, 0, 1, 1, 0, 0, 0, 1, 1, 0x0000, "prot.auto_release"⟩,
  ⟨0xC035, 1, 0, 1, 14, 4, 0, 100, 10000, 1000, 0x0000, "prot.drill_watch"⟩,
  ⟨0xD000, 0, 0, 1, 24, 15, 4, 0, 16777215, 0, 0x0000, "power.domains"⟩,
  ⟨0xD010, 2, 0, 1, 10, 15, 4, 0, 585, 0, 0xD002, "power.cap_w"⟩,
  ⟨0xD011, 2, 0, 1, 3, 0, 4, 1, 4, 2, 0xD002, "power.cap_stage_max"⟩,
  ⟨0xD012, 0, 0, 1, 16, 15, 4, 0, 65535, 0, 0x0000, "power.estimate_w"⟩,
  ⟨0xD013, 1, 0, 1, 6, 15, 0, 0, 50, 15, 0x0000, "power.avs_guard"⟩,
  ⟨0xD014, 0, 0, 1, 10, 15, 4, 650, 850, 0, 0x0000, "power.avs_setpoint"⟩,
  ⟨0xD020, 0, 0, 1, 3, 0, 0, 0, 5, 0, 0x0000, "sag.stage"⟩,
  ⟨0xD021, 0, 7, 2, 3, 0, 0, 0, 5, 0, 0x0000, "sag.volt_cap_stage"⟩,
  ⟨0xD022, 0, 0, 1, 16, 15, 5, -32768, 32767, 0, 0x0000, "sag.min_margin"⟩,
  ⟨0xD030, 0, 0, 1, 2, 0, 4, 0, 2, 0, 0x0000, "opt.copy"⟩,
  ⟨0xD031, 0, 0, 1, 32, 0, 4, 0, 4294967295, 0, 0x0000, "opt.seq"⟩,
  ⟨0xD032, 3, 0, 1, 1, 0, 4, 0, 1, 0, 0x0000, "opt.boot_slot"⟩,
  ⟨0xD800, 1, 0, 1, 9, 15, 0, 1, 365, 30, 0x0000, "anneal.interval"⟩,
  ⟨0xD801, 0, 0, 1, 48, 6, 4, 0, 281474976710655, 0, 0x0000, "anneal.next_run"⟩,
  ⟨0xD802, 1, 0, 1, 8, 3, 0, 10, 200, 40, 0x0000, "anneal.slack_req"⟩,
  ⟨0xD803, 1, 0, 1, 6, 15, 0, 5, 50, 20, 0x0000, "anneal.margin_low"⟩,
  ⟨0xD810, 0, 7, 48, 10, 15, 4, 650, 850, 0, 0x0000, "anneal.v_target"⟩,
  ⟨0xD811, 0, 7, 48, 8, 15, 5, -128, 127, 0, 0x0000, "anneal.margin"⟩,
  ⟨0xD812, 0, 5, 8, 7, 14, 4, 85, 95, 0, 0x0000, "anneal.facet_tstart"⟩]

/-- PIDs 0xE000 to 0xF014. -/
def pidTable8 : List PidDesc := [
  ⟨0xE000, 0, 0, 1, 2, 0, 0, 0, 2, 0, 0x0000, "fault.class_f"⟩,
  ⟨0xE001, 0, 0, 1, 1, 0, 4, 0, 1, 0, 0x0000, "fault.test_mode"⟩,
  ⟨0xE100, 2, 7, 4, 106, 15, 0, 0, 0, 0, 0xE001, "sample.filter"⟩,
  ⟨0xE104, 2, 0, 1, 5, 0, 0, 0, 16, 0, 0xE001, "sample.rate_log2"⟩,
  ⟨0xE105, 2, 0, 1, 1, 0, 0, 0, 1, 0, 0xE001, "sample.mode"⟩,
  ⟨0xE200, 2, 0, 1, 30, 2, 0, 10000, 1000000000, 1000000, 0xE005, "bw.window"⟩,
  ⟨0xF000, 0, 0, 1, 1, 0, 0, 0, 1, 0, 0x0000, "amp.state"⟩,
  ⟨0xF001, 0, 0, 1, 6, 0, 0, 0, 63, 0, 0x0000, "amp.seal_counter"⟩,
  ⟨0xF010, 0, 0, 1, 7, 9, 1, -32, 63, 0, 0x0000, "amp.ds_overhead"⟩,
  ⟨0xF011, 0, 0, 1, 7, 9, 1, -32, 63, 0, 0x0000, "amp.us_overhead"⟩,
  ⟨0xF012, 0, 0, 1, 10, 2, 0, 1, 1000, 100, 0x0000, "amp.maxerr_alarm"⟩,
  ⟨0xF013, 0, 0, 1, 3, 0, 0, 0, 7, 7, 0x0000, "amp.source_mask"⟩,
  ⟨0xF014, 0, 0, 1, 32, 0, 0, 0, 4294967295, 0, 0x0000, "amp.cert_id"⟩]

/-- Every parameter, in ascending order of PID. -/
def pidTable : List PidDesc := pidTable0 ++ pidTable1 ++ pidTable2 ++ pidTable3 ++ pidTable4 ++ pidTable5 ++ pidTable6 ++ pidTable7 ++ pidTable8

end Sys2Proof.Machine
end

