-- ==== Sys2Proof/Machine/Crc.lean ====
section
/-! DEFINITION. The cyclic redundancy checks of R383 and the HEC-free byte layouts that use them. -/

namespace Sys2Proof.Machine

/-- The bit order of a w-bit word reversed. -/
def bitRev : Nat → Nat → Nat
  | 0, _ => 0
  | w + 1, n => (n % 2) * 2 ^ w + bitRev w (n / 2)

/-- One bit of a CRC of width w, most significant first. -/
def crcBit (w poly reg : Nat) (b : Nat) : Nat :=
  let top := reg / 2 ^ (w - 1) % 2
  let r := reg * 2 % 2 ^ w
  if (top + b) % 2 = 1 then Nat.xor r poly else r

/-- The low k bits of n into a CRC, most significant first. -/
def crcBits (w poly : Nat) : Nat → Nat → Nat → Nat
  | 0, _, reg => reg
  | k + 1, n, reg => crcBits w poly k n (crcBit w poly reg (n / 2 ^ k % 2))

/-- A CRC over octets. -/
def crcOver (w poly : Nat) (refl : Bool) (reg : Nat) (os : List Nat) : Nat :=
  os.foldl (fun r o => crcBits w poly 8 (if refl then bitRev 8 (o % 256) else o % 256) r) reg

/-- Width, polynomial, init, reflection and final XOR of an algorithm code (R383). -/
def crcAlg : Nat → Option (Nat × Nat × Nat × Bool × Nat)
  | 0 => some (32, 0x04C11DB7, 0xFFFFFFFF, true, 0xFFFFFFFF)
  | 1 => some (32, 0x1EDC6F41, 0xFFFFFFFF, true, 0xFFFFFFFF)
  | 2 => some (16, 0x1021, 0xFFFF, false, 0)
  | 3 => some (64, 0x42F0E1EBA9EA3693, 0, false, 0)
  | _ => none

/-- The result of an algorithm over octets from a given start value of its register, which R383 reflects at its input and output
alone (R385). -/
def crcRun (alg init : Nat) (os : List Nat) : Nat :=
  match crcAlg alg with
  | some (w, p, _, r, x) =>
    let v := crcOver w p r init os
    Nat.xor (if r then bitRev w v else v) x
  | none => 0

/-- The result of an algorithm over octets from its Init. -/
def crcOf (alg : Nat) (os : List Nat) : Nat :=
  match crcAlg alg with
  | some (_, _, i, _, _) => crcRun alg i os
  | none => 0

/-- n as k octets, most significant first (R6). -/
def beOctets (k n : Nat) : List Nat := (leOctets k n).reverse

/-- Even bit-interleaved parity over octets. -/
def bip8 (os : List Nat) : Nat := os.foldl (fun a o => Nat.xor a (o % 256)) 0

/-- Bits set in the low w bits of n. -/
def popCount : Nat → Nat → Nat
  | 0, _ => 0
  | w + 1, n => n % 2 + popCount w (n / 2)

end Sys2Proof.Machine
end

