-- ==== Sys2Proof/Machine/Aes.lean ====
section
/-! DEFINITION. The ciphers that the manual names by their standards: AES-256 (FIPS 197), GCM, GMAC and the GCM keystream
(SP 800-38D), the key wrap of RFC 3394 and XTS-AES-256 (IEEE 1619), for R361, R365 to R367, R374, R376 to R381. A block is a
number of 128 bits, its first octet the most significant; a key is one of 256. -/

namespace Sys2Proof.Machine

/-! ### AES-256 (FIPS 197) -/

/-- The substitution table, 32 octets a row, the first one of each row lowest. -/
def sboxRows : List Nat :=
  [0xC072A49CAFA2D4ADF04759FA7DC982CA76ABD7FE2B670130C56F6BF27B777C63,
    0x75B227EBE28012079A059618C323C7041531D871F1E5A534CCF73F362693FDB7,
    0xCF584C4A39BECB6A5BB1FC20ED00D153842FE329B3D63B52A05A6E1B1A2C8309,
    0xD2F3FF1021DAB6BCF5389D928F40A351A89F3C507F02F94585334D43FBAAEFD0,
    0xDB0B5EDE14B8EE4688902A22DC4F816073195D643D7EA7C41744975FEC130CCD,
    0x08AE7A65EAF4566CA94ED58D6D37C8E779E4959162ACD3C25C2406490A3A32E0,
    0x9E1DC186B95735610EF6034866B53E708A8BBD4B1F74DDE8C6B4A61C2E2578BA,
    0x16BB54B00F2D99416842E6BF0D89A18CDF2855CEE9871E9B948ED9691198F8E1]

/-- The inverse table. -/
def invSboxRows : List Nat :=
  [0xCBE9DEC444438E3487FF2F9B8239E37CFBD7F3819EA340BF38A53630D56A0952,
    0x25D18B6D49A25B76B224D92866A12E084EC3FA420B954CEE3D23C2A632947B54,
    0x849D8DA75746155EDAB9EDFD5048706C92B6655DCC5CA4D41698688664F6F872,
    0x6B8A130103BDAFC1020F3FCA8F1E2CD00645B3B80558E4F70AD3BC8C00ABD890,
    0x6EDF751CE837F9E28535ADE72274AC9673E6B4F0CECFF297EADC674F4111913A,
    0xF45ACD78FEC0DB9A2079D2C64B3E56FC1BBE18AA0E62B76F89C5291D711AF147,
    0xEF9CC9939F7AE52D0D4AB519A97F51605FEC8027591012B131C7078833A8DD1F,
    0x7D0C2155631469E126D677BA7E042B17619953833CBBEBC8B0F52AAE4D3BE0A0]

/-- An octet by a table. -/
def byTable (t : List Nat) (b : Nat) : Nat := (t[b % 256 / 32]?).getD 0 / 256 ^ (b % 32) % 256

/-- Twice an element of the field. -/
def xtime (a : Nat) : Nat := if a < 128 then 2 * a else Nat.xor (2 * a % 256) 0x1B

/-- The product of an element and a multiplier of 4 bits. -/
def fieldMul (a m : Nat) : Nat :=
  let a2 := xtime a
  let a4 := xtime a2
  let a8 := xtime a4
  let on (k v : Nat) : Nat := if bit m k then v else 0
  Nat.xor (Nat.xor (on 0 a) (on 1 a2)) (Nat.xor (on 2 a4) (on 3 a8))

/-- Octets added in the field, one by one. -/
def xorOctets (a b : List Nat) : List Nat := (a.zip b).map fun e => Nat.xor e.1 e.2

/-- An octet of a block. -/
def octetAt (b : List Nat) (i : Nat) : Nat := (b[i]?).getD 0

/-- The columns of a block multiplied by a circulant row of four. -/
def mixWith (m : Nat × Nat × Nat × Nat) (b : List Nat) : List Nat :=
  (List.range 16).map fun i =>
    let at_ (k : Nat) : Nat := octetAt b (i / 4 * 4 + (i + k) % 4)
    Nat.xor (Nat.xor (fieldMul (at_ 0) m.1) (fieldMul (at_ 1) m.2.1)) (Nat.xor (fieldMul (at_ 2) m.2.2.1) (fieldMul (at_ 3) m.2.2.2))

/-- Row r of a block turned left by r columns. -/
def shiftRows (b : List Nat) : List Nat := (List.range 16).map fun i => octetAt b ((i + 4 * (i % 4)) % 16)

/-- Row r of a block turned right by r columns. -/
def unshiftRows (b : List Nat) : List Nat := (List.range 16).map fun i => octetAt b ((i + 12 * (i % 4)) % 16)

/-- The next words of the key schedule, from the last eight, newest first; rc is the round constant. -/
def keyWords : Nat → Nat → Nat → List (List Nat) → List (List Nat)
  | 0, _, _, ws => ws
  | n + 1, i, rc, ws =>
    let t := ws.headD []
    let sub (w : List Nat) : List Nat := w.map (byTable sboxRows)
    let t := if i % 8 = 0 then xorOctets (sub (t.drop 1 ++ t.take 1)) [rc, 0, 0, 0] else if i % 8 = 4 then sub t else t
    keyWords n (i + 1) (if i % 8 = 0 then xtime rc else rc) (xorOctets ((ws[7]?).getD []) t :: ws)

/-- The octets of four words at a time. -/
def roundKeysOf : Nat → List (List Nat) → List (List Nat)
  | 0, _ => []
  | n + 1, ws => (ws.take 4).flatten :: roundKeysOf n (ws.drop 4)

/-- The 15 round keys. -/
def roundKeys (key : Nat) : List (List Nat) :=
  let k := beOctets 32 key
  roundKeysOf 15 (keyWords 52 8 1 ((List.range 8).reverse.map fun i => (k.drop (4 * i)).take 4)).reverse

/-- One block under AES-256. -/
def aesEnc (key block : Nat) : Nat :=
  let ks := roundKeys key
  let b := xorOctets (beOctets 16 block) (ks.headD [])
  let round (b k : List Nat) : List Nat := xorOctets (mixWith (2, 3, 1, 1) (shiftRows (b.map (byTable sboxRows)))) k
  let b := (ks.drop 1).dropLast.foldl round b
  beNat (xorOctets (shiftRows (b.map (byTable sboxRows))) ((ks.getLast?).getD [])) 0

/-- The block that AES-256 enciphers into one. -/
def aesDec (key block : Nat) : Nat :=
  let ks := (roundKeys key).reverse
  let b := (unshiftRows (xorOctets (beOctets 16 block) (ks.headD []))).map (byTable invSboxRows)
  let round (b k : List Nat) : List Nat := (unshiftRows (mixWith (14, 11, 13, 9) (xorOctets b k))).map (byTable invSboxRows)
  let b := (ks.drop 1).dropLast.foldl round b
  beNat (xorOctets b ((ks.getLast?).getD [])) 0

/-! ### GCM (SP 800-38D) -/

/-- Blocks of 16 octets, the last one padded with zeros, within so many. -/
def blocks16 : Nat → List Nat → List Nat
  | 0, _ => []
  | n + 1, os => if os.isEmpty then [] else beNat (os.take 16 ++ List.replicate (16 - os.length) 0) 0 :: blocks16 n (os.drop 16)

/-- The blocks of octets. -/
def blocksOf (os : List Nat) : List Nat := blocks16 (ceilDiv os.length 16) os

/-- The product in the field of GHASH over the low n bits of x, most significant first. -/
def ghashMulBits : Nat → Nat → Nat → Nat → Nat
  | 0, _, _, z => z
  | n + 1, x, v, z =>
    ghashMulBits n x (if v % 2 = 1 then Nat.xor (v / 2) (0xE1 * 2 ^ 120) else v / 2) (if bit x n then Nat.xor z v else z)

/-- GHASH under H over blocks. -/
def ghash (h : Nat) (bs : List Nat) : Nat := bs.foldl (fun y b => ghashMulBits 128 (Nat.xor y b) h 0) 0

/-- J0 of an IV of 96 bits (R365). -/
def gcmJ0 (iv : Nat) : Nat := iv * 2 ^ 32 + 1

/-- The next counter block: its low 32 bits count. -/
def inc32 (c : Nat) : Nat := c / 2 ^ 32 * 2 ^ 32 + (c + 1) % 2 ^ 32

/-- The keystream of so many blocks from a counter block on. -/
def keystream (key : Nat) : Nat → Nat → List Nat
  | 0, _ => []
  | n + 1, c => beOctets 16 (aesEnc key c) ++ keystream key n (inc32 c)

/-- GCTR: octets added to the keystream from a counter block on. -/
def gctr (key icb : Nat) (os : List Nat) : List Nat := xorOctets os (keystream key (ceilDiv os.length 16) icb)

/-- The text of a message under a key and an IV, enciphered or deciphered. -/
def gcmText (key iv : Nat) (os : List Nat) : List Nat := gctr key (inc32 (gcmJ0 iv)) os

/-- The tag of a message: additional data and ciphertext. -/
def gcmTag (key iv : Nat) (aad ct : List Nat) : Nat :=
  let h := aesEnc key 0
  Nat.xor (aesEnc key (gcmJ0 iv)) (ghash h (blocksOf aad ++ blocksOf ct ++ [aad.length * 8 * 2 ^ 64 + ct.length * 8]))

/-! ### Key wrap (RFC 3394) of a key of 256 bits -/

/-- One round of the wrap over the four words, counted from t. -/
def wrapRound (kek : Nat) : Nat → Nat → List Nat → Nat × List Nat
  | _, a, [] => (a, [])
  | t, a, r :: rs =>
    let b := aesEnc kek (a * 2 ^ 64 + r)
    let (a2, rs2) := wrapRound kek (t + 1) (Nat.xor (b / 2 ^ 64) t) rs
    (a2, b % 2 ^ 64 :: rs2)

/-- The words of a number of 64-bit words, first word first. -/
def words64 (n x : Nat) : List Nat := (List.range n).reverse.map fun i => x / 2 ^ (64 * i) % 2 ^ 64

/-- Words joined, first word first. -/
def ofWords64 (ws : List Nat) : Nat := ws.foldl (fun a w => a * 2 ^ 64 + w) 0

/-- A key wrapped under a key: 320 bits. -/
def keyWrap (kek key : Nat) : Nat :=
  let (a, rs) := (List.range 6).foldl (fun e j => wrapRound kek (4 * j + 1) e.1 e.2) (0xA6A6A6A6A6A6A6A6, words64 4 key)
  ofWords64 (a :: rs)

/-- One round of the unwrap over the words in reverse, counted down from t. -/
def unwrapRound (kek : Nat) : Nat → Nat → List Nat → Nat × List Nat
  | _, a, [] => (a, [])
  | t, a, r :: rs =>
    let b := aesDec kek (Nat.xor a t * 2 ^ 64 + r)
    let (a2, rs2) := unwrapRound kek (t - 1) (b / 2 ^ 64) rs
    (a2, b % 2 ^ 64 :: rs2)

/-- The key that was wrapped; none where the integrity check fails. -/
def keyUnwrap (kek wrapped : Nat) : Option Nat :=
  let ws := words64 5 wrapped
  let (a, rs) := (List.range 6).reverse.foldl (fun e j => unwrapRound kek (4 * j + 4) e.1 e.2) (ws.headD 0, (ws.drop 1).reverse)
  if a = 0xA6A6A6A6A6A6A6A6 then some (ofWords64 rs.reverse) else none

/-! ### XTS-AES-256 (IEEE 1619) on whole blocks -/

/-- A tweak, little-endian as a number, for the next block. -/
def tweakNext (t : Nat) : Nat := if t < 2 ^ 127 then 2 * t else Nat.xor (2 * t % 2 ^ 128) 0x87

/-- The blocks of a data unit through a block function, each added to its tweak before and after. -/
def xtsBlocks (f : Nat → Nat) : Nat → Nat → List Nat → List Nat
  | 0, _, _ => []
  | n + 1, t, os =>
    let m := beNat (leOctets 16 t) 0
    beOctets 16 (Nat.xor (f (Nat.xor (beNat (os.take 16) 0) m)) m) ++ xtsBlocks f n (tweakNext t) (os.drop 16)

/-- The tweak of a data unit's first block under the second key of a pair: the tweak is a little-endian number (R374). -/
def xtsTweak (keys tweak : Nat) : Nat := beNat (beOctets 16 (aesEnc (keys % 2 ^ 256) (beNat (leOctets 16 tweak) 0))).reverse 0

/-- A data unit enciphered under a pair of keys, the first one the more significant. -/
def xtsEnc (keys tweak : Nat) (os : List Nat) : List Nat :=
  xtsBlocks (aesEnc (keys / 2 ^ 256)) (os.length / 16) (xtsTweak keys tweak) os

/-- A data unit deciphered. -/
def xtsDec (keys tweak : Nat) (os : List Nat) : List Nat :=
  xtsBlocks (aesDec (keys / 2 ^ 256)) (os.length / 16) (xtsTweak keys tweak) os

/-! ### Firmware images (R379) -/

/-- The 64 octets of an image's header: its fields little-endian (R6), the octets of its IV as they are. -/
def Image.header (i : Image) : List Nat :=
  leOctets 4 i.magic ++ [i.kind % 256] ++ leOctets 3 i.resA ++ leOctets 4 i.version ++ leOctets 4 i.stateVersion
    ++ leOctets 4 i.length ++ beOctets 12 i.iv ++ leOctets 32 i.resB

/-- The tag that an image should carry: the header is the additional data, the key IMAGE_KEY. -/
@[irreducible] def Image.rightTag (i : Image) : Nat := gcmTag Config.imageKey i.iv (Image.header i) i.body

/-- An image verifies: as many octets of ciphertext as its header says, and the tag. -/
def Image.tagOk (i : Image) : Bool := i.body.length == i.length && i.tag == Image.rightTag i

/-- The image that a boot slot holds after power-on (notes/assumptions/4.md): of its kind, without ciphertext, with the right tag. -/
def Image.factory (kind : Nat) : Image :=
  let i : Image := { magic := 0x56484946, kind := kind, version := 0, stateVersion := 0, length := 0 }
  { i with tag := Image.rightTag i }

end Sys2Proof.Machine
end

