-- ==== Sys2Proof/Machine/State.lean ====
section
/-! DEFINITION. The state of the block: plain data, one structure per chapter of the manual, gathered in `State`; the
state right after a power-on reset; the one fault and the refusals. Where a field's reset value is not the manual's, the
field's comment and notes/assumptions/1.md say so. -/

namespace Sys2Proof.Machine

/-- Why a run stops with a fault. -/
inductive Fault
  /-- A block holds a real class-F fault record: its behaviour is no longer defined (R536). Raised by every command that
  acts on the block. Safe: the model stops where the manual defines nothing. -/
  | blockUndefined (block : Nat)
deriving DecidableEq, Repr

/-- Why a command is refused. -/
inductive Refusal
  /-- The command has no meaning in the model. Raised by Dispatch only, under the command's mnemonic. Safe. -/
  | notModelled (mnemonic : String)
deriving DecidableEq, Repr

/-! ### Time base and reset controller -/

/-- The tick counters. `now` counts map ticks and never steps; `ltb` is the
LTB in ticks (R391, R392: the LTB is exactly `ltb` × 125,000 / 311,040 ns); `sfc` is the superframe counter (R77). -/
structure Clk where
  now : Nat := 0
  ltb : Nat := 0
  sfc : Nat := 0
deriving DecidableEq, Repr

/-- How far a release has come (R510, R513). -/
inductive RelPhase
  | asserted | clocksCheck | optionLoad | hbmTraining | bootLoad | released
deriving DecidableEq, Repr

/-- A block reset in progress (R516). -/
structure BlockRst where
  block : Nat
  /-- The BlockReset command that waits, if any: a switched-on domain resets its islands without a command (R527). -/
  cmd : Option Req := none
  /-- The reset has been released and the sweep of R321 runs. -/
  sweeping : Bool := false
  /-- Deep pages and staged chains of the queues that an egress half lost, which the sweep frees (R321). -/
  pages : List Nat := []
  chains : List Nat := []
  /-- ONUs whose key contexts the reset cleared (R364). -/
  onus : List Nat := []
deriving DecidableEq, Repr

/-- The reset controller (R505 to R516). -/
structure RstS where
  /-- Sources now asserted. -/
  asserted : List ResetSource := [.pwrGood]
  phase : RelPhase := .asserted
  /-- Reach in progress: 0 none, 1 core, 2 system, 3 power-on. -/
  reach : Nat := 3
  /-- RESET_CAUSE (R479). -/
  cause : Reg := BitVec.ofNat 32 (2 ^ 31 + 31)
  /-- The straps have not been sampled since the last power-on reset (R567). -/
  strapDue : Bool := true
  /-- End of the clocks-present check (R512), in `now` ticks. -/
  checkEnd : Nat := 0
  /-- Islands that stay in reset for want of a clock (R512). -/
  held : List Nat := []
  blocks : List BlockRst := []
  /-- The device watchdog's deadline for bexed_ready, when armed (R514). -/
  devWdt : Option Nat := none
  /-- Times (in `now` ticks) of the core resets the Bexed watchdog asserted in the last 60 s (R514). -/
  wdtCores : List Nat := []
  /-- An orphan sweep is due or runs (R301, R322). -/
  orphanSweep : Bool := false
deriving DecidableEq, Repr

/-! ### Options and boot images (R517 to R524) -/

/-- The plan with plan_version 0 (R556). -/
def MarginPlan.empty : MarginPlan :=
  { version := 0, runCount := 0, runSec := 0, facetTstart := [], groups := [], trims := [], eyes := [] }

/-- An option copy that no check of R520 accepts: the store's contents before anything wrote it (DESIGN CHOICE,
notes/assumptions/1.md). -/
def OptImage.blank : OptImage :=
  { magic := 0, layout := 0, isSigned := false, reservedZero := true, crcOk := false, tagOk := false, seq := 0,
    macBase := 0, ssvid := 0, ssid := 0, stackRole := 0, pcieMode := 0, port1Write := 0, testMode := 0, domains := 0,
    bootSlot := 0, capStageMax := 2, capW := 0, stackTag := 0, presets := [], plan := MarginPlan.empty }

/-- Which write of the option store runs (R522). -/
inductive OptWriter
  | host (cmd : Req) (img : OptImage)
  | annealer (img : OptImage)
deriving DecidableEq, Repr

/-- The options, the option store and the boot slots. -/
structure OptS where
  /-- Options in force (R521). -/
  cur : OptImage := OptImage.blank
  /-- Copy in force: 0 A, 1 B, 2 defaults (PID 0xD030). -/
  copy : Nat := 0
  /-- Failing step of each copy at the last load, 0 for none (R534 OptionFallback). -/
  failA : Nat := 0
  failB : Nat := 0
  /-- An OptionFallback event waits for bexed_ready (R520). -/
  fallbackDue : Bool := false
  copyA : OptImage := OptImage.blank
  copyB : OptImage := OptImage.blank
  writer : Option OptWriter := none
  /-- Boot slots 0 and 1 (R517). -/
  bexed0 : Image := Image.factory 1
  bexed1 : Image := Image.factory 1
  marver0 : Image := Image.factory 2
  marver1 : Image := Image.factory 2
  /-- The slot booted (R523); 2 when both failed. -/
  booted : Nat := 0
  /-- STACK_ID as sampled (R567). -/
  unitId : Nat := 0
deriving DecidableEq, Repr

/-! ### Power (R525 to R534) -/

/-- Supply, caps and domains. -/
structure PwrS where
  /-- Powered domains, bit k in the order of PWR_STATUS (R477). -/
  domains : Nat := 0
  /-- Domains being switched on, with the command that waits (R527). -/
  upping : List (Nat × Option Req) := []
  voltStage : Nat := 0
  capStage : Nat := 0
  /-- Lowest margin in mV and its group (R533 SagStatus). -/
  minMargin : Int := 0
  minGroup : Nat := 0
  capW : Nat := 0
  capStageMax : Nat := 2
  estimate : Nat := 0
  /-- The guard in force, in mV (R530). -/
  guard : Nat := 15
  /-- When the guard reached 0 with the estimate over the cap, or the last cap stage step (R531). -/
  overSince : Option Nat := none
  /-- The cap is still exceeded at power.cap_stage_max, and CapConflict has said so. -/
  unmet : Bool := false
  /-- Since when the estimate has been at or below 95 % of the cap. -/
  underSince : Option Nat := none
deriving DecidableEq, Repr

/-! ### Host interface (R470 to R504) -/

/-- Completion codes, in the order of their values 0x00 to 0x0E (R485). -/
inductive Code
  | ok | busy | limit | badArg | badState | notFound | authFail | timeout | noTarget | notSupported | ended | failed
  | shortBuf | denied | badOpcode
deriving DecidableEq, Repr

/-- A Kilak command in progress on a ring (R486). -/
structure InProg where
  tag : Nat
  op : Nat
  irq : Bool := false
  resCap : Nat := 0
  /-- Its completion is discarded (R473, R482). -/
  discard : Bool := false
deriving DecidableEq, Repr

/-- A completion entry (R484) in host memory, not yet consumed. -/
structure Cpl where
  tag : Nat
  op : Nat
  code : Code
  phase : Bool
  len : Nat
  detail : Nat
  /-- The result octets, inline or at res_addr. -/
  result : List Nat
deriving DecidableEq, Repr

/-- An event entry (R487). -/
structure Evt where
  code : Nat
  phase : Bool
  lost : Bool
  ltb : Nat
  payload : List Nat
deriving DecidableEq, Repr

/-- Interrupt moderation of one ring (R482): entries since the last interrupt and the holdoff's end. -/
structure IrqMod where
  holdoffUs : Nat := 0
  entries : Nat := 0
  count : Nat := 0
  deadline : Option Nat := none
deriving DecidableEq, Repr

/-- One port's Kilak registers and rings (R482). -/
structure KlPort where
  enable : Bool := false
  cmdErr : Bool := false
  cfgErr : Bool := false
  headErr : Bool := false
  cmdBase : Nat := 0
  cmdSize : Nat := 0
  cmdTail : Nat := 0
  cmdHead : Nat := 0
  cplBase : Nat := 0
  cplSize : Nat := 0
  cplHead : Nat := 0
  cplTail : Nat := 0
  cplPhase : Bool := true
  evtBase : Nat := 0
  evtSize : Nat := 0
  evtHead : Nat := 0
  evtTail : Nat := 0
  evtPhase : Bool := true
  /-- KL_IRQ_MOD as written, and the moderation of each ring. -/
  irqMod : Reg := 0
  cplIrq : IrqMod := {}
  evtIrq : IrqMod := {}
  evtLost : Nat := 0
  /-- The next event entry carries lost. -/
  lostFlag : Bool := false
  inProg : List InProg := []
  cpl : List Cpl := []
  evt : List Evt := []
deriving DecidableEq, Repr

/-- A punted packet on its way to its ring (R497). -/
structure Punt where
  ring : Nat
  octets : List Nat
  reason : Nat
  dir : Nat
  sourceKind : Nat
  source : Nat
  ltb : Nat
  gem : Nat
  tc : Nat
  onu : Option Nat
  /-- Head cell of its chain, which holder 52 keeps (R299). -/
  chain : Option Nat := none
deriving DecidableEq, Repr

/-- A punt ring entry as the device wrote it. -/
structure PuntDone where
  octets : List Nat
  reason : Nat
  dir : Nat
  sourceKind : Nat
  source : Nat
  ltb : Nat
  gem : Nat
  tc : Nat
deriving DecidableEq, Repr

/-- A PF1 ring (R495). -/
structure Pf1Ring where
  enable : Bool := false
  bufLog2 : Nat := 0
  base : Nat := 0
  size : Nat := 0
  tail : Nat := 0
  head : Nat := 0
  irqMod : Reg := 0
  irq : IrqMod := {}
  drops : Nat := 0
  /-- Punt rings: entries done. Inject rings: none. -/
  done : List PuntDone := []
  /-- Inject rings: entries posted and not yet read (R498). -/
  posted : List InjectEntry := []
  /-- Inject rings: the status octet of each entry read (R498), oldest first. -/
  status : List Nat := []
deriving DecidableEq, Repr

/-- A PF2 completion (R501). -/
structure AmpCpl where
  slot : Nat
  tag : Nat
  code : Code
  detail : Nat
  result : List Nat
deriving DecidableEq, Repr

/-- A port's PF2 command slots (R501). -/
structure Pf2Port where
  tail : Nat := 0
  head : Nat := 0
  /-- Slots posted, not yet completed. -/
  posted : List Nat := []
  cpl : Tab AmpCpl := []
  /-- The slots' words as host software wrote them: slot n's word w at 16 × n + w. -/
  mem : Tab Nat := []
deriving DecidableEq, Repr

/-- A Bexed restart in progress (R503). -/
structure BexRestart where
  cmd : Req
  start : Nat
  image : Image
deriving DecidableEq, Repr

/-- What the host configured in a function by PCI configuration writes (R472): its power state, and the limits it gives the
requests the device sends. No row of the command table is a configuration write; the values are those a function has after a
Function Level Reset (PRESUMED, notes/assumptions/83.md). -/
structure PcieFn where
  /-- D3hot instead of D0. -/
  d3hot : Bool := false
  /-- Maximum payload and read request size in octets, at most 512 and 4,096. -/
  mps : Nat := 128
  mrrs : Nat := 512
deriving DecidableEq, Repr

/-- The host interface and Bexed. -/
structure HostS where
  scratch : Reg := 0
  bexedReady : Bool := false
  /-- BEXED_STATUS running; 0 in ROM mode (R523). -/
  running : Bool := false
  romMode : Bool := false
  restarts : Nat := 0
  /-- The running image and the verified standby image (R379, R502). -/
  image : Image := Image.factory 1
  standby : Option Image := none
  restart : Option BexRestart := none
  /-- PLOAM messages that arrived during a restart, oldest first (R503). -/
  restartQueue : List Instr := []
  port0 : KlPort := {}
  port1 : KlPort := {}
  punt : Tab Pf1Ring := []
  inject : Tab Pf1Ring := []
  /-- Punted packets in flight to their rings, by pipeline k. -/
  puntQ : List (Nat × Punt) := []
  pf2a : Pf2Port := {}
  pf2b : Pf2Port := {}
  /-- Signals sent, by port × 6144 + function × 2048 + vector (R474). -/
  msix : Tab Nat := []
  /-- Functions whose MSI-X a Function Level Reset disabled, as port × 3 + function (R473). -/
  msixOff : List Nat := []
  /-- MSI-X table words as host software wrote them, by (port × 3 + function) × 2^24 + offset. -/
  msixTab : Tab Nat := []
  /-- Vectors whose signal waits for their mask to be cleared, in the PBA (R470, R474), by the key of `msix`. -/
  msixPend : List Nat := []
  /-- Configured values of the functions, as port × 3 + function. -/
  pcie : Tab PcieFn := []
  /-- The data of the last read-to-clear register read. -/
  rdData : Nat := 0
deriving DecidableEq, Repr

/-! ### Faults (R536 to R547) -/

/-- A fault window (R481); FAULT_FIRST is held by its fields. -/
structure FaultWin where
  status : Nat := 0
  /-- Class-F kinds of which a real fault was recorded (R507). -/
  realF : Nat := 0
  firstValid : Bool := false
  firstTie : Bool := false
  injAlso : Bool := false
  injected : Bool := false
  cls : Nat := 0
  kindNo : Nat := 0
  detail : Nat := 0
  time : Nat := 0
  mask : Nat := 0
deriving DecidableEq, Repr

/-- The fault windows and the class-F latches. -/
structure FltS where
  win : Tab FaultWin := []
  latchReal : Bool := false
  latchInj : Bool := false
  /-- FAULT_ALIVE toggles (R544). -/
  alive : Bool := false
deriving DecidableEq, Repr

/-! ### Monitors (R548 to R554) -/

/-- A sample record (R550). -/
structure SampleRec where
  ltb : Nat
  master : Nat
  priv : Nat
  cls : Nat
  sizeLog2 : Nat
  seq : Nat
  addr : Nat
  data : Nat
  block : Nat
  kind : Nat
  injected : Bool
  detail : Nat
deriving DecidableEq, Repr

/-- One bandwidth window of a port or channel and a direction (R552). -/
structure BwWin where
  curBytes : Nat := 0
  curFrames : Nat := 0
  lastBytes : Nat := 0
  lastFrames : Nat := 0
  lastStart : Nat := 0
  maxBytes : Nat := 0
  maxStart : Nat := 0
  minBytes : Nat := 0
  minStart : Nat := 0
  /-- A window has completed since the last clear. -/
  seen : Bool := false
deriving DecidableEq, Repr

/-- What a histogram unit is bound to (R553): grant latency of an allocation or an ONU, queue depth or delay, or a
source number of HistogramConfig. -/
inductive HistSrc
  | allocLat (a : Nat) | onuLat (h : Nat) | qDepth (q : Nat) | qDelay (q : Nat) | config (n : Nat)
deriving DecidableEq, Repr

/-- A histogram unit (R553). -/
structure HistUnit where
  src : HistSrc
  shift : Nat
  bins : Tab Nat := []
  count : Nat := 0
  sum : Nat := 0
  min : Nat := 0
  minLtb : Nat := 0
  minId : Nat := 0
  max : Nat := 0
  maxLtb : Nat := 0
  maxId : Nat := 0
deriving DecidableEq, Repr

/-- The monitors. -/
structure MonS where
  filters : Tab SampleFilter := []
  rateLog2 : Nat := 0
  mode : Nat := 0
  sampling : Bool := false
  recs : List SampleRec := []
  sampleSeq : Nat := 0
  /-- bw.window in ns, in force and next. -/
  bwNs : Nat := 1000000
  bwNext : Option Nat := none
  /-- Start of the window in progress, in LTB ticks. -/
  bwStart : Nat := 0
  /-- The window in progress overlaps a sag stage. -/
  bwSag : Bool := false
  /-- By 2 × p + dir for ports, 512 + 2 × g + dir for channels. -/
  bw : Tab BwWin := []
  /-- Start of the first and of the last complete window since the keys that are not listed began, in LTB ticks. -/
  bwFirst : Option Nat := none
  bwLast : Nat := 0
  hist : Tab HistUnit := []
deriving DecidableEq, Repr

/-! ### Annealer (R555 to R561) -/

/-- The Annealer. -/
structure AnnS where
  /-- Step of the run in progress, 1 to 7 (R558); 0 when idle. -/
  step : Nat := 0
  cmd : Option Req := none
  /-- The next start, in LTB seconds (PID 0xD801). -/
  nextRun : Nat := 0
  /-- Result of the last run: 0 none, 1 done, 2 aborted. -/
  last : Nat := 0
  /-- The plan in force: V_target per group, margin, facet_tstart. -/
  plan : MarginPlan := MarginPlan.empty
  /-- V_target in force per group (R557, R560). -/
  vTarget : Tab Nat := []
  /-- Groups whose raised target the sag evaluation does not use yet: old target and deadline (R560). -/
  settling : Tab (Nat × Nat) := []
  newPlan : Option MarginPlan := none
  /-- Last readings, by hub × 148 + monitor and by lane (R563). -/
  slack : Tab Int := []
  eye : Tab Nat := []
deriving DecidableEq, Repr

/-! ### Ledger (R32 to R35) -/

/-- One balance of a scope: the invariant's left and right side counted in the window `win`, those counted in earlier windows
not closed yet (R33), what was resident when the last window closed, and the signed imbalances. -/
structure Balance where
  win : Nat := 0
  created : Nat := 0
  ended : Nat := 0
  createdB : Nat := 0
  endedB : Nat := 0
  resident : Int := 0
  last : Int := 0
  cum : Int := 0
  named : Bool := false
deriving DecidableEq, Repr

/-- The grants of one superframe on a channel pair (R163): created, ended, and the ledger window of the superframe's framer
read once it has happened. -/
structure GrantBal where
  created : Nat := 0
  ended : Nat := 0
  readWin : Option Nat := none
deriving DecidableEq, Repr

/-- The ledger: the window closed next; balances per quantity (R32, 0 to 4) and scope index; grants by channel pair + 512 ×
superframe. -/
structure LedS where
  window : Nat := 0
  grants : Tab GrantBal := []
  bal : Tab (Tab Balance) := []
deriving DecidableEq, Repr

/-! ### Lanes, sideband, I3C, uplink, Ixrardo (R37 to R74) -/

/-- Lane power states (R42). -/
inductive LanePwr
  | off | standby | active
deriving DecidableEq, Repr

/-- The channel ladder of a channel pair while it runs (R43). -/
structure Ladder where
  rung : Nat
  cmd : Req
  deadline : Nat
  /-- When the rung began, or TX_FAULT was last seen, for rung P2. -/
  clean : Nat
deriving DecidableEq, Repr

/-- A channel pair's lanes and module. -/
structure LaneCh where
  /-- Administratively enabled: its ladder has reached rung P4. -/
  enabled : Bool := false
  tx : LanePwr := .off
  txGoal : LanePwr := .off
  rx : LanePwr := .off
  rxGoal : LanePwr := .off
  txPll : Bool := false
  rxPll : Bool := false
  /-- The CTLE setting of the base rate and the plan's trim that the last bring-up applied (R43, R557). -/
  ctle : Nat := 0
  trim : Int := 0
  ladder : Option Ladder := none
  present : Bool := false
  /-- The module holds its dynamic address (R64). -/
  addressed : Bool := false
  dynAddr : Option Nat := none
  /-- It has answered the GETPID of the rung P1 that runs or ran last (R43). -/
  pidOk : Bool := false
  /-- When its monitoring values are polled next (R66). -/
  pollAt : Nat := 0
  sigDetect : Bool := false
  txFault : Bool := false
  /-- The last monitoring values polled and the last in-band interrupt payload (R63, R66). -/
  polled : List Nat := []
  ibi : Nat := 0
deriving DecidableEq, Repr

/-- A phase memory entry (R47). -/
structure PhaseEnt where
  valid : Bool := false
  confidence : Nat := 0
  tickOffset : Int := 0
  finePhase : Nat := 0
  freqErr : Int := 0
  level : Nat := 0
  rate : Nat := 0
  lastSeen : Nat := 0
deriving DecidableEq, Repr

/-- What a receive lane's loop was loaded with for a burst to come (R48): the burst's ONU, expected arrival and rate, the
entry as it was read, the CTLE setting of the rate (R40). -/
structure PhaseLoad where
  onu : Nat
  arrival : Nat
  rate : Nat
  ent : PhaseEnt
  ctle : Nat
  /-- tick_offset, fine_phase and the rate skew, in 1/64 tick. -/
  phase : Int
deriving DecidableEq, Repr

/-- Receive states of a sideband link (R58). -/
inductive SbState
  | hunt | presync | locked
deriving DecidableEq, Repr

/-- An event the device put into an outbound sideband frame: the frame's number on the continuous sequence (superframe ×
1,215 + frame), and the event word's fields (R56, R61, R581). -/
structure SbOut where
  frame : Nat
  chan : Nat
  type : Nat
  time : Nat
  param : Nat
deriving DecidableEq, Repr

/-- A sideband link (R55 to R62). -/
structure SbLink where
  state : SbState := .hunt
  /-- Confirmations in PRESYNC; consecutive sync mismatches in LOCKED. -/
  confirms : Nat := 0
  misses : Nat := 0
  nextFrame : Nat := 0
  /-- The carrier's receive state as its frames report it. -/
  peerState : Nat := 0
  /-- The one-way delay in force (R60). -/
  delay : Option Nat := none
  /-- The last calibrations that differed from the delay in force by more than 2 ticks. -/
  cands : List Nat := []
  /-- The outstanding ECHO's tag, and the next tag. -/
  echo : Option Nat := none
  echoTag : Nat := 0
  /-- The outbound frame on the line when the last calibration began. -/
  calAt : Option Nat := none
  out : List SbOut := []
  /-- Event words of the last frame received whole while locked (R55). -/
  rx : List SbEvent := []
deriving DecidableEq, Repr

/-- A transfer on an I3C bus (R66). -/
structure I3cXfer where
  g : Nat
  /-- The waiting ModuleRead or ModuleWrite; none for a polling transfer. -/
  cmd : Option (Req × Bool)
  addr : Nat
  len : Nat
  data : List Nat
  retries : Nat := 0
  /-- The GETPID of rung P1 instead of a polling transfer (R43). -/
  pid : Bool := false
deriving DecidableEq, Repr

/-- An I3C bus: the transfer that runs, host transfers and polling transfers that wait. -/
structure I3cBus where
  cur : Option I3cXfer := none
  host : List I3cXfer := []
  polls : List I3cXfer := []
deriving DecidableEq, Repr

/-- Block lock of a PCS lane (R70). -/
structure PcsLane where
  locked : Bool := false
  /-- The candidate bit position, and the run of valid headers before lock. -/
  cand : Nat := 0
  run : Nat := 0
  /-- Validity of the last headers while locked, newest first, at most 64. -/
  hist : List Bool := []
deriving DecidableEq, Repr

/-- An uplink port: its administrative state and the settings in effect since it last came up (R69). -/
structure UpPort where
  up : Bool := false
  anMode : Nat := 0
  ffe : List Int := []
deriving DecidableEq, Repr

/-- The header of an Ixrardo frame sent (R72); version and reserved bits are constants. -/
structure IxrHdr where
  type : Nat
  cls : Nat
  seq : Nat
  srcUnit : Nat
  dstUnit : Nat
  length : Nat
deriving DecidableEq, Repr

/-- An Ixrardo link, by its uplink group (R72 to R74). -/
structure IxrLink where
  up : Bool := false
  /-- Headers of the frames of the present superframe, in the order in which the sender serves them (R73). -/
  out : List IxrHdr := []
  /-- The next sequence number sent, and the next expected, per type. -/
  txSeq : Tab Nat := []
  rxSeq : Tab Nat := []
deriving DecidableEq, Repr

/-- Lanes, sideband, I3C, uplink and Ixrardo. -/
structure LaneS where
  ch : Tab LaneCh := []
  phase : Tab PhaseEnt := []
  loaded : Tab (List PhaseLoad) := []
  link : Tab SbLink := []
  bus : Tab I3cBus := []
  port : Tab UpPort := []
  pcs : Tab PcsLane := []
  ixr : Tab IxrLink := []
deriving DecidableEq, Repr

/-! ### Downstream framing and tributaries (R75 to R107) -/

/-- A COMMITTED slot map page (R28, R104): the superframe of its boundary, whether its check has ended, and the
SlotMapCommit or TributaryMove that waits. -/
structure SlotCommit where
  sfc : Nat
  checked : Bool := false
  cmd : Option Req := none
  /-- The tributary whose move committed it. -/
  move : Option Nat := none
deriving DecidableEq, Repr

/-- An XGEM frame placed in a downstream frame: the GEM handle whose port it carries, its last-fragment bit, payload octets,
the IV of an encrypted one (R365); a segment's options field (R88); the octets of a segment (R87) and of a PTP event message
with its correction (R409). -/
structure DsFrm where
  gem : Nat
  last : Bool := true
  bytes : Nat
  /-- The key index of its header: 0 clear, 1 slot 0, 2 slot 1 (R357); the IV of a GCM message (R365). -/
  keyIndex : Nat := 0
  iv : Option Nat := none
  options : Nat := 0
  octets : List Nat := []
deriving DecidableEq, Repr

/-- An XGEM frame that the egress half released to a framer: payload octets left, the ONUs it is credited to, its counted
length L, whether its first fragment has gone (R81, R424). -/
structure DsGem where
  bytes : Nat
  dest : Option Nat := none
  up : Option Nat := none
  /-- Bytes that the upstream balance of `up` holds. -/
  bal : Nat := 0
  len : Nat := 0
  fragged : Bool := false
  /-- The GEM handle whose port carries it; an OMCI message, which no tap credits. -/
  gem : Nat := 0
  omci : Bool := false
  /-- Its port was encrypted when it arrived (R357, R389). -/
  enc : Bool := false
  /-- Its octets not placed yet. -/
  octets : List Nat := []
  /-- A PTP event message from an uplink (R409): the LTB of its arrival. -/
  ptp : Option Nat := none
deriving DecidableEq, Repr

/-- A channel framer. -/
structure DsCh where
  active : List SlotEntry := []
  standby : List SlotEntry := []
  commit : Option SlotCommit := none
  gems : List DsGem := []
  /-- The XGEM frames of the present superframe in line order, the tributary region last (R79). -/
  line : List DsFrm := []
  /-- The first superframe in which it transmits, for a spare (R462). -/
  txFrom : Nat := 0
deriving DecidableEq, Repr

/-- Alignment states of an upstream container stream (R97). -/
inductive AlignState
  | hunt | presync1 | presync2 | locked
deriving DecidableEq, Repr

/-- A feed packet toward the uplink side (R98). -/
structure FeedPkt where
  seq : Nat
  octets : List Nat
  defect : Bool
deriving DecidableEq, Repr

/-- A TributaryMove that runs (R106): its command, the new channel, and its step. -/
structure TribMove where
  cmd : Req
  dest : Nat
  step : Nat
deriving DecidableEq, Repr

/-- A tributary (R83 to R107). -/
structure Trib where
  a : TribArgs
  /-- The TributaryCreate that waits for the ONU's answer (R130): the tributary exists once it is answered. -/
  create : Option Req := none
  pending : Option (Nat × Nat) := none
  move : Option TribMove := none
  /-- The elastic store's client octets, oldest first (R93). -/
  store : List Nat := []
  lastFeed : Option Nat := none
  /-- SFC of the first active page that held it; the store has reached its target once (R94). -/
  started : Option Nat := none
  primed : Bool := false
  /-- The last downstream container: its TOH (R90), its octets, and the BIP-8 over them. -/
  dsToh : Nat := 0
  dsOctets : List Nat := []
  dsBip : Nat := 0
  /-- The upstream stream not yet consumed; 256 stands for an octet that was not delineated (R96). -/
  align : AlignState := .hunt
  stream : List Nat := []
  misses : Nat := 0
  /-- While LOCKED: whether the alignment word at the head of `stream` has been tested, and was missed. -/
  headMiss : Option Bool := none
  /-- A superframe, and the octets of the tributary's upstream message that came in it (R367). -/
  usMsg : Nat × Nat := (0, 0)
  /-- The superframe whose stream the hunt starts with (R97). -/
  huntFrom : Nat := 0
  /-- Alignment was LOCKED at the last evaluation or since; it has left LOCKED since (R100). -/
  wasLocked : Bool := false
  lockLost : Bool := false
  usBip : Nat := 0
  /-- Erred BIP-8 bits of the last upstream container, sent back as rei. -/
  rei : Nat := 0
  usBuf : List Nat := []
  usSeq : Nat := 0
  feed : List FeedPkt := []
  /-- Runs of R100: superframes without and with delineated octets, valid TOHs with and without ais and rdi. -/
  deadRun : Nat := 0
  liveRun : Nat := 0
  aisRun : Nat := 0
  noAisRun : Nat := 0
  rdiRun : Nat := 0
  noRdiRun : Nat := 0
  /-- Defects as detected (underneath a suppression) and as reported (R101): LOS, LOF, AIS, RDI in bits 0 to 3. -/
  det : Nat := 0
  rep : Nat := 0
  /-- Superframe from which the 16 of LOF's second condition count. -/
  lofFrom : Nat := 0
deriving DecidableEq, Repr

/-- Framers and tributaries. -/
structure DsS where
  ch : Tab DsCh := []
  trib : Tab Trib := []
deriving DecidableEq, Repr

/-! ### ONU contexts and PLOAM (R108 to R140) -/

/-- States of a context, in the order of their codes (R112). A FREE handle has no context. -/
inductive OnuState
  | free | provisioned | discovered | ranging | confirm | registering | authorising | extending | operation | tuning
  | lost | disabled | deactivating
deriving DecidableEq, Repr

/-- An equalisation record (R109): the delay in 1/64 tick, and the SFC of its last confirmation. -/
structure EqRec where
  valid : Bool := false
  carried : Bool := false
  eqd64 : Nat := 0
  confirmed : Nat := 0
deriving DecidableEq, Repr

/-- Downstream PLOAM messages (R124, R126). -/
inductive PlMsg
  | burstProfile | systemProfile | channelProfile (c : Nat) | seededProfile
  | assignOnuId (onuId serial : Nat)
  /-- EqD in 1/64 tick; the unit sent is the recommendation's, rounded down (R120). -/
  | rangingTime (eqd64 : Nat)
  | deactivate (onuId : Nat)
  /-- 0 disable, 1 enable, 2 enable all. -/
  | disableSerial (mode serial : Nat)
  | requestRegistration
  | assignAlloc (a allocId : Nat) (on : Bool)
  /-- Key exchange messages (R361, R362): kind 0 generate, 1 confirm. -/
  | keyControl (kind slot : Nat)
  | tuningControl (target sfc : Nat)
  | tuneCarry (target : Nat) (standing : Bool) (eqd64 sfc quietLen lodsWait : Nat)
  | extInquire
  | rateStep (rate actSfc : Nat) (seeded : Bool)
  | tribOffer (trib allocId port period : Nat) (enable : Bool)
deriving DecidableEq, Repr

/-- A message waiting for a PLOAM partition: for an ONU's channel pair, or for channel pair g. `seq` is set for a retry,
`left` counts the superframes it is still sent in (R124), `ready` the SFC from which it may go. -/
structure PlItem where
  g : Nat
  onu : Option Nat
  msg : PlMsg
  seq : Option Nat := none
  tries : Nat := 0
  left : Nat := 1
  ready : Nat := 0
deriving DecidableEq, Repr

/-- A message sent in the present superframe. -/
structure PlSent where
  g : Nat
  onuId : Option Nat
  seq : Nat
  msg : PlMsg
deriving DecidableEq, Repr

/-- The unicast message of an ONU whose answer is outstanding (R123). -/
structure PlOut where
  msg : PlMsg
  seq : Nat
  sfc : Nat
  tries : Nat
deriving DecidableEq, Repr

/-- The upstream rate ladder of an ONU (R45). -/
structure OnuLadder where
  /-- 0 idle, 1 waits for the acknowledgement of Rate_Step, 2 trial, 3 waits to retry, 4 given up. -/
  phase : Nat := 0
  rate : Nat := 0
  actSfc : Nat := 0
  untilSfc : Nat := 0
  bursts : Nat := 0
  good : Nat := 0
  uncorr : Bool := false
  fails : Nat := 0
  retryAt : Nat := 0
deriving DecidableEq, Repr

/-- A retune (R131 to R138). Source: 0 host, 1 balancer, 2 spare. -/
structure Tune where
  cmd : Option Req
  source : Nat
  target : Nat
  origin : Nat
  q : Nat
  t : Nat
  /-- Acknowledged, or not required (spare). -/
  acked : Bool := false
  /-- SFC of Tuning_Control. -/
  sent : Nat
  /-- The ranging window on the target has been asked for (R134). -/
  windowed : Bool := false
  /-- The EqD for the target (R133). -/
  eqd64 : Nat
  /-- The upstream rate before the retune, which returns where it fails. -/
  rate : Nat := 0
  /-- The retune's Tune_Carry whose answer is outstanding: it leaves beside Tuning_Control (R126, R132). -/
  carry : Option PlOut := none
  /-- The ranging window on the target has given its EqD (R134). -/
  ranged : Bool := false
  /-- The Tuning_Response sent on arrival has come (R124). -/
  resp : Bool := false
  /-- TUNE_FAIL is counted, and this is the superframe of the one grant on the old channel pair (R113). -/
  oldAt : Option Nat := none
deriving DecidableEq, Repr

/-- An ONU context (R108). -/
structure Onu where
  tree : Nat
  state : OnuState
  serial : Nat
  hostSerial : Bool
  wantId : Option Nat := none
  onuId : Option Nat := none
  chan : Nat := 0
  curRate : Nat := 0
  maxRate : Nat := 0
  ext : Bool := false
  seeded : Bool := false
  tribOk : Bool := false
  carryOk : Bool := false
  standingOk : Bool := false
  pinned : Bool := false
  tuneTime : Nat := 0
  chanMask : Nat := 0
  tribMax : Nat := 0
  lastFail : Nat := 0
  eq : Tab EqRec := []
  /-- Ranging windows used in this attempt; one is open. -/
  tries : Nat := 0
  windowOpen : Bool := false
  reRanging : Bool := false
  acked : Bool := false
  regId : Nat := 0
  /-- End of the state's timeout, in `now` ticks (AUTHORISING, LOST). -/
  deadline : Option Nat := none
  /-- SFC at which the ONU-ID leaves quarantine (DEACTIVATING). -/
  quarEnd : Nat := 0
  seqNo : Nat := 0
  out : Option PlOut := none
  ladder : OnuLadder := {}
  tune : Option Tune := none
  /-- The spare and E_spare last sent in a standing instruction, in 1/64 tick (R137). -/
  standingEqd : Option (Nat × Nat) := none
  /-- Bytes granted upstream and sent downstream since the last balance (R135). -/
  loadUp : Nat := 0
  loadDown : Nat := 0
  /-- A Tuning_Response sent on arrival may still come, and how many have (R124). -/
  respDue : Bool := false
  respCount : Nat := 0
  /-- OnuCreate or OnuEnable made the context PROVISIONED (R113). -/
  provisioned : Bool := false
  /-- When the context last left DISCOVERED to LOST, in SFC, with the ONU-ID it then held; and when OnuDeactivate took it (R114). -/
  left : Option (Nat × Option Nat) := none
  deactSfc : Option Nat := none
deriving DecidableEq, Repr

/-- A discovery window open on a channel pair (R116 to R118): a valid message has been seen. -/
structure DiscWin where
  opened : Nat
  valid : Bool := false
deriving DecidableEq, Repr

/-- ONU contexts and PLOAM. -/
structure OnuS where
  ctx : Tab Onu := []
  /-- The serial number each handle last held (R110). -/
  lastSerial : Tab Nat := []
  /-- ONU-IDs in quarantine, by tree × 1024 + ONU-ID: the SFC of its end (R111). -/
  quar : Tab Nat := []
  bcastSeq : Tab Nat := []
  queue : List PlItem := []
  sent : List PlSent := []
  /-- SFC in which each profile message was last sent, by g × 16 + k: k = 0 Burst_Profile, 1 System_Profile, 2 + c (R125). -/
  profSent : Tab Nat := []
  disc : Tab DiscWin := []
  /-- When each channel pair's next window is due, in `now` ticks. -/
  discNext : Tab Nat := []
  /-- When each tree's next balance is due. -/
  balNext : Tab Nat := []
  /-- Bytes granted and sent per channel pair since the last balance. -/
  chUp : Tab Nat := []
  chDown : Tab Nat := []
deriving DecidableEq, Repr

/-! ### Burst maps and their compilation (R141 to R200) -/

/-- A fixed pattern set with the SFC at which it becomes current (R149). -/
structure FixedSet where
  actSfc : Nat
  entries : List FixedEntry
deriving DecidableEq, Repr

/-- Outcome of a page check (R152): not ended, passed, or failed at a rule and an entry index. -/
inductive PageCheck
  | waiting | passed | failed (rule index : Nat)
deriving DecidableEq, Repr

/-- A COMMITTED map page: its target superframe, whether its commit came too late for it, whether its grants still count
as created for the target, its check. -/
structure MapCommit where
  target : Nat
  late : Bool
  live : Bool := true
  check : PageCheck := .waiting
deriving DecidableEq, Repr

/-- A burst expected at a receive lane (R156): its entries as (alloc handle, length in ticks, dbru, ploamu). -/
structure Expect where
  sfc : Nat
  kind : EntryKind
  onu : Nat
  rate : Nat
  profile : Nat
  /-- Expected arrival, in LTB ticks. -/
  arrival : Nat
  len : Nat
  allocs : List (Nat × Nat × Bool × Bool)
  /-- No BURST event could be sent for it, so it has no reset (R59, R581). -/
  noReset : Bool := false
  /-- The ONU-ID that the grant named, when it was executed (R155). -/
  onuId : Option Nat := none
deriving DecidableEq, Repr

/-- The pages and schedule of a channel pair's burst engine. -/
structure MapCh where
  active : List MapEntry := []
  activeTarget : Nat := 0
  standby : List MapEntry := []
  standbyTarget : Nat := 0
  commit : Option MapCommit := none
  /-- ONUs whose grants in the standby page are cancelled (R113). -/
  cancelled : List Nat := []
  /-- Block budgets adopted by the active and the standby page (R148). -/
  budgetA : Nat := 8
  budgetS : Nat := 8
  fixedCur : Option FixedSet := none
  fixedNext : Option FixedSet := none
  /-- The sets copied to a spare with the superframe from which they stand, in place of its own (R151, R462). -/
  fixedStage : Option (Nat × Option FixedSet × Option FixedSet) := none
  /-- Allocations whose FIXED entries the compile withheld, as their ONU had not acknowledged them (R176). -/
  withheld : List Nat := []
  replays : Nat := 0
  /-- The BWmap of the present superframe, as executed (R155). -/
  bwmap : List MapEntry := []
  expect : List Expect := []
  compiled : Bool := false
deriving DecidableEq, Repr

/-- An allocation context (R175) and its state. -/
structure Alloc where
  allocId : Nat
  onu : Nat
  a : AllocArgs
  /-- The default allocation of an ONU-ID (R184). -/
  dflt : Bool := false
  acked : Bool := false
  /-- The latest report and the upstream position of its burst; grants committed since, as (position, bytes). -/
  report : Nat := 0
  reportPos : Nat := 0
  granted : List (Nat × Nat) := []
  aCredit : Nat := 0
  nCredit : Nat := 0
  lastReport : Nat := 0
  lastGrant : Nat := 0
  /-- Target superframe of the last grant with dbru = 1. -/
  lastDbru : Nat := 0
  pollDue : Bool := false
  staged : Option AllocArgs := none
  destroying : Option Req := none
  /-- When a report raised the demand from zero, for grant latency, and the position of the first grant that serves it (R194). -/
  latFrom : Option Nat := none
  latGrant : Option Nat := none
deriving DecidableEq, Repr

/-- A window request from Bexed (R190). -/
structure WinReq where
  g : Nat
  kind : EntryKind
  onu : Nat
  len : Nat
deriving DecidableEq, Repr

/-- A planned window: positions count ticks on the upstream time line from superframe 0. -/
structure WinPlan where
  g : Nat
  kind : EntryKind
  onu : Nat
  qs : Nat
  len : Nat
  grant : Nat
deriving DecidableEq, Repr

/-- A quiet interval of an ONU on two channel pairs, from the first superframe to before the last (R132). -/
structure QuietIv where
  onu : Nat
  g1 : Nat
  g2 : Nat
  first : Nat
  last : Nat
deriving DecidableEq, Repr

/-- The hint record of a channel pair (R195). -/
structure Hint where
  demanded : Nat := 0
  granted : Nat := 0
  short : Nat := 0
  onus : List Nat := []
deriving DecidableEq, Repr

/-- A Marver core (R196, R197). -/
structure MarverCore where
  active : Image := Image.factory 2
  standby : Option Image := none
  old : Option Image := none
  /-- SFC of an activation that waits; SFC at which the watch ends. -/
  activateAt : Option Nat := none
  watchEnd : Option Nat := none
  revertDue : Bool := false
  /-- SFC from which it compiles again after a trap. -/
  upAt : Nat := 0
deriving DecidableEq, Repr

/-- The inputs as they stood at the last snapshot (R169, R172). -/
structure Snap where
  sfc : Nat := 0
  alloc : Tab Alloc := []
  onu : Tab Onu := []
  policy : Tab (Tab Int) := []
  seedReady : List Nat := []
  stage : Nat := 0
  /-- Windows planned, ONUs expected on a spare, and the channel pairs that are reserved spares. -/
  plans : List WinPlan := []
  spare : Tab (Nat × Nat) := []
  spares : List Nat := []
deriving DecidableEq, Repr

/-- Maps, allocations, Marver. -/
structure MapS where
  ch : Tab MapCh := []
  alloc : Tab Alloc := []
  /-- Policy values by scope key (0 device, 1 + t tree, 100 + g channel pair) and PID (R179). -/
  policy : Tab (Tab Int) := []
  requests : List WinReq := []
  plans : List WinPlan := []
  quiet : List QuietIv := []
  hints : Tab Hint := []
  /-- ONUs expected on a spare, by handle: the channel pair and the first superframe of their grants (R138). -/
  spare : Tab (Nat × Nat) := []
  /-- ONUs among them without a retune of the device's, whose full ranging window on the spare has been asked for (R134, R138). -/
  spareWin : List Nat := []
  /-- The hint in collection: demanded, granted ticks, short bytes, unserved demand per ONU. -/
  hintAcc : Tab Hint := []
  unserved : Tab (Tab Nat) := []
  /-- SFC of each channel pair's last hint record. -/
  hintAt : Tab Nat := []
  core : Tab MarverCore := []
  snap : Snap := {}
  /-- Phase memory entries seed-ready in the publication of the present superframe, by 8 × handle + c (R51). -/
  seedPub : List Nat := []
  /-- Target SFC of each ONU's last ploamu grant. -/
  lastPloamu : Tab Nat := []
  /-- Target SFC of the tune confirmation grant that each ONU's present retune has had (R184). -/
  tuneGiven : Tab Nat := []
  /-- Largest compile sum per tree since read (PID 0x4A20). -/
  cyclesMax : Tab Nat := []
  cyclesNow : Tab Nat := []
  /-- SFC of each ONU's last executed grant (R167). -/
  lastGrantSfc : Tab Nat := []
deriving DecidableEq, Repr

/-! ### Upstream reception (R201 to R226) -/

/-- Outcomes of an expected burst (R207). -/
inductive Outcome
  | clean | damaged | missing | foreign | discarded
deriving DecidableEq, Repr

/-- A burst's outcome, kept for the evaluation of its upstream superframe. -/
structure BurstEnd where
  sfc : Nat
  onu : Nat
  outcome : Outcome
  /-- The burst's header carried the dying-gasp indication. -/
  gasp : Bool
  /-- The tick_offset measured, before clamping (R50). -/
  offset : Int
deriving DecidableEq, Repr

/-- What a receive lane keeps of an ONU on a channel pair (R208, R209, R221). -/
structure RxOnu where
  missRun : Nat := 0
  damageRun : Nat := 0
  cleanRun : Nat := 0
  /-- Entry conditions that hold, and defects reported: LOB, LOD, DRIFT, SDB in bits 0 to 3. -/
  det : Nat := 0
  rep : Nat := 0
  /-- The tick_offset that made DRIFT. -/
  driftBy : Int := 0
  /-- SDB interval: corrected and protected bits since its start, and its end in `now` ticks. -/
  corr : Nat := 0
  prot : Nat := 0
  sdbEnd : Option Nat := none
  /-- The entry condition of SDB held at the end of the last interval. -/
  sdbHot : Bool := false
  /-- The entry condition of DRIFT held at the last evaluation (R221). -/
  drifted : Bool := false
  arrLast : Int := 0
  arrMin : Int := 0
  arrMax : Int := 0
  /-- Arrival offsets of the last 64 delineated bursts, newest first, in 1/64 tick. -/
  arr : List Int := []
  rssi : Nat := 0
  /-- The last superframe in which a dying gasp is in force. -/
  gaspUntil : Option Nat := none
  /-- A grant has been executed since the last delineated burst (R220). -/
  granted : Bool := false
deriving DecidableEq, Repr

/-- What a receive lane keeps of its channel pair (R211, R217, R218, R222, R225). -/
structure RxCh where
  ends : List BurstEnd := []
  /-- The upstream superframe evaluated last. -/
  evalSfc : Option Nat := none
  silentRun : Nat := 0
  liveRun : Nat := 0
  losC : Bool := false
  faultRun : Nat := 0
  txUnlockRun : Nat := 0
  rxUnlockRun : Nat := 0
  opticsFail : Bool := false
  opticsCause : Nat := 0
  holdRun : Nat := 0
  channelFail : Bool := false
  /-- Standby: the skew in force and the offsets of the measurement that runs (R225). -/
  skew : Int := 0
  skewArr : List Int := []
  skewDone : Bool := false
deriving DecidableEq, Repr

/-- Upstream reception. -/
structure RxS where
  /-- By 8 × handle + channel pair of its tree. -/
  onu : Tab RxOnu := []
  ch : Tab RxCh := []
  /-- Trees with TREE_FAIL (R218). -/
  treeFail : List Nat := []
  /-- By index of PID 0x5001: the value still in force until the channel pair's next evaluation (R224). -/
  errHeld : Tab Nat := []
deriving DecidableEq, Repr

/-! ### Parsing, classification, aggregation (R227 to R268) -/

/-- The headers the parser recognises (R227). -/
inductive HdrKind
  | eth | vlan | pppoe | mpls | ip4 | ip6 | ext | frag | tcp | udp | sctp | icmp | icmp6 | igmp | gre | vxlan | geneve | ptp
  | esp | ah
deriving DecidableEq, Repr

/-- What the headers parsed so far say comes next: a header of R227; one that the table does not hold; nothing, since a
payload names no header. -/
inductive Nxt
  | hdr (h : HdrKind) | unknown | none
deriving DecidableEq, Repr

/-- A packet at a parser input or waiting in the ingress half. `gem` and `g` are of its upstream frame; `at_` is the LTB
of its arrival; `chain` the head cell of its chain once allocated; `stamp` the epoch of its first pass (R239); `hdrFrom` the
header at which its pass begins, which the table may not hold (R228, R237); `hash` the bucket of its first pass (R264). -/
structure Pkt where
  dir : Nat
  srcKind : Nat := 0
  source : Nat := 0
  /-- Injected in mode 0 (R498): the packet exchange's requester gives its cells. -/
  inj : Bool := false
  g : Nat := 0
  gem : Nat := 0
  octets : List Nat
  at_ : Nat := 0
  chain : Option Nat := none
  pass2 : Bool := false
  stamp : Nat := 0
  tc : Nat := 0
  hdrFrom : Nxt := .hdr .eth
  hash : Nat := 0
  /-- A later fragment classified under frag.no_first_action 2: no table lookup again. -/
  noFrag : Bool := false
deriving DecidableEq, Repr

/-- A descriptor (R300), or one for an aggregation group whose member the egress half chooses. -/
structure Desc where
  cell : Nat
  len : Nat
  queue : Nat
  tc : Nat
  dir : Nat
  deep : Bool := false
  lag : Option Nat := none
  bucket : Nat := 0
deriving DecidableEq, Repr

/-- A FacetImageSwap that waits for its boundary (R240), or for the previous epoch to drain (R241). -/
structure FacetSwap where
  cmd : Req
  deadline : Nat
  draining : Bool := false
deriving DecidableEq, Repr

/-- A slice's Facet image (R230 to R242): entries by group × 16,384 + physical index, bank widths by page × 16 + group × 8
+ bank, action records by (page × 2 + group) × 16,384 + index. -/
structure FacetSl where
  epoch : Nat := 0
  entry : Tab FacetEntry := []
  width : Tab Nat := []
  recs : Tab ActionRec := []
  committed : Bool := false
  swap : Option FacetSwap := none
  /-- Packets in flight of an even and an odd epoch. -/
  inEven : Nat := 0
  inOdd : Nat := 0
  /-- Throttle level n (R248). -/
  level : Nat := 0
  /-- Hit counters by group × 2^20 + index (R235). -/
  hits : Tab Nat := []
deriving DecidableEq, Repr

/-- A fragment table entry (R259, R260): the recorded decision. -/
structure FragEnt where
  act : ActionRec
  /-- Queue or group resolved: destination kind and number. -/
  destKind : Nat
  dest : Nat
  used : Nat
deriving DecidableEq, Repr

/-- A held later fragment (R261). -/
structure FragHeld where
  key : Nat
  pkt : Pkt
  until_ : Nat
deriving DecidableEq, Repr

/-- An aggregation group (R262 to R265). -/
structure Lag where
  ports : List Nat
  up : List Nat
  /-- Bucket table, by bucket. -/
  bucket : Tab Nat := []
  /-- Round robin: the next sequence number, the next to start, the last member used, members left out. -/
  seq : Nat := 0
  started : Nat := 0
  lastPort : Option Nat := none
  out : List Nat := []
deriving DecidableEq, Repr

/-- A search of the head that waits for its result (R254, R256). -/
structure CascWait where
  pkt : Pkt
  act : ActionRec
  slot : Nat
  /-- The head's own best level and record. -/
  own : Nat := 0
  ownRec : Option ActionRec := none
  /-- The final symbol once read, and when the result is overdue; a result that came before the symbol: level and record. -/
  final : Option Nat := none
  res : Option (Nat × ActionRec) := none
  until_ : Nat := 0
deriving DecidableEq, Repr

/-- A position's own result for a slot (R255). -/
structure CascOwn where
  tag : Nat
  level : Nat
  index : Nat
  act : ActionRec
  won : Bool := false
  until_ : Nat := 0
deriving DecidableEq, Repr

/-- The receiver of a MATCH_IN line in training (R253): the candidate bit position, the bits of the symbol in progress, the
last symbol at this candidate, and how many symbols in a row have continued the count; once locked, the slots by which the
line lags behind this device's count. -/
structure MatchRx where
  cand : Nat := 0
  part : List Bool := []
  last : Option Nat := none
  run : Nat := 0
  lag : Nat := 0
deriving DecidableEq, Repr

/-- A cascade of this device (R251 to R258); by slice, or by slice × 2^24 + slot or tag. -/
structure CascS where
  trained : Tab Bool := []
  rx : Tab MatchRx := []
  /-- The training of MATCH_OUT and of the MATCH_IN receiver ends, in `now` ticks. -/
  trainEnd : Tab Nat := []
  rxEnd : Tab Nat := []
  waits : Tab CascWait := []
  nextTag : Nat := 0
  own : Tab CascOwn := []
  /-- Last symbol driven on MATCH_OUT: slot and symbol. -/
  out : Tab (Nat × Nat) := []
  /-- Open CASCADE_KEY and CASCADE_RESULT frames, and those closed and sent. -/
  keyOpen : Tab (List CascadeKey) := []
  resOpen : Tab (List CascadeResult) := []
  keySent : List (List CascadeKey) := []
  resSent : List (List CascadeResult) := []
  /-- Times of the mismatches and timeouts of the last ms. -/
  bad : List Nat := []
  /-- Searches, by the key of their wait, that ended in a timeout and whose result has not come since (R256). -/
  timedOut : List Nat := []
deriving DecidableEq, Repr

/-- Ingress halves. -/
structure ParS where
  inq : Tab (List Pkt) := []
  recirc : Tab (List Pkt) := []
  facet : Tab FacetSl := []
  /-- Fragment tables by slice, by a key of R259, and hold lists. -/
  frag : Tab (Tab FragEnt) := []
  held : Tab (List FragHeld) := []
  lag : Tab Lag := []
  casc : CascS := {}
  /-- Descriptor crossbar, by the pipeline whose egress half receives. -/
  xbar : Tab (List Desc) := []
  /-- Mirrored copies (R237), oldest first: the session and the packet's octets. -/
  mirrored : List (Nat × List Nat) := []
deriving DecidableEq, Repr

/-! ### Exact-match table (R269 to R294) -/

/-- An entry of the exact-match table (R272), as the writer and each copy hold it. -/
structure EmEnt where
  kind : Nat
  isStatic : Bool
  age : Nat := 0
  retiring : Bool := false
  noOwner : Bool := false
  ownerKind : Nat := 0
  owner : Nat := 0
  learned : Bool := false
  key : Nat
  destKind : Nat := 0
  dest : Nat := 0
  tcValid : Bool := false
  tc : Nat := 0
  hit : Bool := false
deriving DecidableEq, Repr

/-- A write of the table writer (R270): an entry put at a position, keeping the hit bit there; a position invalidated,
carrying its hit bit to another position (R280); the ager's fields of an entry (R287, R288), and its write-back into the copies
that invalidated; the repair of one slice's copy (R289). -/
inductive EmOp
  | put (pos : Nat) (e : EmEnt)
  | inval (pos : Nat) (carry : Option Nat)
  | age (pos age : Nat) (clearHit retiring : Bool)
  | back (pos : Nat) (e : EmEnt)
  | repair (slice pos : Nat) (e : EmEnt)
deriving DecidableEq, Repr

/-- A command that completes when every copy has applied the write with its number. -/
structure EmWait where
  seq : Nat
  cmd : Req
  op : Nat
  vals : List Nat := []
deriving DecidableEq, Repr

/-- A table walk (R291). -/
structure EmWalk where
  cursor : Nat := 0
  kindF : Option Nat := none
  ownerF : Option (Nat × Nat) := none
  until_ : Nat
deriving DecidableEq, Repr

/-- A learn notification (R283). -/
structure LearnNote where
  key : Nat
  srcKind : Nat
  source : Nat
  bd : Nat
deriving DecidableEq, Repr

/-- The exact-match table. -/
structure EmS where
  /-- The table as the writer has decided it, by position: 4 × bucket + way, overflow from 1,048,576. -/
  tab : Tab EmEnt := []
  /-- Order in which overflow positions were filled. -/
  ovf : List Nat := []
  /-- The eight copies. -/
  copy : Tab (Tab EmEnt) := []
  /-- Writes issued and not applied by every copy, with their numbers; the last number; what each copy applied. -/
  writes : Tab EmOp := []
  seq : Nat := 0
  applied : Tab Nat := []
  waits : List EmWait := []
  /-- Copies that a block reset cleared and the writer has not refilled (R293). -/
  refilling : List Nat := []
  walk : Tab EmWalk := []
  /-- Promotions that wait for the last walk to close: bucket ways that became free. -/
  deferred : List Nat := []
  flushing : Option Nat := none
  learnQ : Tab (List LearnNote) := []
  filter : Tab (List (LearnNote × Nat)) := []
  /-- The learn queue taken next. -/
  turn : Nat := 0
  /-- Learned entries per owner: handle, or 32,768 + port. -/
  owners : Tab Nat := []
  /-- Sources whose next packet is punted with LEARN_LIMIT (R285). -/
  refused : List LearnNote := []
  /-- By position: the number of the write that set retiring (R288), and the interval of the ager's last sweep (R287). -/
  retire : Tab Nat := []
  swept : Tab Nat := []
deriving DecidableEq, Repr

/-! ### The Gather pool and deep buffer (R295 to R326) -/

/-- A link entry of a cell that is not FREE (R298): state 1 CHAIN, 2 QUAR, 3 HELD. -/
structure Cell where
  next : Nat
  last : Bool
  head : Bool
  st : Nat
  holder : Nat
  owner : Nat
deriving DecidableEq, Repr

/-- A chain header (R297). -/
structure ChainHdr where
  len : Nat
  cells : Nat
  dir : Nat
  srcKind : Nat
  source : Nat
  srcHost : Bool
  dest : Option Nat
  queue : Nat
  enqNs : Nat
deriving DecidableEq, Repr

/-- A chain: its cells in order, its header, its packet's octets. -/
structure Chain where
  cells : List Nat
  hdr : ChainHdr
  octets : List Nat
  /-- The LTB of the packet's arrival at the balls (R409). -/
  arr : Nat := 0
  /-- Its bytes have entered the balance of the ONU that the header names (R32, R297). -/
  entered : Bool := false
  /-- The number of the packet in the deep buffer that its staged cells belong to. -/
  deepId : Nat := 0
  /-- Changes of cipher.gem_encrypt before it arrived (R389). -/
  encNo : Nat := 0
deriving DecidableEq, Repr

/-- A packet in the deep buffer. -/
structure DeepPkt where
  hdr : ChainHdr
  octets : List Nat
  tc : Nat
  /-- Its aggregation group and sequence number or bucket. -/
  lag : Option (Nat × Nat) := none
  arr : Nat := 0
  /-- A page that held a cell of it was lost (R320). -/
  bad : Bool := false
  id : Nat := 0
  encNo : Nat := 0
  /-- Dropped where it lies, and counted: its slots are read back into nothing. -/
  gone : Bool := false
deriving DecidableEq, Repr

/-- A deep-buffer page: its record (R315), the packets that start in it and the slots that continue an earlier one. -/
structure Page where
  queue : Nat
  next : Option Nat := none
  slots : Nat
  startMap : Nat
  seq : Nat
  cont : Nat
  pkts : List DeepPkt
  written : Bool := false
deriving DecidableEq, Repr

/-- The pool. -/
structure PoolS where
  cells : Tab Cell := []
  chains : Tab Chain := []
  /-- Cells whose data hold an uncorrectable error (R301). -/
  bad : List Nat := []
  /-- Cells whose free has not reached their bank (R304). -/
  freeing : List Nat := []
  held : Tab Nat := []
  /-- The bank each of requesters 16 to 23 used last (R305). -/
  lastBank : Tab Nat := []
  modeInForce : Nat := 0
  pages : Tab Page := []
  prof : Tab BufProfile := []
  /-- Queues in the order of their page reads asked for, and of their pages completed and not yet written (R317). -/
  rdOrder : List Nat := []
  wrOrder : List Nat := []
  /-- The number of the next packet that enters the deep buffer. -/
  deepNext : Nat := 0
deriving DecidableEq, Repr

/-! ### Scheduling, shaping, policing, gates (R327 to R354) -/

/-- A token bucket (R335): its level in 1/65,536 byte, and the 1.5552 GHz clock of its last update. -/
structure Bucket where
  level : Int := 0
  at_ : Nat := 0
deriving DecidableEq, Repr

/-- A chain in a tail segment: its descriptor, and its cells not yet freed after a page write. -/
structure TailCh where
  desc : Desc
  left : Nat
deriving DecidableEq, Repr

/-- A queue (R314, R329). -/
structure Queue where
  a : NodeArgs
  head : List Desc := []
  spill : Bool := false
  /-- Cells of tail chains staged and not yet freed, in staging order: (page, chain's head cell, cells). -/
  staged : List (Nat × Nat × Nat) := []
  /-- The open page and when its first cell was staged; pages filled that wait; page writes in progress. -/
  openPg : Option (Nat × Nat) := none
  ready : List Nat := []
  writing : List Nat := []
  deep : List Nat := []
  seq : Nat := 0
  reading : Bool := false
  /-- A packet whose first cells have been read back and whose last page has not. -/
  partRd : Option (DeepPkt × Nat) := none
  /-- The seq the next page read must carry. -/
  nextSeq : Nat := 0
  bmax : Bucket := {}
  bmin : Bucket := {}
  deficit : Int := 0
  /-- The head frame did not fit its gate window, and waits for the next; it is counted in GATE_WAITS (R353). -/
  waiting : Bool := false
  waited : Bool := false
  /-- The ONU and the GEM handle its frames go to, which no rule of the manual binds (notes/assumptions/2.md). -/
  bind : Option Nat := none
  gem : Nat := 0
  qdLast : Nat := 0
  qdMax : Nat := 0
  qlLast : Nat := 0
  qlMax : Nat := 0
deriving DecidableEq, Repr

/-- A vertex: per prio its ring of node keys and the pointer, with whether the child under it has had its quantum (R333).
A node key is a queue key below 2^18, or 2^18 + vertex. -/
structure Vertex where
  a : NodeArgs
  dir : Nat
  bmax : Bucket := {}
  bmin : Bucket := {}
  deficit : Int := 0
  rings : Tab (List Nat) := []
  ptr : Tab (Nat × Bool) := []
  /-- Of a root: host software has set its max_rate, which otherwise is its line's speed (R346). -/
  rateSet : Bool := false
deriving DecidableEq, Repr

/-- A policer. -/
structure Policer where
  r : PolicerRec
  b : Bucket
deriving DecidableEq, Repr

/-- A committed gate list (R342, R343): its command until it completes, and S in ns of LTB once checked. -/
structure GateCommit where
  cmd : Option Req
  start : Option Nat := none
deriving DecidableEq, Repr

/-- A gate (R340 to R343). -/
structure Gate where
  active : Option (GateList × Nat) := none
  standby : Option GateList := none
  commit : Option GateCommit := none
  late : Bool := false
  lastS : Nat := 0
deriving DecidableEq, Repr

/-- A frame on its way out of an uplink port: its length L, the ONU credited and the bytes its balance holds, its group and
group sequence number, since when it waits in the reorder stage; its queue and arrival for the time stamps. -/
structure TxFrame where
  octets : List Nat
  len : Nat
  up : Option Nat
  bal : Nat := 0
  dest : Option Nat
  lag : Option (Nat × Nat)
  since : Nat
  arr : Nat := 0
  /-- The packet's source, as in its chain header (R266). -/
  srcKind : Nat := 0
  source : Nat := 0
  srcHost : Bool := true
  /-- A mode 2 frame: its port was encrypted when it arrived (R389, R499). -/
  enc : Bool := false
deriving DecidableEq, Repr

/-- The scheduler and the uplink transmit side. -/
structure SchS where
  q : Tab Queue := []
  v : Tab Vertex := []
  /-- Policers by slice × 2^17 + index. -/
  pol : Tab Policer := []
  gate : Tab Gate := []
  tx : Tab (List TxFrame) := []
  /-- Management queue and its shaper per channel pair (R499): OMCI frames. -/
  omci : Tab (List TxFrame) := []
  omciB : Tab Bucket := []
  /-- The last PTP event message that each port sent with its correction (R409). -/
  tcOut : Tab (List Nat) := []
  /-- The root that each egress half dequeued from last, by pipeline (R332). -/
  lastRoot : Tab Nat := []
  /-- What TOKENS_DISCARDED has not counted yet, in 1/65,536 byte, by its scope (R353). -/
  cutFrac : Tab Nat := []
deriving DecidableEq, Repr

/-! ### Ciphers, the Key Engine, check units (R355 to R390) -/

/-- States of a key context (R359). -/
inductive KeySt
  | empty | pending | ready | current | retiring | exhausted
deriving DecidableEq, Repr

/-- A key context: `at_` is the SFC of its installation (a broadcast context: its act_sfc), `till` the SFC at which a
RETIRING slot becomes EMPTY. -/
structure KeyCtx where
  st : KeySt := .empty
  isRec : Bool := false
  weak : Bool := false
  blk : Nat := 0
  sfcLast : Nat := 0
  key : Nat := 0
  at_ : Nat := 0
  till : Nat := 0
deriving DecidableEq, Repr

/-- A key exchange in progress (R361): the fragments, and the SFC by which the other must arrive. -/
structure KeyExch where
  slot : Nat
  frag0 : Option (List Nat) := none
  frag1 : Option (List Nat) := none
  until_ : Option Nat := none
deriving DecidableEq, Repr

/-- What Bexed and the cipher engines keep of an ONU. -/
structure KeyOnu where
  isRec : Bool := false
  sessionKey : Option Nat := none
  masterKey : Option Nat := none
  exch : Option KeyExch := none
  /-- An exchange is due and waits for an EMPTY slot. -/
  due : Bool := false
  rekeyAt : Option Nat := none
  retryAt : Option Nat := none
  /-- When the last CipherAuthFail event was reported, in `now` ticks. -/
  authAt : Option Nat := none
deriving DecidableEq, Repr

/-- Where a firmware image goes (R197, R490, R524): the standby bank of Bexed or of Marver, or a boot slot. -/
inductive ImageTo
  | bexed | marver
  | boot (slot : Nat) (marver : Bool)
deriving DecidableEq, Repr

/-- A job of Bexed for the Key Engine: an unwrap of a reported key, KeKeyUnwrap, a firmware image, KeEncrypt or KeDecrypt. -/
inductive KeJob
  | report (h slot wrapped : Nat)
  | unwrap (cmd : Req) (kek slot wrapped : Nat)
  | image (cmd : Req) (dest : ImageTo) (img : Image)
  | crypt (cmd : Req) (enc : Bool) (slot mode iv aadLen : Nat) (src : List Nat) (dst tag : Nat)
deriving DecidableEq, Repr

/-- The Key Engine's lock and its waiting jobs (R377). Owner 0 none, 1 Bexed, 2 Ampoule, 3 option loader. -/
structure KeLock where
  owner : Nat := 0
  waitLoader : Bool := false
  waitAmp : Bool := false
  waitBexed : Bool := false
  grants : Nat := 0
  jobs : List KeJob := []
  /-- Segments of Bexed's first job that have ended (R377). -/
  seg : Nat := 0
deriving DecidableEq, Repr

/-- An upstream frame or fragment in a decryptor, in arrival order (R370, R371). `slot` is the key slot to verify
under; `good` is what its tag says and `verdict` the same once known; `chain` says it is held in quarantine, as that chain. -/
structure HoldItem where
  h : Nat
  g : Nat
  gem : Nat
  slot : Option Nat
  octets : List Nat
  last : Bool
  verdict : Option Bool
  good : Bool := true
  chain : Option Nat
  /-- LTB of its delineation; the end of cipher.reasm_time from it (R372, R389). -/
  at_ : Nat := 0
  till : Nat := 0
deriving DecidableEq, Repr

/-- An SDU whose fragments gather (R372), until cipher.reasm_time from its first one has passed: a fragment dropped spoils it, and
the rest of it, up to its last fragment, is dropped under the same code. -/
structure Reasm where
  octets : List Nat
  till : Nat
  bad : Bool
  code : Nat := 0x40
  chain : Option Nat
  /-- LTB of its first fragment's delineation. -/
  at_ : Nat := 0
deriving DecidableEq, Repr

/-- A CRC check unit (R385). -/
structure CrcUnit where
  alg : Nat := 0
  space : Nat := 0
  addr : Nat := 0
  left : Nat := 0
  run : Nat := 0
  isDone : Bool := false
  busy : Bool := false
deriving DecidableEq, Repr

/-- Ciphers. -/
structure CipS where
  rngFailed : Bool := false
  /-- Draws made of the random source (R382). -/
  draws : Nat := 0
  /-- Key contexts by 4 × handle + 2 × direction + slot, and broadcast contexts by 2 × g + slot. -/
  key : Tab KeyCtx := []
  bcast : Tab KeyCtx := []
  onu : Tab KeyOnu := []
  /-- Host key slots (R378). -/
  hk : Tab Nat := []
  /-- The draw that gave each stack's XTS key pair (R375). -/
  xts : Tab Nat := []
  ke : KeLock := {}
  /-- The destination and octets that the last KeEncrypt or KeDecrypt wrote into host memory (R381). -/
  keOut : Option (Nat × List Nat) := none
  cu : Tab CrcUnit := []
  /-- Decryptors by slice, and SDUs in reassembly by handle × 2^18 + GEM handle. -/
  dec : Tab (List HoldItem) := []
  reasm : Tab Reasm := []
  /-- Changes of cipher.gem_encrypt, and those of each GEM handle: their numbers with the value before, oldest first (R389). -/
  encNo : Nat := 0
  encLog : Tab (List (Nat × Bool)) := []
deriving DecidableEq, Repr

/-! ### Time (R391 to R421) -/

/-- Servo states (R403). -/
inductive TimeState
  | unset | freerun | locked | holdover
deriving DecidableEq, Repr

/-- A time domain (R399, R400). Offsets in 1/64 tick. -/
structure TimeDom where
  /-- 0 none, 1 PTP, 2 PPS_TOD, 3 IXR. -/
  kind : Nat := 0
  inst : Nat := 0
  prio : Nat := 0
  qualified : Bool := false
  /-- When it became qualified, in `now` ticks. -/
  since : Nat := 0
  samples : List Int := []
  /-- The last 16 samples, those before a disqualification too (R404). -/
  recent : List Int := []
  outliers : Nat := 0
  theta : Int := 0
  /-- When the last sample was taken. -/
  last : Nat := 0
  cls : Nat := 248
  accNs : Nat := 0
  utc : Int := 0
  leap : Nat := 0
deriving DecidableEq, Repr

/-- A reference input (R397). -/
structure RefIn where
  qualified : Bool := false
  lost : Bool := false
  /-- When it was last qualified. -/
  since : Nat := 0
deriving DecidableEq, Repr

/-- PTP port states (R407). -/
inductive PtpState
  | listening | master | passive | slave
deriving DecidableEq, Repr

/-- What an Announce told of a foreign master. -/
structure PtpForeign where
  identity : Nat
  gm : Nat
  cls : Nat
  accNs : Nat
  prio2 : Nat
  steps : Nat
  utc : Int
  leap : Nat
deriving DecidableEq, Repr

/-- A PTP port. -/
structure PtpPort where
  state : PtpState := .listening
  foreign : Option PtpForeign := none
  /-- Mean path delay in 1/64 tick. -/
  delay : Int := 0
  /-- When the last Announce arrived, or the port was enabled, in `now` ticks (R407). -/
  heard : Nat := 0
deriving DecidableEq, Repr

/-- The settings of a pulse output in force, and those that wait for their edge (R415). -/
structure PulseOut where
  cur : PulseArgs
  next : Option (PulseArgs × Nat) := none
  /-- Edges generated; the last edge's stamp in 1/64 tick (R396). -/
  edges : Nat := 0
  last : Nat := 0
deriving DecidableEq, Repr

/-- A time-of-day message sent (R416). -/
structure TodSent where
  sec : Nat
  valid : Bool
  cls : Nat
  utc : Int
  leap : Nat
deriving DecidableEq, Repr

/-- The peer of an Ixrardo link as its TIME frames report it (R417, R418). -/
structure IxrPeer where
  /-- SYNCs outstanding: seq and departure in 1/64 tick. -/
  open_ : Tab Int := []
  steps : Nat := 255
  cls : Nat := 248
  ltbSet : Bool := false
deriving DecidableEq, Repr

/-- The TIME island. -/
structure TimeS where
  state : TimeState := .unset
  /-- TimeSet commands that wait for the next update (R405): command, sec, ns. -/
  sets : List (Req × Nat × Nat) := []
  /-- Domains that have become qualified since the servo's last update (R405). -/
  fresh : List Nat := []
  td0 : TimeDom := {}
  td1 : TimeDom := {}
  steer : Option Nat := none
  /-- The phase difference not yet absorbed, in ps (R402), and the DCO frequency word in ppb. -/
  residual : Int := 0
  freq : Int := 0
  /-- The frequency at the updates of the last 3,610 s with their times, newest first (R404). -/
  hist : List (Nat × Int) := []
  /-- HOLDOVER: when it began and maxErr at entry, in ns. -/
  hoStart : Nat := 0
  hoErr : Nat := 0
  refA : RefIn := {}
  refB : RefIn := {}
  /-- DCO clock input in use: 0 REFCLK_B, 1 REFCLK_A, 2 internal oscillator; when both inputs were lost. -/
  dco : Nat := 0
  bothLost : Option Nat := none
  /-- The last edge of PPS_IN A and B not yet described by a message, in 1/64 tick. -/
  edgeA : Option Int := none
  edgeB : Option Int := none
  port : Tab PtpPort := []
  /-- Port in SLAVE state and its parent. -/
  parent : Option (Nat × Nat) := none
  pulse : Tab PulseOut := []
  tod : List TodSent := []
  ixr : Tab IxrPeer := []
  /-- The last SYNC or RESP sent per Ixrardo link. -/
  sentT : Tab IxrTime := []
  /-- PTP messages sent, newest last, of each port: kind 0 Sync, 1 Delay_Req, 2 Announce, 3 Delay_Resp, 4 Follow_Up. -/
  sentP : Tab Nat := []
  /-- The last pair read per ONU: N and T in ns (R412), and ONUs with an OnuTodUpdate not yet answered by a read (R413). -/
  pair : Tab (Nat × Int) := []
  told : List Nat := []
deriving DecidableEq, Repr

/-! ### Ampoule (R422 to R437) -/

/-- The factory parameters of slot 0 (R431). -/
def SealedParams.factory : SealedParams :=
  { dsOverhead := 0, usOverhead := 0, maxerrAlarmNs := 100, sourceMask := 7, certId := 0 }

/-- A meter (R424, R428). -/
structure Meter where
  down : Nat := 0
  up : Nat := 0
  epoch : Nat := 0
  serial : Nat := 0
  gap : Bool := false
deriving DecidableEq, Repr

/-- A log entry (R430): the data field as octets. -/
structure LogEntry where
  seq : Nat
  ltb : Nat
  type : Nat
  data : List Nat
deriving DecidableEq, Repr

/-- A per-second record of R419. -/
structure SecRec where
  state : Nat
  steer : Nat
  src0 : Nat × Nat
  src1 : Nat × Nat
  theta0 : Int
  theta1 : Int
  residual : Int
  maxErr : Nat
  cls : Nat
  utc : Int
deriving DecidableEq, Repr

/-- A signed record (R433): its number, its LTB, and its octets. -/
structure SignedRec where
  recSeq : Nat
  ltb : Nat
  octets : List Nat
deriving DecidableEq, Repr

/-- What burns (R432): the next seal-counter bit, with the AmpouleSealOpen that waits, or the staged values into a slot. -/
inductive Burn
  | counter (cmd : AmpReq) | slot (cmd : AmpReq) (p : SealedParams)
deriving DecidableEq, Repr

/-- Ampoule. -/
structure AmpS where
  isOpen : Bool := false
  burn : Option Burn := none
  counter : Nat := 0
  /-- OTP slots written (R431). -/
  slots : Tab SealedParams := [(0, SealedParams.factory)]
  staged : Option SealedParams := none
  /-- The parameters the taps use: those in force at the last drain cycle. -/
  inForce : SealedParams := SealedParams.factory
  /-- AMP_SEAL_N level, and since when, in `now` ticks; pin changes during a burn, logged after it. -/
  pin : Bool := true
  pinAt : Nat := 0
  pinQueue : List Bool := []
  openUntil : Nat := 0
  runId : Nat := 0
  /-- The run's number has not been drawn yet: Ampoule waits for the Key Engine (R435). -/
  drawing : Bool := false
  rngFail : Bool := false
  recSeq : Nat := 0
  drainSeq : Nat := 0
  meter : Tab Meter := []
  log : List LogEntry := []
  nextSeq : Nat := 0
  /-- Entries below this seq are acknowledged. -/
  acked : Nat := 0
  lost : Nat := 0
  evidence : List SignedRec := []
  minute : List SecRec := []
  /-- Records that failed to arrive in a row; the last record; TIME_GAP and a steering switch in the minute. -/
  missing : Nat := 0
  lastSec : Option SecRec := none
  minuteGap : Bool := false
  minuteSwitch : Bool := false
  /-- Tap delta tables of the four PON dies (0 to 3) and two uplink dies (4, 5), by 2 × handle + direction. -/
  tap : Tab (Tab Nat) := []
  /-- Deltas were pending when AMP restarted alone (R427). -/
  tapGap : Bool := false
deriving DecidableEq, Repr

/-! ### Protection pairs, sparing, stacks (R438 to R469) -/

/-- States of a protection group, in the order of their codes (R468). -/
inductive GrpSt
  | off | sync | ready | claiming | promoting | active | released
deriving DecidableEq, Repr

/-- An audit that runs (R458): the SFC of its scan, the seq of the last MIRROR frame before it, the waiting
ProtAuditNow, the device's own four CRCs once scanned. -/
structure Audit where
  sfcA : Nat
  mirrorSeq : Nat
  cmd : Option Req := none
  own : Option (Tab Nat) := none
deriving DecidableEq, Repr

/-- A protection group. -/
structure ProtGrp where
  st : GrpSt := .off
  claim : Nat := 0
  /-- A claim is raised; one waits for a complete round (R443); none is raised until the peer is heard again. -/
  raised : Bool := false
  wanted : Bool := false
  barred : Bool := false
  /-- The ACTIVE group has raised a new claim since it last heard the peer. -/
  lossRaised : Bool := false
  held : Bool := false
  epochSeen : Nat := 0
  auditOk : Bool := false
  digestOk : Bool := false
  peerDigest : Option Nat := none
  /-- The peer's latest group_state (R441). -/
  peerState : Nat := 0
  /-- When the group became ACTIVE, and when its round was won, in `now` ticks. -/
  activeAt : Nat := 0
  wonAt : Nat := 0
  /-- RELEASED by ProtSwitch or a release, so READY follows at once (R448). -/
  bySwitch : Bool := false
  /-- A MIRROR gap met the group while it was CLAIMING; a resynchronisation has ended and waits for its audit. -/
  gapped : Bool := false
  synced : Bool := false
  /-- A resynchronisation is being received. -/
  copying : Bool := false
  drillUntil : Option Nat := none
  /-- Superframe before which misses advance no run (R455). -/
  settleEnd : Nat := 0
  audit : Option Audit := none
  /-- The records sent last (R452), while the group is ACTIVE; the peer has had a full copy. -/
  sent : List MirrorRec := []
  copied : Bool := false
deriving DecidableEq, Repr

/-- An Ixrardo link as the stack sees it (R465). -/
structure StackLink where
  accepted : Bool := false
  refused : Bool := false
  members : Nat := 0
  masters : Nat := 0
  unit : Nat := 0
  macBase : Nat := 0
  heardSfc : Nat := 0
deriving DecidableEq, Repr

/-- An AUDIT frame sent (R458): a request, or a result with its CRCs. -/
structure AuditOut where
  group : Nat
  isResult : Bool
  sfcA : Nat
  mirrorSeq : Nat
  crcs : Tab Nat
deriving DecidableEq, Repr

/-- Protection, sparing and stacks. -/
structure ProtS where
  grp : Tab ProtGrp := []
  /-- The superframe and the `now` tick in which the peer's last HEARTBEAT arrived; the SFC it carried. -/
  heardSfc : Option Nat := none
  heardAt : Nat := 0
  heardM : Nat := 0
  /-- The SFC of the last HEARTBEAT frame of the peer before which a seq gap occurred (R369). -/
  gapM : Option Nat := none
  links : Tab StackLink := []
  busFault : Bool := false
  /-- A complete round has been seen since the last reset (R443). -/
  roundSeen : Bool := false
  mirTx : Nat := 0
  /-- The seq of the last MIRROR frame received. -/
  mirRx : Option Nat := none
  /-- MIRROR, AUDIT and HEARTBEAT frames that left in the present superframe. -/
  mirOut : List (Nat × List MirrorRec) := []
  audOut : List AuditOut := []
  hbOut : Option Heartbeat := none
  hbSeq : Nat := 0
  /-- A master acts as a member until its next power-on reset (R466). -/
  asMember : Bool := false
  /-- Mirrored key contexts, kept wrapped until promotion (R452), by 4 × handle + 2 × direction + slot and by
  2 × g + slot: the word of R359 and the wrapped key. -/
  wrapKey : Tab (Nat × Nat) := []
  wrapBcast : Tab (Nat × Nat) := []
  /-- When the next audit interval ends, in `now` ticks. -/
  auditAt : Nat := 0
  /-- Channel pairs that were spared and still transmit until their last ONU has gone (R462). -/
  draining : List Nat := []
deriving DecidableEq, Repr

/-! ### Counters -/

/-- The counters the manual names, each with its scope. -/
inductive Ctr
  | pcieBadAccess | laneFail | moduleUnreachable | sblLockLoss | sblCrc | sblLate | sblBadEvent | sblTxMissed
  | blockLockLoss | portDown | ixrBadType | ixrSeqGap | ladderFail | seedMiss | dsFrames | dsGemFrames
  | dsGemFragments | dsIdleBytes | dsPloamSent | dsPloamDeferred | tribTohErr | tribFeedGap | tribFeedLate
  | tribUnderrun | tribOverrun | tribAlignLoss | tribBip | tribFebe | tribJustPos | tribJustNeg | slotmapReject
  | discWindows | discCollision | discNew | discDisabled | dupSn | onuLimit | rangeOk | rangeMiss | rangeFail
  | confirmMiss | regFail | authTimeout | tuneOk | tuneNack | tuneFail | balanceMoves | ploamNoAck | ploamMicErr
  | ploamUnsupported | ploamStale | mapPages | mapReject | mapLate | mapReplay | mapLateRun | mapStall
  | pageRefusedMap | grantsCreated | grantsExecuted | grantsReturned | grantsCancelled | grantTicks | overheadTicks
  | quietTicks | onuGrants | onuGrantTicks | onuGrantsReturned | onuGrantsCancelled | onuFixedGrants | compilePages
  | compileLate | compileErr | assuredShortG | assuredShort | mandatoryDefer | pollDefer | trimEntries | budgetShort
  | windowDefer | creditDiscarded | marverTrap | marverRevert | sagEntries | capStageEntries | optLoadFail
  | blockResets | pageRefusedSlot | dropOnu | dropChan | keyExchanges | keyExchFail | keyUnwrapFail | keySwitches
  | keyRepeat | keyRepeatG | gemAuthFail | reasmTimeout | holdToQuarantine | keJobs | keAuthFail | rngFail | hbGap
  | roundsWon | roundsLost | roundsVoid | claimBusFault | switchovers | auditMismatch | mirrorGap | mirrorConflict
  | notHeld | spareEvents | stackMiswire | dropPort | dropSlice | dropReq | dropPipe | dropQueue | dropBlk | dropPol
  | dropGate | pipeOverrun | recircLimit | parseIncomplete | lenConflict | classMiss | facetReject
  | facetThrottleClocks | cascadeSearches | cascadeIncomplete | cascadeTimeout | cascadeLateResult | cascadeMismatch
  | fragFirst | fragHeld | fragHoldFull | fragReplace | fragEvict | noFirstFrag | lagRrSkip | lagNoMember
  | lagBucketMoves | emLookups | emHits | emMisses | emParity | emRefillMiss | tableFull | learnFull | ovfRelocate
  | ovfPromote | promoteDefer | learnNew | learnMove | learnMoveDeny | learnStatic | learnLimit | learnQueueFull
  | ageOut | ageRestore | pageRefusedFacet | pageRefusedGate | cellsGranted | cellsFreed | allocMiss | sharedGrants
  | quarFrames | quarReleased | quarFreed | dbufPagesWritten | dbufPagesRead | dbufPartialPages | dbufFull
  | spillEntries | sweepCells | orphanFreed | qDeqPkts | qDeqBytes | vDeqBytes | gateWaits | schedEmptyWalk
  | polConformPkts | polConformBytes | polDropPkts | polDropBytes | policerUnset | gateReject | gateLateStart
  | gateSwaps | gateOversize | tokensDiscarded | burstsExpected | burstsClean | burstsDamaged | burstsMissing
  | burstsForeign | burstsDg | fecCodewords | fecCorrBits | fecUncorr | gemFrames | gemDiscard | gemHuntBytes
  | dbruErr | dyingGasp | lobCount | lodCount | driftCount | sdbCount | rxSilentSf | losCCount | opticsFailCount
  | channelFailCount | onuIdMismatch | standbyGem | ptpRx | ptpTx | ptpDiscard | tcCorrected | tcSkip | todInErr
  | ppsInMiss | refSwitch | steerSwitch | holdoverEntries | ixrTimeGap
deriving DecidableEq, Repr

/-! ### The state -/

/-- The whole block. -/
structure State where
  /-- Commands waiting, first in, first out. -/
  pending : List Instr := []
  /-- How many free values have been drawn (the model's own field, notes/assumptions/2.md). -/
  free : Nat := 0
  clk : Clk := {}
  rst : RstS := {}
  opt : OptS := {}
  pwr : PwrS := {}
  host : HostS := {}
  flt : FltS := {}
  mon : MonS := {}
  ann : AnnS := {}
  led : LedS := {}
  lane : LaneS := {}
  ds : DsS := {}
  onu : OnuS := {}
  map : MapS := {}
  rx : RxS := {}
  time : TimeS := {}
  amp : AmpS := {}
  cip : CipS := {}
  prot : ProtS := {}
  cls : ParS := {}
  em : EmS := {}
  pool : PoolS := {}
  sch : SchS := {}
  /-- Parameter values that differ from the default: PID, index, value (R491). -/
  par : Tab (Tab Int) := []
  /-- Counters by name and scope (R548). -/
  ctr : Tab (Tab Nat) := []
deriving DecidableEq, Repr

/-- The machine right after reset: PWR_GOOD low, the power-on reset asserted (R505, R507). -/
def State.reset : State := {}

end Sys2Proof.Machine
end

