-- ==== Sys2Proof/Machine/Ops.lean ====
section
/-! DEFINITION. The named operations every family shares: sparse tables, time, packing of results and payloads,
counters, faults, events, completions, and the wrappers that decide whether a command reaches its island or is served by
Bexed. -/

namespace Sys2Proof.Machine

/-! ### Sparse tables -/

/-- The value of key k, if listed. -/
def Tab.get? {α : Type} : Tab α → Nat → Option α
  | [], _ => none
  | (k, v) :: t, i => if i = k then some v else Tab.get? t i

/-- The value of key k, or d. -/
def Tab.getD {α : Type} (t : Tab α) (i : Nat) (d : α) : α := (Tab.get? t i).getD d

/-- The table with key k set to v, keys kept rising. -/
def Tab.set {α : Type} : Tab α → Nat → α → Tab α
  | [], i, x => [(i, x)]
  | (k, v) :: t, i, x =>
    if i < k then (i, x) :: (k, v) :: t else if i = k then (k, x) :: t else (k, v) :: Tab.set t i x

/-- The table without key k. -/
def Tab.erase {α : Type} : Tab α → Nat → Tab α
  | [], _ => []
  | (k, v) :: t, i => if i = k then t else (k, v) :: Tab.erase t i

/-- The table with key k changed by f, from d where it is not listed. -/
def Tab.upd {α : Type} (t : Tab α) (i : Nat) (d : α) (f : α → α) : Tab α := Tab.set t i (f (Tab.getD t i d))

/-- The table with key k changed by f where it is listed. -/
def Tab.modify {α : Type} (t : Tab α) (i : Nat) (f : α → α) : Tab α :=
  match Tab.get? t i with
  | some v => Tab.set t i (f v)
  | none => t

/-- The keys. -/
def Tab.keys {α : Type} (t : Tab α) : List Nat := t.map (·.1)

/-- The keys rise strictly from above `lo`. -/
def Tab.wfFrom {α : Type} : Tab α → Nat → Bool
  | [], _ => true
  | (k, _) :: t, lo => decide (lo ≤ k) && Tab.wfFrom t (k + 1)

/-- The canonical form: keys strictly rising. -/
def Tab.wf {α : Type} (t : Tab α) : Bool := Tab.wfFrom t 0

/-- The lowest natural number from `i` on, within `n`, that is not listed in ks. -/
def lowestFree (ks : List Nat) (lo n : Nat) : Option Nat := ((List.range n).map (· + lo)).find? fun i => !ks.contains i

/-! ### Time -/

/-- Map ticks of n microseconds, rounded up (one tick is 1 / 2,488.32 MHz). -/
def usT (n : Nat) : Nat := (n * 62208 + 24) / 25

/-- Map ticks of n milliseconds (exact). -/
def msT (n : Nat) : Nat := n * 2488320

/-- Map ticks of n seconds (exact). -/
def secT (n : Nat) : Nat := n * 2488320000

/-- Map ticks of n superframes. -/
def sfT (n : Nat) : Nat := n * 311040

/-- Nanoseconds of n map ticks, rounded down. -/
def ticksNs (n : Nat) : Nat := n * 3125 / 7776

/-- Map ticks of n nanoseconds, to the nearest tick, an exact half upward (R393). -/
def nsTicks (n : Nat) : Nat := (n * 7776 * 2 + 3125) / 6250

/-- The 96-bit layout of R391 of an LTB given in map ticks: interpolated and rounded to 1/65,536 ns (R392). -/
def ltbWord (t : Nat) : Nat :=
  let sec := t / 2488320000
  let fr := ((t % 2488320000) * 3125 * 65536 * 2 + 7776) / 15552
  sec * 2 ^ 48 + fr

/-- The 96-bit layout of R391 of an LTB given in 1/64 ticks (R396). -/
def ltbWord64 (t : Nat) : Nat := t / 159252480000 * 2 ^ 48 + ((t % 159252480000) * 3125 * 65536 * 2 + 497664) / 995328

/-- The LTB now, in the layout of R391. -/
def State.ltbNow (s : State) : Nat := ltbWord s.clk.ltb

/-- The deadline has come. -/
def State.due (s : State) (d : Option Nat) : Bool :=
  match d with
  | some t => decide (t ≤ s.clk.now)
  | none => false

/-! ### Free values -/

/-- The next free value of the stream. -/
def State.freeVal (s : State) : Nat := Config.freeNat s.free

/-- The state after drawing one free value. -/
def State.drawn (s : State) : State := { s with free := s.free + 1 }

/-- A timestamp point's stamp in 1/64 tick (R396): the LTB, within a tick at a place that is a free value. -/
def State.stamp64 (s : State) : Nat := s.clk.ltb * 64 + s.freeVal % 64

/-! ### Packing of arguments, results and payloads (R483) -/

/-- A result item: an unsigned field of w bits, a signed field, a record of a stated layout of b bits, a list of entries
of k octets each. -/
inductive RVal
  | u (w v : Nat) | i (w : Nat) (v : Int) | rcd (b v : Nat) | lst (k : Nat) (vs : List Nat)
deriving DecidableEq, Repr

/-- The octets a field of w bits takes. -/
def fieldSize (w : Nat) : Nat :=
  if w ≤ 8 then 1 else if w ≤ 16 then 2 else if w ≤ 32 then 4 else if w ≤ 64 then 8 else (w + 7) / 8

/-- Zeros up to the next multiple of a. -/
def padTo (pos a : Nat) : List Nat := List.replicate ((a - pos % a) % a) 0

/-- The octets of one item placed at an offset, its alignment before it. -/
def RVal.octets (pos : Nat) : RVal → List Nat
  | .u w v => padTo pos (min (fieldSize w) 8) ++ leOctets (fieldSize w) v
  | .i w v => padTo pos (min (fieldSize w) 8) ++ leOctets (fieldSize w) (signed w v)
  | .rcd b v => padTo pos (min ((b + 7) / 8) 8) ++ leOctets ((b + 7) / 8) v
  | .lst k vs => padTo pos 8 ++ vs.flatMap (leOctets k)

/-- The octets of a result, its items in order. -/
def packFrom (pos : Nat) : List RVal → List Nat
  | [] => []
  | v :: vs => let o := v.octets pos; o ++ packFrom (pos + o.length) vs

/-- The octets of a whole result. -/
def pack (vs : List RVal) : List Nat := packFrom 0 vs

/-- Concatenation of bit fields, the first the most significant. -/
def fields (fs : List (Nat × Nat)) : Nat := fs.foldl (fun a f => a * 2 ^ f.1 + f.2 % 2 ^ f.1) 0

/-! ### Counters (R548) -/

/-- Counter c of scope i. -/
def State.count (s : State) (c : Ctr) (i : Nat) : Nat := Tab.getD (Tab.getD s.ctr c.ctorIdx []) i 0

/-- Counter c of scope i advanced by n, modulo 2^64. -/
def bumpBy (c : Ctr) (i n : Nat) (s : State) : State :=
  { s with ctr := Tab.upd s.ctr c.ctorIdx [] fun t => Tab.upd t i 0 fun v => (v + n) % 2 ^ 64 }

/-- Counter c of scope i advanced by 1. -/
def bump (c : Ctr) (i : Nat) (s : State) : State := bumpBy c i 1 s

/-- A counter's scopes cleared where p holds. -/
def clearCtr (c : Ctr) (p : Nat → Bool) (s : State) : State :=
  { s with ctr := Tab.upd s.ctr c.ctorIdx [] fun t => t.filter fun e => !p e.1 }

/-! ### Parameters (R491) -/

/-- The descriptor of a PID, if it exists. -/
def pidDesc? (pid : Nat) : Option PidDesc := pidTable.find? (·.pid == pid)

/-- Defaults of pool.reserve and pool.limit by requester (R302). -/
def poolDefault (pid r : Nat) : Int :=
  if r < 16 then (if pid = 0x8010 then 8192 else 917504)
  else if r < 20 then (if pid = 0x8010 then 4096 else 917504)
  else if r = 20 then (if pid = 0x8010 then 2048 else 65536)
  else if r = 21 then (if pid = 0x8010 then 1024 else 16384)
  else 0

/-- The default of rx.delim_errmax for a rate and burst profile, by 8 × g + 2 × rate + profile: one in 16 of the
delimiter's bits (R203). -/
def delimDefault (i : Nat) : Int :=
  match i / 2 % 4 with
  | 0 => 4
  | 1 => 1
  | 2 => 2
  | _ => 5

/-- The default of a PID at an index. -/
def pidDefault (pid idx : Nat) : Int :=
  if pid = 0x0100 && idx = 0x87 then 1
  else if pid = 0x8010 || pid = 0x8011 then poolDefault pid idx
  else if pid = 0x5001 then delimDefault idx
  else if pid = 0xB060 then (if idx = 0 then 1 else 0)
  else ((pidDesc? pid).map (·.dflt)).getD 0

/-- The value held for a PID and index. -/
def State.param (s : State) (pid idx : Nat) : Int :=
  match Tab.get? (Tab.getD s.par pid []) idx with
  | some v => v
  | none => pidDefault pid idx

/-- The value of a parameter that is never negative. -/
def State.paramN (s : State) (pid idx : Nat) : Nat := (s.param pid idx).toNat

/-- A parameter value set. -/
def setParam (pid idx : Nat) (v : Int) (s : State) : State :=
  { s with par := Tab.upd s.par pid [] fun t => Tab.set t idx v }

/-! ### Ports and interrupts -/

/-- The device presents port 1 (R471). -/
def State.twoPorts (s : State) : Bool := s.opt.cur.pcieMode == 1

/-- The ports the device presents. -/
def State.ports (s : State) : List Nat := if s.twoPorts then [0, 1] else [0]

/-- The Kilak port p. -/
def HostS.port (h : HostS) (p : Nat) : KlPort := if p = 0 then h.port0 else h.port1

/-- The Kilak port p replaced. -/
def HostS.setPort (h : HostS) (p : Nat) (k : KlPort) : HostS :=
  if p = 0 then { h with port0 := k } else { h with port1 := k }

/-- The MSI-X key of a port's function and vector. -/
def msixKey (port fn vec : Nat) : Nat := port * 6144 + fn * 2048 + vec

/-- The offset of a function's MSI-X table in its BAR0 (R470). -/
def msixBase (fn : Nat) : Nat :=
  match fn with
  | 0 => 0xF00000
  | 1 => 0x8000
  | _ => 0x3000

/-- The vector's table entry masks it: bit 0 of its vector control word. -/
def HostS.msixMasked (h : HostS) (port fn vec : Nat) : Bool :=
  bit (Tab.getD h.msixTab ((port * 3 + fn) * 2 ^ 24 + msixBase fn + 16 * vec + 12) 0) 0

/-- One signal of an MSI-X vector (R474); a masked vector keeps it pending. -/
def HostS.signal (h : HostS) (port fn vec : Nat) : HostS :=
  let key := msixKey port fn vec
  if h.msixOff.contains (port * 3 + fn) then h
  else if h.msixMasked port fn vec then
    { h with msixPend := if h.msixPend.contains key then h.msixPend else h.msixPend ++ [key] }
  else { h with msix := Tab.upd h.msix key 0 (· + 1) }

/-- An entry under interrupt moderation (R482): the new moderation state, and whether an interrupt is due. -/
def IrqMod.entry (m : IrqMod) (now : Nat) : IrqMod × Bool :=
  if m.count + 1 ≥ max 1 m.entries then ({ m with count := 0, deadline := none }, true)
  else ({ m with count := m.count + 1, deadline := some (m.deadline.getD (now + usT m.holdoffUs)) }, false)

/-- The holdoff and entry count of a KL_IRQ_MOD or IRQ_MOD value, the holdoff at most 1,000 microseconds. -/
def irqModOf (v : Reg) (m : IrqMod) : IrqMod :=
  { m with holdoffUs := min 1000 (bits v.toNat 31 16), entries := bits v.toNat 15 0 }

/-- Entries of a ring of size field n. -/
def ringLen (n : Nat) : Nat := 2 ^ n

/-- The ring is full: its tail is one entry behind its head (R482). -/
def ringFull (size head tail : Nat) : Bool := (tail + 1) % ringLen size == head

/-! ### Completions (R484) -/

/-- A Kilak answer: its code, its detail field, its result. -/
structure Reply where
  code : Code
  detail : Nat := 0
  res : List RVal := []
deriving DecidableEq, Repr

/-- OK without a result. -/
def Reply.ok : Reply := { code := .ok }

/-- OK with a result. -/
def Reply.vals (vs : List RVal) : Reply := { code := .ok, res := vs }

/-- A code alone. -/
def Reply.err (c : Code) : Reply := { code := c }

/-- The completion entry is written at the ring's tail and the tail advances; the phase inverts at each wrap. -/
def KlPort.writeCpl (k : KlPort) (e : InProg) (c : Code) (detail len : Nat) (res : List Nat) : KlPort :=
  let t := (k.cplTail + 1) % ringLen k.cplSize
  { k with
    cpl := k.cpl ++ [{ tag := e.tag, op := e.op, code := c, phase := k.cplPhase, len := len, detail := detail, result := res }]
    cplTail := t
    cplPhase := if t = 0 then !k.cplPhase else k.cplPhase }

/-- The first command in progress with a tag and an opcode. -/
def findProg (l : List InProg) (tag op : Nat) : Option InProg := l.find? fun e => e.tag == tag && e.op == op

/-- The list without the first such command. -/
def dropProg : List InProg → Nat → Nat → List InProg
  | [], _, _ => []
  | e :: l, tag, op => if e.tag == tag && e.op == op then l else e :: dropProg l tag op

/-- A command ends: it leaves the commands in progress, and its completion is written unless it is discarded. -/
def HostS.complete (h : HostS) (now : Nat) (port tag op : Nat) (c : Code) (detail len : Nat) (res : List Nat) : HostS :=
  let k := h.port port
  match findProg k.inProg tag op with
  | none => h
  | some e =>
    let k := { k with inProg := dropProg k.inProg tag op }
    if e.discard || !k.enable then h.setPort port k
    else
      let k := k.writeCpl e c detail len res
      if e.irq then
        let (m, sig) := k.cplIrq.entry now
        let h := h.setPort port { k with cplIrq := m }
        if sig then h.signal port 0 512 else h
      else h.setPort port k

/-- Completion of a command by its open reference. -/
def complete (q : Req) (op : Nat) (r : Reply) (s : State) : State :=
  let o := pack r.res
  { s with host :=
      if o.length > 16 && o.length > q.resCap then
        s.host.complete s.clk.now q.port q.tag op .shortBuf 0 o.length []
      else s.host.complete s.clk.now q.port q.tag op r.code r.detail o.length o }

/-- Completion of a command that an object keeps open, if one is kept. -/
def completeOpt (q : Option Req) (op : Nat) (r : Reply) (s : State) : State :=
  match q with
  | some q => complete q op r s
  | none => s

/-! ### Events (R487) -/

/-- One event offered to one port's ring. -/
def HostS.eventAt (h : HostS) (now ltb : Nat) (p code : Nat) (payload : List Nat) : HostS :=
  let k := h.port p
  if k.enable && !ringFull k.evtSize k.evtHead k.evtTail then
    let t := (k.evtTail + 1) % ringLen k.evtSize
    let (m, sig) := k.evtIrq.entry now
    let h := h.setPort p { k with
      evt := k.evt ++ [{ code := code, phase := k.evtPhase, lost := k.lostFlag, ltb := ltb, payload := payload }]
      evtTail := t
      evtPhase := if t = 0 then !k.evtPhase else k.evtPhase
      lostFlag := false
      evtIrq := m }
    if sig then h.signal p 0 513 else h
  else h.setPort p { k with evtLost := min (k.evtLost + 1) (2 ^ 32 - 1), lostFlag := true }

/-- An event goes to each port the device presents. -/
def event (code : Nat) (payload : List RVal) (s : State) : State :=
  { s with host := s.ports.foldl (fun h p => h.eventAt s.clk.now s.ltbNow p code (pack payload)) s.host }

/-! ### Sample records (R549 to R551) -/

/-- The stage in force: the higher of the voltage stage and the cap stage (R529). -/
def State.sagStage (s : State) : Nat := max s.pwr.voltStage s.pwr.capStage

/-- An event of the control interconnect, or a fault recording, offered to the sample unit. `cls` is the class bit number
0 to 6 and `priv` the privilege code. -/
structure SampleEv where
  priv : Nat
  master : Nat
  cls : Nat
  addr : Nat := 0
  sizeLog2 : Nat := 2
  data : Nat := 0
  isFault : Bool := false
  block : Nat := 0
  kind : Nat := 0
  injected : Bool := false
  detail : Nat := 0
deriving DecidableEq, Repr

/-- The four conditions of a filter. -/
def filterHits (f : SampleFilter) (e : SampleEv) : Bool :=
  f.classMask != 0 && bit f.privMask e.priv && decide (f.masterLo ≤ e.master) && decide (e.master ≤ f.masterHi)
    && (e.isFault || (decide (f.addrLo ≤ e.addr) && decide (e.addr ≤ f.addrHi))) && bit f.classMask e.cls

/-- The draw of R549: kept with probability 1 in 2^n, always while the generator has failed. The draw is a free value. -/
def State.sampleKept (s : State) : Bool := s.cip.rngFailed || s.freeVal % 2 ^ s.mon.rateLog2 == 0

/-- The sample unit on one event. -/
def sample (e : SampleEv) (s : State) : State :=
  if s.mon.sampling && s.mon.filters.any (fun f => filterHits f.2 e) && s.sagStage == 0 then
    let s1 := s.drawn
    if s.sampleKept then
      let r : SampleRec := {
        ltb := s.ltbNow, master := e.master, priv := e.priv, cls := e.cls, sizeLog2 := e.sizeLog2,
        seq := s.mon.sampleSeq % 65536, addr := if e.isFault then 0 else e.addr, data := e.data, block := e.block,
        kind := e.kind, injected := e.injected, detail := e.detail }
      let recs := s.mon.recs ++ [r]
      let recs := if recs.length > 65536 then recs.drop 1 else recs
      let full := s.mon.mode == 1 && recs.length == 65536
      let s2 := { s1 with mon := { s1.mon with recs := recs, sampleSeq := (s.mon.sampleSeq + 1) % 65536,
                                               sampling := !full } }
      if full then event 0xE003 [.u 96 r.ltb] s2 else s2
    else s1
  else s

/-! ### Islands and blocks (R20, R480) -/

/-- The power domain of a block, as its bit of PWR_STATUS (R20, R477). -/
def domainOf (b : Nat) : Nat :=
  if b < 48 then 6 + b / 6
  else if b < 64 then 6 + (b - 48) / 2
  else if b < 72 then 6 + (b - 64)
  else if b < 88 then 3
  else if b < 104 then 5
  else if b < 106 then 3
  else if b < 142 then 14 + (b - 106) / 9
  else if b < 151 then 19
  else if b < 160 then 18
  else if b < 172 then 20 + (b - 160) / 3
  else if b = 172 then 2
  else if b = 173 then 1
  else if b = 174 then 0
  else if b < 177 then 4
  else 3

/-- The release step of R513 that releases a block: 1, 2, 3, 5 or 6. -/
def releaseStep (b : Nat) : Nat :=
  if b = 172 || b = 173 || b = 174 then 1
  else if b = 177 || b = 178 || b = 179 || b = 180 then 2
  else if 106 ≤ b && b < 160 then 3
  else if 160 ≤ b && b < 172 then (if (b - 160) % 3 = 2 then 3 else 5)
  else if b = 175 || b = 176 then 3
  else if b = 104 || b = 105 then 6
  else if 181 ≤ b then 2
  else 5

/-- A core reset reaches the block (R508). -/
def coreReaches (b : Nat) : Bool :=
  !(b == 172 || b == 173 || b == 174 || b == 175 || b == 176 || b == 179
    || (decide (106 ≤ b) && decide (b < 142) && (b - 106) % 9 == 8))

/-- The last release step that is done in a phase, with the reach. A core reset runs steps 1, 5 and 6 only. -/
def phaseStep (core : Bool) : RelPhase → Nat
  | .asserted => 0
  | .clocksCheck => 0
  | .optionLoad => 2
  | .hbmTraining => if core then 5 else 3
  | .bootLoad => 5
  | .released => 6

/-- The block is out of reset and powered. -/
def State.islandUp (s : State) (b : Nat) : Bool :=
  let r := s.rst
  let reached := decide (r.reach ≥ 2) || (decide (r.reach = 1) && coreReaches b)
  let inReset := reached && b != 174 && decide (phaseStep (r.reach == 1) r.phase < releaseStep b)
  !inReset && !r.held.contains b && !(r.blocks.any fun x => x.block == b && !x.sweeping)
    && bit s.pwr.domains (domainOf b)

/-- Slice s's half or recirculation island i. -/
def sliceBlk (sl i : Nat) : Nat := 6 * sl + i
/-- The Facet bank group j of slice s. -/
def facetBlk (sl j : Nat) : Nat := 48 + 2 * sl + j
/-- Slice s's exact-match table. -/
def emBlk (sl : Nat) : Nat := 64 + sl
/-- The pool bank pair of a cell's bank. -/
def poolBlk (cell : Nat) : Nat := 72 + cell % 32 / 2
/-- The Marver core group of core k. -/
def marverBlk (k : Nat) : Nat := 88 + k / 4
/-- The lane and framer group of channel pair g. -/
def ponBlk (g : Nat) : Nat := 106 + 9 * (g / 128) + (g / 8 % 16) / 2
/-- The sideband and I3C island of tree t. -/
def sbBlk (t : Nat) : Nat := 106 + 9 * (t / 16) + 8
/-- The uplink island of group u. -/
def upBlk (u : Nat) : Nat := if u < 16 then 142 + u / 2 else 151 + (u - 16) / 2
/-- The Ixrardo and timestamp island of uplink group u's die. -/
def ixrBlk (u : Nat) : Nat := if u < 16 then 150 else 159

/-- The window of block b. -/
def State.window (s : State) (b : Nat) : FaultWin := Tab.getD s.flt.win b {}

/-- A real class-F record stands in block b. -/
def State.undefinedBlk (s : State) (b : Nat) : Bool := (s.window b).realF != 0

/-- An act of an island: a fault where a real class-F fault leaves its behaviour undefined (R536); nothing where the
island is in reset or off; else the effect. -/
def island (b : Nat) (f : State → State) (s : State) : Host.Outcome State Fault Refusal :=
  if s.undefinedBlk b then .fault (.blockUndefined b)
  else if s.islandUp b then .next (f s) else .next s

/-! ### Faults (R537 to R541) -/

/-- The classes of R536. -/
inductive FClass
  | c | u | f
deriving DecidableEq, Repr

/-- 1 C, 2 U, 3 F (R481). -/
def FClass.num : FClass → Nat
  | .c => 1
  | .u => 2
  | .f => 3

/-- Class of kind k in block b; none for a reserved kind (R540, R541). -/
def faultClass (b k : Nat) : Option FClass :=
  match k with
  | 0 => some .c
  | 1 => some .u
  | 2 => some .u
  | 3 => some .u
  | 4 => some .u
  | 5 => some .f
  | 6 => some .f
  | 8 =>
    if 64 ≤ b && b < 72 then some .c
    else if 72 ≤ b && b < 88 then some .u
    else if 88 ≤ b && b < 106 then some .u
    else if 160 ≤ b && b < 172 && (b - 160) % 3 = 0 then some .u
    else if b = 172 || b = 173 || b = 174 then some .u
    else if b = 175 || b = 176 || b = 177 then some .u
    else if b = 179 then some .c
    else if b = 180 then some .u
    else if 181 ≤ b && b < 189 then some .c
    else none
  | 9 => if 72 ≤ b && b < 88 then some .u else if b = 172 then some .u else none
  | _ => none

/-- The mask of class-F kinds. -/
def classFMask : Nat := 0x60

/-- A fault of one cycle, real or injected. -/
structure FRec where
  kind : Nat
  detail : Nat
  injected : Bool
  injAlso : Bool
deriving DecidableEq, Repr

/-- The rank of a fault among those of its cycle: highest class first, then lowest kind (R538). -/
def frank (b : Nat) (f : FRec) : Nat := (((faultClass b f.kind).map FClass.num).getD 0) * 32 + (31 - f.kind)

/-- The fault FAULT_FIRST takes among those of a cycle. -/
def pickFirst (b : Nat) : List FRec → Option FRec
  | [] => none
  | f :: fs =>
    match pickFirst b fs with
    | none => some f
    | some g => if frank b g ≤ frank b f then some f else some g

/-- The window after the faults of one cycle (R537, R538). -/
def FaultWin.record (w : FaultWin) (b time : Nat) (fs : List FRec) : FaultWin :=
  let st := fs.foldl (fun a f => a ||| 2 ^ f.kind) w.status
  let rf := fs.foldl (fun a f => if faultClass b f.kind == some .f && !f.injected then a ||| 2 ^ f.kind else a) w.realF
  let w1 := { w with status := st, realF := rf }
  match pickFirst b fs with
  | none => w1
  | some f =>
    let c := ((faultClass b f.kind).map FClass.num).getD 0
    if !w.firstValid || (c == 3 && w.cls != 3) then
      { w1 with firstValid := true, firstTie := decide (fs.length > 1), injAlso := f.injAlso, injected := f.injected,
                cls := c, kindNo := f.kind, detail := f.detail % 2 ^ 21, time := time }
    else w1

/-- The faults of one cycle of block b are recorded: window, MSI-X vector b on every port, sample records, latches. -/
def recordFaults (b : Nat) (fs : List FRec) (s : State) : State :=
  let fs := fs.filter fun f => (faultClass b f.kind).isSome
  let w := s.window b
  let w' := w.record b s.ltbNow fs
  let rises := fs.any fun f => !bit w.status f.kind && !bit w.mask f.kind
  let real := fs.any fun f => faultClass b f.kind == some .f && !f.injected
  let inj := fs.any fun f => faultClass b f.kind == some .f && f.injected
  let s := { s with
    flt := { win := Tab.set s.flt.win b w', latchReal := s.flt.latchReal || real, latchInj := s.flt.latchInj || inj,
             alive := s.flt.alive && !(real || inj) }
    host := if rises then s.ports.foldl (fun h p => h.signal p 0 b) s.host else s.host }
  fs.foldl (fun s f => sample {
    priv := 3, master := Config.faultMaster b,
    cls := 3 + ((faultClass b f.kind).map FClass.num).getD 0, isFault := true, block := b, kind := f.kind,
    injected := f.injected, detail := f.detail % 2 ^ 21, sizeLog2 := 0 } s) s

/-- One real fault of class C or U that a block detects in the course of its work. -/
def raiseFault (b kind detail : Nat) (s : State) : State :=
  recordFaults b [{ kind := kind, detail := detail, injected := false, injAlso := false }] s

/-- A class-F latch is set, real or injected (R542, R547). -/
def State.classF (s : State) : Bool := s.flt.latchReal || s.flt.latchInj

/-- Injection of class F is allowed (R547). -/
def State.testMode (s : State) : Bool := s.opt.cur.testMode == 1 && !Config.testModeDisable

/-! ### Kilak service (R486, R488) -/

/-- Commands that only read, which port 1 may issue while pcie.port1_write is 0 (R471), by opcode. -/
def readOnlyOps : List Nat :=
  [0x0001, 0x0005, 0x0007, 0x0008, 0x000C, 0x1002, 0x1003, 0x2001, 0x3002, 0x3003, 0x4002, 0x4003, 0x4004, 0x4005,
   0x4009, 0x400B, 0x400C, 0x4010, 0x5000, 0x5001, 0x5002, 0x6006, 0x6007, 0x600C, 0x600D, 0x7002, 0x7003, 0x7004,
   0x7005, 0x7007, 0x8000, 0x8002, 0x8004, 0x8005, 0x8006, 0x9005, 0x9008, 0x900C, 0x9010, 0x9013, 0xA002, 0xA00A,
   0xA00D, 0xA00E, 0xB000, 0xB005, 0xB006, 0xB008, 0xC005, 0xC008, 0xD000, 0xD003, 0xD004, 0xD006, 0xD008, 0xE004,
   0xE006, 0xE008, 0xE00C, 0xE00D, 0xE00E]

/-- Commands that ROM mode serves (R523). -/
def romOps (op : Nat) : Bool := [0x0000, 0x0001, 0x0002, 0x0003, 0x000C].contains op || op / 4096 == 0xD

/-- A completion entry is free for one more command (R486). -/
def KlPort.cplFree (k : KlPort) : Bool :=
  decide ((k.cplTail + ringLen k.cplSize - k.cplHead) % ringLen k.cplSize + k.inProg.length + 1 < ringLen k.cplSize)

/-- Bexed takes up the command: it was fetched, or the ring lets it be fetched now. -/
def State.serves (s : State) (q : Req) (op : Nat) : Bool :=
  let k := s.host.port q.port
  s.ports.contains q.port && s.host.bexedReady &&
    ((findProg k.inProg q.tag op).isSome ||
      (k.enable && !k.cmdErr && k.cplFree && decide (k.inProg.length < 64) && s.host.restart.isNone))

/-- The command is in progress. -/
def openCmd (q : Req) (op : Nat) (s : State) : State :=
  let k := s.host.port q.port
  match findProg k.inProg q.tag op with
  | some _ => s
  | none => { s with host := s.host.setPort q.port { k with
      inProg := k.inProg ++ [{ tag := q.tag, op := op, resCap := q.resCap }] } }

/-- A Kilak command: what its body does to the state, and its answer; none while it waits. A result above 16 octets and
above res_cap answers SHORT_BUF without effect (R484). A command that Bexed does not serve stays in its ring. -/
def kilak (q : Req) (op : Nat) (body : State → State × Option Reply) (s : State) : Host.Outcome State Fault Refusal :=
  if s.undefinedBlk 104 then .fault (.blockUndefined 104)
  else if s.undefinedBlk 105 then .fault (.blockUndefined 105)
  else if !s.serves q op then .next s
  else
    let s0 := openCmd q op s
    if q.port == 1 && s.opt.cur.port1Write == 0 && !readOnlyOps.contains op then
      .next (complete q op (.err .denied) s0)
    else if s.host.romMode && !romOps op then .next (complete q op (.err .badState) s0)
    else
      match body s0 with
      | (s1, none) => .next s1
      | (s1, some r) =>
        let n := (pack r.res).length
        .next (complete q op r (if n > 16 && n > q.resCap then s0 else s1))

/-- A body that answers at once without an effect. -/
def answer (r : Reply) (s : State) : State × Option Reply := (s, some r)

/-- A body that refuses. -/
def deny (c : Code) (s : State) : State × Option Reply := (s, some (.err c))

/-- A body that refuses with a detail field: its rule, check, rung or step number and its entry index (R484). -/
def denyAt (c : Code) (rule index : Nat) (s : State) : State × Option Reply :=
  (s, some { code := c, detail := rule % 256 * 2 ^ 24 + index % 2 ^ 24 })

/-- A body whose effect is done at once. -/
def done (s : State) : State × Option Reply := (s, some .ok)

/-- A body whose effect is done at once, with a result. -/
def doneWith (vs : List RVal) (s : State) : State × Option Reply := (s, some (.vals vs))

/-- A body that leaves the command open: an object keeps its reference. -/
def waits (s : State) : State × Option Reply := (s, none)

/-- Every listed block is defined, or the first that is not. -/
def guardBlks (bs : List Nat) (o : State → Host.Outcome State Fault Refusal) (s : State) :
    Host.Outcome State Fault Refusal :=
  match bs.find? s.undefinedBlk with
  | some b => .fault (.blockUndefined b)
  | none => o s

end Sys2Proof.Machine
end

