-- ==== Sys2Proof/Machine/HostIf.lean ====
section
/-! DEFINITION. The host interface's registers and rings: Kilak ring control, doorbells and command fetch, head writes,
read-to-clear registers, fault window registers, interrupt holdoff (R470 to R488, R537, R538). -/

namespace Sys2Proof.Machine

/-- The PCIe half that serves port p. -/
def pcieBlk (p : Nat) : Nat := 175 + p % 2

/-- A register access of port p: nothing while the endpoint is in reset or does not present the port. -/
def regAccess (p : Nat) (f : State → State) (s : State) : Host.Outcome State Fault Refusal :=
  island (pcieBlk p) (fun s => if s.ports.contains p then f s else s) s

/-- The port's ring registers changed. -/
def onPort (p : Nat) (f : KlPort → KlPort) (s : State) : State :=
  { s with host := s.host.setPort p (f (s.host.port p)) }

/-! ### Kilak ring control -/

/-- The configuration that enable accepts: sizes 6 to 16, bases aligned to 4 KiB. -/
def KlPort.cfgOk (k : KlPort) : Bool :=
  decide (6 ≤ k.cmdSize ∧ k.cmdSize ≤ 16 ∧ 6 ≤ k.cplSize ∧ k.cplSize ≤ 16 ∧ 6 ≤ k.evtSize ∧ k.evtSize ≤ 16)
    && k.cmdBase % 4096 == 0 && k.cplBase % 4096 == 0 && k.evtBase % 4096 == 0

/-- A write of KL_CTRL with enable set (R482): a write while enabled changes nothing. -/
def KlPort.setEnable (k : KlPort) : KlPort :=
  if k.enable then k
  else if k.cfgOk then
    { k with enable := true, cmdErr := false, cfgErr := false, headErr := false, cmdTail := 0, cmdHead := 0,
             cplHead := 0, cplTail := 0, cplPhase := true, evtHead := 0, evtTail := 0, evtPhase := true,
             cpl := [], evt := [], cplIrq := { k.cplIrq with count := 0, deadline := none },
             evtIrq := { k.evtIrq with count := 0, deadline := none } }
  else { k with cfgErr := true }

/-- A write that clears enable: commands in progress run to their end, their completions are discarded (R482). -/
def KlPort.clearEnable (k : KlPort) : KlPort :=
  { k with enable := false, inProg := k.inProg.map fun e => { e with discard := true } }

/-- KL_RING_ENABLE (R482). -/
def execKlRingEnable (p : Nat) (s : State) : Host.Outcome State Fault Refusal :=
  regAccess p (onPort p KlPort.setEnable) s

/-- KL_RING_DISABLE (R482). -/
def execKlRingDisable (p : Nat) (s : State) : Host.Outcome State Fault Refusal :=
  regAccess p (onPort p KlPort.clearEnable) s

/-- A KL_CMD_TAIL write (R482): one that passes the head or the ring end sets cmd_err. -/
def KlPort.doorbell (k : KlPort) (t : Nat) : KlPort :=
  let n := ringLen k.cmdSize
  if k.enable && (decide (n ≤ t) || decide ((k.cmdHead + n - k.cmdTail + n - 1) % n < (t + n - k.cmdTail) % n)) then
    { k with cmdTail := t, cmdErr := true }
  else { k with cmdTail := t }

/-- KL_CMD_DOORBELL (R486). -/
def execKlCmdDoorbell (p : Nat) (tail : Reg) (s : State) : Host.Outcome State Fault Refusal :=
  regAccess p (onPort p (·.doorbell tail.toNat)) s

/-- The number of commands of subsystem n, 0x0 to 0xE (R488). -/
def catalogue : List Nat := [13, 5, 8, 13, 17, 4, 14, 8, 7, 20, 15, 11, 9, 9, 15]

/-- The opcode is in the command catalogue (R488). -/
def knownOp (op : Nat) : Bool := decide (op % 4096 < (catalogue[op / 4096]?).getD 0)

/-- Bexed may fetch the command at the head of port p's ring (R486). -/
def State.canFetch (s : State) (p : Nat) (fence : Bool) : Bool :=
  let k := s.host.port p
  s.ports.contains p && s.host.bexedReady && s.host.restart.isNone && k.enable && !k.cmdErr
    && k.cmdHead != k.cmdTail && k.cplFree && decide (k.inProg.length < 64) && (!fence || k.inProg.isEmpty)

/-- One command is fetched (R486, R488): an unknown opcode or a set reserved field answers BAD_OPCODE, an opcode of
subsystem 0xF DENIED; any other command is in progress. -/
def fetchCmd (p : Nat) (d : CmdDesc) (s : State) : State :=
  if !s.canFetch p d.fence then s
  else
    let k := s.host.port p
    let e : InProg := { tag := d.tag, op := d.opcode, irq := d.irq, resCap := d.resCap }
    let s1 := { s with host := s.host.setPort p { k with cmdHead := (k.cmdHead + 1) % ringLen k.cmdSize,
                                                         inProg := k.inProg ++ [e] } }
    let q : Req := { port := p, tag := d.tag, resCap := d.resCap }
    if !d.reservedOk then complete q d.opcode (.err .badOpcode) s1
    else if d.opcode / 4096 = 15 then complete q d.opcode (.err .denied) s1
    else if !knownOp d.opcode then complete q d.opcode (.err .badOpcode) s1
    else s1

/-- KL_COMMAND_FETCH (R486). -/
def execKlCommandFetch (p : Nat) (d : CmdDesc) (s : State) : Host.Outcome State Fault Refusal :=
  island 104 (fetchCmd p d) s

/-- A KL_CPL_HEAD write: at or beyond the ring's size it is ignored and sets head_err (R482); else the entries before it
are consumed. -/
def KlPort.cplHeadWrite (k : KlPort) (v : Nat) : KlPort :=
  let n := ringLen k.cplSize
  if n ≤ v then { k with headErr := true }
  else { k with cplHead := v, cpl := k.cpl.drop ((v + n - k.cplHead) % n) }

/-- KL_CPL_HEAD_WRITE (R482). -/
def execKlCplHeadWrite (p : Nat) (v : Reg) (s : State) : Host.Outcome State Fault Refusal :=
  regAccess p (onPort p (·.cplHeadWrite v.toNat)) s

/-- A KL_EVT_HEAD write. -/
def KlPort.evtHeadWrite (k : KlPort) (v : Nat) : KlPort :=
  let n := ringLen k.evtSize
  if n ≤ v then { k with headErr := true }
  else { k with evtHead := v, evt := k.evt.drop ((v + n - k.evtHead) % n) }

/-- KL_EVT_HEAD_WRITE (R482). -/
def execKlEvtHeadWrite (p : Nat) (v : Reg) (s : State) : Host.Outcome State Fault Refusal :=
  regAccess p (onPort p (·.evtHeadWrite v.toNat)) s

/-- KL_EVT_LOST_READ (R548, R476): the read returns the count and clears it; a loss that meets the read is kept. -/
def execKlEvtLostRead (p : Nat) (meet : Bool) (s : State) : Host.Outcome State Fault Refusal :=
  regAccess p (fun s =>
    let k := s.host.port p
    { s with host := { (s.host.setPort p { k with evtLost := flag meet, lostFlag := k.lostFlag || meet })
                       with rdData := k.evtLost } }) s

/-! ### Fault windows -/

/-- The faults a block detects in one cycle, as real faults. -/
def realFaults (fs : List FaultIn) : List FRec :=
  fs.map fun f => { kind := f.kind, detail := f.detail, injected := false, injAlso := false }

/-- An access to the fault window of block b: its window works on while the block's behaviour is undefined (R538), and
not while the island is in reset or off. -/
def windowAccess (b : Nat) (f : State → State) (s : State) : Host.Outcome State Fault Refusal :=
  if decide (b ≤ 188) && s.islandUp b then .next (f s) else .next s

/-- The window of block b changed. -/
def onWindow (b : Nat) (f : FaultWin → FaultWin) (s : State) : State :=
  { s with flt := { s.flt with win := Tab.set s.flt.win b (f (s.window b)) } }

/-- The bits of a list of faults. -/
def faultBits (fs : List FaultIn) : Nat := fs.foldl (fun a f => a ||| 2 ^ f.kind) 0

/-- FAULT_STATUS, W1C: class-F bits stay; a bit set by a fault of the same cycle stays set (R476, R481). -/
def statusClear (b v : Nat) (meet : List FaultIn) (w : FaultWin) : FaultWin :=
  { w with status := w.status &&& ((2 ^ 32 - 1) ^^^ (v &&& ((2 ^ 32 - 1) ^^^ (classFMask ||| faultBits
      (meet.filter fun f => (faultClass b f.kind).isSome))))) }

/-- FAULT_FIRST.valid, W1C: ignored while a class-F fault is held (R538). -/
def FaultWin.firstClear (w : FaultWin) : FaultWin :=
  if w.firstValid && w.cls == 3 then w
  else { w with firstValid := false, firstTie := false, injAlso := false, injected := false, cls := 0, kindNo := 0,
                detail := 0, time := 0 }

/-! ### Interrupt holdoff -/

/-- A moderation whose holdoff has ended. -/
def IrqMod.expired (m : IrqMod) (now : Nat) : Bool :=
  match m.deadline with
  | some t => decide (t ≤ now)
  | none => false

/-- The moderation after its interrupt. -/
def IrqMod.clear (m : IrqMod) : IrqMod := { m with count := 0, deadline := none }

/-- The port that holds PF1 ring r (R495). -/
def State.ringPort (s : State) (r : Nat) : Nat := if s.twoPorts && decide (16 ≤ r) then 1 else 0

/-- IRQ_HOLDOFF_EXPIRY (R482): source 0 the completion ring and 1 the event ring of port idx, 2 the punt ring and 3 the
inject ring idx. -/
def holdoffExpiry (src idx : Nat) (s : State) : State :=
  let now := s.clk.now
  match src with
  | 0 =>
    let k := s.host.port idx
    if k.cplIrq.expired now then
      { s with host := (s.host.setPort idx { k with cplIrq := k.cplIrq.clear }).signal idx 0 512 }
    else s
  | 1 =>
    let k := s.host.port idx
    if k.evtIrq.expired now then
      { s with host := (s.host.setPort idx { k with evtIrq := k.evtIrq.clear }).signal idx 0 513 }
    else s
  | 2 =>
    let r := Tab.getD s.host.punt idx {}
    if r.irq.expired now then
      let h := { s.host with punt := Tab.set s.host.punt idx { r with irq := r.irq.clear } }
      { s with host := h.signal (s.ringPort idx) 1 idx }
    else s
  | 3 =>
    let r := Tab.getD s.host.inject idx {}
    if r.irq.expired now then
      let h := { s.host with inject := Tab.set s.host.inject idx { r with irq := r.irq.clear } }
      { s with host := h.signal (s.ringPort idx) 1 (32 + idx) }
    else s
  | _ => s

/-- IRQ_HOLDOFF_EXPIRY (R482). -/
def execIrqHoldoffExpiry (src idx : Nat) (s : State) : Host.Outcome State Fault Refusal :=
  island (pcieBlk (if src ≤ 1 then idx else s.ringPort idx)) (holdoffExpiry src idx) s

/-- BAR0_BAD_ACCESS (R475): a write of another size or alignment is discarded and counted; a read answers Unsupported
Request and leaves the device as it was. -/
def execBar0BadAccess (write : Bool) (s : State) : Host.Outcome State Fault Refusal :=
  regAccess 0 (fun s => if write then bump .pcieBadAccess 0 s else s) s

/-! ### PF1 rings (R495, R497) -/

/-- A write of RING_CTRL that sets enable: size fields 6 to 14, base aligned, and for a punt ring a buffer size of 2^11
to 2^14 octets; another configuration leaves enable 0 (notes/assumptions/12.md). -/
def Pf1Ring.setEnable (r : Pf1Ring) (inject : Bool) (ctrl base size : Nat) : Pf1Ring :=
  let r := { r with bufLog2 := bits ctrl 11 8 }
  let r := if r.enable then r else { r with base := base, size := size }
  if r.enable then (if bit ctrl 0 then r else { r with enable := false, posted := [] })
  else if bit ctrl 0 && decide (6 ≤ r.size ∧ r.size ≤ 14) && r.base % 4096 == 0
      && (inject || decide (11 ≤ r.bufLog2 ∧ r.bufLog2 ≤ 14)) then
    { r with enable := true, tail := 0, head := 0, done := [], posted := [], status := [], irq := r.irq.clear }
  else r

/-- The punt or inject rings. -/
def HostS.rings (h : HostS) (inject : Bool) : Tab Pf1Ring := if inject then h.inject else h.punt

/-- The punt or inject ring r replaced. -/
def HostS.setRing (h : HostS) (inject : Bool) (r : Nat) (x : Pf1Ring) : HostS :=
  if inject then { h with inject := Tab.set h.inject r x } else { h with punt := Tab.set h.punt r x }

/-- PF1_RING_ENABLE (R495): base and size, then RING_CTRL. -/
def execPf1RingEnable (inject : Bool) (r : Nat) (ctrl : Reg) (base size : Nat) (s : State) :
    Host.Outcome State Fault Refusal :=
  regAccess (s.ringPort r) (fun s =>
    if r < 32 then
      let x := (Tab.getD (s.host.rings inject) r {}).setEnable inject ctrl.toNat base size
      { s with host := s.host.setRing inject r x }
    else s) s

/-- PUNT_RING_DOORBELL (R497, R8): TAIL is stored as written, and buffers are posted up to it modulo the ring's size
(notes/assumptions/85.md). -/
def execPuntRingDoorbell (r : Nat) (tail : Reg) (s : State) : Host.Outcome State Fault Refusal :=
  regAccess (s.ringPort r) (fun s =>
    let x := Tab.getD s.host.punt r {}
    if r < 32 then
      { s with host := s.host.setRing false r { x with tail := tail.toNat } }
    else s) s

/-- RING_DROPS_READ (R548, R476): the read returns the count and clears it; drops that meet the read are kept. -/
def execRingDropsRead (inject : Bool) (r meet : Nat) (s : State) : Host.Outcome State Fault Refusal :=
  regAccess (s.ringPort r) (fun s =>
    let x := Tab.getD (s.host.rings inject) r {}
    { s with host := { (s.host.setRing inject r { x with drops := min meet (2 ^ 32 - 1) }) with rdData := x.drops } }) s

/-- One more drop of a ring (R500), saturating (R548). -/
def ringDrop (inject : Bool) (r : Nat) (s : State) : State :=
  let x := Tab.getD (s.host.rings inject) r {}
  { s with host := s.host.setRing inject r { x with drops := min (x.drops + 1) (2 ^ 32 - 1) } }

/-! ### PF2 (R501) -/

/-- The PF2 slots of port p. -/
def HostS.pf2 (h : HostS) (p : Nat) : Pf2Port := if p = 0 then h.pf2a else h.pf2b

/-- The PF2 slots of port p replaced. -/
def HostS.setPf2 (h : HostS) (p : Nat) (x : Pf2Port) : HostS :=
  if p = 0 then { h with pf2a := x } else { h with pf2b := x }

/-- The completion of slot n is written and vector 0 of PF2 signalled. -/
def HostS.ampComplete (h : HostS) (p slot tag : Nat) (c : Code) (detail : Nat) (res : List Nat) : HostS :=
  let x := h.pf2 p
  (h.setPf2 p { x with
    head := if x.posted.contains slot then (slot + 1) % 16 else x.head
    posted := x.posted.erase slot
    cpl := Tab.set x.cpl slot { slot := slot, tag := tag, code := c, detail := detail, result := res } }).signal p 2 0

/-- The slots from index a up to b, modulo 16. -/
def slotsUpTo (a b : Nat) : List Nat := (List.range ((b + 16 - a) % 16)).map fun i => (a + i) % 16

/-- What word k of a slot keeps of v: of word 0 the opcode and the flags' two bits, the rest being reserved (R7, R483). -/
def slotWord (off v : Nat) : Nat := if off % 64 = 0 then v % 2 ^ 18 else v

/-- The opcode stored in a slot, if host software wrote the slot through REGISTER_WRITE. -/
def Pf2Port.slotOp (x : Pf2Port) (n : Nat) : Option Nat := (Tab.get? x.mem (16 * n)).map (· % 65536)

/-- AMP_CMD_DOORBELL (R501): slots up to the new tail are posted; one that holds an opcode of subsystems 0x0 to 0xE
answers DENIED, and an unlisted one of 0xF BAD_OPCODE (R488). -/
def ampDoorbell (p tail : Nat) (s : State) : State :=
  let x := s.host.pf2 p
  let t := tail % 16
  let new := slotsUpTo x.tail t
  let h := s.host.setPf2 p { x with tail := t, posted := x.posted ++ new }
  { s with host := new.foldl (fun h n =>
      match x.slotOp n with
      | some op =>
        let tag := Tab.getD x.mem (16 * n + 1) 0
        if op / 4096 != 15 then h.ampComplete p n tag .denied 0 []
        else if op % 4096 ≥ 10 then h.ampComplete p n tag .badOpcode 0 []
        else h
      | none => h) h }

/-- AMP_CMD_DOORBELL (R501). -/
def execAmpCmdDoorbell (p : Nat) (tail : Reg) (s : State) : Host.Outcome State Fault Refusal :=
  regAccess p (ampDoorbell p tail.toNat) s

/-- A PF2 command: Ampoule serves it, and its completion is written at its slot. -/
def ampoule (q : AmpReq) (body : State → State × Reply) (s : State) : Host.Outcome State Fault Refusal :=
  island 173 (fun s =>
    if s.ports.contains q.port then
      let (s1, r) := body s
      let o := pack r.res
      { s1 with host := s1.host.ampComplete q.port (q.slot % 16) q.tag r.code r.detail o }
    else s) s

/-! ### Function Level Reset (R473) -/

/-- MSI-X of a function off until its table is written again (notes/assumptions/13.md), its pending signals gone; what the host
configured in the function is at its values after a Function Level Reset. -/
def HostS.msixDisable (h : HostS) (p fn : Nat) : HostS :=
  { h with msixOff := (p * 3 + fn) :: h.msixOff, msixPend := h.msixPend.filter fun k => k / 2048 != p * 3 + fn
           pcie := Tab.erase h.pcie (p * 3 + fn) }

/-- FLR_PF0 (R473): the port's rings and MSI-X are disabled. -/
def execFlrPf0 (p : Nat) (s : State) : Host.Outcome State Fault Refusal :=
  regAccess p (fun s => { s with host := (s.host.setPort p (s.host.port p).clearEnable).msixDisable p 0 }) s

/-- FLR_PF2 (R473): the port's slots are emptied. -/
def execFlrPf2 (p : Nat) (s : State) : Host.Outcome State Fault Refusal :=
  regAccess p (fun s => { s with host := (s.host.setPf2 p {}).msixDisable p 2 }) s

end Sys2Proof.Machine
end

