-- ==== Sys2Proof/Machine/Parser.lean ====
section
/-! DEFINITION. The parser, the search keys, the fragment key and the hash of a packet (R227 to R233, R259, R264): pure
functions of the frame and of the two UDP ports of R227. Every field is a natural number; a field of a header that was
not parsed is 0. -/

namespace Sys2Proof.Machine

/-- What the parser learns of a frame. -/
structure Parse where
  /-- First byte not parsed, the headers parsed with their first bytes (newest first), what comes next. -/
  pos : Nat := 0
  heads : List (HdrKind × Nat) := []
  next : Nxt := .none
  incomplete : Bool := false
  unknown : Bool := false
  conflict : Bool := false
  /-- End of the IP payload in progress; its version is 6; the outermost IP layer is in progress. -/
  ipEnd : Nat := 0
  v6 : Bool := false
  outer : Bool := false
  dmac : Nat := 0
  smac : Nat := 0
  etype : Nat := 0
  /-- The EtherType of the outermost Ethernet header or tags was read; the tags in progress belong to it. -/
  etSeen : Bool := false
  etOpen : Bool := false
  tcis : List Nat := []
  /-- A tag of the outermost Ethernet header was read. -/
  tagged : Bool := false
  ipVer : Nat := 0
  sip : Nat := 0
  dip : Nat := 0
  proto : Nat := 0
  tos : Nat := 0
  flow : Nat := 0
  ipOpt : Bool := false
  fragFirst : Bool := false
  fragLater : Bool := false
  fragId : Nat := 0
  fragProto : Nat := 0
  l4 : Option HdrKind := .none
  sport : Nat := 0
  dport : Nat := 0
  tcpSeen : Bool := false
  tcpFlags : Nat := 0
  tunnel : Bool := false
  vniSeen : Bool := false
  tunnelId : Nat := 0
deriving DecidableEq, Repr

/-- Octet i of a frame; 0 beyond its end. -/
def octet (os : List Nat) (i : Nat) : Nat := (os[i]?).getD 0 % 256

/-- n octets from octet i on, most significant first. -/
def octetsAt (os : List Nat) (i n : Nat) : Nat := beNat ((List.range n).map fun j => octet os (i + j)) 0

/-- The header an EtherType names (R227). -/
def ofEther (t : Nat) : Nxt :=
  if t = 0x8100 || t = 0x88A8 || t = 0x9100 then .hdr .vlan
  else if t = 0x8864 then .hdr .pppoe
  else if t = 0x8847 || t = 0x8848 then .hdr .mpls
  else if t = 0x0800 then .hdr .ip4
  else if t = 0x86DD then .hdr .ip6
  else if t = 0x88F7 then .hdr .ptp
  else .unknown

/-- The header a GRE or GENEVE protocol names: 0x6558 is Ethernet, any other value is read as an EtherType (DEDUCED). -/
def ofTunnel (t : Nat) : Nxt := if t = 0x6558 then .hdr .eth else ofEther t

/-- The header a protocol or next-header value names. -/
def ofProto (v6 : Bool) (p : Nat) : Nxt :=
  if v6 && (p = 0 || p = 43 || p = 60) then .hdr .ext
  else if v6 && p = 44 then .hdr .frag
  else if p = 6 then .hdr .tcp
  else if p = 17 then .hdr .udp
  else if p = 132 then .hdr .sctp
  else if p = 1 then .hdr .icmp
  else if p = 58 then .hdr .icmp6
  else if p = 2 then .hdr .igmp
  else if p = 47 then .hdr .gre
  else if p = 50 then .hdr .esp
  else if p = 51 then .hdr .ah
  else .unknown

/-- Bytes of a header's fixed part. -/
def fixedLen : HdrKind → Nat
  | .eth => 14
  | .vlan => 4
  | .pppoe => 8
  | .mpls => 4
  | .ip4 => 20
  | .ip6 => 40
  | .ext => 8
  | .frag => 8
  | .tcp => 20
  | .udp => 8
  | .sctp => 12
  | .icmp => 8
  | .icmp6 => 4
  | .igmp => 8
  | .gre => 4
  | .vxlan => 8
  | .geneve => 8
  | .ptp => 34
  | .esp => 8
  | .ah => 12

/-- Bytes of GRE's optional fields: checksum, key, sequence number. -/
def greOptions (flags : Nat) : Nat := 4 * (flag (bit flags 15) + flag (bit flags 13) + flag (bit flags 12))

/-- A header's length as its own fields give it, never below its fixed part. -/
def fullLen (os : List Nat) (pos : Nat) (h : HdrKind) : Nat :=
  max (fixedLen h) (match h with
    | .ip4 => 4 * (octet os pos % 16)
    | .ext => 8 * (octet os (pos + 1) + 1)
    | .tcp => 4 * (octet os (pos + 12) / 16)
    | .gre => 4 + greOptions (octetsAt os pos 2)
    | .geneve => 8 + 4 * (octet os pos % 64)
    | .ah => 4 * (octet os (pos + 1) + 2)
    | _ => 0)

/-- The length conflicts of R229; `fend` is the end of the frame without its FCS. -/
def lenConflictAt (os : List Nat) (fend : Nat) (p : Parse) (h : HdrKind) : Bool :=
  let pos := p.pos
  let left := p.ipEnd - pos
  match h with
  | .pppoe => decide (fend - pos < octetsAt os (pos + 4) 2 + 6)
  | .ip4 =>
    let ihl := octet os pos % 16
    let total := octetsAt os (pos + 2) 2
    decide (ihl < 5) || decide (total < ihl * 4) || decide (fend - pos < total)
  | .ip6 =>
    let n := octetsAt os (pos + 4) 2
    decide (fend - pos < 40 + n) || n == 0
  | .ext => decide (left < 8 * (octet os (pos + 1) + 1))
  | .frag => decide (left < 8)
  | .tcp =>
    let off := octet os (pos + 12) / 16
    decide (off < 5) || decide (left < off * 4)
  | .udp =>
    let n := octetsAt os (pos + 4) 2
    decide (n < 8) || decide (left < n)
  | .gre => decide (left < 4 + greOptions (octetsAt os pos 2))
  | .geneve => decide (left < 8 + 4 * (octet os pos % 64))
  | _ => false

/-- Each field is taken from the outermost parsed instance: the outermost IP layer is the first. -/
def Parse.ip (p : Parse) (ver sip dip proto tos flow : Nat) (opt : Bool) : Parse :=
  if p.ipVer = 0 then
    { p with ipVer := ver, sip := sip, dip := dip, proto := proto, tos := tos, flow := flow, outer := true,
             ipOpt := p.ipOpt || opt }
  else { p with outer := false, ipOpt := p.ipOpt || opt }

/-- The outermost IP header is a fragment (R259). -/
def Parse.frag (p : Parse) (off : Nat) (id proto : Nat) : Parse :=
  { p with fragFirst := off == 0, fragLater := off != 0, fragId := id, fragProto := proto }

/-- A next-header value read in an IPv6 extension header or AH of the IP layer in progress. -/
def Parse.nextProto (p : Parse) (n : Nat) : Parse := if p.outer then { p with proto := n } else p

/-- The ports of the outermost transport header. -/
def Parse.ports (p : Parse) (h : HdrKind) (sp dp : Nat) : Parse :=
  if p.l4.isSome then p else { p with l4 := some h, sport := sp, dport := dp }

/-- A tunnel header: the identifier of the outermost one that carries one. -/
def Parse.tun (p : Parse) (id : Option Nat) : Parse :=
  let p := { p with tunnel := true, outer := false }
  match id with
  | some v => if p.vniSeen then p else { p with vniSeen := true, tunnelId := v }
  | none => p

/-- The flags of the outermost TCP header. -/
def Parse.tcp (p : Parse) (f : Nat) : Parse := if p.tcpSeen then p else { p with tcpSeen := true, tcpFlags := f }

/-- The EtherType after the tags, of the outermost Ethernet header parsed, or of the tags that a pass begins at. -/
def Parse.ether (p : Parse) (t : Nat) : Parse :=
  if p.etOpen || !p.etSeen then { p with etype := t, etSeen := true, etOpen := true } else p

/-- The addresses of an Ethernet header, taken from the outermost one parsed (R232). -/
def Parse.macs (p : Parse) (dmac smac : Nat) : Parse :=
  if p.heads.any fun e => e.1 == .eth then { p with etOpen := false } else { p with dmac := dmac, smac := smac, etOpen := false }

/-- The header after the bottom of an MPLS stack. -/
def afterLabel (os : List Nat) (fend pos : Nat) : Nxt :=
  if octet os (pos + 2) % 2 = 0 then .hdr .mpls
  else if fend ≤ pos + 4 then .none
  else if octet os (pos + 4) / 16 = 4 then .hdr .ip4
  else if octet os (pos + 4) / 16 = 6 then .hdr .ip6
  else .unknown

/-- What a UDP destination port leads to. -/
def ofUdp (vx gn dp : Nat) : Nxt :=
  if dp = vx then .hdr .vxlan else if dp = gn then .hdr .geneve else if dp = 319 || dp = 320 then .hdr .ptp else .none

/-- The fields of the header at p.pos, and what it names next. `vx` and `gn` are the ports of VXLAN and GENEVE. -/
def readHdr (vx gn : Nat) (os : List Nat) (fend : Nat) (p : Parse) (h : HdrKind) : Parse × Nxt :=
  let pos := p.pos
  let w (i : Nat) : Nat := octetsAt os (pos + i) 2
  match h with
  | .eth => ((p.macs (octetsAt os pos 6) (octetsAt os (pos + 6) 6)).ether (w 12), ofEther (w 12))
  | .vlan => ({ p.ether (w 2) with tcis := p.tcis ++ [w 0], tagged := p.tagged || p.etOpen || !p.etSeen }, ofEther (w 2))
  | .pppoe => (p, if w 6 = 0x0021 then .hdr .ip4 else if w 6 = 0x0057 then .hdr .ip6 else .unknown)
  | .mpls => (p, afterLabel os fend pos)
  | .ip4 =>
    let first := p.ipVer == 0
    let proto := octet os (pos + 9)
    let fo := w 6
    let p := p.ip 1 (octetsAt os (pos + 12) 4) (octetsAt os (pos + 16) 4) proto (octet os (pos + 1)) 0 (decide (5 < octet os pos % 16))
    let isFrag := bit fo 13 || fo % 8192 != 0
    let p := if first && isFrag then p.frag (fo % 8192) (w 4) proto else p
    ({ p with v6 := false, ipEnd := pos + w 2 }, if fo % 8192 != 0 then .none else ofProto false proto)
  | .ip6 =>
    let vtf := octetsAt os pos 4
    let nh := octet os (pos + 6)
    let p := p.ip 2 (octetsAt os (pos + 8) 16) (octetsAt os (pos + 24) 16) nh (bits vtf 27 20) (vtf % 2 ^ 20) false
    ({ p with v6 := true, ipEnd := pos + 40 + w 4 }, ofProto true nh)
  | .ext =>
    let nh := octet os pos
    ({ p.nextProto nh with ipOpt := true }, ofProto true nh)
  | .frag =>
    let nh := octet os pos
    let off := w 2 / 8
    let p := if p.outer && p.ipVer == 2 then p.frag off (octetsAt os (pos + 4) 4) nh else p
    ({ p.nextProto nh with ipOpt := true }, if off != 0 then .none else ofProto true nh)
  | .tcp => ((p.ports h (w 0) (w 2)).tcp (octet os (pos + 13)), .none)
  | .udp => (p.ports h (w 0) (w 2), ofUdp vx gn (w 2))
  | .sctp => (p.ports h (w 0) (w 2), .none)
  | .icmp => (p.ports h (w 0) 0, .none)
  | .icmp6 => (p.ports h (w 0) 0, .none)
  | .igmp => (p.ports h 0 0, .none)
  | .gre =>
    let key := if bit (w 0) 13 then some (octetsAt os (pos + 4 + 4 * flag (bit (w 0) 15)) 4 % 2 ^ 24) else none
    (p.tun key, ofTunnel (w 2))
  | .vxlan => (p.tun (some (octetsAt os (pos + 4) 3)), .hdr .eth)
  | .geneve => (p.tun (some (octetsAt os (pos + 4) 3)), ofTunnel (w 2))
  | .ptp => (p, .none)
  | .esp => (p, .none)
  | .ah =>
    let nh := octet os pos
    (p.nextProto nh, ofProto p.v6 nh)

/-- The parser from a header on, with so many headers left of the eight (R228). -/
def parseFrom (vx gn : Nat) (os : List Nat) (fend : Nat) : Nat → Nxt → Parse → Parse
  | _, .none, p => p
  | 0, .unknown, p => { p with next := .unknown }
  | 0, .hdr h, p => { p with next := .hdr h, incomplete := true }
  | _ + 1, .unknown, p => { p with next := .unknown, unknown := true }
  | n + 1, .hdr h, p =>
    if 256 < p.pos + fixedLen h then { p with next := .hdr h, incomplete := true }
    else if fend < p.pos + fixedLen h then { p with next := .hdr h }
    else if 256 < p.pos + fullLen os p.pos h then { p with next := .hdr h, incomplete := true }
    else if lenConflictAt os fend p h then { p with conflict := true }
    else if fend < p.pos + fullLen os p.pos h then { p with next := .hdr h }
    else
      let (q, nx) := readHdr vx gn os fend p h
      parseFrom vx gn os fend n nx { q with
        pos := p.pos + fullLen os p.pos h, heads := (h, p.pos) :: p.heads
        etOpen := q.etOpen && (h == .eth || h == .vlan) }

/-- The parse of a frame whose last four octets are its FCS, beginning at the header `from_`, or where no header is. -/
def parseFrame (vx gn : Nat) (from_ : Nxt) (os : List Nat) : Parse :=
  let fend := os.length - 4
  parseFrom vx gn os fend 8 from_ { ipEnd := fend, v6 := from_ == .hdr .ext || from_ == .hdr .frag }

/-! ### PTP event messages that cross the PON (R409, R410) -/

/-- A PTP event message (Sync, Delay_Req, Pdelay_Req, Pdelay_Resp) that the parser reaches: true; one whose PTP header lies
beyond its reach: false; another frame: none. -/
def ptpTransit (vx gn : Nat) (os : List Nat) : Option Bool :=
  let p := parseFrame vx gn (.hdr .eth) os
  match p.heads with
  | (.ptp, i) :: _ => if octet os i % 16 < 4 then some true else none
  | _ => if p.next == .hdr .ptp then some false else none

/-- A sum of 16-bit words in ones' complement. -/
def onesFold (n : Nat) : Nat := (n / 65536 + n % 65536) / 65536 + (n / 65536 + n % 65536) % 65536

/-- The 16-bit words of eight octets, summed. -/
def wordSum (v : Nat) : Nat := v / 2 ^ 48 % 65536 + v / 2 ^ 32 % 65536 + v / 2 ^ 16 % 65536 + v % 65536

/-- A UDP checksum after eight octets that it covers changed from one value to another: the incremental update; a sum of 0 is
sent as all ones (PRESUMED, notes/assumptions/71.md). -/
def udpUpdate (ck old new : Nat) : Nat :=
  let c := 65535 - onesFold (65535 - ck + (4 * 65535 - wordSum old) + wordSum new)
  if c = 0 then 65535 else c

/-- Octets replaced from position i on. -/
def putAt (os : List Nat) (i : Nat) (new : List Nat) : List Nat := os.take i ++ new ++ os.drop (i + new.length)

/-- A PTP event message with a residence time, in 1/65,536 ns, added to its correctionField (R409): the UDP checksum is
updated, where an IPv4 checksum of 0 stays 0, and the FCS computed again, in the order of IEEE 802.3 (PRESUMED,
notes/assumptions/71.md). -/
def tcCorrect (vx gn : Nat) (res : Int) (os : List Nat) : List Nat :=
  let p := parseFrame vx gn (.hdr .eth) os
  match p.heads with
  | (.ptp, i) :: rest =>
    let old := octetsAt os (i + 8) 8
    let new := (((old : Int) + res) % 2 ^ 64).toNat
    let os := putAt os (i + 8) (beOctets 8 new)
    let os := match rest with
      | (.udp, j) :: _ =>
        let ck := octetsAt os (j + 6) 2
        if ck = 0 && !p.v6 then os else putAt os (j + 6) (beOctets 2 (udpUpdate ck old new))
      | _ => os
    let body := os.take (os.length - 4)
    body ++ leOctets 4 (crcOf 0 body)
  | _ => os

/-- An LTB in the layout of R391 as 1/65,536 ns. -/
def ltbFrac (w : Nat) : Nat := w / 2 ^ 48 * (1000000000 * 65536) + w % 2 ^ 48

/-! ### Keys (R231, R232) -/

/-- The width code of a key type: 0 for 160 bits, 1 for 320, 2 for 640. -/
def keyWidth (kt : Nat) : Nat := if kt = 3 then 2 else if kt = 2 then 1 else 0

/-- Bits of a key of a width code. -/
def keyBits (w : Nat) : Nat := 160 * 2 ^ w

/-- The key head (R231). -/
def keyHead (kt dir : Nat) (pass2 : Bool) (source : Nat) (p : Parse) : Nat :=
  fields [(4, kt), (1, dir), (1, flag pass2), (16, source), (1, flag p.incomplete), (1, flag p.unknown), (1, flag p.fragFirst),
    (1, flag p.fragLater), (1, flag p.tunnel), (1, flag p.ipOpt), (2, min 3 p.tcis.length), (2, p.ipVer)]

/-- An address in a 128-bit field: IPv4 is written ::ffff:a.b.c.d. -/
def addr128 (ver a : Nat) : Nat := if ver = 1 then 0xFFFF * 2 ^ 32 + a else a

/-- The outer tag. -/
def Parse.outerTci (p : Parse) : Nat := p.tcis.headD 0

/-- SYN, ACK, FIN and RST, most significant first. -/
def flags4 (f : Nat) : Nat := fields [(1, flag (bit f 1)), (1, flag (bit f 4)), (1, flag (bit f 0)), (1, flag (bit f 2))]

/-- CWR, ECE, URG, PSH, SYN, ACK, FIN and RST. -/
def flags8 (f : Nat) : Nat := fields [(3, f / 32), (1, flag (bit f 3)), (4, flags4 f)]

/-- The eight octets at the offsets of facet.udf_offsets, the most significant octet of the value naming the first
(DEDUCED). -/
def udfOf (offs : Nat) (os : List Nat) : Nat := beNat ((beOctets 8 offs).map (octet os)) 0

/-- The search key of a key type (R232): a field of an IP version that was not parsed is 0. -/
def facetKey (kt dir : Nat) (pass2 : Bool) (source udf : Nat) (p : Parse) : Nat :=
  let hd := keyHead kt dir pass2 source p
  let v4 (x : Nat) : Nat := if p.ipVer = 1 then x else 0
  let v6 (x : Nat) : Nat := if p.ipVer = 2 then x else 0
  let vid := p.outerTci % 4096
  let sip := if p.ipVer = 0 then 0 else addr128 p.ipVer p.sip
  let dip := if p.ipVer = 0 then 0 else addr128 p.ipVer p.dip
  match kt with
  | 0 => fields [(32, hd), (48, p.dmac), (48, p.smac), (16, p.outerTci), (16, p.etype)]
  | 1 => fields [(32, hd), (32, v4 p.sip), (32, v4 p.dip), (8, p.proto), (8, v4 p.tos), (16, p.sport), (16, p.dport), (12, vid),
      (4, flags4 p.tcpFlags)]
  | 2 => fields [(32, hd), (128, dip), (64, sip / 2 ^ 64), (8, p.proto), (8, v6 p.tos), (20, p.flow), (16, p.sport),
      (16, p.dport), (12, vid), (16, 0)]
  | _ => fields [(32, hd), (48, p.dmac), (48, p.smac), (16, p.outerTci), (16, (p.tcis[1]?).getD 0), (16, p.etype), (128, sip),
      (128, dip), (8, p.proto), (8, p.tos), (20, p.flow), (16, p.sport), (16, p.dport), (8, flags8 p.tcpFlags),
      (24, p.tunnelId), (64, udf), (44, 0)]

/-! ### Fragments and hash (R259, R264) -/

/-- The frame is a fragment. -/
def Parse.isFrag (p : Parse) : Bool := p.fragFirst || p.fragLater

/-- The key of the fragment table (R259). -/
def Parse.fragKey (p : Parse) : Nat := fields [(2, p.ipVer), (128, p.sip), (128, p.dip), (32, p.fragId), (8, p.fragProto)]

/-- The endpoint (address, port) of R264. -/
def endpointLe (a b : Nat × Nat) : Bool := decide (a.1 < b.1) || (a.1 == b.1 && decide (a.2 ≤ b.2))

/-- The octets that the symmetric hash covers (R264). -/
def Parse.hashOctets (p : Parse) : List Nat :=
  if p.ipVer = 0 then
    beOctets 6 (min p.dmac p.smac) ++ beOctets 6 (max p.dmac p.smac) ++ beOctets 2 p.etype ++ beOctets 2 (p.outerTci % 4096)
  else
    let hasPorts := !p.isFrag && p.l4.isSome && (p.proto == 6 || p.proto == 17 || p.proto == 132)
    let a : Nat × Nat := (p.sip, if hasPorts then p.sport else 0)
    let b : Nat × Nat := (p.dip, if hasPorts then p.dport else 0)
    let n := if p.ipVer = 1 then 4 else 16
    let lo := if endpointLe a b then a else b
    let hi := if endpointLe a b then b else a
    (p.proto % 256) :: (beOctets n lo.1 ++ beOctets 2 lo.2 ++ beOctets n hi.1 ++ beOctets 2 hi.2)

/-- The bucket of a packet (R264). -/
def Parse.bucket (p : Parse) : Nat := bits (crcOf 1 p.hashOctets) 31 24

end Sys2Proof.Machine
end

