-- ==== Sys2Proof/Machine/MonBase.lean ====
section
/-! DEFINITION. Histogram units and bandwidth windows as other families feed them (R552 to R554), and the ledger's count
points (R32, R33). -/

namespace Sys2Proof.Machine

/-- The bin of a sample at shift s (R554). -/
def histBin (v s : Nat) : Nat :=
  let u := v / 2 ^ s
  if u < 8 then u
  else
    let e := Nat.log2 u
    min 63 (8 + 4 * (e - 3) + u / 2 ^ (e - 2) % 4)

/-- One sample into a unit (R553). -/
def HistUnit.add (x : HistUnit) (v id ltb : Nat) : HistUnit :=
  let lower := x.count == 0 || decide (v < x.min)
  let higher := x.count == 0 || decide (x.max < v)
  { x with
    bins := Tab.upd x.bins (histBin v x.shift) 0 (fun n => (n + 1) % 2 ^ 64)
    count := (x.count + 1) % 2 ^ 64
    sum := (x.sum + v) % 2 ^ 64
    min := if lower then v else x.min
    minLtb := if lower then ltb else x.minLtb
    minId := if lower then id else x.minId
    max := if higher then v else x.max
    maxLtb := if higher then ltb else x.maxLtb
    maxId := if higher then id else x.maxId }

/-- A sample of a source goes to every unit bound to it; none from supply-sag stage S1 upward (R554). -/
def histSample (src : HistSrc) (v id : Nat) (s : State) : State :=
  if s.sagStage != 0 then s
  else { s with mon := { s.mon with hist := s.mon.hist.map fun e =>
      (e.1, if e.2.src = src then e.2.add v id s.ltbNow else e.2) } }

/-- A free unit bound to a source (R553). -/
def bindUnit (u shift : Nat) (src : HistSrc) (s : State) : State :=
  { s with mon := { s.mon with hist := Tab.set s.mon.hist u { src := src, shift := shift } } }

/-- One frame of so many bytes in the bandwidth window of a key: 2 × p + direction for ports, 512 + 2 × g + direction for
channels (R552). -/
def bwCount (key bytes : Nat) (s : State) : State :=
  { s with mon := { s.mon with bw := Tab.upd s.mon.bw key {} fun w =>
      { w with curBytes := w.curBytes + bytes, curFrames := w.curFrames + 1 } } }

/-- The ledger window of the present, from the LTB (R33): 1 ms each. -/
def State.ledWindow (s : State) : Nat := s.clk.ltb / msT 1

/-- The balance with its open counts those of window w; the counts of another window wait for their close. -/
def Balance.turn (b : Balance) (w : Nat) : Balance :=
  if b.win = w then b
  else { b with win := w, created := 0, ended := 0, createdB := b.createdB + b.created, endedB := b.endedB + b.ended }

/-- A balance of the ledger changed: quantity q of R32, scope i. -/
def onBalance (q i : Nat) (f : Balance → Balance) (s : State) : State :=
  { s with led := { s.led with bal := Tab.upd s.led.bal q [] fun t => Tab.upd t i {} f } }

/-- Count point: n units created, stamped with the window in which it happens (R33). -/
def ledCreate (q i n : Nat) (s : State) : State :=
  onBalance q i (fun b => let b := b.turn s.ledWindow; { b with created := b.created + n }) s

/-- Count point: n units ended. -/
def ledEnd (q i n : Nat) (s : State) : State :=
  onBalance q i (fun b => let b := b.turn s.ledWindow; { b with ended := b.ended + n }) s

/-- A bucket starts with a level (R32): its balance starts from it. -/
def ledBucket (i : Nat) (level : Int) (s : State) : State :=
  onBalance 2 i (fun b => { b with win := s.ledWindow, created := 0, ended := 0, createdB := 0, endedB := 0, resident := level }) s

/-- What a bucket's update does to the ledger (R32): `i` is its scope, amounts in 1/65,536 byte. -/
def ledTokens (i credited spent cut : Nat) (s : State) : State := ledEnd 2 i (spent + cut) (ledCreate 2 i credited s)

/-- The bucket scope of an allocation's credit, class 0 assured and 1 non-assured, in bytes (R180; DEDUCED,
notes/assumptions/102.md). -/
def creditScope (a cls : Nat) : Nat := 2 ^ 22 + 2 * a + cls

/-- The key of superframe n's grants on channel pair g. -/
def grantKey (g n : Nat) : Nat := g + 512 * n

/-- Count point: the grants of superframe n on channel pair g changed (R163). -/
def ledGrants (g n : Nat) (f : GrantBal → GrantBal) (s : State) : State :=
  { s with led := { s.led with grants := Tab.upd s.led.grants (grantKey g n) {} f } }

/-- Count points: n grants scheduled for superframe sfc, n of them ended (R162). -/
def ledGrant (g sfc n : Nat) (s : State) : State := ledGrants g sfc (fun b => { b with created := b.created + n }) s

/-- n grants of superframe sfc executed, returned or cancelled. -/
def ledGrantEnd (g sfc n : Nat) (s : State) : State := ledGrants g sfc (fun b => { b with ended := b.ended + n }) s

/-- The framer reads superframe sfc: its balance closes in this window (R163). -/
def ledGrantsRead (g sfc : Nat) (s : State) : State :=
  { s with led := { s.led with grants := Tab.modify s.led.grants (grantKey g sfc) fun b => { b with readWin := some s.ledWindow } } }

/-- Bytes accepted for an ONU, direction 0 downstream, 1 upstream. -/
def onuBytesIn (h dir n : Nat) (s : State) : State := ledCreate 4 (2 * h + dir) n s

/-- Bytes of an ONU delivered or dropped. -/
def onuBytesOut (h dir n : Nat) (s : State) : State := ledEnd 4 (2 * h + dir) n s

end Sys2Proof.Machine
end

