-- ==== Sys2Proof/Machine/TimeBase.lean ====
section
/-! DEFINITION. What other families read of the TIME island, and the billing taps (R391 to R404, R424 to R427). -/

namespace Sys2Proof.Machine

/-- The LTB has been set (R393, R394). -/
def State.ltbSet (s : State) : Bool := s.time.state != .unset

/-- A domain. -/
def TimeS.dom (t : TimeS) (td : Nat) : TimeDom := if td = 0 then t.td0 else t.td1

/-- A domain replaced. -/
def TimeS.setDom (t : TimeS) (td : Nat) (d : TimeDom) : TimeS := if td = 0 then { t with td0 := d } else { t with td1 := d }

/-- A domain changed. -/
def onDom (td : Nat) (f : TimeDom → TimeDom) (s : State) : State :=
  { s with time := s.time.setDom td (f (s.time.dom td)) }

/-- The offset of a domain's source from the LTB, in 1/64 tick: R408 measures the LTB against a PTP source, the other
sources are measured against the LTB. -/
def TimeDom.ahead (d : TimeDom) : Int := if d.kind = 1 then -d.theta else d.theta

/-- Picoseconds of an offset in 1/64 tick, rounded down. -/
def psOf (x : Int) : Int := x * 390625 / 62208

/-- 1/64 ticks of a delay in ps, to the nearest, a half upward. -/
def ofPs (x : Int) : Int := (2 * x * 62208 + 390625) / 781250

/-- The median of a list of offsets, the lower of the middle two. -/
def medianOf (xs : List Int) : Int :=
  ((xs.mergeSort fun a b => decide (a ≤ b))[(xs.length - 1) / 2]?).getD 0

/-- Half the range of a list of offsets. -/
def halfRange (xs : List Int) : Int := (xs.foldl max (xs.headD 0) - xs.foldl min (xs.headD 0)) / 2

/-- Growth of maxErr since HOLDOVER began, in ns (R404). -/
def State.hoGrowth (s : State) : Nat :=
  s.paramN 0xB016 0 * ((s.clk.now - s.time.hoStart) * 3125 / 7776) / 1000000000

/-- What the loss of both reference inputs adds, in ns (R398). -/
def State.refGrowth (s : State) : Nat :=
  match s.time.bothLost with
  | some t => 50000 * ((s.clk.now - t) * 3125 / 7776) / 1000000000
  | none => 0

/-- maxErr in ns (R404). -/
def State.maxErr (s : State) : Nat :=
  let base := match s.time.state, s.time.steer with
    | .holdover, _ => s.time.hoErr + s.hoGrowth
    | _, some td =>
      let d := s.time.dom td
      d.accNs + s.time.residual.natAbs / 1000 + ((psOf (halfRange d.recent)).natAbs + 999) / 1000
    | _, none => s.time.residual.natAbs / 1000
  base + s.refGrowth

/-- The device's clock class (R404). -/
def State.clockClass (s : State) : Nat :=
  match s.time.state with
  | .locked => (s.time.steer.map fun td => (s.time.dom td).cls).getD 248
  | .holdover => if s.hoGrowth < s.paramN 0xB017 0 then 135 else 165
  | _ => 248

/-- UTC offset and leap flags of the steering source. -/
def State.utc (s : State) : Int × Nat :=
  match s.time.steer with
  | some td => ((s.time.dom td).utc, (s.time.dom td).leap)
  | none => (0, 0)

/-! ### Billing taps (R424 to R427) -/

/-- A credit of a frame of length l to a handle's delta in die d: direction 0 downstream, 1 upstream. -/
def tapCredit (die h dir : Nat) (l : Nat) (s : State) : State :=
  let ov := if dir = 0 then s.amp.inForce.dsOverhead else s.amp.inForce.usOverhead
  let n := (max 1 ((l : Int) + ov)).toNat
  let add (t : Tab Nat) : Tab Nat := Tab.upd t (2 * h + dir) 0 fun v => min (2 ^ 32 - 1) (v + n)
  { s with amp := { s.amp with tap := Tab.upd s.amp.tap die [] add } }

/-! ### The metrological log (R430) -/

/-- Entries that new entries can take: those not used in the run, and those host software has acknowledged. -/
def AmpS.available (a : AmpS) : Nat := 4096 - a.log.length + (a.log.filter fun e => decide (e.seq < a.acked)).length

/-- The log is full (R430): no more than the 16 reserved entries remain. -/
def AmpS.logFull (a : AmpS) : Bool := decide (a.available ≤ 16)

/-- An entry of type SEAL_OPEN, SEAL_COMMIT, SEAL_ABORT or SEAL_PIN. -/
def sealType (t : Nat) : Bool := decide (2 ≤ t) && decide (t ≤ 5)

/-- A pin change that finds no entry is counted in the newest SEAL_PIN entry, whose data hold the pin changes it stands
for (R430). -/
def pinCounted : List LogEntry → List LogEntry
  | [] => []
  | e :: l =>
    if e.type = 5 && !(l.any fun x => x.type == 5) then { e with data := [e.data.headD 0, (e.data[1]?).getD 1 + 1] } :: l
    else e :: pinCounted l

/-- An entry written: an unused one, else in place of the oldest acknowledged one. -/
def AmpS.put (a : AmpS) (ltb type : Nat) (data : List Nat) : AmpS :=
  let l := if a.log.length < 4096 then a.log else a.log.drop 1
  { a with log := l ++ [{ seq := a.nextSeq, ltb := ltb, type := type, data := data }], nextSeq := a.nextSeq + 1 }

/-- An event for the log (R430): while the log is full only SEAL_* events enter; SEAL_PIN only while more than two entries
remain. -/
def AmpS.logged (a : AmpS) (ltb type : Nat) (data : List Nat) : AmpS :=
  if !a.logFull then a.put ltb type data
  else if !sealType type then { a with lost := a.lost + 1 }
  else if type = 5 && a.available ≤ 2 then { a with log := pinCounted a.log }
  else if a.available = 0 then a
  else a.put ltb type data

/-- An event for Ampoule's log. -/
def ampLog (type : Nat) (data : List Nat) (s : State) : State :=
  if s.islandUp 173 then { s with amp := s.amp.logged s.ltbNow type data } else s

/-! ### Events of time of day (R413) and termination of PTP (R407) -/

/-- A cause of OnuTodUpdate: reported unless one is already reported and no TodPairRead has completed since. -/
def todUpdate (h : Nat) (s : State) : State :=
  if s.time.told.contains h then s
  else event 0xB001 [.u 15 h] { s with time := { s.time with told := s.time.told ++ [h] } }

/-- The two destination addresses of ptp.dest_addr (R407). -/
def ptpDest (v : Nat) : Nat := if v = 0 then 0x011B19000000 else 0x0180C200000E

/-- A frame that the boundary clock terminates (R407): a PTP frame of the instance's domain that arrives on an enabled port
with the port's destination address. -/
def State.ptpTerminates (s : State) (p : Nat) (os : List Nat) : Bool :=
  (Tab.get? s.time.port p).isSome && beNat (os.take 6) 0 == ptpDest (s.paramN 0xB053 p)
    && beNat ((os.drop 12).take 2) 0 == 0x88F7 && (os[18]?).getD 0 == s.paramN 0xB054 0

end Sys2Proof.Machine
end

