-- ==== Sys2Proof/Machine/PloamBase.lean ====
section
/-! DEFINITION. Lookups of ONU contexts, sideband events without a scheduled tick, and the queueing of PLOAM messages
(R47, R68, R108, R122 to R124, R581). -/

namespace Sys2Proof.Machine

/-! ### Lookups -/

/-- ONU contexts on channel pair g in the states past discovery, RANGING to LOST (R41, R112). -/
def State.anyPastDiscovery (s : State) (g : Nat) : Bool :=
  s.onu.ctx.any fun e => 8 * e.2.tree + e.2.chan == g && decide (3 ≤ e.2.state.ctorIdx ∧ e.2.state.ctorIdx ≤ 10)

/-- The state of a handle. -/
def State.onuState (s : State) (h : Nat) : OnuState := ((Tab.get? s.onu.ctx h).map (·.state)).getD .free

/-- The ONU's rate in force at a superframe: a ladder step on trial counts from its act_sfc (R45, R128). -/
def rateAt (o : Onu) (sfc : Nat) : Nat :=
  if o.ladder.phase == 2 && decide (o.ladder.actSfc ≤ sfc) then o.ladder.rate else o.curRate

/-- The upstream rate of a handle in force now. -/
def State.onuRate (s : State) (h : Nat) : Nat := ((Tab.get? s.onu.ctx h).map fun o => rateAt o s.clk.sfc).getD 0

/-- The channel pair of a context. -/
def Onu.g (o : Onu) : Nat := 8 * o.tree + o.chan

/-- The phase memory entry of (handle, channel pair c). -/
def State.phaseEnt (s : State) (h c : Nat) : PhaseEnt := Tab.getD s.lane.phase (8 * h + c) {}

/-- The context of an ONU-ID on a tree, as (handle, context). -/
def State.findOnu (s : State) (tree onuId : Nat) : Option (Nat × Onu) :=
  s.onu.ctx.find? fun e => e.2.tree == tree && e.2.onuId == some onuId

/-- The context of a serial number. -/
def State.findSerial (s : State) (serial : Nat) : Option (Nat × Onu) := s.onu.ctx.find? fun e => e.2.serial == serial

/-- A context changed. -/
def onOnu (h : Nat) (f : Onu → Onu) (s : State) : State :=
  { s with onu := { s.onu with ctx := Tab.modify s.onu.ctx h f } }

/-- A port exists in the present mode of its group (R68). -/
def State.portExists (s : State) (p : Nat) : Bool :=
  let l := match s.paramN 0x1500 (p / 8) with
    | 0 => 8
    | 1 => 4
    | 2 => 2
    | 3 => 1
    | _ => 0
  decide (p < 256) && l != 0 && p % 8 % l == 0

/-! ### Sideband events without a scheduled tick (R581) -/

/-- Events already carried by a frame of a link. -/
def SbLink.carried (k : SbLink) (frame : Nat) : Nat := (k.out.filter fun e => e.frame == frame).length

/-- The first frame from f on with a free event slot, within n frames. -/
def SbLink.freeFrame (k : SbLink) (f : Nat) : Nat → Nat
  | 0 => f
  | n + 1 => if k.carried f < 6 then f else k.freeFrame (f + 1) n

/-- The number of the outbound frame on the line, on the continuous sequence. -/
def State.sbFrameNow (s : State) : Nat := s.clk.sfc * 1215 + s.clk.ltb % 311040 / 256

/-- TX_ENABLE, TX_DISABLE or ECHO toward a tree's carrier: the first frame that has not begun to leave and has a free slot,
time 288 (R581). CONFIG is never sent: the manual names no occasion for it (DESIGN CHOICE, notes/assumptions/90.md). -/
def sbSend (t chan type param : Nat) (s : State) : State :=
  let k := Tab.getD s.lane.link t {}
  let f := k.freeFrame (s.sbFrameNow + 1) (k.out.length + 1)
  { s with lane := { s.lane with link := Tab.set s.lane.link t { k with
      out := k.out ++ [{ frame := f, chan := chan, type := type, time := 288, param := param }] } } }

/-! ### PLOAM queueing (R122 to R124) -/

/-- The message requires an answer, which keeps the ONU's next such message waiting (R123). -/
def needsAnswer : PlMsg → Bool
  | .rangingTime _ | .requestRegistration | .assignAlloc .. | .keyControl .. | .tuningControl .. | .extInquire
  | .rateStep .. | .tribOffer .. | .seededProfile => true
  | .tuneCarry _ standing _ _ _ _ => standing
  | _ => false

/-- The Tune_Carry that accompanies a Tuning_Control (R129). -/
def isCarry : PlMsg → Bool
  | .tuneCarry _ standing .. => !standing
  | _ => false

/-- A message of the retune itself (R132), the Ranging_Time of its window on the target among them (R134). -/
def ofRetune : PlMsg → Bool
  | .tuningControl .. | .rangingTime _ => true
  | m => isCarry m

/-- The message keeps the ONU's next such message waiting (R123): a spare retune's Tuning_Control does not, since no
Tuning_Response is waited for (R138). -/
def Onu.awaits (o : Onu) (m : PlMsg) : Bool :=
  needsAnswer m && !(match m with
    | .tuningControl .. => (o.tune.map (·.source)) == some 2
    | _ => false)

/-- Sendings after the first (R113, R123): none for the messages whose answer the state table gives one period, two for
Request_Registration, else ploam.retries. -/
def State.retriesOf (s : State) : PlMsg → Nat
  | .extInquire | .rateStep .. | .tuningControl .. => 0
  | .requestRegistration => 2
  | _ => s.paramN 0x3041 0

/-- A message queued. -/
def plQueue (i : PlItem) (s : State) : State := { s with onu := { s.onu with queue := s.onu.queue ++ [i] } }

/-- A unicast message queued for a context. -/
def plSend (h : Nat) (m : PlMsg) (s : State) : State :=
  match Tab.get? s.onu.ctx h with
  | some o => plQueue { g := o.g, onu := some h, msg := m, ready := s.clk.sfc } s
  | none => s

/-- A broadcast message queued for channel pair g, sent in n consecutive superframes. -/
def plBroadcast (g n : Nat) (m : PlMsg) (s : State) : State :=
  plQueue { g := g, onu := none, msg := m, left := n, ready := s.clk.sfc } s

/-- The outstanding message is answered. -/
def plAnswered (h : Nat) (s : State) : State := onOnu h (fun o => { o with out := none }) s

end Sys2Proof.Machine
end

