-- ==== Sys2Proof/Machine/CipBase.lean ====
section
/-! DEFINITION. Key contexts, key exchanges and the use of keys by the line cipher (R355 to R369). -/

namespace Sys2Proof.Machine

/-! ### Lookups -/

/-- Index of a unicast key context: direction 0 downstream, 1 upstream. -/
def keyIdx (h dir slot : Nat) : Nat := 4 * h + 2 * dir + slot

/-- A key context. -/
def State.keyCtx (s : State) (h dir slot : Nat) : KeyCtx := Tab.getD s.cip.key (keyIdx h dir slot) {}

/-- A key context set; an EMPTY one is not listed, its key being zeros (R359). -/
def setKey (h dir slot : Nat) (k : KeyCtx) (s : State) : State :=
  { s with cip := { s.cip with key :=
      if k.st == .empty then Tab.erase s.cip.key (keyIdx h dir slot) else Tab.set s.cip.key (keyIdx h dir slot) k } }

/-- A broadcast key context. -/
def State.bcastCtx (s : State) (g slot : Nat) : KeyCtx := Tab.getD s.cip.bcast (2 * g + slot) {}

/-- A broadcast key context set. -/
def setBcast (g slot : Nat) (k : KeyCtx) (s : State) : State :=
  { s with cip := { s.cip with bcast :=
      if k.st == .empty then Tab.erase s.cip.bcast (2 * g + slot) else Tab.set s.cip.bcast (2 * g + slot) k } }

/-- What the ciphers keep of an ONU. -/
def State.keyOnu (s : State) (h : Nat) : KeyOnu := Tab.getD s.cip.onu h {}

/-- What the ciphers keep of an ONU, changed. -/
def onKeyOnu (h : Nat) (f : KeyOnu → KeyOnu) (s : State) : State :=
  { s with cip := { s.cip with onu := Tab.upd s.cip.onu h {} f } }

/-- The CURRENT slot of an ONU in a direction. -/
def State.currentSlot (s : State) (h dir : Nat) : Option Nat := [0, 1].find? fun k => (s.keyCtx h dir k).st == .current

/-- The word of R359. -/
def KeyCtx.word (k : KeyCtx) : Nat :=
  let v := k.st != .empty && k.st != .pending && k.st != .exhausted
  fields [(1, flag v), (3, k.st.ctorIdx), (1, flag k.isRec), (1, flag k.weak), (29, k.blk), (51, k.sfcLast), (42, 0)]

/-- The IV of R365. -/
def ivWord (dir : Nat) (bcast : Bool) (id sfc blk : Nat) : Nat :=
  fields [(1, dir), (1, flag bcast), (4, 0), (10, id), (51, sfc), (29, blk)]

/-! ### Key exchange (R360 to R363) -/

/-- The master session key in force (R358). -/
def KeyOnu.mskOr (k : KeyOnu) : Nat := k.sessionKey.getD Config.defaultMsk

/-- The master key in force (R361): without one, the default MSK repeated twice. -/
def KeyOnu.mkOr (k : KeyOnu) : Nat := k.masterKey.getD (Config.defaultMsk % 2 ^ 128 * 2 ^ 128 + Config.defaultMsk % 2 ^ 128)

/-- An upstream PLOAM message passes its integrity check (R122, R358): under the key of the sender's MSK, or of the default one where
its ONU-ID has none. -/
def State.micOk (s : State) (hd : UsHead) : Bool :=
  let msk := ((s.findOnu (hd.g / 8) hd.onuId).map fun e => (s.keyOnu e.1).mskOr).getD Config.defaultMsk
  hd.mic == Config.ploamMic (Config.ploamKey msk) hd.octets

/-- KEK_G of an ONU from its master key and serial number (R361). -/
def kekG (mk serial : Nat) : Nat :=
  let l := serial % 2 ^ 64 * 2 ^ 64
  aesEnc mk (l + 1) * 2 ^ 128 + aesEnc mk (l + 2)

/-- OK (R378): the key of the option image's signature. -/
def optionKey : Nat :=
  let e (n : Nat) : Nat := aesEnc Config.imageKey (Nat.xor (Config.deviceSecret % 2 ^ 128) n)
  e 1 * 2 ^ 128 + e 2

/-- OK_XTS (R378): the pair of keys of the option image's XTS. -/
def optionXts : Nat :=
  let e (n : Nat) : Nat := aesEnc Config.imageKey (Nat.xor (Config.deviceSecret % 2 ^ 128) n)
  ((e 3 * 2 ^ 128 + e 4) * 2 ^ 128 + e 5) * 2 ^ 128 + e 6

/-- The slot of the next exchange (R360): one that is EMPTY in both directions. -/
def State.exchSlot (s : State) (h : Nat) : Option Nat :=
  [0, 1].find? fun k => (s.keyCtx h 0 k).st == .empty && (s.keyCtx h 1 k).st == .empty

/-- A due exchange starts when its slot is EMPTY (R360, R361 step 1). -/
def tryExchange (h : Nat) (s : State) : State :=
  let k := s.keyOnu h
  if !k.due || k.exch.isSome then s
  else
    match Tab.get? s.onu.ctx h, s.exchSlot h with
    | some _, some slot =>
      let p : KeyCtx := { st := .pending, isRec := k.isRec }
      plSend h (.keyControl 0 slot)
        (onKeyOnu h (fun k => { k with due := false, retryAt := none, exch := some { slot := slot } })
          (setKey h 0 slot p (setKey h 1 slot p s)))
    | _, _ => s

/-- An exchange becomes due (R360). -/
def dueExchange (h : Nat) (s : State) : State := tryExchange h (onKeyOnu h (fun k => { k with due := true }) s)

/-- Entry to OPERATION (R355, R360): the suite is fixed, an exchange is due. -/
def startKeyExchange (h : Nat) (s : State) : State :=
  let isRec := ((Tab.get? s.onu.ctx h).map fun o => !o.ext).getD true
  dueExchange h (onKeyOnu h (fun k => { k with isRec := isRec }) s)

/-- An exchange fails (R363): the target slot returns to EMPTY and a retry is set. -/
def keyFail (h : Nat) (s : State) : State :=
  match (s.keyOnu h).exch with
  | none => s
  | some e =>
    let clr (dir : Nat) (s : State) : State := if (s.keyCtx h dir e.slot).st == .pending then setKey h dir e.slot {} s else s
    bump .keyExchFail h (onKeyOnu h (fun k => { k with exch := none, retryAt := some (s.clk.now + secT (s.paramN 0xA013 0)) })
      (clr 1 (clr 0 s)))

/-- Key_Control was answered or stayed unanswered (R363). -/
def keyControlAnswered (h _kind slot : Nat) (ok : Bool) (s : State) : State :=
  if ok then s
  else
    match (s.keyOnu h).exch with
    | some e => if e.slot == slot then keyFail h s else s
    | none => s

/-- A reported key is installed in both directions (R361 step 4). -/
def keyInstall (h slot key : Nat) (s : State) : State :=
  let k := s.keyOnu h
  let c : KeyCtx := { st := .ready, isRec := k.isRec, weak := !k.isRec && k.masterKey.isNone, key := key, at_ := s.clk.sfc }
  bump .keyExchanges h (onKeyOnu h (fun k => { k with exch := none, retryAt := none,
                                                      rekeyAt := some (s.clk.now + secT (s.paramN 0xA010 0)) })
    (setKey h 0 slot c (setKey h 1 slot c s)))

/-- Release (R363): the four contexts are zeroised, an exchange ends. -/
def dropKeys (h : Nat) (s : State) : State :=
  let s := [0, 1].foldl (fun s d => setKey h d 0 {} (setKey h d 1 {} s)) s
  { s with cip := { s.cip with onu := Tab.modify s.cip.onu h fun k =>
      { k with exch := none, due := false, rekeyAt := none, retryAt := none } } }

/-- A slot becomes CURRENT and the other RETIRING (R362). -/
def keySwitch (h dir slot : Nat) (s : State) : State :=
  let o := s.keyCtx h dir (1 - slot)
  let s := if o.st == .current then
      setKey h dir (1 - slot) { o with st := .retiring, till := s.clk.sfc + s.paramN 0xA012 0 } s
    else s
  bump .keySwitches h (setKey h dir slot { s.keyCtx h dir slot with st := .current } s)

/-- The broadcast counterpart of R373. -/
def bcastSwitch (g slot : Nat) (s : State) : State :=
  let o := s.bcastCtx g (1 - slot)
  let s := if o.st == .current then
      setBcast g (1 - slot) { o with st := .retiring, till := s.clk.sfc + s.paramN 0xA012 0 } s
    else s
  setBcast g slot { s.bcastCtx g slot with st := .current } s

/-- One context at the boundary that starts superframe sfc (R359, R362): an EXHAUSTED slot becomes EMPTY, a READY
downstream slot CURRENT after switch_lead; in TUNING it stays READY and its lead starts again. -/
def keyTick (sfc h dir slot : Nat) (s : State) : State :=
  let k := s.keyCtx h dir slot
  match k.st with
  | .exhausted => setKey h dir slot {} s
  | .ready =>
    if dir != 0 then s
    else if s.onuState h == .tuning then setKey h dir slot { k with at_ := sfc } s
    else if k.at_ + s.paramN 0xA011 0 ≤ sfc then keySwitch h 0 slot s
    else s
  | _ => s

/-- One broadcast context at a boundary. -/
def bcastTick (sfc g slot : Nat) (s : State) : State :=
  let k := s.bcastCtx g slot
  match k.st with
  | .exhausted => setBcast g slot {} s
  | .ready => if k.at_ ≤ sfc then bcastSwitch g slot s else s
  | _ => s

/-- Key contexts at the boundary that starts superframe sfc, then the exchanges that wait. -/
def keyBoundary (sfc : Nat) (s : State) : State :=
  let s := (Tab.keys s.cip.key).foldl (fun s i => keyTick sfc (i / 4) (i / 2 % 2) (i % 2) s) s
  let s := (Tab.keys s.cip.bcast).foldl (fun s i => bcastTick sfc (i / 2) (i % 2) s) s
  (Tab.keys s.cip.onu).foldl (fun s h => tryExchange h s) s

/-! ### Drops of the line cipher (R387) -/

/-- A drop for an ONU: its count by reason code, and its byte balance (direction 0 down, 1 up). -/
def dropOnu (h dir code bytes : Nat) (s : State) : State :=
  bump .dropOnu (256 * h + code) (onuBytesOut h dir bytes s)

/-- A drop of a channel pair's broadcast. -/
def dropChan (g code : Nat) (s : State) : State := bump .dropChan (256 * g + code) s

/-! ### The use of a key (R365, R368) -/

/-- One message of p plaintext octets in superframe n: the context after it and its block index; none when the IV would
repeat. -/
def KeyCtx.take (k : KeyCtx) (n p : Nat) : Option (KeyCtx × Nat) :=
  let b := if k.sfcLast < n then 0 else k.blk
  let e := b + ceilDiv p 16 + 1
  if n < k.sfcLast || 2 ^ 28 ≤ e then none else some ({ k with sfcLast := n, blk := e }, b)

/-- A unicast context is exhausted (R359, R368): zeroised, KEY_REPEAT counted, an exchange forced. -/
def keyExhaust (h dir slot : Nat) (s : State) : State :=
  let k := s.keyCtx h dir slot
  dueExchange h (bump .keyRepeat h (setKey h dir slot { st := .exhausted, isRec := k.isRec } s))

/-- A broadcast context is exhausted: KEY_REPEAT, and the event BroadcastKeyExhausted. -/
def bcastExhaust (g slot : Nat) (s : State) : State :=
  event 0xA000 [.u 9 g, .u 1 slot] (bump .keyRepeatG g (setBcast g slot { st := .exhausted } s))

/-- A message received under a context (R359, R365): sfc_last and blk_next follow the sender's, and give its block index. -/
def KeyCtx.follow (k : KeyCtx) (n p : Nat) : KeyCtx × Nat :=
  let b := if k.sfcLast < n then 0 else k.blk
  ({ k with sfcLast := max k.sfcLast n, blk := if n < k.sfcLast then k.blk else b + ceilDiv p 16 + 1 }, b)

/-- A REC message under a context: only sfc_last is kept (R359). -/
def KeyCtx.seen (k : KeyCtx) (n : Nat) : KeyCtx := { k with sfcLast := max k.sfcLast n }

/-- What becomes of a downstream message: sent in clear, or under a slot's key as a GCM message with its IV or a REC one in its
superframe; or dropped with a code. -/
inductive Sealed
  | clear
  | gcm (slot key iv : Nat)
  | recm (slot key sfc : Nat)
  | dropped (code : Nat)
deriving DecidableEq, Repr

/-- The key index of a message's header: 0b01 names slot 0, 0b10 slot 1 (R357). -/
def Sealed.index : Sealed → Nat
  | .gcm k _ _ | .recm k _ _ => k + 1
  | _ => 0

/-- The IV of a GCM message. -/
def Sealed.iv : Sealed → Option Nat
  | .gcm _ _ iv => some iv
  | _ => none

/-- The payload of a message on the fibre: ciphertext, and the tag of a tagged one, with its header as the additional data
(R366, R367). -/
def Sealed.payload (x : Sealed) (header os : List Nat) (tagged : Bool) : List Nat :=
  match x with
  | .gcm _ key iv =>
    let ct := gcmText key iv os
    ct ++ (if tagged then beOctets 16 (gcmTag key iv header ct) else [])
  | .recm _ key sfc => Config.recCipher key sfc header os
  | _ => os

/-- A GEM handle's port was encrypted for frames that arrived after so many changes (R389): the value before the first later change
of it, else the present one. -/
def State.encryptAt (s : State) (gem n : Nat) : Bool :=
  match (Tab.getD s.cip.encLog gem []).find? fun e => decide (n < e.1) with
  | some e => e.2
  | none => s.param 0xA020 gem == 1

/-- A downstream message of p octets for ONU h on channel pair g in superframe n, `enc` when its port was encrypted at its arrival
(R356, R357, R366). -/
def sealUnicast (h g : Nat) (enc : Bool) (n p : Nat) (s : State) : Sealed × State :=
  if !enc then (.clear, s)
  else if (s.keyOnu h).isRec && s.param 0xA000 (g / 8) == 0 then (.dropped 0x44, s)
  else
    match s.currentSlot h 0 with
    | none =>
      let gone := [0, 1].any fun k => (s.keyCtx h 0 k).st == .exhausted
      (.dropped (if gone then 0x42 else 0x41), s)
    | some slot =>
      let k := s.keyCtx h 0 slot
      if k.isRec then (.recm slot k.key n, setKey h 0 slot (k.seen n) s)
      else
        match k.take n p with
        | some (k2, b) =>
          let id := ((Tab.get? s.onu.ctx h).bind (·.onuId)).getD 0
          (.gcm slot k.key (ivWord 0 false id n b), setKey h 0 slot k2 s)
        | none => (.dropped 0x42, keyExhaust h 0 slot s)

/-- A broadcast message of p octets on channel pair g in superframe n. -/
def sealBcast (g : Nat) (enc : Bool) (n p : Nat) (s : State) : Sealed × State :=
  if !enc then (.clear, s)
  else
    match [0, 1].find? fun k => (s.bcastCtx g k).st == .current with
    | none =>
      let gone := [0, 1].any fun k => (s.bcastCtx g k).st == .exhausted
      (.dropped (if gone then 0x42 else 0x41), s)
    | some slot =>
      let k := s.bcastCtx g slot
      match k.take n p with
      | some (k2, b) => (.gcm slot k.key (ivWord 0 true (g % 8) n b), setBcast g slot k2 s)
      | none => (.dropped 0x42, bcastExhaust g slot s)

/-- Octets that the tag adds to a message: 16 on an encrypted GEM port of a GCM context (R366). -/
def State.tagOctets (s : State) (dest : Option Nat) (enc : Bool) : Nat :=
  if !enc || (match dest with
    | some h => (s.keyOnu h).isRec
    | none => false) then 0 else 16

/-! ### Check units (R383 to R385) -/

/-- A check unit changed. -/
def onCu (u : Nat) (f : CrcUnit → CrcUnit) (s : State) : State :=
  { s with cip := { s.cip with cu := Tab.upd s.cip.cu u {} f } }

/-- A check unit. -/
def State.crcUnit (s : State) (u : Nat) : CrcUnit := Tab.getD s.cip.cu u {}

/-- The Init value of an algorithm as the register holds it (R385). -/
def crcInit (alg : Nat) : Nat :=
  match crcAlg alg with
  | some (_, _, i, _, _) => i
  | none => 0

/-- The register after octets, before output reflection and final XOR. -/
def crcStep (alg run : Nat) (os : List Nat) : Nat :=
  match crcAlg alg with
  | some (w, p, _, r, _) => crcOver w p r run os
  | none => run

/-- CU3 has run CRC-32C over octets of the option loader's or of an audit (R384). -/
def cu3Ran (os : List Nat) (s : State) : State := onCu 3 (fun _ => { alg := 1, run := crcStep 1 (crcInit 1) os, isDone := true }) s

/-! ### Jobs of the Key Engine (R376) -/

/-- Bexed's job waits for the Key Engine (R377). -/
def keQueue (j : KeJob) (s : State) : State :=
  { s with cip := { s.cip with ke := { s.cip.ke with jobs := s.cip.ke.jobs ++ [j], waitBexed := true } } }

/-! ### The random source (R375, R382) -/

/-- A stack's XTS key pair is drawn; nothing is drawn while the random source has failed. -/
def drawXts (j : Nat) (s : State) : State :=
  if s.cip.rngFailed then { s with cip := { s.cip with xts := Tab.erase s.cip.xts j } }
  else { s with cip := { s.cip with xts := Tab.set s.cip.xts j s.cip.draws, draws := s.cip.draws + 1 } }

/-- Stack j's XTS engine holds a key pair; without one every queue acts as if its profile had spill = 0. -/
def State.xtsKeyed (s : State) (j : Nat) : Bool := (Tab.get? s.cip.xts j).isSome

/-- The key pair of stack j's XTS engine (R374): the draw it came from, 512 bits. -/
def State.xtsKeys (s : State) (j : Nat) : Nat := Config.randomBits (Tab.getD s.cip.xts j 0) % 2 ^ 512

/-- A page as stack j stores it (R374): one data unit of 4 KiB, its tweak the page number. -/
def State.storedPage (s : State) (p : Nat) (os : List Nat) : List Nat := xtsEnc (s.xtsKeys (p % 4)) p os

/-- A page record as stack j stores it: one data unit of 32 octets, its tweak 2^40 + its index in the page table. -/
def State.storedRecord (s : State) (p word : Nat) : List Nat := xtsEnc (s.xtsKeys (p % 4)) (2 ^ 40 + p / 4) (leOctets 32 word)

/-- A random value of w bits for firmware, none while the source has failed. -/
def State.randomVal (s : State) (w : Nat) : Nat := Config.randomBits s.cip.draws % 2 ^ w

/-- The state after one draw. -/
def drawnKe (s : State) : State := { s with cip := { s.cip with draws := s.cip.draws + 1 } }

end Sys2Proof.Machine
end

