-- ==== Sys2Proof/Machine/ProtBase.lean ====
section
/-! DEFINITION. What other families read of protection groups, and the withdrawal of claims (R444 to R449). -/

namespace Sys2Proof.Machine

/-- A protection group. -/
def State.grp (s : State) (k : Nat) : ProtGrp := Tab.getD s.prot.grp k {}

/-- A protection group changed. -/
def onGrp (k : Nat) (f : ProtGrp → ProtGrp) (s : State) : State :=
  { s with prot := { s.prot with grp := Tab.upd s.prot.grp k {} f } }

/-- The device listens as standby on tree t (R225): its group is on and not ACTIVE. -/
def State.standbyTree (s : State) (t : Nat) : Bool := (s.grp t).st != .off && (s.grp t).st != .active

/-- The device holds the tree: it is not protected, or its group is held (R446, R453). -/
def State.holdsTree (s : State) (t : Nat) : Bool := (s.grp t).st == .off || (s.grp t).held

/-- Misses of the tree advance no run: the settle period of R455. -/
def State.settling (s : State) (t : Nat) : Bool := decide (s.clk.sfc < (s.grp t).settleEnd)

/-- The channel pairs of a tree. -/
def treePairs (t : Nat) : List Nat := (List.range 8).map (8 * t + ·)

/-- The tree's transmit lanes go to STANDBY within 1 µs, and TX_DISABLE is sent for each channel pair (R446). -/
def darken (t : Nat) (s : State) : State :=
  (treePairs t).foldl (fun s g =>
    let c := Tab.getD s.lane.ch g {}
    if c.tx == .off then s
    else sbSend t (g % 8) 0x3 0
      { s with lane := { s.lane with ch := Tab.set s.lane.ch g { c with tx := .standby, txGoal := .standby } } }) s

/-- Where the receive lane of a channel pair goes that comes to rest: it stays ACTIVE on a standby's tree (R225). -/
def State.restGoal (s : State) (g : Nat) (p : LanePwr) : LanePwr := if s.standbyTree (g / 8) then .active else p

/-- A standby keeps the receive lanes of every channel pair of the tree ACTIVE (R225). -/
def listen (t : Nat) (s : State) : State :=
  (treePairs t).foldl (fun s g =>
    let c := Tab.getD s.lane.ch g {}
    { s with lane := { s.lane with ch := Tab.set s.lane.ch g { c with rxGoal := .active } } }) s

/-- Bexed's notice of a switch-over, promotion or resynchronisation, which Ampoule logs (R437): the group and its state. -/
def protLog (k : Nat) (s : State) : State := ampLog 13 [k, (s.grp k).st.ctorIdx] s

/-- The group's claim and hold end, and its lanes go dark. -/
def dropHold (k : Nat) (st : GrpSt) (bySwitch : Bool) (s : State) : State :=
  let s := listen k (darken k (onGrp k (fun p => { p with
    st := st, held := false, raised := false, wanted := false, bySwitch := bySwitch, drillUntil := none, audit := none
    sent := [], copied := false }) s))
  if st == .released then protLog k s else s

/-- Stage S5 or a latched class-F fault: the engine withdraws every claim at once (R446, R448). -/
def withdrawClaims (s : State) : State :=
  (Tab.keys s.prot.grp).foldl (fun s k =>
    match (s.grp k).st with
    | .active => dropHold k .released false s
    | .promoting | .claiming => dropHold k .ready false s
    | _ => onGrp k (fun p => { p with held := false, raised := false, wanted := false }) s) s

/-- The peer is heard (R442) in the present superframe. -/
def State.peerHeard (s : State) : Bool :=
  match s.prot.heardSfc with
  | some n => decide (s.clk.sfc ≤ n + s.paramN 0xC030 0)
  | none => false

/-- The peer is heard ACTIVE on group k (R442). -/
def State.peerActive (s : State) (k : Nat) : Bool := s.peerHeard && (s.grp k).peerState == 3

/-- An arrival on an Ixrardo link: a gap in seq for the type is counted (R73). True when there was a gap. -/
def ixrArrive (link type seq : Nat) (s : State) : Bool × State :=
  let l := Tab.getD s.lane.ixr link {}
  let gap := match Tab.get? l.rxSeq type with
    | some n => n != seq % 65536
    | none => false
  let l := { l with rxSeq := Tab.set l.rxSeq type ((seq + 1) % 65536) }
  let s := { s with lane := { s.lane with ixr := Tab.set s.lane.ixr link l } }
  (gap, if gap then bump .ixrSeqGap (16 * link + type) s else s)

/-- The priority class of a type (R73). -/
def ixrClass : Nat → Nat
  | 1 | 2 => 3
  | 3 | 4 => 2
  | 5 => 1
  | _ => 0

/-- A frame among those that wait on a link: behind its own class and above, before every lower class (R73). -/
def ixrPlace (x : IxrHdr) (q : List IxrHdr) : List IxrHdr :=
  q.takeWhile (fun y => decide (x.cls ≤ y.cls)) ++ x :: q.dropWhile (fun y => decide (x.cls ≤ y.cls))

/-- A frame of a type leaves on a link with the next sequence number of its type, which is the answer (R72, R73). Its
dst_unit is 0xFF (DESIGN CHOICE, notes/assumptions/89.md). -/
def ixrSeq (link type len : Nat) (s : State) : Nat × State :=
  let l := Tab.getD s.lane.ixr link {}
  let n := Tab.getD l.txSeq type 0
  let x : IxrHdr := { type := type, cls := ixrClass type, seq := n, srcUnit := s.opt.unitId % 256, dstUnit := 0xFF, length := len }
  let l := { l with txSeq := Tab.set l.txSeq type ((n + 1) % 65536), out := ixrPlace x l.out }
  (n, { s with lane := { s.lane with ixr := Tab.set s.lane.ixr link l } })

/-- The link that carries MIRROR and AUDIT frames: the first that is up toward the peer's unit, else the first that is up
(DESIGN CHOICE, notes/assumptions/89.md). -/
def State.peerLink (s : State) : Option Nat :=
  let up := (s.lane.ixr.filter fun e => e.2.up).map (·.1)
  match up.find? fun u => match Tab.get? s.prot.links u with
      | some l => l.accepted && l.unit == s.paramN 0xC011 0
      | none => false with
  | some u => some u
  | none => up.head?

/-- The Ixrardo links that are up. -/
def State.ixrUp (s : State) : List Nat := (s.lane.ixr.filter fun e => e.2.up).map (·.1)

/-- stack.id: device.mac_base of the master (R466). -/
def State.stackId (s : State) : Nat :=
  if s.opt.cur.stackRole == 1 && !s.prot.asMember then s.opt.cur.macBase
  else ((s.prot.links.find? fun e => e.2.accepted && e.2.masters == 2 ^ e.2.unit).map fun e => e.2.macBase).getD 0

/-- Time steps from the stack's master (R417): 0 on the master, one more than the peer's on the link that steers, else 255. -/
def State.timeSteps (s : State) : Nat :=
  if s.opt.cur.stackRole == 1 && !s.prot.asMember then 0
  else
    match s.time.steer with
    | some td =>
      let d := s.time.dom td
      if d.kind = 3 then min 255 ((Tab.getD s.time.ixr d.inst {}).steps + 1) else 255
    | none => 255

end Sys2Proof.Machine
end

