-- ==== Sys2Proof/Machine/PoolBase.lean ====
section
/-! DEFINITION. The Gather pool: allocation and free of cells, chains, and the deep-buffer pages of a queue (R295 to
R320). -/

namespace Sys2Proof.Machine

/-! ### Cells and banks (R295, R304 to R307) -/

/-- Cells of a packet of so many octets (R296). -/
def cellsOf (len : Nat) : Nat := ceilDiv (len + 16) 256

/-- The largest packet the pool carries. -/
def maxPacket : Nat := 10224

/-- The bank of a cell. -/
def bankOf (cell : Nat) : Nat := cell % 32

/-- Cells a requester holds in a bank. -/
def State.bankHeld (s : State) (b r : Nat) : Nat := (s.pool.cells.filter fun e => bankOf e.1 == b && e.2.owner == r).length

/-- Free cells of a bank. -/
def State.bankFree (s : State) (b : Nat) : Nat := 28672 - (s.pool.cells.filter fun e => bankOf e.1 == b).length

/-- The cells set aside in each bank for a requester. -/
def State.bankShare (s : State) (r : Nat) : Nat := s.paramN 0x8010 r / 32

/-- Cells of a bank that unused shares keep. -/
def State.bankKept (s : State) (b : Nat) : Nat :=
  ((List.range 24).map fun r => s.bankShare r - s.bankHeld b r).foldl (· + ·) 0

/-- The first row from `row` on that is not among the rising rows listed. -/
def lowestRow : List Nat → Nat → Nat
  | [], row => row
  | k :: ks, row => if k = row then lowestRow ks (row + 1) else row

/-- The free cell find-first-free takes in a bank. -/
def State.firstFree (s : State) (b : Nat) : Nat :=
  32 * lowestRow (((Tab.keys s.pool.cells).filter fun c => bankOf c == b).map (· / 32)) 0 + b

/-- A bank's answer to a request of r: none for a miss, or a grant and whether the cell is a shared one. -/
def State.bankGrant (s : State) (r b : Nat) : Option Bool :=
  let free := s.bankFree b
  if s.pool.modeInForce = 1 then (if 0 < free then some false else none)
  else if s.bankHeld b r < s.bankShare r && 0 < free then some false
  else if s.bankKept b < free then some true
  else none

/-- Banks asked in turn from b on: the bank that grants, whether it granted a shared cell, the misses before it. -/
def State.askBanks (s : State) (r : Nat) : Nat → Nat → Nat → Option (Nat × Bool) × Nat
  | 0, _, miss => (none, miss)
  | n + 1, b, miss =>
    match s.bankGrant r b with
    | some sh => (some (b, sh), miss)
    | none => s.askBanks r n ((b + 1) % 32) (miss + 1)

/-- The bank that requester r asks first for its j-th cell (R305). -/
def State.firstBank (s : State) (r j : Nat) : Nat :=
  if r < 16 then 2 * r + j % 2 else (Tab.getD s.pool.lastBank r 31 + 1) % 32

/-- The pool's state changed. -/
def onPool (f : PoolS → PoolS) (s : State) : State := { s with pool := f s.pool }

/-- One cell for requester r, or the drop code of its packet (R303, R305). -/
def allocCell (r j st : Nat) (s : State) : Except Nat Nat × State :=
  if s.paramN 0x8011 r < Tab.getD s.pool.held r 0 + 1 then (.error 0x21, s)
  else
    match s.askBanks r 32 (s.firstBank r j) 0 with
    | (none, miss) => (.error 0x22, bumpBy .allocMiss r miss s)
    | (some (b, shared), miss) =>
      let c := s.firstFree b
      let s := onPool (fun p => { p with
        cells := Tab.set p.cells c { next := 0, last := false, head := false, st := st, holder := 0, owner := r }
        held := Tab.upd p.held r 0 (· + 1)
        lastBank := Tab.set p.lastBank r b }) s
      let s := if shared then bump .sharedGrants r s else s
      (.ok c, ledCreate 0 0 1 (bump .cellsGranted r (bumpBy .allocMiss r miss s)))

/-- Frees of cells are issued (R304): each takes effect when it reaches its bank. -/
def freeCells (cs : List Nat) (s : State) : State := onPool (fun p => { p with freeing := p.freeing ++ cs }) s

/-- n cells for requester r; on a failure the cells already allocated are freed. -/
def allocCells (r st : Nat) : Nat → List Nat → State → Except Nat (List Nat) × State
  | 0, acc, s => (.ok acc.reverse, s)
  | n + 1, acc, s =>
    match allocCell r acc.length st s with
    | (.ok c, s) => allocCells r st n (c :: acc) s
    | (.error e, s) => (.error e, freeCells acc s)

/-- The link entries of a chain's cells written. -/
def linkCells (holder : Nat) : List Nat → Bool → Tab Cell → Tab Cell
  | [], _, t => t
  | c :: cs, first, t =>
    let t := Tab.modify t c fun x => { x with
      next := cs.headD 0, last := cs.isEmpty, head := first, holder := if first then holder else 0 }
    linkCells holder cs false t

/-- A chain for a packet: its head cell, or a drop code (R296, R303, R305). -/
def allocChain (r st holder : Nat) (hdr : ChainHdr) (octets : List Nat) (s : State) : Except Nat Nat × State :=
  match allocCells r st hdr.cells [] s with
  | (.error e, s) => (.error e, s)
  | (.ok cs, s) =>
    let hd := cs.headD 0
    (.ok hd, onPool (fun p => { p with
      cells := linkCells holder cs true p.cells
      chains := Tab.set p.chains hd { cells := cs, hdr := hdr, octets := octets, encNo := s.cip.encNo } }) s)

/-- A chain. -/
def State.chain (s : State) (cell : Nat) : Option Chain := Tab.get? s.pool.chains cell

/-- A chain changed. -/
def onChain (cell : Nat) (f : Chain → Chain) (s : State) : State :=
  onPool (fun p => { p with chains := Tab.modify p.chains cell f }) s

/-- A chain ends: its cells are freed. -/
def freeChain (cell : Nat) (s : State) : State :=
  match s.chain cell with
  | none => s
  | some c => freeCells c.cells (onPool (fun p => { p with chains := Tab.erase p.chains cell }) s)

/-- A chain changes hands (R299): holder and, of every cell, state. -/
def handOver (cell holder st : Nat) (s : State) : State :=
  match s.chain cell with
  | none => s
  | some c => onPool (fun p => { p with cells := c.cells.foldl (fun t k => Tab.modify t k fun x =>
      { x with st := st, holder := if x.head then holder else x.holder }) p.cells }) s

/-- A free reaches its bank (R304). A free of a FREE cell is ignored and raises DOUBLE_FREE. -/
def cellFree (c : Nat) (s : State) : State :=
  match Tab.get? s.pool.cells c with
  | none => raiseFault (poolBlk c) 8 c s
  | some x =>
    if s.pool.freeing.contains c then
      ledEnd 0 0 1 (bump .cellsFreed x.owner (onPool (fun p => { p with
        cells := Tab.erase p.cells c
        freeing := p.freeing.erase c
        bad := p.bad.erase c
        held := Tab.upd p.held x.owner 0 (· - 1) }) s))
    else s

/-! ### Drops of packets -/

/-- A dropped packet leaves the balances of its ONUs (R32): the source's for an upstream packet, the destination's once
it has entered it. -/
def dropBytes (h : ChainHdr) (octets : Nat) (s : State) : State :=
  let s := if h.srcKind = 0 && !h.srcHost then onuBytesOut h.source 1 h.len s else s
  match h.dest with
  | some d => onuBytesOut d 0 octets s
  | none => s

/-- The header as the balances see it: the destination once its balance is entered. -/
def Chain.ledHdr (c : Chain) : ChainHdr := if c.entered then c.hdr else { c.hdr with dest := none }

/-- A chain is dropped: counted in counter c of scope i by its code, its bytes leave, its cells are freed. -/
def dropChain (c : Ctr) (i code cell : Nat) (s : State) : State :=
  match s.chain cell with
  | none => s
  | some x => bump c (256 * i + code) (dropBytes x.ledHdr x.octets.length (freeChain cell s))

/-- The drop of a packet counted for its source (R266): a port, an ONU handle, or the packet exchange. -/
def countSource (srcKind source : Nat) (srcHost : Bool) (code : Nat) (s : State) : State :=
  if srcHost then bump .dropReq (256 * 20 + code) s
  else if srcKind = 1 then bump .dropPort (256 * source + code) s
  else bump .dropOnu (256 * source + code) s

/-- A chain is dropped, counted for its source. -/
def dropSource (code cell : Nat) (s : State) : State :=
  match s.chain cell with
  | none => s
  | some x => countSource x.hdr.srcKind x.hdr.source x.hdr.srcHost code (dropBytes x.ledHdr x.octets.length (freeChain cell s))

/-- A chain's cell holds an uncorrectable error (R301). -/
def State.chainBad (s : State) (cell : Nat) : Bool :=
  match s.chain cell with
  | some c => c.cells.any s.pool.bad.contains
  | none => false

/-- A packet with such a cell is dropped with POOL_ECC (R301, R324): counted for its queue, before it is enqueued for the
requester of its cells. -/
def eccDrop (cell : Nat) (s : State) : State :=
  match s.chain cell, Tab.get? s.pool.cells cell with
  | some c, some x =>
    if (16 ≤ x.holder && x.holder < 32) || (48 ≤ x.holder && x.holder < 52) then dropChain .dropQueue c.hdr.queue 0x26 cell s
    else dropChain .dropReq x.owner 0x26 cell s
  | _, _ => s

/-- The kind of source of a chain that came upstream. -/
def ChainHdr.upOnu (h : ChainHdr) : Option Nat := if h.srcKind = 0 && !h.srcHost then some h.source else none

/-! ### Queues (R313, R314) -/

/-- A queue's key: downstream IDs, then upstream ones from 2^17. -/
def queueKey (dir id : Nat) : Nat := dir * 2 ^ 17 + id

/-- A queue. -/
def State.queue (s : State) (k : Nat) : Option Queue := Tab.get? s.sch.q k

/-- The nanoseconds field of the LTB. -/
def State.ltbNs (s : State) : Nat := s.clk.ltb % 2488320000 * 3125 / 7776

/-- The egress fields of a chain header (R297): the queue, the time of the enqueue, and downstream the ONU whose balance the
packet enters. -/
def writeHdr (cell key : Nat) (s : State) : State :=
  let dest := if key < 2 ^ 17 then (s.queue key).bind (·.bind) else none
  let write (c : Chain) : Chain := { c with hdr := { c.hdr with queue := key, enqNs := s.ltbNs, dest := c.hdr.dest.orElse fun _ => dest } }
  onChain cell write s

/-- A queue changed. -/
def onQueue (k : Nat) (f : Queue → Queue) (s : State) : State :=
  { s with sch := { s.sch with q := Tab.modify s.sch.q k f } }

/-- The default profile (R313). -/
def BufProfile.default : BufProfile :=
  { spill := false, spillOn := 4096, refillLow := 512, ondieMax := 8192, deepMax := 65536, be := true }

/-- A buffer profile. -/
def State.bufProf (s : State) (n : Nat) : BufProfile := Tab.getD s.pool.prof n BufProfile.default

/-- The stack of a queue, and the queue ID in its key. -/
def stackOf (k : Nat) : Nat := k % 2 ^ 17 % 4

/-- The spill engine block of a stack. -/
def hbmBlk (j : Nat) : Nat := 160 + 3 * j

/-- The queue may spill: its profile says so, its stack is powered and out of reset, the XTS engine is keyed
and the random source has not failed (R375). -/
def State.maySpill (s : State) (k : Nat) (a : NodeArgs) : Bool :=
  (s.bufProf a.bufProfile).spill && s.islandUp (hbmBlk (stackOf k)) && s.xtsKeyed (stackOf k) && !s.cip.rngFailed

/-- Cells of the chains a list of descriptors names. -/
def State.descCells (s : State) (ds : List Desc) : Nat :=
  (ds.map fun d => ((s.chain d.cell).map fun c => c.cells.length).getD 0).foldl (· + ·) 0

/-- Cells staged for pages and not yet freed. -/
def Queue.tailCells (q : Queue) : Nat := (q.staged.map fun e => e.2.2).foldl (· + ·) 0

/-- On-die cells of a queue. -/
def State.onDie (s : State) (q : Queue) : Nat := s.descCells q.head + q.tailCells

/-- Pages a queue holds. -/
def Queue.pages (q : Queue) : List Nat := q.deep ++ q.writing ++ q.ready ++ (q.openPg.map (·.1)).toList

/-- The packets of a queue in its pages, in their order, and before them the one being read back; not those dropped there. -/
def State.deepOf (s : State) (q : Queue) : List DeepPkt :=
  ((q.partRd.map (·.1)).toList ++ q.pages.flatMap fun p => ((Tab.get? s.pool.pages p).map (·.pkts)).getD []).filter fun p => !p.gone

/-- Bytes of a queue in all segments (R349). -/
def State.queueBytes (s : State) (q : Queue) : Nat :=
  let ofCells (cs : List Nat) : Nat := (cs.map fun c => ((s.chain c).map fun x => x.hdr.len).getD 0).foldl (· + ·) 0
  ofCells (q.head.map (·.cell)) + ((s.deepOf q).map fun p => p.hdr.len).foldl (· + ·) 0

/-! ### Deep pages (R312 to R316) -/

/-- Pages of each stack under dbuf.size. -/
def State.stackPages (s : State) : Nat := s.paramN 0x8040 0 * 65536

/-- Pages allocated on a stack, as indices in the stack, rising. -/
def State.usedPages (s : State) (j : Nat) : List Nat := ((Tab.keys s.pool.pages).filter fun p => p % 4 == j).map (· / 4)

/-- The free page a stack's bitmap gives. -/
def State.freePage (s : State) (j : Nat) : Option Nat :=
  let i := lowestRow (s.usedPages j) 0
  if i < s.stackPages then some (4 * i + j) else none

/-- Free pages of a stack. -/
def State.freePages (s : State) (j : Nat) : Nat := s.stackPages - (s.usedPages j).length

/-- A page's record and contents changed. -/
def onPage (p : Nat) (f : Page → Page) (s : State) : State :=
  onPool (fun x => { x with pages := Tab.modify x.pages p f }) s

/-- Slots used of the queue's open page. -/
def State.openSlots (s : State) (q : Queue) : Nat :=
  match q.openPg with
  | some (p, _) => ((Tab.get? s.pool.pages p).map (·.slots)).getD 16
  | none => 16

/-- Full pages go to their writes, in the order of their completion (R317), unless supply sag holds them (R319). -/
def startWrites (k : Nat) (s : State) : State :=
  if s.sagStage ≥ 2 then s
  else
    let n := ((s.queue k).map fun q => q.ready.length).getD 0
    onQueue k (fun q => { q with writing := q.writing ++ q.ready, ready := [] })
      (onPool (fun p => { p with wrOrder := p.wrOrder ++ List.replicate n k }) s)

/-- The open page is closed: its write is due, and starts unless supply sag holds it. -/
def closePage (k : Nat) (s : State) : State :=
  startWrites k (onQueue k (fun q => match q.openPg with
    | some (p, _) => { q with openPg := none, ready := q.ready ++ [p] }
    | none => q) s)

/-- The queue's open page, a new one when it has none; the page before it points to it. -/
def openPage (k : Nat) (s : State) : Option Nat × State :=
  match s.queue k with
  | none => (none, s)
  | some q =>
    match q.openPg with
    | some (p, _) => (some p, s)
    | none =>
      match s.freePage (stackOf k) with
      | none => (none, s)
      | some p =>
        let pg : Page := { queue := k, slots := 0, startMap := 0, seq := q.seq % 2 ^ 32, cont := 0, pkts := [] }
        let s := match q.pages.getLast? with
          | some l => onPage l (fun g => { g with next := some (p / 4) }) s
          | none => s
        (some p, onQueue k (fun q => { q with openPg := some (p, s.clk.now), seq := (q.seq + 1) % 2 ^ 32 })
          (onPool (fun x => { x with pages := Tab.set x.pages p pg }) s))

/-- n cells of the chain `cell` staged one after another; the first of them is the head cell of packet k. -/
def stageCells (key cell : Nat) (pkt : DeepPkt) : Nat → Bool → State → State
  | 0, _, s => s
  | n + 1, first, s =>
    match openPage key s with
    | (none, s) => s
    | (some p, s) =>
      let s := onPage p (fun g => { g with
        slots := g.slots + 1
        startMap := if first then g.startMap + 2 ^ g.slots else g.startMap
        cont := if !first && g.pkts.isEmpty then g.cont + 1 else g.cont
        pkts := if first then g.pkts ++ [pkt] else g.pkts }) s
      let s := onQueue key (fun q =>
        match q.staged.getLast? with
        | some (p0, c0, m) =>
          if p0 == p && c0 == cell then { q with staged := q.staged.dropLast ++ [(p, cell, m + 1)] }
          else { q with staged := q.staged ++ [(p, cell, 1)] }
        | none => { q with staged := [(p, cell, 1)] }) s
      let s := match s.queue key with
        | some q => if 16 ≤ s.openSlots q then closePage key s else s
        | none => s
      stageCells key cell pkt n false s

/-- A page write ends (R315): its cells are freed, a chain still staged in a later page goes on under its first cell left.
The state, and the cells still staged; the count bounds the entries. -/
def freeStaged (page : Nat) : Nat → State → List (Nat × Nat × Nat) → State × List (Nat × Nat × Nat)
  | n + 1, s, (p, cell, m) :: rest =>
    if p != page then (s, (p, cell, m) :: rest)
    else
      match s.chain cell with
      | none => freeStaged page n s rest
      | some c =>
        let left := c.cells.drop m
        let s := freeCells (c.cells.take m) (onPool (fun x => { x with chains := Tab.erase x.chains cell }) s)
        match left.head? with
        | none => freeStaged page n s rest
        | some h2 =>
          let s := onPool (fun x => { x with chains := Tab.set x.chains h2 { c with cells := left } }) s
          freeStaged page n s (rest.map fun e => if e.2.1 == cell then (e.1, h2, e.2.2) else e)
  | _, s, st => (s, st)

/-- A page read is asked for when the head segment is low (R316). -/
def refill (key : Nat) (s : State) : State :=
  match s.queue key with
  | none => s
  | some q =>
    if q.deep.isEmpty || q.reading || (s.bufProf q.a.bufProfile).refillLow < s.descCells q.head then s
    else onQueue key (fun q => { q with reading := true }) (onPool (fun p => { p with rdOrder := p.rdOrder ++ [key] }) s)

/-- The queue whose page read a stack serves next, and the one whose page write (R317). -/
def State.nextRead (s : State) (j : Nat) : Option Nat :=
  s.pool.rdOrder.find? fun k => stackOf k == j && ((s.queue k).map (·.reading)).getD false
/-- The queue whose page write a stack serves next. -/
def State.nextWrite (s : State) (j : Nat) : Option Nat :=
  s.pool.wrOrder.find? fun k => stackOf k == j && ((s.queue k).map fun q => !q.writing.isEmpty).getD false

/-- A queue without pages has no place in the orders of its stack. -/
def leaveOrders (k : Nat) (s : State) : State :=
  onPool (fun p => { p with rdOrder := p.rdOrder.filter (· != k), wrOrder := p.wrOrder.filter (· != k) }) s

/-- A packet of the deep buffer ends, counted in counter c of scope i by its code, unless it was dropped before. -/
def endDeep (c : Ctr) (i code : Nat) (p : DeepPkt) (s : State) : State :=
  if p.gone then s else bump c (256 * i + code) (dropBytes p.hdr p.octets.length s)

/-- The packets of a queue in the deep buffer that f names are dropped where they lie. -/
def dropDeep (k : Nat) (f : DeepPkt → Bool) (drop : DeepPkt → State → State) (s : State) : State :=
  match s.queue k with
  | none => s
  | some q =>
    let mark (p : DeepPkt) : DeepPkt := if f p then { p with gone := true } else p
    let s1 := ((s.deepOf q).filter f).foldl (fun s p => drop p s) s
    let s2 := q.pages.foldl (fun s p => onPage p (fun g => { g with pkts := g.pkts.map mark }) s) s1
    onQueue k (fun q => { q with partRd := q.partRd.map fun x => (mark x.1, x.2) }) s2

/-- The queue returns to ON_DIE when its deep segment is empty and no cell waits for a page (R314). -/
def settleMode (key : Nat) (s : State) : State :=
  onQueue key (fun q => if q.spill && q.pages.isEmpty && q.staged.isEmpty && q.partRd.isNone then { q with spill := false } else q) s

/-- Pages freed. -/
def freePagesOf (ps : List Nat) (s : State) : State :=
  onPool (fun x => { x with pages := ps.foldl (fun t p => Tab.erase t p) x.pages }) s

/-- What an arrival of n cells meets in its queue (R314, R318, R319). -/
inductive Enq
  | head | stage | dropped (code : Nat) (pagesRefused : Nat)
deriving DecidableEq, Repr

/-- The decision on an arrival. -/
def State.enqDecide (s : State) (key : Nat) (q : Queue) (n : Nat) : Enq :=
  let pr := s.bufProf q.a.bufProfile
  let on := s.onDie q
  let may := s.maySpill key q.a
  if !q.spill && !may then (if pr.ondieMax < on + n then .dropped 0x24 0 else .head)
  else if !q.spill && on + n ≤ pr.spillOn then .head
  else if q.spill && 2 ≤ s.sagStage && pr.be && pr.spillOn < on then .dropped 0x25 0
  else if pr.ondieMax < on + n then .dropped 0x24 0
  else
    let need := ceilDiv (n - min n (16 - s.openSlots q)) 16
    let room := min (pr.deepMax - q.pages.length) (s.freePages (stackOf key))
    if room < need then .dropped 0x24 (need - room) else .stage

/-- A packet's descriptor is enqueued in a queue that exists. -/
def enqueue (key : Nat) (d : Desc) (s : State) : State :=
  match s.queue key, s.chain d.cell with
  | some q, some c =>
    match s.enqDecide key q c.cells.length with
    | .head => onQueue key (fun q => { q with head := q.head ++ [d] }) s
    | .dropped code n => bumpBy .dbufFull (stackOf key) n (dropChain .dropQueue key code d.cell s)
    | .stage =>
      if s.chainBad d.cell then eccDrop d.cell s else
      let s := if q.spill then s else bump .spillEntries key (onQueue key (fun q => { q with spill := true, nextSeq := q.seq }) s)
      let n := s.pool.deepNext
      let pkt : DeepPkt :=
        { hdr := c.hdr, octets := c.octets, tc := d.tc, lag := d.lag.map fun g => (g, d.bucket), arr := c.arr, id := n, encNo := c.encNo }
      let s := onChain d.cell (fun x => { x with deepId := n }) (onPool (fun p => { p with deepNext := n + 1 }) s)
      refill key (stageCells key d.cell pkt c.cells.length true (handOver d.cell (48 + stackOf key) 1 s))
  | _, _ => s

end Sys2Proof.Machine
end

