-- ==== Sys2Proof/Machine/SchedBase.lean ====
section
/-! DEFINITION. The Vertex trees: nodes, token buckets, eligibility, deficit round robin, gates, and the charges of a
dequeue (R327 to R345). -/

namespace Sys2Proof.Machine

/-! ### Token buckets (R335, R337) -/

/-- The 1.5552 GHz clock. -/
def State.clk15 (s : State) : Nat := s.clk.now * 5 / 8

/-- Credit of so many clocks at a rate in kb/s, in 1/65,536 byte, rounded down. -/
def tokenCredit (rate clocks : Nat) : Nat := rate * clocks * 65536 / 12441600

/-- A bucket brought up to date: the bucket, what was credited, what was cut off at the burst. -/
def Bucket.refresh (b : Bucket) (rate burst now15 : Nat) : Bucket × Nat × Nat :=
  let add := tokenCredit rate (now15 - b.at_)
  let l := b.level + add
  let cap : Int := min (burst * 65536) (2 ^ 31 * 65536)
  let cut := (l - cap).toNat
  ({ level := l - cut, at_ := now15 }, add, cut)

/-- A charge; the level stays within ±2^31 bytes. -/
def Bucket.charge (b : Bucket) (bytes : Nat) : Bucket :=
  { b with level := max (-(2 ^ 31 * 65536 : Int)) (b.level - bytes * 65536) }

/-! ### Nodes (R327 to R329) -/

/-- A vertex's node key. -/
def vxKey (v : Nat) : Nat := 2 ^ 18 + v

/-- The fields of a root that is not listed. -/
def NodeArgs.zero : NodeArgs :=
  { parent := 0, prio := 0, weight := 0, lenProfile := 0, bufProfile := 0, sagKeep := false, gated := false, gate := 0,
    maxRate := 0, maxBurst := 0, minRate := 0, minBurst := 0 }

/-- Speed of an uplink port in kb/s by its group's mode (R68). -/
def portSpeed (mode : Nat) : Nat := lanes mode * 100000000
where
  /-- Lanes of a port. -/
  lanes : Nat → Nat
    | 0 => 8
    | 1 => 4
    | 2 => 2
    | 3 => 1
    | _ => 0

/-- Downstream rate of a channel pair in kb/s (R38). -/
def chanSpeed (rate : Nat) : Nat :=
  match rate with
  | 0 => 9953280
  | 1 => 12441600
  | 2 => 24883200
  | _ => 49766400

/-- The speed of a root's line (R346). -/
def State.rootSpeed (s : State) (v : Nat) : Nat :=
  if v < 512 then chanSpeed (s.paramN 0x1020 v) else portSpeed (s.paramN 0x1500 ((v - 512) / 8))

/-- A root as it stands before host software changes it. -/
def State.rootVertex (s : State) (v : Nat) : Vertex :=
  { a := { NodeArgs.zero with maxRate := s.rootSpeed v }, dir := if v < 512 then 0 else 1 }

/-- A root's max_rate in force (R346): its line's speed; where host software set one, that, which is never above the speed. -/
def State.rootMax (s : State) (v : Nat) (x : Vertex) : Nat :=
  if !x.rateSet then s.rootSpeed v else if s.rootSpeed v = 0 then x.a.maxRate else min x.a.maxRate (s.rootSpeed v)

/-- A vertex as it is stored: the roots exist at all times. -/
def State.rawVert (s : State) (v : Nat) : Option Vertex :=
  match Tab.get? s.sch.v v with
  | some x => some x
  | none => if v < 768 then some (s.rootVertex v) else none

/-- A vertex, a root with its max_rate in force. -/
def State.vert (s : State) (v : Nat) : Option Vertex :=
  (s.rawVert v).map fun x => if v < 768 then { x with a := { x.a with maxRate := s.rootMax v x } } else x

/-- A vertex changed. -/
def onVert (v : Nat) (f : Vertex → Vertex) (s : State) : State :=
  match s.rawVert v with
  | some x => { s with sch := { s.sch with v := Tab.set s.sch.v v (f x) } }
  | none => s

/-- The fields of a node. -/
def State.nodeArgs (s : State) (k : Nat) : Option NodeArgs :=
  if k < 2 ^ 18 then (s.queue k).map (·.a) else (s.vert (k - 2 ^ 18)).map (·.a)

/-- A node is a root. -/
def isRoot (k : Nat) : Bool := decide (2 ^ 18 ≤ k) && decide (k < 2 ^ 18 + 768)

/-- The deficit of a node at its parent. -/
def State.deficit (s : State) (k : Nat) : Int :=
  if k < 2 ^ 18 then ((s.queue k).map (·.deficit)).getD 0 else ((s.vert (k - 2 ^ 18)).map (·.deficit)).getD 0

/-- The deficit of a node changed. -/
def onDeficit (k : Nat) (f : Int → Int) (s : State) : State :=
  if k < 2 ^ 18 then onQueue k (fun q => { q with deficit := f q.deficit }) s
  else onVert (k - 2 ^ 18) (fun x => { x with deficit := f x.deficit }) s

/-- The root above a vertex, within so many steps. -/
def State.rootOf (s : State) : Nat → Nat → Option Nat
  | 0, _ => none
  | n + 1, v => if v < 768 then some v else
    match s.vert v with
    | some x => s.rootOf n x.a.parent
    | none => none

/-- Steps that reach any root: the vertices created and one. -/
def State.treeFuel (s : State) : Nat := s.sch.v.length + 2

/-- The slice of a root. -/
def rootSlice (v : Nat) : Nat := if v < 512 then v / 64 else (v - 512) / 32

/-- The slice of the tree that a vertex belongs to. -/
def State.vertSlice (s : State) (v : Nat) : Option Nat := (s.rootOf s.treeFuel v).map rootSlice

/-- The number of vertices from a vertex up to its root. -/
def State.vertDepth (s : State) : Nat → Nat → Nat
  | 0, _ => 0
  | n + 1, v => if v < 768 then 1 else
    match s.vert v with
    | some x => s.vertDepth n x.a.parent + 1
    | none => 0

/-- Children of a vertex, all prios. -/
def Vertex.children (x : Vertex) : List Nat := x.rings.flatMap (·.2)

/-- The greatest number of vertices on a path from a node down to a queue below it, within so many steps; none without a
queue. -/
def State.queueDepth (s : State) : Nat → Nat → Option Nat
  | 0, _ => none
  | n + 1, k =>
    if k < 2 ^ 18 then some 0
    else
      match s.vert (k - 2 ^ 18) with
      | none => none
      | some x => x.children.foldl (fun m c => match m, s.queueDepth n c with
        | some a, some b => some (max a (b + 1))
        | none, some b => some (b + 1)
        | m, none => m) none

/-- The vertex v lies on the path from w to its root. -/
def State.isAncestor (s : State) (v : Nat) : Nat → Nat → Bool
  | 0, _ => false
  | n + 1, w => w == v || (decide (768 ≤ w) && match s.vert w with
    | some x => s.isAncestor v n x.a.parent
    | none => false)

/-- A node joins its parent's ring of its prio, in the order of attachment. -/
def attach (k : Nat) (a : NodeArgs) (s : State) : State :=
  onVert a.parent (fun x => { x with rings := Tab.upd x.rings a.prio [] (· ++ [k]) }) s

/-- A ring's pointer after the child at index i has left a ring of n. -/
def ptrWithout (p : Nat × Bool) (i n : Nat) : Nat × Bool :=
  if i < p.1 then (p.1 - 1, p.2) else if i = p.1 then ((if p.1 + 1 = n then 0 else p.1), false) else p

/-- A node leaves its parent's ring. -/
def detach (k : Nat) (a : NodeArgs) (s : State) : State :=
  onVert a.parent (fun x =>
    let ring := Tab.getD x.rings a.prio []
    let rest := ring.erase k
    { x with
      rings := if rest.isEmpty then Tab.erase x.rings a.prio else Tab.set x.rings a.prio rest
      ptr := if rest.isEmpty then Tab.erase x.ptr a.prio
        else Tab.modify x.ptr a.prio fun p => ptrWithout p (ring.idxOf k) ring.length }) s

/-! ### Counted lengths (R334) -/

/-- The counted length of a frame of l octets under a length profile. -/
def State.counted (s : State) (prof l : Nat) : Nat := (max 1 ((l : Int) + s.param 0x9010 prof)).toNat

/-- The frame length L of a chain. -/
def State.frameLen (s : State) (cell : Nat) : Nat := ((s.chain cell).map fun c => c.octets.length).getD 0

/-! ### Gates (R340 to R345) -/

/-- Exact LTB time in units of 1/7,776 ns. -/
def State.ltbFine (s : State) : Nat := s.clk.ltb * 3125

/-- The cycle time of a list in ns. -/
def gateCycle (l : GateList) : Nat := (l.entries.map (·.2)).foldl (· + ·) 0

/-- The base time of a list in ns. -/
def gateBase (l : GateList) : Nat := l.baseSec * 1000000000 + l.baseNs

/-- What a list says at a phase of its cycle, in fine units: none while closed; open, with what is left of the window, or
without an end when no entry is closed. -/
def gateAt : List (Bool × Nat) → List (Bool × Nat) → Nat → Option (Option Nat)
  | _, [], _ => none
  | seen, (op, iv) :: rest, ph =>
    if ph < iv * 7776 then
      if !op then none
      else
        let after := (rest ++ seen).takeWhile (·.1)
        if after.length = (rest ++ seen).length then some none
        else some (some (iv * 7776 - ph + (after.map fun e => e.2 * 7776).foldl (· + ·) 0))
    else gateAt (seen ++ [(op, iv)]) rest (ph - iv * 7776)

/-- Lengths of the runs of open entries, in ns, of a list that begins with a closed entry. -/
def openRuns : List (Bool × Nat) → Nat → List Nat
  | [], cur => [cur]
  | (op, iv) :: r, cur => if op then openRuns r (cur + iv) else cur :: openRuns r 0

/-- The longest window of a list in ns; none when it never closes. -/
def gateLongest (l : GateList) : Option Nat :=
  if l.entries.all (·.1) then none
  else
    let i := l.entries.findIdx fun e => !e.1
    some ((openRuns (l.entries.drop i ++ l.entries.take i) 0).foldl max 0)

/-- The state of a gate at fine time t: none closed; open, with the time left of its window (R343, R344). -/
def Gate.at (g : Gate) (t : Nat) : Option (Option Nat) :=
  let next := g.commit.bind (·.start)
  let phase (l : GateList) (st : Nat) : Option (Option Nat) := gateAt [] l.entries ((t - st * 7776) % (max 1 (gateCycle l) * 7776))
  let old : Option (Option Nat) :=
    match g.active with
    | none => some none
    | some (l, st) =>
      match phase l st, next with
      | some e, some n => some (some (min (e.getD (n * 7776 - t)) (n * 7776 - t)))
      | r, _ => r
  match next, g.standby with
  | some n, some l => if n * 7776 ≤ t then phase l n else old
  | _, _ => old

/-- How a gated queue's head frame stands. -/
inductive GateTest
  | fits | waits | oversize
deriving DecidableEq, Repr

/-- The test of R344 and R345 on a frame of counted length l: tx is l × 8 ÷ the root's max_rate. -/
def State.gateTest (s : State) (gate rate l : Nat) : GateTest :=
  let g := Tab.getD s.sch.gate gate {}
  let t := s.ltbFine + s.paramN 0x9030 gate * 7776
  let fits (room : Option Nat) : Bool :=
    match room with
    | none => true
    | some r => decide (l * 8000000 * 7776 ≤ r * rate)
  let tooLong := match g.active with
    | some (gl, _) => !fits ((gateLongest gl).map (· * 7776))
    | none => false
  if tooLong then .oversize
  else
    match g.at t with
    | some room => if fits room then .fits else .waits
    | none => .waits

/-! ### Eligibility (R331, R348) -/

/-- No supply-sag stage pauses the queue. -/
def State.sagAllows (s : State) (k : Nat) (a : NodeArgs) : Bool :=
  !(decide (3 ≤ s.sagStage) && decide (k < 2 ^ 17) && (s.bufProf a.bufProfile).be) && !(decide (4 ≤ s.sagStage) && !a.sagKeep)

/-- The frames of an ONU wait in its queues from Q of a retune until its arrival (R132). -/
def State.tuningHolds (s : State) (h : Nat) : Bool :=
  match Tab.get? s.onu.ctx h with
  | some o => o.state == .tuning && (match o.tune with
    | some t => decide (t.q ≤ s.clk.sfc)
    | none => false)
  | none => false

/-- A bucket's level, brought up to date, is 0 or more. -/
def State.levelOk (s : State) (b : Bucket) (rate burst : Nat) : Bool := decide (0 ≤ (b.refresh rate burst s.clk15).1.level)

/-- The maximum shaper lets the node send. -/
def State.maxOk (s : State) (a : NodeArgs) (b : Bucket) : Bool := a.maxRate == 0 || s.levelOk b a.maxRate a.maxBurst

/-- The root's max_rate above a node whose parent is v. -/
def State.rootRate (s : State) (v : Nat) : Nat :=
  match s.rootOf s.treeFuel v with
  | some r => match s.vert r with
    | some x => if x.a.maxRate = 0 then s.rootSpeed r else x.a.maxRate
    | none => s.rootSpeed r
  | none => 0

/-- The head frame's counted length under the queue's own profile. -/
def State.headLen (s : State) (q : Queue) : Nat := s.counted q.a.lenProfile (s.frameLen ((q.head.map (·.cell)).headD 0))

/-- The queue's gate lets its head frame go. -/
def State.gateOk (s : State) (q : Queue) : Bool :=
  !q.a.gated || (!q.waiting && s.gateTest q.a.gate (s.rootRate q.a.parent) (s.headLen q) == .fits)

/-- A queue is eligible. -/
def State.queueElig (s : State) (k : Nat) (q : Queue) : Bool :=
  !q.head.isEmpty && s.maxOk q.a q.bmax && s.gateOk q && s.sagAllows k q.a
    && !((q.bind.map s.tuningHolds).getD false && decide (k < 2 ^ 17))

/-- A node is eligible, within so many steps down. -/
def State.eligible (s : State) : Nat → Nat → Bool
  | 0, _ => false
  | n + 1, k =>
    if k < 2 ^ 18 then
      match s.queue k with
      | some q => s.queueElig k q
      | none => false
    else
      match s.vert (k - 2 ^ 18) with
      | some x => s.maxOk x.a x.bmax && x.children.any (s.eligible n)
      | none => false

/-- A node is in commit. -/
def State.inCommit (s : State) (k : Nat) : Bool :=
  if k < 2 ^ 18 then
    match s.queue k with
    | some q => q.a.minRate != 0 && s.levelOk q.bmin q.a.minRate q.a.minBurst
    | none => false
  else
    match s.vert (k - 2 ^ 18) with
    | some x => x.a.minRate != 0 && s.levelOk x.bmin x.a.minRate x.a.minBurst
    | none => false

/-- No packet waits under a node, within so many steps. -/
def State.emptyNode (s : State) : Nat → Nat → Bool
  | 0, _ => true
  | n + 1, k =>
    if k < 2 ^ 18 then
      match s.queue k with
      | some q => q.head.isEmpty && q.staged.isEmpty && q.pages.isEmpty && q.partRd.isNone
      | none => true
    else
      match s.vert (k - 2 ^ 18) with
      | some x => x.children.all (s.emptyNode n)
      | none => true

/-! ### The walk (R332, R333) -/

/-- The pointer of a ring moves on. -/
def ptrNext (v prio len : Nat) (s : State) : State :=
  onVert v (fun x =>
    let p := Tab.getD x.ptr prio (0, false)
    { x with ptr := Tab.set x.ptr prio ((if p.1 + 1 < len then p.1 + 1 else 0), false) }) s

/-- Deficit round robin in one ring among the children `ok`: the child chosen, with the quanta given on the way. -/
def drrPick (v prio : Nat) (ring ok : List Nat) : Nat → State → Option Nat × State
  | 0, s => (none, s)
  | n + 1, s =>
    let p := ((s.vert v).map fun x => Tab.getD x.ptr prio (0, false)).getD (0, false)
    match ring[p.1]? with
    | none => (none, s)
    | some k =>
      if !ok.contains k then drrPick v prio ring ok n (ptrNext v prio ring.length s)
      else
        let w := ((s.nodeArgs k).map (·.weight)).getD 1
        let s := if p.2 then s
          else onVert v (fun x => { x with ptr := Tab.set x.ptr prio (p.1, true) })
            (onDeficit k (· + (w * s.paramN 0x9000 0 : Nat)) s)
        if 0 < s.deficit k then (some k, s) else drrPick v prio ring ok n (ptrNext v prio ring.length s)

/-- Rounds that bring some child's deficit above 0. -/
def drrFuel (ring : List Nat) (s : State) : Nat :=
  (ring.length + 1) * (((ring.map fun k => (-(s.deficit k)).toNat).foldl max 0) / 64 + 3)

/-- The child a vertex chooses (R333). -/
def chooseChild (v : Nat) (s : State) : Option Nat × State :=
  match s.vert v with
  | none => (none, s)
  | some x =>
    let el := x.children.filter (s.eligible s.treeFuel)
    let cm := el.filter s.inCommit
    let ok := if cm.isEmpty then el else cm
    match (x.rings.filter fun e => e.2.any ok.contains).getLast? with
    | none => (none, s)
    | some (prio, ring) => drrPick v prio ring ok (drrFuel ring s) s

/-- A walk from a vertex down: the nodes chosen, the queue last. -/
def walkDown : Nat → Nat → State → List Nat × State
  | 0, _, s => ([], s)
  | n + 1, v, s =>
    match chooseChild v s with
    | (none, s) => ([], s)
    | (some k, s) =>
      if k < 2 ^ 18 then ([k], s)
      else
        match walkDown n (k - 2 ^ 18) s with
        | ([], s) => ([], s)
        | (p, s) => (k :: p, s)

/-- Bytes cut off at a burst are counted in TOKENS_DISCARDED, whole bytes as they fill up (R353). -/
def cutTokens (k cut : Nat) (s : State) : State :=
  let n := Tab.getD s.sch.cutFrac k 0 + cut
  bumpBy .tokensDiscarded k (n / 65536) { s with sch := { s.sch with
    cutFrac := if n % 65536 = 0 then Tab.erase s.sch.cutFrac k else Tab.set s.sch.cutFrac k (n % 65536) } }

/-- One bucket of a node charged and its ledger counts (R335). -/
def chargeBucket (i k rate burst bytes : Nat) (b : Bucket) (s : State) : Bucket × State :=
  let (b1, add, cut) := b.refresh rate burst s.clk15
  let b2 := b1.charge bytes
  (b2, cutTokens k cut (ledTokens i add (b1.level - b2.level).toNat cut s))

/-- Both buckets of a node charged with a frame of l octets (R334). -/
def chargeNode (k l : Nat) (s : State) : State :=
  match s.nodeArgs k with
  | none => s
  | some a =>
    let n := s.counted a.lenProfile l
    let bs : Option (Bucket × Bucket) :=
      if k < 2 ^ 18 then (s.queue k).map fun q => (q.bmax, q.bmin) else (s.vert (k - 2 ^ 18)).map fun x => (x.bmax, x.bmin)
    match bs with
    | none => s
    | some (bmax, bmin) =>
      let (b1, s) := if a.maxRate = 0 then (bmax, s) else chargeBucket (2 * k) k a.maxRate a.maxBurst n bmax s
      let (b2, s) := if a.minRate = 0 then (bmin, s) else chargeBucket (2 * k + 1) k a.minRate a.minBurst n bmin s
      if k < 2 ^ 18 then
        bumpBy .qDeqBytes k n (bump .qDeqPkts k (onQueue k (fun q => { q with bmax := b1, bmin := b2 }) s))
      else bumpBy .vDeqBytes (k - 2 ^ 18) n (onVert (k - 2 ^ 18) (fun x => { x with bmax := b1, bmin := b2 }) s)

/-- A bucket brought up to date at a rate; one of rate 0 keeps its level. -/
def Bucket.rebase (b : Bucket) (rate burst now15 : Nat) : Bucket :=
  if rate = 0 then { b with at_ := now15 } else (b.refresh rate burst now15).1

/-- What bringing a bucket up to date counts in the ledger and as discarded (R32, R335). -/
def ledRebase (i k rate burst : Nat) (b : Bucket) (s : State) : State :=
  if rate = 0 then s
  else
    match b.refresh rate burst s.clk15 with
    | (_, add, cut) => cutTokens k cut (ledTokens i add 0 cut s)

/-- Both buckets of a node are brought up to date, as each read of them does (R335). -/
def readNode (k : Nat) (s : State) : State :=
  match s.nodeArgs k with
  | none => s
  | some a =>
    let c := s.clk15
    let fresh (bmax bmin : Bucket) : Bucket × Bucket := (bmax.rebase a.maxRate a.maxBurst c, bmin.rebase a.minRate a.minBurst c)
    let led (bmax bmin : Bucket) (s : State) : State :=
      ledRebase (2 * k + 1) k a.minRate a.minBurst bmin (ledRebase (2 * k) k a.maxRate a.maxBurst bmax s)
    if k < 2 ^ 18 then
      match s.queue k with
      | none => s
      | some q => onQueue k (fun q => { q with bmax := (fresh q.bmax q.bmin).1, bmin := (fresh q.bmax q.bmin).2 }) (led q.bmax q.bmin s)
    else
      match s.vert (k - 2 ^ 18) with
      | none => s
      | some x =>
        onVert (k - 2 ^ 18) (fun x => { x with bmax := (fresh x.bmax x.bmin).1, bmin := (fresh x.bmax x.bmin).2 }) (led x.bmax x.bmin s)

/-- A node's deficit after a dequeue through it, and its parent's pointer (R333). -/
def settleDeficit (k l : Nat) (s : State) : State :=
  match s.nodeArgs k with
  | none => s
  | some a =>
    let n := s.counted a.lenProfile l
    let s := onDeficit k (· - n) s
    let s := if s.emptyNode s.treeFuel k then onDeficit k (min 0) s else s
    let ring := ((s.vert a.parent).map fun x => Tab.getD x.rings a.prio []).getD []
    if s.deficit k ≤ 0 || !s.eligible s.treeFuel k then ptrNext a.parent a.prio ring.length s else s

/-- The members of groups whose port has drained return to their rotation (R263). -/
def rejoin (root : Nat) (s : State) : State :=
  if root < 512 || !s.emptyNode s.treeFuel (vxKey root) then s
  else { s with cls := { s.cls with lag := s.cls.lag.map fun e => (e.1, { e.2 with out := e.2.out.filter (· != root - 512) }) } }

/-- A node that has emptied, and each one above it that has, loses a positive deficit (R333), within so many steps; a port
that has drained returns to its groups' rotation. -/
def settleEmpty : Nat → Nat → State → State
  | 0, _, s => s
  | n + 1, k, s =>
    if !s.emptyNode s.treeFuel k then s
    else
      let s := onDeficit k (min 0) s
      match s.nodeArgs k with
      | some a => if isRoot k then rejoin (k - 2 ^ 18) s else settleEmpty n (vxKey a.parent) s
      | none => s

/-! ### Ends of queues -/

/-- Every packet of a queue is dropped with a code, its deep pages freed (R351): the packets dropped, and the state. -/
def emptyQueue (c : Ctr) (i k code : Nat) (s : State) : Nat × State :=
  match s.queue k with
  | none => (0, s)
  | some q =>
    let heads := q.head.map (·.cell)
    let deep := (q.pages.flatMap fun p => ((Tab.get? s.pool.pages p).map (·.pkts)).getD []) ++ (q.partRd.map (·.1)).toList
    let s1 := heads.foldl (fun s c0 => dropChain c i code c0 s) s
    let s2 := (q.staged.map (·.2.1)).foldl (fun s c0 => freeChain c0 s) s1
    let s3 := deep.foldl (fun s p => endDeep c i code p s) s2
    (heads.length + (deep.filter fun p => !p.gone).length,
      settleEmpty s.treeFuel k (leaveOrders k
        (onQueue k (fun q => { q with head := [], staged := [], openPg := none, ready := [], writing := [], deep := [],
                                      partRd := none, reading := false, spill := false, waiting := false, waited := false })
          (freePagesOf q.pages s3))))

/-! ### Retunes -/

/-- Every queue under a node, within so many steps, is a downstream queue of ONU h. -/
def State.onlyOnu (s : State) (h : Nat) : Nat → Nat → Bool
  | 0, _ => false
  | n + 1, k =>
    if k < 2 ^ 18 then ((s.queue k).bind (·.bind)) == some h
    else
      match s.vert (k - 2 ^ 18) with
      | some x => x.children.all (s.onlyOnu h n)
      | none => false

/-- The highest node above k, k included and roots not, under which every queue is ONU h's. -/
def State.onuTop (s : State) (h : Nat) : Nat → Nat → Nat
  | 0, k => k
  | n + 1, k =>
    match s.nodeArgs k with
    | some a => if 768 ≤ a.parent && s.onlyOnu h s.treeFuel (vxKey a.parent) then s.onuTop h n (vxKey a.parent) else k
    | none => k

/-- A node moves under a new parent (R351): its deficit there starts at 0; what it leaves empty loses a positive deficit (R333). -/
def moveNode (k : Nat) (parent prio weight : Nat) (s : State) : State :=
  match s.nodeArgs k with
  | none => s
  | some a =>
    let b := { a with parent := parent, prio := prio, weight := weight }
    let s := detach k a s
    let s := if k < 2 ^ 18 then onQueue k (fun q => { q with a := b, deficit := 0 }) s
      else onVert (k - 2 ^ 18) (fun x => { x with a := b, deficit := 0 }) s
    settleEmpty s.treeFuel (vxKey a.parent) (attach k b s)

/-- The downstream queues of ONU h move under the root of channel pair g (R132): the highest nodes that serve this ONU
alone, with their prio and weight; frames already with the framer follow. -/
def rebindQueues (h g : Nat) (s : State) : State :=
  let qs := (s.sch.q.filter fun e => decide (e.1 < 2 ^ 17) && e.2.bind == some h).map (·.1)
  let s := qs.foldl (fun s k =>
    match s.nodeArgs k with
    | none => s
    | some a =>
      if s.rootOf s.treeFuel a.parent == some g then s
      else
        let top := s.onuTop h s.treeFuel k
        match s.nodeArgs top with
        | some b => moveNode top g b.prio b.weight s
        | none => s) s
  let mine (x : DsGem) : Bool := x.dest == some h
  let moved := s.ds.ch.flatMap fun e => if e.1 == g then [] else e.2.gems.filter mine
  let ch := s.ds.ch.map fun e => if e.1 == g then e else (e.1, { e.2 with gems := e.2.gems.filter fun x => !mine x })
  { s with ds := { s.ds with ch := if moved.isEmpty then ch else Tab.upd ch g {} fun c => { c with gems := c.gems ++ moved } } }

end Sys2Proof.Machine
end

