-- ==== Sys2Proof/Machine/EmBase.lean ====
section
/-! DEFINITION. The exact-match table: placement, the writer's writes, lookups, owner counts (R269 to R289). -/

namespace Sys2Proof.Machine

/-! ### Keys and positions (R272 to R274) -/

/-- The first overflow position. -/
def ovfBase : Nat := 1048576

/-- The bucket of a key (R274). -/
def State.emBucket (s : State) (kind key : Nat) : Nat :=
  crcRun 1 (s.paramN 0x7000 0) (kind :: beOctets 18 key) % 2 ^ 18

/-- The owner's index: an ONU handle, or 32,768 + port. -/
def ownerIdx (kind owner : Nat) : Nat := if kind = 0 then owner else 32768 + owner

/-- The index of a source in the parameters indexed by source: port p, or 256 + handle. -/
def srcIdx (kind src : Nat) : Nat := if kind = 1 then src else 256 + src

/-- The entry's word of R272, with both parity bits. -/
def EmEnt.word (e : EmEnt) : Nat :=
  let hi := fields [(1, 1), (3, e.kind), (1, flag e.isStatic), (1, flag e.hit), (2, e.age), (1, flag e.retiring),
    (1, if e.noOwner then 0 else e.ownerKind), (15, if e.noOwner then 0 else e.owner), (1, flag e.learned), (1, flag e.noOwner),
    (5, 0), (144, e.key), (1, e.destKind), (17, e.dest), (1, flag e.tcValid), (3, e.tc), (56, 0)]
  let top := hi / 2 ^ 126
  let low := hi % 2 ^ 126
  hi * 4 + popCount 128 top % 2 * 2 + popCount 126 low % 2

/-- The table's state changed. -/
def onEm (f : EmS → EmS) (s : State) : State := { s with em := f s.em }

/-- The position of a key in a table: its bucket's ways, then the overflow store. -/
def findKey (t : Tab EmEnt) (bucket kind key : Nat) : Option (Nat × EmEnt) :=
  let hit (e : Nat × EmEnt) : Bool := e.2.kind == kind && e.2.key == key
  match t.find? fun e => e.1 / 4 == bucket && decide (e.1 < ovfBase) && hit e with
  | some e => some e
  | none => t.find? fun e => decide (ovfBase ≤ e.1) && hit e

/-- The copy a slice's lookups read. -/
def State.emCopy (s : State) (sl : Nat) : Tab EmEnt := Tab.getD s.em.copy sl []

/-! ### Writes (R270) -/

/-- The slices whose exact-match island is up: those whose acknowledgement counts (notes/assumptions/30.md). -/
def State.emSlices (s : State) : List Nat := (List.range 8).filter fun k => s.islandUp (emBlk k)

/-- The writer issues one write. -/
def emWrite (op : EmOp) (s : State) : State :=
  onEm (fun m => { m with seq := m.seq + 1, writes := Tab.set m.writes (m.seq + 1) op }) s

/-- One write in slice sl's copy. -/
def EmOp.apply (sl : Nat) (t : Tab EmEnt) : EmOp → Tab EmEnt
  | .put pos e =>
    let hit := match Tab.get? t pos with
      | some o => o.kind == e.kind && o.key == e.key && o.hit
      | none => false
    Tab.set t pos { e with hit := hit }
  | .inval pos carry =>
    let hit := ((Tab.get? t pos).map (·.hit)).getD false
    let t := Tab.erase t pos
    match carry with
    | some p => if hit then Tab.modify t p fun e => { e with hit := true } else t
    | none => t
  | .age pos a clearHit retiring =>
    Tab.modify t pos fun e => { e with age := a, hit := !clearHit && e.hit, retiring := retiring }
  | .back pos e => if (Tab.get? t pos).isSome then t else Tab.set t pos e
  | .repair k pos e => if k = sl then Tab.set t pos e else t

/-- A slice's copy as it stands once it has applied every write issued. -/
def State.emAhead (s : State) (sl : Nat) : Tab EmEnt :=
  (s.em.writes.filter fun e => decide (Tab.getD s.em.applied sl 0 < e.1)).foldl (fun t e => e.2.apply sl t) (s.emCopy sl)

/-- Every copy whose island is up has applied write n. -/
def State.emComplete (s : State) (n : Nat) : Bool := s.emSlices.all fun k => decide (n ≤ Tab.getD s.em.applied k 0)

/-- Commands whose writes are complete end; writes that every copy has are forgotten. -/
def emSettle (s : State) : State :=
  let ready := s.em.waits.filter fun w => s.emComplete w.seq
  let s := onEm (fun m => { m with
    waits := m.waits.filter fun w => !ready.contains w
    writes := m.writes.filter fun e => !s.emComplete e.1
    flushing := m.flushing.filter fun n => !s.emComplete n }) s
  ready.foldl (fun s w => complete w.cmd w.op (.vals (w.vals.map fun v => .u 64 v)) s) s

/-! ### Owner counts (R285) -/

/-- The count of learned entries of an owner changed. -/
def onOwner (i : Nat) (f : Nat → Nat) (s : State) : State :=
  onEm (fun m => { m with owners := if f (Tab.getD m.owners i 0) = 0 then Tab.erase m.owners i else Tab.upd m.owners i 0 f }) s

/-- Learned entries of the device. -/
def State.learnedTotal (s : State) : Nat := (s.em.owners.map (·.2)).foldl (· + ·) 0

/-! ### Placement (R279 to R281) -/

/-- The lowest free way of a bucket. -/
def State.freeWay (s : State) (b : Nat) : Option Nat :=
  ((List.range 4).map (4 * b + ·)).find? fun p => (Tab.get? s.em.tab p).isNone

/-- The lowest free overflow position. -/
def State.freeOvf (s : State) : Option Nat :=
  let i := lowestRow (((Tab.keys s.em.tab).filter (decide <| ovfBase ≤ ·)).map (· - ovfBase)) 0
  if i < 8192 then some (ovfBase + i) else none

/-- An entry put at a position, which the writer decides and sends. -/
def emPut (pos : Nat) (e : EmEnt) (s : State) : State :=
  emWrite (.put pos e) (onEm (fun m => { m with
    tab := Tab.set m.tab pos e
    ovf := if ovfBase ≤ pos && !m.ovf.contains pos then m.ovf ++ [pos] else m.ovf }) s)

/-- A position invalidated. -/
def emInval (pos : Nat) (carry : Option Nat) (s : State) : State :=
  emWrite (.inval pos carry) (onEm (fun m => { m with tab := Tab.erase m.tab pos, ovf := m.ovf.erase pos }) s)

/-- The bucket way `pos` is free: the overflow entry of its bucket that entered first is promoted (R281). -/
def emPromote (pos : Nat) (s : State) : State :=
  if ovfBase ≤ pos || (Tab.get? s.em.tab pos).isSome then s
  else
    let mine := s.em.ovf.find? fun p => match Tab.get? s.em.tab p with
      | some e => s.emBucket e.kind e.key == pos / 4
      | none => false
    match mine with
    | none => s
    | some p =>
      match Tab.get? s.em.tab p with
      | some e => bump .ovfPromote 0 (emInval p (some pos) (emPut pos e s))
      | none => s

/-- A bucket way became free: a promotion, deferred while a walk is open. -/
def wayFreed (pos : Nat) (s : State) : State :=
  if ovfBase ≤ pos then s
  else if s.em.walk.isEmpty then emPromote pos s
  else
    let any := s.em.ovf.any fun p => match Tab.get? s.em.tab p with
      | some e => s.emBucket e.kind e.key == pos / 4
      | none => false
    if any then bump .promoteDefer 0 (onEm (fun m => { m with deferred := m.deferred ++ [pos] }) s) else s

/-- The entry at a position is deleted. -/
def emDelete (pos : Nat) (s : State) : State :=
  match Tab.get? s.em.tab pos with
  | none => s
  | some e =>
    let s := if e.learned then onOwner (ownerIdx e.ownerKind e.owner) (· - 1) s else s
    wayFreed pos (emInval pos none s)

/-- Deferred promotions, once the last walk has closed. -/
def runDeferred (s : State) : State :=
  if s.em.walk.isEmpty then
    let l := s.em.deferred
    l.foldl (fun s p => emPromote p s) (onEm (fun m => { m with deferred := [] }) s)
  else s

/-- A walk closes (R291). -/
def closeWalk (w : Nat) (s : State) : State := runDeferred (onEm (fun m => { m with walk := Tab.erase m.walk w }) s)

/-- A new key placed (R279): its position; none when it finds no room. -/
def emPlace (e : EmEnt) (s : State) : Option Nat × State :=
  let b := s.emBucket e.kind e.key
  match s.freeWay b with
  | some p => (some p, emPut p e s)
  | none =>
    match s.freeOvf with
    | none => (none, s)
    | some o =>
      let victim := if e.isStatic then ((List.range 4).map (4 * b + ·)).find? fun p =>
          ((Tab.get? s.em.tab p).map (·.learned)).getD false
        else none
      match victim with
      | some p =>
        match Tab.get? s.em.tab p with
        | some x => (some p, emPut p e (bump .ovfRelocate 0 (emInval p (some o) (emPut o x s))))
        | none => (some o, emPut o e s)
      | none => (some o, emPut o e s)

/-! ### Lookups (R275, R282) -/

/-- A lookup in a slice's copy: the entry found, its hit bit set, the counts. While the copy waits for its refill every
miss counts in EM_REFILL_MISS (R293). -/
def emLookup (sl kind key : Nat) (s : State) : Option EmEnt × State :=
  let s := bump .emLookups sl s
  match findKey (s.emCopy sl) (s.emBucket kind key) kind key with
  | some (p, e) =>
    let seen (t : Tab EmEnt) : Tab EmEnt := Tab.modify t p fun e => { e with hit := true }
    (some e, bump .emHits sl (onEm (fun m => { m with copy := Tab.upd m.copy sl [] seen }) s))
  | none =>
    let s := if s.em.refilling.contains sl then bump .emRefillMiss sl s else s
    (none, bump .emMisses sl s)

/-- The entries that p names are deleted in the order of R291, an entry promoted into a way just freed with them, within so many
deletions: how many they were. -/
def deleteAll (p : EmEnt → Bool) : Nat → State → Nat × State
  | 0, s => (0, s)
  | n + 1, s =>
    match s.em.tab.find? fun e => p e.2 with
    | none => (0, s)
    | some e =>
      let (k, s) := deleteAll p n (emDelete e.1 s)
      (k + 1, s)

/-- Every learned entry that a handle owns is deleted (R286). -/
def forgetLearned (h : Nat) (s : State) : State :=
  (deleteAll (fun e => e.learned && !e.noOwner && e.ownerKind == 0 && e.owner == h) s.em.tab.length s).2

end Sys2Proof.Machine
end

