-- ==== Sys2Proof/Machine/HooksA.lean ====
section
/-! DEFINITION. What an ONU context, a port and a burst do to other families' state: a new serial number in a handle
(R110, R167, R223), the frames of a port that goes down (R71, R265), an RSSI result (R61). -/

namespace Sys2Proof.Machine

/-- The RSSI code of a burst of an ONU, kept per ONU and channel pair (R223). -/
def setRssi (onu chan code : Nat) (s : State) : State :=
  { s with rx := { s.rx with onu := Tab.upd s.rx.onu (8 * onu + chan) {} fun x => { x with rssi := code } } }

/-- A frame on its way out of a port is dropped, counted for its source (R266). -/
def dropTx (code : Nat) (f : TxFrame) (s : State) : State :=
  let s := match f.up with
    | some h => onuBytesOut h 1 f.bal s
    | none => s
  countSource f.srcKind f.source f.srcHost code s

/-- The frames in flight for a port that goes down are dropped with PORT_DOWN (R71). -/
def portDownFlush (port : Nat) (s : State) : State :=
  let fs := Tab.getD s.sch.tx port []
  let s := fs.foldl (fun s f => bump .portDown port (dropTx 0x19 f s)) s
  { s with sch := { s.sch with tx := Tab.erase s.sch.tx port } }

/-- The counters kept per ONU handle that a new serial number starts from 0 (R167, R223). -/
def onuCtrs : List Ctr :=
  [.onuGrants, .onuGrantTicks, .onuGrantsReturned, .onuGrantsCancelled, .onuFixedGrants, .dyingGasp, .lobCount, .lodCount,
   .driftCount, .sdbCount]

/-- Counters kept per ONU and channel pair. -/
def onuChanCtrs : List Ctr :=
  [.burstsExpected, .burstsClean, .burstsDamaged, .burstsMissing, .burstsForeign, .burstsDg, .fecCodewords, .fecCorrBits,
   .fecUncorr, .gemFrames, .gemDiscard, .gemHuntBytes, .dbruErr]

/-- A handle holds a serial number: another one than it last held clears the handle's phase memory entries (R110). -/
def handleTaken (h serial : Nat) (s : State) : State :=
  if Tab.get? s.onu.lastSerial h == some serial then s
  else { s with
    onu := { s.onu with lastSerial := Tab.set s.onu.lastSerial h serial }
    lane := { s.lane with phase := s.lane.phase.filter fun e => e.1 / 8 != h } }

/-- A handle receives a context: its statistics start from 0 (R167, R223); with another serial number than it last held,
its phase memory and keys are cleared (R110). Ampoule is told of the binding by BINDING_NOTICE (R428). -/
def newContext (h : Nat) (o : Onu) (s : State) : State :=
  let own (i : Nat) : Bool := i / 8 == h
  let s := { s with
    rx := { s.rx with onu := s.rx.onu.filter fun e => !own e.1 }
    map := { s.map with lastGrantSfc := Tab.erase s.map.lastGrantSfc h } }
  let s := onuCtrs.foldl (fun s c => clearCtr c (· == h) s) s
  let s := onuChanCtrs.foldl (fun s c => clearCtr c own s) s
  if Tab.get? s.onu.lastSerial h == some o.serial then s
  else handleTaken h o.serial { s with cip := { s.cip with onu := Tab.erase s.cip.onu h } }

end Sys2Proof.Machine
end

