-- ==== Sys2Proof/Machine/Lag.lean ====
section
/-! DEFINITION. Aggregation groups (R262 to R265): membership, buckets, round robin, and their commands. -/

namespace Sys2Proof.Machine

/-- An aggregation group. -/
def State.lagOf (s : State) (grp : Nat) : Option Lag := Tab.get? s.cls.lag grp

/-- A group changed. -/
def onLag (grp : Nat) (f : Lag → Lag) (s : State) : State :=
  { s with cls := { s.cls with lag := Tab.modify s.cls.lag grp f } }

/-- The group spreads by round robin (R262): 1 to 3 configured members. -/
def Lag.roundRobin (l : Lag) : Bool := decide (l.ports.length ≤ 3)

/-- A port is up. -/
def State.portUp (s : State) (p : Nat) : Bool := s.portExists p && (Tab.getD s.lane.port p {}).up

/-- The buckets of a member. -/
def Lag.bucketsOf (l : Lag) (p : Nat) : List Nat := (l.bucket.filter fun e => e.2 == p).map (·.1)

/-- The buckets of a member that leaves pass to the others in turn (R265); the count of buckets moved. -/
def Lag.pass (l : Lag) (p : Nat) : Lag × Nat :=
  let up := l.up.filter (· != p)
  let mine := l.bucketsOf p
  if up.isEmpty then ({ l with up := up, bucket := [] }, 0)
  else
    let moved := mine.zipIdx.foldl (fun t e => Tab.set t e.1 ((up[e.2 % up.length]?).getD 0)) l.bucket
    ({ l with up := up, bucket := moved }, mine.length)

/-- The member that holds the most buckets, the lowest port of several, p left out. -/
def Lag.most (l : Lag) (p : Nat) : Option Nat :=
  (l.up.filter (· != p)).foldl (fun m q =>
    match m with
    | none => some q
    | some x => if (l.bucketsOf x).length < (l.bucketsOf q).length then some q else some x) none

/-- n buckets move to p, each the lowest of the member that holds the most. -/
def Lag.take (l : Lag) (p : Nat) : Nat → Lag
  | 0 => l
  | n + 1 =>
    match l.most p with
    | none => l
    | some q =>
      match (l.bucketsOf q).head? with
      | some b => { l with bucket := Tab.set l.bucket b p }.take p n
      | none => l

/-- A member comes up (R265): it receives the fewest buckets that even the shares; the count of buckets moved. -/
def Lag.join (l : Lag) (p : Nat) : Lag × Nat :=
  let up := (l.up.filter (· < p)) ++ [p] ++ (l.up.filter (p < ·))
  let l := { l with up := up }
  if l.roundRobin then (l, 0)
  else if l.bucket.isEmpty then ({ l with bucket := (List.range 256).map fun b => (b, p) }, 256)
  else (l.take p (256 / up.length), 256 / up.length)

/-- The member of a bucket. -/
def Lag.member (l : Lag) (bucket : Nat) : Option Nat := Tab.get? l.bucket bucket

/-- The next member of a round robin (R263): up, not left out, after the last one used. -/
def Lag.next (l : Lag) : Option Nat :=
  let can := l.up.filter fun p => !l.out.contains p
  let can := if can.isEmpty then l.up else can
  match l.lastPort with
  | none => can.head?
  | some x => ((can.find? (x < ·)).orElse fun _ => can.head?)

/-- The upstream queue of a port and traffic class, if set (R346). -/
def State.portQueue (s : State) (p tc : Nat) : Option Nat :=
  (Tab.get? (Tab.getD s.par 0x9040 []) (8 * p + tc)).map Int.toNat

/-- Queues below a port's root. -/
def State.portQueues (s : State) (p : Nat) : List Nat :=
  (s.sch.q.filter fun e => s.rootOf s.treeFuel e.2.a.parent == some (512 + p)).map (·.1)

/-- The descriptors of a hash group on their way to a member's queues, by pipeline. -/
def State.onWay (s : State) (grp port : Nat) (d : Desc) : Bool :=
  d.lag == some grp && !((s.lagOf grp).map (·.roundRobin)).getD true && (s.portQueues port).contains (queueKey d.dir d.queue)

/-- A group's packets in one queue of a member that goes down: in its head segment, and staged, in pages or being read back. -/
def dropAssignedQueue (grp port k : Nat) (s : State) : State :=
  match s.queue k with
  | none => s
  | some q =>
    let mine (d : Desc) : Bool := d.lag == some grp
    let deepGone (p : DeepPkt) (s : State) : State :=
      bump .portDown port (countSource p.hdr.srcKind p.hdr.source p.hdr.srcHost 0x19 (dropBytes p.hdr p.octets.length s))
    let first := ((q.head.head?).map mine).getD false
    let s := onQueue k (fun q => { q with head := q.head.filter fun d => !mine d
                                          waiting := q.waiting && !first, waited := q.waited && !first }) s
    let s := (q.head.filter mine).foldl (fun s d => bump .portDown port (dropSource 0x19 d.cell s)) s
    let s := dropDeep k (fun p => (p.lag.map (·.1)) == some grp) deepGone s
    settleEmpty s.treeFuel k (refill k s)

/-- Packets assigned to a member that goes down are dropped with PORT_DOWN (R265, R266): those in the crossbar, then those in
its queues. -/
def dropAssigned (grp port : Nat) (s : State) : State :=
  let way := s.cls.xbar.flatMap fun e => e.2.filter (s.onWay grp port)
  let left := s.cls.xbar.map fun e => (e.1, e.2.filter fun d => !s.onWay grp port d)
  let s := way.foldl (fun s d => bump .portDown port (dropSource 0x19 d.cell s)) { s with cls := { s.cls with xbar := left } }
  rejoin (512 + port) ((s.portQueues port).foldl (fun s k => dropAssignedQueue grp port k s) s)

/-- A member goes down (R265). -/
def lagDown (grp port : Nat) (s : State) : State :=
  match s.lagOf grp with
  | none => s
  | some l =>
    if !l.up.contains port then s
    else
      let (l2, n) := l.pass port
      bumpBy .lagBucketMoves grp n (dropAssigned grp port (onLag grp (fun _ => l2) s))

/-- A member comes up or is added. -/
def lagUp (grp port : Nat) (s : State) : State :=
  match s.lagOf grp with
  | none => s
  | some l =>
    if l.up.contains port || !l.ports.contains port then s
    else
      let (l2, n) := l.join port
      bumpBy .lagBucketMoves grp n (onLag grp (fun _ => l2) s)

/-- LAG_MEMBER_DOWN (R265). -/
def execLagMemberDown (grp port : Nat) (s : State) : Host.Outcome State Fault Refusal :=
  island (sliceBlk (port / 32) 3) (lagDown grp port) s

/-- LAG_MEMBER_UP (R265). -/
def execLagMemberUp (grp port : Nat) (s : State) : Host.Outcome State Fault Refusal :=
  island (sliceBlk (port / 32) 3) (lagUp grp port) s

/-- The members a group may have (R262, R263). -/
def State.lagPortsOk (s : State) (grp : Nat) (ports : List Nat) : Bool :=
  let speed (p : Nat) : Nat := portSpeed (s.paramN 0x1500 (p / 8))
  decide (1 ≤ ports.length) && decide (ports.length ≤ 16) && ports.eraseDups.length == ports.length
    && ports.all (fun p => s.portExists p && speed p == speed (ports.headD 0)
      && !(s.cls.lag.any fun e => e.1 != grp && e.2.ports.contains p))
    && (decide (4 ≤ ports.length) || ports.all fun p => p / 32 == ports.headD 0 / 32)

/-- A new group, its members that are up joining in ascending order. -/
def State.freshLag (s : State) (ports : List Nat) : Lag :=
  let ps := ports.mergeSort fun a b => decide (a ≤ b)
  let up := ps.filter s.portUp
  let bk := if ports.length ≤ 3 || up.isEmpty then []
    else (List.range 256).map fun b => (b, (up[b % up.length]?).getD 0)
  { ports := ps, up := up, bucket := bk }

/-- LAG_CREATE (R262). -/
def execLagCreate (q : Req) (grp : Nat) (ports : List Nat) (s : State) : Host.Outcome State Fault Refusal :=
  kilak q 0x6009 (fun s =>
    if 64 ≤ grp || (s.lagOf grp).isSome || !s.lagPortsOk grp ports then deny .limit s
    else done { s with cls := { s.cls with lag := Tab.set s.cls.lag grp (s.freshLag ports) } }) s

/-- LAG_MEMBER_SET (R262, R263, R265): members that leave go down, members that are new come up; a change of mode starts
the group afresh. -/
def lagMemberSet (grp : Nat) (ports : List Nat) (s : State) : State × Option Reply :=
  match s.lagOf grp with
  | none => deny .notFound s
  | some l =>
    if !s.lagPortsOk grp ports then deny .limit s
    else
      let left := l.ports.filter fun p => !ports.contains p
      let s := left.foldl (fun s p => lagDown grp p s) s
      let fresh := s.freshLag ports
      if fresh.roundRobin != l.roundRobin then
        done (onLag grp (fun l => { fresh with seq := l.seq, started := l.started }) s)
      else
        let s := onLag grp (fun l => { l with ports := fresh.ports, out := l.out.filter ports.contains }) s
        done ((fresh.up.filter fun p => !l.up.contains p).foldl (fun s p => lagUp grp p s) s)

/-- LAG_MEMBER_SET (R262). -/
def execLagMemberSet (q : Req) (grp : Nat) (ports : List Nat) (s : State) : Host.Outcome State Fault Refusal :=
  kilak q 0x600A (lagMemberSet grp ports) s

/-- A destination kind and number are named by an action record of some page, or by an exact-match entry. -/
def State.namedByAction (s : State) (kind dest : Nat) (pages : Nat → FacetSl → Nat → Bool) : Bool :=
  s.cls.facet.any fun e => e.2.recs.any fun r =>
    pages e.1 e.2 (r.1 / 32768) && r.2.destKind == kind && r.2.dest == dest && (r.2.type == 0 || r.2.type == 3)

/-- An exact-match entry names the destination. -/
def State.namedByEntry (s : State) (kind dest : Nat) : Bool := s.em.tab.any fun e => e.2.destKind == kind && e.2.dest == dest

/-- LAG_DESTROY (R268). -/
def execLagDestroy (q : Req) (grp : Nat) (s : State) : Host.Outcome State Fault Refusal :=
  kilak q 0x600B (fun s =>
    match s.lagOf grp with
    | none => deny .notFound s
    | some _ =>
      if s.namedByAction 1 grp (fun _ _ _ => true) || s.namedByEntry 1 grp then deny .busy s
      else done { s with cls := { s.cls with lag := Tab.erase s.cls.lag grp } }) s

/-- LAG_STATUS (R268): mode (0 round robin, 1 hash), 16 members (255 for none), bucket table (255 without a member). -/
def execLagStatus (q : Req) (grp : Nat) (s : State) : Host.Outcome State Fault Refusal :=
  kilak q 0x600C (fun s =>
    match s.lagOf grp with
    | none => deny .notFound s
    | some l => doneWith [.u 64 (flag (!l.roundRobin)), .lst 1 (l.ports ++ List.replicate (16 - l.ports.length) 255),
        .lst 1 ((List.range 256).map fun b => (l.member b).getD 255)] s) s

/-- CLASS_STATS (R267): kind 0 a port, 1 an ONU handle, 2 a slice, 3 a group. -/
def execClassStats (q : Req) (kind idx : Nat) (s : State) : Host.Outcome State Fault Refusal :=
  kilak q 0x600D (fun s =>
    let c (x : Ctr) (i : Nat) : RVal := .u 64 (s.count x i)
    if [256, 32768, 8, 64].getD kind 0 ≤ idx then deny .badArg s
    else match kind with
    | 0 => doneWith ([Ctr.parseIncomplete, .lenConflict, .classMiss].map (c · (srcIdx 1 idx))) s
    | 1 => doneWith ([Ctr.parseIncomplete, .lenConflict, .classMiss].map (c · (srcIdx 0 idx))) s
    | 2 => doneWith ([c .facetReject idx, c .facetThrottleClocks (2 * idx), c .facetThrottleClocks (2 * idx + 1)]
        ++ [Ctr.cascadeSearches, .cascadeIncomplete, .cascadeTimeout, .cascadeLateResult, .cascadeMismatch, .fragFirst, .fragHeld,
            .fragHoldFull, .fragReplace, .fragEvict, .noFirstFrag].map (c · idx)) s
    | 3 => doneWith ([Ctr.lagRrSkip, .lagNoMember, .lagBucketMoves].map (c · idx)) s
    | _ => deny .badArg s) s

/-- The member that holds the group's next packet to start: in a queue, staged or spilled, or at its MAC. -/
def State.lagBlocker (s : State) (grp seq : Nat) : Option Nat :=
  let holds (q : Queue) : Bool :=
    (q.head.any fun d => d.lag == some grp && d.bucket == seq) || (s.deepOf q).any fun p => p.lag == some (grp, seq)
  match s.sch.tx.find? fun e => e.2.any fun f => f.lag == some (grp, seq) with
  | some (p, _) => some p
  | none =>
    match s.sch.q.find? fun e => holds e.2 with
    | some (_, q) => (s.rootOf s.treeFuel q.a.parent).map (· - 512)
    | none => none

/-- LAG_REORDER_TIMEOUT (R263): a packet has waited lag.reorder_wait for the group's previous one to start; the member
that holds it back is left out, and the wait ends. -/
def reorderTimeout (grp : Nat) (s : State) : State :=
  match s.lagOf grp with
  | none => s
  | some l =>
    let waiting := s.sch.tx.flatMap fun e => e.2.filterMap fun f =>
      match f.lag with
      | some (g, n) => if g == grp && decide (l.started < n) && decide (f.since + usT (s.paramN 0x6040 0) ≤ s.clk.now) then some n else none
      | none => none
    match waiting with
    | [] => s
    | n :: ns =>
      let next := ns.foldl min n
      let s := match s.lagBlocker grp l.started with
        | some p => onLag grp (fun l => { l with out := if l.out.contains p then l.out else l.out ++ [p] }) s
        | none => s
      bump .lagRrSkip grp (onLag grp (fun l => { l with started := next }) s)

/-- LAG_REORDER_TIMEOUT (R263). -/
def execLagReorderTimeout (grp : Nat) (s : State) : Host.Outcome State Fault Refusal :=
  island (sliceBlk ((((s.lagOf grp).map fun l => l.ports.headD 0).getD 0) / 32) 3) (reorderTimeout grp) s

end Sys2Proof.Machine
end

