-- ==== Sys2Proof/Machine/Pool.lean ====
section
/-! DEFINITION. Gather pool and deep-buffer commands, and the arrival of descriptors at the egress half (R300 to R326). -/

namespace Sys2Proof.Machine

/-! ### Commands (R326) -/

/-- POOL_STATUS (R326): free cells, pool.held of every requester, the modes configured and in force, quarantine fill of
every slice in cells. -/
def execPoolStatus (q : Req) (s : State) : Host.Outcome State Fault Refusal :=
  kilak q 0x8000 (fun s =>
    let quar (sl : Nat) : Nat := (s.pool.cells.filter fun e => e.2.st == 2 && e.2.owner == 2 * sl + 1).length
    doneWith [.u 20 (917504 - s.pool.cells.length), .lst 4 ((List.range 24).map fun r => Tab.getD s.pool.held r 0),
      .u 1 (s.paramN 0x8000 0), .u 1 s.pool.modeInForce, .lst 8 ((List.range 8).map quar)] s) s

/-- POOL_QUOTA_SET (R302, R307). -/
def execPoolQuotaSet (q : Req) (r reserve limit : Nat) (s : State) : Host.Outcome State Fault Refusal :=
  kilak q 0x8001 (fun s =>
    let others := (((List.range 24).filter (· != r)).map fun i => s.paramN 0x8010 i).foldl (· + ·) 0
    if 24 ≤ r || reserve % 32 != 0 || 786432 < others + reserve || 917504 < limit then deny .limit s
    else done (setParam 0x8011 r limit (setParam 0x8010 r reserve s))) s

/-- The link entry of a cell (R298); that of a FREE cell reads 0. -/
def State.linkWord (s : State) (c : Nat) : Nat :=
  match Tab.get? s.pool.cells c with
  | none => 0
  | some x => fields [(20, x.next), (1, flag x.last), (1, flag x.head), (2, x.st), (6, x.holder), (5, x.owner), (5, 0)]

/-- The chain header's word (R297). -/
def ChainHdr.word (h : ChainHdr) : Nat :=
  fields [(14, h.len), (6, h.cells), (1, h.dir), (1, if h.srcHost then 0 else h.srcKind), (15, if h.srcHost then 0 else h.source),
    (15, h.dest.getD 0), (18, h.queue), (32, h.enqNs), (1, flag h.srcHost), (1, flag h.dest.isNone), (24, 0)]

/-- POOL_CELL_READ (R298, R326). -/
def execPoolCellRead (q : Req) (cell : Nat) (s : State) : Host.Outcome State Fault Refusal :=
  kilak q 0x8002 (fun s =>
    if 917504 ≤ cell then deny .badArg s
    else
      let hd := ((Tab.get? s.pool.cells cell).map (·.head)).getD false
      match s.chain cell with
      | some c => if hd then doneWith [.rcd 40 (s.linkWord cell), .rcd 128 c.hdr.word] s else doneWith [.rcd 40 (s.linkWord cell)] s
      | none => doneWith [.rcd 40 (s.linkWord cell)] s) s

/-- The ranges of R313. -/
def profileOk (p : BufProfile) : Bool :=
  decide (64 ≤ p.spillOn ∧ p.spillOn ≤ 65536 ∧ 16 ≤ p.refillLow ∧ p.refillLow ≤ p.spillOn / 2 ∧ p.spillOn ≤ p.ondieMax ∧
    p.ondieMax ≤ 262144 ∧ p.deepMax ≤ 4194304)

/-- DBUF_PROFILE_SET (R313). -/
def execDbufProfileSet (q : Req) (n : Nat) (p : BufProfile) (s : State) : Host.Outcome State Fault Refusal :=
  kilak q 0x8003 (fun s =>
    if 16 ≤ n || !profileOk p then deny .limit s
    else
      let s := onPool (fun x => { x with prof := Tab.set x.prof n p }) s
      done (((s.sch.q.filter fun e => e.2.a.bufProfile == n).map (·.1)).foldl (fun s k => refill k s) s)) s

/-- DBUF_STATUS (R326): the free pages, and the use of the ceiling in each direction, which no rule defines further: free
values. -/
def execDbufStatus (q : Req) (stack : Nat) (s : State) : Host.Outcome State Fault Refusal :=
  kilak q 0x8004 (fun s =>
    if 4 ≤ stack then deny .badArg s
    else doneWith [.u 23 (s.freePages stack), .u 64 s.freeVal, .u 64 s.drawn.freeVal] s.drawn.drawn) s

/-- QUEUE_BUFFER_STATUS (R326): mode, cells of the head and tail segments, slots of the deep segment, pages, first page. -/
def execQueueBufferStatus (q : Req) (queue : Nat) (s : State) : Host.Outcome State Fault Refusal :=
  kilak q 0x8005 (fun s =>
    match s.queue queue with
    | none => deny .badState s
    | some x =>
      let deep := (x.deep.map fun p => ((Tab.get? s.pool.pages p).map (·.slots)).getD 0).foldl (· + ·) 0
      doneWith [.u 64 (flag x.spill), .u 64 (s.descCells x.head), .u 64 deep, .u 64 x.tailCells, .u 64 x.pages.length,
        .u 24 ((x.deep.head?).getD 0xFFFFFF)] s) s

/-- The page record of R315. -/
def Page.word (p : Page) : Nat :=
  fields [(1, 1), (18, p.queue), (24, p.next.getD 0xFFFFFF), (5, p.slots), (16, p.startMap), (32, p.seq), (160, 0)]

/-- DBUF_PAGE_READ (R315, R326). -/
def execDbufPageRead (q : Req) (page : Nat) (s : State) : Host.Outcome State Fault Refusal :=
  kilak q 0x8006 (fun s =>
    if 4 * s.stackPages ≤ page then deny .badArg s
    else doneWith [.rcd 256 (((Tab.get? s.pool.pages page).map (·.word)).getD 0)] s) s

/-! ### Cells and pages -/

/-- CELL_FREE (R304). -/
def execCellFree (cell : Nat) (s : State) : Host.Outcome State Fault Refusal :=
  if 917504 ≤ cell then .next s else island (poolBlk cell) (cellFree cell) s

/-- DBUF_FLUSH_TIMEOUT (R315): the open page is written partly filled. -/
def flushTimeout (k : Nat) (s : State) : State :=
  match s.queue k with
  | none => s
  | some q =>
    match q.openPg with
    | some (_, t) => if t + nsTicks (s.paramN 0x8041 0) ≤ s.clk.now then closePage k s else s
    | none => s

/-- DBUF_FLUSH_TIMEOUT (R315). -/
def execDbufFlushTimeout (queue : Nat) (s : State) : Host.Outcome State Fault Refusal :=
  island (hbmBlk (stackOf queue)) (flushTimeout queue) s

/-- The packets whose cells a page write finds spoiled are dropped with POOL_ECC (R301). -/
def writeSpoils (k p : Nat) (q : Queue) (s : State) : State :=
  let bad := q.staged.filterMap fun e =>
    (s.chain e.2.1).bind fun c => if e.1 == p && (c.cells.take e.2.2).any s.pool.bad.contains then some c.deepId else none
  dropDeep k (fun x => bad.contains x.id) (endDeep .dropQueue k 0x26) s

/-- A page write ends (R315, R317): in the order of completion; the page joins the deep segment and its staged cells are
freed. -/
def pageWriteDone (k : Nat) (s : State) : State :=
  match (if s.nextWrite (stackOf k) == some k then s.queue k else none) with
  | none => s
  | some q =>
    match q.writing with
    | [] => s
    | p :: rest =>
      let s := onPool (fun x => { x with wrOrder := x.wrOrder.erase k }) (writeSpoils k p q s)
      let slots := ((Tab.get? s.pool.pages p).map (·.slots)).getD 16
      let (s, left) := freeStaged p q.staged.length s q.staged
      let s := onPage p (fun g => { g with written := true })
        (onQueue k (fun q => { q with writing := rest, deep := q.deep ++ [p], staged := left }) s)
      let j := stackOf k
      let s := bump .dbufPagesWritten j s
      refill k (startWrites k (if slots < 16 then bump .dbufPartialPages j s else s))

/-- DBUF_PAGE_WRITE_DONE (R315). -/
def execDbufPageWriteDone (queue : Nat) (s : State) : Host.Outcome State Fault Refusal :=
  island (hbmBlk (stackOf queue)) (pageWriteDone queue) s

/-- A packet read back joins the head segment and its pipeline's egress half (R299, R316); one that finds no cells is dropped
under R303 or R305. -/
def readBack (k : Nat) (p : DeepPkt) (s : State) : State :=
  let j := stackOf k
  let pipe := 2 * (((s.queue k).bind fun q => s.vertSlice q.a.parent).getD 0) + k / 2 ^ 17
  match allocChain (16 + j) 1 (48 + j) p.hdr p.octets s with
  | (.error e, s) => bump .dropReq (256 * (16 + j) + e) (dropBytes p.hdr p.octets.length s)
  | (.ok c, s) =>
    let d : Desc := { cell := c, len := p.hdr.len, queue := k % 2 ^ 17, tc := p.tc, dir := k / 2 ^ 17, deep := true,
                      lag := p.lag.map (·.1), bucket := (p.lag.map (·.2)).getD 0 }
    onQueue k (fun q => { q with head := q.head ++ [d] }) (handOver c (16 + pipe) 1
      (onChain c (fun x => { x with arr := p.arr, entered := true, encNo := p.encNo }) s))

/-- A packet that a lost page held (R320): its bytes leave the balances where its header could be read. -/
def deepLost (k : Nat) (p : DeepPkt) (hdrLost : Bool) (s : State) : State :=
  if p.gone then s else bump .dropQueue (256 * k + 0x27) (if hdrLost then s else dropBytes p.hdr p.octets.length s)

/-- The packets of a page and the cells of each that the page holds: those that end in it, and the last one when it goes
on, with the slots still to come. -/
def splitPage (slots : Nat) : List DeepPkt → Nat → List DeepPkt × Option (DeepPkt × Nat)
  | [], _ => ([], none)
  | p :: ps, used =>
    if used + p.hdr.cells ≤ slots then
      let (a, b) := splitPage slots ps (used + p.hdr.cells)
      (p :: a, b)
    else ([], some (p, used + p.hdr.cells - slots))

/-- A page read of a queue is served. -/
def leaveRead (k : Nat) (s : State) : State := onPool (fun x => { x with rdOrder := x.rdOrder.erase k }) s

/-- The first page of the deep segment has been read (R316, R320): `err` 0 without error, 1 uncorrectable data, 2 an
uncorrectable record; `lost` says of each packet that goes, in order, whether its header is unreadable. The stack serves reads
in the order of their requests (R317). -/
def pageReadDone (k err : Nat) (lost : List Bool) (s : State) : State :=
  match (if s.nextRead (stackOf k) == some k then s.queue k else none) with
  | none => s
  | some q =>
    match q.deep with
    | [] => s
    | p :: rest =>
      if !q.reading then s
      else
        match Tab.get? s.pool.pages p with
        | none => s
        | some g =>
          let j := stackOf k
          let fault := raiseFault (hbmBlk j) 8 (p / 4 % 2 ^ 21)
          if err = 2 then
            let pk := (p :: rest).flatMap fun i => ((Tab.get? s.pool.pages i).map (·.pkts)).getD []
            let pk := (q.partRd.map (·.1)).toList ++ pk
            let s := pk.zipIdx.foldl (fun s e => deepLost k e.1 ((lost[e.2]?).getD false) s) (leaveRead k (fault s))
            settleMode k (onQueue k (fun q => { q with deep := [], reading := false, partRd := none, nextSeq := (g.seq + 1 + rest.length) % 2 ^ 32 })
              (freePagesOf (p :: rest) s))
          else
            let bad := err = 1 || g.seq != q.nextSeq % 2 ^ 32
            -- the packet that came over from the page before, and what this page still lacks of it
            let (whole, go) : List DeepPkt × Option (DeepPkt × Nat) :=
              match q.partRd with
              | some (x, n) => if n ≤ g.cont then ([{ x with bad := x.bad || bad }], none) else ([], some ({ x with bad := x.bad || bad }, n - g.cont))
              | none => ([], none)
            let (full, tail) := splitPage (g.slots - g.cont) g.pkts 0
            let mark (x : DeepPkt) : DeepPkt := { x with bad := x.bad || bad }
            let next := (tail.map fun t => (mark t.1, t.2)).orElse fun _ => go
            let s := leaveRead k (if bad then fault s else s)
            let s := bump .dbufPagesRead j (freePagesOf [p] (onQueue k (fun q =>
              { q with deep := rest, reading := false, partRd := next, nextSeq := (g.seq + 1) % 2 ^ 32 }) s))
            let s := (whole ++ full.map mark).zipIdx.foldl (fun s e =>
              if e.1.gone then s
              else if e.1.bad then deepLost k e.1 ((lost[e.2]?).getD false) s else readBack k e.1 s) s
            refill k (settleMode k s)

/-- DBUF_PAGE_READ_DONE (R316, R320). -/
def execDbufPageReadDone (queue err : Nat) (lost : List Bool) (s : State) : Host.Outcome State Fault Refusal :=
  island (hbmBlk (stackOf queue)) (pageReadDone queue err lost) s

/-! ### Descriptors at the egress half (R300, R314, R321) -/

/-- A descriptor with its queue known (R297, R453): the balance of the ONU that the header names is entered, and the packet is
enqueued or dropped; without its queue it is dropped in pipeline k's egress half. -/
def arriveAt (k key : Nat) (d : Desc) (s : State) : State :=
  match s.queue key with
  | none => dropChain .dropPipe k 0x33 d.cell s
  | some q =>
    let s := match s.chain d.cell with
      | some c =>
        match c.hdr.dest with
        | some h => if c.entered then s else onuBytesIn h 0 c.octets.length (onChain d.cell (fun c => { c with entered := true }) s)
        | none => s
      | none => s
    let held := match s.rootOf s.treeFuel q.a.parent with
      | some r => decide (512 ≤ r) || s.holdsTree (r / 8)
      | none => true
    if held then enqueue key d s
    else bump .notHeld 0 (dropChain .dropQueue key 0x50 d.cell s)

/-- A descriptor of a round-robin group (R263): the next member, its queue for the traffic class (R346), which no stage before
this one can write into the header (notes/assumptions/112.md). -/
def arriveLag (k grp : Nat) (d : Desc) (s : State) : State :=
  match s.lagOf grp with
  | none => dropSource 0x17 d.cell s
  | some l =>
    match l.next with
    | none => bump .lagNoMember grp (dropSource 0x17 d.cell s)
    | some p =>
      match s.portQueue p d.tc with
      | none => dropChain .dropPort p 0x33 d.cell s
      | some u =>
        let s := onLag grp (fun l => { l with seq := l.seq + 1, lastPort := some p }) s
        arriveAt k (queueKey 1 u) { d with queue := u, bucket := l.seq } (writeHdr d.cell (queueKey 1 u) s)

/-- DESCRIPTOR_ARRIVAL (R314): the next descriptor of the crossbar toward pipeline k's egress half. -/
def descriptorArrival (k : Nat) (s : State) : State :=
  match Tab.getD s.cls.xbar k [] with
  | [] => s
  | d :: rest =>
    let s := { s with cls := { s.cls with xbar := Tab.set s.cls.xbar k rest } }
    let s := handOver d.cell (16 + k) 1 s
    match d.lag with
    | some grp =>
      if ((s.lagOf grp).map (·.roundRobin)).getD true then arriveLag k grp d s else arriveAt k (queueKey d.dir d.queue) d s
    | none => arriveAt k (queueKey d.dir d.queue) d s

/-- A descriptor reaches a block in reset (R321): its chain is freed, its bytes dropped with RESET_LOSS. -/
def descriptorLost (k : Nat) (s : State) : State :=
  match Tab.getD s.cls.xbar k [] with
  | [] => s
  | d :: rest =>
    dropChain .dropBlk (sliceBlk (k / 2) (2 * (k % 2) + 1)) 0x28 d.cell
      { s with cls := { s.cls with xbar := Tab.set s.cls.xbar k rest } }

/-- DESCRIPTOR_ARRIVAL (R314, R321). -/
def execDescriptorArrival (k : Nat) (s : State) : Host.Outcome State Fault Refusal :=
  let b := sliceBlk (k / 2) (2 * (k % 2) + 1)
  if s.undefinedBlk b then .fault (.blockUndefined b)
  else if s.islandUp b then .next (descriptorArrival k s)
  else .next (descriptorLost k s)

end Sys2Proof.Machine
end

