-- ==== Sys2Proof/Machine/MapBase.lean ====
section
/-! DEFINITION. What other families need of maps and allocations: profiles and rates, window requests, quiet intervals,
cancelled grants, allocations of an ONU (R44, R113, R132, R143, R175, R184, R190). -/

namespace Sys2Proof.Machine

/-! ### Rates and profiles -/

/-- The spare channel pair of its tree (R461). -/
def State.isSpare (s : State) (g : Nat) : Bool := s.paramN 0x3036 (g / 8) == g % 8

/-- The base upstream rate (R44). -/
def State.baseRate (s : State) (g : Nat) : Nat := if s.param 0x1020 g == 0 then 0 else 1

/-- lane.us_rate_max in effect (R580). -/
def State.usRateMax (s : State) (g : Nat) : Nat := if s.param 0x1020 g == 0 then 0 else max 1 (s.paramN 0x1021 g)

/-- Bits per map tick at a rate code (R38). -/
def State.bitsPerTick (_ : State) (rate : Nat) : Nat :=
  match rate with
  | 0 => 4
  | 1 => 5
  | 2 => 10
  | _ => 20

/-- Preamble ticks of a profile at a rate (R52). -/
def preTicks (rate profile : Nat) : Nat := if rate = 0 then 40 else if profile = 1 then 32 else 160

/-- Delimiter ticks of a profile at a rate (R52). -/
def delTicks (rate _profile : Nat) : Nat := if rate = 0 then 16 else 4

/-- U_g (R141). -/
def State.upRef (s : State) (g : Nat) : Nat := Config.zeroArrival g (s.baseRate g) + s.paramN 0x3020 g

/-- The grid of a rate (R146), at least one tick. -/
def gridTicks (rate : Nat) : Nat := max 1 (Config.gridTicksRaw rate)

/-! ### Pages -/

/-- A channel pair's maps changed. -/
def onMap (g : Nat) (f : MapCh → MapCh) (s : State) : State :=
  { s with map := { s.map with ch := Tab.upd s.map.ch g {} f } }

/-- The maps of a channel pair. -/
def State.mapCh (s : State) (g : Nat) : MapCh := Tab.getD s.map.ch g {}

/-- A grant entry, as against a QUIET entry (R145). -/
def isGrant (e : MapEntry) : Bool := e.kind != .quiet

/-- The ONU's live grants in a page. -/
def grantsOf (h : Nat) (es : List MapEntry) : Nat :=
  (es.filter fun e => e.onu == h && (e.kind == .dynamic || e.kind == .fixed || e.kind == .ranging)).length

/-- Cancellation (R113, R155): the ONU's grants of every committed page that the framer has not read end as cancelled.
Those of the present superframe have been read at its boundary. -/
def cancelGrants (h : Nat) (s : State) : State :=
  (s.map.ch.filter fun e => (match e.2.commit with
    | some c => c.live
    | none => false) && !e.2.cancelled.contains h).foldl (fun s e =>
      let n := grantsOf h e.2.standby
      if n = 0 then s
      else
        let s := onMap e.1 (fun m => { m with cancelled := h :: m.cancelled }) s
        let s := bumpBy .grantsCancelled e.1 n (bumpBy .onuGrantsCancelled h n s)
        ledGrantEnd e.1 e.2.standbyTarget n s) s

/-- A COMPILE_LATE or MAP_REJECT of a core's channel pair: inside the watch of R197 the core swaps back at its next
snapshot. -/
def marverTrouble (k : Nat) (s : State) : State :=
  { s with map := { s.map with core := Tab.modify s.map.core k fun c =>
      if c.watchEnd.isSome then { c with revertDue := true } else c } }

/-! ### Window requests and quiet intervals -/

/-- A window request to the Marver array (R190). -/
def requestWindow (g : Nat) (kind : EntryKind) (h len : Nat) (s : State) : State :=
  { s with map := { s.map with requests := s.map.requests ++ [{ g := g, kind := kind, onu := h, len := len }] } }

/-- Ranging requests and plans of an ONU are dropped. -/
def dropWindowReq (h : Nat) (s : State) : State :=
  { s with map := { s.map with
      requests := s.map.requests.filter fun r => !(r.kind == .ranging && r.onu == h)
      plans := s.map.plans.filter fun r => !(r.kind == .ranging && r.onu == h) } }

/-- A quiet interval handed to the Marver array (R132). -/
def requestQuiet (h g1 g2 first last : Nat) (s : State) : State :=
  { s with map := { s.map with quiet := s.map.quiet ++ [{ onu := h, g1 := g1, g2 := g2, first := first, last := last }] } }

/-- The ONU's quiet intervals withdrawn. -/
def withdrawQuiet (h : Nat) (s : State) : State :=
  { s with map := { s.map with quiet := s.map.quiet.filter fun q => q.onu != h } }

/-- A quiet interval of the ONU on g covers a superframe. -/
def State.isQuiet (s : State) (h g sfc : Nat) : Bool :=
  s.map.quiet.any fun q => q.onu == h && (q.g1 == g || q.g2 == g) && decide (q.first ≤ sfc ∧ sfc < q.last)

/-- The spare on which an ONU is expected (R138): it counts as being on that channel pair (DEDUCED,
notes/assumptions/99.md). -/
def State.spareAt (s : State) (h : Nat) : Option Nat := (Tab.get? s.map.spare h).map (·.1)

/-! ### Allocations -/

/-- An allocation changed. -/
def onAlloc (a : Nat) (f : Alloc → Alloc) (s : State) : State :=
  { s with map := { s.map with alloc := Tab.modify s.map.alloc a f } }

/-- The allocations of an ONU, in ascending handle order. -/
def State.allocsOf (s : State) (h : Nat) : List (Nat × Alloc) := s.map.alloc.filter fun e => e.2.onu == h

/-- The credits of an allocation discarded (R180, R196). -/
def dropCredit (a : Nat) (s : State) : State :=
  match Tab.get? s.map.alloc a with
  | none => s
  | some x => onAlloc a (fun x => { x with aCredit := 0, nCredit := 0 })
      (ledTokens (creditScope a 1) 0 0 x.nCredit (ledTokens (creditScope a 0) 0 0 x.aCredit s))

/-- The default allocation's context (R184): the lowest free alloc handle. -/
def makeDefaultAlloc (h : Nat) (s : State) : State :=
  match (Tab.get? s.onu.ctx h).bind (·.onuId), lowestFree (Tab.keys s.map.alloc) 0 131072 with
  | some i, some a => { s with map := { s.map with alloc := Tab.set s.map.alloc a {
      allocId := Config.defaultAllocId i, onu := h, dflt := true, acked := true
      a := { patternOnly := false, assured := 0, nonassured := 0, maxBytes := 0, weight := 0, pollLog2 := 0, minGrant := 0 } } } }
  | _, _ => s

/-- The default allocation ends with the ONU-ID (R184). -/
def endDefaultAlloc (h : Nat) (s : State) : State :=
  { s with map := { s.map with alloc := s.map.alloc.filter fun e => !(e.2.onu == h && e.2.dflt) } }

/-- The ONU's answer to Assign_Alloc-ID: grants wait for its acknowledgement (R176). -/
def allocAnswered (a : Nat) (on ok : Bool) (s : State) : State :=
  if on && ok then onAlloc a (fun x => { x with acked := true }) s else s

/-- The allocation stands in a current or next fixed pattern set. -/
def State.allocInFixed (s : State) (a : Nat) : Bool :=
  s.map.ch.any fun e => ([e.2.fixedCur, e.2.fixedNext] ++ (e.2.fixedStage.map fun x => [x.2.1, x.2.2]).getD []).any fun f =>
    match f with
    | some x => x.entries.any fun y => y.entry.alloc == a
    | none => false

/-- The ONU owns an entry of a current or next fixed pattern set (R151). -/
def State.inFixedPattern (s : State) (h : Nat) : Bool := (s.allocsOf h).any fun e => s.allocInFixed e.1

/-- The ONU a tributary serves: the owner of its alloc handle (R83). -/
def State.tribOnu (s : State) (t : Trib) : Option Nat := (Tab.get? s.map.alloc t.a.alloc).map (·.onu)

/-- The ONU's report kept for an allocation (R173): the later burst wins. -/
def takeReport (a bytes pos : Nat) (s : State) : State :=
  onAlloc a (fun x =>
    if pos < x.reportPos then x
    else
      let left := x.granted.filter fun e => decide (pos < e.1)
      let before := x.report - ((x.granted.map (·.2)).foldl (· + ·) 0)
      let now := bytes - ((left.map (·.2)).foldl (· + ·) 0)
      { x with report := bytes, reportPos := pos, granted := left, lastReport := s.clk.sfc,
               latFrom := if before = 0 && decide (0 < now) then some s.clk.ltb else x.latFrom
               latGrant := if before = 0 && decide (0 < now) then none else x.latGrant }) s

/-- Outstanding demand of an allocation (R173). -/
def Alloc.demand (x : Alloc) : Nat :=
  x.report - (((x.granted.filter fun e => decide (x.reportPos < e.1)).map (·.2)).foldl (· + ·) 0)

/-- A value of the bandwidth policy in force for channel pair g, in a policy table (R179). -/
def policyIn (t : Tab (Tab Int)) (pid g : Nat) : Int :=
  match Tab.get? (Tab.getD t (100 + g) []) pid with
  | some v => v
  | none =>
    match Tab.get? (Tab.getD t (1 + g / 8) []) pid with
    | some v => v
    | none =>
      match Tab.get? (Tab.getD t 0 []) pid with
      | some v => v
      | none => pidDefault pid g

end Sys2Proof.Machine
end

