-- ==== Sys2Proof/Machine/OnuBase.lean ====
section
/-! DEFINITION. ONU contexts: lookups, PLOAM queueing, release and retire, the entries into states, and the arithmetic of
ranging and retuning that other families share (R108 to R139). -/

namespace Sys2Proof.Machine

/-! ### Ranging arithmetic -/

/-- RTD(x) in ticks for a distance in metres (R115). -/
def State.rtd (s : State) (g x : Nat) : Nat :=
  ceilDiv (x * (s.paramN 0xB040 g + s.paramN 0xB041 g) * 2488320000) (299792458 * 10000000)

/-- The quiet length of a ranging window (R119). -/
def State.rangeQuiet (s : State) (g : Nat) : Nat := s.rtd g (s.paramN 0x3003 g) - s.rtd g (s.paramN 0x3002 g) + 512

/-- The quiet length QD of a serial-number window (R116): ticks of disc.random_max rounded up. -/
def State.discQuiet (s : State) (g : Nat) : Nat :=
  s.rangeQuiet g + (s.paramN 0x3004 g * 7776 + 3124) / 3125

/-- An RTD in 1/64 tick is within reach (R119). -/
def State.inReach (s : State) (g : Nat) (rtd64 : Int) : Bool :=
  decide ((s.rtd g (s.paramN 0x3002 g) : Int) * 64 - 256 * 64 ≤ rtd64)
    && decide (rtd64 ≤ (s.rtd g (s.paramN 0x3003 g) : Int) * 64 + 256 * 64)
    && decide (rtd64 ≤ (s.paramN 0x3020 g : Int) * 64)

/-- The quotient of a by a positive b to the nearest whole number, a half upward. -/
def roundDiv (a : Int) (b : Nat) : Int := (2 * a + b) / (2 * b : Int)

/-- E_target of R133 in 1/64 tick, from the record and tick_offset of the present channel pair. -/
def State.eqdTarget (s : State) (h : Nat) (o : Onu) (target : Nat) : Nat :=
  let gc := o.g
  let gt := 8 * o.tree + target
  let r := Tab.getD o.eq target {}
  if r.valid && decide (s.clk.sfc < r.confirmed + 8000 * s.paramN 0x1200 0) then r.eqd64
  else
    let e := (Tab.getD o.eq o.chan {}).eqd64
    let rt := (s.paramN 0x3020 gc : Int) * 64 - e + (s.phaseEnt h o.chan).tickOffset * 64
    let d := s.param 0x3022 gt - s.param 0x3022 gc
    (roundDiv ((s.paramN 0x3020 gt : Int) * 64 * 1000000 - rt * (1000000 + d)) 1000000).toNat

/-! ### Release and retire (R113) -/

/-- DISCOVERED to LOST: the states from which OnuDeactivate releases (R113). -/
def OnuState.active (st : OnuState) : Bool := decide (2 ≤ st.ctorIdx ∧ st.ctorIdx ≤ 10)

/-- Every message queued for a handle is dropped, and the outstanding one forgotten. -/
def plForget (h : Nat) (s : State) : State :=
  onOnu h (fun o => { o with out := none })
    { s with onu := { s.onu with queue := s.onu.queue.filter fun i => i.onu != some h } }

/-- The ONU-ID goes into quarantine (R111). -/
def quarantineId (h : Nat) (s : State) : State :=
  match Tab.get? s.onu.ctx h with
  | some o =>
    match o.onuId with
    | some i => { s with onu := { s.onu with quar := Tab.set s.onu.quar (o.tree * 1024 + i) (s.clk.sfc + s.paramN 0x3012 0) } }
    | none => s
  | none => s

/-- The messages of an ONU's retune are dropped: what is queued of it, and an answer outstanding. -/
def dropRetune (h : Nat) (s : State) : State :=
  onOnu h (fun o => { o with out := o.out.filter fun p => !ofRetune p.msg })
    { s with onu := { s.onu with queue := s.onu.queue.filter fun i => !(i.onu == some h && ofRetune i.msg) } }

/-- A retune abandoned: its quiet interval and messages withdrawn, its command failed. -/
def abandonTune (h : Nat) (s : State) : State :=
  match (Tab.get? s.onu.ctx h).bind (·.tune) with
  | some t => completeOpt t.cmd 0x300A (.err .failed) (onOnu h (fun o => { o with tune := none }) (dropRetune h (withdrawQuiet h s)))
  | none => s

/-- Retire: grants cancelled, the ONU-ID freed into quarantine, and every effect tied to release: learned entries (R286),
key exchange and contexts (R363), the default allocation (R184), a retune, window requests, queued messages. -/
def retireOnu (h : Nat) (s : State) : State :=
  let s := quarantineId h (abandonTune h s)
  let s := plForget h (dropWindowReq h s)
  let s := forgetLearned h (dropKeys h (endDefaultAlloc h (cancelGrants h s)))
  onOnu h (fun o => { o with onuId := none, windowOpen := false, acked := false, reRanging := false, tries := 0,
                             deadline := none, ladder := {}, respDue := false
                             left := if o.state.active then some (s.clk.sfc, o.onuId) else o.left }) s

/-- Release: retire, then DEACTIVATING until the quarantine ends. -/
def releaseOnu (h : Nat) (s : State) : State :=
  onOnu h (fun o => { o with state := .deactivating, quarEnd := s.clk.sfc + s.paramN 0x3012 0 }) (retireOnu h s)

/-- Release with a cause in last_fail. -/
def releaseFor (h cause : Nat) (s : State) : State := releaseOnu h (onOnu h (fun o => { o with lastFail := cause }) s)

/-- The context's end: PROVISIONED with a host-given serial number, else FREE. -/
def vacate (h : Nat) (s : State) : State :=
  match Tab.get? s.onu.ctx h with
  | some o =>
    if o.hostSerial then onOnu h (fun o => { tree := o.tree, state := .provisioned, serial := o.serial, hostSerial := true,
                                             wantId := o.wantId, provisioned := true }) s
    else { s with onu := { s.onu with ctx := Tab.erase s.onu.ctx h } }
  | none => s

/-! ### Entries into states (R113) -/

/-- A ranging window asked for; it counts toward range.max_tries. An ONU is ranged at the base rate (R44, R119). -/
def askRanging (h : Nat) (s : State) : State :=
  match Tab.get? s.onu.ctx h with
  | some o => onOnu h (fun o => { o with tries := o.tries + 1, windowOpen := true, curRate := s.baseRate o.g })
      (requestWindow o.g .ranging h (s.rangeQuiet o.g) s)
  | none => s

/-- Contexts of a tree past DISCOVERED (R111). -/
def State.pastDiscovered (s : State) (tree : Nat) : Nat :=
  (s.onu.ctx.filter fun e => e.2.tree == tree && decide (3 ≤ e.2.state.ctorIdx ∧ e.2.state.ctorIdx ≤ 10)).length

/-- The ONU-ID is in quarantine on the tree (R111). -/
def State.inQuarantine (s : State) (tree i : Nat) : Bool :=
  match Tab.get? s.onu.quar (tree * 1024 + i) with
  | some e => decide (s.clk.sfc < e)
  | none => false

/-- The ONU-ID is in use or in quarantine on the tree. -/
def State.onuIdTaken (s : State) (tree i : Nat) : Bool := (s.findOnu tree i).isSome || s.inQuarantine tree i

/-- The lowest ONU-ID neither in use nor in quarantine (R111); one that a context of the tree was created with is left to it
(DESIGN CHOICE, notes/assumptions/97.md). -/
def State.lowestOnuId (s : State) (tree : Nat) : Option Nat :=
  (List.range 1020).find? fun i =>
    !s.onuIdTaken tree i && !s.onu.ctx.any fun e => e.2.tree == tree && e.2.wantId == some i

/-- The ONU-ID the device assigns (R111): the one named at creation, its own quarantine notwithstanding; else the lowest. -/
def State.pickOnuId (s : State) (o : Onu) : Option Nat :=
  match o.wantId with
  | some i => if (s.findOnu o.tree i).isSome then s.lowestOnuId o.tree else some i
  | none => s.lowestOnuId o.tree

/-- Entry to DISCOVERED: Assign_ONU-ID, the default allocation, a ranging window, RANGING; or the tree is full. -/
def enterDiscovered (h : Nat) (s : State) : State :=
  match Tab.get? s.onu.ctx h with
  | none => s
  | some o =>
    match (if s.pastDiscovered o.tree ≥ 1020 then none else s.pickOnuId o) with
    | none => vacate h (bump .onuLimit o.tree s)
    | some i =>
      let s := onOnu h (fun o => { o with state := .ranging, onuId := some i, tries := 0, reRanging := false })
        { s with onu := { s.onu with quar := Tab.erase s.onu.quar (o.tree * 1024 + i) } }
      askRanging h (makeDefaultAlloc h (plBroadcast o.g 1 (.assignOnuId i o.serial) s))

/-- Entry to REGISTERING. -/
def enterRegistering (h : Nat) (s : State) : State :=
  plSend h .requestRegistration (onOnu h (fun o => { o with state := .registering }) s)

/-- Entry to EXTENDING. -/
def enterExtending (h : Nat) (s : State) : State :=
  plSend h .extInquire (onOnu h (fun o => { o with state := .extending, deadline := none }) s)

/-- The standing spare instruction, where it applies: an ONU that declared standing_ok, on a tree with a spare that is not
its own channel pair; after the entry to OPERATION only where E_spare changed by more than 2 ticks since it was last sent
(R137). -/
def standingSpare (h : Nat) (entry : Bool) (s : State) : State :=
  match Tab.get? s.onu.ctx h with
  | none => s
  | some o =>
    let sp := s.paramN 0x3036 o.tree
    if o.ext && o.standingOk && sp < 8 && sp != o.chan && o.state == .operation then
      let e := s.eqdTarget h o sp
      let near := match o.standingEqd with
        | some p => p.1 == sp && decide ((p.2 - e) + (e - p.2) ≤ 128)
        | none => false
      if near && !entry then s
      else plSend h (.tuneCarry sp true e 0 o.tuneTime (s.paramN 0x3037 o.tree)) (onOnu h (fun o => { o with standingEqd := some (sp, e) }) s)
    else s

/-- The rate limit of the ladder: the lower of the ONU's and the channel's maximum (R45). -/
def State.ladderMax (s : State) (o : Onu) : Nat := min o.maxRate (s.usRateMax o.g)

/-- The next ladder step, if the ONU is below its limit (R45, R128). -/
def ladderStep (h : Nat) (s : State) : State :=
  match Tab.get? s.onu.ctx h with
  | none => s
  | some o =>
    if o.state == .operation && o.ext && o.ladder.phase == 0 && decide (o.curRate < s.ladderMax o) then
      plSend h (.rateStep (o.curRate + 1) (s.clk.sfc + 20) o.seeded)
        (onOnu h (fun o => { o with ladder := { o.ladder with phase := 1, rate := o.curRate + 1 } }) s)
    else s

/-- The ladder's Rate_Step is given up: what is queued of it, and the answer outstanding. -/
def dropRateStep (h : Nat) (s : State) : State :=
  let step (m : PlMsg) : Bool := match m with
    | .rateStep .. => true
    | _ => false
  onOnu h (fun o => { o with out := o.out.filter fun p => !step p.msg })
    { s with onu := { s.onu with queue := s.onu.queue.filter fun i => !(i.onu == some h && step i.msg) } }

/-- A failed ladder step: the previous rate again, LADDER_FAIL, a retry unless ladder.max_retries is reached (R45). The ONU
is sent no message for its return to the previous profile (DESIGN CHOICE, notes/assumptions/92.md). -/
def ladderFailed (h : Nat) (s : State) : State :=
  bump .ladderFail h (onOnu h (fun o =>
    let n := o.ladder.fails + 1
    { o with ladder :=
        if n ≥ s.paramN 0x1101 0 then { phase := 4, fails := n }
        else { phase := 3, fails := n, retryAt := s.clk.now + secT (s.paramN 0x1100 0) } }) s)

/-- The ONU leaves OPERATION by LOB or DRIFT: a ladder step under way does not succeed (R45). -/
def ladderInterrupted (h : Nat) (s : State) : State :=
  match Tab.get? s.onu.ctx h with
  | some o => if o.ladder.phase == 1 || o.ladder.phase == 2 then ladderFailed h (dropRateStep h s) else s
  | none => s

/-- A ladder step under way is abandoned without LADDER_FAIL (R46). -/
def ladderAbandon (h : Nat) (s : State) : State :=
  onOnu h (fun o => { o with ladder := { o.ladder with phase := if o.ladder.phase ≤ 2 then 0 else o.ladder.phase } }) (dropRateStep h s)

/-- The SDB interval runs from the ONU's entry to OPERATION (R209). -/
def sdbStart (h : Nat) (s : State) : State :=
  match Tab.get? s.onu.ctx h with
  | none => s
  | some o => { s with rx := { s.rx with onu := Tab.upd s.rx.onu (8 * h + o.chan) {} fun r => { r with
      sdbEnd := some (s.clk.now + msT (s.paramN 0x5021 o.g)), corr := 0, prot := 0 } } }

/-- Entry to OPERATION from EXTENDING: key exchange, the seeded profile on a G.9804 channel, the rate ladder, the standing
spare instruction. -/
def enterOperation (h : Nat) (s : State) : State :=
  match Tab.get? s.onu.ctx h with
  | none => s
  | some o =>
    let s := startKeyExchange h (sdbStart h (onOnu h (fun o => { o with state := .operation, deadline := none }) s))
    let s := if s.baseRate o.g != 0 then plSend h .seededProfile s else s
    standingSpare h true (ladderStep h s)

/-- Back to OPERATION from LOST, CONFIRM or TUNING: the actions of an entry (R113, R360). -/
def backToOperation (h : Nat) (s : State) : State :=
  standingSpare h true (ladderStep h (startKeyExchange h (sdbStart h
    (onOnu h (fun o => { o with state := .operation, deadline := none, reRanging := false }) s))))

/-- Ext_Inquire declined or unanswered (R113, R126): no device-defined message from now on, nothing that an earlier
Ext_Capability declared. The default chan_mask is 0xFF, the rate the present one (DESIGN CHOICE, notes/assumptions/100.md). -/
def extDeclined (h : Nat) (s : State) : State :=
  enterOperation h (onOnu h (fun o => { o with
    ext := false, carryOk := false, tribOk := false, standingOk := false, tribMax := 0
    tuneTime := s.paramN 0x3030 o.tree, maxRate := o.curRate, chanMask := 0xFF }) s)

/-- CONFIRM without confirmation: CONFIRM_MISS, then ranging again while tries are left (R113). -/
def rangingMissed (h : Nat) (s : State) : State :=
  match Tab.get? s.onu.ctx h with
  | none => s
  | some o =>
    if o.tries < s.paramN 0x3023 o.g then askRanging h (onOnu h (fun o => { o with state := .ranging, windowOpen := false }) s)
    else releaseFor h 1 (bump .rangeFail (8 * h + o.chan) s)

/-- CONFIRM without confirmation. -/
def confirmMiss (h : Nat) (s : State) : State :=
  match Tab.get? s.onu.ctx h with
  | none => s
  | some o =>
    let s := rangingMissed h (plAnswered h (bump .confirmMiss (8 * h + o.chan) s))
    if o.reRanging then todUpdate h s else s

/-- An EqD sent: Ranging_Time, and CONFIRM. -/
def sendEqd (h : Nat) (eqd64 : Nat) (again : Bool) (s : State) : State :=
  plSend h (.rangingTime eqd64) (onOnu h (fun o => { o with
    state := .confirm, acked := false, windowOpen := false, reRanging := again || o.reRanging
    eq := Tab.upd o.eq o.chan {} fun r => { r with valid := false, carried := false, eqd64 := eqd64 } }) s)

/-- DRIFT (R121): Ranging_Time with EqD - tick_offset, measured before clamping. -/
def reRange (h : Nat) (offset : Int) (s : State) : State :=
  match Tab.get? s.onu.ctx h with
  | none => s
  | some o =>
    if o.state == .operation then
      sendEqd h (((Tab.getD o.eq o.chan {}).eqd64 : Int) - offset * 64).toNat true
        (onOnu h (fun o => { o with tries := 0 }) (ladderInterrupted h s))
    else s

/-! ### Retuning (R131 to R134) -/

/-- The ONU carries a tributary. -/
def State.carriesTrib (s : State) (h : Nat) : Bool := s.ds.trib.any fun e => s.tribOnu e.2 == some h

/-- Every tributary of the ONU has a TributaryMove to channel pair g in progress (R106, R131). -/
def State.tribsMoveTo (s : State) (h g : Nat) : Bool :=
  s.ds.trib.all fun e => s.tribOnu e.2 != some h || (match e.2.move with
    | some m => m.dest == g
    | none => false)

/-- Why a retune is refused (R131). An ONU with tributaries is retuned where a TributaryMove takes them all to the target
(DEDUCED, notes/assumptions/98.md). -/
def State.retuneRefused (s : State) (h target : Nat) (spare : Bool) : Option Code :=
  match Tab.get? s.onu.ctx h with
  | none => some .badState
  | some o =>
    if o.state == .tuning then some .busy
    else if o.state != .operation then some .badState
    else if 8 ≤ target then some .limit
    else if !bit o.chanMask target then some .limit
    else if s.carriesTrib h && !spare && !s.tribsMoveTo h (8 * o.tree + target) then some .limit
    else none

/-- A retune accepted in superframe N with scheduled SFC Q = N + lead (20, or 4 for a spare retune). -/
def startRetune (cmd : Option Req) (source h target lead : Nat) (s : State) : State :=
  match Tab.get? s.onu.ctx h with
  | none => s
  | some o =>
    let q := s.clk.sfc + lead
    let e := s.eqdTarget h o target
    let s := onOnu h (fun o => { o with
      state := .tuning
      tune := some { cmd := cmd, source := source, target := target, origin := o.chan, q := q, t := o.tuneTime,
                     acked := source == 2, sent := s.clk.sfc, eqd64 := e, rate := o.curRate } }) (ladderAbandon h s)
    let s := requestQuiet h o.g (8 * o.tree + target) q (q + o.tuneTime) s
    let s := plSend h (.tuningControl target q) s
    if o.carryOk then plSend h (.tuneCarry target false e q o.tuneTime 0) s else s

/-- Arrival on the target (R113, R134): the record set, chan and queues rebound, TUNE_OK, the command completes. -/
def tuneArrived (h : Nat) (s : State) : State :=
  match Tab.get? s.onu.ctx h with
  | none => s
  | some o =>
    match o.tune with
    | none => s
    | some t =>
      let s := onOnu h (fun o => { o with
        tune := none, chan := t.target, respDue := !t.resp
        eq := Tab.upd o.eq t.target {} fun r => { r with valid := true, carried := !t.ranged, confirmed := s.clk.sfc,
                                                         eqd64 := if t.ranged then r.eqd64 else t.eqd64 } }) s
      todUpdate h (backToOperation h
        (rebindQueues h (8 * o.tree + t.target)
          (bump .tuneOk h (completeOpt t.cmd 0x300A .ok (dropRetune h (withdrawQuiet h s))))))

/-- A full ranging window on the target g of a retune, at its base rate (R119, R134). -/
def tuneWindow (h g : Nat) (t : Tune) (s : State) : State :=
  onOnu h (fun o => { o with curRate := s.baseRate g, tune := some { t with windowed := true } })
    (requestWindow g .ranging h (s.rangeQuiet g) s)

/-- A retune that ended without arrival expects its ONU on a spare no more (R138). -/
def spareForget (h : Nat) (s : State) : State :=
  { s with map := { s.map with spare := Tab.erase s.map.spare h, spareWin := s.map.spareWin.filter (· != h) } }

/-- A retune that ends on the old channel pair, at the rate it had there. -/
def tuneBack (h : Nat) (st : OnuState) (s : State) : State :=
  match (Tab.get? s.onu.ctx h).bind (·.tune) with
  | none => s
  | some t =>
    let s := completeOpt t.cmd 0x300A (.err .failed) (dropRetune h (withdrawQuiet h (spareForget h s)))
    let s := onOnu h (fun o => { o with tune := none, state := st, curRate := t.rate }) s
    if st == .operation then backToOperation h s
    else onOnu h (fun o => { o with lastFail := 5, deadline := some (s.clk.now + msT (s.paramN 0x3013 o.tree)) }) s

/-- A retune that fails: counted, then back to the old channel pair (R113). -/
def tuneEnded (h : Nat) (c : Ctr) (st : OnuState) (s : State) : State :=
  match (Tab.get? s.onu.ctx h).bind (·.tune) with
  | none => s
  | some _ => tuneBack h st (bump c h s)

/-- The first superframe in which a retuning ONU can be granted on its target: the quiet end, and on a spare no earlier than
the spare's own first grants (R132, R138). -/
def State.tuneDueAt (s : State) (h : Nat) (t : Tune) : Nat := max (t.q + t.t) (((Tab.get? s.map.spare h).map (·.2)).getD 0)

/-- A host retune of an ONU that the balancer moved in the same superframe prevails (R136): the balancer's move is undone,
no message of which has left yet. -/
def balanceYield (h : Nat) (s : State) : State :=
  match Tab.get? s.onu.ctx h with
  | none => s
  | some o =>
    match o.tune with
    | none => s
    | some t =>
      if t.source == 1 && t.sent == s.clk.sfc then
        bumpBy .balanceMoves o.tree (2 ^ 64 - 1) (onOnu h (fun o => { o with tune := none, state := .operation })
          (dropRetune h (withdrawQuiet h s)))
      else s

end Sys2Proof.Machine
end

