-- ==== Sys2Proof/Machine/Trib.lean ====
section
/-! DEFINITION. Downstream framing, slot maps and fixed-rate tributaries (R75 to R107). -/

namespace Sys2Proof.Machine

/-- A connection memory entry's word (R85). -/
def SlotEntry.word (e : SlotEntry) : Nat := fields [(1, flag e.valid), (13, e.trib), (8, e.seg), (6, e.slotsM1), (4, 0)]

/-! ### Framing figures -/

/-- FS frame size of a rate code (R75). -/
def fsBytes (rate : Nat) : Nat :=
  match rate with
  | 0 => 135432
  | 1 => 0
  | r => Config.fsBytesG9804 r

/-- Connection memory entries and slot cap of a downstream rate (R86). -/
def slotCaps (rate : Nat) : Nat × Nat :=
  match rate with
  | 0 => (256, 3072)
  | 2 => (512, 8192)
  | _ => (1024, 16384)

/-- Justification opportunities of n slots (R84). -/
def justOf (n : Nat) : Nat := ceilDiv n 64

/-- The valid entries of a page: the first invalid one ends it. -/
def pageEntries (es : List SlotEntry) : List SlotEntry := es.takeWhile (·.valid)

/-- Tributaries of a page. -/
def pageTribs (es : List SlotEntry) : List Nat := ((pageEntries es).map (·.trib)).eraseDups

/-- Slots a page gives a tributary. -/
def pageSlots (es : List SlotEntry) (t : Nat) : Nat :=
  (((pageEntries es).filter fun e => e.trib == t).map fun e => e.slotsM1 + 1).foldl (· + ·) 0

/-- Length of the tributary region in bytes (R89). -/
def regionBytes (es : List SlotEntry) : Nat :=
  ((pageEntries es).map fun e => 8 + 16 * (e.slotsM1 + 1)).foldl (· + ·) 0 + 12 * (pageTribs es).length

/-- The framer of a channel pair. -/
def State.dsCh (s : State) (g : Nat) : DsCh := Tab.getD s.ds.ch g {}

/-- The framer of a channel pair changed. -/
def onDsCh (g : Nat) (f : DsCh → DsCh) (s : State) : State :=
  { s with ds := { s.ds with ch := Tab.upd s.ds.ch g {} f } }

/-- A tributary changed. -/
def onTrib (t : Nat) (f : Trib → Trib) (s : State) : State :=
  { s with ds := { s.ds with trib := Tab.modify s.ds.trib t f } }

/-! ### Slot map pages (R28 to R31, R103, R104) -/

/-- The segments of a tributary in a page. -/
def segsOf (es : List SlotEntry) (id : Nat) : List SlotEntry := (pageEntries es).filter fun e => e.trib == id

/-- The superframe whose boundary a commit now takes effect at (R104). -/
def State.slotTarget (s : State) : Nat :=
  s.clk.sfc + (if s.clk.ltb % 311040 + 16384 ≤ 311040 then 1 else 2)

/-- Segments of one tributary: 0, 1, 2 and so on; every one but the last of 64 slots. -/
def segsOk : List SlotEntry → Nat → Bool
  | [], _ => true
  | e :: es, i => e.seg == i && (es.isEmpty || e.slotsM1 == 63) && segsOk es (i + 1)

/-- The first rule of R103 that a page fails. -/
def slotCheck (s : State) (g : Nat) (es : List SlotEntry) : Option Nat :=
  let caps := slotCaps (s.paramN 0x1020 g)
  let v := pageEntries es
  let slots := (v.map fun e => e.slotsM1 + 1).foldl (· + ·) 0
  if caps.1 < v.length || caps.2 < slots || caps.1 < (pageTribs es).length then some 1
  else if v.any fun e => ((Tab.get? s.ds.trib e.trib).map fun t => t.create.isNone && t.a.channel == g) != some true then some 2
  else if (pageTribs es).any (fun i =>
      let n := pageSlots es i
      !segsOk (segsOf es i) 0 || (match Tab.get? s.ds.trib i with
        | some t => n != t.a.slots && (t.pending.map (·.1)) != some n
        | none => true)) then some 3
  else if (es.drop v.length).any (·.valid) then some 4
  else none

/-- A committed page is rejected whole (R29): it becomes WRITABLE and keeps its contents; the first failed rule completes the
SlotMapCommit or the TributaryMove that waits for it. -/
def slotReject (g : Nat) (k : SlotCommit) (rule : Nat) (s : State) : State :=
  let r : Reply := { code := .badArg, detail := rule * 2 ^ 24 }
  let s := completeOpt k.cmd 0x2006 r (bump .slotmapReject g (onDsCh g (fun c => { c with commit := none }) s))
  match k.move.bind fun i => (Tab.get? s.ds.trib i).bind fun t => t.move.map fun m => (i, m.cmd) with
  | some (i, q) => complete q 0x2003 r (onTrib i (fun t => { t with move := none }) s)
  | none => s

/-- A resize withdrawn: a committed page that has passed its check and still carries the withdrawn n is rejected (R105). -/
def slotRecheck (g : Nat) (s : State) : State :=
  match (s.dsCh g).commit with
  | some k =>
    if !k.checked then s
    else
      match slotCheck s g (s.dsCh g).standby with
      | some r => slotReject g k r s
      | none => s
  | none => s

/-- The device writes the standby page of a channel pair for a TributaryMove and commits it (R106): under the guard time of R104
like any other commit. The page that the host had loaded there is overwritten (DESIGN CHOICE, notes/assumptions/95.md). -/
def moveCommit (g id : Nat) (page : List SlotEntry) (s : State) : State :=
  onDsCh g (fun c => { c with standby := page, commit := some { sfc := s.slotTarget, move := some id } }) s

/-! ### Tributary commands (R83, R105 to R107, R130) -/

/-- The values of n and fill lie within R83 for a channel pair. -/
def State.slotsOk (s : State) (g n fill : Nat) : Bool :=
  decide (1 ≤ n) && decide (n ≤ min 10000 (slotCaps (s.paramN 0x1020 g)).2) && decide (1 ≤ fill)
    && decide (fill + justOf n ≤ 16 * n)

/-- TributaryCreate (R83, R130): completes after the ONU's answer. -/
def tributaryCreate (q : Req) (id : Nat) (a : TribArgs) (s : State) : State × Option Reply :=
  if 8192 ≤ id || 512 ≤ a.channel || 2 ^ 18 ≤ a.gem then deny .badArg s
  else if (Tab.get? s.ds.trib id).isSome then deny .busy s
  else
    match Tab.get? s.map.alloc a.alloc with
    | none => deny .badArg s
    | some x =>
      match Tab.get? s.onu.ctx x.onu with
      | none => deny .badArg s
      | some o =>
        if o.tree != a.channel / 8 || Config.gemOnu a.gem != x.onu then deny .badArg s
        else if !s.slotsOk a.channel a.slots a.fill || a.feedPayload < 32 || 1024 < a.feedPayload then deny .limit s
        else if !o.tribOk || (s.ds.trib.filter fun e => s.tribOnu e.2 == some x.onu).length ≥ o.tribMax then deny .notSupported s
        else
          let t : Trib := { a := a, create := some q, huntFrom := s.clk.sfc + 1 }
          waits (plSend x.onu (.tribOffer id x.allocId a.gem (16 * a.slots + 16) true)
            { s with ds := { s.ds with trib := Tab.set s.ds.trib id t } })

/-- TRIBUTARY_CREATE (R130). -/
def execTributaryCreate (q : Req) (id : Nat) (a : TribArgs) (s : State) : Host.Outcome State Fault Refusal :=
  kilak q 0x2000 (tributaryCreate q id a) s

/-- A command on a tributary that exists. -/
def withTrib (id : Nat) (f : Trib → State → State × Option Reply) (s : State) : State × Option Reply :=
  match Tab.get? s.ds.trib id with
  | some t => if t.create.isSome then deny .notFound s else f t s
  | none => deny .notFound s

/-- TRIBUTARY_STATUS (R489): attributes, defects, justification counters by direction. -/
def execTributaryStatus (q : Req) (id : Nat) (s : State) : Host.Outcome State Fault Refusal :=
  kilak q 0x2001 (withTrib id fun t s =>
    doneWith [.u 16 t.a.channel, .u 16 t.a.slots, .u 32 t.a.fill, .u 32 t.a.gem, .u 32 t.a.alloc, .u 16 t.a.feedPayload,
      .u 64 t.rep, .u 64 (s.count .tribJustPos (2 * id)), .u 64 (s.count .tribJustNeg (2 * id)),
      .u 64 (s.count .tribJustPos (2 * id + 1)), .u 64 (s.count .tribJustNeg (2 * id + 1))] s) s

/-- TRIBUTARY_RESIZE (R105): naming the values in force withdraws a pending resize, and a committed page with
it. -/
def execTributaryResize (q : Req) (id slots fill : Nat) (s : State) : Host.Outcome State Fault Refusal :=
  kilak q 0x2002 (withTrib id fun t s =>
    if slots = t.a.slots && fill = t.a.fill then done (slotRecheck t.a.channel (onTrib id (fun t => { t with pending := none }) s))
    else if t.pending.isSome then deny .busy s
    else if !s.slotsOk t.a.channel slots fill then deny .limit s
    else done (onTrib id (fun t => { t with pending := some (slots, fill) }) s)) s

/-- Segments of a whole tributary of n slots (R103 rule 3). -/
def moveSegs (id n : Nat) : List SlotEntry :=
  (List.range (ceilDiv n 64)).map fun i =>
    { valid := true, trib := id, seg := i, slotsM1 := min 64 (n - 64 * i) - 1 }

/-- The step of a TributaryMove that can be taken now (R106): 1 and 3 commit a page once the channel pair's standby page is not
COMMITTED; 2 and 4 wait until that page is ACTIVE. -/
def moveStep (id : Nat) (s : State) : State :=
  match (Tab.get? s.ds.trib id).bind fun t => t.move.map fun m => (t, m) with
  | none => s
  | some (t, m) =>
    let setStep (n : Nat) : State → State := onTrib id fun t => { t with move := some { m with step := n } }
    let c := s.dsCh t.a.channel
    if c.commit.isSome then s
    else
      match m.step with
      | 1 => setStep 2 (moveCommit t.a.channel id ((pageEntries c.active).filter fun e => e.trib != id) s)
      | 2 => setStep 3 (onTrib id (fun t => { t with a := { t.a with channel := m.dest } }) s)
      | 3 => setStep 4 (moveCommit t.a.channel id (pageEntries c.active ++ moveSegs id t.a.slots) s)
      | _ => complete m.cmd 0x2003 .ok (onTrib id (fun t => { t with move := none }) s)

/-- The steps of a TributaryMove at a boundary: the change of channel and the commit that follows it are one. -/
def moveBoundary (id : Nat) (s : State) : State :=
  let was := ((Tab.get? s.ds.trib id).bind (·.move)).map (·.step)
  let s := moveStep id s
  if was == some 2 then moveStep id s else s

/-- TRIBUTARY_MOVE (R106): its first page is committed at once where it can be; the other changes follow at boundaries. -/
def execTributaryMove (q : Req) (id channel : Nat) (s : State) : Host.Outcome State Fault Refusal :=
  kilak q 0x2003 (withTrib id fun t s =>
    if 512 ≤ channel || channel / 8 != t.a.channel / 8 then deny .badArg s
    else if t.move.isSome then deny .busy s
    else waits (moveStep id (onTrib id (fun t => { t with move := some { cmd := q, dest := channel, step := 1 } }) s))) s

/-- TRIBUTARY_DELETE (R107): BUSY while an active or committed page holds it. -/
def execTributaryDelete (q : Req) (id : Nat) (s : State) : Host.Outcome State Fault Refusal :=
  kilak q 0x2004 (withTrib id fun t s =>
    let held := s.ds.ch.any fun e => (pageTribs e.2.active).contains id || (e.2.commit.isSome && (pageTribs e.2.standby).contains id)
    if held then deny .busy s
    else
      let s1 := { s with ds := { s.ds with trib := Tab.erase s.ds.trib id } }
      done (match Tab.get? s.map.alloc t.a.alloc with
        | some x =>
          if ((Tab.get? s.onu.ctx x.onu).map (·.ext)).getD true then
            plSend x.onu (.tribOffer id x.allocId t.a.gem (16 * t.a.slots + 16) false) s1
          else s1
        | none => s1)) s

/-! ### Slot maps (R85, R103, R104) -/

/-- SLOT_MAP_LOAD (R85): refused and counted while the standby page is COMMITTED (R31). -/
def execSlotMapLoad (q : Req) (g : Nat) (entries : List SlotEntry) (s : State) : Host.Outcome State Fault Refusal :=
  kilak q 0x2005 (fun s =>
    if 512 ≤ g then deny .badArg s
    else if (s.dsCh g).commit.isSome then (bump .pageRefusedSlot g s, some (.err .busy))
    else if (slotCaps (s.paramN 0x1020 g)).1 < entries.length then deny .limit s
    else done (onDsCh g (fun c => { c with standby := entries }) s)) s

/-- SLOT_MAP_COMMIT (R104): completes after the check. -/
def execSlotMapCommit (q : Req) (g : Nat) (s : State) : Host.Outcome State Fault Refusal :=
  kilak q 0x2006 (fun s =>
    if 512 ≤ g then deny .badArg s
    else if (s.dsCh g).commit.isSome then deny .busy s
    else waits (onDsCh g (fun c => { c with commit := some { sfc := s.slotTarget, cmd := some q } }) s)) s

/-- SLOT_MAP_CHECK_DONE (R103). -/
def slotCheckDone (g : Nat) (s : State) : State :=
  let c := s.dsCh g
  match c.commit with
  | none => s
  | some k =>
    if k.checked then s
    else
      match slotCheck s g c.standby with
      | none => completeOpt k.cmd 0x2006 (.vals [.u 51 k.sfc])
          (onDsCh g (fun c => { c with commit := some { k with checked := true, cmd := none } }) s)
      | some r => slotReject g k r s

/-- SLOT_MAP_CHECK_DONE (R103). -/
def execSlotMapCheckDone (g : Nat) (s : State) : Host.Outcome State Fault Refusal := island (ponBlk g) (slotCheckDone g) s

/-- SLOT_MAP_WITHDRAW (R31): a withdrawal that meets the boundary fails. A SlotMapCommit whose check has not ended
completes with BAD_STATE. A page that a TributaryMove committed is not the host's to withdraw. -/
def execSlotMapWithdraw (q : Req) (g : Nat) (meet : Bool) (s : State) : Host.Outcome State Fault Refusal :=
  kilak q 0x2007 (fun s =>
    match (s.dsCh g).commit with
    | none => deny .badState s
    | some k =>
      if meet || k.move.isSome then deny .badState s
      else done (completeOpt k.cmd 0x2006 (.err .badState) (onDsCh g (fun c => { c with commit := none }) s))) s

/-- A page becomes ACTIVE: first pages of tributaries, pending sizes (R94, R97, R105). -/
def slotActivate (g sfc : Nat) (page : List SlotEntry) (s : State) : State :=
  let s := onDsCh g (fun c => { c with active := page, standby := c.active, commit := none }) s
  (pageTribs page).foldl (fun s i => onTrib i (fun t =>
    let t := if t.started.isNone then { t with started := some sfc, lofFrom := sfc } else t
    match t.pending with
    | some (n, f) =>
      if pageSlots page i = n then
        { t with a := { t.a with slots := n, fill := f }, pending := none, align := .hunt, stream := [], misses := 0, headMiss := none, huntFrom := sfc }
      else t
    | none => t) s) s

/-- The slot map at the boundary that starts superframe sfc (R27, R30). -/
def slotBoundary (g sfc : Nat) (s : State) : State :=
  match (s.dsCh g).commit with
  | some k => if k.checked && decide (k.sfc ≤ sfc) then slotActivate g sfc (s.dsCh g).standby s else s
  | none => s

/-! ### The downstream direction (R92 to R95) -/

/-- TRIB_FEED_WRITE (R92, R93): a late packet is dropped; a gap is filled with 0xFF; bytes beyond the store are dropped. -/
def feedWrite (id seq : Nat) (octets : List Nat) (s : State) : State :=
  match Tab.get? s.ds.trib id with
  | none => s
  | some t =>
    let seq := seq % 65536
    let d := match t.lastFeed with
      | some l => (seq + 65536 - l - 1) % 65536
      | none => 0
    if 32768 ≤ d then bump .tribFeedLate id s
    else
      let fill := d * t.a.feedPayload
      let room := 64 * t.a.slots - t.store.length
      let pad := min room fill
      let data := octets.take (room - pad)
      let lost := (fill - pad) + (octets.length - data.length)
      let s := onTrib id (fun t => { t with
        lastFeed := some seq
        store := t.store ++ List.replicate pad 0xFF ++ data.map (· % 256) }) s
      let s := if d = 0 then s else bump .tribFeedGap id s
      if lost = 0 then s else bumpBy .tribOverrun id lost s

/-- TRIB_FEED_WRITE (R92). -/
def execTribFeedWrite (id seq : Nat) (octets : List Nat) (s : State) : Host.Outcome State Fault Refusal :=
  island (ponBlk (((Tab.get? s.ds.trib id).map (·.a.channel)).getD 0)) (feedWrite id seq octets) s

/-- The TOH with its HEC (R90). -/
def tohWord (trib ptr : Nat) (jc : Int) (bip rei : Nat) (rdi ais : Bool) (seq : Nat) : Nat :=
  let top := fields [(2, 1), (13, trib), (18, ptr), (9, signed 9 jc), (8, bip), (4, rei), (1, flag rdi), (1, flag ais), (5, 0),
    (3, seq), (16, 0)]
  top * 65536 + crcOf 2 (beOctets 10 top)

/-- The downstream container of a tributary in superframe sfc (R93 to R95): j by the store's fill, whether or not the
container carries client data. The pointer of client data is a free value within its container, or none (R90): where a
client frame starts is not the device's to choose. A container without client data has none. -/
def containerOut (id sfc : Nat) (s : State) : State :=
  match Tab.get? s.ds.trib id with
  | none => s
  | some t =>
    let n := t.a.slots
    let k := justOf n
    let primed := t.primed || decide (32 * n ≤ t.store.length)
    let f := t.store.length
    let under := decide (f + k < t.a.fill)
    let ais := !primed || under
    let j : Int := clampI (-(k : Int)) k ((f : Int) - 32 * n - t.a.fill)
    let take := ((t.a.fill : Int) + j).toNat
    let octets := if ais then List.replicate take 0xFF else t.store.take take
    let octets := octets ++ List.replicate (16 * n - octets.length) 0
    let ptr := if !ais && decide (s.freeVal < take) then s.freeVal else 0x3FFFF
    let toh := tohWord id ptr j t.dsBip t.rei (t.det % 8 != 0) ais (sfc % 8)
    let s := onTrib id (fun t => { t with
      primed := primed, store := if ais then t.store else t.store.drop take
      dsToh := toh, dsOctets := octets, dsBip := bip8 octets }) s.drawn
    let s := if under then bump .tribUnderrun id s else s
    if 0 < j then bump .tribJustPos (2 * id) s else if j < 0 then bump .tribJustNeg (2 * id) s else s

/-! ### The frame (R79, R81, R82) -/

/-- Bytes sent to an ONU count in the loads that the balancer compares (R135). -/
def sentDown (g h n : Nat) (s : State) : State :=
  { s with onu := { s.onu with
    ctx := Tab.modify s.onu.ctx h fun o => { o with loadDown := o.loadDown + n }
    chDown := Tab.upd s.onu.chDown g 0 (· + n) } }

/-- A frame whose last fragment has been placed: the tap, the ledger, the load of the balancer (R424, R32, R135). OMCI is
not metered. -/
def gemSent (g : Nat) (x : DsGem) (s : State) : State :=
  let s := match x.dest with
    | some h =>
      let s := if x.omci then s else tapCredit (g / 128) h 0 x.len s
      sentDown g h x.len (onuBytesOut h 0 x.len s)
    | none => s
  match x.up with
  | some h => onuBytesOut h 1 x.bal (tapCredit (g / 128) h 1 x.len s)
  | none => s

/-- A frame that the line cipher drops (R387): for its ONU, or for the channel pair's broadcast. -/
def gemDropped (g code : Nat) (x : DsGem) (s : State) : State :=
  let s := match x.dest with
    | some h => dropOnu h 0 code x.len s
    | none => dropChan g code s
  match x.up with
  | some h => onuBytesOut h 1 x.bal s
  | none => s

/-- A message of p octets of a frame in superframe sfc (R366). -/
def sealGem (g sfc p : Nat) (x : DsGem) (s : State) : Sealed × State :=
  match x.dest with
  | some h => sealUnicast h g x.enc sfc p s
  | none => sealBcast g x.enc sfc p s

/-- The XGEM frame of a message: its header, which is the additional data, and its payload with the tag, if one (R366, R367). -/
def sealedFrm (z : Sealed) (gem options : Nat) (last : Bool) (tag : Nat) (os : List Nat) : DsFrm :=
  let header := Config.xgemHeader (os.length + tag) z.index gem options last
  { gem := gem, last := last, bytes := os.length, keyIndex := z.index, iv := z.iv, options := options
    octets := z.payload header os (tag != 0) }

/-- A frame or fragment placed: the line, its bytes in the channel's window. -/
def placed (g tag : Nat) (x : DsFrm) (s : State) : State :=
  bwCount (512 + 2 * g) (8 + x.bytes + tag) (onDsCh g (fun c => { c with line := c.line ++ [x] }) s)

/-- The stamp of the first PSync bit of a channel pair's superframe in 1/64 tick (R396, R409): its boundary and ds.tx_latency. -/
def State.psync64 (s : State) (g : Nat) : Nat :=
  64 * (s.clk.ltb - s.clk.ltb % 311040 + Config.txLatencyRaw (s.paramN 0x1020 g) % 1025)

/-- The departure of a frame that is placed with `a` bytes of the traffic area left, in 1/65,536 ns (R409): the boundary of
its superframe, ds.tx_latency, and the transmit time of every preceding bit. -/
def State.departure (s : State) (g a : Nat) : Nat :=
  let rate := s.paramN 0x1020 g
  ltbFrac (ltbWord64 (s.psync64 g)) + Config.dsLineTime rate (fsBytes rate - regionBytes (s.dsCh g).active - a + 8)

/-- A PTP event message takes its correction where its first fragment is placed, before line encryption (R409). -/
def DsGem.timed (g a : Nat) (s : State) (x : DsGem) : DsGem :=
  match x.ptp with
  | some at_ =>
    if x.fragged then x
    else { x with octets := tcCorrect (s.paramN 0x6002 0) (s.paramN 0x6003 0) ((s.departure g a : Int) - ltbFrac at_) x.octets }
  | none => x

/-- What the traffic area takes of the frames that wait (R81, R366): the frames left, the bytes left. A frame of an ONU
that retunes waits (R132). -/
def placeGems (g sfc : Nat) : List DsGem → Nat → State → List DsGem × Nat × State
  | [], a, s => ([], a, s)
  | x :: xs, a, s =>
    let wait : Bool := match x.dest with
      | some h => match Tab.get? s.onu.ctx h with
        | some o => o.state == .tuning && (o.tune.map fun t => decide (t.q ≤ sfc)).getD false
        | none => false
      | none => false
    let tag := s.tagOctets x.dest x.enc
    if wait then
      let (r, l, s) := placeGems g sfc xs a s
      (x :: r, l, s)
    else if 8 + x.bytes + tag ≤ a then
      match sealGem g sfc x.bytes x s with
      | (.dropped code, s) => placeGems g sfc xs a (gemDropped g code x s)
      | (z, s) =>
        let s := if x.fragged then bump .dsGemFragments g s else s
        let y := sealedFrm z x.gem 0 true tag (x.timed g a s).octets
        placeGems g sfc xs (a - (8 + x.bytes + tag)) (gemSent g x (bump .dsGemFrames g (placed g tag y s)))
    else if a < 16 + tag then (x :: xs, a, s)
    else
      let p := a - 8 - tag
      match sealGem g sfc p x s with
      | (.dropped code, s) => placeGems g sfc xs a (gemDropped g code x s)
      | (z, s) =>
        let x := x.timed g a s
        let y := sealedFrm z x.gem 0 false tag (x.octets.take p)
        ({ x with bytes := x.bytes - p, fragged := true, octets := x.octets.drop p } :: xs, 0,
          bump .dsGemFragments g (placed g tag y s))

/-- The octets of a segment (R87): the TOH in segment 0, then its part of the container. -/
def segOctets (t : Trib) (e : SlotEntry) : List Nat :=
  (if e.seg = 0 then beOctets 12 t.dsToh else []) ++ (t.dsOctets.drop (1024 * e.seg)).take (16 * (e.slotsM1 + 1))

/-- The options field of a segment's XGEM header (R88). -/
def segOptions (seg : Nat) : Nat := fields [(2, 2), (8, seg), (8, 0)]

/-- One segment of the region (R87, R88): an XGEM frame, sealed like every unicast frame of the ONU (R367). -/
def sendSegment (g sfc : Nat) (e : SlotEntry) (s : State) : State :=
  match Tab.get? s.ds.trib e.trib with
  | none => s
  | some t =>
    let os := segOctets t e
    match s.tribOnu t with
    | none => placed g 0 (sealedFrm .clear t.a.gem (segOptions e.seg) true 0 os) s
    | some h =>
      match sealUnicast h g (s.param 0xA020 t.a.gem == 1) sfc os.length s with
      | (.dropped code, s) => dropOnu h 0 code 0 s
      | (z, s) => sentDown g h os.length (placed g 0 (sealedFrm z t.a.gem (segOptions e.seg) true 0 os) s)

/-- The frames that wait for the next traffic area: the continuation of a fragmented frame stands first (R79, R81). -/
def continuationFirst (l : List DsGem) : List DsGem := l.filter (·.fragged) ++ l.filter (!·.fragged)

/-- The downstream frame of channel pair g in superframe sfc, with so many PLOAM messages (R79): the traffic area, then the
tributary region in entry order, its containers built first; from sag stage S4 the area carries idle frames only (R107). -/
def dsFrame (g sfc ploams : Nat) (s : State) : State :=
  let page := (s.dsCh g).active
  let s := onDsCh g (fun c => { c with line := [] }) s
  let s := (pageTribs page).foldl (fun s i => containerOut i sfc s) s
  let rate := s.paramN 0x1020 g
  let area := fsBytes rate - Config.fsHeaderBytes (s.mapCh g).bwmap.length ploams - regionBytes page
  let s := bump .dsFrames g s
  let s :=
    if 4 ≤ s.sagStage then bumpBy .dsIdleBytes g area s
    else
      let (rest, left, s) := placeGems g sfc (s.dsCh g).gems area s
      bumpBy .dsIdleBytes g left (onDsCh g (fun c => { c with gems := continuationFirst rest }) s)
  (pageEntries page).foldl (fun s e => sendSegment g sfc e s) s

/-! ### The upstream direction (R96 to R98) -/

/-- The container alignment word at the head of a stream. -/
def alignedHere (os : List Nat) : Bool := os.take 4 == [0xB5, 0xE3, 0x7A, 0x0C]

/-- Client octets cut into feed packets (R98). -/
def cutFeed (size : Nat) (defect : Bool) : Nat → List Nat → Nat → List FeedPkt × List Nat × Nat
  | 0, os, q => ([], os, q)
  | n + 1, os, q =>
    if size = 0 || os.length < size then ([], os, q)
    else
      let (ps, r, q2) := cutFeed size defect n (os.drop size) ((q + 1) % 65536)
      ({ seq := q, octets := os.take size, defect := defect } :: ps, r, q2)

/-- Client octets toward the uplink side. -/
def Trib.emit (t : Trib) (os : List Nat) (defect : Bool) : Trib :=
  let all := t.usBuf ++ os
  let (ps, r, q) := cutFeed t.a.feedPayload defect (all.length + 1) all t.usSeq
  { t with feed := t.feed ++ ps, usBuf := r, usSeq := q }

/-- What an upstream TOH says. -/
structure TohIn where
  ok : Bool
  jc : Int := 0
  bip : Nat := 0
  rei : Nat := 0
  rdi : Bool := false
  ais : Bool := false
deriving DecidableEq, Repr

/-- A received TOH read (R90, R91). -/
def tohRead (id : Nat) (os : List Nat) : TohIn :=
  let w := beNat os 0
  let top := w / 65536
  let j := bits w 62 54
  if os.length = 12 && os.all (· < 256) && bits w 95 94 == 1 && bits w 93 81 == id && w % 65536 == crcOf 2 (beOctets 10 top) then
    { ok := true, jc := if j < 256 then (j : Int) else (j : Int) - 512, bip := bits w 53 46, rei := bits w 45 42, rdi := bit w 41,
      ais := bit w 40 }
  else { ok := false }

/-- The octets of a container; one that was not delineated is a free value, the k-th of the stream. -/
def heldOctets : List Nat → Nat → List Nat
  | [], _ => []
  | o :: os, k => (if o < 256 then o else Config.freeNat k % 256) :: heldOctets os (k + 1)

/-- One container of 16n + 16 octets delivered (R98); `missed` says its alignment word was not there. -/
def deliverContainer (id : Nat) (missed : Bool) (os : List Nat) (s : State) : State :=
  match Tab.get? s.ds.trib id with
  | none => s
  | some t =>
    let h := tohRead id ((os.drop 4).take 12)
    let body := heldOctets (os.drop 16) s.free
    let k : Int := justOf t.a.slots
    let jc := if h.ok then clampI (-k) k h.jc else 0
    let client := body.take ((t.a.fill : Int) + jc).toNat
    let erred := if h.ok then popCount 8 (Nat.xor h.bip t.usBip) else 0
    let ais := missed || h.ais
    let bad := t.det % 8 != 0
    let s := onTrib id (fun t =>
      let t := { t with
        usBip := bip8 body, rei := if h.ok then erred else t.rei
        aisRun := if !h.ok then t.aisRun else if ais then t.aisRun + 1 else 0
        noAisRun := if !h.ok then t.noAisRun else if ais then 0 else t.noAisRun + 1
        rdiRun := if !h.ok then t.rdiRun else if h.rdi then t.rdiRun + 1 else 0
        noRdiRun := if !h.ok then t.noRdiRun else if h.rdi then 0 else t.noRdiRun + 1 }
      if bad then t else t.emit client false) { s with free := s.free + (os.drop 16).length }
    let s := if h.ok then bumpBy .tribFebe id h.rei (bumpBy .tribBip id erred s) else bump .tribTohErr id s
    if 0 < jc then bump .tribJustPos (2 * id + 1) s else if jc < 0 then bump .tribJustNeg (2 * id + 1) s else s

/-- Alignment reaches LOCKED at the third word of a candidate (R97): containers are delivered from this one onward, and the
BIP-8 of the one before it is kept for it (R98). -/
def alignLock (id p : Nat) (s : State) : State :=
  onTrib id (fun t => { t with
    align := .locked, misses := 0, wasLocked := true, headMiss := some false, stream := t.stream.drop (2 * p)
    usBip := bip8 (heldOctets ((t.stream.drop (p + 16)).take (p - 16)) s.free) }) { s with free := s.free + p }

/-- The alignment automaton over the stream held (R97): a word is tested as soon as its octets are there, a container is
delivered when it is whole. -/
def alignRun (id : Nat) : Nat → State → State
  | 0, s => s
  | n + 1, s =>
    match Tab.get? s.ds.trib id with
    | none => s
    | some t =>
      let p := 16 * t.a.slots + 16
      let len := t.stream.length
      let hunt : State → State := onTrib id fun t => { t with align := .hunt, stream := t.stream.drop 1 }
      match t.align with
      | .hunt =>
        if len < 4 then s
        else if alignedHere t.stream then alignRun id n (onTrib id (fun t => { t with align := .presync1 }) s)
        else alignRun id n (hunt s)
      | .presync1 =>
        if len < p + 4 then s
        else if alignedHere (t.stream.drop p) then alignRun id n (onTrib id (fun t => { t with align := .presync2 }) s)
        else alignRun id n (hunt s)
      | .presync2 =>
        if len < 2 * p + 4 then s
        else if alignedHere (t.stream.drop (2 * p)) then alignRun id n (alignLock id p s)
        else alignRun id n (hunt s)
      | .locked =>
        match t.headMiss with
        | none =>
          if len < 4 then s
          else if alignedHere t.stream then alignRun id n (onTrib id (fun t => { t with misses := 0, headMiss := some false }) s)
          else if t.misses < 2 then
            alignRun id n (onTrib id (fun t => { t with misses := t.misses + 1, headMiss := some true }) s)
          else alignRun id n (bump .tribAlignLoss id (onTrib id (fun t => { t with align := .hunt, misses := 0, lockLost := true }) s))
        | some miss =>
          if len < p then s
          else alignRun id n (onTrib id (fun t => { t with headMiss := none, stream := t.stream.drop p })
            (deliverContainer id miss (t.stream.take p) s))

/-- Octets of the tributary's upstream message that came before in superframe sfc (R367). -/
def Trib.msgPos (t : Trib) (sfc : Nat) : Nat := if t.usMsg.1 = sfc then t.usMsg.2 else 0

/-- The plain octets of a tributary's fixed allocation (R367): those of superframe sfc form one untagged message under the ONU's
CURRENT upstream key, with blk = 2^28 + Alloc-ID. Without a key they stay as they came (notes/assumptions/114.md). -/
def State.containerText (s : State) (t : Trib) (sfc : Nat) (os : List Nat) : List Nat :=
  if s.param 0xA020 t.a.gem != 1 then os
  else
    match Tab.get? s.map.alloc t.a.alloc with
    | none => os
    | some x =>
      match s.currentSlot x.onu 1 with
      | none => os
      | some slot =>
        let k := s.keyCtx x.onu 1 slot
        let id := ((Tab.get? s.onu.ctx x.onu).bind (·.onuId)).getD 0
        let pos := t.msgPos sfc
        let msg := List.replicate pos 0 ++ os
        let plain := if k.isRec then Config.recCipher k.key sfc [] msg else gcmText k.key (ivWord 1 false id sfc (2 ^ 28 + x.allocId)) msg
        (os.zip (plain.drop pos)).map fun e => if 256 ≤ e.1 then e.1 else e.2

/-- Payload octets of a tributary's allocation in upstream superframe sfc, in grant order; 256 stands for an octet that was not
delineated (R96). The hunt starts with a whole superframe's stream (R97). -/
def tribBytes (id sfc : Nat) (raw : List Nat) (s : State) : State :=
  match Tab.get? s.ds.trib id with
  | some t =>
    let os := s.containerText t sfc raw
    let s := onTrib id (fun t => { t with usMsg := (sfc, t.msgPos sfc + raw.length) }) s
    if sfc < t.huntFrom then s
    else alignRun id (2 * (t.stream.length + os.length) + 8) (onTrib id (fun t => { t with stream := t.stream ++ os }) s)
  | none => s

/-! ### Tributary defects (R100, R101) -/

/-- Defects detected after one superframe. -/
def Trib.detect (t : Trib) (sfc : Nat) (delineated : Bool) (lob losC : Bool) : Trib :=
  let dead := if delineated then 0 else t.deadRun + 1
  let live := if delineated then t.liveRun + 1 else 0
  let los := if bit t.det 0 then !(decide (4 ≤ live) && !lob && !losC) else decide (4 ≤ dead) || lob || losC
  let lofFrom := if bit t.det 0 && !los then sfc else t.lofFrom
  let locked := t.align == .locked
  let lof := if bit t.det 1 then !locked
    else t.lockLost || (!locked && (t.wasLocked || (t.started.isSome && !los && decide (lofFrom + 16 ≤ sfc))))
  let ais := if bit t.det 2 then decide (t.noAisRun < 3) else decide (3 ≤ t.aisRun)
  let rdi := if bit t.det 3 then decide (t.noRdiRun < 3) else decide (3 ≤ t.rdiRun)
  { t with deadRun := dead, liveRun := live, lofFrom := lofFrom, wasLocked := locked, lockLost := false,
           det := flag los + 2 * flag lof + 4 * flag ais + 8 * flag rdi }

/-- Which defects a higher one suppresses: LOF, AIS and RDI under LOS; AIS and RDI under LOF. -/
def tribSuppressed (det k : Nat) : Bool := (bit det 0 && decide (1 ≤ k)) || (bit det 1 && decide (2 ≤ k))

/-- The entry condition of a defect holds at this moment (R100, R101). -/
def Trib.enters (t : Trib) : Nat → Bool
  | 0 => bit t.det 0
  | 1 => t.align != .locked
  | 2 => decide (3 ≤ t.aisRun)
  | _ => decide (3 ≤ t.rdiRun)

/-- Reports of the defects that are not suppressed (R101); `old` are the defects detected before this evaluation. One that was
suppressed when it was entered is reported once its entry condition holds. -/
def tribReports (id sfc old : Nat) (s : State) : State :=
  (List.range 4).foldl (fun s k =>
    match Tab.get? s.ds.trib id with
    | none => s
    | some t =>
      if tribSuppressed t.det k || bit t.det k == bit t.rep k || (bit t.det k && bit old k && !t.enters k) then s
      else event 0x2000 [.u 13 id, .u 2 k, .u 1 (flag (bit t.det k)), .u 51 sfc]
        (onTrib id (fun t => { t with rep := Nat.xor t.rep (2 ^ k) }) s)) s

/-- TRIB_DEFECT_EVAL (R100, R101): the superframe's delineated octets of the allocation. While a defect stands, feed packets
go on at the nominal rate (R98). -/
def tribDefectEval (id delineated : Nat) (s : State) : State :=
  match Tab.get? s.ds.trib id with
  | none => s
  | some t =>
    let h := (s.tribOnu t).getD 0
    let c := ((Tab.get? s.onu.ctx h).map (·.chan)).getD 0
    let lob := bit (Tab.getD s.rx.onu (8 * h + c) {}).det 0
    let losC := (Tab.getD s.rx.ch (t.a.channel / 8 * 8 + c) {}).losC
    let s := onTrib id (fun t =>
      let t := t.detect s.clk.sfc (0 < delineated) lob losC
      if t.det % 8 != 0 then t.emit (List.replicate t.a.fill 0xFF) true else t) s
    tribReports id s.clk.sfc t.det s

/-- TRIB_DEFECT_EVAL (R100). -/
def execTribDefectEval (id delineated : Nat) (s : State) : Host.Outcome State Fault Refusal :=
  island (ponBlk (((Tab.get? s.ds.trib id).map (·.a.channel)).getD 0)) (tribDefectEval id delineated) s

end Sys2Proof.Machine
end

