-- ==== Sys2Proof/Machine/Sched.lean ====
section
/-! DEFINITION. Scheduler commands, gates, the dequeue walk, uplink transmission and sampling (R327 to R354). -/

namespace Sys2Proof.Machine

/-! ### Fields (R329, R336, R350) -/

/-- A rate's burst is in range. -/
def burstOk (rate burst : Nat) : Bool := decide (rate < 2 ^ 30) && (rate == 0 || decide (64 ≤ burst ∧ burst < 2 ^ 24))

/-- The fields of a node are in range and meet R336. -/
def nodeArgsOk (a : NodeArgs) : Bool :=
  decide (a.prio ≤ 7 ∧ 1 ≤ a.weight ∧ a.weight ≤ 1023 ∧ a.lenProfile ≤ 15 ∧ a.bufProfile ≤ 15 ∧ a.gate < 4096)
    && burstOk a.maxRate a.maxBurst && burstOk a.minRate a.minBurst && (a.maxRate == 0 || decide (a.minRate ≤ a.maxRate))

/-- The parent is a vertex of the direction, and takes children (R327, R350). -/
def State.parentOk (s : State) (dir parent : Nat) : Bool :=
  match s.vert parent with
  | some x => x.dir == dir && (decide (parent < 512) || decide (768 ≤ parent) || s.portExists (parent - 512))
  | none => false

/-- The gate belongs to the slice of the parent. -/
def State.gateFits (s : State) (a : NodeArgs) : Bool := !a.gated || s.vertSlice a.parent == some (a.gate / 512)

/-- Queues of a direction in a slice. -/
def State.queuesIn (s : State) (dir sl : Nat) : Nat :=
  (s.sch.q.filter fun e => e.1 / 2 ^ 17 == dir && s.vertSlice e.2.a.parent == some sl).length

/-- Created vertices in a slice. -/
def State.verticesIn (s : State) (sl : Nat) : Nat :=
  (s.sch.v.filter fun e => decide (768 ≤ e.1) && s.vertSlice e.1 == some sl).length

/-- QUEUE_CREATE (R350). -/
def queueCreate (dir id : Nat) (a : NodeArgs) (s : State) : State × Option Reply :=
  let k := queueKey dir id
  if 1 < dir || (if dir = 0 then 131072 else 8192) ≤ id then deny .badArg s
  else if (s.queue k).isSome then deny .busy s
  else if !s.parentOk dir a.parent || !nodeArgsOk a || !s.gateFits a then deny .badArg s
  else
    let sl := (s.vertSlice a.parent).getD 0
    if (if dir = 0 then 32768 else 2048) ≤ s.queuesIn dir sl || s.paramN 0x9001 0 < s.vertDepth s.treeFuel a.parent then deny .limit s
    else
      let v := s.freeVal
      let q : Queue := { a := a, bmax := { at_ := s.clk15 }, bmin := { at_ := s.clk15 },
                         bind := if v % 2 = 0 then none else some (v / 2 % 32768), gem := v / 65536 % 2 ^ 18 }
      let s := s.drawn
      let s := ledBucket (2 * k) 0 (ledBucket (2 * k + 1) 0 s)
      done (attach k a { s with sch := { s.sch with q := Tab.set s.sch.q k q } })

/-- QUEUE_CREATE (R350). -/
def execQueueCreate (q : Req) (dir id : Nat) (a : NodeArgs) (s : State) : Host.Outcome State Fault Refusal :=
  kilak q 0x9000 (queueCreate dir id a) s

/-- A node's fields change: its buckets, brought up to date at the old rates, keep their levels (R337), a new prio is a new
ring; a head frame that waited for another gate is tested again (R344). -/
def changeNode (k : Nat) (old a : NodeArgs) (s : State) : State :=
  let s := readNode k s
  let s := if old.prio = a.prio then s else detach k old s
  let s := if k < 2 ^ 18 then
      onQueue k (fun q => { q with a := a, waiting := q.waiting && a.gated == old.gated && a.gate == old.gate }) s
    else onVert (k - 2 ^ 18) (fun x => { x with a := a }) s
  if old.prio = a.prio then s else attach k a s

/-- QUEUE_MODIFY (R337, R350): parent and dir stay. -/
def queueModify (k : Nat) (a : NodeArgs) (s : State) : State × Option Reply :=
  match s.queue k with
  | none => deny .badState s
  | some q =>
    let a := { a with parent := q.a.parent }
    if !nodeArgsOk a || !s.gateFits a then deny .badArg s
    else if a.bufProfile != q.a.bufProfile && q.spill then deny .busy s
    else done (changeNode k q.a a s)

/-- QUEUE_MODIFY (R350). -/
def execQueueModify (q : Req) (queue : Nat) (a : NodeArgs) (s : State) : Host.Outcome State Fault Refusal :=
  kilak q 0x9001 (queueModify queue a) s

/-- A move of a node (R330, R351). -/
def nodeMove (k parent prio weight : Nat) (s : State) : State × Option Reply :=
  match s.nodeArgs k with
  | none => deny .badState s
  | some a =>
    let dir := if k < 2 ^ 18 then k / 2 ^ 17 else ((s.vert (k - 2 ^ 18)).map (·.dir)).getD 0
    if isRoot k || !s.parentOk dir parent || s.vertSlice parent != s.vertSlice a.parent || 7 < prio || weight = 0 || 1023 < weight
        || (2 ^ 18 ≤ k && s.isAncestor (k - 2 ^ 18) s.treeFuel parent) then deny .badArg s
    else if ((s.queueDepth s.treeFuel k).map fun n => decide (s.paramN 0x9001 0 < s.vertDepth s.treeFuel parent + n)).getD false then
      deny .limit s
    else done (moveNode k parent prio weight s)

/-- QUEUE_MOVE (R351). -/
def execQueueMove (q : Req) (queue parent prio weight : Nat) (s : State) : Host.Outcome State Fault Refusal :=
  kilak q 0x9002 (fun s => if 2 ^ 18 ≤ queue then deny .badArg s else nodeMove queue parent prio weight s) s

/-- VERTEX_MOVE (R351). -/
def execVertexMove (q : Req) (v parent prio weight : Nat) (s : State) : Host.Outcome State Fault Refusal :=
  kilak q 0x9003 (nodeMove (vxKey v) parent prio weight) s

/-- What names a queue and keeps it (R351): an action record of an ACTIVE or COMMITTED page, an exact-match entry, a
sched.port_tc_queue setting. -/
def State.queueNamed (s : State) (k : Nat) : Bool :=
  let dir := k / 2 ^ 17
  let id := k % 2 ^ 17
  (s.cls.facet.any fun e => e.2.recs.any fun r =>
      (r.1 / 32768 == e.2.epoch % 2 || e.2.committed) && r.1 / 16384 % 2 == dir && r.2.destKind == 0 && r.2.dest == id
        && (r.2.type == 0 || r.2.type == 3))
    || s.namedByEntry 0 id || (dir == 1 && (Tab.getD s.par 0x9040 []).any fun e => e.2 == id)

/-- QUEUE_DELETE (R351): returns the packets dropped. -/
def queueDelete (k : Nat) (s : State) : State × Option Reply :=
  match s.queue k with
  | none => deny .badState s
  | some q =>
    if s.queueNamed k then deny .busy s
    else
      let (n, s) := emptyQueue .dropQueue k k 0x32 s
      let s := detach k q.a s
      doneWith [.u 64 n] { s with sch := { s.sch with q := Tab.erase s.sch.q k } }

/-- QUEUE_DELETE (R351). -/
def execQueueDelete (q : Req) (queue : Nat) (s : State) : Host.Outcome State Fault Refusal := kilak q 0x9004 (queueDelete queue) s

/-- The context word of R329. -/
def nodeWord (isVertex : Bool) (dir : Nat) (a : NodeArgs) : Nat :=
  fields [(1, 1), (1, flag isVertex), (1, dir), (16, a.parent), (3, a.prio), (10, a.weight), (4, a.lenProfile), (4, a.bufProfile),
    (1, flag a.sagKeep), (1, flag a.gated), (12, a.gate), (30, a.maxRate), (24, a.maxBurst), (30, a.minRate), (24, a.minBurst),
    (94, 0)]

/-- A vertex's context word: of a root, max_rate and max_burst alone. -/
def vertexWord (v : Nat) (x : Vertex) : Nat :=
  if v < 768 then fields [(54, 0), (30, x.a.maxRate), (24, x.a.maxBurst), (148, 0)] else nodeWord true x.dir x.a

/-- A bucket's level now. -/
def State.levelNow (s : State) (b : Bucket) (rate burst : Nat) : Int := if rate = 0 then b.level else (b.refresh rate burst s.clk15).1.level

/-- QUEUE_STATUS (R329, R349): each maximum goes back to its last value. -/
def execQueueStatus (q : Req) (queue : Nat) (s : State) : Host.Outcome State Fault Refusal :=
  kilak q 0x9005 (fun s =>
    let s := readNode queue s
    match s.queue queue with
    | none => deny .badState s
    | some x => doneWith [.rcd 256 (nodeWord false (queue / 2 ^ 17) x.a), .i 64 (s.levelNow x.bmax x.a.maxRate x.a.maxBurst),
        .i 64 (s.levelNow x.bmin x.a.minRate x.a.minBurst), .i 64 x.deficit, .u 64 (flag (s.queueElig queue x)),
        .u 64 (flag (s.inCommit queue)), .u 64 x.qdLast, .u 64 x.qdMax, .u 64 x.qlLast, .u 64 x.qlMax]
        (onQueue queue (fun x => { x with qdMax := x.qdLast, qlMax := x.qlLast }) s)) s

/-- VERTEX_CREATE (R350): the lowest free vertex ID. -/
def vertexCreate (dir : Nat) (a : NodeArgs) (s : State) : State × Option Reply :=
  if 1 < dir || !s.parentOk dir a.parent || !nodeArgsOk a then deny .badArg s
  else
    let v := lowestRow ((Tab.keys s.sch.v).filter (768 ≤ ·)) 768
    if 65536 ≤ v || 16384 ≤ s.verticesIn ((s.vertSlice a.parent).getD 0) then deny .limit s
    else
      let x : Vertex := { a := a, dir := dir, bmax := { at_ := s.clk15 }, bmin := { at_ := s.clk15 } }
      let s := ledBucket (2 * vxKey v) 0 (ledBucket (2 * vxKey v + 1) 0 s)
      doneWith [.u 16 v] (attach (vxKey v) a { s with sch := { s.sch with v := Tab.set s.sch.v v x } })

/-- VERTEX_CREATE (R350). -/
def execVertexCreate (q : Req) (dir : Nat) (a : NodeArgs) (s : State) : Host.Outcome State Fault Refusal :=
  kilak q 0x9006 (vertexCreate dir a) s

/-- VERTEX_MODIFY (R329, R346): of a root, max_rate and max_burst alone. -/
def vertexModify (v : Nat) (a : NodeArgs) (s : State) : State × Option Reply :=
  match s.vert v with
  | none => deny .badState s
  | some x =>
    if v < 768 then
      if s.rootSpeed v < a.maxRate then deny .limit s
      else if !burstOk a.maxRate a.maxBurst then deny .badArg s
      else done (onVert v (fun x => { x with rateSet := true })
        (changeNode (vxKey v) x.a { x.a with maxRate := a.maxRate, maxBurst := a.maxBurst } s))
    else
      let a := { a with parent := x.a.parent }
      if !nodeArgsOk a then deny .badArg s else done (changeNode (vxKey v) x.a a s)

/-- VERTEX_MODIFY (R350). -/
def execVertexModify (q : Req) (v : Nat) (a : NodeArgs) (s : State) : Host.Outcome State Fault Refusal :=
  kilak q 0x9007 (vertexModify v a) s

/-- VERTEX_STATUS (R335, R354): context, levels, eligibility. -/
def execVertexStatus (q : Req) (v : Nat) (s : State) : Host.Outcome State Fault Refusal :=
  kilak q 0x9008 (fun s =>
    let s := readNode (vxKey v) s
    match s.vert v with
    | none => deny .badState s
    | some x => doneWith [.rcd 256 (vertexWord v x), .i 64 (s.levelNow x.bmax x.a.maxRate x.a.maxBurst),
        .i 64 (s.levelNow x.bmin x.a.minRate x.a.minBurst), .u 64 (flag (s.eligible s.treeFuel (vxKey v)))] s) s

/-- VERTEX_DELETE (R351). -/
def execVertexDelete (q : Req) (v : Nat) (s : State) : Host.Outcome State Fault Refusal :=
  kilak q 0x9009 (fun s =>
    if v < 768 then deny .badArg s
    else
      match s.vert v with
      | none => deny .badState s
      | some x =>
        if !x.children.isEmpty then deny .busy s
        else
          let s := detach (vxKey v) x.a s
          done { s with sch := { s.sch with v := Tab.erase s.sch.v v } }) s

/-- LEN_PROFILE_SET (R334). -/
def execLenProfileSet (q : Req) (n : Nat) (overhead : Int) (s : State) : Host.Outcome State Fault Refusal :=
  kilak q 0x900A (fun s =>
    if 16 ≤ n || overhead < -32 || 63 < overhead then deny .limit s else done (setParam 0x9010 n overhead s)) s

/-! ### Policers (R338, R339) -/

/-- A policer's key. -/
def polKey (sl i : Nat) : Nat := sl * 2 ^ 17 + i

/-- A policer's bucket is brought up to date (R335). -/
def readPolicer (key : Nat) (s : State) : State :=
  match Tab.get? s.sch.pol key with
  | none => s
  | some p =>
    let s1 := ledRebase (2 ^ 20 + key) (2 ^ 20 + key) p.r.rate p.r.burst p.b s
    { s1 with sch := { s1.sch with pol := Tab.set s1.sch.pol key { p with b := p.b.rebase p.r.rate p.r.burst s.clk15 } } }

/-- POLICER_SET (R338): the bucket is brought up to date at the old rate. -/
def policerSet (sl i : Nat) (r : PolicerRec) (s : State) : State × Option Reply :=
  if 8 ≤ sl || i = 0 || 131072 ≤ i || 15 < r.lenProfile || r.rate = 0 || 2 ^ 30 ≤ r.rate || r.burst < 64 || 2 ^ 24 ≤ r.burst then
    deny .limit s
  else
    let s := readPolicer (polKey sl i) s
    let (b, s) : Bucket × State := match Tab.get? s.sch.pol (polKey sl i) with
      | some p => (p.b, s)
      | none => ({ at_ := s.clk15 }, ledBucket (2 ^ 20 + polKey sl i) 0 s)
    done { s with sch := { s.sch with pol := Tab.set s.sch.pol (polKey sl i) { r := r, b := b } } }

/-- POLICER_SET (R338). -/
def execPolicerSet (q : Req) (slice policer : Nat) (r : PolicerRec) (s : State) : Host.Outcome State Fault Refusal :=
  kilak q 0x900B (policerSet slice policer r) s

/-- POLICER_STATUS (R338). -/
def execPolicerStatus (q : Req) (slice policer : Nat) (s : State) : Host.Outcome State Fault Refusal :=
  kilak q 0x900C (fun s =>
    if 8 ≤ slice || policer = 0 || 131072 ≤ policer then deny .limit s
    else
      let s := readPolicer (polKey slice policer) s
      match Tab.get? s.sch.pol (polKey slice policer) with
      | some p => doneWith [.rcd 64 (fields [(1, flag p.r.valid), (4, p.r.lenProfile), (30, p.r.rate), (24, p.r.burst), (5, 0)]),
          .i 64 (s.levelNow p.b p.r.rate p.r.burst)] s
      | none => doneWith [.rcd 64 0, .i 64 0] s) s

/-! ### Gate lists (R340 to R343) -/

/-- A gate changed. -/
def onGate (g : Nat) (f : Gate → Gate) (s : State) : State :=
  { s with sch := { s.sch with gate := Tab.upd s.sch.gate g {} f } }

/-- GATE_LIST_LOAD (R341): refused and counted while the page is COMMITTED. -/
def execGateListLoad (q : Req) (gate : Nat) (l : GateList) (s : State) : Host.Outcome State Fault Refusal :=
  kilak q 0x900D (fun s =>
    if 4096 ≤ gate then deny .badArg s
    else if (Tab.getD s.sch.gate gate {}).commit.isSome then (bump .pageRefusedGate gate s, some (.err .busy))
    else
      let es := l.entries.take l.count
      let es := es ++ List.replicate (min l.count 256 - es.length) (false, 0)
      let l2 := { l with entries := es }
      done (onGate gate (fun g => { g with standby := some l2 }) s)) s

/-- The first rule of R342 a page fails, with its entry. -/
def gateCheck (l : GateList) : Option (Nat × Nat) :=
  if l.count = 0 || 256 < l.count then some (1, 0)
  else
    match l.entries.findIdx? fun e => e.2 < 64 || 1000000000 < e.2 with
    | some i => some (2, i)
    | none =>
      if gateCycle l < 1000 || 1000000000 < gateCycle l then some (3, 0)
      else if 999999999 < l.baseNs then some (4, 0)
      else if l.entries.all (!·.1) then some (5, 0)
      else none

/-- N and S of a page (R343): the first cycle that starts at least 4 µs from now. -/
def State.gateStart (s : State) (l : GateList) : Nat × Nat :=
  let need := s.ltbFine + 4000 * 7776
  let n := ceilDiv (need - gateBase l * 7776) (max 1 (gateCycle l) * 7776)
  (n, gateBase l + n * gateCycle l)

/-- A time in ns of LTB in the layout of R391. -/
def nsWord (ns : Nat) : Nat := ns / 1000000000 * 2 ^ 48 + ns % 1000000000 * 2 ^ 16

/-- The start of a committed page is computed, and the waiting command ends (R343, R394). -/
def gateSchedule (gate : Nat) (s : State) : State :=
  let g := Tab.getD s.sch.gate gate {}
  match g.commit, g.standby with
  | some c, some l =>
    if c.start.isSome then s
    else
      let (n, st) := s.gateStart l
      let s := onGate gate (fun g => { g with commit := some { cmd := none, start := some st }, late := decide (0 < n), lastS := st }) s
      let s := if 0 < n then event 0x9000 [.u 12 gate, .u 96 (nsWord st)] (bump .gateLateStart gate s) else s
      completeOpt c.cmd 0x900E (.vals [.u 96 (nsWord st)]) s
  | _, _ => s

/-- GATE_LIST_COMMIT (R342, R343): while the LTB is UNSET the page stays COMMITTED without a start (R394). -/
def gateListCommit (q : Req) (gate : Nat) (s : State) : State × Option Reply :=
  let g := Tab.getD s.sch.gate gate {}
  if 4096 ≤ gate then deny .badArg s
  else if g.commit.isSome then deny .busy s
  else
    let l := g.standby.getD { baseSec := 0, baseNs := 0, count := 0, entries := [] }
    match gateCheck l with
    | some (r, i) => denyAt .badArg r i (bump .gateReject gate s)
    | none =>
      let s := onGate gate (fun g => { g with commit := some { cmd := some q } }) s
      waits (if s.ltbSet then gateSchedule gate s else s)

/-- GATE_LIST_COMMIT (R342). -/
def execGateListCommit (q : Req) (gate : Nat) (s : State) : Host.Outcome State Fault Refusal :=
  kilak q 0x900E (gateListCommit q gate) s

/-- GATE_LIST_WITHDRAW (R31): one that meets S fails. -/
def execGateListWithdraw (q : Req) (gate : Nat) (meet : Bool) (s : State) : Host.Outcome State Fault Refusal :=
  kilak q 0x900F (fun s =>
    match (Tab.getD s.sch.gate gate {}).commit with
    | none => deny .badState s
    | some c =>
      if meet then deny .badState s
      else done (completeOpt c.cmd 0x900E (.err .badState) (onGate gate (fun g => { g with commit := none }) s))) s

/-- A list's header and entries as words (R341). -/
def gateListVals (l : Option GateList) : List RVal :=
  match l with
  | some l => [.rcd 128 (fields [(48, l.baseSec), (30, l.baseNs), (9, l.count), (41, 0)]),
      .lst 4 (l.entries.map fun e => flag e.1 * 2 ^ 31 + e.2)]
  | none => [.rcd 128 0]

/-- The entry of a list that a phase in units of 1/7,776 ns falls into. -/
def entryAt : List (Bool × Nat) → Nat → Nat → Nat
  | [], _, i => i
  | e :: es, ph, i => if ph < e.2 * 7776 then i else entryAt es (ph - e.2 * 7776) (i + 1)

/-- The current entry of a gate; all ones without an ACTIVE page. -/
def State.gateEntry (s : State) (g : Gate) : Nat :=
  match g.active with
  | some (l, st) => entryAt l.entries ((s.ltbFine - st * 7776) % (max 1 (gateCycle l) * 7776)) 0
  | none => 2 ^ 64 - 1

/-- GATE_STATUS (R354): both pages, the ACTIVE one first; the page states (0 WRITABLE, 1 COMMITTED, 2 ACTIVE); S, late_start,
the current entry. -/
def execGateStatus (q : Req) (gate : Nat) (s : State) : Host.Outcome State Fault Refusal :=
  kilak q 0x9010 (fun s =>
    if 4096 ≤ gate then deny .badArg s
    else
      let g := Tab.getD s.sch.gate gate {}
      doneWith (gateListVals (g.active.map (·.1)) ++ gateListVals g.standby ++ [.u 64 (if g.active.isSome then 2 else 0),
        .u 64 (flag g.commit.isSome), .u 96 (nsWord g.lastS), .u 64 (flag g.late), .u 64 (s.gateEntry g)]) s) s

/-- The head frames of a gated queue are tested (R344, R345): one longer than every window is dropped, and the next is tested;
one that does not fit waits, counted once (R353). -/
def testHead (k : Nat) : Nat → State → State
  | 0, s => s
  | n + 1, s =>
    match s.queue k with
    | none => s
    | some q =>
      match q.head with
      | [] => s
      | d :: rest =>
        if !q.a.gated || q.waiting then s
        else
          match s.gateTest q.a.gate (s.rootRate q.a.parent) (s.headLen q) with
          | .fits => s
          | .waits =>
            let s := onQueue k (fun q => { q with waiting := true, waited := true }) s
            if q.waited then s else bump .gateWaits k s
          | .oversize =>
            let s := onQueue k (fun q => { q with head := rest, waited := false }) s
            let s := refill k (bump .gateOversize q.a.gate (dropChain .dropQueue k 0x31 d.cell s))
            testHead k n (settleEmpty s.treeFuel k s)

/-- The head frames of some queues are tested, each until one stays. -/
def testHeads (ks : List Nat) (s : State) : State :=
  ks.foldl (fun s k => testHead k (((s.queue k).map fun q => q.head.length).getD 0 + 1) s) s

/-- The head frames of the queues that name a gate are tested again. -/
def retestGate (gate : Nat) (s : State) : State :=
  let named (a : NodeArgs) : Bool := a.gated && a.gate == gate
  testHeads ((s.sch.q.filter fun e => named e.2.a).map (·.1))
    { s with sch := { s.sch with q := s.sch.q.map fun e => (e.1, if named e.2.a then { e.2 with waiting := false } else e.2) } }

/-- GATE_LIST_START (R343): at S the page becomes ACTIVE and the previous one WRITABLE. -/
def gateListStart (gate : Nat) (s : State) : State :=
  let g := Tab.getD s.sch.gate gate {}
  match g.commit.bind (·.start), g.standby with
  | some st, some l =>
    if st * 7776 ≤ s.ltbFine then
      retestGate gate (bump .gateSwaps gate
        (onGate gate (fun g => { g with active := some (l, st), standby := g.active.map (·.1), commit := none }) s))
    else s
  | _, _ => s

/-- GATE_LIST_START (R343). -/
def execGateListStart (gate : Nat) (s : State) : Host.Outcome State Fault Refusal :=
  island (sliceBlk (gate / 512) 1) (gateListStart gate) s

/-- GATE_WINDOW_OPEN (R344): waiting head frames are tested again. -/
def execGateWindowOpen (gate : Nat) (s : State) : Host.Outcome State Fault Refusal :=
  island (sliceBlk (gate / 512) 1) (fun s =>
    if ((Tab.getD s.sch.gate gate {}).at (s.ltbFine + s.paramN 0x9030 gate * 7776)).isSome then retestGate gate s else s) s

/-! ### Settings and statistics -/

/-- PORT_QUEUE_SET (R346). -/
def execPortQueueSet (q : Req) (port tc queue : Nat) (s : State) : Host.Outcome State Fault Refusal :=
  kilak q 0x9011 (fun s =>
    match s.queue (queueKey 1 queue) with
    | none => deny .badArg s
    | some x =>
      if 256 ≤ port || 8 ≤ tc || 8192 ≤ queue || s.rootOf s.treeFuel x.a.parent != some (512 + port) then deny .badArg s
      else done (setParam 0x9040 (8 * port + tc) queue s)) s

/-- QUEUE_SAMPLE_BIND (R349): the unit's shift is not among the arguments, so it is a free value. -/
def execQueueSampleBind (q : Req) (queue : Nat) (delay : Bool) (unit : Nat) (s : State) : Host.Outcome State Fault Refusal :=
  kilak q 0x9012 (fun s =>
    if (s.queue queue).isNone then deny .badState s
    else if 256 ≤ unit || (Tab.get? s.mon.hist unit).isSome then deny .limit s
    else done (bindUnit unit (s.freeVal % 32) (if delay then .qDelay queue else .qDepth queue) s.drawn)) s

/-- SCHED_STATS (R353): kind 0 a queue, 1 a vertex, 2 a policer (slice × 2^17 + index), 3 a gate. -/
def execSchedStats (q : Req) (kind idx : Nat) (s : State) : Host.Outcome State Fault Refusal :=
  kilak q 0x9013 (fun s =>
    let c (x : Ctr) (i : Nat) : RVal := .u 64 (s.count x i)
    match kind with
    | 0 => doneWith ([Ctr.qDeqPkts, .qDeqBytes, .gateWaits, .tokensDiscarded].map (c · idx)) s
    | 1 => doneWith [c .vDeqBytes idx, c .schedEmptyWalk idx, c .tokensDiscarded (vxKey idx)] s
    | 2 => doneWith [c .polConformPkts idx, c .polConformBytes idx, c .polDropPkts idx, c .polDropBytes idx,
        c .policerUnset (idx / 2 ^ 17), c .tokensDiscarded (2 ^ 20 + idx)] s
    | 3 => doneWith ([Ctr.gateReject, .gateLateStart, .gateSwaps, .gateOversize].map (c · idx)) s
    | _ => deny .badArg s) s

/-- The delay of a queue's head packet modulo 1 s, wherever that lies (R349). -/
def State.queueDelay (s : State) (q : Queue) : Nat :=
  let first := ((q.head.head?).bind fun d => (s.chain d.cell).map (·.hdr)).orElse fun _ => ((s.deepOf q).head?).map (·.hdr)
  match first with
  | some h => (s.ltbNs + 1000000000 - h.enqNs) % 1000000000
  | none => 0

/-- One queue sampled (R349). -/
def sampleQueue (k : Nat) (s : State) : State :=
  match s.queue k with
  | none => s
  | some q =>
    let b := s.queueBytes q
    let d := s.queueDelay q
    histSample (.qDelay k) d k (histSample (.qDepth k) b k
      (onQueue k (fun q => { q with qdLast := b, qdMax := max q.qdMax b, qlLast := d, qlMax := max q.qlMax d }) s))

/-- QUEUE_SAMPLE (R349): every queue of pipeline k's egress half. -/
def queueSample (k : Nat) (s : State) : State :=
  ((s.sch.q.filter fun e => e.1 / 2 ^ 17 == k % 2 && s.vertSlice e.2.a.parent == some (k / 2)).map (·.1)).foldl
    (fun s i => sampleQueue i s) s

/-- QUEUE_SAMPLE (R349). -/
def execQueueSample (k : Nat) (s : State) : Host.Outcome State Fault Refusal :=
  island (sliceBlk (k / 2) (2 * (k % 2) + 1)) (queueSample k) s

/-! ### The dequeue walk (R332, R344, R345) -/

/-- Queues under a root. -/
def State.rootQueues (s : State) (root : Nat) : List Nat :=
  (s.sch.q.filter fun e => s.rootOf s.treeFuel e.2.a.parent == some root).map (·.1)

/-- The nodes of a root's tree, the root first. -/
def State.rootNodes (s : State) (root : Nat) : List Nat :=
  vxKey root :: ((Tab.keys s.sch.v).filter fun v => decide (768 ≤ v) && s.rootOf s.treeFuel v == some root).map vxKey ++ s.rootQueues root

/-- The root's framer or MAC accepts a packet: a framer while less than one frame's bytes wait, a MAC that is up while no
frame waits (notes/assumptions/41.md). -/
def State.rootAccepts (s : State) (root : Nat) : Bool :=
  if root < 512 then
    decide ((((s.dsCh root).gems.map fun x => x.bytes + 8).foldl (· + ·) 0) < fsBytes (s.paramN 0x1020 root))
  else s.portUp (root - 512) && (Tab.getD s.sch.tx (root - 512) []).isEmpty

/-- The pipeline of a root's egress half. -/
def rootPipe (root : Nat) : Nat := 2 * rootSlice root + (if root < 512 then 0 else 1)

/-- The roots of pipeline k's egress half. -/
def halfRoots (k : Nat) : List Nat :=
  if k % 2 = 0 then (List.range 64).map (64 * (k / 2) + ·) else (List.range 32).map (512 + 32 * (k / 2) + ·)

/-- The root that pipeline k's egress half takes next (R332): in turn, among those whose framer or MAC accepts a packet. -/
def State.nextRoot (s : State) (k : Nat) : Option Nat :=
  let ok := (halfRoots k).filter s.rootAccepts
  match Tab.get? s.sch.lastRoot k with
  | some r => ((ok.find? (r < ·)).orElse fun _ => ok.head?)
  | none => ok.head?

/-! ### Residence time (R409, R410) -/

/-- A frame between a PON channel and an uplink: its correction is counted, by port or by 256 + ONU handle (R409, R410). -/
def tcCount (scope : Nat) (os : List Nat) (s : State) : State :=
  match ptpTransit (s.paramN 0x6002 0) (s.paramN 0x6003 0) os with
  | some true => bump .tcCorrected scope s
  | some false => bump .tcSkip scope s
  | none => s

/-- The arrival of a PTP event message from an uplink, which the framer corrects (R409). -/
def State.tcMessage (s : State) (c : Chain) : Option Nat :=
  if c.hdr.srcKind = 1 && !c.hdr.srcHost && ptpTransit (s.paramN 0x6002 0) (s.paramN 0x6003 0) c.octets == some true then
    some c.arr
  else none

/-- A frame leaves its queue for the framer or the MAC: its chain ends there. -/
def emit (root k : Nat) (d : Desc) (s : State) : State :=
  match s.chain d.cell, s.queue k with
  | some c, some q =>
    let s := freeChain d.cell s
    if root < 512 then
      let x : DsGem := { bytes := c.octets.length, dest := c.hdr.dest, up := c.hdr.upOnu, bal := c.hdr.len, len := c.octets.length,
                         gem := q.gem, enc := s.encryptAt q.gem c.encNo, octets := c.octets, ptp := s.tcMessage c }
      let s := match c.hdr.dest with
        | some h => if c.hdr.srcKind = 1 && !c.hdr.srcHost then tcCount (256 + h) c.octets s else s
        | none => s
      onDsCh root (fun f => { f with gems := f.gems ++ [x] }) s
    else
      let p := root - 512
      let rr := d.lag.bind fun g => if ((s.lagOf g).map (·.roundRobin)).getD false then some (g, d.bucket) else none
      let x : TxFrame := { octets := c.octets, len := c.octets.length, up := c.hdr.upOnu, bal := c.hdr.len, dest := none, lag := rr,
                           since := s.clk.now, arr := c.arr, srcKind := c.hdr.srcKind, source := c.hdr.source, srcHost := c.hdr.srcHost }
      { s with sch := { s.sch with tx := Tab.upd s.sch.tx p [] (· ++ [x]) } }
  | _, _ => s

/-- A packet is dequeued along a path, queue last (R332 to R334). -/
def dequeue (root : Nat) (path : List Nat) (s : State) : State :=
  match path.getLast? with
  | none => s
  | some k =>
    match (s.queue k).bind (·.head.head?) with
    | none => s
    | some d =>
      let l := s.frameLen d.cell
      let s := (vxKey root :: path).foldl (fun s n => chargeNode n l s) s
      let s := onQueue k (fun q => { q with head := q.head.drop 1, waited := false }) s
      let s := if s.chainBad d.cell then dropChain .dropQueue k 0x26 d.cell s else emit root k d s
      let s := path.reverse.foldl (fun s n => settleDeficit n l s) s
      refill k s

/-- A mode 2 frame is due: its queue's shaper at pf1.omci_rate is at a level of 0 or more (R499). -/
def State.omciDue (s : State) (g : Nat) : Option TxFrame :=
  match Tab.getD s.sch.omci g [] with
  | [] => none
  | x :: _ => if s.levelOk (Tab.getD s.sch.omciB g {}) (s.paramN 0x0101 g) 0 then some x else none

/-- A mode 2 frame goes to the framer. -/
def sendOmci (g : Nat) (x : TxFrame) (s : State) : State :=
  let b := (Tab.getD s.sch.omciB g {}).refresh (s.paramN 0x0101 g) 0 s.clk15
  let h := x.dest.getD 0
  let y : DsGem := { bytes := x.len, dest := x.dest, len := x.len, gem := Config.omciGem h, omci := true, enc := x.enc,
                     octets := x.octets }
  onDsCh g (fun f => { f with gems := f.gems ++ [y] })
    { s with sch := { s.sch with omci := Tab.upd s.sch.omci g [] (·.drop 1), omciB := Tab.set s.sch.omciB g (b.1.charge x.len) } }

/-- DEQUEUE_WALK (R332): the walk of one root, when its egress half takes it next; out of turn it does nothing. The walk reads
the levels of the root's tree (R335). A root whose own maximum shaper is below 0 gives no packet. -/
def dequeueWalk (root : Nat) (s : State) : State :=
  if s.nextRoot (rootPipe root) != some root then s
  else
    let s := { s with sch := { s.sch with lastRoot := Tab.set s.sch.lastRoot (rootPipe root) root } }
    match if root < 512 then s.omciDue root else none with
    | some x => sendOmci root x s
    | none =>
      let s := testHeads (s.rootQueues root) ((s.rootNodes root).foldl (fun s k => readNode k s) s)
      match s.vert root with
      | none => s
      | some x =>
        if !s.maxOk x.a x.bmax then s
        else
          match walkDown s.treeFuel root s with
          | ([], s) => bump .schedEmptyWalk root s
          | (path, s) => rejoin root (dequeue root path s)

/-- DEQUEUE_WALK (R332). -/
def execDequeueWalk (root : Nat) (s : State) : Host.Outcome State Fault Refusal :=
  if 768 ≤ root then .next s
  else island (sliceBlk (rootSlice root) (if root < 512 then 1 else 3)) (dequeueWalk root) s

/-! ### Uplink transmission (R263, R424) -/

/-- The uplink I/O die of a port: 4 west, 5 east. -/
def uplinkDie (p : Nat) : Nat := if p < 128 then 4 else 5

/-- The MAC of a port corrects a PTP event message that came from an ONU at the egress timestamp point (R409). -/
def tcSend (p : Nat) (f : TxFrame) (s : State) : State :=
  let vx := s.paramN 0x6002 0
  let gn := s.paramN 0x6003 0
  if ptpTransit vx gn f.octets == some true then
    let res : Int := (ltbFrac (ltbWord64 s.stamp64) : Int) - ltbFrac f.arr
    { s.drawn with sch := { s.sch with tcOut := Tab.set s.sch.tcOut p (tcCorrect vx gn res f.octets) } }
  else s

/-- UPLINK_FRAME_TRANSMIT: the port's frame is sent whole, when the group's earlier frames have started (R263); the tap
credits it (R424), the ledger counts its bytes delivered. -/
def frameTransmit (p : Nat) (s : State) : State :=
  match Tab.getD s.sch.tx p [] with
  | [] => s
  | f :: rest =>
    let may := match f.lag with
      | some (g, n) => ((s.lagOf g).map fun l => decide (n ≤ l.started)).getD true
      | none => true
    if !may || !s.portUp p then s
    else
      let s := { s with sch := { s.sch with tx := if rest.isEmpty then Tab.erase s.sch.tx p else Tab.set s.sch.tx p rest } }
      let s := match f.lag with
        | some (g, n) => onLag g (fun l => { l with started := max l.started (n + 1) }) s
        | none => s
      let s := bwCount (2 * p + 1) f.len s
      let s := match f.up with
        | some h => tcSend p f (tcCount p f.octets (onuBytesOut h 1 f.bal (tapCredit (uplinkDie p) h 1 f.len s)))
        | none => s
      rejoin (512 + p) s

/-- UPLINK_FRAME_TRANSMIT (R424). -/
def execUplinkFrameTransmit (port : Nat) (s : State) : Host.Outcome State Fault Refusal :=
  if 256 ≤ port then .next s else island (upBlk (port / 8)) (frameTransmit port) s

end Sys2Proof.Machine
end

