-- ==== Sys2Proof/Machine/IngressBase.lean ====
section
/-! DEFINITION. What an ingress half does with a packet once it is parsed: drops, punts, exact-match lookups, policers,
destinations, tributary feeds, recorded fragment decisions (R235 to R239, R259 to R264, R266, R275 to R285, R339). -/

namespace Sys2Proof.Machine

/-- The ingress halves' state changed. -/
def onCls (f : ParS → ParS) (s : State) : State := { s with cls := f s.cls }

/-- The ingress half of pipeline k. -/
def inBlk (k : Nat) : Nat := sliceBlk (k / 2) (2 * (k % 2))

/-- The index of a packet's source. -/
def Pkt.src (p : Pkt) : Nat := srcIdx p.srcKind p.source

/-- The index of a packet's arrival port: port p, or 256 + its channel pair. -/
def Pkt.arrival (p : Pkt) : Nat := if p.dir = 0 then p.source else 256 + p.g

/-- Bytes that the packet's balance holds: its length at its arrival, decapsulated or not. -/
def State.pktLen (s : State) (p : Pkt) : Nat :=
  match p.chain.bind s.chain with
  | some c => c.hdr.len
  | none => p.octets.length

/-- A packet leaves: its chain is freed, and the bytes of its ONU source end. -/
def endPkt (p : Pkt) (s : State) : State :=
  let n := s.pktLen p
  let s := match p.chain with
    | some c => freeChain c s
    | none => s
  if p.srcKind = 0 then onuBytesOut p.source 1 n s else s

/-- A packet is dropped, counted for its source (R266). -/
def dropPkt (p : Pkt) (code : Nat) (s : State) : State := countSource p.srcKind p.source false code (endPkt p s)

/-- A packet goes to the exception ring of PF1 (R497). -/
def puntPkt (k : Nat) (p : Pkt) (reason : Nat) (s : State) : State :=
  let x : Punt := {
    ring := s.paramN 0x0100 reason, octets := p.octets, reason := reason, dir := p.dir, sourceKind := p.srcKind,
    source := p.source, ltb := p.at_, gem := p.gem, tc := p.tc, onu := if p.srcKind = 0 then some p.source else none,
    chain := p.chain }
  let s := match p.chain with
    | some c => handOver c 52 1 s
    | none => s
  { s with host := { s.host with puntQ := s.host.puntQ ++ [(k, x)] } }

/-- The punt's packet leaves: its chain is freed, the bytes of its ONU end (R32, R500). -/
def puntGone (x : Punt) (s : State) : State :=
  let n := match x.chain.bind s.chain with
    | some c => c.hdr.len
    | none => x.octets.length
  let s := match x.chain with
    | some c => freeChain c s
    | none => s
  match x.onu with
  | some h => onuBytesOut h 1 n s
  | none => s

/-! ### Allocation at the parser input (R296, R303, R305) -/

/-- The packet with its chain; none when it was dropped. Requester 20 gives the cells of an injected frame (R498). The chain
keeps the time of arrival (R409). -/
def takeIn (k : Nat) (p : Pkt) (s : State) : Option Pkt × State :=
  if let some c := p.chain then (some p, onChain c (fun x => { x with arr := p.at_ }) s)
  else if maxPacket < p.octets.length then (none, dropPkt p 0x20 s)
  else
    let n := p.octets.length
    let r := if p.inj then 20 else k
    let hdr : ChainHdr := { len := n, cells := cellsOf n, dir := p.dir, srcKind := p.srcKind, source := p.source, srcHost := false,
                            dest := none, queue := 0, enqNs := 0 }
    match allocChain r 1 k hdr p.octets s with
    | (.ok c, s) => (some { p with chain := some c }, onChain c (fun x => { x with arr := p.at_ }) s)
    | (.error e, s) =>
      let s := if p.srcKind = 0 then onuBytesOut p.source 1 n s else s
      (none, bump .dropReq (256 * r + e) s)

/-! ### Epochs (R239) -/

/-- A slice's Facet state. -/
def State.facet (s : State) (sl : Nat) : FacetSl := Tab.getD s.cls.facet sl {}

/-- Clocks of every 8 that a slice's groups do not search in: the lower rate of R248 and R249. -/
def State.withheld (s : State) (sl : Nat) : Nat := max (s.facet sl).level (if 1 ≤ s.sagStage then 2 else 0)

/-- PID 0x6017 (R249): the level n in [3:0] and the searching clocks of every 8 in [7:4]; the places are the model's (DESIGN
CHOICE, notes/assumptions/105.md). -/
def State.throttleValue (s : State) (sl : Nat) : Nat := fields [(4, 8 - s.withheld sl), (4, (s.facet sl).level)]

/-- A slice's Facet state changed. -/
def onFacet (sl : Nat) (f : FacetSl → FacetSl) (s : State) : State :=
  onCls (fun c => { c with facet := Tab.upd c.facet sl {} f }) s

/-- Packets in flight of the epochs of a parity. -/
def FacetSl.inFlight (x : FacetSl) (parity : Nat) : Nat := if parity % 2 = 0 then x.inEven else x.inOdd

/-- The in-flight count of a parity changed. -/
def onInFlight (sl parity : Nat) (f : Nat → Nat) (s : State) : State :=
  onFacet sl (fun x => if parity % 2 = 0 then { x with inEven := f x.inEven } else { x with inOdd := f x.inOdd }) s

/-! ### Facet search (R233, R236) -/

/-- The record of all zeros: a FORWARD to queue 0. -/
def ActionRec.zero : ActionRec :=
  { type := 0, destKind := 0, dest := 0, policer := 0, counter := 0, emProfile := 0, tc := 0, mirror := 0, puntReason := 0,
    decap := 0, trib := 0, seqOffset := 0 }

/-- The key of a record. -/
def recKeyOf (page grp i : Nat) : Nat := (page * 2 + grp) * 16384 + i

/-- A record of a page. -/
def FacetSl.record (x : FacetSl) (page grp i : Nat) : ActionRec := Tab.getD x.recs (recKeyOf page grp i) ActionRec.zero

/-- A cascade runs (R251). -/
def State.cascading (s : State) : Bool := decide (1 < s.paramN 0x6020 0)

/-- The bank of a physical index lies in the cascade partition of its group. -/
def State.inPartition (s : State) (sl grp index : Nat) : Bool :=
  s.cascading && bit (s.paramN 0x6022 (2 * sl + grp)) (index / 2048)

/-- The entries that match a key in a page, in the banks of the cascade partition or in the others. -/
def State.matching (s : State) (sl grp page width key : Nat) (part : Bool) : List (Nat × FacetEntry) :=
  ((s.facet sl).entry.filter fun e => e.1 / 16384 == grp && e.2.valid && bit e.2.pg page && e.2.width == width
    && Nat.land key e.2.mask == e.2.value && s.inPartition sl grp (e.1 % 16384) == part).map fun e => (e.1 % 16384, e.2)

/-- The highest priority wins, then the lowest index: the entries come in rising order of index. -/
def bestEntry (es : List (Nat × FacetEntry)) : Option (Nat × FacetEntry) :=
  es.foldl (fun b e => match b with
    | none => some e
    | some x => if x.2.prio < e.2.prio then some e else some x) none

/-! ### Exact-match lookups (R275 to R277) -/

/-- The VID of the outer tag, 0 for an untagged frame: a tag behind a tunnel does not tag it (R276). -/
def Parse.vid (p : Parse) : Nat := if p.tagged then p.outerTci % 4096 else 0

/-- The destination key of a lookup kind, when the headers it needs were parsed: 1 MAC, 2 IPV4_HOST, 3 IPV6_HOST, 4 FLOW4
(R273, R275). The result is a key kind and a key. -/
def emKey (kind bd vrf : Nat) (p : Parse) : Option (Nat × Nat) :=
  match kind with
  | 1 => if p.heads.any (fun e => e.1 == .eth) then some (0, fields [(16, bd), (48, p.dmac), (80, 0)]) else none
  | 2 => if p.ipVer = 1 then some (1, fields [(16, vrf), (32, p.dip), (96, 0)]) else none
  | 3 => if p.ipVer = 2 then some (2, fields [(16, vrf), (128, p.dip)]) else none
  | 4 => if p.ipVer = 1 && p.l4.isSome then
      some (3, fields [(16, vrf), (32, p.sip), (32, p.dip), (8, p.proto), (16, p.sport), (16, p.dport), (24, 0)])
    else none
  | _ => none

/-- A destination lookup: the entry found. A lookup that cannot run counts as a miss (R276). -/
def destLookup (sl kind bd vrf : Nat) (p : Parse) (s : State) : Option EmEnt × State :=
  if kind = 0 then (none, s)
  else
    match emKey kind bd vrf p with
    | some (ek, key) => emLookup sl ek key s
    | none => (none, bump .emMisses sl s)

/-- A learn notification enters the slice's queue, unless the filter has its key and source within 1 ms (R283). -/
def notify (sl : Nat) (n : LearnNote) (s : State) : State :=
  let fl := (Tab.getD s.em.filter sl []).filter fun e => decide (s.clk.now < e.2 + msT 1)
  if fl.any fun e => e.1 == n then s
  else
    let fl := (if 256 ≤ fl.length then fl.drop 1 else fl) ++ [(n, s.clk.now)]
    let s := onEm (fun m => { m with filter := Tab.set m.filter sl fl }) s
    let q := Tab.getD s.em.learnQ sl []
    if 1024 ≤ q.length then bump .learnQueueFull sl s
    else onEm (fun m => { m with learnQ := Tab.set m.learnQ sl (q ++ [n]) }) s

/-- The source lookup (R283): true when the packet is punted because its learn was refused (R285). -/
def sourceLookup (sl bd : Nat) (p : Pkt) (prs : Parse) (s : State) : Bool × State :=
  if !prs.heads.any fun e => e.1 == .eth then (false, bump .emMisses sl s)
  else
    let key := fields [(16, bd), (48, prs.smac), (80, 0)]
    let n : LearnNote := { key := key, srcKind := p.srcKind, source := p.source, bd := bd }
    let (hit, s) := emLookup sl 0 key s
    if hit.any fun e => !e.noOwner && e.ownerKind == p.srcKind && e.owner == p.source then (false, s)
    else (s.em.refused.contains n && s.param 0x7023 p.src == 1, notify sl n s)

/-- A destination of all ones: the lookups give it. -/
def destAllOnes : Nat := 2 ^ 17 - 1

/-- A FORWARD record with its destination and class resolved by the lookups of its profile, or turned into a punt
(R237, R275 to R277). -/
def resolve (sl : Nat) (p : Pkt) (prs : Parse) (a : ActionRec) (s : State) : ActionRec × State :=
  let a := { a with type := 0 }
  let pr := if a.emProfile = 0 then 0 else s.paramN 0x7010 a.emProfile
  let cls := s.paramN 0x6012 p.src
  let bd := s.paramN 0x7012 (cls * 4096 + prs.vid)
  let vrf := s.paramN 0x7013 cls
  let (hit, s) := destLookup sl (bits pr 22 20) bd vrf prs s
  let (limited, s) := if bit pr 19 then sourceLookup sl bd p prs s else (false, s)
  let punt (reason : Nat) : ActionRec := { a with type := 2, puntReason := reason }
  match hit with
  | some e =>
    let a := { a with tc := if e.tcValid then e.tc else a.tc
                      destKind := if a.dest = destAllOnes then e.destKind else a.destKind
                      dest := if a.dest = destAllOnes then e.dest else a.dest }
    (if limited then { a with type := 2, puntReason := 0x82 } else a, s)
  | none =>
    if limited then (punt 0x82, s)
    else if a.dest = destAllOnes then
      (if bit pr 18 then { a with destKind := bits pr 17 17, dest := bits pr 16 0 } else punt 0x81, s)
    else (a, s)

/-! ### Policing (R339) -/

/-- Whether the packet conforms to policer i of the slice, which is charged; index 0 polices nothing. -/
def police (sl i : Nat) (l : Nat) (s : State) : Bool × State :=
  if i = 0 then (true, s)
  else
    let key := polKey sl i
    match Tab.get? s.sch.pol key with
    | none => (true, bump .policerUnset sl s)
    | some x =>
      if !x.r.valid then (true, bump .policerUnset sl s)
      else
        let n := s.counted x.r.lenProfile l
        let (b, add, cut) := x.b.refresh x.r.rate x.r.burst s.clk15
        let ok := decide ((n * 65536 : Nat) ≤ b.level)
        let b1 := if ok then b.charge n else b
        let s := { s with sch := { s.sch with pol := Tab.set s.sch.pol key { x with b := b1 } } }
        let s := cutTokens (2 ^ 20 + key) cut (ledTokens (2 ^ 20 + key) add (b.level - b1.level).toNat cut s)
        if ok then (true, bumpBy .polConformBytes key n (bump .polConformPkts key s))
        else (false, bumpBy .polDropBytes key n (bump .polDropPkts key s))

/-! ### Destinations -/

/-- The length of a chain's header, which its descriptor carries (R300). -/
def State.hdrLen (s : State) (cell : Nat) : Nat := ((s.chain cell).map fun c => c.hdr.len).getD 0

/-- A descriptor enters the crossbar toward the egress half of pipeline e (R15). One FIFO per receiving pipeline keeps the
order of arrival among source slices too, which the rule leaves open (DESIGN CHOICE, notes/assumptions/91.md). -/
def toXbar (e : Nat) (d : Desc) (s : State) : State :=
  onCls (fun c => { c with xbar := Tab.upd c.xbar e [] (· ++ [d]) }) s

/-- The packet goes to a queue of a direction, if it exists. -/
def toQueue (k : Nat) (p : Pkt) (dir id tc : Nat) (s : State) : State :=
  match p.chain, s.queue (queueKey dir id) with
  | some c, some q =>
    let e := 2 * ((s.vertSlice q.a.parent).getD (k / 2)) + dir
    toXbar e { cell := c, len := s.hdrLen c, queue := id, tc := tc, dir := dir } (writeHdr c (queueKey dir id) s)
  | _, _ => bump .dropPipe (256 * k + 0x33) (endPkt p s)

/-- The packet goes to an aggregation group (R262 to R264): the member of a round robin is chosen on arrival at the egress
half, the member of a hash by the packet's bucket. -/
def toGroup (p : Pkt) (grp tc : Nat) (s : State) : State :=
  match p.chain, s.lagOf grp with
  | some c, some l =>
    let d : Desc := { cell := c, len := s.hdrLen c, queue := 0, tc := tc, dir := 1, lag := some grp, bucket := p.hash }
    if l.up.isEmpty then bump .lagNoMember grp (dropPkt p 0x17 s)
    else if l.roundRobin then toXbar (2 * (l.ports.headD 0 / 32) + 1) d s
    else
      match l.member p.hash with
      | none => bump .lagNoMember grp (dropPkt p 0x17 s)
      | some m =>
        match s.portQueue m tc with
        | some u => toXbar (2 * (m / 32) + 1) { d with queue := u } (writeHdr c (queueKey 1 u) s)
        | none => bump .dropPort (256 * m + 0x33) (endPkt p s)
  | _, _ => dropPkt p 0x17 s

/-- A tributary feed (R237, R92): the sequence number at seq_offset, then the client octets up to the FCS. -/
def feedTrib (p : Pkt) (a : ActionRec) (s : State) : State :=
  let client := (p.octets.take (p.octets.length - 4)).drop (a.seqOffset + 2)
  let seq := octetsAt p.octets a.seqOffset 2
  match Tab.get? s.ds.trib a.trib with
  | none => dropPkt p 0x18 s
  | some t =>
    if client.length != t.a.feedPayload then dropPkt p 0x18 s
    else
      let late := match t.lastFeed with
        | some l => decide (32768 ≤ (seq + 65536 - l - 1) % 65536)
        | none => false
      feedWrite a.trib seq client (if late then dropPkt p 0x1A s else endPkt p s)

/-- A hit of a record's counter (R235). -/
def countHit (sl grp : Nat) (a : ActionRec) (s : State) : State :=
  onFacet sl (fun x => { x with hits := Tab.upd x.hits (grp * 2 ^ 20 + a.counter) 0 fun n => (n + 1) % 2 ^ 64 }) s

/-- The copy of a packet for a mirror session (R237), a chain of its own (R296). No rule says where a session's copies go:
the copy is recorded as leaving for its session, and its chain is freed (DESIGN CHOICE, notes/assumptions/104.md). -/
def mirrorCopy (k : Nat) (p : Pkt) (session : Nat) (s : State) : State :=
  if session = 0 then s
  else
    let n := p.octets.length
    let hdr : ChainHdr := { len := n, cells := cellsOf n, dir := p.dir, srcKind := p.srcKind, source := p.source,
                            srcHost := p.inj, dest := none, queue := 0, enqNs := 0 }
    match allocChain k 1 k hdr p.octets s with
    | (.ok c, s) => onCls (fun x => { x with mirrored := x.mirrored ++ [(session, p.octets)] }) (freeChain c s)
    | (.error e, s) => bump .dropReq (256 * k + e) s

/-- A resolved record takes effect on the packet: FORWARD, DROP, PUNT or TRIB_FEED. A packet that its policer drops is not
mirrored (DESIGN CHOICE, notes/assumptions/104.md). -/
def conclude (k : Nat) (p : Pkt) (a : ActionRec) (s : State) : State :=
  match a.type with
  | 1 => dropPkt p 0x13 s
  | 2 => puntPkt k p a.puntReason s
  | _ =>
    match police (k / 2) a.policer p.octets.length (countHit (k / 2) (k % 2) a s) with
    | (false, s) => bump .dropPol (256 * polKey (k / 2) a.policer + 0x30) (endPkt p s)
    | (true, s) =>
      let s := mirrorCopy k p a.mirror s
      if a.type = 5 then feedTrib p a s
      else if a.destKind = 1 then toGroup p a.dest a.tc s
      else toQueue k p (k % 2) (if k % 2 = 0 then a.dest else a.dest % 8192) a.tc s

/-! ### Fragments (R259 to R261) -/

/-- A slice's fragment table. -/
def State.fragTab (s : State) (sl : Nat) : Tab FragEnt := Tab.getD s.cls.frag sl []

/-- A held fragment returns to its ingress half and takes a decision. -/
def releaseFrag (sl : Nat) (a : ActionRec) (h : FragHeld) (s : State) : State :=
  let k := 2 * sl + h.pkt.dir
  let s := match h.pkt.chain with
    | some c => handOver c k 1 s
    | none => s
  conclude k h.pkt a s

/-- The held fragments of a key leave the hold list with the decision, in their order of arrival. -/
def releaseHeld (sl key : Nat) (a : ActionRec) (s : State) : State :=
  let l := Tab.getD s.cls.held sl []
  let s := onCls (fun c => { c with held := Tab.set c.held sl (l.filter fun h => h.key != key) }) s
  (l.filter fun h => h.key == key).foldl (fun s h => releaseFrag sl a h s) s

/-- The entry unused longest, the lowest key of several. -/
def oldestFrag (t : Tab FragEnt) : Option Nat :=
  (t.foldl (fun b e => match b with
    | none => some (e.1, e.2.used)
    | some x => if e.2.used < x.2 then some (e.1, e.2.used) else some x) none).map (·.1)

/-- A first fragment's decision enters the table. -/
def recordFrag (sl key : Nat) (a : ActionRec) (s : State) : State :=
  let t := s.fragTab sl
  let ent : FragEnt := { act := a, destKind := a.destKind, dest := a.dest, used := s.clk.now }
  let s := bump .fragFirst sl s
  let put (t : Tab FragEnt) (s : State) : State := onCls (fun c => { c with frag := Tab.set c.frag sl (Tab.set t key ent) }) s
  if (Tab.get? t key).isSome then put t (bump .fragReplace sl s)
  else if 4096 ≤ t.length then put (((oldestFrag t).map (Tab.erase t)).getD t) (bump .fragEvict sl s)
  else put t s

/-- Classification ends with a resolved record (R239, R260): the packet leaves its epoch's count; a first fragment takes a
RECIRC as a PUNT, its decision is recorded, and the fragments that wait for it follow it. -/
def finish (k : Nat) (p : Pkt) (prs : Parse) (a : ActionRec) (s : State) : State :=
  let sl := k / 2
  let s := onInFlight sl p.stamp (· - 1) s
  if prs.fragFirst && !p.pass2 then
    releaseHeld sl prs.fragKey a (conclude k p a (recordFrag sl prs.fragKey a s))
  else conclude k p a s

/-- FORWARD, or a record that falls back to it. -/
def forward (k : Nat) (p : Pkt) (prs : Parse) (a : ActionRec) (s : State) : State :=
  match resolve (k / 2) p prs a s with
  | (r, s) => finish k p prs r (if r.type = 2 then countHit (k / 2) (k % 2) a s else s)

/-- RECIRC (R16, R237): the leading headers are removed and the packet waits for its second pass. -/
def recirc (k : Nat) (p : Pkt) (prs : Parse) (a : ActionRec) (s : State) : State :=
  if p.pass2 then bump .recircLimit p.arrival (dropPkt p 0x11 (onInFlight (k / 2) p.stamp (· - 1) s))
  else if prs.fragFirst then finish k p prs { a with type := 2, puntReason := 0x86 } s
  else
    let hs := prs.heads.reverse
    let cut : Nat × Nxt := ((hs[a.decap]?).map fun e => (e.2, Nxt.hdr e.1)).getD (prs.pos, prs.next)
    let os := p.octets.drop cut.1
    let s := match p.chain with
      | some c => onChain c (fun x => { x with octets := os }) s
      | none => s
    onCls (fun c => { c with recirc := Tab.upd c.recirc k [] (· ++ [{ p with octets := os, pass2 := true, hdrFrom := cut.2 }]) }) s

end Sys2Proof.Machine
end

