-- ==== Sys2Proof/Machine/Cascade.lean ====
section
/-! DEFINITION. Cascading across devices (R251 to R258). -/

namespace Sys2Proof.Machine

/-- The cascade's state changed. -/
def onCasc (f : CascS → CascS) (s : State) : State := onCls (fun c => { c with casc := f c.casc }) s

/-- The cascade's length and this device's position. -/
def State.cascLen (s : State) : Nat := s.paramN 0x6020 0
/-- This device's position. -/
def State.cascPos (s : State) : Nat := s.paramN 0x6021 0

/-- Slots of the numbering cycle (R252). -/
def slotCycle : Nat := 12441600

/-- The search slot in progress, counted without end: 24,300 slots a superframe (R252). -/
def State.slotNow (s : State) : Nat := 24300 * s.clk.sfc + s.clk.ltb % 311040 * 5 / 64

/-- Uplink groups in mode 4, ascending: the Ixrardo links of the device. -/
def State.ixrGroups (s : State) : List Nat := (List.range 32).filter fun u => s.paramN 0x1500 u == 4

/-- Ixrardo links a position needs. -/
def linksNeeded (len pos : Nat) : Nat := if len ≤ 1 then 0 else if pos = 0 || pos + 1 = len then 1 else 2

/-- The link toward the head and the link toward the last position (notes/assumptions/35.md): of two links the lower group's
leads toward the head. -/
def State.upLink (s : State) : Option Nat := if s.cascPos = 0 then none else s.ixrGroups[0]?
/-- The link toward the last position. -/
def State.downLink (s : State) : Option Nat :=
  if s.cascLen ≤ s.cascPos + 1 then none else if s.cascPos = 0 then s.ixrGroups[0]? else s.ixrGroups[1]?

/-- A link of the chain is up. -/
def State.linkUp (s : State) (l : Option Nat) : Bool :=
  match l with
  | some u => s.ixrUp.contains u
  | none => false

/-! ### Training (R253, R256) -/

/-- Slots of training: 4,096, in `now` ticks. -/
def trainTicks : Nat := ceilDiv (4096 * 64) 5

/-- A slice's MATCH pairs train. -/
def trainSlice (sl : Nat) (s : State) : State :=
  onCasc (fun c => { c with trained := Tab.set c.trained sl false
                            trainEnd := Tab.set c.trainEnd sl (s.clk.now + trainTicks)
                            rxEnd := Tab.set c.rxEnd sl (s.clk.now + trainTicks) }) s

/-- Every MATCH pair of the device trains. How the head's order of R256 reaches the other positions is not stated, and no
row of theirs takes it (notes/assumptions/106.md). -/
def trainAll (s : State) : State :=
  (List.range 8).foldl (fun s sl => trainSlice sl s) (onCasc (fun c => { c with bad := [] }) s)

/-- The value of a symbol's bits, most significant first (DESIGN CHOICE, notes/assumptions/110.md). -/
def bitsNat (l : List Bool) : Nat := l.foldl (fun n b => 2 * n + flag b) 0

/-- Symbols in a row that lock a receiver. -/
def matchLock : Nat := 64

/-- One bit of the training sequence (R253): a symbol that breaks the count moves the candidate by one bit; a receiver that is
locked counts on. -/
def MatchRx.bit (x : MatchRx) (b : Bool) : MatchRx :=
  let part := x.part ++ [b]
  if part.length < 4 then { x with part := part }
  else if matchLock ≤ x.run then { x with part := [], last := x.last.map fun l => (l + 1) % 16 }
  else
    let v := bitsNat part
    match x.last with
    | none => { x with part := [], last := some v }
    | some l =>
      if v = (l + 1) % 16 then { x with part := [], last := some v, run := x.run + 1 }
      else { cand := (x.cand + 1) % 4, part := part.drop 1, last := none, run := 0 }

/-- The receiver over the bits of a line. -/
def MatchRx.train (x : MatchRx) : List Bool → MatchRx
  | [] => x
  | b :: bs => (x.bit b).train bs

/-- An Ixrardo link of the chain has come up. -/
def cascLinkUp (s : State) : State := if s.cascading then trainAll s else s

/-- The receiver of a slice is locked. -/
def State.cascLocked (s : State) (sl : Nat) : Bool := Tab.getD s.cls.casc.trained sl false

/-- The receiver of a slice after the bits that its line carried in the training period, whose last symbol is that of the slot
before the present one less the line's lag. -/
def State.lineTrained (s : State) (sl : Nat) (line : List Bool) : MatchRx :=
  let x := { cand := (Tab.getD s.cls.casc.rx sl {}).cand : MatchRx }.train line
  { x with lag := (s.slotNow + 31 - x.last.getD 0) % 16 }

/-- The slot of a symbol that MATCH_IN carries in a slot, by the receiver's count (R253). -/
def State.symbolSlot (s : State) (sl slot : Nat) : Nat :=
  (slot + slotCycle - (Tab.getD s.cls.casc.rx sl {}).lag) % slotCycle

/-- MATCH_TRAINING_END (R253): the line carried these bits in the period; the last position receives no MATCH_IN. A receiver
that is not locked trains again; what MATCH_OUT sends does not change for that. -/
def trainingEnd (sl : Nat) (line : List Bool) (s : State) : State :=
  match Tab.get? s.cls.casc.rxEnd sl with
  | none => s
  | some t =>
    if s.clk.now < t then s
    else
      let x := s.lineTrained sl line
      let last := s.cascPos + 1 == s.cascLen
      let s := onCasc (fun c => { c with rx := Tab.set c.rx sl (if last then {} else x) }) s
      if matchLock ≤ x.run || last then
        onCasc (fun c => { c with trained := Tab.set c.trained sl true, rxEnd := Tab.erase c.rxEnd sl }) s
      else onCasc (fun c => { c with rxEnd := Tab.set c.rxEnd sl (s.clk.now + trainTicks) }) s

/-- MATCH_TRAINING_END (R253). -/
def execMatchTrainingEnd (slice : Nat) (line : List Bool) (s : State) : Host.Outcome State Fault Refusal :=
  guardBlks [sliceBlk slice 0] (fun s => .next (trainingEnd slice line s)) s

/-- CASCADE_ENABLE (R251, R268, R394): the partition of every bank group, by 2 × slice + group. -/
def cascadeEnable (length position : Nat) (partition : List Nat) (s : State) : State × Option Reply :=
  if length = 0 || 4 < length || length ≤ position || partition.length != 16 || partition.any (255 < ·) then deny .badArg s
  else if !s.ltbSet then deny .badState s
  else if s.ixrGroups.length < linksNeeded length position then deny .limit s
  else
    let s := setParam 0x6021 0 position (setParam 0x6020 0 length s)
    let s := partition.zipIdx.foldl (fun s e => setParam 0x6022 e.2 e.1 s) s
    done (if 1 < length then trainAll s else onCasc (fun c => { c with trained := [], trainEnd := [], rxEnd := [] }) s)

/-- CASCADE_ENABLE (R268). -/
def execCascadeEnable (q : Req) (length position : Nat) (partition : List Nat) (s : State) :
    Host.Outcome State Fault Refusal :=
  kilak q 0x6008 (cascadeEnable length position partition) s

/-! ### Frames (R257) -/

/-- Octets of a key record. -/
def keyRecLen (w : Nat) : Nat := 8 + 20 * 2 ^ w

/-- The key of a wait. -/
def waitKey (sl tag : Nat) : Nat := sl * 2 ^ 32 + tag

/-- The key of a position's own result. -/
def ownKey (sl slot : Nat) : Nat := sl * 2 ^ 24 + slot

/-- A key cannot reach the next position: this position answers 0xF for its slot (R255, R258). -/
def keyUnsent (r : CascadeKey) (s : State) : State :=
  onCasc (fun c => { c with
    waits := match Tab.get? c.waits (waitKey r.slice r.tag) with
      | some w => if s.cascPos = 0 then Tab.set c.waits (waitKey r.slice r.tag) { w with own := 15 } else c.waits
      | none => c.waits
    own := match Tab.get? c.own (ownKey r.slice (r.slot % slotCycle)) with
      | some o => Tab.set c.own (ownKey r.slice (r.slot % slotCycle)) { o with level := 15 }
      | none => c.own }) s

/-- The open key frame of a slice is closed and sent. -/
def closeKeys (sl : Nat) (s : State) : State :=
  match Tab.getD s.cls.casc.keyOpen sl [], s.downLink with
  | [], _ => s
  | fr, l =>
    let s := onCasc (fun c => { c with keyOpen := Tab.erase c.keyOpen sl }) s
    match l with
    | some u =>
      if s.linkUp l then onCasc (fun c => { c with keySent := c.keySent ++ [fr] }) (ixrSeq u 3 ((fr.map fun r => keyRecLen r.width).foldl (· + ·) 0) s).2
      else fr.foldl (fun s r => keyUnsent r s) s
    | none => fr.foldl (fun s r => keyUnsent r s) s

/-- The open result frame of a slice is closed and sent. -/
def closeResults (sl : Nat) (s : State) : State :=
  match Tab.getD s.cls.casc.resOpen sl [], s.upLink with
  | [], _ => s
  | fr, l =>
    let s := onCasc (fun c => { c with resOpen := Tab.erase c.resOpen sl }) s
    match l with
    | some u =>
      if s.linkUp l then onCasc (fun c => { c with resSent := c.resSent ++ [fr] }) (ixrSeq u 4 (32 * fr.length) s).2 else s
    | none => s

/-- A key record enters the open frame, which closes when the record does not fit. -/
def sendKey (r : CascadeKey) (s : State) : State :=
  let len := ((Tab.getD s.cls.casc.keyOpen r.slice []).map fun x => keyRecLen x.width).foldl (· + ·) 0
  let s := if 1488 < len + keyRecLen r.width then closeKeys r.slice s else s
  onCasc (fun c => { c with keyOpen := Tab.upd c.keyOpen r.slice [] (· ++ [r]) }) s

/-- A result record enters the open frame. -/
def sendResult (r : CascadeResult) (s : State) : State :=
  let n := (Tab.getD s.cls.casc.resOpen r.slice []).length
  let s := if 1488 < 32 * (n + 1) then closeResults r.slice s else s
  onCasc (fun c => { c with resOpen := Tab.upd c.resOpen r.slice [] (· ++ [r]) }) s

/-- CASCADE_FRAME_CLOSE (R257): 64 ns after the first record of a frame. -/
def execCascadeFrameClose (slice : Nat) (result : Bool) (s : State) : Host.Outcome State Fault Refusal :=
  guardBlks [sliceBlk slice 0] (fun s => .next (if result then closeResults slice s else closeKeys slice s)) s

/-! ### Searches (R254 to R256) -/

/-- The level and the entry of a position's own partition for a key: the entry's priority is its level. -/
def State.ownMatch (s : State) (sl grp width key : Nat) : Nat × Nat × ActionRec :=
  let page := (s.facet sl).epoch % 2
  match bestEntry (s.matching sl grp page width key true) with
  | some (i, e) => (e.prio, i, (s.facet sl).record page grp e.action)
  | none => (0, 0, ActionRec.zero)

/-- The parse of a packet's pass. -/
def State.parsed (s : State) (p : Pkt) : Parse := parseFrame (s.paramN 0x6002 0) (s.paramN 0x6003 0) p.hdrFrom p.octets

/-- An incomplete search (R256): reason code 0x15 or 0x16, with the punt reasons 0x84 and 0x85. No decision is recorded for
the fragments of a packet that is dropped or punted here. -/
def incomplete (k : Nat) (p : Pkt) (a : ActionRec) (code : Nat) (s : State) : State :=
  let s1 := onInFlight (k / 2) p.stamp (· - 1) s
  match s.paramN 0x6025 0 with
  | 0 => dropPkt p code s1
  | 1 => puntPkt k p (if code = 0x15 then 0x84 else 0x85) s1
  | _ => forward k p (s.parsed p) a s

/-- The final symbol was 0xF, or the search could not start. -/
def searchIncomplete (k : Nat) (p : Pkt) (a : ActionRec) (s : State) : State :=
  incomplete k p a 0x15 (bump .cascadeIncomplete (k / 2) s)

/-- A mismatch or a timeout; the sixteenth within 1 ms makes the chain retrain (R256). -/
def cascBad (s : State) : State :=
  let l := (s.cls.casc.bad.filter fun t => decide (s.clk.now < t + msT 1)) ++ [s.clk.now]
  if 16 ≤ l.length then trainAll s else onCasc (fun c => { c with bad := l }) s

/-- A wait ends. -/
def dropWait (sl tag : Nat) (s : State) : State := onCasc (fun c => { c with waits := Tab.erase c.waits (waitKey sl tag) }) s

/-- Applying the record that won: its fields in the head's own terms. A record that asks for a cascade, a recirculation or a
drop acts as it would locally, but no second cascade starts. -/
def applyWinner (k : Nat) (p : Pkt) (a : ActionRec) (s : State) : State :=
  let prs := s.parsed p
  match a.type with
  | 0 => forward k p prs a s
  | 3 => forward k p prs a s
  | 4 => recirc k p prs a s
  | _ => finish k p prs a s

/-- The slot of a new search: the next free one that lies at least slot_lead ahead (R254). -/
def State.nextSlot (s : State) (sl : Nat) : Nat :=
  let taken := (s.cls.casc.waits.filter fun e => e.1 / 2 ^ 32 == sl).map fun e => e.2.slot
  let first := s.slotNow + s.paramN 0x6023 0
  (((List.range (taken.length + 1)).map (first + ·)).find? fun n => !taken.contains n).getD first

/-- CASCADE (R237, R254): the head sends the key and waits; a device that heads no cascade falls back. -/
def cascade (k : Nat) (p : Pkt) (prs : Parse) (a : ActionRec) (width key : Nat) (s : State) : State :=
  let sl := k / 2
  if !s.cascading || s.cascPos != 0 then forward k p prs a s
  else
    let s := bump .cascadeSearches sl s
    let mine := (s.cls.casc.waits.filter fun e => e.1 / 2 ^ 32 == sl).length
    if 2048 ≤ mine || !s.cascLocked sl || !s.linkUp s.downLink then searchIncomplete k p a s
    else
      let slot := s.nextSlot sl
      let tag := s.cls.casc.nextTag % 2 ^ 32
      let (lvl, _, r) := s.ownMatch sl (k % 2) width key
      let w : CascWait := { pkt := p, act := a, slot := slot, own := lvl, ownRec := if lvl = 0 then none else some r }
      sendKey { slice := sl, width := width, slot := slot % slotCycle, tag := tag, key := key }
        (onCasc (fun c => { c with waits := Tab.set c.waits (waitKey sl tag) w, nextTag := tag + 1 }) s)

/-- A result for a wait whose final symbol is known (R256). -/
def takeResult (sl tag : Nat) (w : CascWait) (final level : Nat) (a : ActionRec) (s : State) : State :=
  let k := 2 * sl + w.pkt.dir
  let s := dropWait sl tag s
  if level = final then applyWinner k w.pkt a s
  else incomplete k w.pkt w.act 0x16 (cascBad (bump .cascadeMismatch sl s))

/-- The head reads the final symbol of a slot: it combines its own level with MATCH_IN (R255, R256). -/
def headSymbol (sl tag : Nat) (w : CascWait) (sym : Nat) (s : State) : State :=
  let k := 2 * sl + w.pkt.dir
  let sym := if s.cascLocked sl then sym % 16 else 15
  if sym = 15 || w.own = 15 then searchIncomplete k w.pkt w.act (dropWait sl tag s)
  else if sym = 0 && w.own = 0 then forward k w.pkt (s.parsed w.pkt) w.act (dropWait sl tag s)
  else if sym ≤ w.own then applyWinner k w.pkt (w.ownRec.getD ActionRec.zero) (dropWait sl tag s)
  else
    match w.res with
    | some (level, a) => takeResult sl tag w sym level a s
    | none =>
      let w := { w with final := some sym, until_ := s.clk.now + usT (s.paramN 0x6024 0) }
      onCasc (fun c => { c with waits := Tab.set c.waits (waitKey sl tag) w }) s

/-- MATCH_OUT sends its training sequence (R253). -/
def State.cascTraining (s : State) (sl : Nat) : Bool := (Tab.get? s.cls.casc.trainEnd sl).any fun t => decide (s.clk.now < t)

/-- A position behind the head combines and drives MATCH_OUT (R255); at the last position MATCH_IN is 0x0; while it trains it sends the slot number
mod 16. -/
def tailSymbol (sl slot sym : Nat) (s : State) : State :=
  let slot := slot % slotCycle
  let own := Tab.get? s.cls.casc.own (ownKey sl slot)
  let last := s.cascPos + 1 == s.cascLen
  let inSym := if last then 0 else if s.cascLocked sl then sym % 16 else if own.isSome then 15 else 0
  let lvl := (own.map (·.level)).getD 0
  let out := if s.cascTraining sl then slot % 16 else if lvl = 15 || inSym = 15 then 15 else max lvl inSym
  let won := decide (lvl ≠ 0) && decide (lvl ≠ 15) && decide (inSym ≠ 15) && decide (inSym ≤ lvl)
  let s := onCasc (fun c => { c with
    out := Tab.set c.out sl (slot, out)
    own := match own with
      | none => c.own
      | some o => if won then Tab.set c.own (ownKey sl slot) { o with won := true, until_ := s.clk.now + usT (s.paramN 0x6024 0) }
        else Tab.erase c.own (ownKey sl slot) }) s
  match own with
  | some o =>
    if won then
      sendResult { slice := sl, position := s.cascPos, slot := slot, tag := o.tag, level := o.level, index := o.index,
                   action := o.act } s
    else s
  | none => s

/-- MATCH_SYMBOL (R254 to R256): the symbol that MATCH_IN carries in a slot; the receiver's count says which slot it is of. -/
def matchSymbol (sl slot sym : Nat) (s : State) : State :=
  let at_ := s.symbolSlot sl slot
  if !s.cascading then s
  else if s.cascPos = 0 then
    match s.cls.casc.waits.find? fun e => e.1 / 2 ^ 32 == sl && e.2.slot % slotCycle == at_ && e.2.final.isNone with
    | some (i, w) => headSymbol sl (i % 2 ^ 32) w sym s
    | none => s
  else tailSymbol sl at_ sym s

/-- MATCH_SYMBOL (R255). -/
def execMatchSymbol (slice slot sym : Nat) (s : State) : Host.Outcome State Fault Refusal :=
  guardBlks [sliceBlk slice 0, sliceBlk slice 2] (fun s => .next (matchSymbol slice slot sym s)) s

/-- The direction bit of a key's head (R231). -/
def keyDir (width key : Nat) : Nat := flag (bit key (keyBits width - 5))

/-- Own results whose time has passed are forgotten. -/
def pruneOwn (s : State) : State :=
  onCasc (fun c => { c with own := c.own.filter fun e => !e.2.won || decide (s.clk.now < e.2.until_) }) s

/-- The next position can be reached: there is none, or its link is up (R258). -/
def State.downReach (s : State) : Bool := s.downLink.isNone || s.linkUp s.downLink

/-- A key record received (R254, R255) is relayed, then searched; `inTime` says it came before its slot. Where the
next position cannot be reached, this one answers 0xF for the slot, so that the search ends incomplete (R258; DEDUCED,
notes/assumptions/106.md). -/
def takeKey (r : CascadeKey) (inTime : Bool) (s : State) : State :=
  let s := if s.downLink.isSome then sendKey r s else s
  let (lvl, i, a) := s.ownMatch r.slice (keyDir r.width r.key) r.width r.key
  let o : CascOwn := { tag := r.tag, level := if inTime && s.downReach then lvl else 15, index := i, act := a }
  onCasc (fun c => { c with own := Tab.set c.own (ownKey r.slice (r.slot % slotCycle)) o }) s

/-- CASCADE_KEY_RECEIVE (R257): one frame of one sequence number, whose payload is a sequence of records; of each `inTime` says
whether it came before its slot. -/
def cascadeKey (link seq : Nat) (rs : List CascadeKey) (inTime : List Bool) (s : State) : State :=
  let s := (ixrArrive link 3 seq s).2
  if !s.cascading || s.cascPos = 0 then s
  else (rs.zip inTime).foldl (fun s e => takeKey e.1 e.2 s) (pruneOwn s)

/-- CASCADE_KEY_RECEIVE (R254). -/
def execCascadeKeyReceive (link seq : Nat) (rs : List CascadeKey) (inTime : List Bool) (s : State) :
    Host.Outcome State Fault Refusal :=
  island (ixrBlk link) (cascadeKey link seq rs inTime) s

/-- A result record received (R255, R256): one for a search that timed out is counted as late; one that the head's own entry has
beaten is just discarded. -/
def takeRecord (r : CascadeResult) (s : State) : State :=
  if s.cascPos = 0 then
    match Tab.get? s.cls.casc.waits (waitKey r.slice r.tag) with
    | none =>
      let i := waitKey r.slice r.tag
      if s.cls.casc.timedOut.contains i then
        bump .cascadeLateResult r.slice (onCasc (fun c => { c with timedOut := c.timedOut.filter (· != i) }) s)
      else s
    | some w =>
      match w.final with
      | some f => takeResult r.slice r.tag w f r.level r.action s
      | none => onCasc (fun c => { c with
          waits := Tab.set c.waits (waitKey r.slice r.tag) { w with res := some (r.level, r.action) } }) s
  else
    let s := pruneOwn s
    match Tab.get? s.cls.casc.own (ownKey r.slice (r.slot % slotCycle)) with
    | some o => if o.won then s else sendResult r s
    | none => sendResult r s

/-- CASCADE_RESULT_RECEIVE (R257): one frame of one sequence number, whose payload is a sequence of records. -/
def cascadeResult (link seq : Nat) (rs : List CascadeResult) (s : State) : State :=
  let s := (ixrArrive link 4 seq s).2
  if !s.cascading then s else rs.foldl (fun s r => takeRecord r s) s

/-- CASCADE_RESULT_RECEIVE (R256). -/
def execCascadeResultReceive (link seq : Nat) (rs : List CascadeResult) (s : State) : Host.Outcome State Fault Refusal :=
  island (ixrBlk link) (cascadeResult link seq rs) s

/-- CASCADE_TIMEOUT (R256). -/
def cascadeTimeout (sl tag : Nat) (s : State) : State :=
  match Tab.get? s.cls.casc.waits (waitKey sl tag) with
  | none => s
  | some w =>
    if w.final.isSome && decide (w.until_ ≤ s.clk.now) then
      let s := onCasc (fun c => { c with timedOut := c.timedOut ++ [waitKey sl tag] }) (dropWait sl tag s)
      incomplete (2 * sl + w.pkt.dir) w.pkt w.act 0x16 (cascBad (bump .cascadeTimeout sl s))
    else s

/-- CASCADE_TIMEOUT (R256). -/
def execCascadeTimeout (slice tag : Nat) (s : State) : Host.Outcome State Fault Refusal :=
  guardBlks [sliceBlk slice 0, sliceBlk slice 2] (fun s => .next (cascadeTimeout slice tag s)) s

end Sys2Proof.Machine
end

