-- ==== Sys2Proof/Machine/Maps.lean ====
section
/-! DEFINITION. The burst engine: block budgets, fixed pattern sets, the page check, execution and replay at a boundary,
and the commands of R165 (R141 to R167). -/

namespace Sys2Proof.Machine

/-! ### Layout -/

/-- The code of a kind (R145). -/
def EntryKind.code (k : EntryKind) : Nat := k.ctorIdx

/-- The 80 bits of an entry (R144); SN_WINDOW and QUIET carry the marker values. -/
def entryWord (e : MapEntry) : Nat :=
  let a := match e.kind with
    | .snWindow => 0x1FFFF
    | .quiet => 0
    | _ => e.alloc
  let o := match e.kind with
    | .snWindow | .quiet => 0
    | _ => e.onu
  fields [(1, 1), (3, EntryKind.code e.kind), (17, a), (19, e.start), (19, e.len), (1, flag e.cont), (1, e.profile),
    (2, e.rate), (1, flag e.ploamu), (1, flag e.dbru), (15, o)]

/-- The 96 bits of a fixed pattern entry (R149). -/
def fixedWord (f : FixedEntry) : Nat := fields [(11, 0), (2, f.periodLog2), (3, f.phase), (80, entryWord f.entry)]

/-- Ticks before start_tick that an entry's burst takes: preamble and delimiter, none for a cont or QUIET entry. -/
def lead (e : MapEntry) : Nat :=
  if e.cont || e.kind == .quiet then 0 else preTicks e.rate e.profile + delTicks e.rate e.profile

/-- The entry as the framer encodes it (R146): start rounded down and length up to the grid. -/
def onGrid (e : MapEntry) : MapEntry :=
  if e.kind == .quiet then e
  else { e with start := e.start / gridTicks e.rate * gridTicks e.rate, len := ceilDiv e.len (gridTicks e.rate) * gridTicks e.rate }

/-- The interval an entry takes: from start_tick - pre - del to start_tick + len_ticks. -/
def span (e : MapEntry) : Int × Int := ((e.start : Int) - lead e, (e.start : Int) + e.len)

/-! ### Fixed pattern sets (R149 to R151) -/

/-- The current and the next set as they stand at a superframe: on a spare, from its first superframe, those copied to it. -/
def MapCh.fixedSets (m : MapCh) (sfc : Nat) : Option FixedSet × Option FixedSet :=
  match m.fixedStage with
  | some x => if x.1 ≤ sfc then x.2 else (m.fixedCur, m.fixedNext)
  | none => (m.fixedCur, m.fixedNext)

/-- The set in force at a superframe. -/
def MapCh.fixedAt (m : MapCh) (sfc : Nat) : List FixedEntry :=
  let f := m.fixedSets sfc
  match f.2 with
  | some n => if n.actSfc ≤ sfc then n.entries else ((f.1.map (·.entries)).getD [])
  | none => (f.1.map (·.entries)).getD []

/-- An entry is due in superframe S (R149). -/
def fixedDue (f : FixedEntry) (sfc : Nat) : Bool := sfc % 2 ^ f.periodLog2 == f.phase

/-- The ONU of an entry's allocation has acknowledged it, so that it may be granted (R176). -/
def State.fixedAcked (s : State) (f : FixedEntry) : Bool := ((Tab.get? s.map.alloc f.entry.alloc).map (·.acked)).getD false

/-- Overlap of an interval with another, less than guard apart. -/
def touches (a b : Int × Int) (guard : Int) : Bool := decide (a.1 < b.2 + guard) && decide (b.1 < a.2 + guard)

/-! ### The page check (R152) -/

/-- Rules 4, 7, 8 and 9 and 10 of one entry, those that do not depend on its neighbours: the code of the first that
fails. -/
def entryRule (s : State) (g sfc : Nat) (e : MapEntry) : Option Nat :=
  let addressed := e.kind == .dynamic || e.kind == .fixed || e.kind == .ranging
  let o := Tab.get? s.onu.ctx e.onu
  let bound := (Tab.get? s.map.alloc e.alloc).map (·.onu) == some e.onu
  let spared := s.spareAt e.onu == some g
  let here := spared || match o with
    | some o => o.g == g || (match o.tune with
      | some t => 8 * o.tree + t.target == g
      | none => false)
    | none => false
  let st := (o.map (·.state)).getD .free
  let stateOk := match e.kind with
    | .ranging => st == .ranging || st == .confirm || st == .tuning || spared
    | _ => decide (4 ≤ st.ctorIdx ∧ st.ctorIdx ≤ 10)
  let rateOk := if addressed then
      ((o.map fun o => rateAt o sfc == e.rate).getD false) && decide (e.rate ≤ s.usRateMax g)
    else if e.kind == .snWindow then e.rate == s.baseRate g
    else true
  let profOk := e.profile == 0 || (((o.map (·.seeded)).getD false) && s.param 0x1020 g != 0 && e.kind != .snWindow && e.kind != .ranging)
  if addressed && !(bound && here) then some 4
  else if addressed && !stateOk then some 7
  else if addressed && s.isQuiet e.onu g sfc then some 8
  else if !rateOk || (s.param 0x1020 g == 0 && e.rate != 0) then some 9
  else if !profOk then some 10
  else none

/-- The rules of one entry after the one before it, in the order of their codes: the code of the first that fails. `res` are
the intervals reserved by the set in force, `grants` and `quiets` the entries so far with this one. -/
def entryCheck (s : State) (g sfc guard budget : Nat) (res : List FixedEntry) (prev : Option MapEntry) (grants quiets : Nat)
    (e0 : MapEntry) : Option Nat :=
  let e := onGrid e0
  let sp := span e
  let ordered := match prev with
    | some p => decide (p.start ≤ e.start)
    | none => true
  let own := entryRule s g sfc e
  let continues := e.cont && (match prev with
    | some p => p.start + p.len == e.start && p.onu == e.onu && p.profile == e.profile && p.rate == e.rate
    | none => false)
  let spaced := match prev with
    | some p => continues || decide ((span p).2 + guard ≤ sp.1)
    | none => true
  let clear := res.all fun f => (e0.kind == .fixed && decide (f.entry = e0)) || decide (sp.2 ≤ (span (onGrid f.entry)).1)
    || decide ((span (onGrid f.entry)).2 ≤ sp.1)
  if !ordered then some 1
  else if decide (sp.1 < 0) || decide (e.start + e.len + guard > 311040) then some 2
  else if decide (min (32 * budget) 512 < grants) || decide (8 < quiets) then some 3
  else if own == some 4 then some 4
  else if !spaced || !clear then some 5
  else if e.cont && !continues then some 6
  else own

/-- The first failing rule over the entries, in entry order, with its index. `due` are the FIXED entries of rule 11 still to
come. -/
def entriesCheck (s : State) (g sfc guard budget : Nat) (res : List FixedEntry) :
    List MapEntry → Option MapEntry → Nat → Nat → List MapEntry → Nat → Option (Nat × Nat)
  | [], _, _, _, due, i => if due.isEmpty then none else some (11, i)
  | e :: es, prev, n, q, due, i =>
    let n := n + flag (isGrant e)
    let q := q + flag (!isGrant e)
    match entryCheck s g sfc guard budget res prev n q e with
    | some r => some (r, i)
    | none =>
      if e.kind == .fixed && !due.contains e then some (11, i)
      else entriesCheck s g sfc guard budget res es (some (onGrid e)) n q (due.erase e) (i + 1)

/-- The page check of R152 for channel pair g, target superframe and budget: the first failing rule and the entry index. The
FIXED entries of an allocation that receives no grant yet (R176) are none of the page's (notes/assumptions/102.md). -/
def checkPage (s : State) (g sfc budget : Nat) (es : List MapEntry) : Option (Nat × Nat) :=
  let res := (s.mapCh g).fixedAt sfc
  let due := (res.filter fun f => fixedDue f sfc && !(s.mapCh g).withheld.contains f.entry.alloc).map (·.entry)
  entriesCheck s g sfc (s.paramN 0x4010 0) budget res es none 0 0 due 0

/-! ### Commands (R165) -/

/-- The budget that counts toward R147: the larger of what its pages have adopted and what is set (R148). -/
def State.budgetOf (s : State) (g : Nat) : Nat :=
  let m := s.mapCh g
  max (s.paramN 0x4020 g) (max m.budgetA m.budgetS)

/-- MAP_BUDGET_SET (R147, R148). -/
def execMapBudgetSet (q : Req) (g b : Nat) (s : State) : Host.Outcome State Fault Refusal :=
  kilak q 0x4000 (fun s =>
    if 512 ≤ g then deny .badArg s
    else if 16 < b then deny .limit s
    else
      let others := ((List.range 512).filter (· != g)).foldl (fun a i => a + s.budgetOf i) 0
      let m := s.mapCh g
      if others + max b (max m.budgetA m.budgetS) > 4096 then deny .limit s else done (setParam 0x4020 g b s)) s

/-- The ONU's ladder has ended: at its limit after OPERATION, or given up (R45). -/
def State.ladderEnded (s : State) (o : Onu) : Bool :=
  o.ladder.phase == 4 || (o.ladder.phase == 0 && decide (8 ≤ o.state.ctorIdx ∧ o.state.ctorIdx ≤ 10)
    && decide (s.ladderMax o ≤ o.curRate))

/-- Rules 1, 2, 5, 6 and 10 among the entries of a set, whatever their phases (R150); and the rate of each ONU, whose
ladder must have ended (R151). -/
def fixedSetOk (s : State) (g : Nat) (es : List FixedEntry) : Bool :=
  let guard := s.paramN 0x4010 0
  let rec go : List FixedEntry → Option MapEntry → Bool
    | [], _ => true
    | f :: fs, prev =>
      let e := onGrid f.entry
      let sp := span e
      let ok := (match prev with
        | some p => decide (p.start ≤ e.start) && (e.cont || decide ((span p).2 + guard ≤ sp.1))
        | none => true)
        && decide (0 ≤ sp.1) && decide (e.start + e.len + guard ≤ 311040)
        && (!e.cont || (match prev with
          | some p => p.start + p.len == e.start && p.onu == e.onu && p.profile == e.profile && p.rate == e.rate
          | none => false))
        && (e.profile == 0 || (((Tab.get? s.onu.ctx e.onu).map (·.seeded)).getD false && s.param 0x1020 g != 0))
      ok && go fs (some e)
  go es none && es.all fun f =>
    match (Tab.get? s.map.alloc f.entry.alloc).bind fun a => Tab.get? s.onu.ctx a.onu with
    | some o => f.entry.kind == .fixed && f.entry.rate == o.curRate && s.ladderEnded o
    | none => false

/-- FIXED_PATTERN_LOAD (R150). -/
def execFixedPatternLoad (q : Req) (g actSfc : Nat) (entries : List FixedEntry) (s : State) :
    Host.Outcome State Fault Refusal :=
  kilak q 0x4001 (fun s =>
    let m := s.mapCh g
    if 512 ≤ g then deny .badArg s
    else if m.fixedNext.isSome || m.fixedStage.isSome then deny .busy s
    else if actSfc < s.clk.sfc + 8 || 128 < entries.length || 32 * s.paramN 0x4020 g < entries.length then deny .limit s
    else if !fixedSetOk s g entries then deny .badArg s
    else done (onMap g (fun m => { m with fixedNext := some { actSfc := actSfc, entries := entries } }) s)) s

/-- FIXED_PATTERN_READ (R165). -/
def execFixedPatternRead (q : Req) (g : Nat) (next : Bool) (s : State) : Host.Outcome State Fault Refusal :=
  kilak q 0x4002 (fun s =>
    let m := s.mapCh g
    match (if next then m.fixedNext else m.fixedCur) with
    | some f => doneWith [.u 51 f.actSfc, .lst 12 (f.entries.map fixedWord)] s
    | none => doneWith [.u 51 0] s) s

/-- Page states as MapPageRead reports them: 0 WRITABLE, 1 COMMITTED, 2 ACTIVE (R28). -/
def MapCh.stateCode (m : MapCh) (standby : Bool) : Nat := if standby then (if m.commit.isSome then 1 else 0) else 2

/-- MAP_PAGE_READ (R165): BUSY if the page changes state during the read. -/
def execMapPageRead (q : Req) (g : Nat) (standby changes : Bool) (s : State) : Host.Outcome State Fault Refusal :=
  kilak q 0x4003 (fun s =>
    let m := s.mapCh g
    if 512 ≤ g then deny .badArg s
    else if changes then deny .busy s
    else doneWith [.u 64 (m.stateCode standby), .u 51 (if standby then m.standbyTarget else m.activeTarget),
      .lst 10 ((if standby then m.standby else m.active).map entryWord)] s) s

/-- MAP_STATS (R166). -/
def execMapStats (q : Req) (g : Nat) (s : State) : Host.Outcome State Fault Refusal :=
  kilak q 0x4004 (fun s =>
    if 512 ≤ g then deny .badArg s
    else doneWith ([Ctr.mapPages, .mapReject, .mapLate, .mapReplay, .mapLateRun, .mapStall, .pageRefusedMap, .grantsCreated,
      .grantsExecuted, .grantsReturned, .grantsCancelled, .grantTicks, .overheadTicks, .quietTicks].map fun c =>
        RVal.u 64 (s.count c g)) s) s

/-- ONU_GRANT_STATS (R167). -/
def execOnuGrantStats (q : Req) (h : Nat) (s : State) : Host.Outcome State Fault Refusal :=
  kilak q 0x4005 (fun s =>
    if s.onuState h == .free then deny .badState s
    else doneWith (([Ctr.onuGrants, .onuGrantTicks, .onuGrantsReturned, .onuGrantsCancelled, .onuFixedGrants].map fun c =>
        RVal.u 64 (s.count c h)) ++ [.u 51 (Tab.getD s.map.lastGrantSfc h 0)]) s) s

/-! ### Check, execution and replay -/

/-- MAP_PAGE_CHECK_DONE (R152, R153). -/
def pageCheckDone (g : Nat) (s : State) : State :=
  let m := s.mapCh g
  match m.commit with
  | none => s
  | some c =>
    if c.check != .waiting then s
    else
      match checkPage s g c.target m.budgetS m.standby with
      | none => onMap g (fun m => { m with commit := some { c with check := .passed } }) s
      | some (r, i) =>
        let s := onMap g (fun m => { m with commit := some { c with check := .failed r i } }) s
        marverTrouble (g / 8) (event 0x4000 [.u 9 g, .u 51 c.target, .u 8 r, .u 16 i] (bump .mapReject g s))

/-- MAP_PAGE_CHECK_DONE (R152). -/
def execMapPageCheckDone (g : Nat) (s : State) : Host.Outcome State Fault Refusal := island (ponBlk g) (pageCheckDone g) s

/-- A window that was returned before it ever ran is asked for again: for an ONU in RANGING without counting toward
range.max_tries, for one that retunes or moves to a spare on the same channel pair (R159). -/
def windowAgain (g : Nat) (e : MapEntry) (s : State) : State :=
  match e.kind with
  | .snWindow => requestWindow g .snWindow 0 (s.discQuiet g) s
  | .ranging =>
    match Tab.get? s.onu.ctx e.onu with
    | none => s
    | some o =>
      if o.state == .ranging then askRanging e.onu (onOnu e.onu (fun o => { o with tries := o.tries - 1 }) s)
      else if o.tune.isSome || (Tab.get? s.map.spare e.onu).isSome then requestWindow g .ranging e.onu (s.rangeQuiet g) s
      else s
  | _ => s

/-- One grant of superframe sfc returned. -/
def grantReturned (g sfc : Nat) (e : MapEntry) (s : State) : State :=
  let s := ledGrantEnd g sfc 1 (bump .grantsReturned g s)
  if e.kind == .snWindow then s else bump .onuGrantsReturned e.onu s

/-- Grants scheduled for superframe sfc. -/
def grantsCreatedN (g sfc n : Nat) (s : State) : State := ledGrant g sfc n (bumpBy .grantsCreated g n s)

/-- Supply sag at the framer read (R164): from stage S4 the entry is returned. -/
def sagReturns (s : State) (e : MapEntry) : Bool :=
  decide (4 ≤ s.sagStage) && (match e.kind with
    | .dynamic => !e.ploamu && !e.dbru
    | .fixed => !(s.ds.trib.any fun t => t.2.a.alloc == e.alloc)
    | _ => false)

/-- The ONU has had an executed grant on channel pair g since its last delineated burst (R220). -/
def setGranted (g h : Nat) (s : State) : State :=
  { s with rx := { s.rx with onu := Tab.upd s.rx.onu (8 * h + g % 8) {} fun r => { r with granted := true } } }

/-- One entry executed (R155): counters, the ONU's last grant, and where it is the first grant that serves a report, the latency
from the report to the grant's place on the upstream time line (R194). -/
def execEntry (g sfc : Nat) (e : MapEntry) (s : State) : State :=
  if e.kind == .quiet then bumpBy .quietTicks g e.len s
  else
    let s := ledGrantEnd g sfc 1 (bump .grantsExecuted g (bumpBy .grantTicks g e.len s))
    let s := if e.cont then s else bumpBy .overheadTicks g (s.paramN 0x4010 0 + lead e) s
    if e.kind == .snWindow then s
    else
      let s := bumpBy .onuGrantTicks e.onu e.len (bump .onuGrants e.onu s)
      let s := if e.kind == .fixed then bump .onuFixedGrants e.onu s else s
      let s := if e.kind == .ranging then s else setGranted g e.onu s
      let s := { s with map := { s.map with lastGrantSfc := Tab.set s.map.lastGrantSfc e.onu sfc } }
      match Tab.get? s.map.alloc e.alloc with
      | some a =>
        match a.latFrom with
        | some t0 =>
          if (a.latGrant.map (· % 311040)) != some e.start then s
          else
            let v := ticksNs (sfc * 311040 + s.upRef g + e.start - t0)
            histSample (.onuLat e.onu) v e.onu (histSample (.allocLat e.alloc) v e.alloc
              (onAlloc e.alloc (fun x => { x with latFrom := none, latGrant := none }) s))
        | none => s
      | none => s

/-- The expectation that an entry opens. -/
def expectOf (s : State) (g sfc : Nat) (e : MapEntry) : Expect :=
  let arrival := sfc * 311040 + s.upRef g + e.start - lead e
  { sfc := sfc, kind := e.kind, onu := e.onu, rate := e.rate, profile := e.profile, arrival := arrival, len := e.len,
    allocs := [(e.alloc, e.len, e.dbru, e.ploamu)], onuId := (Tab.get? s.onu.ctx e.onu).bind (·.onuId) }

/-- An entry goes on the burst of the entry before it (R152 rule 6). -/
def joins (p e : MapEntry) : Bool :=
  e.cont && p.start + p.len == e.start && p.onu == e.onu && p.profile == e.profile && p.rate == e.rate

/-- Expectations of executed entries, one per burst (R156): a cont entry joins the burst it continues. One whose burst lost the
entry before it stands alone, and no BURST event goes out for it (R157). -/
def expectations (s : State) (g sfc : Nat) : List MapEntry → Option MapEntry → List Expect → List Expect
  | [], _, acc => acc.reverse
  | e :: es, prev, acc =>
    match acc with
    | x :: xs =>
      if prev.any fun p => joins p e then
        expectations s g sfc es (some e)
          ({ x with len := x.len + e.len, allocs := x.allocs ++ [(e.alloc, e.len, e.dbru, e.ploamu)] } :: xs)
      else expectations s g sfc es (some e) ({ expectOf s g sfc e with noReset := e.cont } :: acc)
    | [] => expectations s g sfc es (some e) [{ expectOf s g sfc e with noReset := e.cont }]

/-- No BURST event goes out for an expected burst: it has no reset (R59, R581). -/
def noReset (g : Nat) (x : Expect) (s : State) : State :=
  onMap g (fun m => { m with expect := m.expect.map fun y => if y == x then { y with noReset := true } else y }) s

/-- The tick_offset that moves a burst's BURST event (R62): its ONU's; none for a serial-number window, which names no ONU. It is
read at the boundary that posts the burst, not when the frame leaves (DESIGN CHOICE, notes/assumptions/90.md). -/
def State.burstOffset (s : State) (g : Nat) (x : Expect) : Int :=
  if x.kind == .snWindow then 0 else (s.phaseEnt x.onu (g % 8)).tickOffset

/-- One BURST event (R61, R62, R157, R581): carried by the latest frame that leaves its time in 288 to 4,095 and has a free
slot, an earlier one where the six slots of the latest are taken; counted in SBL_TX_MISSED when that frame has begun to
leave. Its param is 0, no RSSI trigger; CONFIG events are never sent (DESIGN CHOICE, notes/assumptions/90.md). -/
def sendBurst (g : Nat) (x : Expect) (s : State) : State :=
  let t := g / 8
  let k := Tab.getD s.lane.link t {}
  let d := k.delay.getD 0
  let off := s.burstOffset g x
  let act : Int := (x.arrival : Int) + off - s.paramN 0x1300 0
  let f0 := ((act - d - 288) / 256).toNat
  let f := ((List.range 14).map (f0 - ·)).find? fun f => decide (k.carried f < 6) && decide (act - d - 256 * f ≤ 4095)
  match f with
  | some f =>
    if f < s.sbFrameNow + 1 then bump .sblTxMissed t (noReset g x s)
    else { s with lane := { s.lane with link := Tab.set s.lane.link t { k with
      out := k.out ++ [{ frame := f, chan := g % 8, type := 0x1, time := (act - d - 256 * f).toNat, param := 0 }] } } }
  | none => bump .sblTxMissed t (noReset g x s)

/-- The entries of a page that a superframe other than its target executes, after the first step of R159: FIXED entries
replaced by those due that may be granted (R176). -/
def refix (s : State) (g sfc : Nat) (es : List MapEntry) : List MapEntry :=
  let due := (((s.mapCh g).fixedAt sfc).filter fun f => fixedDue f sfc && s.fixedAcked f).map (·.entry)
  let rest := es.filter fun e => e.kind != .fixed
  (rest ++ due).mergeSort fun a b => decide (a.start ≤ b.start)

/-- An entry that a replay or late run returns (R159 steps 2 to 4; R161 for a stall). -/
def replayReturns (s : State) (g sfc guard : Nat) (stall : Bool) (res : List FixedEntry) (e : MapEntry) : Bool :=
  match e.kind with
  | .quiet | .fixed => (e.kind == .fixed) && (match entryRule s g sfc e with
    | some r => r != 10
    | none => false)
  | .snWindow | .ranging => true
  | .dynamic =>
    stall || (match entryRule s g sfc e with
      | some r => r != 10
      | none => false) || res.any fun f => touches (span e) (span (onGrid f.entry)) guard

/-- The arrival schedule as it takes the expectations of superframe sfc (R156): windows and quiet intervals of five superframes
ago are past; a burst's expectation stays until its burst or its evaluation ends it (R207). -/
def MapCh.schedule (m : MapCh) (sfc : Nat) (xs : List Expect) : List Expect :=
  (m.expect.filter fun x => x.kind == .dynamic || x.kind == .fixed || decide (sfc < x.sfc + 5)) ++ xs

/-- The entries executed for a superframe: each returned or executed, expectations posted, BURST events sent. -/
def runEntries (g sfc : Nat) (es : List (MapEntry × Bool)) (s : State) : State :=
  let es := es.map fun x => (onGrid x.1, x.2 || sagReturns s x.1)
  let run := (es.filter fun x => !x.2).map (·.1)
  let s := es.foldl (fun s x => if x.2 then grantReturned g sfc x.1 s else execEntry g sfc x.1 s) s
  let xs := expectations s g sfc run none []
  let s := onMap g (fun m => { m with
    bwmap := run.filter isGrant
    expect := m.schedule sfc xs }) s
  if (Tab.getD s.lane.ch g {}).rx == .active then
    xs.foldl (fun s x => if x.kind == .quiet || x.noReset then s else sendBurst g x s) s
  else xs.foldl (fun s x => noReset g x s) s

/-- A page executed for a superframe other than its target, entry by entry (R159, R161): a late one's windows, which never ran,
are asked for again. The windows that a replay returns ran in their own superframe, and Bexed counted them there
(DEDUCED, notes/assumptions/101.md). -/
def replayPage (g sfc : Nat) (stall late : Bool) (es : List MapEntry) (s : State) : State :=
  let m := s.mapCh g
  let es := (refix s g sfc es).map onGrid
  let s := grantsCreatedN g sfc (es.filter isGrant).length s
  let guard := s.paramN 0x4010 0
  let s := runEntries g sfc (es.map fun e => (e, replayReturns s g sfc guard stall (m.fixedAt sfc) e)) s
  if late then es.foldl (fun s e => windowAgain g e s) s else s

/-- The grant of a page has been cancelled: its ONU was released; the marker of a serial-number window names none (R152). -/
def MapCh.lost (m : MapCh) (e : MapEntry) : Bool := isGrant e && m.cancelled.contains e.onu && e.kind != .snWindow

/-- The standby page's grants that still count as created for its target are returned (R162). -/
def returnStandby (g : Nat) (s : State) : State :=
  let m := s.mapCh g
  (m.standby.filter fun e => isGrant e && !m.lost e).foldl (fun s e => grantReturned g m.standbyTarget e s) s

/-- A COMMITTED page withdrawn by its core, before it became ACTIVE (R31, R162): its grants are returned, its windows asked for
again. No row of the command table withdraws a burst map page (notes/assumptions/101.md). -/
def mapWithdraw (g : Nat) (s : State) : State :=
  let m := s.mapCh g
  match m.commit with
  | none => s
  | some c =>
    let s := if c.live then m.standby.foldl (fun s e => windowAgain g e s) (returnStandby g s) else s
    onMap g (fun m => { m with commit := none, cancelled := [] }) s

/-- The boundary that starts superframe `sfc`, for one channel pair's burst engine (R158 to R161). -/
def mapSwap (g sfc : Nat) (s : State) : State :=
  let m := s.mapCh g
  let swap (s : State) : State := onMap g (fun m => { m with
    active := m.standby, activeTarget := m.standbyTarget, standby := m.active, standbyTarget := m.activeTarget,
    commit := none, budgetA := m.budgetS, budgetS := s.paramN 0x4020 g, replays := 0, compiled := false }) s
  let replay (s : State) : State :=
    let n := (s.mapCh g).replays + 1
    let stall := decide (n > s.paramN 0x4030 0)
    let s := bump .mapReplay g (onMap g (fun m => { m with replays := n, compiled := false }) s)
    let s := if stall then event 0x4001 [.u 9 g, .u 51 sfc] (bump .mapStall g s) else s
    replayPage g sfc stall false (s.mapCh g).active s
  match m.commit with
  | none => replay (onMap g (fun m => { m with budgetS := s.paramN 0x4020 g }) (bump .mapLate g s))
  | some c =>
    match c.check with
    | .passed =>
      if c.target = sfc && !c.late then
        let s := bump .mapPages g (swap s)
        let s := onMap g (fun m => { m with cancelled := [] }) s
        runEntries g sfc ((m.standby.filter fun e => !m.lost e).map fun e => (e, false)) s
      else if c.target < sfc then
        let s := bump .mapPages g (bump .mapLateRun g (swap s))
        replayPage g sfc false true m.standby (onMap g (fun m => { m with cancelled := [] }) s)
      else
        let s := returnStandby g (bump .mapLate g s)
        replay (onMap g (fun m => { m with commit := some { c with live := false }, cancelled := [] }) s)
    | .failed _ _ =>
      let s := if c.live then m.standby.foldl (fun s e => windowAgain g e s) (returnStandby g s) else s
      replay (onMap g (fun m => { m with commit := none, cancelled := [], budgetS := s.paramN 0x4020 g }) s)
    | .waiting =>
      let s := if c.live then returnStandby g s else s
      replay (bump .mapLate g (onMap g (fun m => { m with commit := some { c with live := false, late := true }, cancelled := [] }) s))

/-- The boundary, and the framer's read of the superframe, in whose ledger window its grants' balance closes (R163). -/
def mapBoundary (g sfc : Nat) (s : State) : State := ledGrantsRead g sfc (mapSwap g sfc s)

/-- The sets copied to a spare become its own at its first superframe (R462). -/
def fixedCopied (g sfc : Nat) (s : State) : State :=
  match (s.mapCh g).fixedStage with
  | some x => if x.1 ≤ sfc then onMap g (fun m => { m with fixedCur := x.2.1, fixedNext := x.2.2, fixedStage := none }) s else s
  | none => s

/-- The next fixed pattern set becomes current at its act_sfc (R149). -/
def fixedActivate (g sfc : Nat) (s0 : State) : State :=
  let s := fixedCopied g sfc s0
  match (s.mapCh g).fixedNext with
  | some n => if n.actSfc ≤ sfc then onMap g (fun m => { m with fixedCur := some n, fixedNext := none }) s else s
  | none => s

end Sys2Proof.Machine
end

