-- ==== Sys2Proof/Machine/Compile.lean ====
section
/-! DEFINITION. Map compilation: allocation contexts and policy, the snapshot, the stages of allocation, placement,
windows, the Marver cores and their firmware (R168 to R200). -/

namespace Sys2Proof.Machine

/-! ### Bytes and ticks (R183) -/

/-- n rounded up to a multiple of k. -/
def roundUp (n k : Nat) : Nat := ceilDiv n k * k

/-- Ticks of a payload of n bytes at a rate and profile: with the upstream FEC parity where the profile has FEC on, rounded up to
the grid (R183). -/
def ticksOf (rate profile n : Nat) : Nat :=
  roundUp (ceilDiv ((n + if Config.usFecOn rate profile then Config.fecParityBytes rate n else 0) * 8) (match rate with
    | 0 => 4
    | 1 => 5
    | 2 => 10
    | _ => 20)) (gridTicks rate)

/-- The most bytes up to `want`, beside `have0` already granted, whose ticks fit `room`: found bit by bit. -/
def fitBytes (rate profile have0 room want : Nat) : Nat :=
  (List.range 24).foldl (fun n k =>
    let m := n + 2 ^ (23 - k)
    if m ≤ want && ticksOf rate profile (have0 + m) - ticksOf rate profile have0 ≤ room then m else n) 0

/-- Payload bytes that an entry carries: what its ticks hold, less its own overhead. -/
def entryPayload (e : MapEntry) : Nat :=
  fitBytes e.rate e.profile 0 e.len (2 ^ 24) - (if e.ploamu || e.dbru then Config.minGrantBytes e.ploamu else 0)

/-! ### Allocation contexts (R175 to R178) -/

/-- A field of R175 is out of its width or range. -/
def allocOutOfRange (a : AllocArgs) : Bool :=
  decide (2 ^ 20 ≤ a.assured) || decide (2 ^ 20 ≤ a.nonassured) || decide (2 ^ 20 ≤ a.maxBytes) || decide (256 ≤ a.weight)
    || decide (10 < a.pollLog2) || decide (256 ≤ a.minGrant)

/-- BAD_ARG of R176. -/
def allocBad (a : AllocArgs) : Bool :=
  allocOutOfRange a || decide (a.maxBytes < a.assured + a.nonassured) || (a.maxBytes == 0 && !a.patternOnly)

/-- The profile an ONU's grants have on a channel pair, given the phase memory entries that are seed-ready (R51, R185). -/
def State.profileFor (s : State) (g h : Nat) (o : Onu) (ready : List Nat) : Nat :=
  flag (s.param 0x1020 g != 0 && o.seeded && ready.contains (8 * h + g % 8))

/-- Ticks one allocation takes in the admission sum (R177). -/
def State.admitTicks (s : State) (g h assured : Nat) : Nat :=
  match Tab.get? s.onu.ctx h with
  | some o =>
    let p := s.profileFor g h o s.map.seedPub
    let r := rateAt o s.clk.sfc
    ceilDiv (assured * 8) (s.bitsPerTick r) + s.paramN 0x4010 0 + preTicks r p + delTicks r p
  | none => 0

/-- The admission test of R177 with allocation `a` of ONU h at `assured` bytes; the others count with the fields that
their last command gave. The limit is the one of the last snapshot (R179). -/
def State.admits (s : State) (h a assured : Nat) : Bool :=
  match Tab.get? s.onu.ctx h with
  | none => false
  | some o =>
    let g := o.g
    let others := s.map.alloc.foldl (fun n e =>
      if e.1 != a && ((Tab.get? s.onu.ctx e.2.onu).map Onu.g) == some g then n + s.admitTicks g e.2.onu (e.2.staged.getD e.2.a).assured else n) 0
    let fixed := (((s.mapCh g).fixedCur.map (·.entries)).getD []).foldl (fun n f => n + f.entry.len + lead f.entry) 0
    decide ((others + s.admitTicks g h assured + fixed) * 100 ≤ (policyIn s.map.snap.policy 0x4A12 g).toNat * 311040)

/-- Contexts of a tree. -/
def State.treeAllocs (s : State) (t : Nat) : Nat :=
  (s.map.alloc.filter fun e => ((Tab.get? s.onu.ctx e.2.onu).map (·.tree)) == some t).length

/-- AllocCreate (R176): the lowest free alloc handle; Assign_Alloc-ID is sent. -/
def allocCreate (onu allocId : Nat) (a : AllocArgs) (s : State) : State × Option Reply :=
  match Tab.get? s.onu.ctx onu with
  | none => deny .badState s
  | some o =>
    if o.state == .disabled || o.state == .deactivating then deny .badState s
    else if allocBad a || decide (2 ^ 14 ≤ allocId) then deny .badArg s
    else if s.treeAllocs o.tree ≥ 4096 then deny .limit s
    else
      match lowestFree (Tab.keys s.map.alloc) 0 131072 with
      | none => deny .limit s
      | some n =>
        if !s.admits onu n a.assured then deny .limit s
        else
          let s1 := { s with map := { s.map with alloc := Tab.set s.map.alloc n { allocId := allocId, onu := onu, a := a } } }
          doneWith [.u 17 n] (plSend onu (.assignAlloc n allocId true) s1)

/-- ALLOC_CREATE (R176, R199). -/
def execAllocCreate (q : Req) (onu allocId : Nat) (a : AllocArgs) (s : State) : Host.Outcome State Fault Refusal :=
  kilak q 0x4006 (allocCreate onu allocId a) s

/-- A command on an allocation that exists. -/
def withAlloc (a : Nat) (f : Alloc → State → State × Option Reply) (s : State) : State × Option Reply :=
  match Tab.get? s.map.alloc a with
  | some x => f x s
  | none => deny .badState s

/-- ALLOC_MODIFY (R176): in force at the next snapshot. -/
def execAllocModify (q : Req) (alloc : Nat) (a : AllocArgs) (s : State) : Host.Outcome State Fault Refusal :=
  kilak q 0x4007 (withAlloc alloc fun x s =>
    if allocBad a then deny .badArg s
    else if !s.admits x.onu alloc a.assured then deny .limit s
    else done (onAlloc alloc (fun x => { x with staged := some a }) s)) s

/-- ALLOC_DESTROY (R178): no grant from the next snapshot; completes when the framer has read the last page compiled
before it. -/
def execAllocDestroy (q : Req) (alloc : Nat) (s : State) : Host.Outcome State Fault Refusal :=
  kilak q 0x4008 (withAlloc alloc fun x s =>
    if s.allocInFixed alloc || x.destroying.isSome then deny .busy s
    else waits (plSend x.onu (.assignAlloc alloc x.allocId false)
      (onAlloc alloc (fun x => { x with destroying := some q }) s))) s

/-- The 128 bits of an allocation context (R175). -/
def Alloc.word (x : Alloc) : Nat :=
  fields [(1, 1), (1, flag x.a.patternOnly), (14, x.allocId), (15, x.onu), (20, x.a.assured), (20, x.a.nonassured),
    (20, x.a.maxBytes), (8, x.a.weight), (4, x.a.pollLog2), (8, x.a.minGrant), (17, 0)]

/-- ALLOC_STATUS (R175). -/
def execAllocStatus (q : Req) (alloc : Nat) (s : State) : Host.Outcome State Fault Refusal :=
  kilak q 0x4009 (withAlloc alloc fun x =>
    doneWith [.rcd 128 x.word, .u 64 x.demand, .u 64 x.aCredit, .u 64 x.nCredit, .u 51 x.lastReport, .u 51 x.lastGrant]) s

/-! ### Policy (R179) -/

/-- The policy parameters. -/
def policyPids : List Nat := [0x4A10, 0x4A11, 0x4A12, 0x4A13, 0x4A14, 0x4A15, 0x4A16, 0x4A17]

/-- The key of a policy scope, if it exists. -/
def scopeKey : Scope → Option Nat
  | .device => some 0
  | .tree t => if t < 64 then some (1 + t) else none
  | .chan g => if g < 512 then some (100 + g) else none

/-- A PID's value lies in its range. -/
def inRange (pid : Nat) (v : Int) : Bool :=
  match pidDesc? pid with
  | some d => decide (d.min ≤ v ∧ v ≤ d.max)
  | none => false

/-- The value in force at a scope (R179). -/
def policyAt (t : Tab (Tab Int)) (pid : Nat) : Scope → Int
  | .chan g => policyIn t pid g
  | .tree k =>
    match Tab.get? (Tab.getD t (1 + k) []) pid with
    | some v => v
    | none => (Tab.get? (Tab.getD t 0 []) pid).getD (pidDefault pid 0)
  | .device => (Tab.get? (Tab.getD t 0 []) pid).getD (pidDefault pid 0)

/-- The values in force at a scope, as both policy commands return them (R199). -/
def policyValues (scope : Scope) (s : State) : State × Option Reply :=
  doneWith (policyPids.map fun p => RVal.u (((pidDesc? p).map (·.width)).getD 64) (policyAt s.map.policy p scope).toNat) s

/-- Policy values set at a scope key. -/
def setPolicy (k : Nat) (vals : List (Nat × Int)) (s : State) : State :=
  { s with map := { s.map with policy := Tab.upd s.map.policy k [] fun t => vals.foldl (fun t v => Tab.set t v.1 v.2) t } }

/-- MAP_POLICY_SET (R179): the values take effect at the next snapshot; it returns the values in force (R199). -/
def execMapPolicySet (q : Req) (scope : Scope) (vals : List (Nat × Int)) (s : State) : Host.Outcome State Fault Refusal :=
  kilak q 0x400A (fun s =>
    match scopeKey scope with
    | none => deny .badArg s
    | some k =>
      if vals.any fun v => !policyPids.contains v.1 then deny .badArg s
      else if vals.any fun v => !inRange v.1 v.2 then deny .limit s
      else policyValues scope (setPolicy k vals s)) s

/-- MAP_POLICY_GET (R179). -/
def execMapPolicyGet (q : Req) (scope : Scope) (s : State) : Host.Outcome State Fault Refusal :=
  kilak q 0x400B (fun s =>
    match scopeKey scope with
    | none => deny .badArg s
    | some _ => policyValues scope s) s

/-! ### Hints and latency -/

/-- MAP_HINTS (R195): the last record. -/
def execMapHints (q : Req) (g : Nat) (s : State) : Host.Outcome State Fault Refusal :=
  kilak q 0x400C (fun s =>
    if 512 ≤ g then deny .badArg s
    else
      let h := Tab.getD s.map.hints g {}
      doneWith [.u 64 h.demanded, .u 64 h.granted, .u 64 h.short, .lst 2 h.onus] s) s

/-- GRANT_LATENCY_BIND (R194, R553): a unit that is not free is refused with LIMIT. The shift is that of the example of
R554. -/
def execGrantLatencyBind (q : Req) (isOnu : Bool) (handle unit : Nat) (s : State) : Host.Outcome State Fault Refusal :=
  kilak q 0x400D (fun s =>
    if 256 ≤ unit then deny .badArg s
    else if (Tab.get? s.mon.hist unit).isSome then deny .limit s
    else done (bindUnit unit 10 (if isOnu then .onuLat handle else .allocLat handle) s)) s

/-- HINT_PUBLISH (R195): once every map.hint_interval, for each channel pair of the core's tree. -/
def hintPublish (g : Nat) (s : State) : State :=
  if s.clk.sfc < Tab.getD s.map.hintAt g 0 + (policyIn s.map.snap.policy 0x4A17 g).toNat then s
  else
    let un := (Tab.getD s.map.unserved g []).mergeSort fun a b => decide (b.2 < a.2) || (a.2 == b.2 && decide (a.1 ≤ b.1))
    let h := { Tab.getD s.map.hintAcc g {} with onus := ((un.filter fun e => 0 < e.2).take 4).map (·.1) }
    { s with map := { s.map with
        hints := Tab.set s.map.hints g h
        hintAcc := Tab.erase s.map.hintAcc g
        unserved := Tab.erase s.map.unserved g
        hintAt := Tab.set s.map.hintAt g s.clk.sfc } }

/-- HINT_PUBLISH (R195). -/
def execHintPublish (k : Nat) (s : State) : Host.Outcome State Fault Refusal :=
  island (marverBlk k) (fun s => (List.range 8).foldl (fun s c => hintPublish (8 * k + c) s) s) s

/-! ### Firmware (R197) -/

/-- A core's state changed. -/
def onCore (k : Nat) (f : MarverCore → MarverCore) (s : State) : State :=
  { s with map := { s.map with core := Tab.upd s.map.core k {} f } }

/-- Core k. -/
def State.core (s : State) (k : Nat) : MarverCore := Tab.getD s.map.core k {}

/-- Core k compiles: its group is out of reset and the core is not restarting (R196). -/
def State.coreRuns (s : State) (k : Nat) : Bool := s.islandUp (marverBlk k) && decide ((s.core k).upAt ≤ s.clk.sfc)

/-- A firmware image's header is not one of a type, or a reserved field is not 0 (R379, R380): BAD_ARG before decrypting. -/
def imageRefused (i : Image) (kind : Nat) : Bool := i.magic != 0x56484946 || i.kind != kind || i.resA != 0 || i.resB != 0

/-- The largest image of a boot slot (R517). -/
def bootLimit (marver : Bool) : Nat := if marver then 262144 else 4194304

/-- The image a boot slot holds. -/
def OptS.boot (o : OptS) (slot : Nat) (marver : Bool) : Image :=
  if marver then (if slot = 0 then o.marver0 else o.marver1) else (if slot = 0 then o.bexed0 else o.bexed1)

/-- A boot slot written. -/
def OptS.setBoot (o : OptS) (slot : Nat) (marver : Bool) (i : Image) : OptS :=
  if marver then (if slot = 0 then { o with marver0 := i } else { o with marver1 := i })
  else (if slot = 0 then { o with bexed0 := i } else { o with bexed1 := i })

/-- The standby bank of every core. -/
def setStandby (x : Option Image) (s : State) : State :=
  (List.range 64).foldl (fun s k => onCore k (fun c => { c with standby := x }) s) s

/-- The opcode of the command that brings an image to its target. -/
def ImageTo.op : ImageTo → Nat
  | .bexed => 0x000A
  | .marver => 0x400E
  | .boot .. => 0xD007

/-- The Key Engine has decrypted an image into its target (R197, R380, R388): on a tag failure the target is zeroised, a boot slot
keeping what it held; a Marver image with another state_version than the running one's completes with BAD_ARG. -/
def imageDone (q : Req) (dest : ImageTo) (img : Image) (s : State) : State :=
  let s := bump .keJobs 0 s
  let ok (s : State) : State := complete q dest.op (.vals [.u 32 img.version]) s
  if !Image.tagOk img then
    let s := bump .keAuthFail 0 s
    complete q dest.op (.err .authFail) (match dest with
      | .bexed => { s with host := { s.host with standby := none } }
      | .marver => setStandby none s
      | .boot .. => s)
  else
    match dest with
    | .bexed => ok { s with host := { s.host with standby := some img } }
    | .marver =>
      if img.stateVersion != (s.core 0).active.stateVersion then complete q dest.op (.err .badArg) s
      else ok (setStandby (some img) s)
    | .boot slot marver => ok { s with opt := s.opt.setBoot slot marver img }

/-- MARVER_IMAGE_LOAD (R197): the image waits for the Key Engine. -/
def execMarverImageLoad (q : Req) (img : Image) (s : State) : Host.Outcome State Fault Refusal :=
  kilak q 0x400E (fun s =>
    if (List.range 64).any fun k => (s.core k).watchEnd.isSome then deny .busy s
    else if imageRefused img 2 || 196608 < img.length then deny .badArg s
    else waits (keQueue (.image q .marver img) s)) s

/-- MARVER_IMAGE_ACTIVATE (R197). -/
def execMarverImageActivate (q : Req) (sfc : Nat) (s : State) : Host.Outcome State Fault Refusal :=
  kilak q 0x400F (fun s =>
    if sfc < s.clk.sfc + 8 then deny .limit s
    else if (List.range 64).any fun k => (s.core k).standby.isNone then deny .badState s
    else done ((List.range 64).foldl (fun s k => onCore k (fun c => { c with activateAt := some sfc }) s) s)) s

/-- MARVER_STATUS (R199): compile.cycles_max clears as it is read. -/
def execMarverStatus (q : Req) (core : Nat) (s : State) : Host.Outcome State Fault Refusal :=
  kilak q 0x4010 (fun s =>
    if 64 ≤ core then deny .badArg s
    else
      let c := s.core core
      doneWith [.u 32 c.active.version, .u 32 ((c.standby.map (·.version)).getD 0), .u 64 (flag c.watchEnd.isSome),
        .u 32 (Tab.getD s.map.cyclesMax core 0)]
        { s with map := { s.map with cyclesMax := Tab.erase s.map.cyclesMax core } }) s

/-- The swap back of R197. -/
def marverRevert (k : Nat) (s : State) : State :=
  event 0x4004 [.u 6 k] (bump .marverRevert k (onCore k (fun c =>
    { c with active := c.old.getD c.active, standby := some c.active, old := none, watchEnd := none, revertDue := false }) s))

/-- MARVER_CORE_TRAP (R196): the class-U fault, the restart, in the old bank while a watch runs; reports and credits of the
tree clear and every poll falls due. It compiles again within 2 superframes, at a moment the rule leaves free. -/
def marverTrap (k cause : Nat) (s : State) : State :=
  let s := raiseFault (marverBlk k) 8 (k % 4 * 2 ^ 16 + cause % 2 ^ 16) (bump .marverTrap k s)
  let s := if (s.core k).watchEnd.isSome then marverRevert k s else s
  let s1 := onCore k (fun c => { c with upAt := s.clk.sfc + 1 + s.freeVal % 2 }) s.drawn
  (s1.map.alloc.filter fun e => ((Tab.get? s.onu.ctx e.2.onu).map (·.tree)) == some k).foldl (fun s e =>
    onAlloc e.1 (fun x => { x with report := 0, granted := [], pollDue := true, latFrom := none, latGrant := none })
      (dropCredit e.1 s)) s1

/-- MARVER_CORE_TRAP (R196). -/
def execMarverCoreTrap (k cause : Nat) (s : State) : Host.Outcome State Fault Refusal :=
  island (marverBlk k) (marverTrap k cause) s

/-- MARVER_WATCH_END (R197): the old bank becomes the standby bank. -/
def execMarverWatchEnd (k : Nat) (s : State) : Host.Outcome State Fault Refusal :=
  island (marverBlk k) (fun s =>
    match (s.core k).watchEnd with
    | some e =>
      if e ≤ s.clk.sfc && !(s.core k).revertDue then
        onCore k (fun c => { c with standby := c.old, old := none, watchEnd := none }) s
      else s
    | none => s) s

/-- BUFFER_REPORT_ARRIVAL (R173, R174). -/
def execBufferReportArrival (alloc bytes burstPos : Nat) (s : State) : Host.Outcome State Fault Refusal :=
  match Tab.get? s.map.alloc alloc with
  | none => .next s
  | some x => island (marverBlk (((Tab.get? s.onu.ctx x.onu).map (·.tree)).getD 0)) (takeReport alloc bytes burstPos) s

/-! ### Windows (R190, R191) -/

/-- Intervals of a superframe that the fixed pattern set in force at it reserves, rising. -/
def State.reserved (s : State) (g sfc : Nat) : List (Int × Int) :=
  (((s.mapCh g).fixedAt sfc).map fun f => span (onGrid f.entry)).mergeSort fun a b => decide (a.1 ≤ b.1)

/-- Fixed runs (R191): chains with no gap of more than guard ticks. -/
def fixedRuns (guard : Int) : List (Int × Int) → List (Int × Int)
  | [] => []
  | x :: xs =>
    match fixedRuns guard xs with
    | y :: ys => if y.1 ≤ x.2 + guard then (x.1, max x.2 y.2) :: ys else x :: y :: ys
    | [] => [x]

/-- The interval from a to z less cuts, each cut widened by guard. -/
def cutOut (a z guard : Int) : List (Int × Int) → List (Int × Int)
  | [] => if a < z then [(a, z)] else []
  | c :: cs =>
    if c.2 + guard ≤ a then cutOut a z guard cs
    else if z ≤ c.1 - guard then (if a < z then [(a, z)] else [])
    else (if a < c.1 - guard then [(a, c.1 - guard)] else []) ++ cutOut (max a (c.2 + guard)) z guard cs

/-- Preamble and delimiter of the standard profile at the base rate. -/
def State.stdLead (s : State) (g : Nat) : Nat := preTicks (s.baseRate g) 0 + delTicks (s.baseRate g) 0

/-- Length of a serial-number or ranging grant entry, on the grid of the base rate (R187). -/
def State.winTicks (s : State) (g : Nat) (ranging : Bool) : Nat :=
  roundUp (Config.windowGrantTicks ranging) (gridTicks (s.baseRate g))

/-- Position of a plan's grant: its checked interval in a superframe, if it lies there. -/
def State.planGrant (s : State) (p : WinPlan) (sfc : Nat) : Option (Nat × Int × Int) :=
  if p.grant / 311040 = sfc then
    let st := p.grant % 311040
    some (st, (st : Int) - s.stdLead p.g, (st : Int) + s.winTicks p.g (p.kind == .ranging))
  else none

/-- QUIET intervals of a plan in a superframe (R191). -/
def State.planQuiet (s : State) (p : WinPlan) (sfc : Nat) : List (Int × Int) :=
  let guard : Int := s.paramN 0x4010 0
  let a : Int := (p.qs : Int) - sfc * 311040
  let z : Int := a + p.len
  if z ≤ 0 || 311040 ≤ a then []
  else
    let own := (match s.planGrant p sfc with
      | some x => [(x.2.1, x.2.2)]
      | none => [])
    let cuts := ((fixedRuns guard (s.reserved p.g sfc)) ++ own).mergeSort fun x y => decide (x.1 ≤ y.1)
    cutOut (max a (s.stdLead p.g)) (min z (311040 - guard)) guard cuts

/-- Superframes a plan touches. -/
def WinPlan.frames (p : WinPlan) : List Nat :=
  let f := p.qs / 311040
  let l := max ((p.qs + p.len) / 311040) (p.grant / 311040)
  (List.range (l + 1 - f)).map (· + f)

/-- The plan's region begins past preamble and delimiter of a superframe, and its entries fit every page they touch: the grant inside its superframe and clear of the reserved intervals and
of other plans; at most 7 fixed runs and 8 QUIET entries; no other plan's region. -/
def State.planFits (s : State) (p : WinPlan) : Bool :=
  let guard : Int := s.paramN 0x4010 0
  let others := s.map.plans.filter fun x => x.g == p.g
  decide (s.stdLead p.g ≤ p.qs % 311040) && p.frames.all (fun f =>
    let res := s.reserved p.g f
    let grantOk := match s.planGrant p f with
      | some (st, a, z) => decide (0 ≤ a) && decide (z + guard ≤ 311040) && decide (st % gridTicks (s.baseRate p.g) = 0)
          && res.all (fun r => !touches (a, z) r guard)
          && others.all fun x => (s.planQuiet x f).all (fun r => !touches (a, z) r guard) && (match s.planGrant x f with
            | some y => !touches (a, z) (y.2.1, y.2.2) guard
            | none => true)
      | none => true
    let q := s.planQuiet p f
    let oq := others.flatMap fun x => s.planQuiet x f
    grantOk && decide ((fixedRuns guard res).length ≤ 7) && decide (q.length + oq.length ≤ 8)
      && q.all fun r => oq.all (fun o => !touches r o guard) && others.all fun x => match s.planGrant x f with
        | some y => !touches r (y.2.1, y.2.2) guard
        | none => true)

/-- A plan whose region begins at position qs (R190). -/
def State.planAt (s : State) (r : WinReq) (qs : Nat) : WinPlan :=
  let a := qs + s.paramN 0x3020 r.g - s.rtd r.g (s.paramN 0x3002 r.g) + s.stdLead r.g
  { g := r.g, kind := r.kind, onu := r.onu, qs := qs, len := r.len, grant := a }

/-- The first place from x on, among n, that holds. -/
def firstFit (ok : Nat → Bool) : Nat → Nat → Option Nat
  | 0, _ => none
  | n + 1, x => if ok x then some x else firstFit ok n (x + 1)

/-- Superframes ahead in which a place for a window is sought (notes/assumptions/37.md). -/
def planSpan : Nat := 32

/-- Requests accepted at a snapshot for target superframe S, by the cores that run: the smallest Q_s that fits (R190). -/
def planWindows (sfc : Nat) (s : State) : State :=
  (s.map.requests.filter fun r => s.coreRuns (r.g / 8)).foldl (fun s r =>
    let mx := (policyIn s.map.policy 0x4A16 r.g).toNat
    let there := (s.map.plans.filter fun p => p.g == r.g).length
    let found := if there < mx then
        firstFit (fun x => s.planFits (s.planAt r x)) (planSpan * 311040) (sfc * 311040 + s.stdLead r.g)
      else none
    match found with
    | some x => { s with map := { s.map with plans := s.map.plans ++ [s.planAt r x] } }
    | none => bump .windowDefer r.g { s with map := { s.map with requests := s.map.requests ++ [r] } })
    { s with map := { s.map with requests := s.map.requests.filter fun r => !s.coreRuns (r.g / 8) } }

/-- Plans that lie wholly before a superframe are done. -/
def dropOldPlans (sfc : Nat) (s : State) : State :=
  let keep := s.map.plans.filter fun p => decide (sfc * 311040 < p.qs + p.len) || decide (sfc ≤ p.grant / 311040)
  { s with map := { s.map with plans := keep } }

/-! ### The snapshot (R169, R180) -/

/-- The phase memory entries that are seed-ready, by 8 × handle + c (R51). -/
def State.seedReadyNow (s : State) : List Nat :=
  (s.lane.phase.filter fun e =>
    e.2.valid && decide (4 ≤ e.2.confidence)
      && decide ((s.clk.sfc + 2 ^ 26 - e.2.lastSeen) % 2 ^ 26 ≤ 8000 * s.paramN 0x1200 0)).map (·.1)

/-- Bytes that an allocation's non-assured credit grows by at a snapshot (R180, R198). -/
def Alloc.nGrowth (x : Alloc) (stage : Nat) : Nat := if stage ≥ 3 then 0 else (x.staged.getD x.a).nonassured

/-- One allocation at a snapshot: the staged values, the credits of R180, and what the cap cuts off of each. -/
def Alloc.atSnapshot (x : Alloc) (depth stage : Nat) : Alloc × Nat × Nat :=
  let a := x.staged.getD x.a
  let ac := x.aCredit + a.assured
  let nc := x.nCredit + x.nGrowth stage
  let ac' := min ac (depth * a.assured)
  let nc' := min nc (depth * a.nonassured)
  ({ x with a := a, staged := none, aCredit := ac', nCredit := nc' }, ac - ac', nc - nc')

/-- The credits of one allocation grow at a snapshot; the ledger counts what is credited and what the cap discards (R180). -/
def creditSnapshot (a : Nat) (x : Alloc) (g : Nat) (s : State) : State :=
  let (y, cutA, cutN) := x.atSnapshot (policyIn s.map.policy 0x4A11 g).toNat s.sagStage
  let s1 := ledTokens (creditScope a 1) (x.nGrowth s.sagStage) 0 cutN
    (ledTokens (creditScope a 0) y.a.assured 0 cutA (onAlloc a (fun _ => y) s))
  if cutA + cutN = 0 then s1 else bumpBy .creditDiscarded a (cutA + cutN) s1

/-- Activation and revert of core k at the snapshot that starts superframe sfc (R197). -/
def coreSnapshot (sfc k : Nat) (s : State) : State :=
  let c := s.core k
  if c.revertDue then marverRevert k s
  else
    match c.activateAt with
    | none => s
    | some a =>
      if sfc < a then s
      else
        match c.standby with
        | none => onCore k (fun c => { c with activateAt := none }) s
        | some n => onCore k (fun c => { c with active := n, old := some c.active, standby := none, activateAt := none,
                                                watchEnd := some (sfc + 64) }) s

/-- The snapshot at the boundary that starts superframe sfc. -/
def snapshot (sfc : Nat) (s : State) : State :=
  let s := (Tab.keys s.map.core).foldl (fun s k => coreSnapshot sfc k s) s
  let s := s.map.alloc.foldl (fun s e =>
    match Tab.get? s.onu.ctx e.2.onu with
    | none => s
    | some o =>
      if s.coreRuns o.tree then creditSnapshot e.1 e.2 o.g s else s) s
  let s := planWindows (sfc + 1) (dropOldPlans sfc s)
  { s with map := { s.map with
      cyclesMax := s.map.cyclesNow.foldl (fun t e => Tab.upd t e.1 0 (max e.2)) s.map.cyclesMax
      cyclesNow := []
      ch := s.map.ch.map fun e => (e.1, { e.2 with compiled := false })
      snap := { sfc := sfc, alloc := s.map.alloc, onu := s.onu.ctx, policy := s.map.policy, seedReady := s.map.seedPub,
                stage := s.sagStage, plans := s.map.plans, spare := s.map.spare
                spares := ((List.range 64).filter fun t => decide (s.paramN 0x3036 t < 8)).map fun t => 8 * t + s.paramN 0x3036 t }
      seedPub := s.seedReadyNow } }

/-- Destroyed allocations whose last page the framer has read (R178). -/
def destroyDone (s : State) : State :=
  s.map.alloc.foldl (fun s e =>
    match e.2.destroying with
    | none => s
    | some q =>
      let free := match Tab.get? s.onu.ctx e.2.onu with
        | some o => (s.mapCh o.g).commit.isNone
        | none => true
      if free then
          let s := dropCredit e.1 s
          complete q 0x4008 .ok { s with map := { s.map with alloc := Tab.erase s.map.alloc e.1 } }
        else s) s

/-! ### The stages (R181 to R185) -/

/-- What one allocation gets in a page: bytes of an obligation or poll, and payload bytes by class. -/
structure Part where
  alloc : Nat
  base : Nat := 0
  b2 : Nat := 0
  b4 : Nat := 0
  b5 : Nat := 0
  stage : Nat
  ploamu : Bool := false
  dbru : Bool := false
deriving DecidableEq, Repr

/-- One ONU's burst: its parts by ascending alloc handle. -/
structure Burst where
  onu : Nat
  rate : Nat
  profile : Nat
  parts : List Part
deriving DecidableEq, Repr

/-- A page in the making: free ticks, bursts in the order they opened. -/
structure Job where
  free : Nat
  bursts : List Burst := []
deriving DecidableEq, Repr

/-- Payload and overhead bytes of a part. -/
def Part.bytes (p : Part) : Nat := p.base + p.b2 + p.b4 + p.b5
/-- Payload bytes of a part. -/
def Part.payload (p : Part) : Nat := p.b2 + p.b4 + p.b5
/-- Ticks of a part. -/
def Part.ticks (rate profile : Nat) (p : Part) : Nat := ticksOf rate profile p.bytes
/-- Ticks of a burst's parts. -/
def Burst.ticks (b : Burst) : Nat := (b.parts.map (Part.ticks b.rate b.profile)).foldl (· + ·) 0
/-- The part of an allocation, if any. -/
def Job.part (j : Job) (h a : Nat) : Option Part :=
  (j.bursts.find? (·.onu == h)).bind fun b => b.parts.find? (·.alloc == a)

/-- A part put in its place by handle. -/
def putPart (p : Part) : List Part → List Part
  | [] => [p]
  | x :: xs => if p.alloc < x.alloc then p :: x :: xs else if p.alloc = x.alloc then p :: xs else x :: putPart p xs

/-- Overhead still due to open a burst of an ONU (R183). -/
def Job.overhead (j : Job) (guard rate profile h : Nat) : Nat :=
  if j.bursts.any (·.onu == h) then 0 else guard + preTicks rate profile + delTicks rate profile

/-- A part replaced, its burst opened where it is the first, and the ticks charged. -/
def Job.put (j : Job) (guard rate profile h : Nat) (p : Part) : Job :=
  let old := ((j.part h p.alloc).map (Part.ticks rate profile)).getD 0
  let cost := j.overhead guard rate profile h + (p.ticks rate profile - old)
  { free := j.free - cost
    bursts := if j.bursts.any (·.onu == h) then
        j.bursts.map fun b => if b.onu == h then { b with parts := putPart p b.parts } else b
      else j.bursts ++ [{ onu := h, rate := rate, profile := profile, parts := [p] }] }

/-- Ticks a part's replacement costs. -/
def Job.cost (j : Job) (guard rate profile h : Nat) (p : Part) : Nat :=
  j.overhead guard rate profile h + (p.ticks rate profile - ((j.part h p.alloc).map (Part.ticks rate profile)).getD 0)

/-- What a compile reads of one ONU: its rate at the target and profile. -/
def State.shape (s : State) (g target h : Nat) (o : Onu) : Nat × Nat :=
  (rateAt o target, s.profileFor g h o s.map.snap.seedReady)

/-- The lowest alloc handle of an ONU that is not pattern_only and may be granted, at the snapshot (R176, R178, R184). -/
def State.oblAlloc (s : State) (h : Nat) : Option Nat :=
  (s.map.snap.alloc.find? fun e => e.2.onu == h && !e.2.a.patternOnly && e.2.acked && e.2.destroying.isNone).map (·.1)

/-- Channel pair g was a tree's reserved spare at the snapshot: it carries only what sparing calls for (R168, R461). -/
def State.reservedSpare (s : State) (g : Nat) : Bool := s.map.snap.spares.contains g

/-- The tune confirmation of an ONU in TUNING is due on its target g (R134, R184): one grant at Q + T, and after a ranging window
there gave the EqD, one per superframe until arrival, as in CONFIRM (DEDUCED, notes/assumptions/102.md). -/
def State.tuneDue (s : State) (g target h : Nat) (o : Onu) : Bool :=
  match o.tune with
  | some t => 8 * o.tree + t.target == g && t.source != 2
      && (t.ranged || (o.carryOk && !t.windowed && decide (t.q + t.t ≤ target) && decide (Tab.getD s.map.tuneGiven h 0 < t.q + t.t)))
  | none => false

/-- The obligations of channel pair g for a target superframe, in table order (R184): handle and ploamu. -/
def State.obligations (s : State) (g target : Nat) : List (Nat × Bool) :=
  let ctx := s.map.snap.onu.filter fun e => decide (4 ≤ e.2.state.ctorIdx ∧ e.2.state.ctorIdx ≤ 10)
    && !s.isQuiet e.1 g target
  let here := ctx.filter fun e => e.2.g == g && !s.reservedSpare g
    && !(e.2.tune.any fun t => decide (t.q ≤ target))
  let back := ctx.filter fun e => e.2.g == g && (e.2.tune.bind (·.oldAt)) == some target
  let last (h : Nat) : Nat := Tab.getD s.map.lastPloamu h 0
  let itv := (policyIn s.map.snap.policy 0x4A13 g).toNat
  let ploam := here.filter fun e => ((e.2.out.toList ++ (e.2.tune.bind (·.carry)).toList).any fun p => decide (last e.1 ≤ p.sfc))
    || decide (last e.1 + itv ≤ target)
  let conf := here.filter fun e => e.2.state == .confirm
  let lost := here.filter fun e => e.2.state == .lost
  let trial := here.filter fun e => e.2.state == .operation && e.2.ladder.phase == 2 && decide (e.2.ladder.actSfc ≤ target)
  let tune := ctx.filter fun e => e.2.state == .tuning && s.tuneDue g target e.1 e.2 && !s.reservedSpare g
  let spare := s.map.snap.spare.filter fun e => e.2.1 == g && decide (e.2.2 ≤ target) && !s.isQuiet e.1 g target
  ploam.map (fun e => (e.1, true)) ++ conf.map (fun e => (e.1, false)) ++ lost.map (fun e => (e.1, false))
    ++ trial.map (fun e => (e.1, false)) ++ tune.map (fun e => (e.1, true)) ++ spare.map (fun e => (e.1, true))
    ++ back.map (fun e => (e.1, true))

/-- Stage 1: one minimal grant per obligation, several of one ONU in one entry; the deferred ones are counted. -/
def stage1 (s : State) (g target guard : Nat) (j : Job) : Job × Nat :=
  (s.obligations g target).foldl (fun (jn : Job × Nat) ob =>
    let (j, n) := jn
    match Tab.get? s.map.snap.onu ob.1, s.oblAlloc ob.1 with
    | some o, some a =>
      let (rate, prof) := s.shape g target ob.1 o
      let pl := ob.2 || ((j.part ob.1 a).map (·.ploamu)).getD false
      let p : Part := { alloc := a, base := Config.minGrantBytes pl, stage := 1, ploamu := pl, dbru := true }
      if j.cost guard rate prof ob.1 p ≤ j.free then (j.put guard rate prof ob.1 p, n) else (j, n + 1)
    | _, _ => (j, n)) (j, 0)

/-- The allocations that stages 2 to 5 serve on g: acknowledged, not pattern_only, not default, not being destroyed, of an
ONU in OPERATION outside its quiet intervals; with the ONU. None on a reserved spare (R168). -/
def State.served (s : State) (g target : Nat) : List (Nat × Alloc × Onu) :=
  s.map.snap.alloc.filterMap fun e =>
    match Tab.get? s.map.snap.onu e.2.onu with
    | some o =>
      if o.g == g && !s.reservedSpare g && o.state == .operation && e.2.acked && !e.2.dflt && !e.2.a.patternOnly && e.2.destroying.isNone
          && !s.isQuiet e.2.onu g target then some (e.1, e.2, o) else none
    | none => none

/-- Bytes given to one allocation in a stage: what fits, none where the room cannot cover the overhead and min_grant. -/
def giveBytes (s : State) (g target guard stage : Nat) (x : Nat × Alloc × Onu) (want limit : Nat) (j : Job) : Job × Nat :=
  let h := x.2.1.onu
  let (rate, prof) := s.shape g target h x.2.2
  let p : Part := (j.part h x.1).getD { alloc := x.1, stage := stage }
  let ov := j.overhead guard rate prof h
  let room := min limit j.free - ov
  let want := min want (x.2.1.a.maxBytes - p.payload)
  let n := fitBytes rate prof p.bytes room want
  let small := p.payload = 0 && n < 16 * x.2.1.a.minGrant
  if n = 0 || small || min limit j.free < ov then (j, 0)
  else
    let p := if stage = 2 then { p with b2 := p.b2 + n } else if stage = 4 then { p with b4 := p.b4 + n } else { p with b5 := p.b5 + n }
    (j.put guard rate prof h p, n)

/-- The assured bytes an allocation should get: none below min_grant, at most max_bytes (R175, R181). -/
def Alloc.due2 (x : Alloc) : Nat :=
  let want := min (min x.demand x.aCredit) x.a.maxBytes
  if want < 16 * x.a.minGrant then 0 else want

/-- Stage 2 in the order of R182: the job and the unserved assured bytes by alloc handle. When ticks run out the rest is
skipped. -/
def stage2 (s : State) (g target guard : Nat) : List (Nat × Alloc × Onu) → Job → Job × List (Nat × Nat)
  | [], j => (j, [])
  | x :: xs, j =>
    let asked := x.2.1.due2
    let (j1, n) := giveBytes s g target guard 2 x asked j.free j
    if n < asked then (j1, (x.1, asked - n) :: xs.map fun y => (y.1, y.2.1.due2))
    else stage2 s g target guard xs j1

/-- Stage 3: allocations without a dbru opportunity for their poll interval; from sag stage S3 only those with assured
bytes. -/
def stage3 (s : State) (g target guard : Nat) (xs : List (Nat × Alloc × Onu)) (j : Job) : Job × Nat :=
  (xs.filter fun x => (x.2.1.pollDue || decide (x.2.1.lastDbru + 2 ^ x.2.1.a.pollLog2 ≤ target))
      && (decide (s.map.snap.stage < 3) || decide (0 < x.2.1.a.assured))).foldl (fun (jn : Job × Nat) x =>
    let (j, n) := jn
    let h := x.2.1.onu
    let (rate, prof) := s.shape g target h x.2.2
    let old : Part := (j.part h x.1).getD { alloc := x.1, stage := 3 }
    let p : Part := { old with base := max old.base (Config.minGrantBytes old.ploamu), dbru := true }
    if j.cost guard rate prof h p ≤ j.free then (j.put guard rate prof h p, n) else (j, n + 1)) (j, 0)

/-- Weighted max-min shares of a pool: (handle, weight, need), each need met or the pool shared by weight. -/
def waterfill : Nat → Nat → List (Nat × Nat × Nat) → List (Nat × Nat)
  | 0, _, _ => []
  | n + 1, pool, xs =>
    let w := xs.foldl (fun a x => a + x.2.1) 0
    let sat := xs.filter fun x => decide (x.2.2 * w ≤ pool * x.2.1)
    if sat.isEmpty then xs.map fun x => (x.1, pool * x.2.1 / w)
    else
      sat.map (fun x => (x.1, x.2.2)) ++
        waterfill n (pool - sat.foldl (fun a x => a + x.2.2) 0) (xs.filter fun x => !decide (x.2.2 * w ≤ pool * x.2.1))

/-- Shares of a pool that does not cover the needs, scaled down in proportion to the weights, none above its need (R181). -/
def proportion (pool : Nat) (xs : List (Nat × Nat × Nat)) : List (Nat × Nat) :=
  let w := xs.foldl (fun a x => a + x.2.1) 0
  if xs.foldl (fun a x => a + x.2.2) 0 ≤ pool then xs.map fun x => (x.1, x.2.2)
  else xs.map fun x => (x.1, min x.2.2 (pool * x.2.1 / w))

/-- Stages 4 and 5 (R181, R183): overheads of the bursts that open are charged first, then the pool is shared by the
weights, each allocation up to what it may take: in stage 4 in proportion, in stage 5 max-min. -/
def stageShare (s : State) (g target guard stage share : Nat) (weight cap : Alloc → Part → Nat)
    (xs : List (Nat × Alloc × Onu)) (j : Job) : Job :=
  let partOf (x : Nat × Alloc × Onu) : Part := (j.part x.2.1.onu x.1).getD { alloc := x.1, stage := stage }
  let want (x : Nat × Alloc × Onu) : Nat :=
    min (min (x.2.1.demand - (partOf x).payload) (cap x.2.1 (partOf x))) (x.2.1.a.maxBytes - (partOf x).payload)
  let able := xs.filter fun x => decide (0 < want x) && decide (0 < weight x.2.1 (partOf x))
    && ((partOf x).payload != 0 || decide (16 * x.2.1.a.minGrant ≤ want x))
  -- overhead of the bursts that open, in handle order
  let pool0 := j.free * share / 100
  let opened := able.foldl (fun (acc : List (Nat × Alloc × Onu) × List Nat × Nat) x =>
    let (ok, hs, used) := acc
    let h := x.2.1.onu
    let (rate, prof) := s.shape g target h x.2.2
    let ov := if hs.contains h then 0 else j.overhead guard rate prof h
    if used + ov + ticksOf rate prof (16 * x.2.1.a.minGrant) ≤ pool0 then (ok ++ [x], h :: hs, used + ov) else (ok, hs, used)) ([], [], 0)
  let needs := opened.1.map fun x =>
    let (rate, prof) := s.shape g target x.2.1.onu x.2.2
    (x.1, weight x.2.1 (partOf x), ticksOf rate prof ((partOf x).bytes + want x) - ticksOf rate prof (partOf x).bytes)
  let pool := pool0 - opened.2.2
  let shares := if stage = 4 then proportion pool needs else waterfill (needs.length + 1) pool needs
  opened.1.foldl (fun j x =>
    let t := (shares.find? (·.1 == x.1)).map (·.2)
    let (rate, prof) := s.shape g target x.2.1.onu x.2.2
    (giveBytes s g target guard stage x (want x) (j.overhead guard rate prof x.2.1.onu + t.getD 0) j).1) j

/-- All stages over the free ticks of a page: the job, the obligations and polls deferred, the unserved assured bytes. -/
def runStages (s : State) (g target guard free : Nat) : Job × Nat × Nat × List (Nat × Nat) :=
  let (j1, mand) := stage1 s g target guard { free := free }
  let xs := s.served g target
  let ord := (xs.filter fun x => decide (0 < x.2.1.demand) && decide (0 < x.2.1.a.assured)).mergeSort fun a b =>
    decide (a.2.1.lastGrant < b.2.1.lastGrant) || (a.2.1.lastGrant == b.2.1.lastGrant && decide (a.1 ≤ b.1))
  let (j2, short) := stage2 s g target guard ord j1
  let (j3, poll) := stage3 s g target guard xs j2
  let j5 := if s.map.snap.stage ≥ 3 then j3
    else
      let j4 := stageShare s g target guard 4 100 (fun a _ => a.a.nonassured) (fun a _ => a.nCredit) xs j3
      stageShare s g target guard 5 (policyIn s.map.snap.policy 0x4A14 g).toNat (fun a _ => a.a.weight) (fun a _ => a.a.maxBytes) xs j4
  (j5, mand, poll, short)

/-! ### Placement (R186 to R188) -/

/-- Gaps of a superframe between reserved intervals: each from a to z, a guard after every interval. -/
def gapsFrom (a guard : Int) : List (Int × Int) → List (Int × Int)
  | [] => if a < 311040 then [(a, 311040)] else []
  | r :: rs => (if a < r.1 then [(a, r.1)] else []) ++ gapsFrom (max a (r.2 + guard)) guard rs

/-- Where a burst of a length would start in a gap, if it fits with its lead and the guard after it. -/
def startIn (ld len guard grid : Nat) (gap : Int × Int) : Option Nat :=
  let st := roundUp (gap.1.toNat + ld) grid
  if (st : Int) + len + guard ≤ gap.2 then some st else none

/-- Room for payload in a gap, in whole grid units. -/
def capIn (ld guard grid : Nat) (gap : Int × Int) : Nat :=
  ((gap.2 - guard - roundUp (gap.1.toNat + ld) grid).toNat) / grid * grid

/-- A burst as placed: its parts by ascending alloc handle, from a start tick, with its own preamble and delimiter. -/
structure Placed where
  burst : Burst
  start : Nat
deriving DecidableEq, Repr

/-- The entries of a burst's parts from a start tick, joined with cont = 1; ploamu stands on the first. -/
def burstEntries (b : Burst) (ploamu : Bool) : List Part → Nat → Bool → List MapEntry
  | [], _, _ => []
  | p :: ps, st, first =>
    let t := p.ticks b.rate b.profile
    { kind := .dynamic, alloc := p.alloc, start := st, len := t, cont := !first, profile := b.profile, rate := b.rate,
      ploamu := first && ploamu, dbru := p.dbru, onu := b.onu } :: burstEntries b ploamu ps (st + t) false

/-- The payload bytes of the first of two pieces of a part that holds `total`, when at most `most` fit it: no piece holds
payload below min_grant (R175). -/
def cutPayload (total most least : Nat) (both : Bool) : Nat :=
  let n := if both && decide (total - most < least) then total - least else most
  if n < least then 0 else n

/-- A part at n payload bytes, taken from its classes in stage order, and what that leaves of it. -/
def Part.cut (p : Part) (n : Nat) : Part × Part :=
  let c2 := min n p.b2
  let c4 := min (n - c2) p.b4
  let c5 := min (n - c2 - c4) p.b5
  ({ p with b2 := c2, b4 := c4, b5 := c5 },
    { p with base := 0, dbru := false, ploamu := false, b2 := p.b2 - c2, b4 := p.b4 - c4, b5 := p.b5 - c5 })

/-- Parts cut at so many ticks: those before, those after; a part across the cut is divided, its obligation before it.
`least` is the smallest payload of an allocation's grant; it holds for the second piece too where that one is granted. -/
def cutParts (least : Nat → Nat) (both : Bool) (rate profile : Nat) : List Part → Nat → List Part × List Part
  | [], _ => ([], [])
  | p :: ps, k =>
    let t := p.ticks rate profile
    if t ≤ k then
      let (a, b) := cutParts least both rate profile ps (k - t)
      (p :: a, b)
    else
      let n := fitBytes rate profile 0 k p.bytes
      let m := cutPayload p.payload (n - p.base) (least p.alloc) both
      if n < p.base || p.base + m = 0 then ([], p :: ps)
      else
        let x := p.cut m
        ([x.1], if x.2.payload = 0 then ps else x.2 :: ps)

/-- A gap after a burst was placed in it. -/
def useGap (gaps : List (Int × Int)) (i : Nat) (endAt : Int) : List (Int × Int) :=
  gaps.mapIdx fun k x => if k = i then (endAt, x.2) else x

/-- A burst laid whole into gap i, if it holds it: where it lies, and the gaps left. -/
def layIn (guard : Nat) (gaps : List (Int × Int)) (b : Burst) (i : Nat) : Option (Placed × List (Int × Int)) :=
  match gaps[i]? with
  | none => none
  | some gp =>
    if b.parts.isEmpty then none
    else (startIn (preTicks b.rate b.profile + delTicks b.rate b.profile) b.ticks guard (gridTicks b.rate) gp).map fun st =>
      ({ burst := b, start := st }, useGap gaps i (st + b.ticks + guard))

/-- A burst split once across the reserved interval after gap i: each piece of at least `splitMin` ticks. -/
def splitAt (least : Nat → Nat) (guard splitMin : Nat) (b : Burst) (gaps : List (Int × Int)) (i : Nat) :
    Option (List Placed × List (Int × Int)) :=
  let ld := preTicks b.rate b.profile + delTicks b.rate b.profile
  match gaps[i]? with
  | none => none
  | some x =>
    let k := min (capIn ld guard (gridTicks b.rate) x) (b.ticks - splitMin)
    let (p1, p2) := cutParts least true b.rate b.profile b.parts k
    let b1 : Burst := { b with parts := p1 }
    let b2 : Burst := { b with parts := p2 }
    if splitMin ≤ b1.ticks && splitMin ≤ b2.ticks then
      (layIn guard gaps b1 i).bind fun r => (layIn guard r.2 b2 (i + 1)).map fun u => ([r.1, u.1], u.2)
    else none

/-- A burst shrunk to the largest gap. -/
def shrinkTo (least : Nat → Nat) (guard : Nat) (b : Burst) (gaps : List (Int × Int)) : List Placed × List (Int × Int) :=
  let ld := preTicks b.rate b.profile + delTicks b.rate b.profile
  let best := (List.range gaps.length).foldl (fun (m : Nat × Nat) i =>
    let c := ((gaps[i]?).map (capIn ld guard (gridTicks b.rate))).getD 0
    if m.2 < c then (i, c) else m) (0, 0)
  match layIn guard gaps { b with parts := (cutParts least false b.rate b.profile b.parts best.2).1 } best.1 with
  | some r => ([r.1], r.2)
  | none => ([], gaps)

/-- One burst placed (R186): whole in the first gap that holds it; split once across a reserved interval; else shrunk to the
largest gap. -/
def placeBurst (least : Nat → Nat) (guard splitMin : Nat) (b : Burst) (gaps : List (Int × Int)) :
    List Placed × List (Int × Int) :=
  let idx := List.range gaps.length
  match idx.findSome? (layIn guard gaps b) with
  | some r => ([r.1], r.2)
  | none =>
    match idx.findSome? (splitAt least guard splitMin b gaps) with
    | some r => r
    | none => shrinkTo least guard b gaps

/-- All bursts placed in order. -/
def placeAll (least : Nat → Nat) (guard splitMin : Nat) : List Burst → List (Int × Int) → List Placed
  | [], _ => []
  | b :: bs, gaps =>
    let r := placeBurst least guard splitMin b gaps
    r.1 ++ placeAll least guard splitMin bs r.2

/-- The entries of placed bursts with the ONU and part of each; an ONU's ploamu stands on its first entry. -/
def placedEntries : List Placed → List Nat → List (MapEntry × Nat × Part)
  | [], _ => []
  | x :: xs, seen =>
    let b := x.burst
    let pl := !seen.contains b.onu && (b.parts.any (·.ploamu) || xs.any fun y => y.burst.onu == b.onu && y.burst.parts.any (·.ploamu))
    (burstEntries b pl b.parts x.start true).zip (b.parts.map fun p => (b.onu, p)) ++ placedEntries xs (b.onu :: seen)

/-- The rank of an entry for removal: the lowest goes first (R188); obligations are never removed. -/
def trimRank (rate profile : Nat) (x : Part) (lastGrant : Nat) : Option (Nat × Nat) :=
  match x.stage with
  | 5 => some (0, x.ticks rate profile)
  | 4 => some (1, x.alloc)
  | 3 => some (2, x.alloc)
  | 2 => some (3, 2 ^ 51 - lastGrant)
  | _ => none

/-- The entry R188 removes first, as (place in the list of bursts, alloc handle). -/
def trimVictim (s : State) (xs : List Placed) : Option (Nat × Nat) :=
  let cands := (xs.mapIdx fun i x => x.burst.parts.filterMap fun p =>
    (trimRank x.burst.rate x.burst.profile p ((Tab.get? s.map.snap.alloc p.alloc).map (·.lastGrant) |>.getD 0)).map
      fun r => (r, i, p.alloc)).flatten
  let lt (a b : (Nat × Nat) × Nat × Nat) : Bool := decide (a.1.1 < b.1.1) || (a.1.1 == b.1.1 && decide (a.1.2 < b.1.2))
  (cands.foldl (fun m x => match m with
    | none => some x
    | some y => if lt x y then some x else some y) none).map (·.2)

/-- One entry of a placed burst removed: the rest of the burst closes up after its start, and an empty burst goes. -/
def dropEntry (i a : Nat) (xs : List Placed) : List Placed :=
  (xs.mapIdx fun k x => if k = i then
    { x with burst := { x.burst with parts := x.burst.parts.filter fun p => p.alloc != a } } else x).filter
      fun x => !x.burst.parts.isEmpty

/-- Entries removed one by one until at most `limit` stand: what is left, and how many went; none where what may not be
removed exceeds the limit. -/
def trimFit (s : State) (limit : Nat) : Nat → Nat → List Placed → Option (List Placed × Nat)
  | 0, _, _ => none
  | n + 1, cut, xs =>
    if (xs.map fun x => x.burst.parts.length).foldl (· + ·) 0 ≤ limit then some (xs, cut)
    else
      match trimVictim s xs with
      | some v => trimFit s limit n (cut + 1) (dropEntry v.1 v.2 xs)
      | none => none

/-! ### Commit -/

/-- The plans of channel pair g at the snapshot; on a reserved spare, those that range an ONU expected there (R168). -/
def State.plansOf (s : State) (g : Nat) : List WinPlan :=
  s.map.snap.plans.filter fun p => p.g == g
    && (!s.reservedSpare g || (p.kind == .ranging && (Tab.get? s.map.snap.spare p.onu).map (·.1) == some g))

/-- The window entries due in a superframe: SN_WINDOW or RANGING, and QUIET. -/
def State.windowEntries (s : State) (g sfc : Nat) : List MapEntry :=
  (s.plansOf g).flatMap fun p =>
    let rate := match Tab.get? s.map.snap.onu p.onu with
      | some o => if p.kind == .ranging then rateAt o sfc else s.baseRate g
      | none => s.baseRate g
    let grant := match s.planGrant p sfc with
      | some (st, _, _) => [{
          kind := p.kind, alloc := if p.kind == .ranging then (s.oblAlloc p.onu).getD 0 else 0, start := st,
          len := s.winTicks g (p.kind == .ranging), cont := false, profile := 0, rate := rate, ploamu := false,
          dbru := false, onu := if p.kind == .ranging then p.onu else 0 }]
      | none => []
    grant ++ (s.planQuiet p sfc).map fun q => {
      kind := .quiet, alloc := 0, start := q.1.toNat, len := (q.2 - q.1).toNat, cont := false,
      profile := 0, rate := 0, ploamu := false, dbru := false, onu := 0 }

/-- Intervals no dynamic grant may use: the fixed set, and each window from its first to its last QUIET entry and its own
grant. -/
def State.blocked (s : State) (g sfc : Nat) : List (Int × Int) :=
  let wins := (s.plansOf g).flatMap fun p =>
    let q := s.planQuiet p sfc
    (match q.head?, q.getLast? with
      | some a, some z => [(a.1, z.2)]
      | _, _ => []) ++ (match s.planGrant p sfc with
      | some x => [(x.2.1, x.2.2)]
      | none => [])
  (s.reserved g sfc ++ wins).mergeSort fun a b => decide (a.1 ≤ b.1)

/-- The check before commit (R189): an entry that fails is removed and reported, until none fails. A FIXED entry so removed
stays missing, which no removal mends: such a page is not committed (R192). -/
def cleanPage (g target : Nat) : Nat → List MapEntry → State → List MapEntry × State
  | 0, es, s => (es, s)
  | n + 1, es, s =>
    match checkPage s g target (s.mapCh g).budgetS es with
    | none => (es, s)
    | some (r, i) =>
      match es[i]? with
      | none => (es, s)
      | some e => cleanPage g target n (es.eraseIdx i)
          (event 0x4003 [.u 9 g, .u 51 target, .u 15 e.onu] (bump .compileErr (g * 16 + r) s))

/-- What a committed page changes in an allocation: bytes granted, the last grant, the last opportunity to report; and the
ONU's load. The first grant with payload after a report that raised the demand from zero serves it (R194). -/
def chargeEntry (g target : Nat) (e : MapEntry) (bytes : Nat) (s : State) : State :=
  let s := onAlloc e.alloc (fun a => { a with
    latGrant := if a.latFrom.isSome && decide (0 < bytes)
        && ((Tab.get? s.map.snap.alloc e.alloc).bind (·.latFrom)) == a.latFrom then
        some (match a.latGrant with
          | some p => if p / 311040 = target then min p (target * 311040 + e.start) else target * 311040 + e.start
          | none => target * 311040 + e.start)
      else a.latGrant
    granted := if bytes = 0 then a.granted else a.granted ++ [(target * 311040 + e.start, bytes)]
    lastGrant := target
    lastDbru := if e.dbru then target else a.lastDbru
    pollDue := a.pollDue && !e.dbru }) s
  let s := onOnu e.onu (fun o => { o with loadUp := o.loadUp + bytes })
    { s with onu := { s.onu with chUp := Tab.upd s.onu.chUp g 0 (· + bytes) } }
  let there : Bool := match Tab.get? s.map.snap.onu e.onu with
    | some o => (o.tune.map fun t => 8 * o.tree + t.target) == some g
    | none => false
  let s := if there then { s with map := { s.map with tuneGiven := Tab.set s.map.tuneGiven e.onu target } } else s
  if e.ploamu then { s with map := { s.map with lastPloamu := Tab.set s.map.lastPloamu e.onu target } } else s

/-- A part placed as a dynamic entry of the page: its credit is spent by class (R180, R183). -/
def chargePart (g target : Nat) (es : List MapEntry) (x : MapEntry × Nat × Part) (s : State) : State :=
  let p := x.2.2
  if !es.contains x.1 then s
  else
    let s := ledTokens (creditScope p.alloc 1) 0 p.b4 0 (ledTokens (creditScope p.alloc 0) 0 p.b2 0 s)
    chargeEntry g target x.1 p.payload (onAlloc p.alloc (fun a => { a with
      aCredit := a.aCredit - p.b2, nCredit := a.nCredit - p.b4 }) s)

/-- The hint in collection after a compile (R195). -/
def hintCollect (g target : Nat) (ps : List (Nat × Part)) (short : Nat) (s : State) : State :=
  let xs := s.served g target
  let shp (h : Nat) : Nat × Nat := ((Tab.get? s.map.snap.onu h).map fun o => s.shape g target h o).getD (0, 0)
  let dem := xs.foldl (fun n x => n + ticksOf (shp x.2.1.onu).1 (shp x.2.1.onu).2 x.2.1.demand) 0
  let got := ps.foldl (fun n x => n + x.2.ticks (shp x.1).1 (shp x.1).2) 0
  { s with map := { s.map with
      hintAcc := Tab.upd s.map.hintAcc g {} fun h => { h with demanded := h.demanded + dem, granted := h.granted + got, short := h.short + short }
      unserved := Tab.upd s.map.unserved g [] fun t => xs.foldl (fun t x =>
        let b := ((ps.filter fun y => y.2.alloc == x.1).map (fun y => y.2.payload)).foldl (· + ·) 0
        Tab.upd t x.2.1.onu 0 (· + (x.2.1.demand - b))) t } }

/-- The core cycles of a compile: at most the bound of R171, otherwise free. -/
def compileCost (g entries : Nat) (s : State) : State :=
  let a := (s.map.snap.alloc.filter fun e => ((Tab.get? s.map.snap.onu e.2.onu).map Onu.g) == some g).length
  let n := s.freeVal % (1500 + 12 * a + 40 * entries + 1)
  let s := s.drawn
  { s with map := { s.map with cyclesNow := Tab.upd s.map.cyclesNow (g / 8) 0 (· + n) } }

/-- The compile of channel pair g for the next superframe, and its commit (R169, R170, R181 to R189). -/
def compilePage (g : Nat) (s : State) : State :=
  let target := s.clk.sfc + 1
  let guard := s.paramN 0x4010 0
  let m := s.mapCh g
  let blocked := s.blocked g target
  let gaps := gapsFrom 0 guard blocked
  let free := gaps.foldl (fun n x => n + (x.2 - x.1).toNat) 0
  let isDue (f : FixedEntry) : Bool := fixedDue f target
  let open_ (f : FixedEntry) : Bool := ((Tab.get? s.map.snap.alloc f.entry.alloc).map (·.acked)).getD false
  let fixed := ((m.fixedAt target).filter fun f => isDue f && open_ f).map (·.entry)
  let s := onMap g (fun m => { m with
    withheld := ((m.fixedAt target).filter fun f => isDue f && !open_ f).map (·.entry.alloc) }) s
  let wins := s.windowEntries g target
  let must := fixed.length + (wins.filter isGrant).length
  let limit := min 512 (32 * m.budgetS)
  let (job, mand, poll, short) := runStages s g target guard free
  let split := (policyIn s.map.snap.policy 0x4A15 g).toNat
  let least (a : Nat) : Nat := 16 * ((Tab.get? s.map.snap.alloc a).map (·.a.minGrant)).getD 0
  let placed := placeAll least guard split job.bursts gaps
  let parts := (placed.map fun x => x.burst.parts.length).foldl (· + ·) 0
  match if must ≤ limit then trimFit s (limit - must) (parts + 1) 0 placed else none with
  | none => event 0x4002 [.u 9 g] (bump .budgetShort g (onMap g (fun m => { m with compiled := true }) s))
  | some (kept, cut) =>
    let dyn := placedEntries kept []
    let ps := dyn.map (·.2)
    let page := (fixed ++ wins ++ dyn.map (·.1)).mergeSort fun a b => decide (a.start ≤ b.start)
    let (page, s) := cleanPage g target page.length page s
    if (checkPage s g target m.budgetS page).isSome then
      marverTrouble (g / 8) (bump .compileLate g (onMap g (fun m => { m with compiled := true }) s))
    else
    let s := onMap g (fun m => { m with
      standby := page, standbyTarget := target, compiled := true, cancelled := []
      commit := some { target := target, late := decide (s.clk.ltb % 311040 + 8192 > 311040) } }) s
    let grants := (page.filter isGrant).length
    let s := grantsCreatedN g target grants (bump .compilePages g s)
    let lost := job.bursts.flatMap fun b => b.parts.filter fun p =>
      p.dbru && !(ps.any fun y => y.1 == b.onu && y.2.alloc == p.alloc && y.2.dbru)
    let s := bumpBy .mandatoryDefer g (mand + (lost.filter (·.stage == 1)).length)
      (bumpBy .pollDefer g (poll + (lost.filter (·.stage != 1)).length) (bumpBy .trimEntries g cut s))
    let s := short.foldl (fun s e => bumpBy .assuredShort e.1 e.2 (bumpBy .assuredShortG g e.2 s)) s
    let s := dyn.foldl (fun s x => chargePart g target page x s) s
    let s := (page.filter (·.kind == .fixed)).foldl (fun s e => chargeEntry g target e (entryPayload e) s) s
    compileCost g page.length (hintCollect g target ps (short.foldl (fun n e => n + e.2) 0) s)

/-- A higher channel pair of g's tree has its page of this compile cycle committed: pages are compiled in ascending order of c
(R170). -/
def State.laterCommitted (s : State) (g : Nat) : Bool :=
  (List.range 8).any fun c => decide (g % 8 < c) && match (s.mapCh (g / 8 * 8 + c)).commit with
    | some x => x.target == s.clk.sfc + 1
    | none => false

/-- MAP_COMMIT (R169, R170): the compile of g ends and its page is committed, not later than map.compile_lead before the
boundary. While a late page stays COMMITTED the core has no page to write: its write is refused (R31, R160). -/
def execMapCommit (g : Nat) (s : State) : Host.Outcome State Fault Refusal :=
  island (marverBlk (g / 8)) (fun s =>
    let m := s.mapCh g
    if g < 512 && s.coreRuns (g / 8) && !m.compiled && s.map.snap.sfc == s.clk.sfc && !s.laterCommitted g
        && decide (s.clk.ltb % 311040 + (policyIn s.map.snap.policy 0x4A10 g).toNat ≤ 311040) then
      if m.commit.isNone then compilePage g s else bump .pageRefusedMap g (onMap g (fun m => { m with compiled := true }) s)
    else s) s

/-- COMPILE_DEADLINE (R170): a page that is not committed by map.compile_lead before the boundary. -/
def execCompileDeadline (g : Nat) (s : State) : Host.Outcome State Fault Refusal :=
  island (marverBlk (g / 8)) (fun s =>
    let m := s.mapCh g
    if s.coreRuns (g / 8) && !m.compiled
        && decide (311040 < s.clk.ltb % 311040 + (policyIn s.map.snap.policy 0x4A10 g).toNat) then
      marverTrouble (g / 8) (bump .compileLate g (onMap g (fun m => { m with compiled := true }) s))
    else s) s

end Sys2Proof.Machine
end

