-- ==== Sys2Proof/Machine/Lanes.lean ====
section
/-! DEFINITION. Lanes, the channel ladder, the phase memory, module management over I3C, the sideband links, and the
uplink and Ixrardo ports (R37 to R74, R580, R581). -/

namespace Sys2Proof.Machine

/-! ### Channel ladder (R42, R43) -/

/-- The channel pair's lanes. -/
def State.laneCh (s : State) (g : Nat) : LaneCh := Tab.getD s.lane.ch g {}

/-- The channel pair's lanes changed. -/
def onLaneCh (g : Nat) (f : LaneCh → LaneCh) (s : State) : State :=
  { s with lane := { s.lane with ch := Tab.upd s.lane.ch g {} f } }

/-- Timeout of each rung in map ticks (R43); P4 has none. -/
def rungTimeout (rung : Nat) : Nat :=
  match rung with
  | 0 => msT 1
  | 1 => msT 50
  | 2 => msT 2
  | _ => usT 10

/-- The CTLE setting of a bring-up: the parameter at the base upstream rate plus the plan's trim, clamped (R557). -/
def State.ctleFor (s : State) (g : Nat) : Nat :=
  (clampI 0 15 (s.param 0x1013 (4 * g + s.baseRate g) + Tab.getD s.ann.plan.trims g 0)).toNat

/-- The CTLE setting for a burst at a rate (R40): the base rate's as the bring-up set it, another rate's from its own
parameter with the trim of that bring-up (R557). -/
def State.ctleAt (s : State) (g rate : Nat) : Nat :=
  let c := s.laneCh g
  if rate = s.baseRate g then c.ctle else (clampI 0 15 (s.param 0x1013 (4 * g + rate) + c.trim)).toNat

/-- The I3C bus of channel pair g. -/
def i3cBusOf (g : Nat) : Nat := g / 32

/-- A bus changed. -/
def onBus (b : Nat) (f : I3cBus → I3cBus) (s : State) : State :=
  { s with lane := { s.lane with bus := Tab.upd s.lane.bus b {} f } }

/-- The next transfer starts on an idle bus: a host transfer is always served before the next poll (R66). -/
def I3cBus.next (b : I3cBus) : I3cBus :=
  match b.cur with
  | some _ => b
  | none =>
    match b.host with
    | x :: r => { b with cur := some x, host := r }
    | [] =>
      match b.polls with
      | x :: r => { b with cur := some x, polls := r }
      | [] => b

/-- GETPID to a module that holds its address (R43, R63): it joins its bus among the device's own transfers. -/
def getPid (g : Nat) (s : State) : State :=
  if (s.laneCh g).addressed then
    onBus (i3cBusOf g) (fun b =>
      I3cBus.next { b with polls := b.polls ++ [{ g := g, cmd := none, addr := 0, len := 0, data := [], pid := true }] }) s
  else s

/-- A link changed. -/
def onLink (t : Nat) (f : SbLink → SbLink) (s : State) : State :=
  { s with lane := { s.lane with link := Tab.upd s.lane.link t {} f } }

/-- A calibration begins (R60): an ECHO with the next tag is sent. -/
def sendEcho (t : Nat) (s : State) : State :=
  let tag := (Tab.getD s.lane.link t {}).echoTag
  onLink t (fun k => { k with echo := some tag, echoTag := (tag + 1) % 256, calAt := some s.sbFrameNow }) (sbSend t 0 0x5 tag s)

/-- The calibration of rung P1 (R43, R60) on a link in LOCKED, unless one is under way. -/
def calibrateP1 (t : Nat) (s : State) : State :=
  let k := Tab.getD s.lane.link t {}
  if k.state == .locked && k.echo.isNone then sendEcho t s else s

/-- A channel pair of the tree is in rung P1. -/
def State.treeInP1 (s : State) (t : Nat) : Bool :=
  (treePairs t).any fun g => ((s.laneCh g).ladder.map (·.rung)) == some 1

/-- The action of a rung as it begins (R43). The transmit lane of a tree that the claim engine gates stays in STANDBY (R42,
R446). -/
def rungStart (g rung : Nat) (s : State) : State :=
  match rung with
  | 0 => onLaneCh g (fun c => { c with
      txGoal := if c.tx = .off then .standby else c.txGoal, rxGoal := if c.rx = .off then .standby else c.rxGoal }) s
  | 1 => calibrateP1 (g / 8) (getPid g (onLaneCh g (fun c => { c with pidOk := false }) s))
  | 2 =>
    if s.holdsTree (g / 8) then sbSend (g / 8) (g % 8) 0x2 0 (onLaneCh g (fun c => { c with txGoal := .active }) s) else s
  | 3 => onLaneCh g (fun c => { c with rxGoal := .active, ctle := s.ctleFor g, trim := Tab.getD s.ann.plan.trims g 0 }) s
  | _ => s

/-- The ladder moves to a rung. -/
def rungEnter (g rung : Nat) (cmd : Req) (s : State) : State :=
  rungStart g rung (onLaneCh g (fun c => { c with
    ladder := some { rung := rung, cmd := cmd, deadline := s.clk.now + rungTimeout rung, clean := s.clk.now } }) s)

/-- The rung's success condition as the device sees it (R43). P2 of a channel pair whose tree the claim engine gates asks for no
ACTIVE lane (DEDUCED, notes/assumptions/107.md). -/
def State.rungMet (s : State) (g : Nat) (l : Ladder) : Bool :=
  let c := s.laneCh g
  let k := Tab.getD s.lane.link (g / 8) {}
  match l.rung with
  | 0 => c.tx != .off && c.rx != .off && c.txPll && c.rxPll
  | 1 => c.addressed && c.pidOk && k.state == .locked && k.delay.isSome && k.echo.isNone
  | 2 => (c.tx == .active || !s.holdsTree (g / 8)) && !c.txFault && decide (l.clean + sfT 8 ≤ s.clk.now)
  | _ => c.rx == .active

/-- ChannelEnable (R43, R489). -/
def channelEnable (q : Req) (g : Nat) (s : State) : State × Option Reply :=
  let c := s.laneCh g
  if 512 ≤ g then deny .badArg s
  else if !s.ltbSet || s.isSpare g then deny .badState s
  else if c.ladder.isSome then deny .busy s
  else if c.enabled then done s
  else
    let s1 := rungEnter g 0 q s
    let c1 := s1.laneCh g
    waits (if c1.tx != .off && c1.rx != .off && c1.txPll && c1.rxPll then rungEnter g 1 q s1 else s1)

/-- CHANNEL_ENABLE (R43). -/
def execChannelEnable (q : Req) (g : Nat) (s : State) : Host.Outcome State Fault Refusal :=
  kilak q 0x1000 (channelEnable q g) s

/-- LADDER_RUNG_SUCCESS (R43): the next rung begins; from P3 the channel pair is handed to activation and the command
completes. -/
def rungSuccess (g : Nat) (s : State) : State :=
  match (s.laneCh g).ladder with
  | none => s
  | some l =>
    if !s.rungMet g l then s
    else if l.rung < 3 then rungEnter g (l.rung + 1) l.cmd s
    else complete l.cmd 0x1000 .ok (onLaneCh g (fun c => { c with ladder := none, enabled := true }) s)

/-- LADDER_RUNG_SUCCESS (R43). -/
def execLadderRungSuccess (g : Nat) (s : State) : Host.Outcome State Fault Refusal :=
  island (ponBlk g) (rungSuccess g) s

/-- A ladder ends without success: lanes in STANDBY, ChannelEnable completes with FAILED and the rung. -/
def ladderFail (g : Nat) (l : Ladder) (s : State) : State :=
  complete l.cmd 0x1000 { code := .failed, detail := l.rung * 2 ^ 24 }
    (onLaneCh g (fun c => { c with ladder := none, txGoal := .standby, rxGoal := s.restGoal g .standby }) s)

/-- LADDER_RUNG_TIMEOUT (R43). -/
def rungTimeoutAct (g : Nat) (s : State) : State :=
  match (s.laneCh g).ladder with
  | none => s
  | some l =>
    if l.deadline ≤ s.clk.now && l.rung < 4 then bump .laneFail g (ladderFail g l s) else s

/-- LADDER_RUNG_TIMEOUT (R43). -/
def execLadderRungTimeout (g : Nat) (s : State) : Host.Outcome State Fault Refusal :=
  island (ponBlk g) (rungTimeoutAct g) s

/-- One power step of a lane toward its goal (R42). -/
def laneStep (cur goal : LanePwr) : LanePwr :=
  match cur, goal with
  | .off, .off => .off
  | .off, _ => .standby
  | .standby, g => g
  | .active, .active => .active
  | .active, _ => .standby

/-- LANE_TRANSITION_DONE (R42): the transition in progress completes; a lane out of OFF has its PLL locked. -/
def laneTransition (g : Nat) (rx : Bool) (s : State) : State :=
  onLaneCh g (fun c =>
    if rx then let p := laneStep c.rx c.rxGoal; { c with rx := p, rxPll := p != .off }
    else let p := laneStep c.tx c.txGoal; { c with tx := p, txPll := p != .off }) s

/-- LANE_TRANSITION_DONE (R42). -/
def execLaneTransitionDone (g : Nat) (rx : Bool) (s : State) : Host.Outcome State Fault Refusal :=
  island (ponBlk g) (laneTransition g rx) s

/-- ChannelDisable (R489): BUSY while an ONU of the channel pair is past discovery; a ladder in progress ends first; the
lanes go OFF. -/
def channelDisable (g : Nat) (s : State) : State × Option Reply :=
  if 512 ≤ g then deny .badArg s
  else if s.anyPastDiscovery g then deny .busy s
  else
    let s1 := match (s.laneCh g).ladder with
      | some l => ladderFail g l s
      | none => s
    done (onLaneCh g (fun c => { c with enabled := false, txGoal := .off, rxGoal := s.restGoal g .off }) s1)

/-- CHANNEL_DISABLE (R489). -/
def execChannelDisable (q : Req) (g : Nat) (s : State) : Host.Outcome State Fault Refusal :=
  kilak q 0x1001 (channelDisable g) s

/-- The 64 bits of a phase memory entry (R47). -/
def PhaseEnt.word (e : PhaseEnt) : Nat :=
  fields [(1, flag e.valid), (4, e.confidence), (5, signed 5 e.tickOffset), (6, e.finePhase), (12, signed 12 e.freqErr),
    (8, e.level), (2, e.rate), (26, e.lastSeen)]

/-- PHASE_MEMORY_READ (R47): BAD_STATE for a FREE handle. -/
def execPhaseMemoryRead (q : Req) (h c : Nat) (s : State) : Host.Outcome State Fault Refusal :=
  kilak q 0x1002 (fun s =>
    if 8 ≤ c then deny .badArg s
    else if (s.onuState h == .free) then deny .badState s
    else doneWith [.rcd 64 (s.phaseEnt h c).word] s) s

/-- What the loop of receive lane g is loaded with for an expected burst of ONU h at a rate. -/
def State.loadFor (s : State) (g h arrival rate : Nat) : PhaseLoad :=
  let e := s.phaseEnt h (g % 8)
  { onu := h, arrival := arrival, rate := rate, ent := e, ctle := s.ctleAt g rate,
    phase := e.tickOffset * 64 + e.finePhase + Config.rateSkew g rate }

/-- The burst of ONU h that the lane reads the phase memory for next: the first one expected that it has not read for. -/
def State.nextLoad (s : State) (g h : Nat) : Option Expect :=
  (s.mapCh g).expect.find? fun x => x.onu == h && (x.kind == .dynamic || x.kind == .fixed)
    && !((Tab.getD s.lane.loaded g []).any fun l => l.onu == h && l.arrival == x.arrival)

/-- PHASE_MEMORY_LOAD (R48): the loop of receive lane g is loaded for the next burst of ONU h: the stored phase and the skew of
the burst's rate (R46), in 1/64 tick, with freq_err, level and the CTLE setting. Loads of bursts no longer expected are
forgotten. -/
def phaseLoad (g h : Nat) (s : State) : State :=
  let l := match s.nextLoad g h with
    | some x => s.loadFor g h x.arrival x.rate
    | none => s.loadFor g h 0 (s.onuRate h)
  let old := (Tab.getD s.lane.loaded g []).filter fun l => (s.mapCh g).expect.any fun x => x.arrival == l.arrival
  { s with lane := { s.lane with loaded := Tab.set s.lane.loaded g (old ++ [l]) } }

/-- PHASE_MEMORY_LOAD (R48). -/
def execPhaseMemoryLoad (g h : Nat) (s : State) : Host.Outcome State Fault Refusal :=
  island (ponBlk g) (phaseLoad g h) s

/-! ### Module management over I3C (R63 to R66) -/

/-- A host transfer: BAD_ARG outside the module's registers, NO_TARGET at once for a module without a dynamic address. -/
def moduleXfer (q : Req) (write : Bool) (g addr len : Nat) (data : List Nat) (s : State) : State × Option Reply :=
  if 512 ≤ g || 256 ≤ addr || len = 0 || 64 < len || 256 < addr + len then deny .badArg s
  else if !(s.laneCh g).addressed then deny .noTarget s
  else waits (onBus (i3cBusOf g) (fun b =>
    I3cBus.next { b with host := b.host ++ [{ g := g, cmd := some (q, write), addr := addr, len := len, data := data }] }) s)

/-- MODULE_READ (R66). -/
def execModuleRead (q : Req) (g addr len : Nat) (s : State) : Host.Outcome State Fault Refusal :=
  kilak q 0x1003 (moduleXfer q false g addr len []) s

/-- MODULE_WRITE (R66). -/
def execModuleWrite (q : Req) (g addr : Nat) (data : List Nat) (s : State) : Host.Outcome State Fault Refusal :=
  kilak q 0x1004 (moduleXfer q true g addr data.length data) s

/-- I3C_POLL (R66): i3c.poll_interval after the last one, a polling transfer of a module that holds its address joins its
bus. -/
def i3cPoll (g : Nat) (s : State) : State :=
  let c := s.laneCh g
  if c.addressed && decide (c.pollAt ≤ s.clk.now) then
    onBus (i3cBusOf g) (fun b =>
      I3cBus.next { b with polls := b.polls ++ [{ g := g, cmd := none, addr := 0, len := 0, data := [] }] })
      (onLaneCh g (fun c => { c with pollAt := s.clk.now + msT (s.paramN 0x1401 0) }) s)
  else s

/-- I3C_POLL (R66). -/
def execI3cPoll (g : Nat) (s : State) : Host.Outcome State Fault Refusal := island (sbBlk (g / 8)) (i3cPoll g) s

/-- The octets of a transfer's data. -/
def dataList (k : Nat) (d : List Nat) : RVal := .lst 1 ((d ++ List.replicate k 0).take k)

/-- I3C_TRANSFER_DONE (R66): an acknowledged transfer ends; one not acknowledged is retried three times, then counted in
MODULE_UNREACHABLE and ended with NO_TARGET. -/
def i3cDone (bus : Nat) (ack : Bool) (data : List Nat) (s : State) : State :=
  match (Tab.getD s.lane.bus bus {}).cur with
  | none => s
  | some x =>
    let free := onBus bus (fun b => I3cBus.next { b with cur := none })
    if ack then
      match x.cmd with
      | some (q, true) => complete q 0x1004 .ok (free s)
      | some (q, false) => complete q 0x1003 (.vals [dataList x.len data]) (free s)
      | none => free (onLaneCh x.g (fun c => if x.pid then { c with pidOk := true } else { c with polled := data }) s)
    else if x.retries < 3 then onBus bus (fun b => { b with cur := some { x with retries := x.retries + 1 } }) s
    else
      let s1 := bump .moduleUnreachable x.g (free s)
      match x.cmd with
      | some (q, w) => complete q (if w then 0x1004 else 0x1003) (.err .noTarget) s1
      | none => s1

/-- I3C_TRANSFER_DONE (R66). -/
def execI3cTransferDone (bus : Nat) (ack : Bool) (data : List Nat) (s : State) : Host.Outcome State Fault Refusal :=
  island (sbBlk (4 * bus)) (i3cDone bus ack data) s

/-- I3C_IN_BAND_INTERRUPT (R63): accepted with up to 4 payload octets from a module that holds its address. -/
def execI3cInBandInterrupt (g payload : Nat) (s : State) : Host.Outcome State Fault Refusal :=
  island (sbBlk (g / 8)) (fun s =>
    if (s.laneCh g).addressed then onLaneCh g (fun c => { c with ibi := payload % 2 ^ 32 }) s else s) s

/-! ### Sideband links (R55 to R62) -/

/-- n bits of the frame-synchronous scrambler x^7 + x^6 + 1 from a register state, most significant first, after the bits of
acc. -/
def scramKey : Nat → Nat → Nat → Nat
  | 0, _, acc => acc
  | n + 1, st, acc => scramKey n (st * 2 % 128 + (st / 64 + st / 32) % 2) (acc * 2 + st / 64 % 2)

/-- The scrambler over frame bits 16 to 255, reset to all ones at bit 16 (R55). -/
def sbScram : Nat := scramKey 240 127 0

/-- Frame bits 16 to 255 descrambled (R55). -/
def sbClear (f : SbFrame) : Nat := Nat.xor (f.word % 2 ^ 240) sbScram

/-- The sync word is at its place. -/
def sbSyncOk (f : SbFrame) : Bool := f.word / 2 ^ 240 % 2 ^ 16 == 0xF628

/-- frame_no. -/
def sbFrameNo (f : SbFrame) : Nat := bits (sbClear f) 239 229

/-- link_state. -/
def sbLinkState (f : SbFrame) : Nat := bits (sbClear f) 228 227

/-- The CRC over frame bits 16 to 223, taken as octets, the frame's bits most significant first (DESIGN CHOICE,
notes/assumptions/87.md). -/
def sbCrcOk (f : SbFrame) : Bool := crcOf 0 (beOctets 26 (sbClear f / 2 ^ 32)) == sbClear f % 2 ^ 32

/-- The fields of an event word (R56). -/
def sbEventOf (w : Nat) : SbEvent := { chan := bits w 31 29, type := bits w 28 25, time := bits w 24 13, param := bits w 12 0 }

/-- The six event words, event[0] first. -/
def sbEvents (f : SbFrame) : List SbEvent := (List.range 6).map fun i => sbEventOf (sbClear f / 2 ^ (192 - 32 * i))

/-- The event word of an event (R56). -/
def sbEventWord (e : SbEvent) : Nat := fields [(3, e.chan), (4, e.type), (12, e.time), (13, e.param)]

/-- The bits of link_state for a receive state (R55). -/
def SbState.code : SbState → Nat
  | .hunt => 0
  | .presync => 1
  | .locked => 2

/-- A frame on the line (R55): its number, its sender's receive state and at most six events; unused slots carry NOP. -/
def sbEncode (frameNo : Nat) (st : SbState) (evs : List SbEvent) : Nat :=
  let body := ((evs.map sbEventWord ++ List.replicate 6 0).take 6).foldl (fun a w => a * 2 ^ 32 + w)
    (fields [(11, frameNo), (2, st.code), (3, 0)])
  0xF628 * 2 ^ 240 + Nat.xor (body * 2 ^ 32 + crcOf 0 (beOctets 26 body)) sbScram

/-- The outbound frame of tree t with a number on the continuous sequence (R54, R55): its events in slot order. -/
def State.sbOutFrame (s : State) (t frame : Nat) : Nat :=
  let k := Tab.getD s.lane.link t {}
  sbEncode (frame % 1215) k.state ((k.out.filter (·.frame == frame)).map fun e =>
    { chan := e.chan, type := e.type, time := e.time, param := e.param })

/-- The receive state after one frame position (R58): whether the sync word was seen there, and its frame_no. -/
def SbLink.sync (k : SbLink) (syncOk : Bool) (frameNo : Nat) : SbLink :=
  let nxt := (frameNo + 1) % 1215
  match k.state with
  | .hunt => if syncOk then { k with state := .presync, confirms := 0, nextFrame := nxt } else k
  | .presync =>
    if syncOk && frameNo == k.nextFrame then
      if k.confirms + 1 ≥ 3 then { k with state := .locked, confirms := 0, misses := 0, nextFrame := nxt }
      else { k with confirms := k.confirms + 1, nextFrame := nxt }
    else { k with state := .hunt, confirms := 0 }
  | .locked =>
    if syncOk then { k with misses := 0, nextFrame := nxt }
    else if k.misses + 1 ≥ 4 then { k with state := .hunt, misses := 0 }
    else { k with misses := k.misses + 1, nextFrame := (k.nextFrame + 1) % 1215 }

/-- SIDEBAND_FRAME_RECEIVE (R58): hunted for sync; while locked, a frame whose CRC fails is discarded whole and counted. The
events of a frame that is not act in rows of their own (notes/assumptions/87.md). A link that locks while a channel pair of
its tree is in rung P1 is calibrated (R60). -/
def sbFrame (t : Nat) (f : SbFrame) (s : State) : State :=
  let k := Tab.getD s.lane.link t {}
  let k1 := k.sync (sbSyncOk f) (sbFrameNo f)
  let was := k.state == .locked
  let s := onLink t (fun _ => if was && sbCrcOk f then { k1 with peerState := sbLinkState f, rx := sbEvents f } else { k1 with rx := [] }) s
  let s := if was && k1.state == .hunt then bump .sblLockLoss t s else s
  let s := if was && !sbCrcOk f then bump .sblCrc t s else s
  if !was && k1.state == .locked && s.treeInP1 t then calibrateP1 t s else s

/-- SIDEBAND_FRAME_RECEIVE (R58). -/
def execSidebandFrameReceive (link : Nat) (f : SbFrame) (s : State) : Host.Outcome State Fault Refusal :=
  island (sbBlk link) (sbFrame link f) s

/-- An event of a locked link's frame. -/
def sbEvent (link : Nat) (f : State → State) (s : State) : Host.Outcome State Fault Refusal :=
  island (sbBlk link) (fun s => if (Tab.getD s.lane.link link {}).state == .locked then f s else s) s

/-- RSSI_RESULT (R57): the strength code of the last trigger on the channel, kept for the ONU whose burst it was. -/
def execRssiResult (link chan code onu : Nat) (s : State) : Host.Outcome State Fault Refusal :=
  sbEvent link (setRssi onu chan (code % 8192)) s

/-- SIG_DETECT (R57). -/
def execSigDetect (link chan : Nat) (v : Bool) (s : State) : Host.Outcome State Fault Refusal :=
  sbEvent link (onLaneCh (8 * link + chan % 8) (fun c => { c with sigDetect := v })) s

/-- TX_FAULT (R57): a fault during rung P2 restarts its count of clean superframes (R43). -/
def execTxFault (link chan : Nat) (v : Bool) (s : State) : Host.Outcome State Fault Refusal :=
  sbEvent link (fun s => onLaneCh (8 * link + chan % 8) (fun c => { c with
    txFault := v
    ladder := c.ladder.map fun l => { l with clean := s.clk.now } }) s) s

/-- The static address of the module of channel pair g, which SETDASA assigns as its dynamic address too (R64). -/
def i3cAddr (g : Nat) : Nat := 0x10 + 8 * (g / 8 % 4) + g % 8

/-- MOD_PRESENT (R64): a module that becomes present is given its dynamic address by SETDASA, if it answers; one that goes
absent holds none. A module given its address during rung P1 is sent GETPID (R43). -/
def modPresent (g : Nat) (v answers : Bool) (s : State) : State :=
  let new := v && answers && !(s.laneCh g).addressed
  let s := onLaneCh g (fun c => { c with
    present := v, addressed := v && (answers || c.addressed)
    dynAddr := if v && (answers || c.addressed) then some (i3cAddr g) else none }) s
  if new && ((s.laneCh g).ladder.map (·.rung)) == some 1 then getPid g s else s

/-- MOD_PRESENT (R64). -/
def execModPresent (link chan : Nat) (v answers : Bool) (s : State) : Host.Outcome State Fault Refusal :=
  sbEvent link (modPresent (8 * link + chan % 8) v answers) s

/-- LATE (R61): counted in SBL_LATE. -/
def execLate (link type : Nat) (s : State) : Host.Outcome State Fault Refusal :=
  sbEvent link (fun s => if type < 16 then bump .sblLate link s else s) s

/-- The one-way delay of a round trip (R60): half of what the turnaround leaves, a half rounded upward. -/
def oneWayDelay (roundTrip turnaround8 : Nat) : Nat := (roundTrip - turnaround8 * 8 + 1) / 2

/-- Distance of two delays. -/
def absDiff (a b : Nat) : Nat := (a - b) + (b - a)

/-- A calibration result (R60): the first is put in force; one within 2 ticks replaces the delay at once; others wait for
three consecutive calibrations that agree within 1 tick. A delay once in force is kept by a later rung P1, whose first
calibration counts as a later one (DESIGN CHOICE, notes/assumptions/86.md). -/
def SbLink.calibrate (k : SbLink) (d : Nat) : SbLink :=
  match k.delay with
  | none => { k with delay := some d, cands := [], echo := none }
  | some cur =>
    if absDiff d cur ≤ 2 then { k with delay := some d, cands := [], echo := none }
    else
      let cs := (d :: k.cands).take 3
      if cs.length = 3 && cs.all (fun a => cs.all fun b => decide (absDiff a b ≤ 1)) then
        { k with delay := some d, cands := [], echo := none }
      else { k with cands := cs, echo := none }

/-- ECHO (R60): the answer to the outstanding ECHO. -/
def execEcho (link tag turnaround8 roundTrip : Nat) (s : State) : Host.Outcome State Fault Refusal :=
  sbEvent link (onLink link (fun k =>
    if k.echo == some (tag % 256) then k.calibrate (oneWayDelay roundTrip (turnaround8 % 32)) else k)) s

/-- The event's type is one the device accepts on the return direction (R57). -/
def returnType (t : Nat) : Bool := t = 0x0 || t = 0x5 || (0x8 ≤ t && t ≤ 0xC)

/-- SBL_BAD_EVENT (R57): a reserved type or one of the other direction is ignored and counted. -/
def execSblBadEvent (link : Nat) (ev : SbEvent) (s : State) : Host.Outcome State Fault Refusal :=
  sbEvent link (fun s => if returnType ev.type then s else bump .sblBadEvent link s) s

/-- SIDEBAND_CALIBRATION (R60): 1,215 frames after the last calibration began, an ECHO with the next tag is sent. -/
def execSidebandCalibration (link : Nat) (s : State) : Host.Outcome State Fault Refusal :=
  sbEvent link (fun s =>
    match (Tab.getD s.lane.link link {}).calAt with
    | some f => if f + 1215 ≤ s.sbFrameNow then sendEcho link s else s
    | none => sendEcho link s) s

/-! ### Uplink ports (R67 to R71) -/

/-- Lanes per port of a group mode. -/
def lanesPerPort (mode : Nat) : Nat :=
  match mode with
  | 0 => 8
  | 1 => 4
  | 2 => 2
  | 3 => 1
  | _ => 8

/-- One sync header on a PCS lane (R70): the lane after it, and whether it dropped lock. The search after a loss of lock starts
one bit beyond the position that lost it (DESIGN CHOICE, notes/assumptions/88.md). -/
def PcsLane.header (l : PcsLane) (valid : Bool) : PcsLane × Bool :=
  if l.locked then
    let hist := (valid :: l.hist).take 64
    if (hist.filter (!·)).length ≥ 16 then ({ locked := false, cand := (l.cand + 1) % 66, run := 0, hist := [] }, true)
    else ({ l with hist := hist }, false)
  else if valid then
    if l.run + 1 ≥ 64 then ({ l with locked := true, run := 0, hist := [] }, false) else ({ l with run := l.run + 1 }, false)
  else ({ l with cand := (l.cand + 1) % 66, run := 0 }, false)

/-- Sync headers in order: the lane after them and the losses of lock. -/
def pcsHeaders : List Bool → PcsLane → PcsLane × Nat
  | [], l => (l, 0)
  | v :: vs, l =>
    let (l1, lost) := l.header v
    let (l2, n) := pcsHeaders vs l1
    (l2, n + flag lost)

/-- Sync headers of one PCS lane of a port (R70). -/
def blockLock (port lane : Nat) (headers : List Bool) (s : State) : State :=
  let (l, n) := pcsHeaders headers (Tab.getD s.lane.pcs (port * 32 + lane % 32) {})
  bumpBy .blockLockLoss port n { s with lane := { s.lane with pcs := Tab.set s.lane.pcs (port * 32 + lane % 32) l } }

/-- PORT_ADMIN_STATE_CHANGE (R71): a port that exists in its group's mode goes up with the settings now held (R69), or
down. Packets in flight for a port that goes down are dropped. -/
def execPortAdminStateChange (port : Nat) (up : Bool) (s : State) : Host.Outcome State Fault Refusal :=
  island (upBlk (port / 8)) (fun s =>
    if !s.portExists port then s
    else
      let n := lanesPerPort (s.paramN 0x1500 (port / 8))
      let old := Tab.getD s.lane.port port {}
      let p : UpPort := if up && !old.up then
          { up := true, anMode := s.paramN 0x1501 (port / 8),
            ffe := (List.range n).map fun i => s.param 0x1502 (port + i) }
        else { old with up := up }
      let s1 := { s with lane := { s.lane with port := Tab.set s.lane.port port p } }
      if up then s1 else portDownFlush port s1) s

end Sys2Proof.Machine
end

