-- ==== Sys2Proof/Machine/Onu.lean ====
section
/-! DEFINITION. ONU activation: the commands of subsystem 0x3, the upstream PLOAM messages, discovery and ranging windows,
timeouts, the rate ladder, retuning and balancing (R108 to R139). -/

namespace Sys2Proof.Machine

/-! ### Commands -/

/-- OnuCreate (R489): the lowest free handle; its phase memory is cleared where the serial number is another (R110). -/
def onuCreate (tree serial onuId : Nat) (s : State) : State × Option Reply :=
  if 64 ≤ tree || (1020 ≤ onuId && onuId != 0x3FF) then deny .badArg s
  else if (s.findSerial serial).isSome then deny .busy s
  else if onuId != 0x3FF && (s.onuIdTaken tree onuId
      || s.onu.ctx.any fun e => e.2.tree == tree && e.2.wantId == some onuId) then deny .badArg s
  else
    match lowestFree (Tab.keys s.onu.ctx) 0 32768 with
    | none => deny .limit s
    | some h => doneWith [.u 15 h] (newContext h { tree := tree, state := .provisioned, serial := serial, hostSerial := true,
                                                   wantId := if onuId = 0x3FF then none else some onuId, provisioned := true } s)

/-- ONU_CREATE (R489). -/
def execOnuCreate (q : Req) (tree serial onuId : Nat) (s : State) : Host.Outcome State Fault Refusal :=
  kilak q 0x3000 (onuCreate tree serial onuId) s

/-- ONU_DESTROY (R139): BUSY in any state but DISABLED, PROVISIONED or FREE. -/
def execOnuDestroy (q : Req) (h : Nat) (s : State) : Host.Outcome State Fault Refusal :=
  kilak q 0x3001 (fun s =>
    match s.onuState h with
    | .free => done s
    | .provisioned | .disabled => done { s with onu := { s.onu with ctx := Tab.erase s.onu.ctx h } }
    | _ => deny .busy s) s

/-- The 128 bits of OnuStatus (R108). -/
def Onu.status (o : Onu) : Nat :=
  fields [(64, o.serial), (4, o.state.ctorIdx), (6, o.tree), (3, o.chan), (10, o.onuId.getD 0), (2, o.curRate),
    (2, o.maxRate), (1, flag o.ext), (1, flag o.seeded), (1, flag o.tribOk), (1, flag o.carryOk), (1, flag o.pinned),
    (16, o.tuneTime), (8, o.chanMask), (4, o.lastFail), (4, 0)]

/-- The 32 bits of an equalisation record (R109). -/
def EqRec.word (r : EqRec) : Nat := fields [(1, flag r.valid), (1, flag r.carried), (30, r.eqd64)]

/-- A command on a context that exists. -/
def withOnu (h : Nat) (f : Onu → State → State × Option Reply) (s : State) : State × Option Reply :=
  match Tab.get? s.onu.ctx h with
  | some o => f o s
  | none => deny .badState s

/-- ONU_STATUS (R108). -/
def execOnuStatus (q : Req) (h : Nat) (s : State) : Host.Outcome State Fault Refusal :=
  kilak q 0x3002 (withOnu h fun o => doneWith [.rcd 128 o.status]) s

/-- ONU_RANGE_READ (R109): all eight records. -/
def execOnuRangeRead (q : Req) (h : Nat) (s : State) : Host.Outcome State Fault Refusal :=
  kilak q 0x3003 (withOnu h fun o => doneWith [.lst 4 ((List.range 8).map fun c => (Tab.getD o.eq c {}).word)]) s

/-- ONU_ACCEPT (R113). -/
def execOnuAccept (q : Req) (h : Nat) (s : State) : Host.Outcome State Fault Refusal :=
  kilak q 0x3004 (withOnu h fun o s =>
    if o.state == .authorising then done (enterExtending h s) else deny .badState s) s

/-- Disable_Serial_Number with a mode, on the ONU's channel pair. -/
def sendDisable (h mode : Nat) (s : State) : State :=
  match Tab.get? s.onu.ctx h with
  | some o => plBroadcast o.g 1 (.disableSerial mode o.serial) s
  | none => s

/-- Retire into DISABLED. -/
def disableOnu (h : Nat) (s : State) : State :=
  onOnu h (fun o => { o with state := .disabled }) (sendDisable h 0 (retireOnu h s))

/-- ONU_REJECT (R113). -/
def execOnuReject (q : Req) (h : Nat) (s : State) : Host.Outcome State Fault Refusal :=
  kilak q 0x3005 (withOnu h fun o s =>
    if o.state == .authorising then done (disableOnu h s) else deny .badState s) s

/-- ONU_DEACTIVATE (R139): DISCOVERED to LOST. -/
def execOnuDeactivate (q : Req) (h : Nat) (s : State) : Host.Outcome State Fault Refusal :=
  kilak q 0x3006 (withOnu h fun o s =>
    let gone := if o.deactSfc == some s.clk.sfc then none else (o.left.filter fun x => x.1 == s.clk.sfc).map (·.2)
    if o.state.active || gone.isSome then
      let s1 := if o.state.active then releaseOnu h s
        else onOnu h (fun o => { o with state := .deactivating, quarEnd := s.clk.sfc + s.paramN 0x3012 0 }) s
      let s2 := onOnu h (fun o => { o with deactSfc := some s.clk.sfc }) s1
      done (match if o.state.active then o.onuId else gone.join with
        | some i => plBroadcast o.g 3 (.deactivate i) s2
        | none => s2)
    else deny .badState s) s

/-- ONU_DISABLE (R139). -/
def execOnuDisable (q : Req) (h : Nat) (s : State) : Host.Outcome State Fault Refusal :=
  kilak q 0x3007 (withOnu h fun o s =>
    if o.deactSfc == some s.clk.sfc then deny .badState s
    else if o.state == .disabled then done (sendDisable h 0 s) else done (disableOnu h s)) s

/-- ONU_ENABLE (R113): from DISABLED to PROVISIONED. -/
def execOnuEnable (q : Req) (h : Nat) (s : State) : Host.Outcome State Fault Refusal :=
  kilak q 0x3008 (withOnu h fun o s =>
    if o.state == .disabled then
      done (onOnu h (fun o => { tree := o.tree, state := .provisioned, serial := o.serial, hostSerial := o.hostSerial,
                                wantId := o.wantId, chan := o.chan, provisioned := true }) (sendDisable h 1 s))
    else deny .badState s) s

/-- ONU_ENABLE_ALL (R124): enable-all on every enabled channel pair of the tree. -/
def execOnuEnableAll (q : Req) (tree : Nat) (s : State) : Host.Outcome State Fault Refusal :=
  kilak q 0x3009 (fun s =>
    if 64 ≤ tree then deny .badArg s
    else done (((List.range 8).filter fun c => (Tab.getD s.lane.ch (8 * tree + c) {}).enabled).foldl
      (fun s c => plBroadcast (8 * tree + c) 1 (.disableSerial 2 0) s) s)) s

/-- ONU_RETUNE (R131, R132, R136): completes at arrival or failure; it prevails over the balancer's move of the same
superframe. -/
def execOnuRetune (q : Req) (h c : Nat) (s : State) : Host.Outcome State Fault Refusal :=
  kilak q 0x300A (fun s =>
    match (balanceYield h s).retuneRefused h c false with
    | some code => deny ((s.retuneRefused h c false).getD code) s
    | none => waits (startRetune (some q) 0 h c 20 (balanceYield h s))) s

/-- ONU_PIN (R108). -/
def execOnuPin (q : Req) (h : Nat) (on : Bool) (s : State) : Host.Outcome State Fault Refusal :=
  kilak q 0x300B (withOnu h fun _ s => done (onOnu h (fun o => { o with pinned := on }) s)) s

/-- ONU_LADDER_RESTART (R45): BUSY while a fixed pattern entry names the ONU (R151). -/
def execOnuLadderRestart (q : Req) (h : Nat) (s : State) : Host.Outcome State Fault Refusal :=
  kilak q 0x300C (withOnu h fun o s =>
    if o.state != .operation then deny .badState s
    else if s.inFixedPattern h then deny .busy s
    else done (ladderStep h (onOnu h (fun o => { o with ladder := {} }) s))) s

/-! ### Discovery (R116 to R118) -/

/-- Serial-number windows may open (R116). -/
def State.discOpen (s : State) (g : Nat) : Bool :=
  let c := Tab.getD s.lane.ch g {}
  s.param 0x3000 g == 1 && c.enabled && c.tx == .active && c.rx == .active && !s.isSpare g

/-- SERIAL_NUMBER_WINDOW (R116): every disc.interval. -/
def snWindow (g : Nat) (s : State) : State :=
  if g < 512 && s.discOpen g && decide (Tab.getD s.onu.discNext g 0 ≤ s.clk.now) && s.host.restart.isNone then
    let s := { s with onu := { s.onu with
      disc := Tab.set s.onu.disc g { opened := s.clk.sfc }
      discNext := Tab.set s.onu.discNext g (s.clk.now + msT (s.paramN 0x3001 g)) } }
    bump .discWindows g (requestWindow g .snWindow 0 (s.discQuiet g) s)
  else s

/-- SERIAL_NUMBER_WINDOW (R116). -/
def execSerialNumberWindow (g : Nat) (s : State) : Host.Outcome State Fault Refusal := island 104 (snWindow g) s

/-- An upstream PLOAM message is handled by Bexed, or queued while a restart runs (R503). -/
def usPloam (i : Instr) (f : State → State) (s : State) : Host.Outcome State Fault Refusal :=
  island 104 (fun s =>
    if s.host.restart.isSome then
      if s.host.restartQueue.length < 4096 then
        { s with host := { s.host with restartQueue := s.host.restartQueue ++ [i] } }
      else s
    else f s) s

/-- A valid Serial_Number_ONU acted on (R113, R114). -/
def serialNumberOnu (hd : UsHead) (serial : Nat) (windowQuiet : Bool) (s : State) : State :=
  if !s.micOk hd then bump .ploamMicErr hd.g s
  else
    match Tab.get? s.onu.disc hd.g with
    | none => bump .ploamStale hd.g s
    | some w =>
      if !windowQuiet || w.valid then s
      else
        let tree := hd.g / 8
        let s := { s with onu := { s.onu with disc := Tab.set s.onu.disc hd.g { w with valid := true } } }
        match s.findSerial serial with
        | none =>
          let s := event 0x3000 [.u 64 serial, .u 9 hd.g] s
          if s.param 0x3010 tree == 0 then s
          else
            match lowestFree (Tab.keys s.onu.ctx) 0 32768 with
            | none => s
            | some h => enterDiscovered h (bump .discNew tree (newContext h {
                tree := tree, state := .discovered, serial := serial, hostSerial := false, chan := hd.g % 8 } s))
        | some (h, o) =>
          if o.tree != tree then
            if o.state == .provisioned then bump .ploamStale hd.g s
            else event 0x3002 [.u 64 serial, .u 6 tree, .u 15 h] (bump .dupSn tree s)
          else
            match o.state with
            | .provisioned => enterDiscovered h (bump .discNew tree
                (onOnu h (fun o => { o with state := .discovered, chan := hd.g % 8 }) s))
            | .disabled => plBroadcast hd.g 1 (.disableSerial 0 serial) (bump .discDisabled tree s)
            | .deactivating | .free | .discovered => bump .ploamStale hd.g s
            | _ => enterDiscovered h (onOnu h (fun o => { o with state := .discovered, chan := hd.g % 8 }) (retireOnu h s))

/-- SERIAL_NUMBER_ONU (R113). -/
def execSerialNumberOnu (hd : UsHead) (serial : Nat) (windowQuiet : Bool) (s : State) :
    Host.Outcome State Fault Refusal :=
  usPloam (.serialNumberOnu hd serial windowQuiet) (serialNumberOnu hd serial windowQuiet) s

/-- SN_WINDOW_END (R118): a collision is signal without a valid message, or two delineated bursts that overlap. -/
def execSnWindowEnd (g : Nat) (signal overlap : Bool) (s : State) : Host.Outcome State Fault Refusal :=
  island 104 (fun s =>
    match Tab.get? s.onu.disc g with
    | none => s
    | some w =>
      let s := { s with onu := { s.onu with disc := Tab.erase s.onu.disc g } }
      if overlap || (signal && !w.valid) then bump .discCollision g s else s) s

/-! ### Ranging (R119) -/

/-- RANGING_BURST: within reach, EqD and Ranging_Time; else OUT_OF_REACH. During a retune the burst of the target's window
gives the target's EqD (R134), and on a spare that of an ONU expected there (R138). -/
def rangingBurst (g h : Nat) (rtd64 : Int) (s : State) : State :=
  match Tab.get? s.onu.ctx h with
  | none => s
  | some o =>
    let e := ((s.paramN 0x3020 g : Int) * 64 - rtd64).toNat
    match o.state with
    | .ranging =>
      if !o.windowOpen || o.g != g then s
      else if s.inReach g rtd64 then sendEqd h e false s
      else releaseFor h 2 s
    | .tuning =>
      match o.tune with
      | some t =>
        if t.windowed && 8 * o.tree + t.target == g && s.inReach g rtd64 then
          plSend h (.rangingTime e) (onOnu h (fun o => { o with
            tune := some { t with ranged := true }
            eq := Tab.upd o.eq t.target {} fun r => { r with eqd64 := e, valid := false, carried := false } }) s)
        else s
      | none => s
    | .operation | .lost =>
      if s.spareAt h == some g && o.g != g && s.inReach g rtd64 then
        plSend h (.rangingTime e) (onOnu h (fun o => { o with
          standingEqd := none
          eq := Tab.upd o.eq (g % 8) {} fun r => { r with eqd64 := e, valid := false, carried := false } }) s)
      else s
    | _ => s

/-- RANGING_BURST (R119). -/
def execRangingBurst (g h : Nat) (rtd64 : Int) (s : State) : Host.Outcome State Fault Refusal :=
  island 104 (rangingBurst g h rtd64) s

/-- RANGING_WINDOW_END (R113): without a delineated burst, RANGE_MISS. -/
def execRangingWindowEnd (h : Nat) (s : State) : Host.Outcome State Fault Refusal :=
  island 104 (fun s =>
    match Tab.get? s.onu.ctx h with
    | none => s
    | some o =>
      if o.state == .ranging && o.windowOpen then rangingMissed h (bump .rangeMiss (8 * h + o.chan) s) else s) s

/-! ### Upstream PLOAM messages (R122 to R130) -/

/-- A message of an assigned ONU-ID: its check, quarantine, and its context. -/
def fromOnu (hd : UsHead) (f : Nat → Onu → State → State) (s : State) : State :=
  if !s.micOk hd then bump .ploamMicErr hd.g s
  else
    match s.findOnu (hd.g / 8) hd.onuId with
    | none => bump .ploamStale hd.g s
    | some (h, o) => f h o s

/-- The answer to a tributary offer (R130). -/
def tribAnswer (trib : Nat) (enable ok : Bool) (s : State) : State :=
  match Tab.get? s.ds.trib trib with
  | none => s
  | some t =>
    if enable then
      match t.create with
      | some q =>
        if ok then complete q 0x2000 .ok { s with ds := { s.ds with trib := Tab.set s.ds.trib trib { t with create := none, huntFrom := s.clk.sfc + 1 } } }
        else complete q 0x2000 (.err .notSupported) { s with ds := { s.ds with trib := Tab.erase s.ds.trib trib } }
      | none => s
    else s

/-- What an Acknowledgement does to the message it answers. -/
def acknowledged (h : Nat) (o : Onu) (m : PlMsg) (ok : Bool) (s : State) : State :=
  match m with
  | .rangingTime _ =>
    if o.state == .confirm then (if ok then onOnu h (fun o => { o with acked := true }) s else confirmMiss h s) else s
  | .seededProfile => if ok then onOnu h (fun o => { o with seeded := true }) s else s
  | .extInquire =>
    if o.state == .extending && !ok then
      extDeclined h s
    else s
  | .rateStep r act _ =>
    if o.ladder.phase != 1 then s
    else if ok then onOnu h (fun o => { o with ladder := { o.ladder with
      phase := 2, rate := r, actSfc := act, untilSfc := act + 32, bursts := 0, good := 0, uncorr := false } }) s
    else ladderFailed h s
  | .tribOffer t _ _ _ en => tribAnswer t en ok s
  | .assignAlloc a _ on => allocAnswered a on ok s
  | .keyControl k slot => keyControlAnswered h k slot ok s
  | _ => s

/-- The sixteen superframes of an outstanding message have ended (R123). -/
def PlOut.late (p : PlOut) (sfc : Nat) : Bool := decide (p.sfc + 16 < sfc)

/-- An answer belongs to the outstanding message of its ONU whose SeqNo it carries, if it is one that such an answer
answers; it counts in the sixteen superframes after the one the message was sent in (R123). -/
def Onu.answers (o : Onu) (hd : UsHead) (sfc : Nat) (kind : PlMsg → Bool) : Bool :=
  match o.out with
  | some p => p.seq == hd.seq && decide (p.sfc < sfc) && !p.late sfc && kind p.msg
  | none => false

/-- The messages that an Acknowledgement with a completion code answers. -/
def ackKind (code : Nat) : PlMsg → Bool
  | .requestRegistration | .tuningControl .. => false
  | .extInquire => code != 0
  | _ => true

/-- The retune's Tune_Carry waits for no answer any more. -/
def carryAnswered (h : Nat) (s : State) : State :=
  onOnu h (fun o => { o with tune := o.tune.map fun t => { t with carry := none } }) s

/-- The answer belongs to the Tune_Carry of the ONU's retune (R123, R126). -/
def Onu.answersCarry (o : Onu) (hd : UsHead) (sfc : Nat) : Bool :=
  match o.tune.bind (·.carry) with
  | some p => p.seq == hd.seq && decide (p.sfc < sfc) && !p.late sfc
  | none => false

/-- ACKNOWLEDGEMENT (R124): it belongs to the outstanding message whose SeqNo it carries. One of the retune's Tune_Carry has
no further effect (R126). -/
def acknowledgement (hd : UsHead) (code : Nat) (s : State) : State :=
  fromOnu hd (fun h o s =>
    match o.out with
    | some p =>
      if o.answers hd s.clk.sfc (ackKind code) then acknowledged h o p.msg (code == 0) (plAnswered h s)
      else if o.answersCarry hd s.clk.sfc then carryAnswered h s else bump .ploamStale hd.g s
    | none => if o.answersCarry hd s.clk.sfc then carryAnswered h s else bump .ploamStale hd.g s) s

/-- ACKNOWLEDGEMENT (R124). -/
def execAcknowledgement (hd : UsHead) (code : Nat) (s : State) : Host.Outcome State Fault Refusal :=
  usPloam (.acknowledgement hd code) (acknowledgement hd code) s

/-- REGISTRATION (R113): reported; a provisioned context under onu.auto_mode 2 goes on to EXTENDING. -/
def registration (hd : UsHead) (regId : Nat) (s : State) : State :=
  fromOnu hd (fun h o s =>
    if o.state == .registering && o.answers hd s.clk.sfc (· == .requestRegistration) then
      let s := onOnu h (fun o => { o with state := .authorising, regId := regId % 2 ^ 288,
                                          deadline := some (s.clk.now + secT (s.paramN 0x3011 o.tree)) }) (plAnswered h s)
      let s := event 0x3001 [.u 64 o.serial, .u 288 regId] s
      if s.param 0x3010 o.tree == 2 && o.provisioned then enterExtending h s else s
    else bump .ploamStale hd.g s) s

/-- REGISTRATION (R113). -/
def execRegistration (hd : UsHead) (regId : Nat) (s : State) : Host.Outcome State Fault Refusal :=
  usPloam (.registration hd regId) (registration hd regId) s

/-- EXT_CAPABILITY (R127). -/
def extCapability (hd : UsHead) (x : ExtCap) (s : State) : State :=
  fromOnu hd (fun h o s =>
    if o.state == .extending && o.answers hd s.clk.sfc (· == .extInquire) then
      enterOperation h (onOnu h (fun o => { o with
        ext := true, maxRate := x.maxRate, tribOk := x.tribOk, carryOk := x.carryOk, standingOk := x.standingOk,
        chanMask := x.chanMask, tuneTime := x.tuneTime, tribMax := x.tribMax }) (plAnswered h s))
    else bump .ploamStale hd.g s) s

/-- EXT_CAPABILITY (R127). -/
def execExtCapability (hd : UsHead) (x : ExtCap) (s : State) : Host.Outcome State Fault Refusal :=
  usPloam (.extCapability hd x) (extCapability hd x) s

/-- TUNING_RESPONSE (R113, R124): ACK or NACK of the outstanding Tuning_Control, of which a spare retune takes no notice
(R138); one sent on arrival, received on the target, is accepted and counted. -/
def tuningResponse (hd : UsHead) (ack : Bool) (s : State) : State :=
  fromOnu hd (fun h o s =>
    match o.tune with
    | none =>
      if o.respDue && hd.g == o.g then onOnu h (fun o => { o with respDue := false, respCount := o.respCount + 1 }) s
      else bump .ploamStale hd.g s
    | some t =>
      if o.state != .tuning then bump .ploamStale hd.g s
      else if s.clk.sfc < t.q then
        if t.source == 2 then s
        else if !o.answers hd s.clk.sfc (· == .tuningControl t.target t.q) then bump .ploamStale hd.g s
        else if ack then plAnswered h (onOnu h (fun o => { o with tune := o.tune.map fun t => { t with acked := true } }) s)
        else tuneEnded h .tuneNack .operation s
      else if hd.g == 8 * o.tree + t.target && !t.resp then
        onOnu h (fun o => { o with tune := some { t with resp := true }, respCount := o.respCount + 1 }) s
      else bump .ploamStale hd.g s) s

/-- TUNING_RESPONSE (R113). -/
def execTuningResponse (hd : UsHead) (ack : Bool) (s : State) : Host.Outcome State Fault Refusal :=
  usPloam (.tuningResponse hd ack) (tuningResponse hd ack) s

/-- A message the device discards (R124), or one that carries an ONU-ID in quarantine (R111). -/
def unsupported (hd : UsHead) (s : State) : State :=
  if !s.micOk hd then bump .ploamMicErr hd.g s
  else if s.inQuarantine (hd.g / 8) hd.onuId then bump .ploamStale hd.g s
  else bump .ploamUnsupported hd.g s

/-- SLEEP_REQUEST (R124). -/
def execSleepRequest (hd : UsHead) (s : State) : Host.Outcome State Fault Refusal :=
  usPloam (.sleepRequest hd) (unsupported hd) s

/-- PLOAM_UNSUPPORTED (R124). -/
def execPloamUnsupported (hd : UsHead) (s : State) : Host.Outcome State Fault Refusal :=
  usPloam (.ploamUnsupported hd) (unsupported hd) s

/-! ### Timeouts -/

/-- What follows when the last retry goes unanswered. -/
def unanswered (h : Nat) (o : Onu) (m : PlMsg) (s : State) : State :=
  match m with
  | .rangingTime _ => if o.state == .confirm then confirmMiss h s else s
  | .requestRegistration => releaseFor h 3 (bump .regFail o.tree s)
  | .tribOffer t _ _ _ en => tribAnswer t en false s
  | .assignAlloc a _ on => allocAnswered a on false s
  | .keyControl k slot => keyControlAnswered h k slot false s
  | _ => s

/-- The Tune_Carry of a retune stays unanswered: a retry with the same SeqNo, after the last PLOAM_NO_ACK (R123). -/
def carryTimeout (h : Nat) (s : State) : State :=
  match Tab.get? s.onu.ctx h with
  | none => s
  | some o =>
    match o.tune.bind (·.carry) with
    | none => s
    | some p =>
      if !p.late s.clk.sfc then s
      else if p.tries < s.retriesOf p.msg then
        let i : PlItem := { g := o.g, onu := some h, msg := p.msg, seq := some p.seq, tries := p.tries + 1, ready := s.clk.sfc }
        carryAnswered h { s with onu := { s.onu with queue := i :: s.onu.queue } }
      else bump .ploamNoAck o.g (carryAnswered h s)

/-- PLOAM_ANSWER_TIMEOUT (R123): a retry keeps its SeqNo; after the last, PLOAM_NO_ACK. The messages with a timeout row of
their own end there. -/
def answerTimeout (h : Nat) (s : State) : State :=
  let s := carryTimeout h s
  match Tab.get? s.onu.ctx h with
  | none => s
  | some o =>
    match o.out with
    | none => s
    | some p =>
      if !p.late s.clk.sfc || s.retriesOf p.msg == 0 && (match p.msg with
          | .extInquire | .rateStep .. | .tuningControl .. => true
          | _ => false) then s
      else if p.tries < s.retriesOf p.msg then
        let i : PlItem := { g := o.g, onu := some h, msg := p.msg, seq := some p.seq, tries := p.tries + 1, ready := s.clk.sfc }
        plAnswered h { s with onu := { s.onu with queue := i :: s.onu.queue } }
      else unanswered h o p.msg (bump .ploamNoAck o.g (plAnswered h s))

/-- PLOAM_ANSWER_TIMEOUT (R123). -/
def execPloamAnswerTimeout (h : Nat) (s : State) : Host.Outcome State Fault Refusal := island 104 (answerTimeout h) s

/-- A timeout of the outstanding message of an ONU in a state. -/
def outTimeout (h : Nat) (p : Onu → PlOut → Bool) (f : Onu → State → State) (s : State) : State :=
  match Tab.get? s.onu.ctx h with
  | none => s
  | some o =>
    match o.out with
    | some m => if m.late s.clk.sfc && p o m then f o (bump .ploamNoAck o.g (plAnswered h s)) else s
    | none => s

/-- EXTENDING_TIMEOUT (R113): no answer in 16 superframes. -/
def execExtendingTimeout (h : Nat) (s : State) : Host.Outcome State Fault Refusal :=
  island 104 (outTimeout h (fun o m => o.state == .extending && m.msg == .extInquire) fun _ s => extDeclined h s) s

/-- AUTH_TIMEOUT (R113). -/
def execAuthTimeout (h : Nat) (s : State) : Host.Outcome State Fault Refusal :=
  island 104 (fun s =>
    match Tab.get? s.onu.ctx h with
    | some o => if o.state == .authorising && s.due o.deadline then releaseFor h 4 (bump .authTimeout o.tree s) else s
    | none => s) s

/-- LOST_TIMEOUT (R113). -/
def execLostTimeout (h : Nat) (s : State) : Host.Outcome State Fault Refusal :=
  island 104 (fun s =>
    match Tab.get? s.onu.ctx h with
    | some o => if o.state == .lost && s.due o.deadline then releaseFor h 6 s else s
    | none => s) s

/-- ONU_ID_QUARANTINE_END (R111): the ONU-ID is free again; the context that gave it up leaves DEACTIVATING. -/
def execOnuIdQuarantineEnd (tree onuId : Nat) (s : State) : Host.Outcome State Fault Refusal :=
  island 104 (fun s =>
    match Tab.get? s.onu.quar (tree * 1024 + onuId) with
    | none => s
    | some e =>
      if s.clk.sfc < e then s
      else
        let s := { s with onu := { s.onu with quar := Tab.erase s.onu.quar (tree * 1024 + onuId) } }
        (s.onu.ctx.filter fun x => x.2.state == .deactivating && x.2.tree == tree && decide (x.2.quarEnd ≤ s.clk.sfc)).foldl
          (fun s x => vacate x.1 s) s) s

/-- A Tuning_Control that waits for its answer. -/
def isTuning : PlMsg → Bool
  | .tuningControl .. => true
  | _ => false

/-- TUNING_RESPONSE_TIMEOUT (R113, R123): no Tuning_Response in 16 superframes. -/
def tuningTimeout (h : Nat) (s : State) : State :=
  match Tab.get? s.onu.ctx h with
  | none => s
  | some o =>
    match o.tune with
    | some t =>
      if !t.acked && decide (t.sent + 16 < s.clk.sfc) then
        tuneEnded h .tuneNack .operation (if o.out.any fun p => isTuning p.msg then bump .ploamNoAck o.g s else s)
      else s
    | none => s

/-- TUNING_RESPONSE_TIMEOUT (R113). -/
def execTuningResponseTimeout (h : Nat) (s : State) : Host.Outcome State Fault Refusal := island 104 (tuningTimeout h) s

/-- An ONU that was to move to the spare on its own and has not come (R134, R138): one full ranging window there, at the base
rate; without a burst in it TUNE_FAIL, and LOST unless it was found on its old channel pair (R220). -/
def spareTimeout (h : Nat) (o : Onu) (foundOld : Bool) (s : State) : State :=
  match Tab.get? s.map.spare h with
  | none => s
  | some e =>
    if s.clk.sfc < e.2 + 8 then s
    else if !s.map.spareWin.contains h then
      let s := { s with map := { s.map with
        spare := Tab.set s.map.spare h (e.1, s.clk.sfc + o.tuneTime), spareWin := s.map.spareWin ++ [h] } }
      requestWindow e.1 .ranging h (s.rangeQuiet e.1) (onOnu h (fun o => { o with curRate := s.baseRate e.1 }) s)
    else
      let s := bump .tuneFail h (dropWindowReq h (spareForget h s))
      if foundOld || o.state != .operation then s
      else onOnu h (fun o => { o with
        state := .lost, lastFail := 5, deadline := some (s.clk.now + msT (s.paramN 0x3013 o.tree)) }) s

/-- TUNE_ARRIVAL_TIMEOUT (R113, R134): no burst on the target by quiet end + 8. One full ranging window on the target is
opened first; without a burst there, TUNE_FAIL and one grant on the old channel pair, and where that grant too has gone by,
OPERATION if the ONU was found there, else LOST. -/
def execTuneArrivalTimeout (h : Nat) (foundOld : Bool) (s : State) : Host.Outcome State Fault Refusal :=
  island 104 (fun s =>
    match Tab.get? s.onu.ctx h with
    | none => s
    | some o =>
      match o.tune with
      | none => spareTimeout h o foundOld s
      | some t =>
        match t.oldAt with
        | some n => if s.clk.sfc < n + 4 then s else tuneBack h (if foundOld then .operation else .lost) s
        | none =>
          if s.clk.sfc < s.tuneDueAt h t + 8 then s
          else if !t.windowed then
            tuneWindow h (8 * o.tree + t.target) { t with q := s.clk.sfc } s
          else bump .tuneFail h (onOnu h (fun o => { o with tune := some { t with oldAt := some (s.clk.sfc + 2) } }) s)) s

/-! ### Rate ladder (R45) -/

/-- LADDER_ACK_TIMEOUT: no acknowledgement of Rate_Step in 16 superframes. -/
def execLadderAckTimeout (h : Nat) (s : State) : Host.Outcome State Fault Refusal :=
  island 104 (outTimeout h (fun o m => o.ladder.phase == 1 && (match m.msg with
    | .rateStep .. => true
    | _ => false)) fun _ s => ladderFailed h s) s

/-- LADDER_TRIAL_END: 16 bursts received within 32 superframes, of which 15 delineated and none with an uncorrectable
codeword, make the step; else the ONU stays at the previous rate. The count of failures goes on after a success (DESIGN
CHOICE, notes/assumptions/92.md). -/
def ladderTrialEnd (h : Nat) (s : State) : State :=
  match Tab.get? s.onu.ctx h with
  | none => s
  | some o =>
    let l := o.ladder
    if l.phase != 2 then s
    else if l.bursts ≥ 16 then
      if l.good ≥ 15 && !l.uncorr then
        ladderStep h (onOnu h (fun o => { o with curRate := l.rate, ladder := { fails := l.fails } }) s)
      else ladderFailed h s
    else if l.untilSfc ≤ s.clk.sfc then ladderFailed h s
    else s

/-- LADDER_TRIAL_END (R45). -/
def execLadderTrialEnd (h : Nat) (s : State) : Host.Outcome State Fault Refusal := island 104 (ladderTrialEnd h) s

/-- LADDER_RETRY (R45): after ladder.retry_interval. -/
def execLadderRetry (h : Nat) (s : State) : Host.Outcome State Fault Refusal :=
  island 104 (fun s =>
    match Tab.get? s.onu.ctx h with
    | none => s
    | some o =>
      if o.ladder.phase == 3 && decide (o.ladder.retryAt ≤ s.clk.now) then
        ladderStep h (onOnu h (fun o => { o with ladder := { o.ladder with phase := 0 } }) s)
      else s) s

/-! ### Balancing (R135, R136) -/

/-- Load of a channel pair over the interval, in units of 1/10,000 of its capacity: the larger direction. -/
def State.chLoad (s : State) (g : Nat) : Nat :=
  let sf := max 1 (8000 * s.paramN 0x3033 0)
  let up := Tab.getD s.onu.chUp g 0 * 10000 / max 1 (sf * 311040 * s.bitsPerTick (s.usRateMax g) / 8)
  let dn := Tab.getD s.onu.chDown g 0 * 10000 / max 1 (sf * 311040 * s.bitsPerTick (s.paramN 0x1020 g) / 8)
  max up dn

/-- The share of one ONU in its channel pair's load. -/
def State.onuLoad (s : State) (o : Onu) (g : Nat) : Nat :=
  let sf := max 1 (8000 * s.paramN 0x3033 0)
  max (o.loadUp * 10000 / max 1 (sf * 311040 * s.bitsPerTick (s.usRateMax g) / 8))
    (o.loadDown * 10000 / max 1 (sf * 311040 * s.bitsPerTick (s.paramN 0x1020 g) / 8))

/-- The balancer may move the ONU to channel pair c (R136). -/
def State.balanceable (s : State) (h : Nat) (o : Onu) (c : Nat) : Bool :=
  o.state == .operation && !o.pinned && !s.carriesTrib h && (o.ladder.phase == 0 || o.ladder.phase ≥ 3)
    && bit o.chanMask c && (o.carryOk || s.param 0x3035 0 == 1)

/-- The element with the largest value, the first among equals. -/
def maxBy {α : Type} (f : α → Nat) : List α → Option α
  | [] => none
  | x :: xs =>
    match maxBy f xs with
    | none => some x
    | some y => if f y ≤ f x then some x else some y

/-- Up to n moves on a tree, given the loads of its channel pairs (R135). -/
def balanceMoves (tree : Nat) : Nat → Tab Nat → State → State
  | 0, _, s => s
  | n + 1, loads, s =>
    match maxBy (fun e => e.2) loads, maxBy (fun e => 1000000 - e.2) loads with
    | some hi, some lo =>
      if hi.2 ≤ lo.2 + 100 * s.paramN 0x3032 0 then s
      else
        let g := 8 * tree + hi.1
        let cands := (s.onu.ctx.filter fun e => e.2.g == g && s.balanceable e.1 e.2 lo.1).filter fun e =>
          decide (0 < s.onuLoad e.2 g ∧ 2 * s.onuLoad e.2 g ≤ hi.2 - lo.2)
        match maxBy (fun e => s.onuLoad e.2 g) cands with
        | none => s
        | some (h, o) =>
          let w := s.onuLoad o g
          balanceMoves tree n (Tab.set (Tab.set loads hi.1 (hi.2 - w)) lo.1 (lo.2 + w))
            (bump .balanceMoves tree (startRetune none 1 h lo.1 20 s))
    | _, _ => s

/-- BALANCE_INTERVAL (R135). -/
def balanceInterval (tree : Nat) (s : State) : State :=
  if s.clk.now < Tab.getD s.onu.balNext tree 0 then s
  else
    let cs := (List.range 8).filter fun c => s.paramN 0x3036 tree != c && (Tab.getD s.lane.ch (8 * tree + c) {}).enabled
    let s1 := if s.param 0x3031 0 == 1 then
      balanceMoves tree (s.paramN 0x3034 0) (cs.map fun c => (c, s.chLoad (8 * tree + c))) s else s
    { s1 with onu := { s1.onu with
      balNext := Tab.set s1.onu.balNext tree (s.clk.now + secT (s.paramN 0x3033 0))
      chUp := s1.onu.chUp.filter fun e => e.1 / 8 != tree
      chDown := s1.onu.chDown.filter fun e => e.1 / 8 != tree
      ctx := s1.onu.ctx.map fun e => (e.1, if e.2.tree = tree then { e.2 with loadUp := 0, loadDown := 0 } else e.2) } }

/-- BALANCE_INTERVAL (R135). -/
def execBalanceInterval (tree : Nat) (s : State) : Host.Outcome State Fault Refusal :=
  island 104 (balanceInterval tree) s

end Sys2Proof.Machine
end

