-- ==== Sys2Proof/Machine/Prot.lean ====
section
/-! DEFINITION. Protection pairs, the claim bus, mirroring, audits, switch-over, channel sparing and stacks (R438 to
R469). -/

namespace Sys2Proof.Machine

/-! ### Group digest and audit sums (R439, R458) -/

/-- The group parameters of a tree, as octets. -/
def State.groupOctets (s : State) (k : Nat) : List Nat :=
  let v (pid i : Nat) : List Nat := leOctets 8 (signed 64 (s.param pid i))
  ((treePairs k).flatMap fun g => [0x2000, 0x1020, 0x1021, 0x3020, 0xB040, 0xB041, 0xB042, 0xB043, 0xB044].flatMap fun p => v p g)
    ++ v 0x3036 k ++ v 0x3037 k

/-- The digest of a group: CRC-32C over the group parameters. -/
def State.groupDigest (s : State) (k : Nat) : Nat := crcOf 1 (s.groupOctets k)

/-- The ONU contexts of a tree, in ascending handle order. -/
def State.treeOnus (s : State) (k : Nat) : List (Nat × Onu) := s.onu.ctx.filter fun e => e.2.tree == k

/-- The allocation contexts of a tree's ONUs. -/
def State.treeAllocCtx (s : State) (k : Nat) : List (Nat × Alloc) :=
  s.map.alloc.filter fun e => ((Tab.get? s.onu.ctx e.2.onu).map (·.tree)) == some k

/-- The four sums of an audit over the four sets of R458. -/
def State.auditSums (s : State) (k : Nat) : Tab Nat :=
  let onus := (s.treeOnus k).flatMap fun e =>
    leOctets 16 e.2.status ++ (List.range 8).flatMap fun c => leOctets 4 (Tab.getD e.2.eq c {}).word
  let allocs := (s.treeAllocCtx k).flatMap fun e => leOctets 16 e.2.word
  let entry (e : MapEntry) : List Nat := leOctets 10 (entryWord e)
  let pages := (treePairs k).flatMap fun g =>
    let m := s.mapCh g
    ((m.fixedCur.toList ++ m.fixedNext.toList).flatMap fun f => leOctets 8 f.actSfc ++ f.entries.flatMap fun e =>
      entry e.entry ++ leOctets 2 (e.phase + 8 * e.periodLog2))
    ++ (s.dsCh g).active.flatMap fun e => leOctets 4 (SlotEntry.word e)
  [(0, crcOf 1 onus), (1, crcOf 1 allocs), (2, crcOf 1 pages), (3, crcOf 1 (leOctets 4 (s.groupDigest k)))]

/-! ### Stack membership (R464 to R466) -/

/-- STACK_ROLE of the option image: 0 standalone, 1 master, 2 member (R464). -/
def State.stackRole (s : State) : Nat := s.opt.cur.stackRole

/-- The device acts as the stack's master (R466). -/
def State.actsMaster (s : State) : Bool := s.stackRole == 1 && !s.prot.asMember

/-- Accepted links heard within prot.hb_miss superframes (R465). -/
def State.liveLinks (s : State) : List (Nat × StackLink) :=
  s.prot.links.filter fun e => e.2.accepted && decide (s.clk.sfc ≤ e.2.heardSfc + s.paramN 0xC030 0)

/-- The members field of R441. -/
def State.members (s : State) : Nat := s.liveLinks.foldl (fun a e => a ||| e.2.members) (2 ^ s.opt.unitId)

/-- The masters field of R441. -/
def State.masters (s : State) : Nat := s.liveLinks.foldl (fun a e => a ||| e.2.masters) (if s.actsMaster then 2 ^ s.opt.unitId else 0)

/-! ### Claims (R443 to R446) -/

/-- A claim is raised: an epoch above every one seen; it waits for a complete round since the last reset. -/
def raiseClaim (k : Nat) (s : State) : State :=
  onGrp k (fun p =>
    if s.prot.roundSeen then { p with claim := (p.epochSeen + 1) % 2 ^ 24 * 256 + s.opt.unitId, raised := true, wanted := false }
    else { p with wanted := true }) s

/-- The claim is raised and the group CLAIMING. -/
def startClaim (k : Nat) (s : State) : State := onGrp k (fun p => { p with st := .claiming, gapped := false }) (raiseClaim k s)

/-- Heartbeat loss at the boundary (R442, R448). -/
def hbEval (k : Nat) (s : State) : State :=
  let p := s.grp k
  match p.st with
  | .ready => if !s.peerActive k && !p.barred && !p.raised && !p.wanted then startClaim k s else s
  | .active =>
    if s.peerHeard then onGrp k (fun p => { p with lossRaised := false }) s
    else if p.lossRaised then s
    else onGrp k (fun p => { p with lossRaised := true }) (raiseClaim k s)
  | _ => s

/-- One group's result of a round (R445, R446, R448). -/
def roundOne (r : RoundResult) (s : State) : State :=
  let k := r.group
  let p := s.grp k
  let s := onGrp k (fun p => { p with epochSeen := max p.epochSeen (r.claim / 256 % 2 ^ 24) }) s
  if !(p.held || p.raised) then s
  else if r.neverStopped then
    let s := bump .roundsWon k (onGrp k (fun p => { p with held := true }) s)
    if p.st == .claiming && r.peerSilent then
      (treePairs k).foldl (fun s g => if (Tab.getD s.lane.ch g {}).enabled then sbSend k (g % 8) 0x2 0 s else s)
        (onGrp k (fun p => { p with st := .promoting, wonAt := s.clk.now }) s)
    else s
  else
    let s := bump .roundsLost k (onGrp k (fun p => { p with held := false, raised := false }) s)
    match p.st with
    | .claiming => onGrp k (fun p => { p with st := if p.gapped then .sync else .ready, gapped := false, barred := true }) s
    | .promoting => dropHold k .ready false s
    | .active => dropHold k .released false s
    | _ => s

/-- A round ends (R445): no result stands for a void one; while CLAIM_BUS_FAULT stands every round is void (R447). -/
def roundEnd (rs : List RoundResult) (s : State) : State :=
  let contend := (s.prot.grp.filter fun e => e.2.held || e.2.raised).map (·.1)
  let s := if s.prot.busFault || rs.isEmpty then contend.foldl (fun s k => bump .roundsVoid k s) s
    else (rs.filter fun r => decide (r.group < 64)).foldl (fun s r => roundOne r s) { s with prot := { s.prot with roundSeen := true } }
  if s.prot.roundSeen then
    (Tab.keys s.prot.grp).foldl (fun s k => if (s.grp k).wanted then raiseClaim k s else s) s
  else s

/-- CLAIM_ROUND_END (R445). -/
def execClaimRoundEnd (rs : List RoundResult) (s : State) : Host.Outcome State Fault Refusal := island 172 (roundEnd rs) s

/-- CLAIM_BUS_FAULT (R447). -/
def execClaimBusFault (stuckLow : Bool) (s : State) : Host.Outcome State Fault Refusal :=
  island 172 (fun s =>
    if s.prot.busFault then s
    else raiseFault 172 9 (if stuckLow then 2 else 1) (bump .claimBusFault 0 { s with prot := { s.prot with busFault := true } })) s

/-- CLAIM_BUS_FAULT_CLEAR (R447): after 64 good cycles. -/
def execClaimBusFaultClear (s : State) : Host.Outcome State Fault Refusal :=
  island 172 (fun s => { s with prot := { s.prot with busFault := false } }) s

/-! ### Heartbeats (R441, R442, R465) -/

/-- group_state of a group (R441). -/
def GrpSt.code : GrpSt → Nat
  | .off => 0
  | .ready => 2
  | .active => 3
  | _ => 1

/-- The HEARTBEAT of the boundary that starts the present superframe, on every link that is up. -/
def hbSend (s : State) : State :=
  if s.ixrUp.isEmpty then { s with prot := { s.prot with hbOut := none } }
  else
    let p := s.prot
    let dig := (p.grp.filter fun e => e.2.digestOk).foldl (fun a e => a ||| 2 ^ e.1) 0
    let hb : Heartbeat := {
      link := 0, srcUnit := s.opt.unitId, seq := p.hbSeq, ltbSet := s.ltbSet, sagS5 := decide (5 ≤ s.sagStage)
      classF := s.classF, stackRole := s.stackRole, sfc := s.clk.sfc, stackTag := s.opt.cur.stackTag, members := s.members
      masters := s.masters, groupState := (List.range 64).map fun k => (s.grp k).st.code, mirrorSeq := p.mirTx
      digestMap := dig, macBase := s.opt.cur.macBase }
    let s := s.ixrUp.foldl (fun s l => (ixrSeq l 1 48 s).2) s
    { s with prot := { s.prot with hbOut := some hb, hbSeq := (p.hbSeq + 1) % 65536 } }

/-- What a HEARTBEAT of the peer does to a group. -/
def peerState (k c : Nat) (digest : Bool) (s : State) : State :=
  let p := s.grp k
  if c = 0 && (Tab.get? s.prot.grp k).isNone then s
  else
    let s := onGrp k (fun p => { p with peerState := c, barred := false,
                                        digestOk := if p.st == .active then digest else p.digestOk }) s
    if c != 3 then s
    else
      match p.st with
      | .claiming => onGrp k (fun p => { p with st := .ready, raised := false, wanted := false, held := false }) s
      | .released => onGrp k (fun p => { p with st := if p.bySwitch then .ready else .sync, bySwitch := false, synced := false }) s
      | _ => s

/-- A HEARTBEAT arrives (R441, R442, R465, R466). -/
def hbReceive (m : Heartbeat) (s : State) : State :=
  let (gap, s) := ixrArrive m.link 1 m.seq s
  let s := if gap then bump .hbGap m.link s else s
  if s.stackRole = 0 then s
  else
    let l := Tab.getD s.prot.links m.link {}
    let refused := m.srcUnit == s.opt.unitId || m.stackTag != s.opt.cur.stackTag || m.stackRole == 0
    if refused then
      let x : StackLink := { refused := true, unit := m.srcUnit }
      let s1 := { s with prot := { s.prot with links := Tab.set s.prot.links m.link x } }
      if l.refused then s1 else event 0xC004 [.u 8 m.link, .u 8 m.srcUnit, .u 32 m.stackTag] (bump .stackMiswire m.link s1)
    else
      let x : StackLink := { accepted := true, members := m.members % 256, masters := m.masters % 256, unit := m.srcUnit,
                             macBase := m.macBase, heardSfc := s.clk.sfc }
      let s := { s with prot := { s.prot with links := Tab.set s.prot.links m.link x } }
      let lower := m.masters % 2 ^ s.opt.unitId != 0
      let s := if s.actsMaster && lower then
          event 0xC005 [.u 8 s.opt.unitId, .u 8 m.masters] { s with prot := { s.prot with asMember := true } }
        else s
      if m.srcUnit == s.paramN 0xC011 0 then
        let s := { s with prot := { s.prot with
          heardSfc := some s.clk.sfc, heardAt := s.clk.now, heardM := m.sfc, gapM := if gap then some m.sfc else s.prot.gapM } }
        (List.range 64).foldl (fun s k => peerState k (m.groupState.getD k 0) (bit m.digestMap k) s) s
      else s

/-- HEARTBEAT_RECEIVE (R442). -/
def execHeartbeatReceive (m : Heartbeat) (s : State) : Host.Outcome State Fault Refusal :=
  island (ixrBlk m.link) (hbReceive m) s

/-- IXRARDO_BAD_TYPE (R73): a frame of reserved type or version is dropped and counted. -/
def execIxrardoBadType (link version type : Nat) (s : State) : Host.Outcome State Fault Refusal :=
  island (ixrBlk link) (fun s =>
    if version == 1 && decide (1 ≤ type ∧ type ≤ 6) then s else bump .ixrBadType link s) s

/-- PCS lanes of an 800GBASE-R group (PRESUMED, IEEE 802.3 Clause 172, notes/assumptions/108.md). -/
def ixrLanes : Nat := 32

/-- Block lock on all lanes of a group's 800GBASE-R PCS (R74). -/
def State.ixrLocked (s : State) (link : Nat) : Bool :=
  (List.range ixrLanes).all fun l => (Tab.getD s.lane.pcs (8 * link * 32 + l) {}).locked

/-- An Ixrardo link's state (R74): a link that goes down forgets the peer it heard; sequence numbers start afresh at a change
(DESIGN CHOICE, notes/assumptions/88.md). -/
def ixrLink (link : Nat) (up : Bool) (s : State) : State :=
  if s.paramN 0x1500 link != 4 then s
  else
    let s := { s with lane := { s.lane with ixr := Tab.set s.lane.ixr link { up := up } } }
    if up then cascLinkUp s else { s with prot := { s.prot with links := Tab.erase s.prot.links link } }

/-- IXRARDO_LINK_CHANGE (R74): with `up` the PCS reports alignment, and the link is up where every lane has block lock too. -/
def execIxrardoLinkChange (link : Nat) (up : Bool) (s : State) : Host.Outcome State Fault Refusal :=
  island (ixrBlk link) (fun s => if up && !s.ixrLocked link then s else ixrLink link up s) s

/-- UPLINK_BLOCK_LOCK (R70): an Ixrardo link whose PCS loses block lock on a lane goes down (R74). -/
def execUplinkBlockLock (port lane : Nat) (headers : List Bool) (s : State) : Host.Outcome State Fault Refusal :=
  island (upBlk (port / 8)) (fun s =>
    let s := blockLock port lane headers s
    if port % 8 == 0 && (Tab.getD s.lane.ixr (port / 8) {}).up && !s.ixrLocked (port / 8) then ixrLink (port / 8) false s else s) s

/-! ### Mirroring (R452 to R454) -/

/-- The mirrored objects of a group as records. -/
def State.groupRecords (s : State) (k : Nat) : List MirrorRec :=
  let onus := s.treeOnus k
  let recs := onus.flatMap fun e =>
    let quiet := (s.map.quiet.filter fun q => q.onu == e.1).map fun q => (q.g1, q.g2, q.first, q.last)
    .onu k e.1 e.2.status e.2.onuId.isSome quiet (e.2.tune.map fun t => (t.target, t.q))
      :: e.2.eq.map fun r => MirrorRec.eqRecord k e.1 r.1 r.2.word
  let allocs := (s.treeAllocCtx k).map fun e => MirrorRec.alloc k e.1 e.2.onu e.2.allocId true e.2.a
  let chans := (treePairs k).flatMap fun g =>
    let m := s.mapCh g
    let d := s.dsCh g
    (if m.active.isEmpty then [] else [MirrorRec.page k g m.activeTarget m.active])
      ++ ((m.fixedCur.toList ++ m.fixedNext.toList).map fun f => MirrorRec.fixedSet k g f.actSfc f.entries)
      ++ (if d.active.isEmpty then [] else
        [MirrorRec.slotPage k g d.active ((s.ds.trib.filter fun e => e.2.a.channel == g).map fun e => (e.1, e.2.a))])
  let keys := match Tab.get? s.cip.hk 15 with
    | none => []
    | some kek =>
      (onus.flatMap fun e => [0, 1].flatMap fun d => [0, 1].filterMap fun n =>
        let c := s.keyCtx e.1 d n
        if c.st == .empty then none else some (MirrorRec.keyCtx k e.1 d n c.word (keyWrap kek c.key)))
      ++ (treePairs k).flatMap fun g => [0, 1].filterMap fun n =>
        let c := s.bcastCtx g n
        if c.st == .empty then none else some (MirrorRec.bcastKey k g n c.word (keyWrap kek c.key))
  recs ++ allocs ++ chans ++ keys ++ [.digest k (s.groupDigest k)]

/-- Key contexts are mirrored: host key slot 15 holds a key (R369). -/
def State.mirrorsKeys (s : State) : Bool := (Tab.get? s.cip.hk 15).isSome

/-- A wrapped context kept, or dropped where its word says EMPTY (R369). -/
def keepWrap (t : Tab (Nat × Nat)) (i w x : Nat) : Tab (Nat × Nat) := if bits w 126 124 = 0 then Tab.erase t i else Tab.set t i (w, x)

/-- Objects sent before that are gone. -/
def State.goneRecords (s : State) (k : Nat) (sent : List MirrorRec) : List MirrorRec :=
  sent.filterMap fun r =>
    match r with
    | .onu _ h _ _ _ _ => if (Tab.get? s.onu.ctx h).isNone then some (.onu k h 0 false [] none) else none
    | .alloc _ a o i true x => if (Tab.get? s.map.alloc a).isNone then some (.alloc k a o i false x) else none
    | .keyCtx _ h d n _ _ =>
      if s.mirrorsKeys && (s.keyCtx h d n).st == .empty then some (.keyCtx k h d n 0 0) else none
    | .bcastKey _ g n _ _ => if s.mirrorsKeys && (s.bcastCtx g n).st == .empty then some (.bcastKey k g n 0 0) else none
    | _ => none

/-- A MIRROR frame leaves on the peer's link (R72, R73, R452). -/
def mirrorSend (rs : List MirrorRec) (s : State) : State :=
  match s.peerLink with
  | none => s
  | some u =>
    let (n, s) := ixrSeq u 6 (Config.ixrPayload 6 rs.length) s
    { s with prot := { s.prot with mirTx := n, mirOut := s.prot.mirOut ++ [(n, rs)] } }

/-- What an ACTIVE group mirrors at a boundary: what changed, or a full copy while its peer is not ready. -/
def mirrorGroup (k : Nat) (s : State) : State :=
  let p := s.grp k
  if p.st != .active || s.ixrUp.isEmpty then s
  else
    let recs := s.groupRecords k
    let news := recs.filter fun r => !p.sent.contains r
    let gone := s.goneRecords k p.sent
    let full := p.peerState == 1 && !p.copied
    let s := onGrp k (fun p => { p with sent := recs, copied := p.peerState == 1 }) s
    if full then mirrorSend ([.resyncBegin k] ++ recs ++ [.resyncEnd k]) s
    else if news.isEmpty && gone.isEmpty then s
    else mirrorSend (gone ++ news) s

/-- A standby group that must be copied again (R448). -/
def toSync (k : Nat) (s : State) : State :=
  onGrp k (fun p =>
    match p.st with
    | .ready => { p with st := .sync, synced := false, copying := false }
    | .sync => { p with synced := false }
    | .claiming => { p with gapped := true }
    | _ => p) s

/-- The state of code n (R112). -/
def onuStateOf (n : Nat) : OnuState :=
  ([.free, .provisioned, .discovered, .ranging, .confirm, .registering, .authorising, .extending, .operation, .tuning, .lost,
    .disabled, .deactivating][n]?).getD .free

/-- A context as the mirrored word tells it. -/
def onuOfWord (k w : Nat) (hasId : Bool) (o : Onu) : Onu :=
  { o with
    tree := k, serial := bits w 127 64, state := onuStateOf (bits w 63 60), chan := bits w 53 51
    onuId := if hasId then some (bits w 50 41) else none
    curRate := bits w 40 39, maxRate := bits w 38 37, ext := bit w 36, seeded := bit w 35, tribOk := bit w 34
    carryOk := bit w 33, pinned := bit w 32, tuneTime := bits w 31 16, chanMask := bits w 15 8, lastFail := bits w 7 4 }

/-- A record collides with a local object of another tree (R454). -/
def State.mirrorClash (s : State) (r : MirrorRec) : Bool :=
  let tree (h : Nat) : Option Nat := (Tab.get? s.onu.ctx h).map (·.tree)
  match r with
  | .onu k h _ _ _ _ | .eqRecord k h _ _ | .keyCtx k h _ _ _ _ => (tree h).isSome && tree h != some k
  | .alloc k a _ _ _ _ =>
    match Tab.get? s.map.alloc a with
    | some x => (tree x.onu).isSome && tree x.onu != some k
    | none => false
  | .page k g _ _ | .fixedSet k g _ _ | .slotPage k g _ _ | .bcastKey k g _ _ _ => g / 8 != k
  | _ => false

/-- The group a record names. -/
def recGroup : MirrorRec → Nat
  | .onu k _ _ _ _ _ | .eqRecord k _ _ _ | .alloc k _ _ _ _ _ | .page k _ _ _ | .fixedSet k _ _ _ | .slotPage k _ _ _
  | .keyCtx k _ _ _ _ _ | .bcastKey k _ _ _ _ | .digest k _ | .resyncBegin k | .resyncEnd k => k

/-- A record is applied on a standby (R452). -/
def mirrorApply (r : MirrorRec) (s : State) : State :=
  match r with
  | .onu k h w hasId quiet tune =>
    let qs : List QuietIv := quiet.map fun q => { onu := h, g1 := q.1, g2 := q.2.1, first := q.2.2.1, last := q.2.2.2 }
    let s := { s with map := { s.map with quiet := (s.map.quiet.filter fun (q : QuietIv) => q.onu != h) ++ qs } }
    if bits w 63 60 = 0 then { s with onu := { s.onu with ctx := Tab.erase s.onu.ctx h } }
    else
      let o := (Tab.get? s.onu.ctx h).getD { tree := k, state := .free, serial := 0, hostSerial := false }
      let o := onuOfWord k w hasId o
      let t : Option Tune := tune.map fun x => { cmd := none, source := 0, target := x.1, origin := o.chan, q := x.2,
                                                 t := o.tuneTime, acked := true, sent := x.2, eqd64 := (Tab.getD o.eq x.1 {}).eqd64,
                                                 rate := o.curRate }
      handleTaken h o.serial { s with onu := { s.onu with ctx := Tab.set s.onu.ctx h { o with tune := t } } }
  | .eqRecord _ h c w =>
    onOnu h (fun o => { o with eq := Tab.set o.eq c { valid := bit w 31, carried := bit w 30, eqd64 := bits w 29 0,
                                                      confirmed := s.clk.sfc } }) s
  | .alloc _ a onu i valid x =>
    let dflt := ((Tab.get? s.onu.ctx onu).bind (·.onuId)).map Config.defaultAllocId == some i
    let al : Alloc := { allocId := i, onu := onu, a := x, dflt := dflt, acked := true }
    let s := dropCredit a s
    let tb := if valid then Tab.set s.map.alloc a al else Tab.erase s.map.alloc a
    { s with map := { s.map with alloc := tb } }
  | .page _ g sfc es =>
    let s := onMap g (fun m => { m with active := es, activeTarget := sfc }) s
    onMap g (fun m => { m with expect := m.schedule sfc (expectations s g sfc es none []) }) s
  | .fixedSet _ g act es =>
    let f : FixedSet := { actSfc := act, entries := es }
    onMap g (fun m => if act ≤ s.clk.sfc then { m with fixedCur := some f } else { m with fixedNext := some f }) s
  | .slotPage _ g es tribs =>
    let s := onDsCh g (fun c => { c with active := es }) s
    tribs.foldl (fun s e =>
      let tr := Tab.upd s.ds.trib e.1 { a := e.2 } fun t => { t with a := e.2 }
      { s with ds := { s.ds with trib := tr } }) s
  | .keyCtx _ h d n w x => { s with prot := { s.prot with wrapKey := keepWrap s.prot.wrapKey (keyIdx h d n) w x } }
  | .bcastKey _ g n w x => { s with prot := { s.prot with wrapBcast := keepWrap s.prot.wrapBcast (2 * g + n) w x } }
  | .digest k v =>
    let ok := v == s.groupDigest k
    let s := onGrp k (fun p => { p with peerDigest := some v, digestOk := ok }) s
    if ok then s else toSync k s
  | .resyncBegin k => onGrp k (fun p => { p with copying := true, synced := false }) s
  | .resyncEnd k => protLog k (onGrp k (fun p => { p with synced := p.copying, copying := false }) s)

/-- One record received. -/
def mirrorOne (r : MirrorRec) (s : State) : State :=
  let st := (s.grp (recGroup r)).st
  if st == .off || st == .active || st == .promoting then s
  else if s.mirrorClash r then toSync (recGroup r) (bump .mirrorConflict 0 s)
  else mirrorApply r s

/-- A MIRROR frame arrives (R454). -/
def mirrorReceive (link seq : Nat) (rs : List MirrorRec) (s : State) : State :=
  let (gap, s) := ixrArrive link 6 seq s
  let s := { s with prot := { s.prot with mirRx := some (seq % 65536) } }
  let s := if gap then (Tab.keys s.prot.grp).foldl (fun s k => toSync k s) (bump .mirrorGap 0 s) else s
  rs.foldl (fun s r => mirrorOne r s) s

/-- MIRROR_RECEIVE (R452, R454). -/
def execMirrorReceive (link seq : Nat) (rs : List MirrorRec) (s : State) : Host.Outcome State Fault Refusal :=
  island 104 (mirrorReceive link seq rs) s

/-! ### Audits (R458) -/

/-- An AUDIT frame leaves on the peer's link (R72, R73); while no link is up it is lost, and the next interval repeats the
audit (R458). -/
def auditSend (a : AuditOut) (s : State) : State :=
  match s.peerLink with
  | none => s
  | some u =>
    let s := (ixrSeq u 5 (Config.ixrPayload 5 a.crcs.length) s).2
    { s with prot := { s.prot with audOut := s.prot.audOut ++ [a] } }

/-- An audit of an ACTIVE group begins: its scan is 16 superframes ahead. -/
def auditStart (k : Nat) (cmd : Option Req) (s : State) : State :=
  let a : Audit := { sfcA := s.clk.sfc + 16, mirrorSeq := s.prot.mirTx, cmd := cmd }
  auditSend { group := k, isResult := false, sfcA := a.sfcA, mirrorSeq := a.mirrorSeq, crcs := [] }
    (onGrp k (fun p => { p with audit := some a }) s)

/-- The scan of a group at its boundary: the standby returns its sums as soon as it has applied every record named. -/
def auditScan (k : Nat) (s : State) : State :=
  match (s.grp k).audit with
  | none => s
  | some a =>
    if a.own.isSome || s.clk.sfc < a.sfcA then s
    else
      let sums := s.auditSums k
      let s := cu3Ran (leOctets 4 (s.groupDigest k)) (onGrp k (fun p => { p with audit := some { a with own := some sums } }) s)
      if (s.grp k).st == .active then s
      else auditSend { group := k, isResult := true, sfcA := a.sfcA, mirrorSeq := a.mirrorSeq, crcs := sums } s

/-- An audit of every ACTIVE group begins; one whose frame was lost is repeated (R458). -/
def auditAll (s : State) : State :=
  (Tab.keys s.prot.grp).foldl (fun s k =>
    if (s.grp k).st == .active then auditStart k (((s.grp k).audit).bind (·.cmd)) s else s) s

/-- AUDIT_INTERVAL (R458). -/
def execAuditInterval (s : State) : Host.Outcome State Fault Refusal :=
  island 104 (fun s =>
    if s.clk.now < s.prot.auditAt then s
    else auditAll { s with prot := { s.prot with auditAt := s.clk.now + secT (s.paramN 0xC031 0) } }) s

/-- An AUDIT result is compared with the device's own sums (R458). The ACTIVE device returns its own sums too, so that the
standby learns the outcome (notes/assumptions/61.md). -/
def auditCompare (k : Nat) (a : Audit) (own crcs : Tab Nat) (s : State) : State :=
  let same := own == crcs
  let s := onGrp k (fun p => { p with auditOk := same, audit := none }) s
  if (s.grp k).st == .active then
    let s := auditSend { group := k, isResult := true, sfcA := a.sfcA, mirrorSeq := a.mirrorSeq, crcs := own } s
    let s := completeOpt a.cmd 0xC004 (.vals [.lst 4 (own.map (·.2)), .lst 4 (crcs.map (·.2))]) s
    if same then s else event 0xC001 [.u 8 k, .u 51 a.sfcA] (bump .auditMismatch k s)
  else if same then
    onGrp k (fun p => if p.st == .sync && p.synced then { p with st := .ready, synced := false } else p) s
  else toSync k (event 0xC001 [.u 8 k, .u 51 a.sfcA] (bump .auditMismatch k s))

/-- AUDIT_RECEIVE (R458). -/
def auditReceive (link seq k : Nat) (isResult : Bool) (sfcA mseq : Nat) (crcs : Tab Nat) (s : State) : State :=
  let (_, s) := ixrArrive link 5 seq s
  let p := s.grp k
  if isResult then
    match p.audit with
    | some a =>
      match a.own with
      | some own => if a.sfcA = sfcA then auditCompare k a own crcs s else s
      | none => s
    | none => s
  else if p.st == .off || p.st == .active then s
  else onGrp k (fun p => { p with audit := some { sfcA := sfcA, mirrorSeq := mseq } }) s

/-- AUDIT_RECEIVE (R458). -/
def execAuditReceive (link seq group : Nat) (isResult : Bool) (sfcA mirrorSeq digest : Nat) (crcs : Tab Nat) (s : State) :
    Host.Outcome State Fault Refusal :=
  island 104 (fun s =>
    auditReceive link seq group isResult sfcA mirrorSeq crcs
      (if group < 64 && !isResult then onGrp group (fun p => { p with peerDigest := some digest }) s else s)) s

/-! ### Release and the drill (R457, R459) -/

/-- Release of an ACTIVE group: the ProtSwitch row of R448. -/
def releaseGroup (k : Nat) (s : State) : State := dropHold k .released true s

/-- TREE_FAIL (kind 0) or OPTICS_FAIL (kind 1) on a tree the device serves as ACTIVE (R457, R459). -/
def protFail (k kind : Nat) (s : State) : State :=
  let p := s.grp k
  if p.st != .active then s
  else if (match p.drillUntil with
      | some t => decide (s.clk.now < t)
      | none => false) then releaseGroup k (event 0xC002 [.u 8 k, .u 8 kind] s)
  else if kind == 0 && s.param 0xC034 0 == 1 && p.peerState == 2
      && decide (p.activeAt + secT (s.paramN 0xC032 0) ≤ s.clk.now) then releaseGroup k s
  else s

/-- DRILL_WATCH_END (R459). -/
def execDrillWatchEnd (t : Nat) (s : State) : Host.Outcome State Fault Refusal :=
  island 104 (fun s => if s.due (s.grp t).drillUntil then onGrp t (fun p => { p with drillUntil := none }) s else s) s

/-! ### Promotion (R455) -/

/-- A context from its mirrored word and its key (R359); its times start again. -/
def State.ctxOfWord (s : State) (w key : Nat) : KeyCtx :=
  let st : KeySt := ([.empty, .pending, .ready, .current, .retiring, .exhausted][bits w 126 124]?).getD .empty
  { st := st, isRec := bit w 123, weak := bit w 122, blk := bits w 121 93, sfcLast := bits w 92 42, key := key
    at_ := s.clk.sfc, till := s.clk.sfc + s.paramN 0xA012 0 }

/-- This device can prove that its first SFC is at least M + 2 (R369). -/
def State.keyProof (s : State) : Bool :=
  let m := s.prot.heardM
  let near := match s.prot.gapM with
    | some n => decide (m ≤ n + 8)
    | none => false
  decide (m + 2 ≤ s.clk.sfc) && !near

/-- What stands in a context after a promotion (R369): the mirrored one where the key that wraps it may be used and unwraps it;
otherwise a context that holds anything, or was mirrored, is EXHAUSTED. -/
def State.promoted (s : State) (kek : Option Nat) (old : KeyCtx) (wrap : Option (Nat × Nat)) : KeyCtx :=
  let bad : KeyCtx := if old.st == .empty && wrap.isNone then old else { st := .exhausted, isRec := old.isRec }
  match kek, wrap with
  | some k, some (w, x) => (keyUnwrap k x).elim bad fun key => s.ctxOfWord w key
  | _, _ => bad

/-- The mirrored key contexts of a tree are taken into use; every other context of it is EXHAUSTED, and so is each one where there is
no proof; every ONU without a key to encrypt under gets an exchange (R369). -/
def promoteKeys (k : Nat) (s : State) : State :=
  let kek : Option Nat := if s.keyProof then Tab.get? s.cip.hk 15 else none
  let all := (s.treeOnus k).map (·.1)
  let uni := s.prot.wrapKey
  let bc := s.prot.wrapBcast
  let s := { s with prot := { s.prot with
    wrapKey := uni.filter fun e => !all.contains (e.1 / 4), wrapBcast := bc.filter fun e => e.1 / 16 != k } }
  let onus := (s.treeOnus k).filter fun e => decide (7 ≤ e.2.state.ctorIdx ∧ e.2.state.ctorIdx ≤ 10)
  let s := onus.foldl (fun s e => onKeyOnu e.1 (fun x => { x with isRec := !e.2.ext }) s) s
  let one (s : State) (i : Nat) : State :=
    setKey (i / 4) (i / 2 % 2) (i % 2) (s.promoted kek (s.keyCtx (i / 4) (i / 2 % 2) (i % 2)) (Tab.get? uni i)) s
  let s := all.foldl (fun s h => ([0, 1, 2, 3].map (4 * h + ·)).foldl one s) s
  let oneB (s : State) (i : Nat) : State :=
    let x := s.promoted kek (s.bcastCtx (i / 2) (i % 2)) (Tab.get? bc i)
    if x.st == .exhausted then bcastExhaust (i / 2) (i % 2) s else setBcast (i / 2) (i % 2) x s
  let s := ((List.range 16).map (16 * k + ·)).foldl oneB s
  onus.foldl (fun s e => if (s.currentSlot e.1 0).isSome then s else dueExchange e.1 (onKeyOnu e.1 (fun x => { x with exch := none }) s)) s

/-- The new active device takes over at the boundary that started the present superframe (R455). -/
def promote (k : Nat) (s : State) : State :=
  let p := s.grp k
  let s := onGrp k (fun p => { p with
    st := .active, activeAt := s.clk.now, settleEnd := s.clk.sfc + s.paramN 0xC033 0, lossRaised := !s.peerHeard
    drillUntil := if s.peerHeard then some (s.clk.now + msT (s.paramN 0xC035 0)) else none, sent := [], copied := false }) s
  let s := (treePairs k).foldl (fun s g =>
    let c := Tab.getD s.lane.ch g {}
    if c.enabled then { s with lane := { s.lane with ch := Tab.set s.lane.ch g { c with tx := .active, txGoal := .active, txPll := true } } }
    else s) s
  let s := promoteKeys k s
  let s := (treePairs k).foldl (fun s g =>
    if (s.mapCh g).active.isEmpty then s
    else
      let s := bump .mapReplay g (onMap g (fun m => { m with replays := 1, compiled := false, commit := none }) s)
      ledGrantsRead g s.clk.sfc (replayPage g s.clk.sfc false false (s.mapCh g).active s)) s
  let s := (s.treeAllocCtx k).foldl (fun s e => onAlloc e.1 (fun x => { x with
    report := 0, reportPos := 0, granted := [], pollDue := true }) (dropCredit e.1 s)) s
  let s := onCore k (fun c => { c with upAt := s.clk.sfc + 1 }) s
  event 0xC000 [.u 8 k, .u 32 p.claim, .u 32 (ticksNs (s.clk.now - s.prot.heardAt))] (bump .switchovers k (protLog k s))

/-- PROMOTION (R448, R455): at the first boundary at least 20 µs after the won round, and with no SFC below M + 2. -/
def execPromotion (t : Nat) (s : State) : Host.Outcome State Fault Refusal :=
  island 104 (fun s =>
    let p := s.grp t
    if p.st == .promoting && decide (p.wonAt + usT 20 + s.clk.ltb % 311040 ≤ s.clk.now)
        && decide (s.prot.heardM + 2 ≤ s.clk.sfc) then promote t s
    else s) s

/-- PROT_SETTLE_END (R455). -/
def execProtSettleEnd (t : Nat) (s : State) : Host.Outcome State Fault Refusal :=
  island 104 (fun s =>
    if (s.grp t).settleEnd ≤ s.clk.sfc then onGrp t (fun p => { p with settleEnd := 0 }) s else s) s

/-! ### Commands (R467) -/

/-- PROT_ENABLE (R440). -/
def execProtEnable (q : Req) (t : Nat) (s : State) : Host.Outcome State Fault Refusal :=
  kilak q 0xC000 (fun s =>
    if 64 ≤ t then deny .badArg s
    else if s.stackRole = 0 || s.paramN 0x3037 t < 32 || (treePairs t).any fun g => s.paramN 0x3020 g < 250000 then deny .limit s
    else if s.paramN 0xC011 0 == s.opt.unitId || (match (s.grp t).peerDigest with
        | some d => d != s.groupDigest t
        | none => false) then deny .badArg s
    else if (s.grp t).st != .off then done s
    else done (listen t (darken t (setParam 0xC010 t 1 (onGrp t (fun p => { p with st := .sync, synced := false, copying := false }) s))))) s

/-- PROT_DISABLE (R448, R449). -/
def execProtDisable (q : Req) (t : Nat) (s : State) : Host.Outcome State Fault Refusal :=
  kilak q 0xC001 (fun s =>
    let p := s.grp t
    if 64 ≤ t then deny .badArg s
    else if p.st == .active && p.peerState != 0 then deny .busy s
    else done (setParam 0xC010 t 0 (onGrp t (fun p => { p with
      st := .off, held := false, raised := false, wanted := false, audit := none, sent := [], drillUntil := none }) s))) s

/-- PROT_ACTIVATE (R448, R450). -/
def execProtActivate (q : Req) (t : Nat) (s : State) : Host.Outcome State Fault Refusal :=
  kilak q 0xC002 (fun s =>
    let p := s.grp t
    if 64 ≤ t then deny .badArg s
    else if p.st == .off || s.peerActive t then deny .badState s
    else if p.st == .sync || p.st == .released then done (startClaim t s)
    else done s) s

/-- PROT_SWITCH (R448): one group, or every ACTIVE group. -/
def execProtSwitch (q : Req) (t : Option Nat) (s : State) : Host.Outcome State Fault Refusal :=
  kilak q 0xC003 (fun s =>
    let ks := t.toList ++ if t.isSome then [] else (s.prot.grp.filter fun e => e.2.st == .active).map (·.1)
    if ks.any (64 ≤ ·) then deny .badArg s
    else if ks.isEmpty || ks.any (fun k => (s.grp k).st != .active) then deny .badState s
    else if ks.any fun k => (s.grp k).peerState != 2 then deny .limit s
    else done (ks.foldl (fun s k => releaseGroup k s) s)) s

/-- PROT_AUDIT_NOW (R458): completes with the CRCs of both devices. -/
def execProtAuditNow (q : Req) (t : Nat) (s : State) : Host.Outcome State Fault Refusal :=
  kilak q 0xC004 (fun s =>
    let p := s.grp t
    if 64 ≤ t then deny .badArg s
    else if p.st != .active then deny .badState s
    else if (p.audit.bind (·.cmd)).isSome then deny .busy s
    else waits (auditStart t (some q) s)) s

/-- The word of R468. -/
def State.protWord (s : State) (t : Nat) : Nat :=
  let p := s.grp t
  fields [(32, p.claim), (3, p.st.ctorIdx), (1, flag p.held), (1, flag s.peerHeard), (2, p.peerState), (1, flag s.prot.busFault),
    (1, flag p.auditOk), (1, flag p.digestOk), (22, p.epochSeen)]

/-- PROT_STATUS (R468). -/
def execProtStatus (q : Req) (t : Nat) (s : State) : Host.Outcome State Fault Refusal :=
  kilak q 0xC005 (fun s => if 64 ≤ t then deny .badArg s else doneWith [.rcd 64 (s.protWord t)] s) s

/-- STACK_STATUS (R464 to R467). -/
def execStackStatus (q : Req) (s : State) : Host.Outcome State Fault Refusal :=
  kilak q 0xC008 (fun s =>
    let acc := (s.prot.links.filter fun e => e.2.accepted).foldl (fun a e => a ||| 2 ^ e.1) 0
    doneWith [.u 8 s.opt.unitId, .u 8 s.stackRole, .u 8 s.members, .u 8 s.masters, .u 64 acc, .u 48 s.stackId, .u 8 s.timeSteps] s) s

/-! ### Channel sparing (R461 to R463) -/

/-- A channel pair is populated (R210). -/
def State.populated (s : State) (g : Nat) : Bool :=
  s.onu.ctx.any fun e => e.2.g == g && decide (4 ≤ e.2.state.ctorIdx ∧ e.2.state.ctorIdx ≤ 10)

/-- The spare of a tree that is reserved and idle (R462). -/
def State.idleSpare (s : State) (t : Nat) : Option Nat :=
  let c := s.paramN 0x3036 t
  if c < 8 && !s.populated (8 * t + c) && !(Tab.getD s.lane.ch (8 * t + c) {}).enabled then some c else none

/-- An ONU of a failed channel pair moves to the spare (R138). -/
def spareOnu (gs f : Nat) (downOk : Bool) (h : Nat) (o : Onu) (s : State) : State :=
  let s := spareForget h s
  let s := { s with map := { s.map with spare := Tab.set s.map.spare h (gs, f + s.paramN 0x3037 o.tree + o.tuneTime) } }
  if downOk then (if o.state == .operation then startRetune none 2 h (gs % 8) 4 s else s)
  else if o.standingOk && o.carryOk then s
  else requestWindow gs .ranging h (s.rangeQuiet gs) (onOnu h (fun o => { o with curRate := s.baseRate gs })
    { s with map := { s.map with spareWin := s.map.spareWin ++ [h] } })

/-- Both lanes of a channel pair that is taken down go toward a power state. -/
def lanesTo (g : Nat) (p : LanePwr) (s : State) : State :=
  onLaneCh g (fun c => { c with enabled := false, txGoal := p, rxGoal := s.restGoal g p }) s

/-- Sparing of channel pair g onto spare c (R462). -/
def spareChannel (g c : Nat) (downOk : Bool) (s : State) : State :=
  let t := g / 8
  let gs := 8 * t + c
  let f := s.clk.sfc + 4
  let s := setParam 0x1021 gs (s.param 0x1021 g) (setParam 0x1020 gs (s.param 0x1020 g) s)
  let page := (s.dsCh g).active
  let s := onDsCh gs (fun d => { d with standby := page, commit := some { sfc := f, checked := true }, txFrom := f }) s
  let s := onDsCh g (fun d => { d with standby := [], commit := some { sfc := f, checked := true } }) s
  let s := (pageTribs page).foldl (fun s i => onTrib i (fun x => { x with a := { x.a with channel := gs } }) s) s
  let s := onMap gs (fun m => { m with fixedStage := some (f, (s.mapCh g).fixedCur, (s.mapCh g).fixedNext) }) s
  let s := [0, 1].foldl (fun s n => setBcast gs n (s.bcastCtx g n) s) s
  let s := onLaneCh gs (fun c => { c with
    enabled := true, txGoal := if s.holdsTree t then .active else c.txGoal, rxGoal := .active }) s
  let s := if s.holdsTree t then sbSend t c 0x2 0 s else s
  let s := (treePairs t).foldl (fun s x =>
    if (Tab.getD s.lane.ch x {}).enabled then
      plQueue { g := x, onu := none, msg := .channelProfile c, ready := f } s
    else s) s
  let s := (s.onu.ctx.filter fun e => e.2.g == g && decide (4 ≤ e.2.state.ctorIdx ∧ e.2.state.ctorIdx ≤ 10)).foldl
    (fun s e => spareOnu gs f downOk e.1 e.2 s) s
  let s := if downOk then { s with prot := { s.prot with draining := s.prot.draining ++ [g] } }
    else lanesTo g .standby s
  event 0xC003 [.u 8 t, .u 8 (g % 8), .u 8 c, .u 51 f] (bump .spareEvents t (setParam 0x3036 t 8 s))

/-- A failed channel pair whose last ONU has arrived or timed out goes to STANDBY, administratively down (R462 step 5). -/
def drainBoundary (s : State) : State :=
  s.prot.draining.foldl (fun s g =>
    if s.onu.ctx.any fun e => e.2.g == g && e.2.tune.isSome then s
    else
      lanesTo g .standby { s with prot := { s.prot with draining := s.prot.draining.filter (· != g) } }) s

/-- TREE_FAIL prevails: spare retunes in progress on the tree are abandoned (R219). -/
def abandonSpare (t : Nat) (s : State) : State :=
  let hs := (s.treeOnus t).filter fun e => (e.2.tune.map (·.source)) == some 2
  let s := hs.foldl (fun s e => onOnu e.1 (fun o => { o with state := .operation }) (abandonTune e.1 s)) s
  let spared := s.map.spare.filter fun e => e.2.1 / 8 == t
  (Tab.keys spared).foldl (fun s h => spareForget h s) s

/-- SPARE_SET (R461): the lanes of the reserved spare go to STANDBY; those of a channel pair that is the spare no more and is
administratively down go OFF (R42). -/
def execSpareSet (q : Req) (t c : Nat) (s : State) : Host.Outcome State Fault Refusal :=
  kilak q 0xC006 (fun s =>
    if 64 ≤ t || 9 ≤ c then deny .badArg s
    else if c < 8 && s.populated (8 * t + c) then deny .busy s
    else
      let old := s.paramN 0x3036 t
      let s := if old < 8 && old != c && !(Tab.getD s.lane.ch (8 * t + old) {}).enabled then lanesTo (8 * t + old) .off s else s
      let s := setParam 0x3036 t c s
      if c = 8 then done s
      else
        let g := 8 * t + c
        let s := match (s.laneCh g).ladder with
          | some l => ladderFail g l s
          | none => s
        done (lanesTo g .standby s)) s

/-- CHANNEL_SPARE (R462). -/
def execChannelSpare (q : Req) (g : Nat) (s : State) : Host.Outcome State Fault Refusal :=
  kilak q 0xC007 (fun s =>
    if 512 ≤ g then deny .badArg s
    else
      match s.idleSpare (g / 8) with
      | some c => if c = g % 8 then deny .badArg s else done (spareChannel g c true s)
      | none => deny .badState s) s

/-! ### The boundary -/

/-- Protection at the boundary that starts the present superframe: what heartbeats show, scans, HEARTBEAT, MIRROR. -/
def protBoundary (s : State) : State :=
  let s := { s with prot := { s.prot with mirOut := [], audOut := [] } }
  let s := (Tab.keys s.prot.grp).foldl (fun s k => hbEval k s) s
  let s := (Tab.keys s.prot.grp).foldl (fun s k => auditScan k s) s
  let s := (Tab.keys s.prot.grp).foldl (fun s k => mirrorGroup k s) s
  hbSend (drainBoundary s)

end Sys2Proof.Machine
end

