-- ==== Sys2Proof/Machine/TodBase.lean ====
section
/-! DEFINITION. The time of day of a superframe at an ONU (R411 to R413). -/

namespace Sys2Proof.Machine

/-- The mean of a list of offsets, rounded down. -/
def meanOf (xs : List Int) : Int := if xs.isEmpty then 0 else xs.foldl (· + ·) 0 / (xs.length : Int)

/-- T_N,i of R412 in ns of LTB, to the nearest ns, a tie upward. The sum is taken exactly: `den` ticks of 1/64 and ps both
divide 1/(7,776 × 64 × 1,000) ns. -/
def State.todOf (s : State) (h : Nat) (o : Onu) (n : Nat) : Int :=
  let g := o.g
  let eqd : Int := (Tab.getD o.eq o.chan {}).eqd64
  let arr := meanOf (Tab.getD s.rx.onu (8 * h + o.chan) {}).arr
  let teqd : Int := s.paramN 0x3020 g * 64
  let rtdNow := teqd - eqd + arr
  let rtdRec := teqd - eqd / 64 * 64
  let unit : Int := 7776 * 64 * 1000
  let ds : Int := s.param 0xB040 g
  let us : Int := s.param 0xB041 g
  let dtx := s.param 0xB042 g * 7776 * 64
  let drx := s.param 0xB043 g * 7776 * 64
  let nsOf (x : Int) : Int := x * 3125 * 1000
  let lat : Int := Config.txLatencyRaw (s.paramN 0x1020 g) % 1025
  let sum := ds + us
  let whole : Int := n * 125000
  let num := sum * 1000000000 * (nsOf (lat * 64) + dtx) + 1000000000 * ds * (nsOf rtdNow - dtx - drx)
    - sum * s.param 0xB044 g * nsOf rtdRec
  let den := sum * 1000000000 * unit
  whole + (2 * num + den) / (2 * den)

/-- T_N,i has moved by tod.update_ns since the last TodPairRead of the ONU (R413). -/
def todMoved (h : Nat) (s : State) : State :=
  match Tab.get? s.time.pair h, Tab.get? s.onu.ctx h with
  | some (n, t), some o =>
    if o.state == .operation && decide (s.paramN 0xB045 0 ≤ (s.todOf h o n - t).natAbs) then todUpdate h s else s
  | _, _ => s

end Sys2Proof.Machine
end

