-- ==== Sys2Proof/Machine/Time.lean ====
section
/-! DEFINITION. Time: reference inputs, domains, the servo, PTP, Ixrardo time, pulse outputs, time of day (R391 to R421). -/

namespace Sys2Proof.Machine

/-- A command of the TIME island. -/
def timeCmd (q : Req) (op : Nat) (body : State → State × Option Reply) (s : State) : Host.Outcome State Fault Refusal :=
  guardBlks [172] (kilak q op body) s

/-- The LTB in 1/64 tick, within a tick at a place that is a free value. -/
def State.ltb64 (s : State) : Int := s.stamp64

/-! ### Domains (R399, R400) -/

/-- A domain is disqualified: it requalifies only after 16 new samples. -/
def TimeDom.disqualify (d : TimeDom) : TimeDom := { d with qualified := false, samples := [], outliers := 0 }

/-- time.qual_window in 1/64 tick. -/
def State.qualWindow (s : State) : Int := ofPs (s.param 0xB018 0 * 1000)

/-- Every sample lies within the window of the median. -/
def closeSet (w : Int) (xs : List Int) : Bool := xs.all fun x => decide (((x - medianOf xs).natAbs : Int) ≤ w)

/-- The stack's master never steers from an IXR source (R417). -/
def State.mayQualify (s : State) (d : TimeDom) : Bool :=
  decide (d.cls < s.paramN 0xB01A 0) && !(d.kind == 3 && s.opt.cur.stackRole == 1 && !s.prot.asMember)

/-- A sample of domain td (R400): θ in 1/64 tick. -/
def timeSample (td : Nat) (theta : Int) (s : State) : State :=
  let d := s.time.dom td
  let w := s.qualWindow
  let far := d.qualified && decide (4 * w < ((theta - Config.predict d.samples).natAbs : Int))
  let xs := (theta :: d.samples).take 16
  let d1 : TimeDom := { d with samples := xs, recent := (theta :: d.recent).take 16, theta := theta, last := s.clk.now, outliers := if far then d.outliers + 1 else 0 }
  let ok := s.mayQualify d
  let d2 : TimeDom :=
    if d1.qualified then (if 8 ≤ d1.outliers || !ok then d1.disqualify else d1)
    else if ok && xs.length == 16 && closeSet w xs then { d1 with qualified := true, since := s.clk.now } else d1
  let t := s.time.setDom td d2
  let t := if d2.qualified && !d.qualified then { t with fresh := t.fresh ++ [td] } else t
  { s with time := if t.steer == some td then { t with residual := psOf d2.ahead } else t }

/-- The domain's source, as it declares itself with a sample. -/
def timeSource (td cls acc : Nat) (utc : Int) (leap : Nat) (s : State) : State :=
  onDom td (fun d => { d with cls := cls, accNs := acc, utc := utc, leap := leap }) s

/-- The domains that take a source. -/
def State.domsOf (s : State) (kind inst : Nat) : List Nat :=
  [0, 1].filter fun td => (s.time.dom td).kind == kind && (s.time.dom td).inst == inst

/-- TIME_SOURCE_SET (R399): a change of source disqualifies the domain at once. -/
def execTimeSourceSet (q : Req) (td kind inst prio : Nat) (s : State) : Host.Outcome State Fault Refusal :=
  timeCmd q 0xB002 (fun s =>
    let other := s.time.dom (1 - td)
    let inst := if kind < 2 then 0 else inst
    if 1 < td || 3 < kind || 1 < inst || (kind != 0 && other.kind == kind && (kind == 1 || other.inst == inst)) then deny .badArg s
    else if 255 < prio then deny .limit s
    else
      let d := s.time.dom td
      let s := setParam 0xB021 td prio (setParam 0xB020 td (kind * 128 + inst) s)
      let port := if kind = 1 then ((s.time.parent.map (·.1)).getD 0) else inst
      done (onDom td (fun d0 =>
        if d.kind == kind && (kind == 1 || d.inst == inst) then { d0 with prio := prio }
        else { kind := kind, inst := port, prio := prio, last := s.clk.now, recent := d0.recent, accNs := d0.accNs }) s)) s

/-- PIDs of TimeParamSet. -/
def timePids : List Nat := [0xB011, 0xB012, 0xB013, 0xB014, 0xB015, 0xB016, 0xB017, 0xB018, 0xB019, 0xB01A]

/-- A value lies within its descriptor. -/
def pidInRange (pid : Nat) (v : Int) : Bool :=
  match pidDesc? pid with
  | some d => decide (d.min ≤ v) && decide (v ≤ d.max)
  | none => false

/-- TIME_PARAM_SET (R420). -/
def execTimeParamSet (q : Req) (vals : List (Nat × Int)) (s : State) : Host.Outcome State Fault Refusal :=
  timeCmd q 0xB003 (fun s =>
    if !vals.all (fun v => timePids.contains v.1) then deny .badArg s
    else if !vals.all (fun v => pidInRange v.1 v.2) then deny .limit s
    else done (vals.foldl (fun s v => setParam v.1 0 v.2 s) s)) s

/-- The domain's source is lost or its class too high (R400). -/
def timeLost (td : Nat) (s : State) : State := onDom td TimeDom.disqualify s

/-- How long a source may go without a sample (R399), in ticks. -/
def State.lossTime (s : State) (kind : Nat) : Nat :=
  if kind = 1 then secT (s.paramN 0xB019 0) else if kind = 2 then secT 2 else msT 100

/-- TIME_SOURCE_LOSS (R399). -/
def execTimeSourceLoss (td : Nat) (s : State) : Host.Outcome State Fault Refusal :=
  island 172 (fun s =>
    let d := s.time.dom td
    if 1 < td || d.kind = 0 || s.clk.now < d.last + s.lossTime d.kind then s else timeLost td s) s

/-! ### The servo (R401 to R405) -/

/-- The preferred domain: the lower time.td_prio, TD0 on equal values. -/
def State.preferred (s : State) : Nat := if s.time.td1.prio < s.time.td0.prio then 1 else 0

/-- The qualified domain that steers, if any: the preferred one first. -/
def State.bestDomain (s : State) : Option Nat :=
  if (s.time.dom s.preferred).qualified then some s.preferred
  else if (s.time.dom (1 - s.preferred)).qualified then some (1 - s.preferred)
  else none

/-- A domain takes the steering: only the servo's phase input changes. -/
def steerBy (td : Nat) (s : State) : State :=
  { s with time := { s.time with state := .locked, steer := some td, residual := psOf (s.time.dom td).ahead } }

/-- The mean frequency of the time.holdover_avg interval that ended 10 s ago (R404), none where no update fell into it. -/
def State.meanFreq (s : State) : Option Int :=
  let now : Int := s.clk.now
  let till := now - secT 10
  let from_ := till - secT (s.paramN 0xB015 0)
  let xs := (s.time.hist.filter fun e => decide (from_ ≤ e.1) && decide ((e.1 : Int) ≤ till)).map (·.2)
  if xs.isEmpty then none else some (xs.sum / xs.length)

/-- HOLDOVER (R403, R404): maxErr at entry is kept, the frequency is frozen at its mean; the mean of an interval before the first
update is a free value. -/
def enterHoldover (s : State) : State :=
  let e := s.maxErr
  let f : Int := s.meanFreq.getD (Config.freeNat s.free)
  bump .holdoverEntries 0 { s.drawn with time := { s.time with state := .holdover, hoStart := s.clk.now, hoErr := e, freq := f } }

/-- What a domain holds against the LTB once the LTB has moved by j 1/64 ticks. -/
def TimeDom.shift (j : Int) (d : TimeDom) : TimeDom :=
  let k := if d.kind = 1 then -j else j
  { d with theta := d.theta - k, samples := d.samples.map (· - k), recent := d.recent.map (· - k) }

/-- The timestamps and offsets that the TIME island holds, once the LTB has moved by j 1/64 ticks (R393). -/
def TimeS.shift (j : Int) (t : TimeS) : TimeS :=
  let later (p : IxrPeer) : IxrPeer := { p with open_ := p.open_.map fun e => (e.1, e.2 + j) }
  { t with td0 := t.td0.shift j, td1 := t.td1.shift j, edgeA := t.edgeA.map (· + j), edgeB := t.edgeB.map (· + j)
           ixr := t.ixr.map fun e => (e.1, later e.2) }

/-- The initial set (R393 to R395): the LTB at a whole tick, the SFC, the event, the gate lists that waited. -/
def initialSet (ltb : Nat) (st : TimeState) (s : State) : State :=
  let s := { s with clk := { s.clk with ltb := ltb, sfc := ltb / 311040 % 2 ^ 51 }, time := { s.time.shift (((ltb : Int) - s.clk.ltb) * 64) with state := st } }
  let s := event 0xB000 [.u 96 s.ltbNow] s
  (Tab.keys s.sch.gate).foldl (fun s g => if (Tab.getD s.sch.gate g {}).commit.isSome then gateSchedule g s else s) s

/-- The TimeSet commands that waited end. -/
def endSets (c : Code) (xs : List (Req × Nat × Nat)) (s : State) : State :=
  xs.foldl (fun s x => complete x.1 0xB001 (.err c) s) s

/-- Whole ticks of an offset in 1/64 tick, to the nearest, a half upward (R393). -/
def roundTicks (x : Int) : Int := (x + 32) / 64

/-- A frequency kept with its time; what is older than the longest interval of R404 and its 10 s is dropped. -/
def keepFreq (now : Nat) (f : Int) (h : List (Nat × Int)) : List (Nat × Int) :=
  (now, f) :: h.takeWhile fun e => decide (now ≤ e.1 + secT 3610)

/-- One update of the DCO (R402): the source frequency, from REFCLK_A under time.freq_assist (R397), plus the capped phase
correction, of so many ps at each of the 128 updates of a second. -/
def dcoUpdate (s : State) : State :=
  match s.time.state, s.time.steer with
  | .locked, some td =>
    let cap := s.paramN 0xB012 0 * 125 / 16
    let r := s.time.residual
    let n := min (min cap r.natAbs) (Config.servoGain (s.paramN 0xB013 0) r)
    let step : Int := if r < 0 then -(n : Int) else n
    let assist := s.param 0xB011 0 == 1 && s.time.refA.qualified
    let f := if assist then Config.refFreq s.clk.now else Config.sourceFreq (s.time.dom td).samples
    let f := f + step * 128 / 1000
    { s with time := { s.time with residual := r - step, freq := f, hist := keepFreq s.clk.now f s.time.hist } }
  | _, _ => s

/-- SERVO_UPDATE (R403, R405): the servo acts on every event since the previous update. -/
def servoUpdate (s : State) : State :=
  let t := s.time
  let s1 := { s with time := { t with fresh := [], sets := [] } }
  let s2 := match t.state, s.bestDomain with
    | .unset, some td =>
      let v := roundTicks (s.clk.ltb * 64 + (t.dom td).ahead)
      endSets .badState t.sets (steerBy td (initialSet v.toNat .locked s1))
    | .unset, none =>
      match t.sets with
      | [] => s1
      | x :: xs =>
        endSets .badState xs (complete x.1 0xB001 .ok (initialSet (secT x.2.1 + nsTicks x.2.2) .freerun s1))
    | .freerun, some td => steerBy td s1
    | .freerun, none => s1
    | .locked, best =>
      match t.steer with
      | some cur =>
        if (t.dom cur).qualified then s1
        else match best with
          | some td => bump .steerSwitch 0 (steerBy td s1)
          | none => enterHoldover { s1 with time := { s1.time with steer := some cur } }
      | none => s1
    | .holdover, some td => if t.fresh.any fun d => (t.dom d).qualified then steerBy td s1 else s1
    | .holdover, none => s1
  dcoUpdate s2

/-- SERVO_UPDATE (R405). -/
def execServoUpdate (s : State) : Host.Outcome State Fault Refusal := island 172 servoUpdate s

/-- TIME_SET (R393, R403, R405): outside UNSET refused; else it waits for the servo's next update. -/
def execTimeSet (q : Req) (sec ns : Nat) (s : State) : Host.Outcome State Fault Refusal :=
  timeCmd q 0xB001 (fun s =>
    if 1000000000 ≤ ns || 2 ^ 48 ≤ sec then deny .badArg s
    else if s.ltbSet then deny .badState s
    else waits { s with time := { s.time with sets := s.time.sets ++ [(q, sec, ns)] } }) s

/-- WTR_EXPIRY (R401): the preferred domain has stayed qualified for time.wtr. -/
def wtrExpiry (s : State) : State :=
  let p := s.preferred
  let d := s.time.dom p
  match s.time.state, s.time.steer with
  | .locked, some cur =>
    if cur != p && d.qualified && (s.time.dom cur).qualified && decide (d.since + secT (s.paramN 0xB014 0) ≤ s.clk.now) then
      bump .steerSwitch 0 (steerBy p s)
    else s
  | _, _ => s

/-- WTR_EXPIRY (R401). -/
def execWtrExpiry (s : State) : Host.Outcome State Fault Refusal := island 172 wtrExpiry s

/-- Signed picoseconds of a domain's last θ. -/
def TimeDom.thetaPs (d : TimeDom) : Int := psOf d.theta

/-- TIME_STATUS (R420). -/
def execTimeStatus (q : Req) (s : State) : Host.Outcome State Fault Refusal :=
  timeCmd q 0xB000 (fun s =>
    let dom (d : TimeDom) : List RVal := [.u 9 (d.kind * 128 + d.inst), .u 64 (flag d.qualified), .i 64 d.thetaPs]
    doneWith ([.u 8 s.time.state.ctorIdx, .u 96 s.ltbNow, .u 64 (s.time.steer.getD 255)] ++ dom s.time.td0 ++ dom s.time.td1
      ++ [.i 32 s.time.residual, .u 32 s.maxErr, .u 8 s.clockClass, .u 64 s.time.dco]) s) s

/-! ### Reference inputs (R397, R398) -/

/-- The DCO changes its clock, with phase build-out: between the two inputs its frequency word is rescaled by their measured ratio. -/
def dcoTo (i : Nat) (s : State) : State :=
  if s.time.dco = i then s
  else
    let f := if s.time.dco = 2 || i = 2 then s.time.freq else s.time.freq + Config.inputRatio s.time.dco i s.clk.now
    bump .refSwitch 0 { s with time := { s.time with dco := i, freq := f } }

/-- Both inputs lost (R398). -/
def bothRefsLost (s : State) : State :=
  let s := raiseFault 172 8 0 (dcoTo 2 s)
  let s := { s with time := { s.time with bothLost := some (s.time.bothLost.getD s.clk.now) } }
  if s.time.state == .locked then enterHoldover s else s

/-- REFCLK_LOSS (R398). -/
def refLoss (b : Bool) (s : State) : State :=
  let r := if b then s.time.refB else s.time.refA
  if r.lost then s
  else
    let r : RefIn := { r with lost := true, qualified := false }
    let t := if b then { s.time with refB := r } else { s.time with refA := r }
    let s := { s with time := t }
    if t.refA.lost && t.refB.lost then bothRefsLost s else if b then dcoTo 1 s else s

/-- REFCLK_LOSS (R398). -/
def execRefclkLoss (inputB : Bool) (s : State) : Host.Outcome State Fault Refusal := island 172 (refLoss inputB) s

/-- What both losses have added to maxErr stays in a holdover (R398, R404). -/
def refsBack (s : State) : State :=
  let e := s.refGrowth
  { s with time := { s.time with bothLost := none, hoErr := if s.time.state == .holdover then s.time.hoErr + e else s.time.hoErr } }

/-- REFCLK_QUALIFY (R397): with both inputs lost, the DCO takes a qualified REFCLK_A. -/
def refQualify (b : Bool) (s : State) : State :=
  let r : RefIn := { qualified := true, lost := false, since := s.clk.now }
  if b then { s with time := { s.time with refB := r } }
  else
    let s := { s with time := { s.time with refA := r } }
    if s.time.dco = 2 then dcoTo 1 (refsBack s) else s

/-- REFCLK_QUALIFY (R397). -/
def execRefclkQualify (inputB : Bool) (s : State) : Host.Outcome State Fault Refusal := island 172 (refQualify inputB) s

/-- REFCLK_B_RETURN (R398): 10 s after REFCLK_B is qualified again. -/
def refReturn (s : State) : State :=
  let r := s.time.refB
  if s.time.dco = 0 || !r.qualified || s.clk.now < r.since + secT 10 then s
  else dcoTo 0 (if s.time.dco = 2 then refsBack s else s)

/-- REFCLK_B_RETURN (R398). -/
def execRefclkBReturn (s : State) : Host.Outcome State Fault Refusal := island 172 refReturn s

/-! ### PPS and time-of-day inputs (R406) -/

/-- PPS_IN_EDGE (R406): the edge less the board delay. -/
def ppsEdge (input : Nat) (at64 : Int) (s : State) : State :=
  let e := some (at64 - ofPs (s.param 0xB030 input))
  { s with time := if input = 0 then { s.time with edgeA := e } else { s.time with edgeB := e } }

/-- PPS_IN_EDGE (R406). -/
def execPpsInEdge (input : Nat) (at64 : Int) (s : State) : Host.Outcome State Fault Refusal :=
  island 172 (fun s => if 1 < input then s else ppsEdge input at64 s) s

/-- TOD_IN_MESSAGE (R406). -/
def todIn (m : TodMsg) (s : State) : State :=
  let e := if m.input = 0 then s.time.edgeA else s.time.edgeB
  let s := { s with time := if m.input = 0 then { s.time with edgeA := none } else { s.time with edgeB := none } }
  match e with
  | none => bump .todInErr m.input s
  | some e =>
    if !m.crcOk || m.startMs < 1 || 900 < m.endMs then bump .todInErr m.input s
    else if !m.valid then s
    else
      let leap := 2 * flag m.leap61 + flag m.leap59
      (s.domsOf 2 m.input).foldl (fun s td =>
        let utc := if m.utcValid then m.utcOffset else (s.time.dom td).utc
        timeSample td ((secT m.sec * 64 : Int) - e) (timeSource td m.clockClass m.accuracyNs utc leap s)) s

/-- TOD_IN_MESSAGE (R406). -/
def execTodInMessage (m : TodMsg) (s : State) : Host.Outcome State Fault Refusal :=
  island 172 (fun s => if 1 < m.input then s else todIn m s) s

/-- PPS_IN_MISS (R406). -/
def execPpsInMiss (input : Nat) (s : State) : Host.Outcome State Fault Refusal :=
  island 172 (fun s => if 1 < input then s else bump .ppsInMiss input s) s

/-- PPS_IN_SET (R406). -/
def execPpsInSet (q : Req) (input delay : Nat) (s : State) : Host.Outcome State Fault Refusal :=
  timeCmd q 0xB00A (fun s =>
    if 1 < input then deny .badArg s
    else if 100000 < delay then deny .limit s
    else done (setParam 0xB030 input delay s)) s

/-! ### PTP (R407, R408) -/

/-- Lexicographic order of two keys. -/
def lexLt : List Nat → List Nat → Bool
  | [], [] => false
  | [], _ => true
  | _, [] => false
  | a :: as, b :: bs => if a < b then true else if b < a then false else lexLt as bs

/-- The order of foreign masters in the alternate BMCA of G.8275.1 (PRESUMED, notes/assumptions/70.md): class, accuracy,
priority2, local priority, grandmaster above class 127, steps, sender, port. -/
def PtpForeign.key (f : PtpForeign) (localPrio port : Nat) : List Nat :=
  [f.cls, f.accNs, f.prio2, localPrio, if f.cls ≤ 127 then 0 else f.gm, f.steps, f.identity, port]

/-- clockIdentity: EUI-64 formed from device.mac_base (R407). -/
def State.clockId (s : State) : Nat :=
  let m := s.opt.cur.macBase
  m / 2 ^ 24 * 2 ^ 40 + 0xFFFE * 2 ^ 24 + m % 2 ^ 24

/-- A PTP domain steers. -/
def State.ptpSteers (s : State) : Bool := (s.time.steer.map fun td => (s.time.dom td).kind == 1).getD false

/-- The class the device declares of its own: 248 while it follows a PTP source. -/
def State.ownClass (s : State) : Nat := if s.ptpSteers then 248 else s.clockClass

/-- The device's own data set as a key. -/
def State.ownKey (s : State) : List Nat :=
  [s.ownClass, if s.ownClass = 248 then 2 ^ 32 - 1 else s.maxErr, s.paramN 0xB056 0, s.paramN 0xB057 0,
   if s.ownClass ≤ 127 then 0 else s.clockId, 0, s.clockId, 0]

/-- The key of a port's foreign master. -/
def State.portKey (s : State) (p : Nat) (x : PtpPort) : Option (List Nat) := x.foreign.map fun f => f.key (s.paramN 0xB058 p) p

/-- The best foreign master among ports that may be slaves. -/
def State.bestForeign (s : State) : Option (Nat × PtpForeign × List Nat) :=
  s.time.port.foldl (fun acc e =>
    match e.2.foreign, s.portKey e.1 e.2 with
    | some f, some k =>
      if s.param 0xB059 e.1 == 1 then acc
      else match acc with
        | some (_, _, k0) => if lexLt k k0 then some (e.1, f, k) else acc
        | none => some (e.1, f, k)
    | _, _ => acc) none

/-- The state the decision recommends for a port (R407; the state decision of IEEE 1588-2019 named there). -/
def State.portDecision (s : State) (p : Nat) (x : PtpPort) : PtpState :=
  match x.foreign, s.bestForeign with
  | none, _ => if x.state == .listening then .listening else .master
  | some f, best =>
    let own := s.ownKey
    if s.ownClass ≤ 127 then
      match s.portKey p x with
      | some k => if lexLt k own then .passive else .master
      | none => .master
    else
      match best with
      | none => .master
      | some (bp, bf, bk) =>
        if lexLt own bk then .master
        else if bp = p then .slave
        else if f.gm = bf.gm then .passive
        else .master

/-- The BMCA decides every port's state; a new parent disqualifies a PTP domain (R400, R407). -/
def bmca (s : State) : State :=
  let ports := s.time.port.map fun e => (e.1, { e.2 with state := s.portDecision e.1 e.2 })
  let par := (ports.find? fun e => e.2.state == .slave).map fun e => (e.1, (e.2.foreign.map (·.identity)).getD 0)
  let changed := par != s.time.parent
  let s := { s with time := { s.time with port := ports, parent := par } }
  [0, 1].foldl (fun s td =>
    if (s.time.dom td).kind != 1 then s
    else
      let f := par.bind fun x => (Tab.get? s.time.port x.1).bind (·.foreign)
      let s := onDom td (fun d => if changed then { d.disqualify with inst := (par.map (·.1)).getD 0 } else d) s
      let s := match f with
        | some f => timeSource td f.cls f.accNs f.utc f.leap s
        | none => s
      if (s.time.dom td).qualified && !s.mayQualify (s.time.dom td) then timeLost td s else s) s

/-- The times of a message from master to slave and back (R408), in 1/64 tick: of t1 to t4 on the wire, less the correction
fields. -/
def State.ptpLegs (s : State) (m : PtpMsg) : Int × Int :=
  let t2 := m.t2 - ofPs (s.param 0xB050 m.port)
  let t3 := m.t3 + ofPs (s.param 0xB051 m.port)
  (t2 - m.t1 - m.corr, m.t4 - t3 - m.corrResp)

/-- θ of R408, less delay_asym. -/
def State.ptpTheta (s : State) (m : PtpMsg) : Int :=
  let d := s.ptpLegs m
  (d.1 - d.2) / 2 - ofPs (s.param 0xB052 m.port)

/-- A completed exchange on a port: a sample of the PTP source on the parent's port, discarded elsewhere (R405). -/
def ptpExchange (m : PtpMsg) (s : State) : State :=
  if s.time.parent != some (m.port, m.srcIdentity) then s
  else
    let d := s.ptpLegs m
    let delay := (d.1 + d.2) / 2
    let s := { s with time := { s.time with port := Tab.modify s.time.port m.port fun x => { x with delay := delay } } }
    ([0, 1].filter fun td => (s.time.dom td).kind == 1).foldl (fun s td => timeSample td (s.ptpTheta m) s) s

/-- A PTP message, a frame that the firmware originates (R302), leaves a port: requester 21 takes a cell for it, freed as it leaves;
without one it is dropped. -/
def ptpOut (port kind : Nat) (s : State) : State :=
  match allocCells 21 1 1 [] s with
  | (.error e, s) => bump .dropReq (256 * 21 + e) s
  | (.ok cs, s) => freeCells cs (bump .ptpTx port { s with time := { s.time with sentP := Tab.set s.time.sentP port kind } })

/-- PTP_MESSAGE_RECEIVE (R407). -/
def ptpReceive (m : PtpMsg) (s : State) : State :=
  match Tab.get? s.time.port m.port with
  | none => s
  | some x =>
    if m.domain != s.paramN 0xB054 0 then s
    else if 3 ≤ m.kind then bump .ptpDiscard m.port s
    else
      let s := bump .ptpRx m.port s
      if m.kind = 0 then ptpExchange m s
      else if m.kind = 1 then
        let f : PtpForeign := { identity := m.srcIdentity, gm := m.gmIdentity, cls := m.clockClass, accNs := m.accuracyNs,
                                prio2 := m.priority2, steps := m.stepsRemoved, utc := m.utcOffset, leap := m.leap }
        bmca { s with time := { s.time with port := Tab.set s.time.port m.port { x with foreign := some f, heard := s.clk.now } } }
      else if x.state == .master && s.ltbSet then
        ptpOut m.port 3 s
      else s

/-- PTP_MESSAGE_RECEIVE (R407). -/
def execPtpMessageReceive (m : PtpMsg) (s : State) : Host.Outcome State Fault Refusal :=
  guardBlks [104] (island 172 (ptpReceive m)) s

/-- PTP_MESSAGE_SEND (R394, R407): kind 0 Sync, 1 Delay_Req, 2 Announce; a two-step Sync is followed by its Follow_Up. -/
def ptpSend (port kind : Nat) (s : State) : State :=
  match Tab.get? s.time.port port with
  | none => s
  | some x =>
    let ok := if kind = 1 then x.state == .slave else x.state == .master && s.ltbSet
    if !ok || 3 ≤ kind then s
    else if kind = 0 && s.param 0xB055 port == 1 then ptpOut port 4 (ptpOut port 0 s)
    else ptpOut port kind s

/-- PTP_MESSAGE_SEND (R407). -/
def execPtpMessageSend (port kind : Nat) (s : State) : Host.Outcome State Fault Refusal :=
  guardBlks [104] (island 172 (ptpSend port kind)) s

/-- ANNOUNCE_RECEIPT_TIMEOUT (R399, R407): no Announce for 3 intervals of 1/8 s; the port has no foreign master any more, and a PTP domain on it has lost its
source. -/
def announceTimeout (port : Nat) (s : State) : State :=
  match Tab.get? s.time.port port with
  | none => s
  | some x =>
    if s.clk.now < x.heard + msT 375 then s
    else
    let s := ([0, 1].filter fun td => (s.time.dom td).kind == 1 && (s.time.dom td).inst == port && x.state == .slave).foldl
      (fun s td => timeLost td s) s
    bmca { s with time := { s.time with port := Tab.set s.time.port port { x with foreign := none, state := .master } } }

/-- ANNOUNCE_RECEIPT_TIMEOUT (R407). -/
def execAnnounceReceiptTimeout (port : Nat) (s : State) : Host.Outcome State Fault Refusal :=
  guardBlks [104] (island 172 (announceTimeout port)) s

/-- The settings of PtpPortSet in the order of their PIDs, with the index each takes. -/
def ptpVals (a : PtpArgs) (p : Nat) : List (Nat × Nat × Int) :=
  [(0xB050, p, a.ingressLat), (0xB051, p, a.egressLat), (0xB052, p, a.delayAsym), (0xB053, p, a.destAddr), (0xB054, 0, a.domain),
   (0xB055, p, a.twoStep), (0xB056, 0, a.priority2), (0xB057, 0, a.clockLocalPrio), (0xB058, p, a.portLocalPrio),
   (0xB059, p, a.notSlave)]

/-- PTP_PORT_SET (R407, R408). -/
def execPtpPortSet (q : Req) (p : Nat) (a : PtpArgs) (s : State) : Host.Outcome State Fault Refusal :=
  timeCmd q 0xB004 (fun s =>
    let on := (Tab.get? s.time.port p).isSome
    if !s.portExists p then deny .badArg s
    else if !(ptpVals a p).all (fun v => pidInRange v.1 v.2.2) || (a.enable && !on && decide (64 ≤ s.time.port.length)) then deny .limit s
    else
      let s := (ptpVals a p).foldl (fun s v => setParam v.1 v.2.1 v.2.2 s) s
      let ports := if !a.enable then Tab.erase s.time.port p else if on then s.time.port else Tab.set s.time.port p { heard := s.clk.now }
      done (bmca { s with time := { s.time with port := ports } })) s

/-- PTP_PORT_STATUS (R420). -/
def execPtpPortStatus (q : Req) (p : Nat) (s : State) : Host.Outcome State Fault Refusal :=
  timeCmd q 0xB005 (fun s =>
    match Tab.get? s.time.port p with
    | none => deny .badState s
    | some x =>
      doneWith [.u 64 x.state.ctorIdx, .u 64 ((x.foreign.map (·.identity)).getD 0), .u 64 ((x.foreign.map (·.steps)).getD 0),
        .i 64 (psOf x.delay)] s) s

/-- PTP_CLOCK_STATUS (R420): default, current, parent and time properties data sets. -/
def execPtpClockStatus (q : Req) (s : State) : Host.Outcome State Fault Refusal :=
  timeCmd q 0xB006 (fun s =>
    let f := s.time.parent.bind fun x => (Tab.get? s.time.port x.1).bind (·.foreign)
    doneWith [.u 64 s.clockId, .u 64 s.time.port.length, .u 8 s.clockClass, .u 8 (s.paramN 0xB056 0), .u 8 (s.paramN 0xB057 0),
      .u 8 (s.paramN 0xB054 0), .u 64 ((f.map (·.steps + 1)).getD 0),
      .i 64 (s.time.steer.elim 0 fun td => (s.time.dom td).thetaPs),
      .u 64 ((f.map (·.identity)).getD s.clockId), .u 64 ((f.map (·.gm)).getD s.clockId), .i 64 s.utc.1, .u 64 s.utc.2] s) s

/-! ### Ixrardo time (R417, R418) -/

/-- The Ixrardo link 0 or 1 of an uplink group. -/
def State.linkIdx (s : State) (u : Nat) : Option Nat := s.ixrGroups.findIdx? (· == u)

/-- The payload of a TIME frame that this device sends on a link. -/
def State.timeFrame (s : State) (u seq msg refSeq : Nat) (tRx tTx : Int) : IxrTime :=
  { link := u, seq := seq, msg := msg, ltbSet := s.ltbSet, locked := s.time.state == .locked,
    holdover := s.time.state == .holdover, steps := s.timeSteps, clockClass := s.clockClass, utcOffset := s.utc.1,
    leap := s.utc.2, tTx := tTx, tRx := tRx, arrival := 0, refSeq := refSeq, maxErr := s.maxErr }

/-- A peer changed. -/
def onIxrPeer (i : Nat) (f : IxrPeer → IxrPeer) (s : State) : State :=
  { s with time := { s.time with ixr := Tab.upd s.time.ixr i {} f } }

/-- IXR_SYNC_SEND (R418): the SYNC waits for its RESP. -/
def ixrSync (u : Nat) (s : State) : State :=
  match s.linkIdx u with
  | none => s
  | some i =>
    if !s.ixrUp.contains u then s
    else
      let (n, s) := ixrSeq u 2 48 s
      let t1 := s.ltb64
      let f := s.timeFrame u n 1 0 0 t1
      let s := s.drawn
      onIxrPeer i (fun p => { p with open_ := Tab.set p.open_ n t1 }) { s with time := { s.time with sentT := Tab.set s.time.sentT i f } }

/-- IXR_SYNC_SEND (R418). -/
def execIxrSyncSend (link : Nat) (s : State) : Host.Outcome State Fault Refusal :=
  guardBlks [ixrBlk link] (island 172 (ixrSync link)) s

/-- A RESP gives a sample when its SYNC is outstanding, else a gap. -/
def ixrResp (i : Nat) (m : IxrTime) (s : State) : State :=
  match Tab.get? (Tab.getD s.time.ixr i {}).open_ m.refSeq with
  | none => bump .ixrTimeGap i s
  | some t1 =>
    let theta := ((m.tRx - t1) - (m.arrival - m.tTx) - ofPs (s.param 0xB070 i)) / 2
    let s := onIxrPeer i (fun p => { p with open_ := Tab.erase p.open_ m.refSeq }) s
    (s.domsOf 3 i).foldl (fun s td =>
      timeSample td theta (timeSource td m.clockClass m.maxErr m.utcOffset m.leap s)) s

/-- IXR_TIME_RECEIVE (R418): a SYNC is answered, a RESP gives a sample. -/
def ixrTime (m : IxrTime) (s : State) : State :=
  match s.linkIdx m.link with
  | none => s
  | some i =>
    if !s.ixrUp.contains m.link then s
    else
      let s := (ixrArrive m.link 2 m.seq s).2
      let s := onIxrPeer i (fun p => { p with steps := m.steps, cls := m.clockClass, ltbSet := m.ltbSet }) s
      if m.msg = 1 then
        let (n, s) := ixrSeq m.link 2 48 s
        let f := s.timeFrame m.link n 2 m.seq m.arrival s.ltb64
        let s := s.drawn
        { s with time := { s.time with sentT := Tab.set s.time.sentT i f } }
      else if m.msg = 2 then ixrResp i m s
      else s

/-- IXR_TIME_RECEIVE (R418). -/
def execIxrTimeReceive (m : IxrTime) (s : State) : Host.Outcome State Fault Refusal :=
  guardBlks [ixrBlk m.link] (island 172 (ixrTime m)) s

/-- IXR_RESP_TIMEOUT (R418): no RESP within 1 ms of the SYNC. -/
def ixrTimeout (u seq : Nat) (s : State) : State :=
  match s.linkIdx u with
  | none => s
  | some i =>
    match Tab.get? (Tab.getD s.time.ixr i {}).open_ seq with
    | none => s
    | some _ => bump .ixrTimeGap i (onIxrPeer i (fun p => { p with open_ := Tab.erase p.open_ seq }) s)

/-- IXR_RESP_TIMEOUT (R418). -/
def execIxrRespTimeout (link seq : Nat) (s : State) : Host.Outcome State Fault Refusal :=
  guardBlks [ixrBlk link] (island 172 (ixrTimeout link seq)) s

/-! ### Time of day at the ONU (R411 to R413) -/

/-- The quotient of integers to the nearest whole number, an exact half away from zero (R411). -/
def roundAway (a : Int) (b : Nat) : Int :=
  let n := (2 * a.natAbs + b) / (2 * b)
  if a < 0 then -(n : Int) else n

/-- range.rtd_ppm of a channel pair from the coefficients (R411). -/
def State.rtdPpm (s : State) (g : Nat) : Int :=
  let sum (x : Nat) : Int := s.param 0xB040 x + s.param 0xB041 x
  let s0 := sum (g / 8 * 8)
  roundAway ((sum g - s0) * 1000000) s0.toNat

/-- ASYM_SET (R411): α × 10^9 to the nearest, and range.rtd_ppm of the tree's channel pairs. -/
def asymSet (g : Nat) (a : AsymArgs) (s : State) : State × Option Reply :=
  let vals : List (Nat × Int) := [(0xB040, a.nDs), (0xB041, a.nUs), (0xB042, a.txDelay), (0xB043, a.rxDelay), (0xB044, a.recRatio)]
  if 512 ≤ g then deny .badArg s
  else if !vals.all (fun v => pidInRange v.1 v.2) then deny .limit s
  else
    let s1 := vals.foldl (fun s v => setParam v.1 g v.2 s) s
    let ppm := (treePairs (g / 8)).map fun c => (c, s1.rtdPpm c)
    if !ppm.all (fun e => decide (e.2.natAbs ≤ 200)) then deny .limit s
    else
      let s2 := ppm.foldl (fun s e => setParam 0x3022 e.1 e.2 s) s1
      doneWith (.u 32 (roundAway ((a.nDs : Int) * 1000000000) (a.nDs + a.nUs)).toNat :: ppm.map fun e => .i 16 e.2) s2

/-- ASYM_SET (R411). -/
def execAsymSet (q : Req) (g : Nat) (a : AsymArgs) (s : State) : Host.Outcome State Fault Refusal :=
  timeCmd q 0xB007 (asymSet g a) s

/-- TOD_PAIR_READ (R412, R413). -/
def todPairRead (h n : Nat) (s : State) : State × Option Reply :=
  match Tab.get? s.onu.ctx h with
  | none => deny .badState s
  | some o =>
    if !s.ltbSet || o.state != .operation then deny .badState s
    else
      let t := s.todOf h o n
      doneWith [.u 64 n, .u 96 (nsWord t.toNat)]
        { s with time := { s.time with pair := Tab.set s.time.pair h (n, t), told := s.time.told.filter (· != h) } }

/-- TOD_PAIR_READ (R412). -/
def execTodPairRead (q : Req) (h n : Nat) (s : State) : Host.Outcome State Fault Refusal := timeCmd q 0xB008 (todPairRead h n) s

/-! ### Pulse and time-of-day outputs (R415, R416) -/

/-- The settings an output has after reset (R415). -/
def pulseDflt (k : Nat) : PulseArgs :=
  { mode := if k = 0 then 1 else 0, period := 1000000000, offset := 0, width := 100000000, polarity := 0, delay := 0 }

/-- An output. -/
def State.pulseOf (s : State) (k : Nat) : PulseOut := Tab.getD s.time.pulse k { cur := pulseDflt k }

/-- The width lies below the period: of mode 1, or of a superframe in mode 2. -/
def pulseWidthOk (a : PulseArgs) : Bool :=
  if a.mode = 2 then decide (a.width < 125000) else if a.mode = 1 then decide (a.width < a.period) else true

/-- PULSE_OUT_SET (R415): the change takes effect at the first edge at least 1 ms after the command. -/
def execPulseOutSet (q : Req) (k : Nat) (a : PulseArgs) (s : State) : Host.Outcome State Fault Refusal :=
  timeCmd q 0xB009 (fun s =>
    let vals : List (Nat × Int) := [(0xB060, a.mode), (0xB061, a.period), (0xB062, a.offset), (0xB063, a.width),
      (0xB064, a.polarity), (0xB065, a.delay)]
    if 4 ≤ k then deny .badArg s
    else if !vals.all (fun v => pidInRange v.1 v.2) || !pulseWidthOk a then deny .limit s
    else
      let s := vals.foldl (fun s v => setParam v.1 k v.2 s) s
      done { s with time := { s.time with pulse := Tab.set s.time.pulse k { s.pulseOf k with next := some (a, s.clk.now + msT 1) } } }) s

/-- PPS_OUT_EDGE (R415): an edge of output k, under the settings in force at it. -/
def ppsOutEdge (k : Nat) (s : State) : State :=
  if 4 ≤ k || !s.ltbSet then s
  else
    let p := s.pulseOf k
    let p : PulseOut := match p.next with
      | some (a, t) => if t ≤ s.clk.now then { p with cur := a, next := none } else p
      | none => p
    let p : PulseOut := if p.cur.mode = 0 then p else { p with edges := p.edges + 1, last := s.stamp64 }
    { s.drawn with time := { s.time with pulse := Tab.set s.time.pulse k p } }

/-- PPS_OUT_EDGE (R415). -/
def execPpsOutEdge (k : Nat) (s : State) : Host.Outcome State Fault Refusal := island 172 (ppsOutEdge k) s

/-- TOD_OUT_MESSAGE (R416): the message for the last edge of PPS_OUT[0], 10 ms after it. -/
def todOut (s : State) : State :=
  let p := s.pulseOf 0
  if !s.ltbSet || p.cur.mode != 1 || p.cur.period != 1000000000 || p.edges = 0 || s.clk.ltb * 64 < p.last + 64 * msT 10 then s
  else
    let m : TodSent := { sec := p.last / 159252480000, valid := s.time.state == .locked || s.time.state == .holdover,
                         cls := s.clockClass, utc := s.utc.1, leap := s.utc.2 }
    { s with time := { s.time with tod := [m] } }

/-- TOD_OUT_MESSAGE (R416). -/
def execTodOutMessage (s : State) : Host.Outcome State Fault Refusal := island 172 todOut s

end Sys2Proof.Machine
end

