-- ==== Sys2Proof/Machine/Amp.lean ====
section
/-! DEFINITION. Ampoule: runs, meters, evidence, the log, the seal, signed readouts (R422 to R437). -/

namespace Sys2Proof.Machine

/-- Ampoule's fields changed. -/
def onAmp (f : AmpS → AmpS) (s : State) : State := { s with amp := f s.amp }

/-! ### Sealed parameters (R431) -/

/-- The parameters of the highest slot that has been written. -/
def AmpS.params (a : AmpS) : SealedParams := ((a.slots.getLast?).map (·.2)).getD SealedParams.factory

/-- The octets of sealed parameters, in the order of R431. -/
def sealedOctets (p : SealedParams) : List Nat :=
  leOctets 1 (signed 8 p.dsOverhead) ++ leOctets 1 (signed 8 p.usOverhead) ++ leOctets 2 p.maxerrAlarmNs ++ leOctets 1 p.sourceMask
    ++ leOctets 4 p.certId

/-- The seal counter and the SHA-256 prefix of parameters, as log data (R430): the prefix fills the 14 octets. -/
def sealData (counter : Nat) (ps : List SealedParams) : List Nat :=
  counter :: leOctets 13 (Config.shaPrefix (ps.flatMap sealedOctets))

/-- The staged values lie in their ranges (R431). -/
def sealedInRange (p : SealedParams) : Bool :=
  decide (-32 ≤ p.dsOverhead) && decide (p.dsOverhead ≤ 63) && decide (-32 ≤ p.usOverhead) && decide (p.usOverhead ≤ 63)
    && decide (1 ≤ p.maxerrAlarmNs) && decide (p.maxerrAlarmNs ≤ 1000) && decide (p.sourceMask < 8) && decide (p.certId < 2 ^ 32)

/-! ### Runs (R435, R437) -/

/-- A new run: meters, log and evidence cleared, RUN_START logged, the Key Engine asked for run_id. A burn in progress is
done whole or not at all (a free value) and the pin changes it held back are logged; OPEN without a slot written ends in
SEAL_ABORT. OTP and the pin's level are kept. -/
def newRun (keepTaps : Bool) (s : State) : State :=
  let a := s.amp
  let whole := Config.freeNat s.free % 2 == 1
  let ctr := match a.burn with
    | some (.counter _) => if whole then a.counter + 1 else a.counter
    | _ => a.counter
  let slots := match a.burn with
    | some (.slot _ p) => if whole then Tab.set a.slots a.counter p else a.slots
    | _ => a.slots
  let b : AmpS := { counter := ctr, slots := slots, pin := a.pin, pinAt := a.pinAt, drawing := true,
                    tap := if keepTaps then a.tap else [], tapGap := keepTaps && a.tap.any fun d => !d.2.isEmpty }
  let b := { b with inForce := b.params }
  let b := b.logged s.ltbNow 1 (sealData b.counter [b.params])
  let committed := whole && match a.burn with
    | some (.slot ..) => true
    | _ => false
  let b := if a.isOpen && !committed then b.logged s.ltbNow 4 (sealData b.counter [b.params]) else b
  let b := a.pinQueue.foldl (fun b l => b.logged s.ltbNow 5 [flag l, 1]) b
  let k := s.cip.ke
  { s.drawn with amp := b, cip := { s.cip with ke := { k with owner := if k.owner = 2 then 0 else k.owner, waitAmp := true } } }

/-! ### Meters (R424 to R428) -/

/-- A meter. -/
def AmpS.meterOf (a : AmpS) (h : Nat) : Meter := Tab.getD a.meter h {}

/-- A delta credited to its meter: a saturated one sets the gap flag and is logged. -/
def creditDelta (k v : Nat) (a : AmpS) (ltb : Nat) : AmpS :=
  let h := k / 2
  let full := v == 2 ^ 32 - 1
  let add (m : Meter) : Meter :=
    let m := if k % 2 = 0 then { m with down := (m.down + v) % 2 ^ 96 } else { m with up := (m.up + v) % 2 ^ 96 }
    { m with gap := m.gap || full || a.tapGap }
  let a := { a with meter := Tab.upd a.meter h {} add }
  if full || a.tapGap then a.logged ltb 11 (leOctets 2 h ++ leOctets 12 v) else a

/-- Every delta of the six tables, credited. -/
def drainAll (ltb : Nat) (a : AmpS) : AmpS :=
  let ds := a.tap.flatMap (·.2)
  let b := ds.foldl (fun a e => creditDelta e.1 e.2 a ltb) a
  { b with tap := [], tapGap := false }

/-- A full drain (R426): the meters, drain_seq, and the sealed parameters now in force for the taps (R432). -/
def tapDrain (s : State) : State :=
  onAmp (fun a =>
    let b := drainAll s.ltbNow a
    { b with drainSeq := (b.drainSeq + 1) % 2 ^ 32, inForce := b.params }) s

/-- TAP_DRAIN (R426). -/
def execTapDrain (s : State) : Host.Outcome State Fault Refusal := island 173 tapDrain s

/-- BINDING_NOTICE (R428): that handle's rows are drained to the old binding, which is logged and closed. -/
def bindingNotice (h serial : Nat) (s : State) : State :=
  onAmp (fun a =>
    let mine (e : Nat × Nat) : Bool := e.1 / 2 == h
    let rows := a.tap.flatMap fun d => d.2.filter mine
    let a := rows.foldl (fun a e => creditDelta e.1 e.2 a s.ltbNow) a
    let kept : Tab (Tab Nat) := a.tap.map fun d => (d.1, d.2.filter fun e => !mine e)
    let a := { a with tap := kept.filter fun d => !d.2.isEmpty }
    let m := a.meterOf h
    let a := a.logged s.ltbNow 10 (leOctets 8 m.serial ++ leOctets 12 m.down ++ leOctets 12 m.up)
    { a with meter := Tab.set a.meter h { epoch := (m.epoch + 1) % 65536, serial := serial } }) s

/-- BINDING_NOTICE (R428). -/
def execBindingNotice (h serial : Nat) (s : State) : Host.Outcome State Fault Refusal :=
  island 173 (fun s => if 32768 ≤ h then s else bindingNotice h serial s) s

/-! ### Time evidence (R419, R429) -/

/-- The record of a whole second. -/
def State.secRec (s : State) : SecRec :=
  { state := s.time.state.ctorIdx, steer := s.time.steer.getD 255, src0 := (s.time.td0.kind, s.time.td0.inst),
    src1 := (s.time.td1.kind, s.time.td1.inst), theta0 := s.time.td0.thetaPs, theta1 := s.time.td1.thetaPs,
    residual := s.time.residual, maxErr := s.maxErr, cls := s.clockClass, utc := s.utc.1 }

/-- Ampoule takes a record: changes of state and steering domain and a crossing of the alarm are logged (R429). -/
def secArrived (r : SecRec) (ltb : Nat) (a : AmpS) : AmpS :=
  let p := a.lastSec
  let was := (p.map fun x => decide (a.params.maxerrAlarmNs < x.maxErr)).getD false
  let now := decide (a.params.maxerrAlarmNs < r.maxErr)
  let st := (p.map fun x => x.state != r.state).getD (r.state != 0)
  let steer := (p.map fun x => x.steer != r.steer).getD (r.steer != 255)
  let b := if st then a.logged ltb 6 [r.state] else a
  let b := if steer then b.logged ltb 7 [r.steer] else b
  let b := if was == now then b else b.logged ltb 8 (flag now :: leOctets 4 r.maxErr)
  { b with minute := b.minute ++ [r], lastSec := some r, missing := 0, minuteSwitch := b.minuteSwitch || steer }

/-- TIME_RECORD_TO_AMPOULE (R419): one record at each whole second of the LTB, whatever the state. -/
def execTimeRecordToAmpoule (s : State) : Host.Outcome State Fault Refusal :=
  guardBlks [173] (island 172 (fun s => if s.islandUp 173 then onAmp (secArrived s.secRec s.ltbNow) s else s)) s

/-- TIME_GAP (R429): three consecutive records have failed to arrive. -/
def execTimeGap (s : State) : Host.Outcome State Fault Refusal :=
  island 173 (fun s => onAmp (fun a => { a.logged s.ltbNow 9 [] with minuteGap := true, missing := 3 }) s) s

/-! ### Signed records (R433, R434) -/

/-- The header of a record and its body, signed. -/
def AmpS.record (a : AmpS) (type ltb : Nat) (unset : Bool) (body : List Nat) : List Nat :=
  let os := leOctets 4 0x414D5052 ++ [type, 1, a.counter, flag unset + 2 * flag a.isOpen + 4 * flag a.rngFail]
    ++ leOctets 2 body.length ++ leOctets 6 0 ++ leOctets 8 a.runId ++ leOctets 4 a.recSeq ++ leOctets 12 ltb ++ body
  os ++ beOctets 64 (Config.ecdsaSign os)

/-- θ of the steering domain. -/
def SecRec.theta (r : SecRec) : Option Int := if r.steer = 0 then some r.theta0 else if r.steer = 1 then some r.theta1 else none

/-- The steering source's kind lies outside source_mask. -/
def SecRec.untraced (r : SecRec) (mask : Nat) : Bool :=
  let k := if r.steer = 0 then r.src0.1 else if r.steer = 1 then r.src1.1 else 0
  k != 0 && !bit mask (k - 1)

/-- The lowest and highest of a list, 0 and 0 of none. -/
def rangeOf (xs : List Int) : Int × Int := (xs.foldl min (xs.headD 0), xs.foldl max (xs.headD 0))

/-- The EVIDENCE body of a minute's records (R434). -/
def evidenceBody (a : AmpS) : List Nat :=
  let rs := a.minute
  let last := rs.getLast?.orElse fun _ => a.lastSec
  let th := rs.filterMap SecRec.theta
  let mean : Int := if th.isEmpty then 0 else th.foldl (· + ·) 0 / (th.length : Int)
  let cls := rangeOf (rs.map fun r => (r.cls : Int))
  let top (f : SecRec → Nat) : Nat := (rs.map f).foldl max 0
  let fl := flag (rs.any fun r => decide (a.params.maxerrAlarmNs < r.maxErr)) + 2 * flag (rs.any fun r => r.state == 3)
    + 4 * flag a.minuteSwitch + 8 * flag (rs.any fun r => r.untraced a.params.sourceMask) + 16 * flag a.minuteGap
  [(last.map (·.state)).getD 0, (last.map (·.steer)).getD 255, (last.map (·.src0.1)).getD 0, (last.map (·.src1.1)).getD 0,
    min 60 rs.length, cls.1.toNat, cls.2.toNat, fl]
    ++ leOctets 4 (signed 32 (rangeOf th).1) ++ leOctets 4 (signed 32 (rangeOf th).2) ++ leOctets 4 (signed 32 mean)
    ++ leOctets 4 (top (·.maxErr)) ++ leOctets 4 (top fun r => r.residual.natAbs) ++ leOctets 2 (signed 16 ((last.map (·.utc)).getD 0))
    ++ leOctets 10 0

/-- EVIDENCE_MINUTE (R429): the minute's record is built, signed and stored; the last 1,440 are kept. -/
def evidenceMinute (s : State) : State :=
  onAmp (fun a =>
    let os := a.record 1 s.ltbNow (!s.ltbSet) (evidenceBody a)
    let l := a.evidence ++ [{ recSeq := a.recSeq, ltb := s.ltbNow, octets := os }]
    { a with evidence := if 1440 < l.length then l.drop 1 else l, recSeq := (a.recSeq + 1) % 2 ^ 32, minute := [],
             minuteGap := false, minuteSwitch := false }) s

/-- EVIDENCE_MINUTE (R429). -/
def execEvidenceMinute (s : State) : Host.Outcome State Fault Refusal := island 173 evidenceMinute s

/-- A readout: a record made now, and its number taken. -/
def readout (type : Nat) (body : List Nat) (s : State) : State × Reply :=
  let os := s.amp.record type s.ltbNow (!s.ltbSet) body
  (onAmp (fun a => { a with recSeq := (a.recSeq + 1) % 2 ^ 32 }) s, .vals [.lst 1 os])

/-! ### Commands (R436) -/

/-- A PF2 command, in ring order: while a burn holds one open, the next waits in its slot. -/
def ampServe (q : AmpReq) (body : State → State × Reply) (s : State) : Host.Outcome State Fault Refusal :=
  if s.undefinedBlk 173 then .fault (.blockUndefined 173)
  else if s.amp.burn.isSome then .next s
  else ampoule q body s

/-- A refusal by Ampoule. -/
def ampDeny (c : Code) (s : State) : State × Reply := (s, .err c)

/-- AMPOULE_IDENTITY (R434). -/
def execAmpouleIdentity (q : AmpReq) (s : State) : Host.Outcome State Fault Refusal :=
  ampServe q (fun s =>
    readout 4 (beOctets 64 Config.amplePublicKey ++ leOctets 16 Config.devSerial.toNat ++ leOctets 4 s.amp.params.certId
      ++ [s.amp.counter] ++ sealedOctets s.amp.params) s) s

/-- AMPOULE_EVIDENCE_READ (R436): `first` is a rec_seq, or the LTB of a minute when `count` is 1. -/
def execAmpouleEvidenceRead (q : AmpReq) (first count : Nat) (s : State) : Host.Outcome State Fault Refusal :=
  ampServe q (fun s =>
    match s.amp.evidence.find? fun e => if count = 1 then e.ltb == first else e.recSeq == first with
    | some e => (s, .vals [.lst 1 e.octets])
    | none => ampDeny .notFound s) s

/-- One entry of a METER record (R434). -/
def meterOctets (h : Nat) (m : Meter) : List Nat :=
  leOctets 2 h ++ leOctets 2 m.epoch ++ leOctets 8 m.serial ++ leOctets 12 m.down ++ leOctets 12 m.up ++ leOctets 4 (flag m.gap)

/-- AMPOULE_METER_READ (R436). -/
def execAmpouleMeterRead (q : AmpReq) (first count : Nat) (s : State) : Host.Outcome State Fault Refusal :=
  ampServe q (fun s =>
    if count = 0 || 256 < count || 32768 < first + count then ampDeny .badArg s
    else
      let body := leOctets 2 first ++ leOctets 2 count ++ leOctets 4 s.amp.drainSeq
        ++ (List.range count).flatMap fun i => meterOctets (first + i) (s.amp.meterOf (first + i))
      readout 2 body s) s

/-- The 32 octets of a log entry (R430). -/
def LogEntry.octets (e : LogEntry) : List Nat :=
  leOctets 4 e.seq ++ leOctets 12 e.ltb ++ [e.type, 0] ++ (e.data ++ List.replicate 14 0).take 14

/-- AMPOULE_LOG_READ (R436). -/
def execAmpouleLogRead (q : AmpReq) (first count : Nat) (s : State) : Host.Outcome State Fault Refusal :=
  ampServe q (fun s =>
    if 32 < count then ampDeny .badArg s
    else
      let es := (s.amp.log.filter fun e => decide (first ≤ e.seq)).take count
      if s.amp.log.any (fun e => e.seq == first) then readout 3 (leOctets 4 es.length ++ es.flatMap LogEntry.octets) s
      else ampDeny .notFound s) s

/-- AMPOULE_LOG_ACK (R436): entries up to seq are acknowledged. -/
def execAmpouleLogAck (q : AmpReq) (seq : Nat) (s : State) : Host.Outcome State Fault Refusal :=
  ampServe q (fun s =>
    if s.amp.nextSeq ≤ seq then ampDeny .badArg s
    else (onAmp (fun a => { a with acked := max a.acked (seq + 1) }) s, .ok)) s

/-- A full drain and its log entry. -/
def checkpoint (s : State) : State :=
  let s := tapDrain s
  onAmp (fun a => a.logged s.ltbNow 14 (leOctets 4 a.drainSeq)) s

/-- AMPOULE_CHECKPOINT (R436). -/
def execAmpouleCheckpoint (q : AmpReq) (s : State) : Host.Outcome State Fault Refusal :=
  ampServe q (fun s =>
    let s := checkpoint s
    (s, .vals [.u 32 s.amp.drainSeq])) s

/-! ### The seal (R432) -/

/-- The seal break ends without a commit. -/
def sealAbort (s : State) : State :=
  onAmp (fun a => { a.logged s.ltbNow 4 (sealData a.counter [a.params]) with isOpen := false, staged := none }) s

/-- A pin change is logged; a high pin ends an open seal. -/
def pinChange (level : Bool) (s : State) : State :=
  let s := onAmp (fun a => a.logged s.ltbNow 5 [flag level, 1]) s
  if s.amp.isOpen && level then sealAbort s else s

/-- AMP_SEAL_PIN_CHANGE (R432): a change during a burn is logged after it. -/
def sealPin (level : Bool) (s : State) : State :=
  if s.amp.pin == level then s
  else
    let s := onAmp (fun a => { a with pin := level, pinAt := s.clk.now }) s
    if s.amp.burn.isSome then onAmp (fun a => { a with pinQueue := a.pinQueue ++ [level] }) s else pinChange level s

/-- AMP_SEAL_PIN_CHANGE (R432). -/
def execAmpSealPinChange (level : Bool) (s : State) : Host.Outcome State Fault Refusal := island 173 (sealPin level) s

/-- A seal command that a burn completes: posted until then. -/
def sealBurn (q : AmpReq) (refuse : State → Option Code) (b : Burn) (s : State) : Host.Outcome State Fault Refusal :=
  if s.undefinedBlk 173 then .fault (.blockUndefined 173)
  else if s.amp.burn.isSome then .next s
  else
    match refuse s with
    | some c => ampoule q (ampDeny c) s
    | none => island 173 (fun s => if s.ports.contains q.port then onAmp (fun a => { a with burn := some b }) s else s) s

/-- AMPOULE_SEAL_OPEN (R432). -/
def execAmpouleSealOpen (q : AmpReq) (s : State) : Host.Outcome State Fault Refusal :=
  sealBurn q (fun s =>
    let a := s.amp
    if a.isOpen then some .badState
    else if 63 ≤ a.counter || a.logFull then some .limit
    else if a.pin || s.clk.now < a.pinAt + secT 1 then some .badState
    else none) (.counter q) s

/-- AMPOULE_PARAM_STAGE (R432). -/
def execAmpouleParamStage (q : AmpReq) (p : SealedParams) (s : State) : Host.Outcome State Fault Refusal :=
  ampServe q (fun s =>
    if !s.amp.isOpen then ampDeny .badState s
    else if !sealedInRange p then ampDeny .badArg s
    else (onAmp (fun a => { a with staged := some p }) s, .ok)) s

/-- AMPOULE_SEAL_COMMIT (R432). -/
def execAmpouleSealCommit (q : AmpReq) (s : State) : Host.Outcome State Fault Refusal :=
  sealBurn q (fun s => if s.amp.isOpen && s.amp.staged.isSome && !s.amp.pin then none else some .badState)
    (.slot q (s.amp.staged.getD SealedParams.factory)) s

/-- AMPOULE_SEAL_ABORT (R432). -/
def execAmpouleSealAbort (q : AmpReq) (s : State) : Host.Outcome State Fault Refusal :=
  ampServe q (fun s => if s.amp.isOpen then (sealAbort s, .ok) else ampDeny .badState s) s

/-- SEAL_OPEN_TIMEOUT (R432): 600 s without a commit. -/
def execSealOpenTimeout (s : State) : Host.Outcome State Fault Refusal :=
  island 173 (fun s => if s.amp.isOpen && s.amp.burn.isNone && decide (s.amp.openUntil ≤ s.clk.now) then sealAbort s else s) s

/-- A PF2 command that waited ends. -/
def ampEnd (q : AmpReq) (s : State) : State :=
  { s with host := s.host.ampComplete q.port (q.slot % 16) q.tag .ok 0 [] }

/-- SEAL_BURN_DONE (R432): the counter bit or the slot is written; then the pin changes of the burn are logged. -/
def burnDone (s : State) : State :=
  match s.amp.burn with
  | none => s
  | some b =>
    let s := match b with
      | .counter q =>
        ampEnd q (onAmp (fun a =>
          let c := a.counter + 1
          { a.logged s.ltbNow 2 (sealData c [a.params]) with counter := c, isOpen := true, openUntil := s.clk.now + secT 600,
                                                             staged := none }) s)
      | .slot q p =>
        ampEnd q (onAmp (fun a =>
          { a.logged s.ltbNow 3 (sealData a.counter [a.params, p]) with slots := Tab.set a.slots a.counter p, isOpen := false,
                                                                        staged := none }) s)
    let qs := s.amp.pinQueue
    qs.foldl (fun s l => pinChange l s) (onAmp (fun a => { a with burn := none, pinQueue := [] }) s)

/-- SEAL_BURN_DONE (R432). -/
def execSealBurnDone (s : State) : Host.Outcome State Fault Refusal := island 173 burnDone s

end Sys2Proof.Machine
end

