-- ==== Sys2Proof/Machine/Ledger.lean ====
section
/-! DEFINITION. The conservation ledger: what is held of each scope, the close of a window, the records of LedgerAudit
(R32 to R35, R163, R490). -/

namespace Sys2Proof.Machine

/-- The level of the token bucket of scope i (R32): buckets 2k and 2k + 1 are the max and min bucket of node k, from 2^20 on
those of the policers, from 2^22 on the credits of allocations (R180). -/
def State.bucketLevel (s : State) (i : Nat) : Option Int :=
  if 2 ^ 22 ≤ i then
    (Tab.get? s.map.alloc ((i - 2 ^ 22) / 2)).map fun x => ((if i % 2 = 0 then x.aCredit else x.nCredit : Nat) : Int)
  else if 2 ^ 20 ≤ i then (Tab.get? s.sch.pol (i - 2 ^ 20)).map (·.b.level)
  else
    let b (x y : Bucket) : Int := if i % 2 = 0 then x.level else y.level
    if i / 2 < 2 ^ 18 then (s.queue (i / 2)).map fun q => b q.bmax q.bmin
    else (s.vert (i / 2 - 2 ^ 18)).map fun x => b x.bmax x.bmin

/-- The token buckets, in rising order of their scope index. -/
def State.buckets (s : State) : List Nat :=
  (Tab.keys s.sch.q).flatMap (fun k => [2 * k, 2 * k + 1])
    ++ (Tab.keys s.sch.v).flatMap (fun v => [2 * vxKey v, 2 * vxKey v + 1])
    ++ (Tab.keys s.sch.pol).map (2 ^ 20 + ·)
    ++ (Tab.keys s.map.alloc).flatMap (fun a => [creditScope a 0, creditScope a 1])

/-- The sum of f over a list. -/
def sumOf {α : Type} (f : α → Nat) (l : List α) : Nat := l.foldl (fun n x => n + f x) 0

/-- Packet chains whose bytes the balances hold: not the copies staged in a tail page, nor a quarantine's, whose bytes the
decryptor's items hold. -/
def State.byteChains (s : State) : List Chain :=
  let staged := s.sch.q.flatMap fun e => e.2.staged.map (·.2.1)
  let quar (c : Nat) : Bool := ((Tab.get? s.pool.cells c).map fun x => decide (32 ≤ x.holder ∧ x.holder < 40)).getD false
  (s.pool.chains.filter fun e => !staged.contains e.1 && !quar e.1).map (·.2)

/-- Packets in the deep buffer, the one being read back among them. -/
def State.deepPkts (s : State) : List DeepPkt :=
  (s.pool.pages.flatMap (·.2.pkts) ++ s.sch.q.filterMap fun e => e.2.partRd.map (·.1)).filter fun p => !p.gone

/-- Packets in the ingress halves that hold no chain yet. -/
def State.loosePkts (s : State) : List Pkt :=
  ((s.cls.inq ++ s.cls.recirc).flatMap (·.2) ++ s.cls.held.flatMap (fun e => e.2.map (·.pkt))
    ++ s.cls.casc.waits.map (·.2.pkt)).filter fun p => p.chain.isNone

/-- Bytes of ONU h resident in a direction, 0 downstream and 1 upstream (R32): in the decryptors and reassembly, at the parser
inputs, in chains and deep pages, on their way out, in punts. -/
def State.onuHeld (s : State) (h dir : Nat) : Nat :=
  let gems := s.ds.ch.flatMap (·.2.gems)
  if dir = 0 then
    sumOf (fun c => if c.ledHdr.dest = some h then c.octets.length else 0) s.byteChains
      + sumOf (fun p => if p.hdr.dest = some h then p.octets.length else 0) s.deepPkts
      + sumOf (fun x => if x.dest = some h then x.len else 0) gems
      + sumOf (fun f => if f.dest = some h then f.len else 0) (s.sch.omci.flatMap (·.2))
  else
    sumOf (fun x => if x.h = h then x.octets.length else 0) (s.cip.dec.flatMap (·.2))
      + sumOf (fun e => if e.1 / 2 ^ 18 = h then e.2.octets.length else 0) s.cip.reasm
      + sumOf (fun p => if p.srcKind = 0 && p.source == h then p.octets.length else 0) s.loosePkts
      + sumOf (fun c => if c.hdr.upOnu = some h then c.hdr.len else 0) s.byteChains
      + sumOf (fun p => if p.hdr.upOnu = some h then p.hdr.len else 0) s.deepPkts
      + sumOf (fun x => if x.up = some h then x.bal else 0) gems
      + sumOf (fun f => if f.up = some h then f.bal else 0) (s.sch.tx.flatMap (·.2))
      + sumOf (fun e => if e.2.onu = some h && e.2.chain.isNone then e.2.octets.length else 0) s.host.puntQ

/-- What is held of a scope at present, where the device can count it beside the ledger's own events: the cells not FREE, the
level of a bucket, the bytes of an ONU in a direction (R32). -/
def State.ledHeld (s : State) (q i : Nat) : Option Int :=
  match q with
  | 0 => some s.pool.cells.length
  | 2 => s.bucketLevel i
  | 4 => some (s.onuHeld (i / 2) (i % 2))
  | _ => none

/-- The counts of a balance that belong to windows before window w: created and ended; and those of w and later. -/
def Balance.split (b : Balance) (w : Nat) : Int × Int :=
  let old : Int := b.createdB - b.endedB
  let new : Int := b.created - b.ended
  if w ≤ b.win then (old, new) else (old + new, 0)

/-- The grants of the superframes on channel pair g whose framer read came in a window before w: created and not ended (R163). -/
def State.grantsLeft (s : State) (g w : Nat) : Int :=
  s.led.grants.foldl (fun n e =>
    if e.1 % 512 = g && (e.2.readWin.map fun x => decide (x < w)).getD false then n + e.2.created - e.2.ended else n) 0

/-- A superframe of channel pair g that closes with the windows before w is out of balance (R32, R163). -/
def State.grantsBad (s : State) (g w : Nat) : Bool :=
  s.led.grants.any fun e =>
    e.1 % 512 == g && (e.2.readWin.map fun x => decide (x < w)).getD false && e.2.created != e.2.ended

/-- The imbalance of one balance at the close of the windows before w, and what is held after it (R32 to R34): what was held,
plus created, minus ended, against what is held now less what later windows changed. A bucket that is gone has no balance. -/
def State.imbalance (s : State) (q i w : Nat) (b : Balance) : Int × Int :=
  let (old, new) := b.split w
  if q = 1 then (s.grantsLeft i w, 0)
  else
    match s.ledHeld q i with
    | some held => (b.resident + old - (held - new), held - new)
    | none => (0, 0)

/-- One balance closed; of grants, that of every superframe of the channel pair, whose imbalances are summed. -/
def closeBalance (w q i : Nat) (s : State) : State :=
  let b := Tab.getD (Tab.getD s.led.bal q []) i {}
  let (d, r) := s.imbalance q i w b
  let bad := d != 0 || (q == 1 && s.grantsBad i w)
  let later := decide (w ≤ b.win)
  let b1 : Balance := { win := b.win, created := if later then b.created else 0, ended := if later then b.ended else 0,
                        resident := r, last := d, cum := b.cum + d, named := b.named || bad }
  let s := onBalance q i (fun _ => b1) s
  if bad then raiseFault 180 8 (q * 2 ^ 18 + i % 2 ^ 18) s else s

/-- The number of ledger windows that ended at least 20 microseconds ago (R33). -/
def State.windowsEnded (s : State) : Nat := (s.clk.ltb - usT 20) / msT 1

/-- The balances the ledger checks, by quantity and scope index: of grants, those of every channel pair with any. -/
def State.ledKeys (s : State) : List (Nat × Nat) :=
  let grants (g : Nat) : Bool :=
    (s.led.grants.any fun e => e.1 % 512 == g) || (Tab.get? (Tab.getD s.led.bal 1 []) g).isSome
  ((s.led.bal.filter fun e => e.1 != 1).flatMap fun e => e.2.map fun x => (e.1, x.1))
    ++ (if s.led.grants.isEmpty && (Tab.get? s.led.bal 1).isNone then [] else ((List.range 512).filter grants).map fun g => (1, g))

/-- LEDGER_WINDOW_CLOSE (R33, R34): nothing 20 microseconds have not passed since the end of a window not closed yet; else
every balance is checked over the windows that ended. -/
def windowClose (s : State) : State :=
  let w := s.windowsEnded
  if w = s.led.window then s
  else
    let s := s.ledKeys.foldl (fun s k => closeBalance w k.1 k.2 s) s
    { s with led := { s.led with
      window := w, grants := s.led.grants.filter fun e => !(e.2.readWin.map fun x => decide (x < w)).getD false } }

/-- The scopes of a quantity (R32, R490): of credits, header and data credits of posted requests, non-posted requests and
completions of each port's link, 6 × port + 2 × type + data. A TLP is consumed in the command that receives it, so none of
its credits is held at any close (notes/assumptions/84.md). -/
def State.ledScopes (s : State) (q : Nat) : List Nat :=
  match q with
  | 0 => [0]
  | 1 => List.range 512
  | 2 => s.buckets
  | 3 => s.ports.flatMap fun p => (List.range 6).map (6 * p + ·)
  | 4 => List.range 65536
  | _ => []

/-- A LedgerAudit record (R490). -/
def State.ledRecord (s : State) (q i : Nat) : Nat :=
  let b := Tab.getD (Tab.getD s.led.bal q []) i {}
  q + q * 2 ^ 8 + i % 2 ^ 32 * 2 ^ 32 + (s.led.window + 2 ^ 32 - 1) % 2 ^ 32 * 2 ^ 64 + signed 64 b.last * 2 ^ 96 + signed 64 b.cum * 2 ^ 160
    + (flag s.classF + 2 * flag b.named) * 2 ^ 224

end Sys2Proof.Machine
end

