-- ==== Sys2Proof/Machine/BlockRst.lean ====
section
/-! DEFINITION. What the reset of one island clears, what its release rebuilds and what the ledger sweep frees (R293, R321,
R364, R375, R507, R516, R527). Contents that two islands share stay at the reset of one of them
(notes/assumptions/80.md). -/

namespace Sys2Proof.Machine

/-! ### Slices -/

/-- The queues of direction dir whose tree belongs to slice sl. -/
def State.halfQueues (s : State) (sl dir : Nat) : List Nat :=
  (s.sch.q.filter fun e => e.1 / 2 ^ 17 == dir && s.vertSlice e.2.a.parent == some sl).map (·.1)

/-- The vertices, roots included, of direction dir whose tree belongs to slice sl. -/
def State.halfVerts (s : State) (sl dir : Nat) : List Nat :=
  (s.sch.v.filter fun e => e.2.dir == dir && s.vertSlice e.1 == some sl).map (·.1)

/-- The handles of the ONUs whose channel pair belongs to slice sl. -/
def State.sliceOnus (s : State) (sl : Nat) : List Nat := (s.onu.ctx.filter fun e => e.2.g / 64 == sl).map (·.1)

/-- Those of them that have a key context in a direction (R364). -/
def State.keyedOnus (s : State) (sl dir : Nat) : List Nat :=
  (s.sliceOnus sl).filter fun h => (s.keyCtx h dir 0).st != .empty || (s.keyCtx h dir 1).st != .empty

/-- An exchange whose target slot a reset clears ends: the slot is EMPTY in the other direction as well (R360, R364). -/
def endExchange (h dir : Nat) (s : State) : State :=
  match (s.keyOnu h).exch with
  | none => s
  | some e =>
    if (s.keyCtx h dir e.slot).st == .pending then
      onKeyOnu h (fun k => { k with exch := none }) (setKey h (1 - dir) e.slot {} s)
    else s

/-- The key contexts of ONUs in one direction are cleared (R364). -/
def clearKeys (hs : List Nat) (dir : Nat) (s : State) : State :=
  hs.foldl (fun s h => setKey h dir 1 {} (setKey h dir 0 {} (endExchange h dir s))) s

/-- A packet that an island in reset held leaves with RESET_LOSS (R321, R516). -/
def lostPkt (b : Nat) (p : Pkt) (s : State) : State := bump .dropBlk (256 * b + 0x28) (endPkt p s)

/-- An ingress half: its input buffer, and for the upstream half its decryptors and key contexts. -/
def clearIngress (b sl dir : Nat) (s : State) : State :=
  let k := 2 * sl + dir
  let loose := (Tab.getD s.cls.inq k []).filter fun p => p.chain.isNone
  let s := loose.foldl (fun s p => lostPkt b p s) s
  let held := Tab.getD s.cls.held sl []
  let mine (x : FragHeld) : Bool := decide (x.pkt.dir = dir)
  let s := (held.filter fun x => mine x && x.pkt.chain.isNone).foldl (fun s x => lostPkt b x.pkt s) s
  let s := onCls (fun c => { c with
    inq := Tab.erase c.inq k, held := if held.any mine then Tab.set c.held sl (held.filter fun x => !mine x) else c.held }) s
  if dir = 0 then s
  else
    let held := (Tab.getD s.cip.dec sl []).filter fun x => x.chain.isNone
    let s := held.foldl (fun s x => bump .dropBlk (256 * b + 0x28) (onuBytesOut x.h 1 x.octets.length s)) s
    let mine (e : Nat × Reasm) : Bool := (s.sliceOnus sl).contains (e.1 / 2 ^ 18)
    let loose := s.cip.reasm.filter fun e => mine e && e.2.chain.isNone
    let s := loose.foldl (fun s e => bump .dropBlk (256 * b + 0x28) (onuBytesOut (e.1 / 2 ^ 18) 1 e.2.octets.length s)) s
    let left := s.cip.reasm.filter fun e => !(s.sliceOnus sl).contains (e.1 / 2 ^ 18)
    clearKeys (s.sliceOnus sl) 1 { s with cip := { s.cip with dec := Tab.erase s.cip.dec sl, reasm := left } }

/-- A recirculation island: the packets on their way to a second pass are lost. -/
def clearRecirc (b sl dir : Nat) (s : State) : State :=
  let k := 2 * sl + dir
  let ps := Tab.getD s.cls.recirc k []
  onCls (fun c => { c with recirc := Tab.erase c.recirc k }) (ps.foldl (fun s p => lostPkt b p (onInFlight sl p.stamp (· - 1) s)) s)

/-- The punts that egress half `b` of pipeline k holds, or the oldest of them, are lost with RESET_LOSS (R14, R321, R516). -/
def losePunts (b : Nat) (lost : List (Nat × Punt)) (s : State) : State :=
  let s := lost.foldl (fun s e => bump .dropBlk (256 * b + 0x28) (puntGone e.2 s)) s
  { s with host := { s.host with puntQ := s.host.puntQ.filter fun e => !lost.contains e } }

/-- A punt that reaches its egress half in reset is lost. -/
def puntLost (k : Nat) (s : State) : State :=
  losePunts (sliceBlk (k / 2) (2 * (k % 2) + 1)) (s.host.puntQ.find? fun e => e.1 == k).toList s

/-- An egress half: its queues and vertices, and for the downstream half the key contexts it seals with. The chains of
its head segments stay in the pool for the sweep. -/
def clearEgress (b sl dir : Nat) (s : State) : State :=
  let qs := s.halfQueues sl dir
  let vs := s.halfVerts sl dir
  let part := qs.filterMap fun k => (s.queue k).bind fun q => q.partRd.map (·.1)
  let s := part.foldl (fun s p => endDeep .dropBlk b 0x28 p s) s
  let s := losePunts b (s.host.puntQ.filter fun e => e.1 == 2 * sl + dir) s
  let s := { s with sch := { s.sch with q := s.sch.q.filter fun e => !qs.contains e.1
                                        v := s.sch.v.filter fun e => !vs.contains e.1 } }
  if dir = 0 then
    let mgmt : List TxFrame := (s.sch.omci.filter fun e => e.1 / 64 == sl).flatMap (·.2)
    let lose (f : TxFrame) (s : State) : State :=
      bump .dropBlk (256 * b + 0x28) (match f.dest with
        | some h => onuBytesOut h 0 f.len s
        | none => s)
    let s := mgmt.foldl (fun s f => lose f s) s
    let s := { s with sch := { s.sch with omci := s.sch.omci.filter fun e => e.1 / 64 != sl
                                          omciB := s.sch.omciB.filter fun e => e.1 / 64 != sl } }
    clearKeys (s.sliceOnus sl) 0 s
  else s

/-- What a slice's two halves share, lost with the slice's domain (R527): policers, gates, the fragment table and hold
list, the learn queue. -/
def clearShared (sl : Nat) (s : State) : State :=
  let held := Tab.getD s.cls.held sl []
  let s := held.foldl (fun s x => lostPkt (sliceBlk sl 0) x.pkt s) s
  let s := onCls (fun c => { c with frag := Tab.erase c.frag sl, held := Tab.erase c.held sl }) s
  let s := onEm (fun m => { m with learnQ := Tab.erase m.learnQ sl, filter := Tab.erase m.filter sl }) s
  { s with sch := { s.sch with pol := s.sch.pol.filter fun e => e.1 / 2 ^ 17 != sl
                               gate := s.sch.gate.filter fun e => e.1 / 512 != sl } }

/-- A Facet bank group: its entries, widths, records and hit counters. -/
def clearFacet (sl grp : Nat) (s : State) : State :=
  onFacet sl (fun x => { x with
    entry := x.entry.filter fun e => e.1 / 16384 != grp
    width := x.width.filter fun e => e.1 / 8 % 2 != grp
    recs := x.recs.filter fun e => e.1 / 16384 % 2 != grp
    hits := x.hits.filter fun e => e.1 / 2 ^ 20 != grp }) s

/-- A copy of the exact-match table (R293): its lookups miss until the writer has refilled it. -/
def clearEm (sl : Nat) (s : State) : State :=
  onEm (fun m => { m with copy := Tab.erase m.copy sl
                          refilling := if m.refilling.contains sl then m.refilling else m.refilling ++ [sl] }) s

/-- A bank pair of the pool: the data of its cells are lost, so that a packet that holds one is dropped when it is read
(R301). -/
def clearBanks (k : Nat) (s : State) : State :=
  let mine := (Tab.keys s.pool.cells).filter fun c => c % 32 / 2 == k
  onPool (fun p => { p with bad := p.bad ++ mine.filter fun c => !p.bad.contains c }) s

/-! ### Marver, PON and uplink islands -/

/-- A Marver core group: its cores start again on the image of the slot booted; their hints and plans are gone. -/
def clearMarver (m : Nat) (s : State) : State :=
  let mine (g : Nat) : Bool := g / 8 / 4 == m
  let img := if s.opt.booted = 1 then s.opt.marver1 else s.opt.marver0
  let cores := [4 * m, 4 * m + 1, 4 * m + 2, 4 * m + 3]
  { s with map := { s.map with
    core := cores.foldl (fun t k => Tab.set t k { active := img }) s.map.core
    hints := s.map.hints.filter fun e => !mine e.1
    hintAcc := s.map.hintAcc.filter fun e => !mine e.1
    hintAt := s.map.hintAt.filter fun e => !mine e.1
    unserved := s.map.unserved.filter fun e => !mine e.1
    plans := s.map.plans.filter fun p => !mine p.g
    cyclesMax := s.map.cyclesMax.filter fun e => e.1 / 4 != m
    cyclesNow := s.map.cyclesNow.filter fun e => e.1 / 4 != m } }

/-- A lane and framer group of PON die q: lanes, framers, burst engines, phase memory and reception of its two trees. -/
def clearPon (q j : Nat) (s : State) : State :=
  let mine (g : Nat) : Bool := g / 16 == 8 * q + j
  let mineO (i : Nat) : Bool := match Tab.get? s.onu.ctx (i / 8) with
    | some o => o.tree / 2 == 8 * q + j
    | none => false
  let keep (c : LaneCh) : LaneCh :=
    { present := c.present, addressed := c.addressed, dynAddr := c.dynAddr, pollAt := c.pollAt, sigDetect := c.sigDetect,
      txFault := c.txFault, polled := c.polled, ibi := c.ibi }
  let idle (t : Trib) : Trib := { a := t.a, create := t.create, pending := t.pending, move := t.move }
  let framers := s.ds.ch.filter fun e => mine e.1
  let s := framers.foldl (fun s e => e.2.gems.foldl (fun s x => gemDropped e.1 0x28 x s) s) s
  { s with
    lane := { s.lane with
      ch := s.lane.ch.map fun e => if mine e.1 then (e.1, keep e.2) else e
      phase := s.lane.phase.filter fun e => !mineO e.1
      loaded := s.lane.loaded.filter fun e => !mine e.1 }
    ds := { s.ds with
      ch := s.ds.ch.filter fun e => !mine e.1
      trib := s.ds.trib.map fun e => if mine e.2.a.channel then (e.1, idle e.2) else e }
    map := { s.map with ch := s.map.ch.filter fun e => !mine e.1 }
    rx := { s.rx with
      ch := s.rx.ch.filter fun e => !mine e.1
      onu := s.rx.onu.filter fun e => !mineO e.1 } }

/-- The transfers of an I3C bus end without a target (notes/assumptions/80.md). -/
def endTransfers (b : I3cBus) (s : State) : State :=
  (b.cur.toList ++ b.host).foldl (fun s x =>
    match x.cmd with
    | some (q, write) => complete q (if write then 0x1004 else 0x1003) (.err .noTarget) s
    | none => s) s

/-- The sideband and I3C island of PON die q. -/
def clearSideband (q : Nat) (s : State) : State :=
  let bus := s.lane.bus.filter fun e => e.1 / 4 == q
  let s := bus.foldl (fun s e => endTransfers e.2 s) s
  let gone (c : LaneCh) : LaneCh :=
    { c with present := false, addressed := false, dynAddr := none, pidOk := false, pollAt := 0, sigDetect := false, txFault := false, polled := [], ibi := 0 }
  { s with lane := { s.lane with
    link := s.lane.link.filter fun e => e.1 / 16 != q
    bus := s.lane.bus.filter fun e => e.1 / 4 != q
    ch := s.lane.ch.map fun e => if e.1 / 128 == q then (e.1, gone e.2) else e } }

/-- The uplink island of groups u and u + 1: MAC, PCS and FEC; frames in it are lost. -/
def clearUplink (b u : Nat) (s : State) : State :=
  let mine (p : Nat) : Bool := p / 8 == u || p / 8 == u + 1
  let fs : List TxFrame := (s.sch.tx.filter fun e => mine e.1).flatMap (·.2)
  let lose (f : TxFrame) (s : State) : State :=
    let s := match f.up with
      | some h => onuBytesOut h 1 f.bal s
      | none => s
    bump .dropBlk (256 * b + 0x28) s
  let s := fs.foldl (fun s f => lose f s) s
  { s with
    lane := { s.lane with port := s.lane.port.filter fun e => !mine e.1, pcs := s.lane.pcs.filter fun e => !mine (e.1 / 32) }
    sch := { s.sch with tx := s.sch.tx.filter fun e => !mine e.1 } }

/-- The Ixrardo and timestamp island of a die. -/
def clearIxr (east : Bool) (s : State) : State :=
  let mine (u : Nat) : Bool := decide (16 ≤ u) == east
  { s with
    lane := { s.lane with ixr := s.lane.ixr.filter fun e => !mine e.1 }
    prot := { s.prot with links := s.prot.links.filter fun e => !mine e.1 } }

/-! ### Any island -/

/-- The fault window of a block cleared, but for its class-F records (R507). -/
def FaultWin.clearSoft (w : FaultWin) : FaultWin :=
  if w.status &&& classFMask != 0 then
    let w1 := { w with status := w.status &&& classFMask }
    if w.cls == 3 then w1
    else { w1 with firstValid := false, firstTie := false, injAlso := false, injected := false, cls := 0, kindNo := 0,
                   detail := 0, time := 0 }
  else {}

/-- The fault windows of the blocks that p names, cleared but for class F. -/
def clearWindows (p : Nat → Bool) (s : State) : State :=
  let keep (e : Nat × FaultWin) : Option (Nat × FaultWin) :=
    if p e.1 then (if e.2.status &&& classFMask != 0 then some (e.1, e.2.clearSoft) else none) else some e
  { s with flt := { s.flt with win := s.flt.win.filterMap keep } }

/-- The counters that an island holds, with the scopes that are its own (notes/assumptions/80.md). -/
def blockCtrs (b : Nat) : List (Ctr × (Nat → Bool)) :=
  if b < 48 then [(.dropBlk, fun i => i / 256 == b), (.dropPipe, fun i => i / 256 == 2 * (b / 6) + b % 6 / 2 && b % 6 < 4)]
  else if b < 64 then [(.facetThrottleClocks, fun i => i == b - 48)]
  else if b < 72 then [Ctr.emLookups, .emHits, .emMisses, .emParity, .emRefillMiss].map fun c => (c, fun i => i == b - 64)
  else if 106 ≤ b && b < 142 then
    if (b - 106) % 9 = 8 then
      ([Ctr.sblLockLoss, .sblCrc, .sblLate, .sblBadEvent, .sblTxMissed].map fun c => (c, fun i => i / 16 == (b - 106) / 9))
        ++ [(.moduleUnreachable, fun i => i / 128 == (b - 106) / 9)]
    else
      [Ctr.laneFail, .seedMiss, .dsFrames, .dsGemFrames, .dsGemFragments, .dsIdleBytes, .dsPloamSent, .dsPloamDeferred,
        .mapReplay, .grantsExecuted, .rxSilentSf, .losCCount, .opticsFailCount, .channelFailCount].map fun c =>
        (c, fun i => i / 16 == 8 * ((b - 106) / 9) + (b - 106) % 9)
  else if 142 ≤ b && b < 160 then
    if b = 150 || b = 159 then
      [(.ixrSeqGap, fun i => decide (256 ≤ i) == (b == 159)), (.ixrBadType, fun i => decide (16 ≤ i) == (b == 159))]
    else
      let u := if b < 150 then 2 * (b - 142) else 16 + 2 * (b - 151)
      [Ctr.blockLockLoss, .portDown].map fun c => (c, fun i => i / 16 == u / 2)
  else if 160 ≤ b && b < 172 && (b - 160) % 3 = 0 then
    [Ctr.dbufPagesWritten, .dbufPagesRead, .dbufPartialPages, .dbufFull].map fun c => (c, fun i => i == (b - 160) / 3)
  else if b = 177 then [Ctr.keJobs, .keAuthFail, .rngFail].map fun c => (c, fun _ => true)
  else []

/-- The island's own state is cleared (R507). -/
def clearIsland (b : Nat) (s : State) : State :=
  if b < 48 then
    match b % 6 with
    | 0 => clearIngress b (b / 6) 0 s
    | 1 => clearEgress b (b / 6) 0 s
    | 2 => clearIngress b (b / 6) 1 s
    | 3 => clearEgress b (b / 6) 1 s
    | 4 => clearRecirc b (b / 6) 0 s
    | _ => clearRecirc b (b / 6) 1 s
  else if b < 64 then clearFacet ((b - 48) / 2) (b % 2) s
  else if b < 72 then clearEm (b - 64) s
  else if b < 88 then clearBanks (b - 72) s
  else if b < 104 then clearMarver (b - 88) s
  else if b < 106 then s
  else if b < 142 then (if (b - 106) % 9 = 8 then clearSideband ((b - 106) / 9) s else clearPon ((b - 106) / 9) ((b - 106) % 9) s)
  else if b < 150 then clearUplink b (2 * (b - 142)) s
  else if b = 150 then clearIxr false s
  else if b < 159 then clearUplink b (16 + 2 * (b - 151)) s
  else if b = 159 then clearIxr true s
  else if b < 172 then s
  else if b = 177 then
    { s with cip := { s.cip with ke := { grants := s.cip.ke.grants }, hk := [], keOut := none } }
  else if b = 178 then { s with cip := { s.cip with cu := [] } }
  else if b = 180 then
    let anew (q i : Nat) (x : Balance) : Balance := { cum := x.cum, named := x.named, resident := (s.ledHeld q i).getD 0 }
    { s with led := { s.led with
      bal := s.led.bal.map fun t => (t.1, t.2.map fun e => (e.1, anew t.1 e.1 e.2)), grants := [] } }
  else if 181 ≤ b && b ≤ 188 then { s with ann := { s.ann with slack := s.ann.slack.filter fun e => e.1 / 148 != b - 181 } }
  else s

/-- The record of block b's reset: the pages and staged chains that its queues held, the ONUs whose keys it clears. -/
def resetOf (b : Nat) (cmd : Option Req) (s : State) : BlockRst :=
  let sl := b / 6
  if b < 48 && (b % 6 == 1 || b % 6 == 3) then
    let dir := b % 6 / 2
    let qs := (s.halfQueues sl dir).filterMap s.queue
    { block := b, cmd := cmd, pages := qs.flatMap Queue.pages, chains := qs.flatMap fun q => q.staged.map fun e => e.2.1,
      onus := if dir = 0 then s.keyedOnus sl 0 else [] }
  else if b < 48 && b % 6 == 2 then { block := b, cmd := cmd, onus := s.keyedOnus sl 1 }
  else { block := b, cmd := cmd }

/-- Block b is in reset: its state, its fault window and its counters are cleared (R507, R516). -/
def clearBlock (b : Nat) (s : State) : State :=
  (blockCtrs b).foldl (fun s c => clearCtr c.1 c.2 s) (clearWindows (· == b) (clearIsland b s))

/-! ### Release and sweep -/

/-- The deep packets of some pages leave with RESET_LOSS, and the pages are free. Of a page that `unread` names no chain header
can be read, and the bytes of its packets stay in their balances. -/
def losePages (b : Nat) (unread : Page → Bool) (ps : List Nat) (s : State) : State :=
  let pkts := ps.flatMap fun p => ((Tab.get? s.pool.pages p).map fun g => g.pkts.map fun x => (unread g, x)).getD []
  let lose (e : Bool × DeepPkt) (s : State) : State :=
    if e.1 && !e.2.gone then bump .dropBlk (256 * b + 0x28) s else endDeep .dropBlk b 0x28 e.2 s
  freePagesOf ps (pkts.foldl (fun s e => lose e s) s)

/-- A chain staged for a page is freed by the sweep; its bytes leave with its page. -/
def sweepStaged (c : Nat) (s : State) : State :=
  bumpBy .sweepCells 0 (((s.chain c).map fun x => x.cells.length).getD 0) (freeChain c s)

/-- The deep segments of the queues of stack j are freed (R375): after an XTS island's reset the chain headers in the pages it
wrote cannot be read; a controller's reset loses the segments as well. -/
def loseStack (b j : Nat) (s : State) : State :=
  let ps := (Tab.keys s.pool.pages).filter fun p => p % 4 == j
  let qs := (Tab.keys s.sch.q).filter fun k => stackOf k == j
  let part := qs.filterMap fun k => (s.queue k).bind fun q => q.partRd.map (·.1)
  let staged := qs.flatMap fun k => ((s.queue k).map fun q => q.staged.map fun e => e.2.1).getD []
  let s := staged.foldl (fun s c => sweepStaged c s) (losePages b (fun g => (b - 160) % 3 == 1 && g.written) ps s)
  let s := part.foldl (fun s p => endDeep .dropBlk b 0x28 p s) s
  qs.foldl (fun s k => settleEmpty s.treeFuel k (leaveOrders k
    (onQueue k (fun q => { q with staged := [], openPg := none, ready := [], writing := [], deep := [],
                                  partRd := none, reading := false, spill := false }) s))) s

/-- What a block rebuilds at its release (R364, R375): an exchange for each ONU whose keys were cleared; a new key pair of
an XTS engine. -/
def rebuildBlock (r : BlockRst) (s : State) : State :=
  let b := r.block
  if 160 ≤ b && b < 172 then
    let j := (b - 160) / 3
    if (b - 160) % 3 = 1 then loseStack b j (drawXts j s)
    else if (b - 160) % 3 = 0 then loseStack b j s
    else s
  else r.onus.foldl (fun s h => dueExchange h s) s

/-- The holders that name block b (R299). -/
def holdersOf (b : Nat) : List Nat :=
  if 160 ≤ b && b < 172 && (b - 160) % 3 = 0 then [48 + (b - 160) / 3]
  else if b < 48 then
    let sl := b / 6
    match b % 6 with
    | 0 => [2 * sl]
    | 1 => [16 + 2 * sl]
    | 2 => [2 * sl + 1, 32 + sl]
    | 3 => [16 + 2 * sl + 1]
    | _ => []
  else []

/-- A chain that the sweep of block b frees: its cells are counted, its bytes dropped with RESET_LOSS (R321, R324). -/
def sweepChain (b c : Nat) (s : State) : State :=
  let n := ((s.chain c).map fun x => x.cells.length).getD 0
  bumpBy .sweepCells 0 n (dropChain .dropBlk b 0x28 c s)

/-- A chain of a slice's hold list belongs to the ingress half of its direction. -/
def heldBy (b : Nat) (holder : Nat) (c : Chain) : Bool :=
  decide (b < 48) && b % 2 == 0 && decide (b % 6 < 4) && holder == 40 + b / 6 && c.hdr.dir == b % 6 / 2

/-- The ledger sweep of a block (R321). -/
def sweepBlock (r : BlockRst) (s : State) : State :=
  let hs := holdersOf r.block
  let named (e : Nat × Chain) : Bool :=
    match Tab.get? s.pool.cells e.1 with
    | some x => hs.contains x.holder || heldBy r.block x.holder e.2
    | none => false
  let heads := (s.pool.chains.filter named).map (·.1)
  let s := heads.foldl (fun s c => sweepChain r.block c s) s
  let s := r.chains.foldl (fun s c => sweepStaged c s) s
  losePages r.block (fun _ => false) r.pages s

end Sys2Proof.Machine
end

