-- ==== Sys2Proof/Machine/Power.lean ====
section
/-! DEFINITION. Supply sag, power caps, domains, the option store, boot slots and their commands (R517 to R535), and the
margin plan's voltages (R557). -/

namespace Sys2Proof.Machine

/-! ### The margin plan in force (R556, R557) -/

/-- The signed 4-bit field avs_cal[4h+3:4h]. -/
def avsField (h : Nat) : Int :=
  let a := bits Config.avsCal (4 * h + 3) (4 * h)
  if 8 ≤ a then (a : Int) - 16 else a

/-- The V_target of a group under a plan: of the plan, or the empty plan's. -/
def planTarget (p : MarginPlan) (g : Nat) : Nat :=
  if p.version = 0 then (760 + 5 * avsField (g / 6)).toNat
  else ((p.groups[g]?).map (·.vTarget)).getD (760 + 5 * avsField (g / 6)).toNat

/-- The V_target in force of a group. -/
def State.vTarget (s : State) (g : Nat) : Nat := Tab.getD s.ann.vTarget g (planTarget s.ann.plan g)

/-- The highest V_target over all groups. -/
def State.vHighest (s : State) : Nat := ((List.range 48).map s.vTarget).foldl max 0

/-- The guard in force (R530): never above what keeps the setpoint at 850 mV. -/
def State.guardNow (s : State) : Nat := min s.pwr.guard (850 - s.vHighest)

/-- The setpoint of the AVS controller (R530). -/
def State.setpoint (s : State) : Nat := min 850 (s.vHighest + s.guardNow)

/-- A trim or V_target octet of the plan. -/
def planGroupOctets (x : PlanGroup) : List Nat :=
  leOctets 2 x.vTarget ++ [signed 8 (clampI (-128) 127 x.margin), flag x.shortfall + 2 * flag x.excluded]

/-- The 2,048 octets of a margin plan (R556). -/
def planOctets (p : MarginPlan) : List Nat :=
  let groups : List PlanGroup := (List.range 48).map fun g =>
    (p.groups[g]?).getD { vTarget := 0, margin := 0, shortfall := false, excluded := false }
  let lanes := (List.range 768).map fun l => signed 4 (Tab.getD p.trims l 0) * 16 + Tab.getD p.eyes l 0 % 16
  leOctets 2 p.version ++ leOctets 2 p.runCount ++ leOctets 6 p.runSec
    ++ ((List.range 8).map fun h => (p.facetTstart[h]?).getD 0) ++ leOctets 6 0
    ++ groups.flatMap planGroupOctets ++ lanes ++ leOctets 1064 0

/-! ### Option copies (R519, R520) -/

/-- A preset names a PID that exists, an index and a value in its ranges. -/
def presetOk (p : Preset) : Bool :=
  match pidDesc? p.pid with
  | some d => decide (p.index < d.indexCount) && (d.min == d.max ||
      (let v : Int := if bit d.flags 0 && 2 ^ 31 ≤ p.value then (p.value : Int) - 2 ^ 32 else p.value
       decide (d.min ≤ v) && decide (v ≤ d.max)))
  | none => false

/-- The fields of a margin plan lie in their ranges. -/
def planOk (p : MarginPlan) : Bool :=
  p.version == 0 || (p.version == 1 && p.groups.length == 48 && p.facetTstart.length == 8
    && p.groups.all (fun g => decide (650 ≤ g.vTarget ∧ g.vTarget ≤ 850))
    && p.facetTstart.all (fun t => decide (85 ≤ t ∧ t ≤ 95)) && p.trims.all (fun e => decide (-8 ≤ e.2) && decide (e.2 ≤ 7)))

/-- Every field of a copy lies in its range (R520 step 6). -/
def optRanges (i : OptImage) : Bool :=
  i.reservedZero && decide (i.stackRole ≤ 2 ∧ i.pcieMode ≤ 1 ∧ i.port1Write ≤ 1 ∧ i.testMode ≤ 1 ∧ i.bootSlot ≤ 1
    ∧ 1 ≤ i.capStageMax ∧ i.capStageMax ≤ 4) && (i.capW == 0 || decide (300 ≤ i.capW ∧ i.capW ≤ 585))
    && decide (i.domains < 2 ^ 24 ∧ i.presets.length ≤ 120) && i.presets.all presetOk && planOk i.plan

/-- The first step of R520, 4 to 6, that a copy fails; 0 when it is valid. `stored` says whether its tag is verified: the
tag of an image that host software writes is ignored (R533). -/
def optFail (stored : Bool) (i : OptImage) : Nat :=
  if i.magic != 0x56484F50 || i.layout != 1 || !i.crcOk then 4
  else if (stored && i.isSigned && !i.tagOk) || (Config.optSignRequired && !i.isSigned) then 5
  else if !optRanges i then 6
  else 0

/-- The defaults of R520. -/
def OptImage.defaults : OptImage :=
  { magic := 0x56484F50, layout := 1, isSigned := false, reservedZero := true, crcOk := true, tagOk := false, seq := 0,
    macBase := 0x020000000000 + Config.devSerial.toNat % 2 ^ 24, ssvid := 0, ssid := 0, stackRole := 0, pcieMode := 0,
    port1Write := 0, testMode := 0, domains := 2 ^ 24 - 1, bootSlot := 0, capStageMax := 2, capW := 0, stackTag := 0,
    presets := [], plan := MarginPlan.empty }

/-- The octets 0 to 4063 of a copy (R519); mac_base is little-endian like every other field. -/
def optBody (i : OptImage) : List Nat :=
  leOctets 4 i.magic ++ leOctets 2 i.layout ++ [flag i.isSigned, 0] ++ leOctets 4 i.seq ++ leOctets 6 i.macBase
    ++ leOctets 2 0 ++ leOctets 2 i.ssvid ++ leOctets 2 i.ssid
    ++ [i.stackRole % 256, i.pcieMode % 256, i.port1Write % 256, i.testMode % 256] ++ leOctets 4 i.domains
    ++ [i.bootSlot % 256, i.capStageMax % 256] ++ leOctets 2 i.capW ++ leOctets 4 i.stackTag ++ leOctets 24 0
    ++ (i.presets.flatMap fun p => leOctets 2 p.pid ++ leOctets 2 p.index ++ leOctets 4 p.value)
    ++ leOctets (8 * (120 - i.presets.length)) 0 ++ planOctets i.plan ++ leOctets 992 0

/-- The 4,096 octets of a copy (R519): an unsigned one holds zeros for its tag and IV, one whose CRC fails the complement
of the right CRC (notes/assumptions/81.md). -/
def optOctets (i : OptImage) : List Nat :=
  let body := optBody i
  let iv := if i.isSigned then Config.optIv i.seq else 0
  let tag := if i.isSigned then gcmTag optionKey (iv % 2 ^ 96) body [] else 0
  let os := body ++ leOctets 16 tag ++ leOctets 12 iv
  let crc := crcOf 1 os
  os ++ leOctets 4 (if i.crcOk then crc else 2 ^ 32 - 1 - crc)

/-- The 4,096 octets of a copy as the SPI device stores them (R519): XTS under OK_XTS where fuse opt_xts is set, tweak 0 for copy A
and 1 for copy B. -/
def storedCopy (copy : Nat) (i : OptImage) : List Nat := if Config.optXts then xtsEnc optionXts copy (optOctets i) else optOctets i

/-- The seconds of the LTB. -/
def State.ltbSec (s : State) : Nat := s.clk.ltb / 2488320000

/-! ### Ends of Annealer runs (R561) -/

/-- A run ends without effect: the event, its command, the next try after an hour. -/
def annAbort (cause : Nat) (s : State) : State :=
  if s.ann.step = 0 then s
  else
    let q := s.ann.cmd
    let s := event 0xE002 [.u 8 s.ann.step, .u 8 cause] s
    completeOpt q 0xE00B (.err .failed) { s with ann := { s.ann with
      step := 0, cmd := none, newPlan := none, last := 2, nextRun := s.ltbSec + 3600 } }

/-- A write of the option store that ends before its end leaves at least one valid copy (R522): which octets it had
reached is a free value. -/
def interruptWrite (s : State) : State :=
  match s.opt.writer with
  | none => s
  | some w =>
    let img := match w with
      | .host _ i => i
      | .annealer i => i
    let first (i : OptImage) (o : OptS) : OptS := if o.copy = 1 then { o with copyA := i } else { o with copyB := i }
    let second (i : OptImage) (o : OptS) : OptS := if o.copy = 1 then { o with copyB := i } else { o with copyA := i }
    let half : OptImage := { img with crcOk := false }
    let o := { s.opt with writer := none }
    let o := match s.freeVal % 5 with
      | 0 => o
      | 1 => first half o
      | 2 => first img o
      | 3 => second half (first img o)
      | _ => second img (first img o)
    { s.drawn with opt := o }

/-! ### Sag and cap stages (R528 to R531) -/

/-- The threshold of a stage in mV (R528). -/
def sagThreshold : Nat → Int
  | 1 => -15
  | 2 => -25
  | 3 => -35
  | 4 => -45
  | _ => -60

/-- The stage that a margin enters (R528). -/
def stageOf (m : Int) : Nat := if m ≤ -60 then 5 else if m ≤ -45 then 4 else if m ≤ -35 then 3 else if m ≤ -25 then 2 else
  if m ≤ -15 then 1 else 0

/-- Below S2 the page writes that the sag held back start (R319). -/
def resumeWrites (s : State) : State := s.sch.q.foldl (fun s e => startWrites e.1 s) s

/-- The stage in force has changed from `old` (R529): the event, the log, the counters of the stages passed, the
bandwidth windows marked, held page writes resumed (R319), an Annealer run ended (R561), every claim withdrawn from S5
on. -/
def stageChanged (old cause : Nat) (s : State) : State :=
  let new := s.sagStage
  if new = old then s
  else
    let s := ampLog 12 [old, new, cause] (event 0xD000 [.u 8 old, .u 8 new, .u 8 cause] s)
    let s := { s with mon := { s.mon with bwSag := true } }
    if new < old then (if new < 2 then resumeWrites s else s)
    else
      let s := ((List.range (new - old)).map (old + 1 + ·)).foldl (fun s k => bump .sagEntries k s) s
      let s := annAbort 0 s
      if new = 5 then withdrawClaims s else s

/-- SAG_STAGE_RISE (R529). -/
def sagRise (margin : Int) (group : Nat) (s : State) : State :=
  let old := s.sagStage
  stageChanged old 0 { s with pwr := { s.pwr with
    voltStage := max s.pwr.voltStage (stageOf margin), minMargin := margin, minGroup := group } }

/-- SAG_STAGE_RISE (R529). -/
def execSagStageRise (margin : Int) (group : Nat) (s : State) : Host.Outcome State Fault Refusal :=
  island 174 (sagRise margin group) s

/-- SAG_STAGE_FALL (R529): the margin has stayed 10 mV above the stage's threshold. -/
def sagFall (margin : Int) (group : Nat) (s : State) : State :=
  let old := s.sagStage
  let v := s.pwr.voltStage
  let v' := if v != 0 && decide (sagThreshold v + 10 ≤ margin) then v - 1 else v
  stageChanged old 0 { s with pwr := { s.pwr with voltStage := v', minMargin := margin, minGroup := group } }

/-- SAG_STAGE_FALL (R529). -/
def execSagStageFall (margin : Int) (group : Nat) (s : State) : Host.Outcome State Fault Refusal :=
  island 174 (sagFall margin group) s

/-- The CapConflict event (R534). -/
def capEvent (entry unmet : Bool) (s : State) : State :=
  event 0xD001 [.u 1 (flag entry), .u 1 (flag unmet), .u 16 s.pwr.estimate, .u 16 s.pwr.capW] s

/-- The cap stage moves to n. -/
def capStageTo (n : Nat) (s : State) : State :=
  let old := s.sagStage
  stageChanged old 1 { s with pwr := { s.pwr with capStage := n } }

/-- The estimate exceeds the cap (R531): the guard falls, then the cap stage rises every 10 ms. -/
def capOver (s : State) : State :=
  let s := { s with pwr := { s.pwr with underSince := none } }
  let g := s.guardNow
  if g != 0 then
    { s with pwr := { s.pwr with guard := g - 1, overSince := if g = 1 then some s.clk.now else none } }
  else
    match s.pwr.overSince with
    | none => { s with pwr := { s.pwr with guard := 0, overSince := some s.clk.now } }
    | some t =>
      if s.clk.now < t + msT 10 then s
      else if s.pwr.capStage < s.pwr.capStageMax then
        let n := s.pwr.capStage + 1
        let s := bump .capStageEntries n { s with pwr := { s.pwr with overSince := some s.clk.now } }
        let s := capStageTo n s
        if n = 1 then capEvent true false s else s
      else if s.pwr.unmet then s
      else capEvent true true { s with pwr := { s.pwr with unmet := true } }

/-- The estimate is at or below 95 % of the cap, or no cap is set (R531): after 100 ms the cap stage falls by one; at
stage 0 the guard is restored. -/
def capUnder (s : State) : State :=
  let since := s.pwr.underSince.getD s.clk.now
  let s := { s with pwr := { s.pwr with underSince := some since } }
  if s.clk.now < since + msT 100 then s
  else if s.pwr.capStage != 0 then
    let n := s.pwr.capStage - 1
    let s := capStageTo n { s with pwr := { s.pwr with underSince := some s.clk.now } }
    if n = 0 then capEvent false false { s with pwr := { s.pwr with unmet := false } } else s
  else { s with pwr := { s.pwr with guard := min (s.pwr.guard + 1) (s.paramN 0xD013 0) } }

/-- POWER_ESTIMATE (R531). -/
def powerEstimate (watts : Nat) (s : State) : State :=
  let s := { s with pwr := { s.pwr with estimate := watts } }
  let cap := s.pwr.capW
  if cap != 0 && decide (cap < watts) then capOver s
  else
    let s := { s with pwr := { s.pwr with overSince := none } }
    if cap = 0 || decide (100 * watts ≤ 95 * cap) then capUnder s
    else { s with pwr := { s.pwr with underSince := none } }

/-- POWER_ESTIMATE (R531). -/
def execPowerEstimate (watts : Nat) (s : State) : Host.Outcome State Fault Refusal := island 174 (powerEstimate watts) s

/-! ### Commands of power (R533) -/

/-- POWER_STATUS (R533). -/
def execPowerStatus (q : Req) (s : State) : Host.Outcome State Fault Refusal :=
  kilak q 0xD000 (fun s => doneWith [.u 32 s.pwr.domains, .u 16 s.pwr.estimate, .u 16 s.setpoint, .u 8 s.guardNow,
    .u 64 (flag (s.pwr.capStage != 0))] s) s

/-- POWER_CAP_SET (R531, R533). -/
def execPowerCapSet (q : Req) (capW capStageMax : Nat) (s : State) : Host.Outcome State Fault Refusal :=
  kilak q 0xD002 (fun s =>
    if (capW != 0 && !decide (300 ≤ capW ∧ capW ≤ 585)) || !decide (1 ≤ capStageMax ∧ capStageMax ≤ 4) then deny .limit s
    else done { s with pwr := { s.pwr with capW := capW, capStageMax := capStageMax } }) s

/-- SAG_STATUS (R533). -/
def execSagStatus (q : Req) (s : State) : Host.Outcome State Fault Refusal :=
  kilak q 0xD003 (fun s => doneWith [.u 8 s.sagStage, .u 8 s.pwr.voltStage, .u 8 s.pwr.capStage, .i 16 s.pwr.minMargin,
    .u 64 s.pwr.minGroup, .lst 8 ([1, 2, 3, 4, 5].map (s.count .sagEntries))] s) s

/-! ### Domains (R527) -/

/-- The islands of a domain. -/
def domainBlks (d : Nat) : List Nat := (List.range 189).filter fun b => domainOf b == d

/-- Every channel pair that p names is disabled. -/
def State.pairsOff (s : State) (p : Nat → Bool) : Bool :=
  s.lane.ch.all fun e => !p e.1 || (!e.2.enabled && e.2.ladder.isNone)

/-- Every uplink port that p names is administratively down. -/
def State.portsOff (s : State) (p : Nat → Bool) : Bool := s.lane.port.all fun e => !p e.1 || !e.2.up

/-- The queues of slice sl hold nothing. -/
def State.sliceEmpty (s : State) (sl : Nat) : Bool :=
  (s.halfQueues sl 0 ++ s.halfQueues sl 1).all fun k =>
    match s.queue k with
    | some q => q.head.isEmpty && q.pages.isEmpty && q.staged.isEmpty && q.partRd.isNone
    | none => true

/-- The condition of R527 for switching a domain off holds. -/
def State.mayPowerOff (s : State) (d : Nat) : Bool :=
  if d = 5 then s.pairsOff fun _ => true
  else if d < 14 then s.pairsOff (fun g => g / 64 == d - 6) && s.portsOff (fun p => p / 32 == d - 6) && s.sliceEmpty (d - 6)
  else if d < 18 then s.pairsOff fun g => g / 128 == d - 14
  else if d < 20 then
    s.portsOff (fun p => decide (128 ≤ p) == (d == 18)) && s.lane.ixr.all fun e => decide (16 ≤ e.1) != (d == 18) || !e.2.up
  else s.pool.pages.isEmpty

/-- Domains go off: each island's state is lost. -/
def powerOff (ds : List Nat) (s : State) : State :=
  let blks := ds.flatMap domainBlks
  let lose (b : Nat) (s : State) : State :=
    let r := resetOf b none s
    sweepBlock r (clearBlock b s)
  let s := blks.foldl (fun s b => lose b s) s
  let s := ds.foldl (fun s d => if 6 ≤ d && d < 14 then clearShared (d - 6) s else s) s
  let s := if ds.contains 20 then { s with cip := { s.cip with xts := [] } } else s
  { s with pwr := { s.pwr with domains := ds.foldl (fun a d => if bit a d then a - 2 ^ d else a) s.pwr.domains } }

/-- DOMAIN_POWER_SET (R527): domains 20 to 23 only all together, as `allHbm`. -/
def domainPowerSet (q : Req) (domain : Nat) (allHbm on : Bool) (s : State) : State × Option Reply :=
  if !allHbm && decide (24 ≤ domain) then deny .badArg s
  else if !allHbm && decide (domain < 5) then deny .denied s
  else if !allHbm && decide (20 ≤ domain) then deny .badArg s
  else
    let ds := if allHbm then [20, 21, 22, 23] else [domain]
    let d := ds.headD 0
    if s.pwr.upping.any fun e => e.1 == d then deny .busy s
    else if bit s.pwr.domains d == on then done s
    else if on then waits { s with pwr := { s.pwr with upping := s.pwr.upping ++ [(d, some q)] } }
    else if s.mayPowerOff d then done (powerOff ds s)
    else deny .busy s

/-- DOMAIN_POWER_SET (R527). -/
def execDomainPowerSet (q : Req) (domain : Nat) (allHbm on : Bool) (s : State) : Host.Outcome State Fault Refusal :=
  kilak q 0xD001 (domainPowerSet q domain allHbm on) s

/-- DOMAIN_POWER_UP_DONE (R527): the domain is powered, each of its islands rebuilds state as after a block reset. -/
def domainUp (d : Nat) (s : State) : State :=
  match s.pwr.upping.find? fun e => e.1 == d with
  | none => s
  | some e =>
    let ds := if d = 20 then [20, 21, 22, 23] else [d]
    let s := { s with pwr := { s.pwr with
      upping := s.pwr.upping.filter fun x => x.1 != d
      domains := ds.foldl (fun a k => if bit a k then a else a + 2 ^ k) s.pwr.domains } }
    let s := (ds.flatMap domainBlks).foldl (fun s b => rebuildBlock (resetOf b none s) s) s
    completeOpt e.2 0xD001 .ok s

/-- DOMAIN_POWER_UP_DONE (R527). -/
def execDomainPowerUpDone (domain : Nat) (s : State) : Host.Outcome State Fault Refusal := island 174 (domainUp domain) s

/-! ### The option store (R517 to R522, R533) -/

/-- The copy that host software names. -/
def OptS.copyOf (o : OptS) (b : Bool) : OptImage := if b then o.copyB else o.copyA

/-- OPTION_IMAGE_READ (R533). -/
def execOptionImageRead (q : Req) (copyB : Bool) (s : State) : Host.Outcome State Fault Refusal :=
  kilak q 0xD004 (fun s =>
    let i := s.opt.copyOf copyB
    doneWith [.lst 1 (optOctets i), .u 64 (flag (optFail true i == 0))] s) s

/-- The seq of the next write: one more than the stored copy in force holds (copy A where defaults are in force). -/
def State.nextOptSeq (s : State) : Nat := ((s.opt.copyOf (s.opt.copy == 1)).seq + 1) % 2 ^ 32

/-- OPTION_IMAGE_WRITE (R522, R533). -/
def optionWrite (q : Req) (img : OptImage) (s : State) : State × Option Reply :=
  match optFail false img with
  | 0 =>
    if s.opt.writer.isSome then deny .busy s
    else waits { s with opt := { s.opt with writer := some (.host q { img with seq := s.nextOptSeq, tagOk := true }) } }
  | n => denyAt .badArg n 0 s

/-- OPTION_IMAGE_WRITE (R522). -/
def execOptionImageWrite (q : Req) (img : OptImage) (s : State) : Host.Outcome State Fault Refusal :=
  kilak q 0xD005 (optionWrite q img) s

/-- The Annealer's write of its new plan begins, every other field as in the image in force (R558 step 5). -/
def annWrite (p : MarginPlan) (s : State) : State :=
  let sat (x : PlanGroup) : PlanGroup := { x with margin := clampI (-128) 127 x.margin }
  let img := { s.opt.cur with seq := s.nextOptSeq, plan := { p with groups := p.groups.map sat }, crcOk := true, tagOk := true }
  { s with opt := { s.opt with writer := some (.annealer img) } }

/-- A run that waits at step 5 for a host write starts its own (R561). -/
def annWaiting (s : State) : State :=
  match s.ann.newPlan with
  | some p => if s.ann.step = 5 && s.opt.writer.isNone then annWrite p s else s
  | none => s

/-- The end of a write (R522): `ok1` and `ok2` are the read-backs of the copy not in force and of the copy in force. -/
def storeWriteDone (ok1 ok2 : Bool) (s : State) : State :=
  match s.opt.writer with
  | none => s
  | some w =>
    let img := match w with
      | .host _ i => i
      | .annealer i => i
    let put (b : Bool) (ok : Bool) (o : OptS) : OptS :=
      let i := if ok then img else { img with crcOk := false }
      if b then { o with copyB := i } else { o with copyA := i }
    let inB := s.opt.copy == 1
    let o := put (!inB) ok1 { s.opt with writer := none }
    let o := if ok1 then put inB ok2 o else o
    let s := { s with opt := o }
    let ok := ok1 && ok2
    let step := if ok1 then 4 else 3
    match w with
    | .host q i =>
      annWaiting (complete q 0xD005 (if ok then .vals [.u 32 i.seq] else { code := .failed, detail := step * 2 ^ 24 }) s)
    | .annealer _ =>
      if s.ann.step != 5 then s
      else if ok then { s with ann := { s.ann with step := 6 } }
      else annAbort 2 s

/-- OPTION_STORE_WRITE_DONE (R522). -/
def execOptionStoreWriteDone (ok1 ok2 : Bool) (s : State) : Host.Outcome State Fault Refusal :=
  island 179 (storeWriteDone ok1 ok2) s

/-- OPTION_STATUS (R533). -/
def execOptionStatus (q : Req) (s : State) : Host.Outcome State Fault Refusal :=
  kilak q 0xD006 (fun s => doneWith [.u 8 s.opt.copy, .u 32 s.opt.cur.seq, .u 64 (s.count .optLoadFail 0),
    .u 64 (s.count .optLoadFail 1)] s) s

/-! ### Boot slots (R517, R523, R524, R533) -/

/-- A slot's image verifies (R379, R380). -/
def OptS.bootOk (o : OptS) (slot : Nat) (marver : Bool) : Bool :=
  let i := o.boot slot marver
  !imageRefused i (if marver then 2 else 1) && Image.tagOk i && decide (i.length + 80 ≤ bootLimit marver)

/-- BOOT_IMAGE_WRITE (R524, R533): BUSY for the slot booted; else the image waits for the Key Engine. -/
def bootImageWrite (q : Req) (slot : Nat) (marver : Bool) (img : Image) (s : State) : State × Option Reply :=
  if 2 ≤ slot || imageRefused img (if marver then 2 else 1) then deny .badArg s
  else if bootLimit marver < img.length + 80 then deny .limit s
  else if s.opt.booted = slot then deny .busy s
  else waits (keQueue (.image q (.boot slot marver) img) s)

/-- BOOT_IMAGE_WRITE (R524). -/
def execBootImageWrite (q : Req) (slot : Nat) (marver : Bool) (img : Image) (s : State) : Host.Outcome State Fault Refusal :=
  kilak q 0xD007 (bootImageWrite q slot marver img) s

/-- The values of a boot slot. -/
def bootVals (o : OptS) (slot : Nat) (marver : Bool) : List RVal :=
  let i := o.boot slot marver
  [.u 32 i.version, .u 32 i.stateVersion, .u 64 (flag (o.bootOk slot marver))]

/-- BOOT_IMAGE_STATUS (R533). -/
def execBootImageStatus (q : Req) (s : State) : Host.Outcome State Fault Refusal :=
  kilak q 0xD008 (fun s => doneWith (bootVals s.opt 0 false ++ bootVals s.opt 1 false ++ bootVals s.opt 0 true
    ++ bootVals s.opt 1 true) s) s

end Sys2Proof.Machine
end

