-- ==== Sys2Proof/Machine/Anneal.lean ====
section
/-! DEFINITION. The Annealer: runs, the new margin plan, raised and lowered targets, its commands (R555 to R564). -/

namespace Sys2Proof.Machine

/-! ### Starts (R558) -/

/-- A run starts, at the hubs' measurements. -/
def annStart (cmd : Option Req) (s : State) : State := { s with ann := { s.ann with step := 1, cmd := cmd, newPlan := none } }

/-- ANNEAL_RUN (R558, R563). -/
def execAnnealRun (q : Req) (s : State) : Host.Outcome State Fault Refusal :=
  kilak q 0xE00B (fun s =>
    if s.ann.step != 0 then deny .busy s
    else if s.sagStage != 0 then deny .badState s
    else waits (annStart (some q) s)) s

/-- ANNEAL_RUN_START (R558): a run that is due and cannot start is tried again after an hour. -/
def annDue (s : State) : State :=
  if s.ann.step != 0 || !s.host.bexedReady || decide (s.ltbSec < s.ann.nextRun) then s
  else if s.sagStage != 0 then { s with ann := { s.ann with nextRun := s.ltbSec + 3600 } }
  else annStart none s

/-- ANNEAL_RUN_START (R558). -/
def execAnnealRunStart (s : State) : Host.Outcome State Fault Refusal := island 104 annDue s

/-! ### The new plan (R559) -/

/-- The needed target and the entry of a group: from its slacks in ps, the rail voltage in mV, the slack required, the
target in force. -/
def newTarget (g : Nat) (slacks : List Int) (v req target : Nat) : Int :=
  let sMin := slacks.foldl min (slacks.headD 0)
  let t := (v : Int) - floorDiv (10 * (sMin - req)) (max 1 (Config.slackSensitivity g))
  max t ((target : Int) - 5)

/-- The entry for a needed target (R559); its margin is kept unsaturated until the plan is stored. -/
def groupOf (t : Int) (excluded : Bool) : PlanGroup :=
  { vTarget := (clampI 650 850 t).toNat, margin := 850 - t, shortfall := decide (850 < t), excluded := excluded }

/-- A group of the plan in force. -/
def planGroup (p : MarginPlan) (g : Nat) : PlanGroup :=
  (p.groups[g]?).getD { vTarget := planTarget p g, margin := 850 - planTarget p g, shortfall := false, excluded := false }

/-- The Facet threshold for the margin of a slice's bank groups (R559). -/
def facetStart (margin : Int) : Nat := if 30 ≤ margin then 95 else (max 85 (95 - (30 - margin) / 3)).toNat

/-- The trim of a lane from the eyes of the present and the two adjacent settings, in 5 mV steps (R559). -/
def newTrim (old : Int) (eyes : Nat × Nat × Nat) : Int :=
  let (e, lo, hi) := eyes
  let best := max lo hi
  if best < e + 2 then old
  else if hi ≤ lo then max (-8) (old - 1)
  else min 7 (old + 1)

/-- The new plan from what a run measured; a group or lane that was not measured keeps its entry (R558, R559). -/
def State.newPlan (s : State) (m : AnnealMeas) : MarginPlan :=
  let old := s.ann.plan
  let entry (g : Nat) : PlanGroup :=
    match Tab.getD m.slacks g [] with
    | [] => { planGroup old g with excluded := m.excluded.contains g }
    | xs => groupOf (newTarget g xs (Tab.getD m.volts g (s.vTarget g)) (s.paramN 0xD802 0) (s.vTarget g)) (m.excluded.contains g)
  let groups := (List.range 48).map entry
  let slice (h : Nat) : Nat := facetStart (((groups[6 * h + 3]?).map (·.margin)).getD 0)
  { version := 1, runCount := min 65535 (old.runCount + 1), runSec := s.ltbSec % 2 ^ 48, facetTstart := (List.range 8).map slice
    groups := groups
    trims := m.eyes.foldl (fun (t : Tab Int) e => Tab.set t e.1 (newTrim (Tab.getD t e.1 0) e.2)) old.trims
    eyes := m.eyes.foldl (fun (t : Tab Nat) e => Tab.set t e.1 (min 15 e.2.1)) old.eyes }

/-- A raised target reaches the setpoint at once (R560): the sag evaluation keeps the old one until it settles. -/
def raiseTarget (g new : Nat) (s : State) : State :=
  let old := s.vTarget g
  if new ≤ old then s
  else { s with ann := { s.ann with
    vTarget := Tab.set s.ann.vTarget g new
    settling := if (Tab.get? s.ann.settling g).isSome then s.ann.settling
      else Tab.set s.ann.settling g (old, s.clk.now + msT 2) } }

/-- AnnealMarginLow for each group below the limit or in shortfall (R559). -/
def marginLow (p : MarginPlan) (s : State) : State :=
  let low := s.param 0xD803 0
  (List.range 48).foldl (fun s g =>
    let x := planGroup p g
    if x.margin < low || x.shortfall then event 0xE001 [.u 8 g, .i 16 x.margin, .u 1 (flag x.shortfall)] s else s) s

/-- The readings of a run, by monitor and by lane. -/
def readings (m : AnnealMeas) (s : State) : State :=
  let put (t : Tab Int) (e : Nat × List Int) : Tab Int :=
    ((List.range e.2.length).zip e.2).foldl (fun t x => Tab.set t (Config.monitorAt e.1 x.1) x.2) t
  { s with ann := { s.ann with
    slack := m.slacks.foldl put s.ann.slack
    eye := m.eyes.foldl (fun (t : Tab Nat) e => Tab.set t e.1 e.2.1) s.ann.eye } }

/-- ANNEAL_MEASURE_DONE (R558 steps 3 to 5): the new plan, its raised targets, its write; a host write in progress is
waited for (R561). -/
def measureDone (m : AnnealMeas) (s : State) : State :=
  if s.ann.step != 1 then s
  else
    let p := s.newPlan m
    let s := marginLow p (readings m s)
    let s := (List.range 48).foldl (fun s g => raiseTarget g (planGroup p g).vTarget s) s
    annWaiting { s with ann := { s.ann with step := 5, newPlan := some p } }

/-- ANNEAL_MEASURE_DONE (R559). -/
def execAnnealMeasureDone (m : AnnealMeas) (s : State) : Host.Outcome State Fault Refusal := island 104 (measureDone m) s

/-- ANNEAL_TARGET_SETTLE (R560): the measured voltage has reached the new target and the guard, or 2 ms have passed. -/
def execAnnealTargetSettle (group : Nat) (s : State) : Host.Outcome State Fault Refusal :=
  island 174 (fun s => { s with ann := { s.ann with settling := Tab.erase s.ann.settling group } }) s

/-- The group of lowest margin, the lowest-numbered of several. -/
def lowestGroup (p : MarginPlan) : Nat :=
  (List.range 48).foldl (fun b g => if (planGroup p g).margin < (planGroup p b).margin then g else b) 0

/-- The plan as it is stored: its margins saturated (R556, R559). -/
def saturate (p : MarginPlan) : MarginPlan :=
  { p with groups := p.groups.map fun x => { x with margin := clampI (-128) 127 x.margin } }

/-- ANNEAL_PLAN_WRITTEN (R558 steps 6 and 7): lowered targets and changed thresholds apply, AnnealDone is reported. -/
def planWritten (s : State) : State :=
  match s.ann.newPlan with
  | none => s
  | some p =>
    if s.ann.step != 6 then s
    else
      let g := lowestGroup p
      let q := s.ann.cmd
      let targets : Tab Nat := (List.range 48).map fun g => (g, (planGroup p g).vTarget)
      let s := { s with ann := { s.ann with
        step := 0, cmd := none, newPlan := none, last := 1, plan := saturate p, vTarget := targets
        nextRun := s.ltbSec + 86400 * s.paramN 0xD800 0 } }
      let s := event 0xE000 [.i 16 (planGroup p g).margin, .u 8 g, .u 16 p.version, .u 16 p.runCount] s
      completeOpt q 0xE00B .ok s

/-- ANNEAL_PLAN_WRITTEN (R558). -/
def execAnnealPlanWritten (s : State) : Host.Outcome State Fault Refusal := island 104 planWritten s

/-! ### Commands (R563) -/

/-- ANNEAL_STATUS (R563). -/
def execAnnealStatus (q : Req) (s : State) : Host.Outcome State Fault Refusal :=
  kilak q 0xE00C (fun s => doneWith [.u 64 (flag (s.ann.step != 0)), .u 64 s.ann.step, .u 64 s.ann.last, .u 48 s.ann.nextRun,
    .i 8 (clampI (-128) 127 (planGroup s.ann.plan (lowestGroup s.ann.plan)).margin)] s) s

/-- ANNEAL_PLAN_READ (R556, R563). -/
def execAnnealPlanRead (q : Req) (s : State) : Host.Outcome State Fault Refusal :=
  kilak q 0xE00D (fun s => doneWith [.lst 1 (planOctets s.ann.plan)] s) s

/-- MONITOR_READ (R563): a path-delay monitor of a hub, or the eye monitor of a receive lane. -/
def execMonitorRead (q : Req) (lane : Bool) (hub idx : Nat) (s : State) : Host.Outcome State Fault Refusal :=
  kilak q 0xE00E (fun s =>
    if lane then (if 768 ≤ idx then deny .badArg s else doneWith [.u 64 (Tab.getD s.ann.eye idx 0)] s)
    else if 8 ≤ hub || 148 ≤ idx then deny .badArg s
    else doneWith [.i 64 (Tab.getD s.ann.slack (hub * 148 + idx) 0)] s) s

end Sys2Proof.Machine
end

