-- ==== Sys2Proof/Machine/Cipher.lean ====
section
/-! DEFINITION. Key commands, key exchange messages, the Key Engine and its statistics (R358 to R390). -/

namespace Sys2Proof.Machine

/-! ### Key commands -/

/-- ONU_MASTER_KEY_SET (R361): in OPERATION an exchange becomes due (R360). -/
def execOnuMasterKeySet (q : Req) (h msk mk : Nat) (s : State) : Host.Outcome State Fault Refusal :=
  kilak q 0xA000 (withOnu h fun o s =>
    let s := onKeyOnu h (fun k => { k with sessionKey := some (msk % 2 ^ 128), masterKey := some (mk % 2 ^ 256) }) s
    done (if o.state == .operation then dueExchange h s else s)) s

/-- ONU_REKEY (R360). -/
def execOnuRekey (q : Req) (h : Nat) (s : State) : Host.Outcome State Fault Refusal :=
  kilak q 0xA001 (withOnu h fun o s =>
    if o.state != .operation then deny .badState s
    else if (s.keyOnu h).exch.isSome then deny .busy s
    else done (dueExchange h s)) s

/-- KEY_STATUS (R359): an ONU's contexts, downstream slots first, or a channel pair's. -/
def execKeyStatus (q : Req) (isOnu : Bool) (idx : Nat) (s : State) : Host.Outcome State Fault Refusal :=
  kilak q 0xA002 (fun s =>
    if isOnu then
      withOnu idx (fun _ s => doneWith [.lst 16 ([0, 1].flatMap fun d => [0, 1].map fun k => (s.keyCtx idx d k).word)] s) s
    else if 512 ≤ idx then deny .badArg s
    else doneWith [.lst 16 ([0, 1].map fun k => (s.bcastCtx idx k).word)] s) s

/-- BROADCAST_KEY_SET (R373). -/
def execBroadcastKeySet (q : Req) (g slot key actSfc : Nat) (s : State) : Host.Outcome State Fault Refusal :=
  kilak q 0xA003 (fun s =>
    if 512 ≤ g || 2 ≤ slot then deny .badArg s
    else if (s.bcastCtx g slot).st != .empty then deny .busy s
    else if actSfc < s.clk.sfc + 8 then deny .limit s
    else done (setBcast g slot { st := .ready, key := key % 2 ^ 256, at_ := actSfc } s)) s

/-- The index a cipher parameter has at a scope, or none where the scope does not take it (R389). -/
def cipherIdx (sc : Scope) (pid : Nat) : Option Nat :=
  match sc with
  | .tree t => if pid == 0xA000 && decide (t < 64) then some t else none
  | .device => if [0xA010, 0xA011, 0xA012, 0xA013].contains pid then some 0 else none
  | .chan _ => none

/-- A value lies in the range of its PID. -/
def cipherInRange (pid : Nat) (v : Int) : Bool :=
  match pidDesc? pid with
  | some d => decide (d.min ≤ v ∧ v ≤ d.max)
  | none => false

/-- CIPHER_PARAM_SET (R389): cipher.rec_allowed at a tree, the others at the device. -/
def execCipherParamSet (q : Req) (scope : Scope) (vals : List (Nat × Int)) (s : State) : Host.Outcome State Fault Refusal :=
  kilak q 0xA004 (fun s =>
    if vals.any fun v => (cipherIdx scope v.1).isNone then deny .badArg s
    else if vals.any fun v => !cipherInRange v.1 v.2 then deny .limit s
    else done (vals.foldl (fun s v => setParam v.1 ((cipherIdx scope v.1).getD 0) v.2 s) s)) s

/-! ### Key_Report and the exchange's timers -/

/-- The message is a Key_Control. -/
def isKeyControl : PlMsg → Bool
  | .keyControl .. => true
  | _ => false

/-- A Key_Report answers the Key_Control that is outstanding (R123). -/
def keyAnswered (hd : UsHead) (h : Nat) (o : Onu) (s : State) : State :=
  if o.answers hd s.clk.sfc isKeyControl then plAnswered h s else s

/-- KEY_REPORT (R361, R363): a fragment of a GCM ONU's wrapped key, or a REC ONU's report. -/
def keyReport (hd : UsHead) (slot frag : Nat) (octets : List Nat) (s : State) : State :=
  fromOnu hd (fun h o s =>
    match (s.keyOnu h).exch with
    | none => bump .ploamStale hd.g s
    | some e =>
      if e.slot != slot || (s.keyCtx h 0 slot).st != .pending then bump .ploamStale hd.g s
      else
        let s := keyAnswered hd h o s
        let k := s.keyOnu h
        if k.isRec then keyInstall h slot (Config.recKey k.mskOr octets) s
        else
          let had := e.frag0.isSome && e.frag1.isSome
          let e := if frag = 0 then { e with frag0 := some (octets.take 32) } else { e with frag1 := some (octets.take 8) }
          let e := { e with until_ := some (e.until_.getD (s.clk.sfc + 16)) }
          let s := onKeyOnu h (fun k => { k with exch := some e }) s
          match e.frag0, e.frag1 with
          | some a, some b => if had then s else keQueue (.report h slot (beNat (a ++ b) 0)) s
          | _, _ => s) s

/-- KEY_REPORT (R361). -/
def execKeyReport (hd : UsHead) (slot frag : Nat) (octets : List Nat) (s : State) : Host.Outcome State Fault Refusal :=
  usPloam (.keyReport hd slot frag octets) (keyReport hd slot frag octets) s

/-- REKEY_INTERVAL (R360): the interval after the last successful exchange has passed. -/
def execRekeyInterval (h : Nat) (s : State) : Host.Outcome State Fault Refusal :=
  island 104 (fun s =>
    let k := s.keyOnu h
    if s.due k.rekeyAt && k.exch.isNone then dueExchange h (onKeyOnu h (fun k => { k with rekeyAt := none }) s) else s) s

/-- REKEY_RETRY (R363). -/
def execRekeyRetry (h : Nat) (s : State) : Host.Outcome State Fault Refusal :=
  island 104 (fun s =>
    let k := s.keyOnu h
    if s.due k.retryAt && k.exch.isNone then dueExchange h (onKeyOnu h (fun k => { k with retryAt := none }) s) else s) s

/-- KEY_FRAGMENT_TIMEOUT (R363): a fragment did not arrive within 16 superframes of the other. -/
def execKeyFragmentTimeout (h : Nat) (s : State) : Host.Outcome State Fault Refusal :=
  island 104 (fun s =>
    match (s.keyOnu h).exch with
    | some e =>
      match e.until_ with
      | some u => if (e.frag0.isNone || e.frag1.isNone) && decide (u < s.clk.sfc) then keyFail h s else s
      | none => s
    | none => s) s

/-- KEY_RETIRE (R359): a RETIRING slot becomes EMPTY, and an exchange that waited for it starts (R360). Direction 2 names
the broadcast contexts of channel pair h. -/
def keyRetire (h dir slot : Nat) (s : State) : State :=
  if dir = 2 then
    let k := s.bcastCtx h slot
    if k.st == .retiring && decide (k.till ≤ s.clk.sfc) then setBcast h slot {} s else s
  else
    let k := s.keyCtx h dir slot
    if k.st == .retiring && decide (k.till ≤ s.clk.sfc) then tryExchange h (setKey h dir slot {} s) else s

/-- KEY_RETIRE (R359). -/
def execKeyRetire (h dir slot : Nat) (s : State) : Host.Outcome State Fault Refusal := island 104 (keyRetire h dir slot) s

/-! ### Host key slots and Key Engine jobs (R376 to R381) -/

/-- A promotion is in progress (R390). -/
def State.promoting (s : State) : Bool := s.prot.grp.any fun e => e.2.st == .promoting

/-- A slot that a command may write: 0 to 15, and not 15 during a promotion. -/
def State.hkOk (s : State) (slot : Nat) : Bool := decide (slot < 16) && !(slot == 15 && s.promoting)

/-- A host key slot's key; an empty slot holds zeros (R378). -/
def State.hkKey (s : State) (slot : Nat) : Nat := Tab.getD s.cip.hk slot 0

/-- KE_KEY_LOAD (R378). -/
def execKeKeyLoad (q : Req) (slot key : Nat) (s : State) : Host.Outcome State Fault Refusal :=
  kilak q 0xA005 (fun s =>
    if !s.hkOk slot then deny .badArg s
    else done { s with cip := { s.cip with hk := Tab.set s.cip.hk slot (key % 2 ^ 256) } }) s

/-- KE_KEY_UNWRAP (R378): waits for the Key Engine. -/
def execKeKeyUnwrap (q : Req) (kek slot wrapped : Nat) (s : State) : Host.Outcome State Fault Refusal :=
  kilak q 0xA006 (fun s =>
    if !s.hkOk slot || 16 ≤ kek then deny .badArg s else waits (keQueue (.unwrap q kek slot (wrapped % 2 ^ 320)) s)) s

/-- KE_KEY_CLEAR (R378): the slot is zeroised. -/
def execKeKeyClear (q : Req) (slot : Nat) (s : State) : Host.Outcome State Fault Refusal :=
  kilak q 0xA007 (fun s =>
    if !s.hkOk slot then deny .badArg s else done { s with cip := { s.cip with hk := Tab.erase s.cip.hk slot } }) s

/-- KeEncrypt and KeDecrypt: mode 0 GCM, 1 GMAC; the source's first aadLen octets are the additional data. -/
def keCrypt (q : Req) (enc : Bool) (slot mode iv aadLen : Nat) (src : List Nat) (dst len tag : Nat) (s : State) :
    State × Option Reply :=
  if 16 ≤ slot || 2 ≤ mode || len < aadLen || src.length != len then deny .badArg s
  else if 16777216 < len then deny .limit s
  else waits (keQueue (.crypt q enc slot mode (iv % 2 ^ 96) aadLen (src.map (· % 256)) dst tag) s)

/-- KE_ENCRYPT (R381). -/
def execKeEncrypt (q : Req) (slot mode iv aadLen : Nat) (src : List Nat) (dst len : Nat) (s : State) :
    Host.Outcome State Fault Refusal :=
  kilak q 0xA008 (keCrypt q true slot mode iv aadLen src dst len 0) s

/-- KE_DECRYPT (R381). -/
def execKeDecrypt (q : Req) (slot mode iv aadLen : Nat) (src : List Nat) (dst len tag : Nat) (s : State) :
    Host.Outcome State Fault Refusal :=
  kilak q 0xA009 (keCrypt q false slot mode iv aadLen src dst len tag) s

/-- The KE_LOCK register (R377). -/
def KeLock.word (k : KeLock) : Nat :=
  fields [(1, flag (k.owner != 0)), (2, k.owner), (1, flag k.waitLoader), (1, flag k.waitAmp), (1, flag k.waitBexed), (10, 0),
    (16, k.grants)]

/-- KE_STATUS (R377): KE_LOCK and whether the generator gives numbers. -/
def execKeStatus (q : Req) (s : State) : Host.Outcome State Fault Refusal :=
  kilak q 0xA00A (fun s => doneWith [.rcd 32 s.cip.ke.word, .u 64 (flag (!s.cip.rngFailed))] s) s

/-- The free engine is granted: option loader, then Ampoule, then Bexed (R377). -/
def keGrant (s : State) : State :=
  let k := s.cip.ke
  let give (o : Nat) (k : KeLock) : State := { s with cip := { s.cip with ke := { k with
    owner := o, grants := (k.grants + 1) % 65536 } } }
  if k.owner != 0 then s
  else if k.waitLoader then give 3 { k with waitLoader := false }
  else if k.waitAmp then give 2 { k with waitAmp := false }
  else if k.waitBexed then give 1 { k with waitBexed := false }
  else s

/-- KE_LOCK_GRANT (R377). -/
def execKeLockGrant (s : State) : Host.Outcome State Fault Refusal := island 177 keGrant s

/-- An ONU's wrapped key is unwrapped and installed, or the exchange fails (R361, R363). -/
def keReportDone (h slot wrapped : Nat) (s : State) : State :=
  match (s.keyOnu h).exch, Tab.get? s.onu.ctx h with
  | some e, some o =>
    if e.slot != slot then s
    else
      match keyUnwrap (kekG (s.keyOnu h).mkOr o.serial) wrapped with
      | some key => keyInstall h slot (key % 2 ^ 256) s
      | none => keyFail h (bump .keyUnwrapFail h s)
  | _, _ => s

/-- A GCM or GMAC job done (R381): the tag of an encryption; a decryption whose tag fails writes zeros. -/
def keCryptDone (q : Req) (enc : Bool) (slot mode iv aadLen : Nat) (src : List Nat) (dst tag : Nat) (s : State) : State :=
  let key := s.hkKey slot
  let aad := src.take aadLen
  let body := src.drop aadLen
  let out := if mode = 0 then gcmText key iv body else []
  let t := if mode = 0 then gcmTag key iv aad (if enc then out else body) else gcmTag key iv src []
  let put (os : List Nat) (s : State) : State := { s with cip := { s.cip with keOut := some (dst, os) } }
  let s := bump .keJobs 0 s
  if enc then complete q 0xA008 (.vals [.rcd 128 t]) (put out s)
  else if t = tag % 2 ^ 128 then complete q 0xA009 .ok (put out s)
  else complete q 0xA009 (.err .authFail) (bump .keAuthFail 0 (put (List.replicate out.length 0) s))

/-- A wrapped key unwrapped into a host key slot (R378), or AUTH_FAIL. -/
def keUnwrapDone (q : Req) (slot : Nat) (key : Option Nat) (s : State) : State :=
  match key with
  | some k => complete q 0xA006 .ok { s with cip := { s.cip with hk := Tab.set s.cip.hk slot (k % 2 ^ 256) } }
  | none => complete q 0xA006 (.err .authFail) s

/-- What a job of Bexed does when it ends. -/
def keJobDone (j : KeJob) (s : State) : State :=
  match j with
  | .report h slot w => keReportDone h slot w s
  | .unwrap q kek slot w => keUnwrapDone q slot (keyUnwrap (s.hkKey kek) w) s
  | .image q dest img => imageDone q dest img s
  | .crypt q enc slot mode iv a src dst tag => keCryptDone q enc slot mode iv a src dst tag s

/-- Octets of a segment of Bexed's jobs (R377). -/
def keSegment : Nat := 65536

/-- A segment that is not the job's last has ended and another master waits (R377). -/
def KeLock.yields (k : KeLock) (j : KeJob) : Bool :=
  (k.waitLoader || k.waitAmp) && match j with
    | .crypt _ _ _ _ _ _ src _ _ => decide (keSegment * (k.seg + 1) < src.length)
    | .image _ _ img => decide (keSegment * (k.seg + 1) < img.length)
    | _ => false

/-- The text that a job has written into host memory so far, after its first n octets (R381): GCM writes plaintext or ciphertext as
it goes; GMAC and other jobs write none. -/
def State.keSoFar (s : State) (j : KeJob) (n : Nat) : Option (Nat × List Nat) :=
  match j with
  | .crypt _ _ slot 0 iv a src dst _ => some (dst, gcmText (s.hkKey slot) iv ((src.take n).drop a))
  | _ => none

/-- KE_JOB_DONE (R376, R377): the holder's job or segment ends, and it releases the engine, which is zeroised; the option loader
releases it when it commits (R520). Ampoule's job draws its
run_id (R435). -/
def keDone (s : State) : State :=
  let k := s.cip.ke
  let free (js : List KeJob) (s : State) : State := { s with cip := { s.cip with ke := { s.cip.ke with
    owner := 0, jobs := js, waitBexed := !js.isEmpty, seg := 0 } } }
  if k.owner = 0 || k.owner = 3 then s
  else if k.owner = 1 then
    match k.jobs with
    | [] => free [] s
    | j :: js =>
      if k.yields j then { s with cip := { s.cip with
        keOut := (s.keSoFar j (keSegment * (k.seg + 1))) <|> s.cip.keOut
        ke := { k with owner := 0, waitBexed := true, seg := k.seg + 1 } } }
      else keJobDone j (free js s)
  else
    let s1 := { s with cip := { s.cip with ke := { k with owner := 0 } } }
    if k.owner = 2 && s.amp.drawing then
      if s.cip.rngFailed then { s1 with amp := { s1.amp with drawing := false, runId := 0, rngFail := true } }
      else drawnKe { s1 with amp := { s1.amp with drawing := false, runId := s1.randomVal 64 } }
    else s1

/-- KE_JOB_DONE (R376). -/
def execKeJobDone (s : State) : Host.Outcome State Fault Refusal := island 177 keDone s

/-- RNG_FAIL (R382): nothing more is drawn until the next power-on reset. -/
def execRngFail (s : State) : Host.Outcome State Fault Refusal :=
  island 177 (fun s =>
    if s.cip.rngFailed then s
    else raiseFault 177 8 0 (bump .rngFail 0 { s with cip := { s.cip with rngFailed := true } })) s

/-! ### Statistics -/

/-- CIPHER_STATS (R388): of an ONU handle (kind 0), a channel pair (1) or the device (2). -/
def execCipherStats (q : Req) (kind idx : Nat) (s : State) : Host.Outcome State Fault Refusal :=
  kilak q 0xA00E (fun s =>
    let c (x : Ctr) (i : Nat) : RVal := .u 64 (s.count x i)
    if kind = 0 then
      if 32768 ≤ idx then deny .badArg s
      else doneWith ([c .keyExchanges idx, c .keyExchFail idx, c .keyUnwrapFail idx, c .keySwitches idx, c .keyRepeat idx,
        c .gemAuthFail idx, c .reasmTimeout idx, c .holdToQuarantine idx] ++
        [0x40, 0x41, 0x42, 0x43, 0x44, 0x45].map fun d => c .dropOnu (256 * idx + d)) s
    else if kind = 1 then
      if 512 ≤ idx then deny .badArg s
      else doneWith ([c .keyRepeatG idx] ++ [0x40, 0x41, 0x42, 0x43, 0x44, 0x45].map fun d => c .dropChan (256 * idx + d)) s
    else if kind = 2 then doneWith [c .keJobs 0, c .keAuthFail 0, c .rngFail 0] s
    else deny .badArg s) s

end Sys2Proof.Machine
end

