-- ==== Sys2Proof/Machine/Decrypt.lean ====
section
/-! DEFINITION. Upstream line decryption with hold, quarantine and reassembly (R309 to R311, R356, R357, R370 to R372,
R499). -/

namespace Sys2Proof.Machine

/-- The slice of channel pair g. -/
def sliceOf (g : Nat) : Nat := g / 64

/-- A slice's decryptor: what it holds, oldest first. -/
def State.hold (s : State) (sl : Nat) : List HoldItem := Tab.getD s.cip.dec sl []

/-- A slice's decryptor changed. -/
def onHold (sl : Nat) (f : List HoldItem → List HoldItem) (s : State) : State :=
  { s with cip := { s.cip with dec := Tab.upd s.cip.dec sl [] f } }

/-- The key of an SDU in reassembly. -/
def sduKey (h gem : Nat) : Nat := h * 2 ^ 18 + gem

/-- SDUs in reassembly changed. -/
def onReasm (f : Tab Reasm → Tab Reasm) (s : State) : State := { s with cip := { s.cip with reasm := f s.cip.reasm } }

/-- Upstream pipeline of a slice; the block of its ingress half. -/
def upPipe (sl : Nat) : Nat := 2 * sl + 1

/-! ### Quarantine (R309 to R311) -/

/-- Cells in a slice's quarantine. -/
def State.quarCells (s : State) (sl : Nat) : Nat :=
  (s.pool.cells.filter fun e => e.2.st == 2 && e.2.owner == upPipe sl).length

/-- The chain header of an upstream frame of ONU h. -/
def upHdr (h len : Nat) : ChainHdr :=
  { len := len, cells := cellsOf len, dir := 1, srcKind := 0, source := h, srcHost := false, dest := none, queue := 0, enqNs := 0 }

/-- An upstream frame of n bytes is dropped under a code where its reason counts (R324, R387). -/
def dropUp (sl h code n : Nat) (s : State) : State :=
  let at_ : Ctr × Nat :=
    if code = 0x23 then (.dropPipe, upPipe sl) else if code = 0x21 || code = 0x22 then (.dropReq, upPipe sl) else (.dropOnu, h)
  bump at_.1 (256 * at_.2 + code) (onuBytesOut h 1 n s)

/-- A quarantine chain for a frame; or it is dropped, with POOL_OVERSIZE, QUARANTINE_FULL or a pool reason. -/
def quarantine (sl h : Nat) (os : List Nat) (s : State) : Except Nat Nat × State :=
  let n := os.length
  if maxPacket < n then (.error 0x20, dropUp sl h 0x20 n s)
  else if s.paramN 0x8030 0 < s.quarCells sl + cellsOf n then (.error 0x23, dropUp sl h 0x23 n s)
  else
    match allocChain (upPipe sl) 2 (32 + sl) (upHdr h n) os s with
    | (.ok c, s) => (.ok c, bump .quarFrames (upPipe sl) (bump .holdToQuarantine h s))
    | (.error e, s) => (.error e, dropUp sl h e n s)

/-- A quarantine chain ends without release. -/
def quarFree (sl : Nat) (c : Option Nat) (s : State) : State :=
  match c with
  | some c => bump .quarFreed (upPipe sl) (freeChain c s)
  | none => s

/-- A quarantine chain takes the octets of an SDU, more than its own, with further cells; else the reason of the drop. -/
def growChain (sl cell : Nat) (os : List Nat) (s : State) : Option Nat × State :=
  match s.chain cell with
  | none => (some 0x23, s)
  | some c =>
    let n := os.length
    let more := cellsOf n - c.cells.length
    if maxPacket < n then (some 0x20, s)
    else if s.paramN 0x8030 0 < s.quarCells sl + more then (some 0x23, s)
    else
      match allocCells (upPipe sl) 2 more [] s with
      | (.error e, s) => (some e, s)
      | (.ok cs, s) =>
        let cells := c.cells ++ cs
        let x : Chain := { c with cells := cells, octets := os, hdr := { c.hdr with len := n, cells := cells.length } }
        (none, onPool (fun p => { p with
          cells := linkCells (32 + sl) cells true p.cells
          chains := Tab.set p.chains cell x }) s)

/-! ### Arrival (R356, R357, R370) -/

/-- The slot a key index names: 0b01 slot 0, 0b10 slot 1. -/
def keySlotOf (ki : Nat) : Option Nat := if ki = 1 then some 0 else if ki = 2 then some 1 else none

/-- The state accepts upstream frames (R359). -/
def slotAccepts (k : KeySt) : Bool := k == .ready || k == .current || k == .retiring

/-- What becomes of a frame by its GEM port and key index: dropped with a code, or taken under a slot. -/
def State.frameKey (s : State) (g h gem ki : Nat) : Except Nat (Option Nat) :=
  let slot := (keySlotOf ki).filter fun k => slotAccepts (s.keyCtx h 1 k).st
  if s.param 0xA020 gem == 1 then
    if (s.keyOnu h).isRec && s.param 0xA000 (g / 8) == 0 then .error 0x44
    else if ki = 0 then .error 0x43
    else
      match slot with
      | some k => .ok (some k)
      | none => .error 0x41
  else if ki = 0 then .ok none
  else
    match slot with
    | some k => .ok (some k)
    | none => .error 0x41

/-- An item of the decryptor waits for a tag, or holds its place in a hold slot. -/
def HoldItem.inSlot (x : HoldItem) : Bool := x.slot.isSome && x.chain.isNone

/-- Hold slots in use (R370, R372): frames and gathering SDUs. -/
def State.slotsUsed (s : State) (sl : Nat) : Nat :=
  ((s.hold sl).filter HoldItem.inSlot).length
    + (s.cip.reasm.filter fun e => e.2.chain.isNone
        && (((Tab.get? s.onu.ctx (e.1 / 2 ^ 18)).map fun o => sliceOf o.g) == some sl)).length

/-- The SDU of a frame has fragments before it that are not released. -/
def State.hasFragments (s : State) (sl h gem : Nat) : Bool :=
  (Tab.get? s.cip.reasm (sduKey h gem)).isSome || (s.hold sl).any fun x => x.h == h && x.gem == gem && !x.last

/-- A fragment was dropped under a code: what has gathered of its SDU is dropped with it, and what is still to come (R372, R387). -/
def spoilSdu (sl h gem code till : Nat) (last : Bool) (s : State) : State :=
  let key := sduKey h gem
  let bad : Reasm := { octets := [], till := till, bad := true, code := code, chain := none, at_ := s.ltbNow }
  match Tab.get? s.cip.reasm key with
  | some r =>
    if r.bad then s
    else
      onReasm (fun t => Tab.set t key { bad with till := r.till })
        (if r.octets.isEmpty then quarFree sl r.chain s else dropUp sl h code r.octets.length (quarFree sl r.chain s))
  | none => if last && !s.hasFragments sl h gem then s else onReasm (fun t => Tab.set t key bad) s

/-- A GCM message as received under a slot (R365, R366): its plaintext, whether its tag agrees, and the context after it. -/
def KeyCtx.openGcm (k : KeyCtx) (onuId n : Nat) (header os : List Nat) : List Nat × Bool × KeyCtx :=
  let p := os.length - 16
  let (k2, b) := k.follow n p
  let iv := ivWord 1 false onuId n b
  let ct := os.take p
  (gcmText k.key iv ct, os.length = 16 + p && gcmTag k.key iv header ct == beNat (os.drop p) 0, k2)

/-- A delineated frame of ONU h on channel pair g, of a burst that the map of superframe n granted, reaches the decryptor
(R206, R370). -/
def decryptArrive (g h n : Nat) (f : GemFrame) (s : State) : State :=
  let sl := sliceOf g
  let till := s.clk.now + msT (s.paramN 0xA030 0)
  match s.frameKey g h f.gem f.keyIndex with
  | .error code =>
    let s := onuBytesIn h 1 f.octets.length s
    spoilSdu sl h f.gem code till f.last (dropOnu h 1 code f.octets.length s)
  | .ok slot =>
    let item : HoldItem := { h := h, g := g, gem := f.gem, slot := none, octets := f.octets, last := f.last,
                             verdict := some true, chain := none, at_ := s.ltbNow, till := till }
    match slot with
    | none => onHold sl (· ++ [item]) (onuBytesIn h 1 f.octets.length s)
    | some k =>
      let c := s.keyCtx h 1 k
      if (s.keyOnu h).isRec then
        let s := setKey h 1 k (c.seen n) (onuBytesIn h 1 f.octets.length s)
        let s := if c.st == .ready then keySwitch h 1 k s else s
        onHold sl (· ++ [{ item with octets := Config.recCipher c.key n f.header f.octets }]) s
      else
        let id := ((Tab.get? s.onu.ctx h).bind (·.onuId)).getD 0
        let (os, good, c2) := c.openGcm id n f.header f.octets
        let s := setKey h 1 k c2 (onuBytesIn h 1 os.length s)
        let item := { item with slot := some k, octets := os, verdict := none, good := good }
        if os.length ≤ 2048 && s.slotsUsed sl < 256 then onHold sl (· ++ [item]) s
        else
          match quarantine sl h os s with
          | (.ok c, s) => onHold sl (· ++ [{ item with chain := some c }]) s
          | (.error code, s) => spoilSdu sl h f.gem code till f.last s

/-- A delineated frame enters the delineation input buffer, or finds it full (R17): dropped and counted for its channel pair. -/
def frameArrive (g h n : Nat) (f : GemFrame) (s : State) : State :=
  if f.bufFull then
    let b := f.octets.length
    let till := s.clk.now + msT (s.paramN 0xA030 0)
    spoilSdu (sliceOf g) h f.gem 0x10 till f.last (dropOnu h 1 0x10 b (onuBytesIn h 1 b (bump .pipeOverrun (256 + g) s)))
  else decryptArrive g h n f s

/-! ### Verification and release (R370 to R372) -/

/-- The first item without a verdict takes its own. -/
def setVerdict : List HoldItem → Option HoldItem × List HoldItem
  | [] => (none, [])
  | x :: xs =>
    if x.verdict.isNone then (some x, { x with verdict := some x.good } :: xs)
    else
      let (r, ys) := setVerdict xs
      (r, x :: ys)

/-- A failed tag (R372): the event at most once a second for an ONU. -/
def authFailed (h : Nat) (s : State) : State :=
  let s := bump .gemAuthFail h s
  let quiet := match (s.keyOnu h).authAt with
    | some t => decide (s.clk.now < t + secT 1)
    | none => false
  if quiet then s else event 0xA001 [.u 15 h] (onKeyOnu h (fun k => { k with authAt := some s.clk.now }) s)

/-- DECRYPT_VERIFY (R362, R370, R372): so many clocks after the last octet of the oldest frame whose tag result is not known, which
is known after 48; the first verified frame under a READY slot makes it CURRENT. -/
def decryptVerify (sl clocks : Nat) (s : State) : State :=
  if clocks < 48 then s
  else
    match setVerdict (s.hold sl) with
    | (none, _) => s
    | (some x, l) =>
      let s := onHold sl (fun _ => l) s
      if x.good then
        match x.slot with
        | some k => if (s.keyCtx x.h 1 k).st == .ready then keySwitch x.h 1 k s else s
        | none => s
      else authFailed x.h s

/-- DECRYPT_VERIFY (R370). -/
def execDecryptVerify (slice clocks : Nat) (s : State) : Host.Outcome State Fault Refusal :=
  island (inBlk (upPipe slice)) (decryptVerify slice clocks) s

/-- A whole SDU leaves the decryptor (R371, R499): an OMCI frame is punted, any other is a new arrival at the parser. Its
chain, if it was in quarantine, is released in place. -/
def releaseSdu (sl h g gem at_ : Nat) (os : List Nat) (chain : Option Nat) (s : State) : State :=
  let k := upPipe sl
  let p : Pkt := { dir := 1, srcKind := 0, source := h, g := g, gem := gem, octets := os, at_ := at_, chain := chain }
  let s := match chain with
    | some c => bump .quarReleased k (handOver c k 1 s)
    | none => s
  if gem = Config.omciGem h then
    match takeIn k p s with
    | (some p, s) => puntPkt k p 0x87 s
    | (none, s) => s
  else onCls (fun c => { c with inq := Tab.upd c.inq k [] (· ++ [p]) }) s

/-- The SDU that a fragment begins. -/
def HoldItem.sdu (x : HoldItem) : Reasm := { octets := [], till := x.till, bad := false, chain := none, at_ := x.at_ }

/-- A fragment joins its SDU (R310, R372): in a hold slot while it fits and one is free, else in a quarantine chain, that of the SDU
or of the fragment, which goes on in place. -/
def gather (sl : Nat) (x : HoldItem) (s : State) : State :=
  let key := sduKey x.h x.gem
  let r := Tab.getD s.cip.reasm key x.sdu
  let all := r.octets ++ x.octets
  let keep (c : Option Nat) (s : State) : State := onReasm (fun t => Tab.set t key { r with octets := all, chain := c }) s
  let spoil (code : Nat) (s : State) : State :=
    onReasm (fun t => Tab.set t key { r with octets := [], bad := true, code := code, chain := none }) s
  let grow (c : Nat) (s : State) : State :=
    match growChain sl c all s with
    | (none, s) => keep (some c) s
    | (some code, s) => spoil code (dropUp sl x.h code all.length (quarFree sl (some c) s))
  match r.chain, x.chain with
  | some c, _ => grow c (quarFree sl x.chain s)
  | none, some c =>
    if r.octets.isEmpty then keep (some c) s
    else if all.length ≤ 2048 then keep none (quarFree sl (some c) s)
    else grow c s
  | none, none =>
    if all.length ≤ 2048 && (!r.octets.isEmpty || s.slotsUsed sl < 256) then keep none s
    else
      match quarantine sl x.h all s with
      | (.ok c, s) => keep (some c) s
      | (.error code, s) => spoil code s

/-- A frame or fragment that verified: of a spoiled SDU it is dropped as the rest was. -/
def releaseGood (sl : Nat) (x : HoldItem) (s : State) : State :=
  match Tab.get? s.cip.reasm (sduKey x.h x.gem) with
  | none =>
    if x.last then releaseSdu sl x.h x.g x.gem x.at_ x.octets x.chain s else gather sl x s
  | some r =>
    if r.bad then
      let s := dropUp sl x.h r.code x.octets.length (quarFree sl x.chain s)
      if x.last then onReasm (fun t => Tab.erase t (sduKey x.h x.gem)) s else s
    else
      let s := gather sl x s
      match x.last, Tab.get? s.cip.reasm (sduKey x.h x.gem) with
      | true, some r =>
        let s := onReasm (fun t => Tab.erase t (sduKey x.h x.gem)) s
        if r.bad then s else releaseSdu sl x.h x.g x.gem r.at_ r.octets r.chain s
      | _, _ => s

/-- A frame or fragment that failed: it and the fragments gathered are dropped with AUTH_TAG_FAIL. -/
def releaseBad (sl : Nat) (x : HoldItem) (s : State) : State :=
  let s := spoilSdu sl x.h x.gem 0x40 x.till x.last (dropOnu x.h 1 0x40 x.octets.length (quarFree sl x.chain s))
  if x.last then onReasm (fun t => Tab.erase t (sduKey x.h x.gem)) s else s

/-- DECRYPT_RELEASE (R371): the oldest item leaves once it has its verdict. -/
def decryptRelease (sl : Nat) (s : State) : State :=
  match s.hold sl with
  | [] => s
  | x :: rest =>
    match x.verdict with
    | none => s
    | some true => releaseGood sl x (onHold sl (fun _ => rest) s)
    | some false => releaseBad sl x (onHold sl (fun _ => rest) s)

/-- DECRYPT_RELEASE (R371). -/
def execDecryptRelease (slice : Nat) (s : State) : Host.Outcome State Fault Refusal :=
  island (inBlk (upPipe slice)) (decryptRelease slice) s

/-- REASM_TIMEOUT (R372): the SDU is dropped, and so is what still comes of it. -/
def reasmTimeout (sl h gem : Nat) (s : State) : State :=
  match Tab.get? s.cip.reasm (sduKey h gem) with
  | none => s
  | some r => if r.bad || s.clk.now < r.till then s else bump .reasmTimeout h (spoilSdu sl h gem 0x45 r.till false s)

/-- REASM_TIMEOUT (R372). -/
def execReasmTimeout (slice h gem : Nat) (s : State) : Host.Outcome State Fault Refusal :=
  island (inBlk (upPipe slice)) (reasmTimeout slice h gem) s

end Sys2Proof.Machine
end

