-- ==== Sys2Proof/Machine/Em.lean ====
section
/-! DEFINITION. Exact-match commands, learning, ageing, parity (R283 to R294). -/

namespace Sys2Proof.Machine

/-- A command that ends when the write with the last number is complete in every copy (R290). -/
def emAwait (q : Req) (op : Nat) (vals : List Nat) (s : State) : State × Option Reply :=
  if s.emComplete s.em.seq then doneWith (vals.map fun v => .u 64 v) s
  else waits (onEm (fun m => { m with waits := m.waits ++ [{ seq := m.seq, cmd := q, op := op, vals := vals }] }) s)

/-- Reserved bits of a key are 0 (R273). -/
def keyReservedOk (kind key : Nat) : Bool :=
  decide (key < 2 ^ 144) &&
  match kind with
  | 0 => key % 2 ^ 80 == 0
  | 1 => key % 2 ^ 96 == 0
  | 2 => true
  | 3 => key % 2 ^ 24 == 0
  | _ => false

/-- The arguments of TableInsert are well formed. -/
def tableArgsOk (a : TableArgs) : Bool :=
  keyReservedOk a.kind a.key && decide (a.destKind ≤ 1) && decide (a.dest < 2 ^ 17) && decide (a.tc < 8)
    && (if a.noOwner then a.ownerKind == 0 && a.owner == 0
        else a.ownerKind == 0 && decide (a.owner < 32768) || a.ownerKind == 1 && decide (a.owner < 256))

/-- The entry that TableInsert writes. -/
def entryOf (a : TableArgs) : EmEnt :=
  { kind := a.kind, isStatic := a.isStatic, noOwner := a.noOwner, ownerKind := a.ownerKind, owner := a.owner, key := a.key,
    destKind := a.destKind, dest := a.dest, tcValid := a.tcValid, tc := a.tc }

/-- TABLE_INSERT (R279, R290): a key already present is updated in place. -/
def execTableInsert (q : Req) (a : TableArgs) (s : State) : Host.Outcome State Fault Refusal :=
  kilak q 0x7000 (fun s =>
    if !tableArgsOk a then deny .badArg s
    else
      match findKey s.em.tab (s.emBucket a.kind a.key) a.kind a.key with
      | some (p, old) =>
        let s := if old.learned then onOwner (ownerIdx old.ownerKind old.owner) (· - 1) s else s
        emAwait q 0x7000 [p] (emPut p { entryOf a with age := old.age } s)
      | none =>
        match emPlace (entryOf a) s with
        | (some p, s) => emAwait q 0x7000 [p] s
        | (none, s) => (bump .tableFull 0 s, some (.err .limit))) s

/-- TABLE_DELETE (R290). -/
def execTableDelete (q : Req) (kind key : Nat) (s : State) : Host.Outcome State Fault Refusal :=
  kilak q 0x7001 (fun s =>
    match findKey s.em.tab (s.emBucket kind key) kind key with
    | some (p, _) => emAwait q 0x7001 [] (emDelete p s)
    | none => deny .notFound s) s

/-- The hit bits of all copies at a position. -/
def State.hitOr (s : State) (pos : Nat) : Bool :=
  (List.range 8).any fun k => ((Tab.get? (s.emCopy k) pos).map (·.hit)).getD false

/-- TABLE_SEARCH (R290): the slice's copy; it is no lookup and sets no hit. -/
def execTableSearch (q : Req) (kind key slice : Nat) (s : State) : Host.Outcome State Fault Refusal :=
  kilak q 0x7002 (fun s =>
    if 8 ≤ slice then deny .badArg s
    else
      match findKey (s.emCopy slice) (s.emBucket kind key) kind key with
      | some (p, e) => doneWith [.rcd 256 e.word, .u 64 (flag (s.hitOr p)), .u 64 p] s
      | none => deny .notFound s) s

/-- TABLE_WALK_OPEN (R290, R291). -/
def execTableWalkOpen (q : Req) (kindF : Option Nat) (ownerF : Option (Nat × Nat)) (s : State) :
    Host.Outcome State Fault Refusal :=
  kilak q 0x7003 (fun s =>
    match lowestFree (Tab.keys s.em.walk) 0 4 with
    | none => deny .limit s
    | some w =>
      let x : EmWalk := { kindF := kindF, ownerF := ownerF, until_ := s.clk.now + secT (s.paramN 0x7031 0) }
      doneWith [.u 64 w] (onEm (fun m => { m with walk := Tab.set m.walk w x }) s)) s

/-- The walk's filters let an entry through. -/
def EmWalk.takes (w : EmWalk) (e : EmEnt) : Bool :=
  (w.kindF.map (· == e.kind)).getD true && (w.ownerF.map fun o => !e.noOwner && o.1 == e.ownerKind && o.2 == e.owner).getD true

/-- TABLE_NEXT (R290, R291): at most 256 entries from the cursor on in slice 0's copy; END closes the walk. -/
def execTableNext (q : Req) (walk count : Nat) (s : State) : Host.Outcome State Fault Refusal :=
  kilak q 0x7004 (fun s =>
    match Tab.get? s.em.walk walk with
    | none => deny .badState s
    | some w =>
      if 256 < count then deny .badArg s
      else
        let left := (s.emCopy 0).filter fun e => decide (w.cursor ≤ e.1) && w.takes e.2
        let now := left.take count
        let vals : List RVal := [.lst 40 (now.map fun e => e.2.word + e.1 * 2 ^ 256)]
        if left.length ≤ count then (closeWalk walk s, some { code := .ended, res := vals })
        else
          let cur := ((now.getLast?).map (·.1 + 1)).getD w.cursor
          let w := { w with cursor := cur, until_ := s.clk.now + secT (s.paramN 0x7031 0) }
          doneWith vals (onEm (fun m => { m with walk := Tab.set m.walk walk w }) s)) s

/-- TABLE_WALK_CLOSE (R290). -/
def execTableWalkClose (q : Req) (walk : Nat) (s : State) : Host.Outcome State Fault Refusal :=
  kilak q 0x7005 (fun s => done (closeWalk walk s)) s

/-- TABLE_WALK_TIMEOUT (R291). -/
def execTableWalkTimeout (walk : Nat) (s : State) : Host.Outcome State Fault Refusal :=
  island 104 (fun s =>
    match Tab.get? s.em.walk walk with
    | some w => if w.until_ ≤ s.clk.now then closeWalk walk s else s
    | none => s) s

/-- The entries that TableFlushByPort deletes (R292). -/
def flushes (ownerKind owner : Nat) (bd : Option Nat) (includeStatic : Bool) (e : EmEnt) : Bool :=
  !e.noOwner && e.ownerKind == ownerKind && e.owner == owner && (e.learned || includeStatic)
    && (bd.map fun b => e.kind == 0 && e.key / 2 ^ 128 == b).getD true

/-- TABLE_FLUSH_BY_PORT (R292). -/
def execTableFlushByPort (q : Req) (ownerKind owner : Nat) (bd : Option Nat) (includeStatic : Bool) (s : State) :
    Host.Outcome State Fault Refusal :=
  kilak q 0x7006 (fun s =>
    if s.em.flushing.isSome then deny .busy s
    else
      let (n, s) := deleteAll (flushes ownerKind owner bd includeStatic) s.em.tab.length s
      emAwait q 0x7006 [n] (if s.emComplete s.em.seq then s else onEm (fun m => { m with flushing := some m.seq }) s)) s

/-- TABLE_STATS (R290, R294): the counters of R294 in the order of its table, those of a slice or of an owner with the device's;
then the owner's count and the device's of learned entries. -/
def execTableStats (q : Req) (isOwner : Bool) (idx : Nat) (s : State) : Host.Outcome State Fault Refusal :=
  kilak q 0x7007 (fun s =>
    let c (x : Ctr) (i : Nat) : RVal := .u 64 (s.count x i)
    let dev : List RVal := [c .tableFull 0, c .learnFull 0, c .ovfRelocate 0, c .ovfPromote 0, c .promoteDefer 0]
    let age : List RVal := [c .ageOut 0, c .ageRestore 0]
    if isOwner then
      doneWith (dev ++ [Ctr.learnNew, .learnMove, .learnMoveDeny, .learnStatic, .learnLimit].map (c · idx) ++ age
        ++ [.u 64 (Tab.getD s.em.owners idx 0), .u 64 s.learnedTotal]) s
    else
      doneWith ([Ctr.emLookups, .emHits, .emMisses, .emParity, .emRefillMiss].map (c · idx) ++ dev ++ [c .learnQueueFull idx]
        ++ age) s) s

/-- A copy that waits for its refill takes the table of the lowest-numbered other slice as it stands (R293). -/
def refillCopy (sl : Nat) (s : State) : State :=
  match (s.emSlices.filter fun k => k != sl && !s.em.refilling.contains k).head? with
  | some k => onEm (fun m => { m with
      copy := Tab.set m.copy sl (Tab.getD m.copy k []), applied := Tab.set m.applied sl (Tab.getD m.applied k 0)
      refilling := m.refilling.erase sl }) s
  | none => onEm (fun m => { m with refilling := m.refilling.erase sl, applied := Tab.set m.applied sl m.seq,
                                    copy := Tab.set m.copy sl m.tab }) s

/-- TABLE_WRITE_APPLY (R270): the copy applies the next write issued, in order; a copy to be refilled is refilled first. -/
def writeApply (sl : Nat) (s : State) : State :=
  if s.em.refilling.contains sl then emSettle (refillCopy sl s)
  else
    let n := Tab.getD s.em.applied sl 0 + 1
    match Tab.get? s.em.writes n with
    | none => s
    | some op =>
      emSettle (onEm (fun m => { m with copy := Tab.upd m.copy sl [] (EmOp.apply sl · op), applied := Tab.set m.applied sl n }) s)

/-- TABLE_WRITE_APPLY (R270). -/
def execTableWriteApply (slice : Nat) (s : State) : Host.Outcome State Fault Refusal :=
  island (emBlk slice) (writeApply slice) s

/-! ### Learning (R283 to R285) -/

/-- The limit of an owner's learned entries. -/
def State.ownerLimit (s : State) (kind src : Nat) : Nat := if kind = 0 then s.paramN 0x7022 src else s.paramN 0x7024 src

/-- A learn is refused (R285): later packets of that key and source take learn.limit_action. -/
def learnRefused (n : LearnNote) (s : State) : State :=
  bump .learnLimit (ownerIdx n.srcKind n.source) (onEm (fun m => { m with
    refused := if m.refused.contains n then m.refused else m.refused ++ [n] }) s)

/-- The destination learned for a source: [17] dest_kind, [16:0] dest of learn.dest. -/
def State.learnDest (s : State) (kind src : Nat) : Nat × Nat :=
  let v := s.paramN 0x7021 (srcIdx kind src)
  (bits v 17 17, bits v 16 0)

/-- One notification decided against the table as it stands (R284); one that no limit refuses ends the punts of R285. -/
def learn (n : LearnNote) (s : State) : State :=
  let me := ownerIdx n.srcKind n.source
  let room := decide (Tab.getD s.em.owners me 0 + 1 ≤ s.ownerLimit n.srcKind n.source)
  let (dk, d) := s.learnDest n.srcKind n.source
  let okd (s : State) : State := onEm (fun m => { m with refused := m.refused.erase n }) s
  match findKey s.em.tab (s.emBucket 0 n.key) 0 n.key with
  | none =>
    if !room || s.paramN 0x7026 0 < s.learnedTotal + 1 then learnRefused n s
    else
      let s := okd s
      let e : EmEnt := { kind := 0, isStatic := false, ownerKind := n.srcKind, owner := n.source, learned := true, key := n.key,
                         destKind := dk, dest := d }
      match emPlace e s with
      | (some _, s) => bump .learnNew me (onOwner me (· + 1) s)
      | (none, s) => bump .learnFull 0 s
  | some (p, e) =>
    if e.isStatic then bump .learnStatic me (okd s)
    else if !e.learned || (e.ownerKind == n.srcKind && e.owner == n.source) then okd s
    else if e.ownerKind == 0 && s.param 0x7025 n.bd != 1 then bump .learnMoveDeny me (okd s)
    else if !room then learnRefused n s
    else
      let e2 := { e with ownerKind := n.srcKind, owner := n.source, destKind := dk, dest := d }
      bump .learnMove me (onOwner me (· + 1) (onOwner (ownerIdx e.ownerKind e.owner) (· - 1) (emPut p e2 (okd s))))

/-- LEARN_TAKE (R284): the eight queues in turn, one notification at a time. -/
def learnTake (s : State) : State :=
  match ((List.range 8).map fun i => (s.em.turn + i) % 8).find? fun k => !(Tab.getD s.em.learnQ k []).isEmpty with
  | none => s
  | some k =>
    match Tab.getD s.em.learnQ k [] with
    | [] => s
    | n :: rest => learn n (onEm (fun m => { m with learnQ := Tab.set m.learnQ k rest, turn := (k + 1) % 8 }) s)

/-- LEARN_TAKE (R284). -/
def execLearnTake (s : State) : Host.Outcome State Fault Refusal := island 104 learnTake s

/-- The ager's fields of an entry, which the writer sends to every copy (R270). -/
def setAge (pos age : Nat) (clearHit retiring : Bool) (s : State) : State :=
  emWrite (.age pos age clearHit retiring) (onEm (fun m => { m with
    tab := Tab.modify m.tab pos fun e => { e with age := age, hit := !clearHit && e.hit, retiring := retiring } }) s)

/-- The interval of em.age_time ÷ 4 in which the ager sweeps every position once (R287), counted from the first tick
(notes/assumptions/113.md). -/
def State.sweepNo (s : State) : Nat := s.clk.now * 4 / max 1 (secT (s.paramN 0x7030 0))

/-- AGER_SWEEP (R287): one position, once in an interval; an entry idle at age 3 starts to retire (R288 step 1). -/
def agerSweep (pos : Nat) (s : State) : State :=
  if s.param 0x7030 0 == 0 || Tab.get? s.em.swept pos == some s.sweepNo then s
  else
    let s := onEm (fun m => { m with swept := Tab.set m.swept pos s.sweepNo }) s
    match Tab.get? s.em.tab pos with
    | none => s
    | some e =>
      if e.isStatic || e.retiring then s
      else if s.hitOr pos then setAge pos 0 true false s
      else if e.age < 3 then setAge pos (e.age + 1) false false s
      else
        let s := setAge pos 3 false true s
        onEm (fun m => { m with retire := Tab.set m.retire pos m.seq }) s

/-- AGER_SWEEP (R287). -/
def execAgerSweep (pos : Nat) (s : State) : Host.Outcome State Fault Refusal := island 104 (agerSweep pos) s

/-- A lookup hits one copy at a position in the cycle its invalidation arrives: which copy is left open, so a free value names
it (notes/assumptions/113.md). -/
def meetHit (pos : Nat) (s : State) : State :=
  let have_ := s.emSlices.filter fun k => (Tab.get? (s.emCopy k) pos).isSome
  match have_[s.freeVal % max 1 have_.length]? with
  | none => s
  | some k => onEm (fun m => { m with copy := Tab.upd m.copy k [] fun t => Tab.modify t pos fun e => { e with hit := true } }) s.drawn

/-- The write whose acknowledgement by every copy the conditional invalidation of a position waits for (R288). -/
def State.retireSeq (s : State) (pos : Nat) : Nat := (Tab.get? s.em.retire pos).getD s.em.seq

/-- CONDITIONAL_INVALIDATION (R288), once every copy has acknowledged retiring: each copy clears valid when its hit bit is 0.
`hitMeets` says a lookup hits some copy in the cycle its invalidation arrives. Unless every copy invalidated, the entry is
written back, by writes that each copy applies in its turn. -/
def conditionalInval (pos : Nat) (hitMeets : Bool) (s : State) : State :=
  match Tab.get? s.em.tab pos with
  | none => s
  | some e =>
    if !e.retiring || !s.emComplete (s.retireSeq pos) then s
    else
      let s := if hitMeets then meetHit pos s else s
      let stays := s.hitOr pos
      let clear (t : Tab EmEnt) : Tab EmEnt := if ((Tab.get? t pos).map (·.hit)).getD false then t else Tab.erase t pos
      let s := onEm (fun m => { m with retire := Tab.erase m.retire pos, copy := m.copy.map fun c => (c.1, clear c.2) }) s
      if stays then bump .ageRestore 0 (setAge pos 0 true false (emWrite (.back pos { e with hit := false }) s))
      else bump .ageOut 0 (emDelete pos s)

/-- CONDITIONAL_INVALIDATION (R288). -/
def execConditionalInvalidation (pos : Nat) (hitMeets : Bool) (s : State) : Host.Outcome State Fault Refusal :=
  island 104 (conditionalInval pos hitMeets) s

/-- PARITY_REPAIR (R289): the island reads a copy that fails parity, so the copy is invalidated and the event raised, and its
lookups go on as if it were absent; `failed` says that no copy passes. The writer's repair, from the lowest-numbered other slice
that holds the position, is a write of its own, which the copy applies in its turn. -/
def parityRepair (sl pos : Nat) (failed : Bool) (s : State) : State :=
  let detail := if ovfBase ≤ pos then 2 ^ 20 + (pos - ovfBase) else pos
  let s := raiseFault (emBlk sl) 8 detail (bump .emParity sl s)
  if failed then
    match Tab.get? s.em.tab pos with
    | none => s
    | some _ =>
      let s := onEm (fun m => { m with copy := m.copy.map fun c => (c.1, Tab.erase c.2 pos) }) s
      event 0x7000 [.u 64 pos] (emDelete pos s)
  else
    let s := onEm (fun m => { m with copy := Tab.upd m.copy sl [] (Tab.erase · pos) }) s
    match ((List.range 8).filter fun k => k != sl && s.islandUp (emBlk k)).findSome? fun k => Tab.get? (s.emAhead k) pos with
    | some e => emWrite (.repair sl pos { e with hit := false }) s
    | none => s

/-- PARITY_REPAIR (R289). -/
def execParityRepair (slice pos : Nat) (failed : Bool) (s : State) : Host.Outcome State Fault Refusal :=
  island (emBlk slice) (parityRepair slice pos failed) s

end Sys2Proof.Machine
end

