-- ==== Sys2Proof/Machine/Facet.lean ====
section
/-! DEFINITION. Facet rule images: their pages and epochs, insertion and deletion, the throttle, their commands (R238 to
R250, R268). -/

namespace Sys2Proof.Machine

/-- The page that is not ACTIVE. -/
def FacetSl.spare (x : FacetSl) : Nat := (x.epoch + 1) % 2

/-- The key of an entry. -/
def entKey (grp i : Nat) : Nat := grp * 16384 + i

/-- The key of a bank's width in a page. -/
def widthKey (page grp bank : Nat) : Nat := page * 16 + grp * 8 + bank

/-- The width of a bank in a page. -/
def FacetSl.bankWidth (x : FacetSl) (page grp bank : Nat) : Nat := Tab.getD x.width (widthKey page grp bank) 0

/-- The page awaits its previous epoch (R241). -/
def FacetSl.draining (x : FacetSl) : Bool := (x.swap.map (·.draining)).getD false

/-- A page write is refused: BUSY while the previous epoch drains (R241), and of a COMMITTED page, which is counted (R31). -/
def facetWrite (sl : Nat) (body : State → State × Option Reply) (s : State) : State × Option Reply :=
  let x := s.facet sl
  if x.draining then deny .busy s
  else if x.committed then deny .busy (bump .pageRefusedFacet sl s)
  else body s

/-! ### Loading (R243) -/

/-- The lowest banks of the gangs that a load names. -/
def leaders (width : Nat) (banks : List Nat) : List Nat := banks.filter fun b => b % 2 ^ width == 0

/-- The banks named are whole gangs. -/
def gangsOk (width : Nat) (banks : List Nat) : Bool :=
  decide (width ≤ 2) && banks.all (· < 8) && banks.eraseDups.length == banks.length
    && banks.all fun b => (List.range (2 ^ width)).all fun j => banks.contains (b / 2 ^ width * 2 ^ width + j)

/-- The index in its segment of the j-th entry placed: the last of every block of h stays free. -/
def holeIndex (h j : Nat) : Nat := j / (h - 1) * h + j % (h - 1)

/-- The physical index of the j-th entry of a load. -/
def loadIndex (h : Nat) (ls : List Nat) (j : Nat) : Nat :=
  let cap := 2048 - 2048 / h
  2048 * ((ls[j / cap]?).getD 0) + holeIndex h (j % cap)

/-- The gang of an entry's words takes in a bank of the list. -/
def entryMeets (grp : Nat) (banks : List Nat) (e : Nat × FacetEntry) : Bool :=
  e.1 / 16384 == grp && (List.range (2 ^ e.2.width)).any fun j => banks.contains (e.1 % 16384 / 2048 + j)

/-- FACET_IMAGE_LOAD (R243). -/
def facetLoad (sl grp : Nat) (ld : FacetLoad) (s : State) : State × Option Reply :=
  let x := s.facet sl
  let w := x.spare
  let h := max 2 (s.paramN 0x6010 0)
  let ls := (leaders ld.width ld.banks).mergeSort fun a b => decide (a ≤ b)
  if 8 ≤ sl || 2 ≤ grp || !gangsOk ld.width ld.banks || ld.records.any (fun r => decide (16384 ≤ r.1)) then deny .badArg s
  else if x.entry.any (fun e => entryMeets grp ld.banks e && bit e.2.pg (x.epoch % 2)) then deny .busy s
  else if ls.length * (2048 - 2048 / h) < ld.entries.length then deny .limit s
  else
    let kept := x.entry.filter fun e => !entryMeets grp ld.banks e
    let put (t : Tab FacetEntry) (e : FacetEntry × Nat) : Tab FacetEntry :=
      Tab.set t (entKey grp (loadIndex h ls e.2)) { e.1 with valid := true, pg := 2 ^ w }
    done (onFacet sl (fun x => { x with
      entry := ld.entries.zipIdx.foldl put kept
      width := ld.banks.foldl (fun t b => Tab.set t (widthKey w grp b) ld.width) x.width
      recs := ld.records.foldl (fun t r => Tab.set t (recKeyOf w grp r.1) r.2) x.recs }) s)

/-- FACET_IMAGE_LOAD (R243). -/
def execFacetImageLoad (q : Req) (slice group : Nat) (ld : FacetLoad) (s : State) : Host.Outcome State Fault Refusal :=
  kilak q 0x6000 (facetWrite slice (facetLoad slice group ld)) s

/-! ### Commit, withdraw, swap (R240 to R242) -/

/-- FACET_IMAGE_COMMIT (R242): refused while an earlier swap has not completed, one that still waits for a COMMITTED page
included (DEDUCED, notes/assumptions/109.md). -/
def execFacetImageCommit (q : Req) (slice : Nat) (s : State) : Host.Outcome State Fault Refusal :=
  kilak q 0x6001 (fun s =>
    if 8 ≤ slice then deny .badArg s
    else if (s.facet slice).swap.isSome then deny .busy s
    else if (s.facet slice).committed then deny .badState s
    else done (onFacet slice (fun x => { x with committed := true }) s)) s

/-- FACET_IMAGE_WITHDRAW (R31, R242): one that meets the boundary fails. -/
def execFacetImageWithdraw (q : Req) (slice : Nat) (meet : Bool) (s : State) : Host.Outcome State Fault Refusal :=
  kilak q 0x6002 (fun s =>
    if 8 ≤ slice then deny .badArg s
    else if !(s.facet slice).committed || meet then deny .badState s
    else done (onFacet slice (fun x => { x with committed := false }) s)) s

/-- FACET_IMAGE_SWAP (R240). -/
def execFacetImageSwap (q : Req) (slice timeoutUs : Nat) (s : State) : Host.Outcome State Fault Refusal :=
  kilak q 0x6003 (fun s =>
    if 8 ≤ slice then deny .badArg s
    else if (s.facet slice).swap.isSome then deny .busy s
    else waits (onFacet slice (fun x => { x with swap := some { cmd := q, deadline := s.clk.now + usT timeoutUs } }) s)) s

/-- A record fails check 3 of R240. -/
def recordBad (r : ActionRec) : Bool := decide (6 ≤ r.type) || (r.type == 4 && r.decap == 0)

/-- The first check of R240 that the page fails, with the index of the entry; an unlisted record is all zeros. -/
def State.facetCheck (s : State) (sl : Nat) : Option (Nat × Nat) :=
  let x := s.facet sl
  let w := x.spare
  let es := x.entry.filter fun e => e.2.valid && bit e.2.pg w
  let idx (e : Nat × FacetEntry) : Nat := e.1 % 16384
  let fails (n : Nat) (p : Nat × FacetEntry → Bool) : Option (Nat × Nat) := (es.find? p).map fun e => (n, idx e)
  let c1 := fails 1 fun e => Nat.land e.2.value e.2.mask != e.2.value
  let c2 := fails 2 fun e => e.2.width != x.bankWidth w (e.1 / 16384) (idx e / 2048) || e.2.upper.any (· != 0)
  let c3 := fails 3 fun e => decide (16384 ≤ e.2.action) || recordBad (x.record w (e.1 / 16384) e.2.action)
  let c3r := (x.recs.find? fun r => r.1 / 32768 == w && recordBad r.2).map fun r => (3, r.1 % 16384)
  let c4 := fails 4 fun e => s.inPartition sl (e.1 / 16384) (idx e) && (e.2.prio == 0 || decide (14 < e.2.prio))
  (((c1.orElse fun _ => c2).orElse fun _ => c3).orElse fun _ => c3r).orElse fun _ => c4

/-- FACET_EPOCH_BOUNDARY (R240): a swap waits and the page is COMMITTED; the check passes or the page is rejected. -/
def epochBoundary (sl : Nat) (s : State) : State :=
  let x := s.facet sl
  match x.swap with
  | none => s
  | some w =>
    if w.draining || !x.committed then s
    else
      match s.facetCheck sl with
      | some (n, i) =>
        complete w.cmd 0x6003 { code := .badArg, detail := n % 256 * 2 ^ 24 + i }
          (bump .facetReject sl (onFacet sl (fun x => { x with committed := false, swap := none }) s))
      | none =>
        onFacet sl (fun x => { x with
          epoch := (x.epoch + 1) % 256, committed := false, swap := some { w with draining := true } }) s

/-- FACET_EPOCH_BOUNDARY (R240). -/
def execFacetEpochBoundary (slice : Nat) (s : State) : Host.Outcome State Fault Refusal :=
  guardBlks [facetBlk slice 0, facetBlk slice 1] (fun s =>
    if s.islandUp (facetBlk slice 0) && s.islandUp (facetBlk slice 1) then .next (epochBoundary slice s) else .next s) s

/-- FACET_SWAP_TIMEOUT (R240). -/
def swapTimeout (sl : Nat) (s : State) : State :=
  match (s.facet sl).swap with
  | none => s
  | some w =>
    if w.draining || decide (s.clk.now < w.deadline) then s
    else complete w.cmd 0x6003 (.err .timeout) (onFacet sl (fun x => { x with swap := none }) s)

/-- FACET_SWAP_TIMEOUT (R240). -/
def execFacetSwapTimeout (slice : Nat) (s : State) : Host.Outcome State Fault Refusal := island 104 (swapTimeout slice) s

/-- The WRITABLE page made equal to the ACTIVE page (R241). -/
def FacetSl.equalise (x : FacetSl) : FacetSl :=
  let a := x.epoch % 2
  let w := x.spare
  let move (k n : Nat) : Nat := k % n + w * n
  { x with
    entry := (x.entry.filter fun e => bit e.2.pg a).map fun e => (e.1, { e.2 with pg := 3 })
    width := (x.width.filter fun e => e.1 / 16 == a).foldl (fun t e => Tab.set t (move e.1 16) e.2)
      (x.width.filter fun e => e.1 / 16 == a)
    recs := (x.recs.filter fun r => r.1 / 32768 == a).foldl (fun t r => Tab.set t (move r.1 32768) r.2)
      (x.recs.filter fun r => r.1 / 32768 == a) }

/-- FACET_EPOCH_DRAIN (R241): no packet of the previous epoch is in flight. -/
def epochDrain (sl : Nat) (s : State) : State :=
  let x := s.facet sl
  match x.swap with
  | none => s
  | some w =>
    if !w.draining || x.inFlight (x.epoch + 1) != 0 then s
    else complete w.cmd 0x6003 (.vals [.u 8 x.epoch]) (onFacet sl (fun x => { x.equalise with swap := none }) s)

/-- FACET_EPOCH_DRAIN (R241). -/
def execFacetEpochDrain (slice : Nat) (s : State) : Host.Outcome State Fault Refusal :=
  guardBlks [facetBlk slice 0, facetBlk slice 1] (fun s =>
    if s.islandUp (facetBlk slice 0) && s.islandUp (facetBlk slice 1) then .next (epochDrain slice s) else .next s) s

/-! ### Insertion and deletion (R244 to R247) -/

/-- Distance between two indices. -/
def distance (a b : Nat) : Nat := (a - b) + (b - a)

/-- The free index of a segment nearest to the position wanted, the lower of two (R245). -/
def nearestFree (t : Tab FacetEntry) (grp base want : Nat) : Option Nat :=
  (((List.range 2048).map (base + ·)).filter fun i => (Tab.get? t (entKey grp i)).isNone).foldl (fun b i => match b with
    | none => some i
    | some x => if distance i want < distance x want then some i else some x) none

/-- The entries of the indices relocated one by one toward a free one: each from the index named to its neighbour. -/
def relocate (grp : Nat) (up : Bool) : List Nat → Tab FacetEntry → Tab FacetEntry
  | [], t => t
  | i :: is, t =>
    match Tab.get? t (entKey grp i) with
    | some e => relocate grp up is (Tab.erase (Tab.set t (entKey grp (if up then i + 1 else i - 1)) e) (entKey grp i))
    | none => relocate grp up is t

/-- The image after an insertion behind index `after`, and the index used: the position after it, or the last of the
segment where it is the last itself (DESIGN CHOICE, notes/assumptions/105.md). -/
def FacetSl.insertAt (x : FacetSl) (grp after : Nat) (e : FacetEntry) (r : ActionRec) : Option (FacetSl × Nat) :=
  let w := x.spare
  let size := 2 ^ x.bankWidth w grp (after / 2048)
  let base := after / 2048 / size * size * 2048
  let after := base + after % 2048
  let pos := min (after + 1) (base + 2047)
  match nearestFree x.entry grp base pos with
  | none => none
  | some f =>
    let moved :=
      if pos ≤ f then relocate grp true ((List.range (f - pos)).map fun n => f - 1 - n) x.entry
      else relocate grp false ((List.range (pos - f)).map fun n => f + 1 + n) x.entry
    some ({ x with
      entry := Tab.set moved (entKey grp pos) { e with valid := true, pg := 2 ^ w }
      recs := Tab.set x.recs (recKeyOf w grp e.action) r }, pos)

/-- FACET_ENTRY_INSERT (R244, R245). -/
def facetInsert (sl grp after : Nat) (e : FacetEntry) (r : ActionRec) (s : State) : State × Option Reply :=
  if 8 ≤ sl || 2 ≤ grp || 16384 ≤ after || 16384 ≤ e.action then deny .badArg s
  else
    match (s.facet sl).insertAt grp after e r with
    | none => deny .limit s
    | some (x, i) => doneWith [.u 24 i] (onFacet sl (fun _ => x) s)

/-- FACET_ENTRY_INSERT (R244). -/
def execFacetEntryInsert (q : Req) (slice group after : Nat) (e : FacetEntry) (r : ActionRec) (s : State) :
    Host.Outcome State Fault Refusal :=
  kilak q 0x6004 (facetWrite slice (facetInsert slice group after e r)) s

/-- FACET_ENTRY_DELETE (R247). -/
def facetDelete (sl grp index : Nat) (s : State) : State × Option Reply :=
  let x := s.facet sl
  match (if grp < 2 && index < 16384 then Tab.get? x.entry (entKey grp index) else none) with
  | none => deny .badArg s
  | some e =>
    let pg := if bit e.pg x.spare then e.pg - 2 ^ x.spare else e.pg
    let t := if pg = 0 then Tab.erase x.entry (entKey grp index) else Tab.set x.entry (entKey grp index) { e with pg := pg }
    done (onFacet sl (fun x => { x with entry := t }) s)

/-- FACET_ENTRY_DELETE (R247). -/
def execFacetEntryDelete (q : Req) (slice group index : Nat) (s : State) : Host.Outcome State Fault Refusal :=
  kilak q 0x6005 (facetWrite slice (facetDelete slice group index)) s

/-- An entry's words (R234): the lowest bank of its gang holds the most significant bits and the control bits. -/
def FacetEntry.words (e : FacetEntry) : List Nat :=
  let n := 2 ^ e.width
  (List.range n).map fun j =>
    let part (v : Nat) : Nat := v / 2 ^ (160 * (n - 1 - j)) % 2 ^ 160
    let ctl := if j = 0 then fields [(1, flag e.valid), (2, e.pg), (8, e.prio), (2, e.width), (14, e.action), (5, 0)]
      else (e.upper[j - 1]?).getD 0 % 2 ^ 32
    fields [(160, part e.value), (160, part e.mask), (32, ctl)]

/-- A record's word (R235). -/
def ActionRec.word (r : ActionRec) : Nat :=
  fields [(4, r.type), (1, r.destKind), (17, r.dest), (17, r.policer), (20, r.counter), (4, r.emProfile), (3, r.tc),
    (4, r.mirror), (8, r.puntReason), (3, r.decap), (13, r.trib), (10, r.seqOffset), (24, 0)]

/-- FACET_ENTRY_READ (R234, R268). -/
def execFacetEntryRead (q : Req) (slice group index : Nat) (s : State) : Host.Outcome State Fault Refusal :=
  kilak q 0x6006 (fun s =>
    if 8 ≤ slice || 2 ≤ group || 16384 ≤ index then deny .badArg s
    else
      let x := s.facet slice
      let e := Tab.get? x.entry (entKey group index)
      let a := (e.map (·.action)).getD 0
      let ws := (e.map FacetEntry.words).getD [0]
      doneWith [.lst 44 ws, .rcd 128 (ActionRec.word (x.record 0 group a)), .rcd 128 (ActionRec.word (x.record 1 group a))] s) s

/-- The state of a page: 0 WRITABLE, 1 COMMITTED, 2 ACTIVE. -/
def FacetSl.pageState (x : FacetSl) (page : Nat) : Nat := if x.epoch % 2 = page then 2 else flag x.committed

/-- FACET_EPOCH_STATUS (R268). -/
def execFacetEpochStatus (q : Req) (slice : Nat) (s : State) : Host.Outcome State Fault Refusal :=
  kilak q 0x6007 (fun s =>
    if 8 ≤ slice then deny .badArg s
    else
      let x := s.facet slice
      doneWith [.u 8 x.epoch, .u 32 (x.inFlight x.epoch), .u 32 (x.inFlight (x.epoch + 1)), .u 64 (x.pageState 0),
        .u 64 (x.pageState 1), .u 8 x.level] s) s

/-! ### The throttle (R248, R249) -/

/-- T_s in °C. -/
def State.throttleStart (s : State) (sl : Nat) : Nat :=
  min (min 95 ((s.ann.plan.facetTstart[sl]?).getD 95)) (s.paramN 0x6016 sl)

/-- The level a junction temperature calls for, from the level before; temperatures in 0.1 °C. -/
def throttleNext (old : Nat) (tj ts : Int) : Nat :=
  let n := if tj ≤ ts then 0 else min 7 ((tj - ts + 29) / 30).toNat
  if old ≤ n then n
  else if tj ≤ ts + 30 * ((old : Int) - 1) - 10 then old - 1
  else old

/-- FACET_THROTTLE_SAMPLE (R248): the slice's two sensors, in 0.1 °C, every 100 µs of 155,520 clocks. -/
def throttleSample (sl : Nat) (tjA tjB : Int) (s : State) : State :=
  let n := throttleNext (s.facet sl).level (max tjA tjB) (10 * s.throttleStart sl)
  let lost (grp : Nat) : Nat := if s.islandUp (facetBlk sl grp) then s.withheld sl * 19440 else 0
  bumpBy .facetThrottleClocks (2 * sl + 1) (lost 1) (bumpBy .facetThrottleClocks (2 * sl) (lost 0)
    (onFacet sl (fun x => { x with level := n }) s))

/-- FACET_THROTTLE_SAMPLE (R248). -/
def execFacetThrottleSample (slice : Nat) (tjA tjB : Int) (s : State) : Host.Outcome State Fault Refusal :=
  guardBlks [facetBlk slice 0, facetBlk slice 1] (fun s =>
    if s.islandUp (facetBlk slice 0) || s.islandUp (facetBlk slice 1) then .next (throttleSample slice tjA tjB s) else .next s) s

end Sys2Proof.Machine
end

