-- ==== Sys2Proof/Machine/Ingress.lean ====
section
/-! DEFINITION. Arrivals at the uplink ports, the passes of the ingress pipelines, and fragments (R16, R17, R227 to R237,
R259 to R261). -/

namespace Sys2Proof.Machine

/-- A frame from an uplink MAC waits at the parser input of its slice, or finds the input buffer full (R17); a frame of the
boundary clock ends here (R407): PTP_MESSAGE_RECEIVE is what its message does. -/
def uplinkArrival (port : Nat) (octets : List Nat) (bufFull : Bool) (s : State) : State :=
  if !s.portUp port then s
  else
    let s := bwCount (2 * port) octets.length s
    if s.ptpTerminates port octets then s
    else if bufFull then bump .pipeOverrun port (countSource 1 port false 0x10 s)
    else
      let p : Pkt := { dir := 0, srcKind := 1, source := port, octets := octets, at_ := ltbWord64 s.stamp64 }
      onCls (fun c => { c with inq := Tab.upd c.inq (2 * (port / 32)) [] (· ++ [p]) }) s.drawn

/-- UPLINK_FRAME_ARRIVAL (R17). -/
def execUplinkFrameArrival (port : Nat) (octets : List Nat) (bufFull : Bool) (s : State) : Host.Outcome State Fault Refusal :=
  island (upBlk (port / 8)) (uplinkArrival port octets bufFull) s

/-- The frame's length conflicts (R229): it is not classified. -/
def lengthConflict (k : Nat) (p : Pkt) (s : State) : State :=
  let s := if p.pass2 then onInFlight (k / 2) p.stamp (· - 1) s else s
  if s.param 0x6000 p.arrival == 1 then puntPkt k p 0x80 s else bump .lenConflict p.src (dropPkt p 0x12 s)

/-- The Facet search of a pass and its record (R231 to R237). -/
def facetPass (k : Nat) (p : Pkt) (prs : Parse) (s : State) : State :=
  let sl := k / 2
  let grp := k % 2
  let p := if p.pass2 then p else { p with stamp := (s.facet sl).epoch, hash := prs.bucket }
  let s := if p.pass2 then s else onInFlight sl p.stamp (· + 1) s
  let cls := s.paramN 0x6012 p.src
  let kt := s.paramN 0x6011 (32 * grp + 2 * cls + flag p.pass2)
  let key := facetKey kt grp p.pass2 p.source (udfOf (s.paramN 0x6013 cls) p.octets) prs
  let w := keyWidth kt
  let page := p.stamp % 2
  let (i, s) := match bestEntry (s.matching sl grp page w key false) with
    | some (_, e) => (e.action, s)
    | none => (0, bump .classMiss p.src s)
  let a := (s.facet sl).record page grp i
  match a.type with
  | 0 => forward k p prs a s
  | 3 => cascade k p prs a w key s
  | 4 => recirc k p prs a s
  | _ => finish k p prs a s

/-- A later fragment whose entry is absent is held, or takes frag.no_first_action at once (R261). -/
def noFirst (k : Nat) (p : Pkt) (s : State) : State :=
  match s.paramN 0x6032 p.src with
  | 0 => bump .noFirstFrag (k / 2) (dropPkt p 0x14 s)
  | 1 => bump .noFirstFrag (k / 2) (puntPkt k p 0x83 s)
  | _ => facetPass k { p with noFrag := true } (s.parsed p) s

/-- A later fragment (R261). -/
def laterFragment (k : Nat) (p : Pkt) (key : Nat) (s : State) : State :=
  let sl := k / 2
  match Tab.get? (s.fragTab sl) key with
  | some e =>
    let s := onCls (fun c => { c with frag := Tab.upd c.frag sl [] fun t => Tab.set t key { e with used := s.clk.now } }) s
    conclude k p { e.act with destKind := e.destKind, dest := e.dest } s
  | none =>
    let l := Tab.getD s.cls.held sl []
    if 1024 ≤ l.length then noFirst k p (bump .fragHoldFull sl s)
    else
      let h : FragHeld := { key := key, pkt := p, until_ := s.clk.now + usT (s.paramN 0x6030 0) }
      let s := match p.chain with
        | some c => handOver c (40 + sl) 3 s
        | none => s
      bump .fragHeld sl (onCls (fun c => { c with held := Tab.set c.held sl (l ++ [h]) }) s)

/-- A packet with its chain is parsed and classified. -/
def classify (k : Nat) (p : Pkt) (s : State) : State :=
  let prs := s.parsed p
  if prs.conflict then lengthConflict k p s
  else
    let s := if prs.incomplete then bump .parseIncomplete p.src s else s
    if prs.fragLater && !p.pass2 then laterFragment k { p with hash := prs.bucket } prs.fragKey s else facetPass k p prs s

/-- INGRESS_PASS (R16, R17): the recirculated packet first, else the packet that has waited longest. -/
def ingressPass (k : Nat) (s : State) : State :=
  match Tab.getD s.cls.recirc k [], Tab.getD s.cls.inq k [] with
  | p :: rest, _ => classify k p (onCls (fun c => { c with recirc := Tab.set c.recirc k rest }) s)
  | [], p :: rest =>
    match takeIn k p (onCls (fun c => { c with inq := Tab.set c.inq k rest }) s) with
    | (some p, s) => classify k p s
    | (none, s) => s
  | [], [] => s

/-- INGRESS_PASS (R16, R17). -/
def execIngressPass (k : Nat) (s : State) : Host.Outcome State Fault Refusal :=
  guardBlks [inBlk k, facetBlk (k / 2) (k % 2), emBlk (k / 2)] (fun s =>
    if s.islandUp (inBlk k) && s.islandUp (facetBlk (k / 2) (k % 2)) then .next (ingressPass k s) else .next s) s

/-- FRAG_HOLD_TIMEOUT (R261): the fragment held longest whose time has passed. -/
def holdTimeout (sl : Nat) (s : State) : State :=
  let l := Tab.getD s.cls.held sl []
  match l.find? fun h => decide (h.until_ ≤ s.clk.now) with
  | none => s
  | some h =>
    let k := 2 * sl + h.pkt.dir
    let s := onCls (fun c => { c with held := Tab.set c.held sl (l.erase h) }) s
    let s := match h.pkt.chain with
      | some c => handOver c k 1 s
      | none => s
    noFirst k h.pkt s

/-- FRAG_HOLD_TIMEOUT (R261). -/
def execFragHoldTimeout (slice : Nat) (s : State) : Host.Outcome State Fault Refusal :=
  guardBlks [sliceBlk slice 0, sliceBlk slice 2] (fun s => .next (holdTimeout slice s)) s

/-- FRAG_ENTRY_EXPIRY (R260). -/
def fragExpiry (sl key : Nat) (s : State) : State :=
  match Tab.get? (s.fragTab sl) key with
  | none => s
  | some e =>
    if e.used + msT (s.paramN 0x6031 0) ≤ s.clk.now then onCls (fun c => { c with frag := Tab.upd c.frag sl [] (Tab.erase · key) }) s
    else s

/-- FRAG_ENTRY_EXPIRY (R260). -/
def execFragEntryExpiry (slice key : Nat) (s : State) : Host.Outcome State Fault Refusal :=
  guardBlks [sliceBlk slice 0, sliceBlk slice 2] (fun s => .next (fragExpiry slice key s)) s

end Sys2Proof.Machine
end

