-- ==== Sys2Proof/Machine/Mon.lean ====
section
/-! DEFINITION. Faults, the ledger's windows, sample records, bandwidth windows and histograms (R32 to R35, R536 to R554). -/

namespace Sys2Proof.Machine

/-! ### Faults (R537 to R547) -/

/-- What a real fault does beyond its record: class F has the effects of R543; an uncorrectable link entry drops its chain
and starts the orphan sweep (R301); an uncorrectable word of pool data spoils a cell of the bank pair; a failed generator
gives nothing (R382); an OTP slot read badly is not in force (R541). -/
def containFault (b : Nat) (f : FaultIn) (s : State) : State :=
  let pool := decide (72 ≤ b) && decide (b < 88)
  if faultClass b f.kind == some .f then withdrawClaims s
  else if pool && f.kind = 9 then
    let s := { s with rst := { s.rst with orphanSweep := true } }
    match s.pool.chains.find? fun e => e.2.cells.contains (f.detail % 2 ^ 20) with
    | some e => eccDrop e.1 s
    | none => s
  else if pool && f.kind = 1 then
    let c := 32 * (s.freeVal / 2 % 28672) + 2 * (b - 72) + s.freeVal % 2
    onPool (fun p => { p with bad := if p.bad.contains c then p.bad else p.bad ++ [c] }) s.drawn
  else if b = 177 && f.kind = 8 then bump .rngFail 0 { s with cip := { s.cip with rngFailed := true } }
  else if b = 173 && f.kind = 8 then { s with amp := { s.amp with slots := Tab.erase s.amp.slots f.detail } }
  else s

/-- Real faults of one cycle: recorded, then contained. -/
def detectFaults (b : Nat) (fs : List FaultIn) (s : State) : State :=
  let fs := fs.filter fun f => (faultClass b f.kind).isSome
  if fs.isEmpty then s else fs.foldl (fun s f => containFault b f s) (recordFaults b (realFaults fs) s)

/-- FAULT_DETECT (R537). -/
def execFaultDetect (b : Nat) (fs : List FaultIn) (s : State) : Host.Outcome State Fault Refusal :=
  windowAccess b (detectFaults b fs) s

/-- FAULT_STATUS_CLEAR (R481, R476): a fault that meets the write stays recorded. -/
def execFaultStatusClear (b : Nat) (v : Reg) (meet : List FaultIn) (s : State) : Host.Outcome State Fault Refusal :=
  windowAccess b (fun s => onWindow b (statusClear b v.toNat meet) (detectFaults b meet s)) s

/-- FAULT_FIRST_CLEAR (R538): a new fault that meets the write is held. -/
def execFaultFirstClear (b : Nat) (v : Reg) (meet : List FaultIn) (s : State) : Host.Outcome State Fault Refusal :=
  windowAccess b (fun s => detectFaults b meet (if bit v.toNat 31 then onWindow b FaultWin.firstClear s else s)) s

/-- FAULT_MASK_WRITE (R537): the mask before the write decides for a fault of its cycle; class-F bits cannot be set. -/
def execFaultMaskWrite (b : Nat) (v : Reg) (meet : List FaultIn) (s : State) : Host.Outcome State Fault Refusal :=
  windowAccess b (fun s =>
    onWindow b (fun w => { w with mask := v.toNat &&& ((2 ^ 32 - 1) ^^^ classFMask) }) (detectFaults b meet s)) s

/-- The kinds an injection may take in block b (R545, R547). -/
def State.injectable (s : State) (b k : Nat) : Bool :=
  match faultClass b k with
  | some .f => s.testMode
  | some _ => true
  | none => false

/-- FAULT_INJECT_WRITE (R545, R546): the injections and the real faults of the following cycle, recorded together. -/
def faultInject (b v : Nat) (real : List FaultIn) (s : State) : State :=
  let real := real.filter fun f => (faultClass b f.kind).isSome
  let ks := (List.range 32).filter fun k => bit v k && s.injectable b k
  let rs : List FRec := real.map fun f => { kind := f.kind, detail := f.detail, injected := false, injAlso := ks.contains f.kind }
  let is : List FRec := (ks.filter fun k => !(real.any fun f => f.kind == k)).map fun k =>
    { kind := k, detail := 0, injected := true, injAlso := false }
  if (rs ++ is).isEmpty then s
  else
    let s := real.foldl (fun s f => containFault b f s) (recordFaults b (rs ++ is) s)
    if is.any fun r => faultClass b r.kind == some .f then withdrawClaims s else s

/-- FAULT_INJECT_WRITE (R545). -/
def execFaultInjectWrite (b : Nat) (v : Reg) (real : List FaultIn) (s : State) : Host.Outcome State Fault Refusal :=
  windowAccess b (faultInject b v.toNat real) s

/-- FAULT_FIRST (R481). -/
def FaultWin.first (w : FaultWin) : Nat :=
  fields [(1, flag w.firstValid), (1, flag w.firstTie), (1, flag w.injAlso), (1, flag w.injected), (2, w.cls), (5, w.kindNo),
    (21, w.detail)]

/-- The window of block b as 20 octets: FAULT_STATUS, FAULT_FIRST, FAULT_TIME0 to 2 (R539). -/
def State.faultRow (s : State) (b : Nat) : Nat :=
  let w := s.window b
  w.status + w.first * 2 ^ 32 + w.time % 2 ^ 96 * 2 ^ 64

/-- FAULT_SUMMARY (R539, R563). -/
def execFaultSummary (q : Req) (first count : Nat) (s : State) : Host.Outcome State Fault Refusal :=
  kilak q 0xE000 (fun s =>
    if 189 < first + count then deny .limit s
    else doneWith [.lst 20 ((List.range count).map fun i => s.faultRow (first + i))] s) s

/-! ### The ledger (R32 to R35, R490) -/

/-- LEDGER_WINDOW_CLOSE (R33). -/
def execLedgerWindowClose (s : State) : Host.Outcome State Fault Refusal := island 180 windowClose s

/-- LEDGER_AUDIT (R490). -/
def execLedgerAudit (q : Req) (quantity first count : Nat) (s : State) : Host.Outcome State Fault Refusal :=
  kilak q 0x0009 (fun s =>
    if count = 0 || (4 < quantity && quantity != 0xFF) then deny .badArg s
    else
      let qs := if quantity = 0xFF then List.range 5 else [quantity]
      let all := qs.flatMap fun q => ((s.ledScopes q).filter fun i => decide (first ≤ i)).map fun i => (q, i)
      let res := [RVal.lst 32 ((all.take count).map fun e => s.ledRecord e.1 e.2)]
      (s, some { code := if all.length ≤ count then .ended else .ok, res := res })) s

/-! ### Sample records (R549 to R551) -/

/-- A filter lies within its fields. -/
def filterOk (f : SampleFilter) : Bool :=
  decide (f.privMask < 16) && decide (f.masterLo < 128) && decide (f.masterHi < 128) && decide (f.addrLo < 2 ^ 40)
    && decide (f.addrHi < 2 ^ 40) && decide (f.classMask < 256)

/-- A filter as it is held: bit 7 of the class mask is reserved, and the value written there is ignored (R7, R549). -/
def heldFilter (f : SampleFilter) : SampleFilter := { f with classMask := f.classMask % 128 }

/-- SAMPLE_CONFIG (R549). -/
def execSampleConfig (q : Req) (filters : List SampleFilter) (rate mode : Nat) (s : State) : Host.Outcome State Fault Refusal :=
  kilak q 0xE001 (fun s =>
    if s.mon.sampling then deny .busy s
    else if 4 < filters.length || !filters.all filterOk || 16 < rate || 1 < mode then deny .limit s
    else
      let fs : Tab SampleFilter := filters.zipIdx.map fun e => (e.2, heldFilter e.1)
      done { s with mon := { s.mon with filters := fs, rateLog2 := rate, mode := mode } }) s

/-- SAMPLE_START (R551): the buffer is emptied. -/
def execSampleStart (q : Req) (s : State) : Host.Outcome State Fault Refusal :=
  kilak q 0xE002 (fun s =>
    if s.mon.sampling then deny .badState s
    else done { s with mon := { s.mon with sampling := true, recs := [], sampleSeq := 0 } }) s

/-- SAMPLE_STOP (R563). -/
def execSampleStop (q : Req) (s : State) : Host.Outcome State Fault Refusal :=
  kilak q 0xE003 (fun s =>
    if !s.mon.sampling then deny .badState s else done { s with mon := { s.mon with sampling := false } }) s

/-- The 64 octets of a record (R550), as a number. -/
def SampleRec.word (r : SampleRec) : Nat :=
  r.ltb % 2 ^ 96 + r.master % 256 * 2 ^ 96 + (r.priv % 4 * 64 + r.cls % 8 * 8 + r.sizeLog2 % 8) * 2 ^ 104 + r.seq * 2 ^ 112
    + r.addr % 2 ^ 40 * 2 ^ 128 + r.data % 2 ^ 64 * 2 ^ 192 + r.block % 256 * 2 ^ 256 + (r.kind % 128 + 128 * flag r.injected) * 2 ^ 264
    + r.detail % 2 ^ 24 * 2 ^ 272

/-- SAMPLE_READ (R551): oldest first, nothing removed. -/
def execSampleRead (q : Req) (first count : Nat) (s : State) : Host.Outcome State Fault Refusal :=
  kilak q 0xE004 (fun s =>
    if 256 < count then deny .badArg s
    else
      match s.mon.recs.findIdx? fun r => r.seq == first with
      | none => deny .notFound s
      | some i => doneWith [.lst 64 (((s.mon.recs.drop i).take count).map SampleRec.word)] s) s

/-! ### Bandwidth windows (R552) -/

/-- BW_WINDOW_SET: in effect at the next multiple of the new length. -/
def execBwWindowSet (q : Req) (ns : Nat) (s : State) : Host.Outcome State Fault Refusal :=
  kilak q 0xE005 (fun s =>
    if ns < 10000 || 1000000000 < ns then deny .limit s
    else done { s with mon := { s.mon with bwNext := some ns } }) s

/-- The values of a port or channel: one that nothing was counted for has windows of 0 bytes. -/
def MonS.bwOf (m : MonS) (k : Nat) : BwWin :=
  match Tab.get? m.bw k, m.bwFirst with
  | some w, _ => w
  | none, some f => { lastStart := m.bwLast, maxStart := f, minStart := f, seen := true }
  | none, none => {}

/-- One window recorded. -/
def BwWin.close (w : BwWin) (start : Nat) (first : Option Nat) : BwWin :=
  let w : BwWin := if w.seen then w else match first with
    | some f => { w with maxStart := f, minStart := f, seen := true }
    | none => w
  let b := w.curBytes
  { curBytes := 0, curFrames := 0, lastBytes := b, lastFrames := w.curFrames, lastStart := start
    maxBytes := if !w.seen || w.maxBytes < b then b else w.maxBytes
    maxStart := if !w.seen || w.maxBytes < b then start else w.maxStart
    minBytes := if !w.seen || b < w.minBytes then b else w.minBytes
    minStart := if !w.seen || b < w.minBytes then start else w.minStart
    seen := true }

/-- BW_WINDOW_END (R552): the window is recorded, or discarded when a new length begins or supply sag overlapped it. -/
def bwEnd (s : State) : State :=
  let m := s.mon
  let drop := m.bwNext.isSome || m.bwSag || s.sagStage != 0
  let bw : Tab BwWin := m.bw.map fun e =>
    (e.1, if drop then { e.2 with curBytes := 0, curFrames := 0 } else e.2.close m.bwStart m.bwFirst)
  { s with mon := { m with
      bw := bw
      bwFirst := if drop then m.bwFirst else some (m.bwFirst.getD m.bwStart)
      bwLast := if drop then m.bwLast else m.bwStart
      bwNs := m.bwNext.getD m.bwNs, bwNext := none, bwStart := s.clk.ltb, bwSag := s.sagStage != 0 } }

/-- BW_WINDOW_END (R552). -/
def execBwWindowEnd (s : State) : Host.Outcome State Fault Refusal := island 104 bwEnd s

/-- Maximum and minimum start again from the last window. -/
def BwWin.restart (w : BwWin) : BwWin :=
  { w with maxBytes := w.lastBytes, maxStart := w.lastStart, minBytes := w.lastBytes, minStart := w.lastStart }

/-- The values of a window's record. -/
def BwWin.vals (w : BwWin) : List RVal :=
  [.u 64 w.lastBytes, .u 64 w.lastFrames, .u 64 w.maxBytes, .u 96 (ltbWord w.maxStart), .u 64 w.minBytes,
    .u 96 (ltbWord w.minStart)]

/-- BW_WINDOW_READ (R552). -/
def execBwWindowRead (q : Req) (isPort : Bool) (idx dir : Nat) (s : State) : Host.Outcome State Fault Refusal :=
  kilak q 0xE006 (fun s =>
    if (if isPort then !s.portExists idx else 512 ≤ idx) || 1 < dir then deny .badArg s
    else
      let k := if isPort then 2 * idx + dir else 512 + 2 * idx + dir
      let w := s.mon.bwOf k
      doneWith w.vals { s with mon := { s.mon with bw := Tab.set s.mon.bw k w.restart } }) s

/-! ### Histograms (R553, R554) -/

/-- The source a HistogramConfig number names: kind × 2^32 + handle or queue (notes/assumptions/73.md). -/
def histSrcOf (n : Nat) : HistSrc :=
  let i := n % 2 ^ 32
  match n / 2 ^ 32 with
  | 0 => .allocLat i
  | 1 => .onuLat i
  | 2 => .qDepth i
  | 3 => .qDelay i
  | _ => .config n

/-- HISTOGRAM_CONFIG (R553): the lowest free unit. -/
def execHistogramConfig (q : Req) (source shift : Nat) (s : State) : Host.Outcome State Fault Refusal :=
  kilak q 0xE007 (fun s =>
    if 31 < shift then deny .limit s
    else
      match lowestFree (Tab.keys s.mon.hist) 0 256 with
      | none => deny .limit s
      | some u => doneWith [.u 64 u] (bindUnit u shift (histSrcOf source) s)) s

/-- The number of a source. -/
def HistSrc.num : HistSrc → Nat
  | .allocLat a => a
  | .onuLat h => 2 ^ 32 + h
  | .qDepth q => 2 * 2 ^ 32 + q
  | .qDelay q => 3 * 2 ^ 32 + q
  | .config n => n

/-- HISTOGRAM_READ (R553). -/
def execHistogramRead (q : Req) (unit : Nat) (s : State) : Host.Outcome State Fault Refusal :=
  kilak q 0xE008 (fun s =>
    match Tab.get? s.mon.hist unit with
    | none => deny .badState s
    | some x =>
      doneWith ([.u 64 x.src.num, .u 64 x.shift] ++ ((List.range 64).map fun i => .u 64 (Tab.getD x.bins i 0))
        ++ [.u 64 x.count, .u 64 x.sum, .u 64 x.min, .u 96 x.minLtb, .u 64 x.minId, .u 64 x.max, .u 96 x.maxLtb, .u 64 x.maxId]) s) s

/-- HISTOGRAM_CLEAR (R554). -/
def execHistogramClear (q : Req) (unit : Nat) (s : State) : Host.Outcome State Fault Refusal :=
  kilak q 0xE009 (fun s =>
    match Tab.get? s.mon.hist unit with
    | none => deny .badState s
    | some x => done { s with mon := { s.mon with hist := Tab.set s.mon.hist unit { src := x.src, shift := x.shift } } }) s

/-- HISTOGRAM_RELEASE (R553). -/
def execHistogramRelease (q : Req) (unit : Nat) (s : State) : Host.Outcome State Fault Refusal :=
  kilak q 0xE00A (fun s =>
    match Tab.get? s.mon.hist unit with
    | none => deny .badState s
    | some _ => done { s with mon := { s.mon with hist := Tab.erase s.mon.hist unit } }) s

end Sys2Proof.Machine
end

