-- ==== Sys2Proof/Machine/Rx.lean ====
section
/-! DEFINITION. Upstream burst reception, the defects of ONUs, channel pairs and trees, listening as standby (R47 to R53,
R201 to R226). -/

namespace Sys2Proof.Machine

/-! ### State of a receive lane -/

/-- What a lane keeps of an ONU on a channel pair. -/
def State.rxOnu (s : State) (h c : Nat) : RxOnu := Tab.getD s.rx.onu (8 * h + c) {}

/-- What a lane keeps of an ONU, changed. -/
def onRxOnu (h c : Nat) (f : RxOnu → RxOnu) (s : State) : State :=
  { s with rx := { s.rx with onu := Tab.upd s.rx.onu (8 * h + c) {} f } }

/-- What a lane keeps of its channel pair. -/
def State.rxCh (s : State) (g : Nat) : RxCh := Tab.getD s.rx.ch g {}

/-- What a lane keeps of its channel pair, changed. -/
def onRxCh (g : Nat) (f : RxCh → RxCh) (s : State) : State :=
  { s with rx := { s.rx with ch := Tab.upd s.rx.ch g {} f } }

/-- A counter of an ONU on a channel pair. -/
def rxCount (c : Ctr) (h g n : Nat) (s : State) : State := bumpBy c (8 * h + g % 8) n s

/-- The context of an expected burst, from RANGING to LOST and still under the ONU-ID that the grant named (R155, R207). -/
def State.assigned (s : State) (x : Expect) : Option Onu :=
  (Tab.get? s.onu.ctx x.onu).filter fun o =>
    o.onuId.isSome && o.onuId == x.onuId && decide (3 ≤ o.state.ctorIdx ∧ o.state.ctorIdx ≤ 10)

/-! ### One burst (R201 to R207) -/

/-- How a standby measures its skew (R225): the window is ±16 ticks until 64 bursts have been delineated. -/
def State.skewWindow (s : State) (g : Nat) : Bool := s.standbyTree (g / 8) && !(s.rxCh g).skewDone

/-- What the lane read for an expected burst 64 ticks before it (R48); the present entry where no load has come (DESIGN CHOICE,
notes/assumptions/93.md). -/
def State.loadOf (s : State) (g : Nat) (x : Expect) : PhaseLoad :=
  ((Tab.getD s.lane.loaded g []).find? fun l => l.onu == x.onu && l.arrival == x.arrival).getD (s.loadFor g x.onu x.arrival x.rate)

/-- rx.delim_errmax in force: a new value counts from the channel pair's next evaluation (R202, R224). -/
def State.delimErrMax (s : State) (i : Nat) : Nat := (Tab.get? s.rx.errHeld i).getD (s.paramN 0x5001 i)

/-- The centre of the search window from the expected position, in whole ticks: the tick_offset of the entry loaded (R201). -/
def State.windowCentre (s : State) (g : Nat) (x : Expect) : Int :=
  let e := (s.loadOf g x).ent
  if e.valid then e.tickOffset else 0

/-- A position matches (R202): it lies in the search window and differs from the delimiter in few enough bits. -/
def State.matchAt (s : State) (g : Nat) (x : Expect) (p : Int × Nat) : Bool :=
  decide ((p.1 - 64 * s.windowCentre g x).natAbs ≤ if s.skewWindow g then 1024 else 256)
    && decide (p.2 ≤ s.delimErrMax (8 * g + 2 * x.rate + x.profile))

/-- The earlier of two offsets. -/
def earlier (m : Option Int) (d : Int) : Option Int :=
  match m with
  | none => some d
  | some q => some (min q d)

/-- The delimiter's arrival offset in 1/64 tick: the first matching position in time (R202), a standby's skew taken off (R225). -/
def State.delimiter (s : State) (g : Nat) (x : Expect) (rx : BurstRx) : Option Int :=
  let skew := if s.standbyTree (g / 8) then (s.rxCh g).skew else 0
  (((rx.delims.map fun p => (p.1 - skew, p.2)).filter (s.matchAt g x)).map (·.1)).foldl earlier none

/-- The expected burst's profile has FEC on (R204). -/
def fecOn (x : Expect) : Bool := Config.usFecOn x.rate x.profile

/-- Codewords of a burst that the decoder cannot correct (R204). -/
def rxUncorr (rx : BurstRx) : Nat := (rx.words.filter fun w => !w.ok).length

/-- Bits corrected in a burst. -/
def rxCorrBits (rx : BurstRx) : Nat := rx.words.foldl (fun n w => n + w.corr) 0

/-- A frame has a byte in an uncorrectable codeword (R204). -/
def rxSpoils (rx : BurstRx) (f : GemFrame) : Bool :=
  ((rx.words.drop f.words.1).take (f.words.2 + 1 - f.words.1)).any fun w => !w.ok

/-- The frames of an allocation up to the first header that its HEC cannot correct (R206). -/
def rxChain (a : RxAlloc) : List GemFrame := a.frames.takeWhile (·.hecOk)

/-- The allocation lost delineation. -/
def rxLost (a : RxAlloc) : Bool := a.frames.any fun f => !f.hecOk

/-- The bytes of an allocation left when delineation ended (R206): its payload less the frames before, headers of 8 bytes. -/
def rxHunt (a : RxAlloc) : Nat :=
  if rxLost a then a.bytes - (rxChain a).foldl (fun n f => n + 8 + f.octets.length) 0 else 0

/-- The outcome of a burst (R203 to R207), with its arrival offset when a delimiter was found. -/
def State.outcome (s : State) (g : Nat) (x : Expect) (rx : BurstRx) : Outcome × Option Int :=
  let heard := if x.noReset || !rx.loopLocked then none else s.delimiter g x rx
  match s.assigned x with
  | none => (.discarded, heard)
  | some o =>
      match heard with
      | none => (.missing, none)
      | some d =>
        if !rx.headerOk then (.foreign, some d)
        else if s.inQuarantine (g / 8) rx.onuId then (.discarded, some d)
        else if o.onuId != some rx.onuId then (.foreign, some d)
        else if (decide (0 < rxUncorr rx) && fecOn x) || rx.allocs.any rxLost then (.damaged, some d)
        else (.clean, some d)

/-- The burst is delineated. -/
def Outcome.delineated (x : Outcome) : Bool := x == .clean || x == .damaged

/-- Whole ticks of an offset in 1/64 tick. -/
def wholeTicks (d : Int) : Int := d / 64

/-- The phase memory after a delineated burst (R49, R50): the phase the loop was loaded with, the rate's skew in it, is compared
with the phase measured. The eighth of freq_err's move is rounded down (DESIGN CHOICE, notes/assumptions/93.md). -/
def phaseWrite (g : Nat) (x : Expect) (rx : BurstRx) (d : Int) (s : State) : State :=
  let e := s.phaseEnt x.onu (g % 8)
  let diff := (d - (s.loadOf g x).phase).natAbs
  let conf := if diff < 8 then min 15 (e.confidence + 1) else if diff < 16 then e.confidence else 0
  let n : PhaseEnt := {
    valid := true, confidence := conf, tickOffset := clampI (-8) 8 (wholeTicks d), finePhase := (d % 64).toNat
    freqErr := clampI (-2048) 2047 (e.freqErr + (rx.freqErr - e.freqErr) / 8), level := rx.level % 256, rate := x.rate
    lastSeen := x.sfc % 2 ^ 26 }
  { s with lane := { s.lane with phase := Tab.set s.lane.phase (8 * x.onu + g % 8) n } }

/-- Loads up to a burst that has been received are done with. -/
def dropLoads (g : Nat) (x : Expect) (s : State) : State :=
  { s with lane := { s.lane with loaded := Tab.modify s.lane.loaded g fun ls => ls.filter fun l => decide (x.arrival < l.arrival) } }

/-- Arrival statistics of a delineated burst (R208). -/
def RxOnu.arrived (r : RxOnu) (d : Int) : RxOnu :=
  { r with arrLast := d, arrMin := if r.arr.isEmpty then d else min r.arrMin d, arrMax := if r.arr.isEmpty then d else max r.arrMax d,
           arr := (d :: r.arr).take 64, granted := false }

/-- A standby's skew (R225): the median of the first 64 offsets, measured again when the mean of the last 64 lies beyond ±2
ticks. -/
def RxCh.skewStep (r : RxCh) (d : Int) : RxCh :=
  let xs := (d :: r.skewArr).take 64
  if xs.length < 64 then { r with skewArr := xs }
  else if !r.skewDone then { r with skewDone := true, skew := r.skew + medianOf xs, skewArr := [] }
  else if 128 < (meanOf xs).natAbs then { r with skewDone := false, skewArr := [] }
  else { r with skewArr := xs }

/-- Tributaries on an allocation. -/
def State.tribsOf (s : State) (a : Nat) : List Nat := (s.ds.trib.filter fun e => e.2.a.alloc == a && e.2.create.isNone).map (·.1)

/-- Payload octets of one grant of a container allocation in a superframe: all 16n + 16, unless the set in force grants the
allocation several times there (R96). -/
def State.containerPart (s : State) (g sfc : Nat) (x : Expect) (a : Nat × Nat × Bool × Bool) (t : Trib) : Nat :=
  if (((s.mapCh g).fixedAt sfc).filter fun f => fixedDue f sfc && f.entry.alloc == a.1).length ≤ 1 then 16 * t.a.slots + 16
  else fitBytes x.rate x.profile 0 a.2.1 (2 ^ 24)

/-- A grant of a container allocation that is missing: its payload octets were not delineated (R96). -/
def containerHole (g : Nat) (x : Expect) (a : Nat × Nat × Bool × Bool) (s : State) : State :=
  (s.tribsOf a.1).foldl (fun s i =>
    tribBytes i x.sfc (List.replicate (((Tab.get? s.ds.trib i).map (s.containerPart g x.sfc x a)).getD 0) 256) s) s

/-- One allocation of a delineated burst (R204, R206): its entry (alloc handle, ticks, dbru, ploamu) at place `pos` of the upstream
time line, and what was received for it. A frame that an uncorrectable codeword spoils is discarded. -/
def rxAlloc (g : Nat) (x : Expect) (standby fec : Bool) (rx : BurstRx) (e : Nat × Nat × Bool × Bool) (pos : Nat) (a : RxAlloc)
    (s : State) : State :=
  let h := x.onu
  let s := match if e.2.2.1 then a.report else none with
    | some n =>
      if !a.reportCrcOk then rxCount .dbruErr h g 1 s
      else if standby then s
      else takeReport e.1 n pos s
    | none => s
  let good := (rxChain a).filter fun f => !(rxSpoils rx f && fec)
  let s := rxCount .gemDiscard h g ((rxChain a).length - good.length) (rxCount .gemFrames h g good.length
    (rxCount .gemHuntBytes h g (rxHunt a) s))
  let s := if standby then s else (s.tribsOf e.1).foldl (fun s i => tribBytes i x.sfc a.container s) s
  if standby then bumpBy .standbyGem g good.length s
  else good.foldl (fun s f => frameArrive g h x.sfc f (bwCount (512 + 2 * g + 1) (f.octets.length + 8) s)) s

/-- The allocations of a burst in entry order, each with its entry, from place `pos` of the upstream time line on. -/
def rxAllocs (g : Nat) (x : Expect) (standby fec : Bool) (rx : BurstRx) :
    List ((Nat × Nat × Bool × Bool) × RxAlloc) → Nat → State → State
  | [], _, s => s
  | (e, a) :: r, pos, s => rxAllocs g x standby fec rx r (pos + e.2.1) (rxAlloc g x standby fec rx e pos a s)

/-- The place of a burst's first entry on the upstream time line. -/
def State.entryPos (s : State) (g : Nat) (x : Expect) : Nat :=
  x.arrival + preTicks x.rate x.profile + delTicks x.rate x.profile - s.upRef g

/-- An ONU that moved on its own arrives on the spare (R138), at the EqD of its standing instruction or the one it was ranged
with there. -/
def spareArrived (g h : Nat) (s : State) : State :=
  todUpdate h (onOnu h (fun o =>
    let standing := (o.standingEqd.filter fun p => p.1 == g % 8).map (·.2)
    { o with
      chan := g % 8
      eq := Tab.upd o.eq (g % 8) {} fun r => { r with valid := true, carried := standing.isSome, eqd64 := standing.getD r.eqd64,
                                                      confirmed := s.clk.sfc } })
    (rebindQueues h g (bump .tuneOk h s)))

/-- What a delineated burst confirms (R113, R134, R138). -/
def confirmBurst (g h : Nat) (s : State) : State :=
  let expected := s.spareAt h == some g
  let s := if expected then spareForget h s else s
  match Tab.get? s.onu.ctx h with
  | none => s
  | some o =>
    match o.state with
    | .confirm =>
      if !o.acked || o.g != g then s
      else
        let s := bump .rangeOk (8 * h + o.chan) (onOnu h (fun o => { o with
          acked := false
          eq := Tab.upd o.eq o.chan {} fun r => { r with valid := true, carried := false, confirmed := s.clk.sfc } }) s)
        if o.reRanging then todUpdate h (backToOperation h s) else enterRegistering h s
    | .tuning =>
      match o.tune with
      | some t =>
        if 8 * o.tree + t.target == g && (t.ranged || o.carryOk) then tuneArrived h s
        else if o.g == g && t.oldAt.isSome then tuneBack h .operation s
        else s
      | none => s
    | .lost => backToOperation h (if expected && o.g != g then spareArrived g h s else s)
    | .operation | .registering | .authorising | .extending => if expected && o.g != g then spareArrived g h s else s
    | _ => s

/-- A burst at the rate of the ladder's trial (R45). -/
def ladderBurst (x : Expect) (oc : Outcome) (uncorr : Bool) (s : State) : State :=
  onOnu x.onu (fun o =>
    if o.ladder.phase == 2 && o.ladder.rate == x.rate && oc != .discarded && decide (o.ladder.bursts < 16)
        && decide (s.clk.sfc < o.ladder.untilSfc) then
      { o with ladder := { o.ladder with bursts := o.ladder.bursts + 1, good := o.ladder.good + flag oc.delineated,
                                         uncorr := o.ladder.uncorr || uncorr } }
    else o) s

/-- The counter of an outcome (R223). -/
def outcomeCtr : Outcome → Option Ctr
  | .clean => some .burstsClean
  | .damaged => some .burstsDamaged
  | .missing => some .burstsMissing
  | .foreign => some .burstsForeign
  | .discarded => none

/-- An expectation ends in an outcome: its counters, and its place in the evaluation of its superframe. -/
def endBurst (g : Nat) (x : Expect) (oc : Outcome) (gasp : Bool) (d : Int) (s : State) : State :=
  let s := rxCount .burstsExpected x.onu g 1 s
  let s := match outcomeCtr oc with
    | some c => rxCount c x.onu g 1 s
    | none => s
  let s := if oc.delineated then s
    else onRxOnu x.onu (g % 8) (fun r => { r with granted := true })
      (if s.standbyTree (g / 8) then s else x.allocs.foldl (fun s a => containerHole g x a s) s)
  onRxCh g (fun r => { r with ends := r.ends ++ [{ sfc := x.sfc, onu := x.onu, outcome := oc, gasp := gasp, offset := wholeTicks d }] }) s

/-- SEED_MISS (R53): confidence falls to 0. -/
def seedMiss (g : Nat) (x : Expect) (s : State) : State :=
  let s := bump .seedMiss x.onu s
  { s with lane := { s.lane with phase := Tab.modify s.lane.phase (8 * x.onu + g % 8) fun e => { e with confidence := 0 } } }

/-- A burst in CONFIRM that is not found inside its window (R113). -/
def confirmLost (g h : Nat) (s : State) : State :=
  match Tab.get? s.onu.ctx h with
  | some o =>
    if o.state == .confirm && o.acked && o.g == g then confirmMiss h s
    else if o.state == .tuning && o.g == g && (o.tune.bind (·.oldAt)).isSome then tuneBack h .lost s
    else s
  | none => s

/-- The next DYNAMIC or FIXED expectation of a channel pair. -/
def nextExpect (xs : List Expect) : Option Expect := xs.find? fun x => x.kind == .dynamic || x.kind == .fixed

/-- BURST_RECEPTION (R201 to R208): the next expected burst of channel pair g and what the lane observes of it. -/
def burstReception (g : Nat) (rx : BurstRx) (s : State) : State :=
  match nextExpect (s.mapCh g).expect with
  | none => s
  | some x =>
    let standby := s.standbyTree (g / 8)
    let s := onMap g (fun m => { m with expect := m.expect.erase x }) s
    let (oc, d) := s.outcome g x rx
    let found := d.isSome
    let s := if oc == .missing && !rx.loopLocked && x.profile == 1 then seedMiss g x s else s
    let s := if found && rx.headerOk && oc == .discarded && s.inQuarantine (g / 8) rx.onuId then bump .ploamStale g s else s
    let s := if oc == .foreign && rx.headerOk then bump .onuIdMismatch g s else s
    let fec := found && fecOn x
    let s := if fec then
        rxCount .fecCodewords x.onu g rx.words.length (rxCount .fecCorrBits x.onu g (rxCorrBits rx) (rxCount .fecUncorr x.onu g (rxUncorr rx) s))
      else s
    let s := if standby then s else ladderBurst x oc (decide (0 < rxUncorr rx) && fec) s
    let s := endBurst g x oc (oc.delineated && rx.dyingGasp) (d.getD 0) s
    if oc.delineated then
      let d := d.getD 0
      let s := dropLoads g x (phaseWrite g x rx d s)
      let s := onRxOnu x.onu (g % 8) (fun r =>
        let r := r.arrived d
        if fec then { r with corr := r.corr + rxCorrBits rx, prot := r.prot + rx.protBits } else r) s
      let s := if standby then onRxCh g (fun r => r.skewStep d) s else s
      let s := rxAllocs g x standby fec rx (x.allocs.zip rx.allocs) (s.entryPos g x) s
      if standby then s else todMoved x.onu (confirmBurst g x.onu s)
    else if oc == .missing && !standby then confirmLost g x.onu s
    else s

/-- BURST_RECEPTION (R207). -/
def execBurstReception (g : Nat) (rx : BurstRx) (s : State) : Host.Outcome State Fault Refusal :=
  island (ponBlk g) (burstReception g rx) s

/-! ### The evaluation of an upstream superframe (R209 to R220) -/

/-- The last upstream superframe whose evaluation is due on channel pair g (R209). -/
def State.evalDue (s : State) (g : Nat) : Option Nat :=
  let now := 311040 * s.clk.sfc + s.clk.ltb % 311040
  let lag := s.upRef g + 311040 + 4096
  if now < lag then none else some ((now - lag) / 311040)

/-- A dying gasp of the ONU is in force at superframe n (R215). -/
def RxOnu.gaspAt (r : RxOnu) (n : Nat) : Bool :=
  match r.gaspUntil with
  | some u => decide (n ≤ u)
  | none => false

/-- Kinds of an upstream superframe (R211). -/
inductive SfKind
  | live | silent | dying | empty
deriving DecidableEq, Repr

/-- The kind of a superframe from its burst outcomes. -/
def State.sfKind (s : State) (g n : Nat) (es : List BurstEnd) : SfKind :=
  let es := es.filter fun e => e.outcome != .discarded
  if es.any (·.outcome.delineated) then .live
  else if es.isEmpty then .empty
  else if es.all fun e => (s.rxOnu e.onu (g % 8)).gaspAt n then .dying
  else .silent

/-- One outcome in burst order: the ONU's runs (R207, R212, R455) and its dying gasp (R215). -/
def evalEnd (g n : Nat) (kind : SfKind) (e : BurstEnd) (s : State) : State :=
  let c := g % 8
  let r := s.rxOnu e.onu c
  match e.outcome with
  | .discarded => s
  | .clean | .damaged =>
    let s := onRxOnu e.onu c (fun r => { r with
      missRun := 0
      damageRun := if e.outcome == .clean then 0 else min 15 (r.damageRun + 1)
      cleanRun := if e.outcome == .clean then min 15 (r.cleanRun + 1) else 0
      det := if (8 : Int) < e.offset || e.offset < -8 then r.det ||| 4 else r.det
      driftBy := if (8 : Int) < e.offset || e.offset < -8 then e.offset else r.driftBy
      gaspUntil := if e.gasp then some (n + s.paramN 0x5030 g - 1) else none }) s
    if e.gasp && !r.gaspAt n then
      let s := bump .dyingGasp e.onu s
      event 0x5002 [.u 15 e.onu, .u 9 g, .u 51 n] s
    else s
  | _ =>
    let s := if r.gaspAt n && e.outcome == .missing then rxCount .burstsDg e.onu g 1 s else s
    if kind == .silent || s.settling (g / 8) then s
    else onRxOnu e.onu c (fun r => { r with missRun := min 255 (r.missRun + 1) }) s

/-- LOS_C after a superframe of a kind (R209, R211). -/
def losStep (s : State) (g : Nat) (kind : SfKind) (r : RxCh) : RxCh :=
  let settle := s.settling (g / 8)
  let r := match kind with
    | .live => { r with silentRun := 0, liveRun := min 15 (r.liveRun + 1) }
    | .silent => { r with silentRun := if settle then r.silentRun else min 255 (r.silentRun + 1), liveRun := 0 }
    | _ => r
  let gone := !s.populated g || (Tab.getD s.lane.ch g {}).rx != .active
  { r with losC := if r.losC then !(gone || decide (2 ≤ r.liveRun)) else kind == .silent && decide (4 ≤ r.silentRun) && !gone }

/-- OPTICS_FAIL at an evaluation (R217): the causes' runs and the lowest cause that holds. -/
def opticsStep (s : State) (g : Nat) (r : RxCh) : RxCh :=
  let l := Tab.getD s.lane.ch g {}
  let r := { r with
    faultRun := if l.txFault then r.faultRun + 1 else 0
    txUnlockRun := if l.txPll then 0 else r.txUnlockRun + 1
    rxUnlockRun := if l.rxPll then 0 else r.rxUnlockRun + 1 }
  let cause := if 8 ≤ r.faultRun then 1 else if !l.present then 2 else if 2 ≤ r.txUnlockRun then 3 else if 2 ≤ r.rxUnlockRun then 4 else 0
  { r with opticsFail := cause != 0, opticsCause := cause }

/-- Causes that hold all leave the downstream intact (R217, R219). -/
def State.downstreamOk (s : State) (g : Nat) : Bool :=
  let r := s.rxCh g
  decide (r.faultRun < 8) && (Tab.getD s.lane.ch g {}).present && decide (r.txUnlockRun < 2)

/-- The channel pair has failed in itself. -/
def RxCh.down (r : RxCh) : Bool := r.losC || r.opticsFail

/-- An RxDefect or StandbyRxDefect event (R214, R226): defect 0 LOS_C, 1 OPTICS_FAIL, 2 LOB, 3 LOD, 4 DRIFT, 5 SDB. -/
def defectEvent (standby : Bool) (onu : Option Nat) (g defect : Nat) (set cause : Bool) (n : Nat) (s : State) : State :=
  event (if standby then 0x5001 else 0x5000)
    [.u 15 (onu.getD 0), .u 1 (flag onu.isSome), .u 9 g, .u 3 defect, .u 1 (flag set), .u 1 (flag cause), .u 51 n] s

/-- LOB (R113): OPERATION becomes LOST. -/
def lobAction (h : Nat) (s : State) : State :=
  match Tab.get? s.onu.ctx h with
  | some o =>
    if o.state == .operation then
      onOnu h (fun o => { o with
        state := .lost, deadline := some (s.clk.now + msT (s.paramN 0x3013 o.tree)) }) (ladderInterrupted h s)
    else s
  | none => s

/-- The re-ranging of R121 has not left CONFIRM by confirmation or by release: a failed confirmation ranges again (R113). -/
def State.reRanging (s : State) (h : Nat) : Bool :=
  match Tab.get? s.onu.ctx h with
  | some o => o.reRanging && (o.state == .confirm || o.state == .ranging)
  | none => false

/-- Defects detected after an evaluation (R209): LOB; LOD until four clean bursts; DRIFT, once reported, until the re-ranging
has left CONFIRM; SDB. -/
def RxOnu.conditions (r : RxOnu) (ranging drifted : Bool) : RxOnu :=
  let lob := decide (4 ≤ r.missRun)
  let lod := decide (4 ≤ r.damageRun) || (bit r.det 1 && decide (r.cleanRun < 4))
  let drift := drifted || (bit r.rep 2 && ranging)
  { r with det := flag lob + 2 * flag lod + 4 * flag drift + 8 * flag (bit r.det 3), drifted := drifted }

/-- The entry condition of a defect holds at an evaluation (R209, R213). -/
def RxOnu.enters (r : RxOnu) (drifted : Bool) : Nat → Bool
  | 0 => decide (4 ≤ r.missRun)
  | 1 => decide (4 ≤ r.damageRun)
  | 2 => drifted
  | _ => r.sdbHot

/-- A defect of an ONU is suppressed by its channel pair's or by a higher one of its own (R213). -/
def onuSuppressed (chanDown : Bool) (det k : Nat) : Bool := chanDown || (List.range k).any (bit det)

/-- Reported entries of an ONU defect are counted (R223). -/
def defectCtr : Nat → Ctr
  | 0 => .lobCount
  | 1 => .lodCount
  | 2 => .driftCount
  | _ => .sdbCount

/-- Reports and actions of an ONU's defects, from the highest (R213, R214): an entry is reported where its condition holds at
this evaluation. -/
def reportOnu (g n : Nat) (standby drifted : Bool) (h : Nat) (s : State) : State :=
  let c := g % 8
  (List.range 4).foldl (fun s k =>
    let r := s.rxOnu h c
    if onuSuppressed (s.rxCh g).down r.det k || bit r.det k == bit r.rep k || (bit r.det k && !r.enters drifted k) then s
    else
      let set := bit r.det k
      let s := onRxOnu h c (fun r => { r with rep := Nat.xor r.rep (2 ^ k) }) s
      let s := defectEvent standby (some h) g (2 + k) set (k == 0 && set && r.gaspAt n) n s
      let s := if set then bump (defectCtr k) h s else s
      if standby || !set then s
      else if k = 0 then lobAction h s
      else if k = 2 then reRange h r.driftBy s
      else s) s

/-- The defects of one ONU of the channel pair. -/
def evalOnu (g n : Nat) (standby : Bool) (es : List BurstEnd) (h : Nat) (s : State) : State :=
  let drifted := es.any fun e => e.onu == h && e.outcome.delineated && (decide ((8 : Int) < e.offset) || decide (e.offset < -8))
  reportOnu g n standby drifted h (onRxOnu h (g % 8) (fun r => r.conditions (s.reRanging h) drifted) s)

/-- Every ONU with an executed grant since its last delineated burst receives LOB (R220). -/
def lobAll (g : Nat) (s : State) : State :=
  (s.onu.ctx.filter fun e => e.2.g == g && (s.rxOnu e.1 (g % 8)).granted).foldl (fun s e => lobAction e.1 s) s

/-- The tree has TREE_FAIL (R218). -/
def State.treeFails (s : State) (t : Nat) : Bool :=
  let ps := (treePairs t).filter s.populated
  !ps.isEmpty && ps.all fun g => (s.rxCh g).down

/-- The test of the tree at an evaluation (R218 to R220). -/
def treeTest (t : Nat) (standby : Bool) (s : State) : State :=
  let was := s.rx.treeFail.contains t
  let now := s.treeFails t
  let kept := s.rx.treeFail.filter (· != t)
  let l : List Nat := if !now then kept else if was then s.rx.treeFail else s.rx.treeFail ++ [t]
  let s := { s with rx := { s.rx with treeFail := l } }
  let s := if now && !was then event 0x5003 [.u 8 t] s else s
  if !now || standby then s
  else
    let s := if was then s else abandonSpare t s
    if (s.grp t).st == .off then (if was then s else (treePairs t).foldl (fun s g => lobAll g s) s) else protFail t 0 s

/-- The test of a channel pair for CHANNEL_FAIL (R218 to R220). -/
def channelTest (g : Nat) (standby : Bool) (s : State) : State :=
  let r := s.rxCh g
  let hold := if r.down && !s.rx.treeFail.contains (g / 8) then r.holdRun + 1 else 0
  let fails := decide (s.paramN 0x5031 g ≤ hold)
  let s := onRxCh g (fun r => { r with holdRun := min 255 hold, channelFail := (r.channelFail && r.down) || fails }) s
  if !fails || r.channelFail then s
  else
    let s := event 0x5004 [.u 9 g, .u 1 (flag (s.downstreamOk g))] (bump .channelFailCount g s)
    if standby then s
    else
      match s.idleSpare (g / 8) with
      | some c => spareChannel g c (s.downstreamOk g) s
      | none => lobAll g s

/-- Entry and clear of LOS_C and OPTICS_FAIL reported and counted. -/
def channelReports (g n : Nat) (standby : Bool) (old new : RxCh) (s : State) : State :=
  let s := if old.losC == new.losC then s
    else defectEvent standby none g 0 new.losC false n (if new.losC then bump .losCCount g s else s)
  if old.opticsFail == new.opticsFail then s
  else
    let s := defectEvent standby none g 1 new.opticsFail false n (if new.opticsFail then bump .opticsFailCount g s else s)
    if new.opticsFail && !standby && (s.grp (g / 8)).st != .off then protFail (g / 8) 1 s else s

/-- ONUs whose current channel pair is g and whose defects are evaluated there: from CONFIRM to LOST, and one whose DRIFT its
release ends (R209). -/
def State.onusOn (s : State) (g : Nat) : List Nat :=
  (s.onu.ctx.filter fun e => e.2.g == g && (decide (4 ≤ e.2.state.ctorIdx ∧ e.2.state.ctorIdx ≤ 10)
    || bit (s.rxOnu e.1 (g % 8)).det 2 || bit (s.rxOnu e.1 (g % 8)).rep 2)).map (·.1)

/-- A channel pair is evaluated while it is enabled, serves ONUs or has a defect. -/
def State.evaluated (s : State) (g : Nat) : Bool :=
  (Tab.getD s.lane.ch g {}).enabled || s.populated g || (s.rxCh g).down || (s.rxCh g).channelFail

/-- UPSTREAM_EVALUATION (R209 to R220): the upstream superframe whose evaluation has come. Expectations of it that no burst
ended are missing. -/
def upstreamEvaluation (g : Nat) (s : State) : State :=
  match s.evalDue g with
  | none => s
  | some n =>
    let r0 := s.rxCh g
    if (match r0.evalSfc with
        | some m => decide (n ≤ m)
        | none => false) || !(s.evaluated g) then s
    else
      let s := { s with rx := { s.rx with errHeld := s.rx.errHeld.filter fun e => e.1 / 8 != g } }
      let standby := s.standbyTree (g / 8)
      let late := (s.mapCh g).expect.filter fun x => (x.kind == .dynamic || x.kind == .fixed) && decide (x.sfc ≤ n)
      let s := onMap g (fun m => { m with expect := m.expect.filter fun x => !late.contains x }) s
      let s := late.foldl (fun s x =>
        let s := endBurst g x (if (s.assigned x).isSome then .missing else .discarded) false 0 s
        if standby then s else confirmLost g x.onu s) s
      let es := (s.rxCh g).ends.filter fun e => decide (e.sfc ≤ n)
      let kind := s.sfKind g n es
      let s := if kind == .silent then bump .rxSilentSf g s else s
      let s := es.foldl (fun s e => evalEnd g n kind e s) s
      let s := onRxCh g (fun r => opticsStep s g (losStep s g kind { r with
        ends := r.ends.filter fun e => decide (n < e.sfc), evalSfc := some n })) s
      let s := channelReports g n standby r0 (s.rxCh g) s
      let s := (s.onusOn g).foldl (fun s h => evalOnu g n standby es h s) s
      channelTest g standby (treeTest (g / 8) standby s)

/-- UPSTREAM_EVALUATION (R209). -/
def execUpstreamEvaluation (g : Nat) (s : State) : Host.Outcome State Fault Refusal :=
  island (ponBlk g) (upstreamEvaluation g) s

/-- A profile that the ONU uses has FEC on. -/
def Onu.usesFec (o : Onu) (sfc : Nat) : Bool :=
  Config.usFecOn (rateAt o sfc) 0 || (o.seeded && Config.usFecOn (rateAt o sfc) 1)

/-- SDB_INTERVAL_END (R209): the interval runs from the ONU's entry to OPERATION. An ONU with FEC off never has SDB. -/
def sdbEnd (h : Nat) (s : State) : State :=
  match Tab.get? s.onu.ctx h with
  | none => s
  | some o =>
    let r := s.rxOnu h o.chan
    let len := msT (s.paramN 0x5021 o.g)
    match r.sdbEnd with
    | none => onRxOnu h o.chan (fun r => { r with sdbEnd := some (s.clk.now + len), corr := 0, prot := 0 }) s
    | some t =>
      if s.clk.now < t then s
      else
        let k := s.paramN 0x5020 o.g
        let enter := decide (r.prot ≤ r.corr * 10 ^ k) && decide (10 ^ (k + 1) ≤ r.prot)
        let clear := decide (r.corr * 10 ^ (k + 1) < r.prot)
        let on := (if bit r.det 3 then !clear else enter) && o.usesFec s.clk.sfc
        onRxOnu h o.chan (fun r => { r with det := r.det % 8 + 8 * flag on, sdbHot := enter && on, corr := 0, prot := 0, sdbEnd := some (t + len) }) s

/-- SDB_INTERVAL_END (R209). -/
def execSdbIntervalEnd (h : Nat) (s : State) : Host.Outcome State Fault Refusal :=
  island (ponBlk (((Tab.get? s.onu.ctx h).map (·.g)).getD 0)) (sdbEnd h) s

/-- DYING_GASP_EXPIRY (R215): once the evaluation of an upstream superframe past its window has come. -/
def gaspExpiry (h : Nat) (s : State) : State :=
  match Tab.get? s.onu.ctx h with
  | none => s
  | some o =>
    let f (c : Nat) (r : RxOnu) : RxOnu := match r.gaspUntil, (s.rxCh (8 * o.tree + c)).evalSfc with
      | some u, some n => if u < n then { r with gaspUntil := none } else r
      | _, _ => r
    { s with rx := { s.rx with onu := s.rx.onu.map fun e => if e.1 / 8 == h then (e.1, f (e.1 % 8) e.2) else e } }

/-- DYING_GASP_EXPIRY (R215). -/
def execDyingGaspExpiry (h : Nat) (s : State) : Host.Outcome State Fault Refusal :=
  island (ponBlk (((Tab.get? s.onu.ctx h).map (·.g)).getD 0)) (gaspExpiry h) s

/-- LANE_PLL_LOCK_CHANGE (R217): the lane PLL's state as the next evaluation samples it. -/
def execLanePllLockChange (g : Nat) (rx locked : Bool) (s : State) : Host.Outcome State Fault Refusal :=
  island (ponBlk g) (fun s =>
    let c := Tab.getD s.lane.ch g {}
    { s with lane := { s.lane with ch := Tab.set s.lane.ch g (if rx then { c with rxPll := locked } else { c with txPll := locked }) } }) s

/-! ### Commands (R224) -/

/-- A value of RxThresholdSet is in range (R202, R224): sub is 2 × rate + profile for rx.delim_errmax, else 0. -/
def thresholdOk (v : Nat × Nat × Int) : Bool :=
  let top : Int := (if v.2.1 / 2 = 0 then 8 else if v.2.1 / 2 = 1 then 2 else if v.2.1 / 2 = 2 then 5 else 10)
  if v.1 = 0x5001 then decide (v.2.1 < 8) && decide (0 ≤ v.2.2) && decide (v.2.2 ≤ top)
  else
    match pidDesc? v.1 with
    | some d => v.2.1 == 0 && decide (d.min ≤ v.2.2) && decide (v.2.2 ≤ d.max)
    | none => false

/-- One threshold set; what the search of R202 uses stays in force until the next evaluation. -/
def setThreshold (g : Nat) (v : Nat × Nat × Int) (s : State) : State :=
  if v.1 = 0x5001 then
    let i := 8 * g + v.2.1
    setParam 0x5001 i v.2.2 { s with rx := { s.rx with errHeld := Tab.set s.rx.errHeld i (s.delimErrMax i) } }
  else setParam v.1 g v.2.2 s

/-- RX_THRESHOLD_SET (R224). -/
def execRxThresholdSet (q : Req) (g : Nat) (vals : List (Nat × Nat × Int)) (s : State) : Host.Outcome State Fault Refusal :=
  kilak q 0x5003 (fun s =>
    if 512 ≤ g || !vals.all (fun v => [0x5001, 0x5020, 0x5021, 0x5030, 0x5031].contains v.1) then deny .badArg s
    else if !vals.all thresholdOk then deny .limit s
    else done (vals.foldl (fun s v => setThreshold g v s) s)) s

/-- ONU_RX_STATS (R208, R224): the counters of R223 and the arrival statistics; ARR_MIN and ARR_MAX start again from
ARR_LAST. -/
def onuRxStats (h : Nat) (chan : Option Nat) (s : State) : State × Option Reply :=
  match Tab.get? s.onu.ctx h with
  | none => deny .badState s
  | some o =>
    let c := chan.getD o.chan
    if 8 ≤ c then deny .badArg s
    else
      let r := s.rxOnu h c
      let n (x : Ctr) : RVal := .u 64 (s.count x (8 * h + c))
      let m (x : Ctr) : RVal := .u 64 (s.count x h)
      doneWith ([Ctr.burstsExpected, .burstsClean, .burstsDamaged, .burstsMissing, .burstsForeign, .burstsDg, .fecCodewords,
          .fecCorrBits, .fecUncorr, .gemFrames, .gemDiscard, .gemHuntBytes, .dbruErr].map n
        ++ [Ctr.dyingGasp, .lobCount, .lodCount, .driftCount, .sdbCount].map m
        ++ [.i 32 r.arrLast, .i 32 r.arrMin, .i 32 r.arrMax, .i 32 (meanOf r.arr), .u 12 r.rssi])
        (onRxOnu h c (fun r => { r with arrMin := r.arrLast, arrMax := r.arrLast }) s)

/-- ONU_RX_STATS (R224). -/
def execOnuRxStats (q : Req) (h : Nat) (chan : Option Nat) (s : State) : Host.Outcome State Fault Refusal :=
  kilak q 0x5001 (onuRxStats h chan) s

end Sys2Proof.Machine
end

