-- ==== Sys2Proof/Machine/Param.lean ====
section
/-! DEFINITION. Parameters: their values, their changes, their descriptors (R490 to R494). -/

namespace Sys2Proof.Machine

/-! ### Values -/

/-- A tributary's attribute as a parameter (R83). -/
def tribParam (pid : Nat) (a : TribArgs) : Nat :=
  match pid with
  | 0x2010 => a.channel
  | 0x2011 => a.slots
  | 0x2012 => a.fill
  | 0x2013 => a.gem
  | 0x2014 => a.alloc
  | _ => a.feedPayload

/-- The rates a channel pair uses upstream: its family's (R44, R580). -/
def State.usesRate (s : State) (g rate : Nat) : Bool :=
  if s.param 0x1020 g == 0 then rate == 0 else rate != 0 && decide (rate ≤ s.usRateMax g)

/-- The preamble or delimiter ticks of index 8g + 2 × rate + profile; 0 for a pair the channel does not use (R52). -/
def State.burstTicks (s : State) (f : Nat → Nat → Nat) (i : Nat) : Nat :=
  let rate := i / 2 % 4
  let prof := i % 2
  if s.usesRate (i / 8) rate && !(rate == 0 && prof == 1) then f rate prof else 0

/-- A buffer profile as one value, its fields in the order of R313. -/
def profWord (p : BufProfile) : Nat :=
  fields [(1, flag p.spill), (17, p.spillOn), (16, p.refillLow), (19, p.ondieMax), (23, p.deepMax), (1, flag p.be)]

/-- A sample filter as one value, its fields in the order of R549. -/
def filterWord (f : SampleFilter) : Nat :=
  fields [(4, f.privMask), (7, f.masterLo), (7, f.masterHi), (40, f.addrLo), (40, f.addrHi), (8, f.classMask)]

/-- A filter that is off. -/
def filterOff : SampleFilter := { privMask := 0, masterLo := 0, masterHi := 0, addrLo := 0, addrHi := 0, classMask := 0 }

/-- The parameters of lanes, framing, tributaries, activation, maps and reception that mirror state. -/
def State.lineValue (s : State) (pid i : Nat) : Option Int :=
  match pid with
  | 0x0010 => some s.opt.cur.macBase
  | 0x0200 => some s.opt.cur.pcieMode
  | 0x0201 => some s.opt.cur.port1Write
  | 0x2002 => some (if i = 1 then 0 else Config.txLatencyRaw i % 1025 : Nat)
  | 0x2003 => some (fsBytes i : Nat)
  | 0x2010 | 0x2011 | 0x2012 | 0x2013 | 0x2014 | 0x2015 =>
    some (((Tab.get? s.ds.trib i).map fun t => tribParam pid t.a).getD 0 : Nat)
  | 0x3021 => some (if s.usesRate (i / 4) (i % 4) then Config.zeroArrival (i / 4) (i % 4) else 0 : Nat)
  | 0x4011 => some (s.burstTicks preTicks i : Nat)
  | 0x4012 => some (s.burstTicks delTicks i : Nat)
  | 0x4013 => some (gridTicks i : Nat)
  | 0x4014 => some (s.upRef i : Nat)
  | 0x4A10 | 0x4A11 | 0x4A12 | 0x4A13 | 0x4A14 | 0x4A15 | 0x4A16 | 0x4A17 => some (policyIn s.map.policy pid i)
  | 0x4A20 => some (Tab.getD s.map.cyclesMax i 0 : Nat)
  | 0x5040 => some (s.rxCh i).skew
  | _ => none

/-- The parameters of the packet path, time, protection and stacks that mirror state. -/
def State.pathValue (s : State) (pid i : Nat) : Option Int :=
  match pid with
  | 0x6014 => some ((s.facet i).epoch % 256 : Nat)
  | 0x6015 => some ((s.facet (i / 2)).inFlight i : Nat)
  | 0x6017 => some (s.throttleValue i : Nat)
  | 0x8001 => some (s.pool.modeInForce : Nat)
  | 0x8012 => some (Tab.getD s.pool.held i 0 : Nat)
  | 0x8020 => some (917504 - s.pool.cells.length : Nat)
  | 0x8042 => some (s.freePages i : Nat)
  | 0x8050 => some (profWord (s.bufProf i) : Nat)
  | 0xB000 => some (s.time.state.ctorIdx : Nat)
  | 0xB003 => some s.time.residual
  | 0xC001 => some (s.opt.unitId : Nat)
  | 0xC002 => some (s.stackRole : Nat)
  | 0xC003 => some (s.opt.cur.stackTag : Nat)
  | 0xC004 => some (s.stackId : Nat)
  | _ => none

/-- The parameters of power, faults, monitors and Ampoule that mirror state. -/
def State.powerValue (s : State) (pid i : Nat) : Option Int :=
  match pid with
  | 0xD000 => some (s.pwr.domains : Nat)
  | 0xD010 => some (s.pwr.capW : Nat)
  | 0xD011 => some (s.pwr.capStageMax : Nat)
  | 0xD012 => some (s.pwr.estimate : Nat)
  | 0xD014 => some (s.setpoint : Nat)
  | 0xD020 => some (s.sagStage : Nat)
  | 0xD021 => some (if i = 0 then s.pwr.voltStage else s.pwr.capStage : Nat)
  | 0xD022 => some s.pwr.minMargin
  | 0xD030 => some (s.opt.copy : Nat)
  | 0xD031 => some (s.opt.cur.seq : Nat)
  | 0xD032 => some (s.opt.cur.bootSlot : Nat)
  | 0xD801 => some (s.ann.nextRun : Nat)
  | 0xD810 => some (s.vTarget i : Nat)
  | 0xD811 => some (clampI (-128) 127 (planGroup s.ann.plan i).margin)
  | 0xD812 => some ((s.ann.plan.facetTstart[i]?).getD 95 : Nat)
  | 0xE000 => some (if s.flt.latchReal then 1 else if s.flt.latchInj then 2 else 0)
  | 0xE001 => some (flag s.testMode : Nat)
  | 0xE100 => some (filterWord (Tab.getD s.mon.filters i filterOff) : Nat)
  | 0xE104 => some (s.mon.rateLog2 : Nat)
  | 0xE105 => some (s.mon.mode : Nat)
  | 0xE200 => some (s.mon.bwNs : Nat)
  | 0xF000 => some (flag s.amp.isOpen : Nat)
  | 0xF001 => some (s.amp.counter : Nat)
  | 0xF010 => some s.amp.inForce.dsOverhead
  | 0xF011 => some s.amp.inForce.usOverhead
  | 0xF012 => some (s.amp.inForce.maxerrAlarmNs : Nat)
  | 0xF013 => some (s.amp.inForce.sourceMask : Nat)
  | 0xF014 => some (s.amp.inForce.certId : Nat)
  | _ => none

/-- The value of a parameter at an index. -/
def State.paramValue (s : State) (pid i : Nat) : Int :=
  match (s.lineValue pid i).orElse fun _ => (s.pathValue pid i).orElse fun _ => s.powerValue pid i with
  | some v => v
  | none => s.param pid i

/-- Octets of a value of a PID: its width rounded up to a multiple of 8 octets (R490). -/
def PidDesc.octets (d : PidDesc) : Nat := 8 * ceilDiv d.width 64

/-- What a read of the values i to i + n - 1 of a PID changes: compile.cycles_max starts anew (R171). -/
def afterRead (pid i n : Nat) (s : State) : State :=
  if pid = 0x4A20 then
    { s with map := { s.map with cyclesMax := (List.range n).foldl (fun t k => Tab.erase t (i + k)) s.map.cyclesMax } }
  else s

/-- PARAM_GET (R490). -/
def paramGet (pid first count : Nat) (s : State) : State × Option Reply :=
  match pidDesc? pid with
  | none => deny .notFound s
  | some d =>
    if count = 0 || 256 < count then deny .badArg s
    else if d.indexCount < first + count then deny .limit s
    else doneWith [.lst d.octets ((List.range count).map fun k => signed (8 * d.octets) (s.paramValue pid (first + k)))]
      (afterRead pid first count s)

/-- PARAM_GET (R490). -/
def execParamGet (q : Req) (pid first count : Nat) (s : State) : Host.Outcome State Fault Refusal :=
  kilak q 0x0005 (paramGet pid first count) s

/-! ### Changes -/

/-- Uplink groups in mode 4. -/
def State.mode4Groups (s : State) : Nat := ((List.range 32).filter fun u => s.paramN 0x1500 u == 4).length

/-- Tap k of an uplink.tx_ffe value as a signed number, c(1) first (R69). -/
def ffeTap (v : Nat) (k : Nat) : Int :=
  let b := v / 2 ^ (8 * k) % 256
  if b < 128 then (b : Int) else (b : Int) - 256

/-- Why a value within its descriptor's range is refused (R41, R67, R69, R71, R115, R119, R142, R243, R274, R312, R440). Where
both refusals of R71 hold, LIMIT answers (DESIGN CHOICE, notes/assumptions/88.md). -/
def State.setRefused (s : State) (pid i : Nat) (v : Int) : Option Code :=
  let n := v.toNat
  let changes := s.param pid i != v
  match pid with
  | 0x1010 => if 16 < n / 256 || 22 < n % 256 then some .limit else none
  | 0x1011 => if n % 10 != 0 then some .limit else none
  | 0x1020 => if n = 1 then some .limit else if changes && s.anyPastDiscovery i then some .busy else none
  | 0x1500 =>
    if !changes then none
    else if n = 4 && 2 ≤ s.mode4Groups then some .limit
    else if (List.range 8).any fun l => (Tab.getD s.lane.port (8 * i + l) {}).up then some .busy
    else none
  | 0x1502 => if 64 < ((List.range 4).map fun k => (ffeTap n k).natAbs).foldl (· + ·) 0 then some .limit else none
  | 0x3002 => if s.paramN 0x3003 i < n then some .badArg else none
  | 0x3003 =>
    if n < s.paramN 0x3002 i then some .badArg else if s.paramN 0x3020 i < s.rtd i n then some .limit else none
  | 0x6010 => if n = 8 || n = 16 || n = 32 || n = 64 then none else some .limit
  | 0x3020 =>
    if n < s.rtd i (s.paramN 0x3003 i) || 1244160 < Config.zeroArrival i (s.baseRate i) + n then some .limit
    else if s.param 0xC010 (i / 8) == 1 && n < 250000 then some .limit
    else none
  | 0x3037 => if s.param 0xC010 i == 1 && n < 32 then some .limit else none
  | 0x7030 => if 1 ≤ n && n < 4 then some .limit else none
  | 0x7000 => if changes && !s.em.tab.isEmpty then some .busy else none
  | 0x8040 => if n % 4 != 0 then some .limit else if changes && !s.pool.pages.isEmpty then some .busy else none
  | _ => none

/-- A change of cipher.gem_encrypt is numbered: frames that arrived before keep the value before (R389). -/
def logEncrypt (gem : Nat) (old : Bool) (s : State) : State :=
  let n := s.cip.encNo + 1
  { s with cip := { s.cip with encNo := n, encLog := Tab.upd s.cip.encLog gem [] (· ++ [(n, old)]) } }

/-- A parameter changed. A new power.avs_guard moves the guard in force, unless the cap has lowered it (R530, R531). -/
def applyParam (pid i : Nat) (v : Int) (s : State) : State :=
  let old := s.paramN 0xD013 0
  let s1 := setParam pid i v s
  if pid = 0xD013 then
    let g := if s.pwr.guard = old && s.pwr.capStage = 0 then v.toNat else min s.pwr.guard v.toNat
    { s1 with pwr := { s1.pwr with guard := g } }
  else if pid = 0xA020 then logEncrypt i (s.param 0xA020 i == 1) s1
  else if pid = 0x1500 && v != 4 then
    { s1 with lane := { s1.lane with ixr := Tab.erase s1.lane.ixr i }, prot := { s1.prot with links := Tab.erase s1.prot.links i } }
  else s1

/-- The values in order from index i; the first that is refused ends it. -/
def setEach (d : PidDesc) : List Int → Nat → State → Except (Code × Nat) State
  | [], _, s => .ok s
  | v :: vs, i, s =>
    if v < d.min || d.max < v then .error (.limit, i)
    else
      match s.setRefused d.pid i v with
      | some c => .error (c, i)
      | none => setEach d vs (i + 1) (applyParam d.pid i v s)

/-- PARAM_SET (R490, R492): nothing is applied unless every value is taken. -/
def paramSet (pid first count : Nat) (vals : List Int) (s : State) : State × Option Reply :=
  match pidDesc? pid with
  | none => deny .notFound s
  | some d =>
    if count = 0 || 256 < count || vals.length != count then deny .badArg s
    else if d.access != 1 then deny .denied s
    else if d.indexCount < first + count then denyAt .limit 0 d.indexCount s
    else
      match setEach d vals first s with
      | .ok s1 => done s1
      | .error (c, i) => if c == .limit then denyAt c 0 i s else deny c s

/-- PARAM_SET (R490, R492). -/
def execParamSet (q : Req) (pid first count : Nat) (vals : List Int) (s : State) : Host.Outcome State Fault Refusal :=
  kilak q 0x0006 (paramSet pid first count vals) s

/-! ### Descriptors -/

/-- The 64 octets of a descriptor (R491). -/
def PidDesc.bytes (d : PidDesc) : List Nat :=
  let lim (v : Int) : List Nat := leOctets 8 (if 64 < d.width then 0 else signed 64 v)
  let dflt : Int := if bit d.flags 2 then 0 else pidDefault d.pid 0
  let name := (d.name.toList.map Char.toNat).take 24
  leOctets 2 d.pid ++ [d.access, d.indexKind] ++ leOctets 4 d.indexCount ++ leOctets 2 d.width ++ [d.unit, d.flags]
    ++ lim d.min ++ lim d.max ++ lim dflt ++ leOctets 2 d.opcode ++ [0, 0] ++ name ++ List.replicate (24 - name.length) 0

/-- PARAM_DESCRIBE (R491). -/
def execParamDescribe (q : Req) (pid : Nat) (s : State) : Host.Outcome State Fault Refusal :=
  kilak q 0x0007 (fun s =>
    match pidDesc? pid with
    | none => deny .notFound s
    | some d => doneWith [.lst 1 d.bytes] s) s

/-- PARAM_NEXT (R490): the next higher PID that exists; ENDED after the last. -/
def execParamNext (q : Req) (pid : Nat) (s : State) : Host.Outcome State Fault Refusal :=
  kilak q 0x0008 (fun s =>
    match pidTable.find? fun d => decide (pid < d.pid) with
    | some d => doneWith [.u 16 d.pid] s
    | none => deny .ended s) s

end Sys2Proof.Machine
end

