-- ==== Sys2Proof/Machine/Pf1.lean ====
section
/-! DEFINITION. Packet exchange on PF1 and plain register writes: punt delivery, inject rings, Function Level Reset of
PF1, registers without a behaviour of their own (R473, R475, R477, R495 to R500). -/

namespace Sys2Proof.Machine

/-! ### Punts (R497) -/

/-- Octets without their FCS. -/
def noFcs (os : List Nat) : List Nat := os.take (os.length - 4)

/-- Buffers posted in a punt ring and not yet used. -/
def Pf1Ring.buffers (r : Pf1Ring) : Nat := (r.tail % ringLen r.size + ringLen r.size - r.head) % ringLen r.size

/-- PUNT_DELIVERY (R497): the oldest punt of pipeline k; a packet longer than the buffer size or without a buffer is
dropped and counted. -/
def puntDelivery (k : Nat) (s : State) : State :=
  match s.host.puntQ.find? fun e => e.1 == k with
  | none => s
  | some e =>
    let x := e.2
    let s := { s with host := { s.host with puntQ := s.host.puntQ.erase e } }
    if (x.chain.map s.chainBad).getD false then eccDrop (x.chain.getD 0) s else
    let s := puntGone x s
    let r := Tab.getD s.host.punt x.ring {}
    let os := noFcs x.octets
    if r.enable && 2 ^ r.bufLog2 < os.length then ringDrop false x.ring s
    else if !r.enable || r.buffers = 0 then ringDrop false x.ring s
    else
      let d : PuntDone := { octets := os, reason := x.reason, dir := x.dir, sourceKind := x.sourceKind, source := x.source,
                            ltb := x.ltb, gem := if x.dir = 1 then x.gem else 0, tc := x.tc }
      let (m, sig) := r.irq.entry s.clk.now
      let h := s.host.setRing false x.ring { r with done := r.done ++ [d], head := (r.head + 1) % ringLen r.size, irq := m }
      { s with host := if sig then h.signal (s.ringPort x.ring) 1 x.ring else h }

/-- PUNT_DELIVERY (R497, R14): the egress half of the arrival slice hands the packet to the PCIe half of its ring's port; while
that egress half is in reset the packet is lost (R516). -/
def execPuntDelivery (k : Nat) (s : State) : Host.Outcome State Fault Refusal :=
  let ring := ((s.host.puntQ.find? fun e => e.1 == k).map fun e => e.2.ring).getD 0
  let b := sliceBlk (k / 2) (2 * (k % 2) + 1)
  if s.undefinedBlk b then .fault (.blockUndefined b)
  else if s.islandUp b then island (pcieBlk (s.ringPort ring)) (puntDelivery k) s
  else .next (puntLost k s)

/-- The packet rings of port p are disabled; punts in flight to them are dropped with PUNT_FLR, inject entries not yet
read are abandoned (R473). -/
def flrRings (p : Nat) (s : State) : State :=
  let ours (r : Nat) : Bool := s.ringPort r == p
  let lost := s.host.puntQ.filter fun e => ours e.2.ring
  let s := lost.foldl (fun s e => ringDrop false e.2.ring (puntGone e.2 s)) s
  let off (e : Nat × Pf1Ring) : Nat × Pf1Ring := if ours e.1 then (e.1, { e.2 with enable := false, posted := [] }) else e
  { s with host := { s.host with
    puntQ := s.host.puntQ.filter fun e => !ours e.2.ring
    punt := s.host.punt.map off
    inject := s.host.inject.map off } }

/-- FLR_PF1 (R473). -/
def execFlrPf1 (p : Nat) (s : State) : Host.Outcome State Fault Refusal :=
  regAccess p (fun s => let s := flrRings p s; { s with host := s.host.msixDisable p 1 }) s

/-! ### Inject rings (R498, R499) -/

/-- A frame with its FCS. -/
def withFcs (os : List Nat) : List Nat := os ++ leOctets 4 (crcOf 0 os)

/-- The entry is well formed: mode, length, and a handle that is not FREE where it names one (R498). -/
def State.injectOk (s : State) (e : InjectEntry) : Bool :=
  let n := e.frame.length
  let onuOk := (Tab.get? s.onu.ctx e.source).isSome
  decide (60 ≤ n ∧ n ≤ 10220 ∧ e.dir ≤ 1 ∧ e.tc < 8) && (match e.mode with
    | 0 => if e.dir = 0 then s.portExists e.source else onuOk
    | 1 => (e.noOnu || onuOk) && (if e.dir = 0 then decide (e.queue < 2 ^ 17) else decide (e.queue < 2 ^ 13))
    | 2 => onuOk
    | _ => false)

/-- Mode 0: an arrival from the source, at its pipeline's input (R498). -/
def injectArrival (e : InjectEntry) (s : State) : State × Nat :=
  let os := withFcs e.frame
  if e.dir = 0 then
    let k := 2 * (e.source / 32)
    let p : Pkt := { dir := 0, srcKind := 1, source := e.source, inj := true, octets := os, at_ := s.ltbNow, tc := e.tc }
    (onCls (fun c => { c with inq := Tab.upd c.inq k [] fun q => q ++ [p] }) s, 0)
  else
    match Tab.get? s.onu.ctx e.source with
    | none => (s, 0x63)
    | some o =>
      let k := 2 * (o.g / 64) + 1
      let p : Pkt := { dir := 1, srcKind := 0, source := e.source, inj := true, g := o.g, octets := os, at_ := s.ltbNow, tc := e.tc }
      let s := onuBytesIn e.source 1 os.length s
      (onCls (fun c => { c with inq := Tab.upd c.inq k [] fun q => q ++ [p] }) s, 0)

/-- Mode 1: requester 20 gives the cells, and the descriptor goes to its queue's egress half; a code when it is dropped. -/
def injectQueue (e : InjectEntry) (s : State) : State × Nat :=
  let os := withFcs e.frame
  let key := queueKey e.dir e.queue
  match (s.queue key).bind fun q => s.vertSlice q.a.parent with
  | none => (s, 0x33)
  | some sl =>
    let n := os.length
    let hdr : ChainHdr := { len := n, cells := cellsOf n, dir := e.dir, srcKind := 0, source := e.source, srcHost := true,
                            dest := if e.noOnu then none else some e.source, queue := 0, enqNs := 0 }
    match allocChain 20 1 52 hdr os s with
    | (.error c, s) => (bump .dropReq (256 * 20 + c) s, c)
    | (.ok cell, s) =>
      let s := if e.noOnu then s else onuBytesIn e.source 0 n s
      let s := onChain cell (fun c => { c with entered := true, hdr := { c.hdr with queue := key, enqNs := s.ltbNs } }) s
      let d : Desc := { cell := cell, len := n, queue := e.queue, tc := e.tc, dir := e.dir }
      (toXbar (2 * sl + e.dir) d s, 0)

/-- Mode 2: the ONU's OMCI port, behind the other messages of its channel pair (R499). -/
def injectOmci (e : InjectEntry) (s : State) : State × Nat :=
  match Tab.get? s.onu.ctx e.source with
  | none => (s, 0x63)
  | some o =>
    let n := e.frame.length
    let f : TxFrame := { octets := e.frame, len := n, up := none, dest := some e.source, lag := none, since := s.clk.now,
                         enc := s.param 0xA020 (Config.omciGem e.source) == 1 }
    let s := onuBytesIn e.source 0 n s
    ({ s with sch := { s.sch with omci := Tab.upd s.sch.omci o.g [] fun q => q ++ [f] } }, 0)

/-- One entry is read (R498): done with status 0, or the drop code; INJECT_BAD counts in RING_DROPS (R500). -/
def injectOne (r : Nat) (e : InjectEntry) (s : State) : State :=
  let (s, code) := if !s.injectOk e then (ringDrop true r s, 0x63)
    else
      match e.mode with
      | 0 => injectArrival e s
      | 1 => injectQueue e s
      | _ => injectOmci e s
  let x := Tab.getD s.host.inject r {}
  let (m, sig) := x.irq.entry s.clk.now
  let h := s.host.setRing true r { x with status := x.status ++ [code], head := (x.head + 1) % ringLen x.size, irq := m }
  { s with host := if sig then h.signal (s.ringPort r) 1 (32 + r) else h }

/-- INJECT_RING_DOORBELL (R498, R8): TAIL is stored as written; while the ring is enabled the entries up to it, modulo the ring's
size, are read in order. -/
def injectDoorbell (r : Nat) (tail : Nat) (entries : List InjectEntry) (s : State) : State :=
  let x := Tab.getD s.host.inject r {}
  let s1 := { s with host := s.host.setRing true r { x with tail := tail } }
  if 32 ≤ r then s
  else if !x.enable then s1
  else
    let n := (tail % ringLen x.size + ringLen x.size - x.head) % ringLen x.size
    let s := s1
    (entries.take n).foldl (fun s e => injectOne r e s) s

/-- INJECT_RING_DOORBELL (R498). -/
def execInjectRingDoorbell (r : Nat) (tail : Reg) (entries : List InjectEntry) (s : State) :
    Host.Outcome State Fault Refusal :=
  regAccess (s.ringPort r) (injectDoorbell r tail.toNat entries) s

/-! ### Plain registers (R475, R477, R482, R495, R501) -/

/-- A ring configuration register of a port (R482): base and size change only while the rings are disabled. -/
def KlPort.configure (k : KlPort) (off v : Nat) : KlPort :=
  let lo (b : Nat) : Nat := b / 2 ^ 32 * 2 ^ 32 + v
  let hi (b : Nat) : Nat := b % 2 ^ 32 + v * 2 ^ 32
  if off = 0x160 then
    let r := BitVec.ofNat 32 v
    { k with irqMod := r, cplIrq := irqModOf r k.cplIrq, evtIrq := irqModOf r k.evtIrq }
  else if k.enable then k
  else
    match off with
    | 0x108 => { k with cmdBase := lo k.cmdBase }
    | 0x10C => { k with cmdBase := hi k.cmdBase }
    | 0x110 => { k with cmdSize := v }
    | 0x120 => { k with cplBase := lo k.cplBase }
    | 0x124 => { k with cplBase := hi k.cplBase }
    | 0x128 => { k with cplSize := v }
    | 0x140 => { k with evtBase := lo k.evtBase }
    | 0x144 => { k with evtBase := hi k.evtBase }
    | 0x148 => { k with evtSize := v }
    | _ => k

/-- A configuration register of a PF1 ring (R495). -/
def Pf1Ring.configure (r : Pf1Ring) (off v : Nat) : Pf1Ring :=
  match off with
  | 0x18 => { r with irqMod := BitVec.ofNat 32 v, irq := irqModOf (BitVec.ofNat 32 v) r.irq }
  | 0x04 => if r.enable then r else { r with base := r.base / 2 ^ 32 * 2 ^ 32 + v }
  | 0x08 => if r.enable then r else { r with base := r.base % 2 ^ 32 + v * 2 ^ 32 }
  | 0x0C => if r.enable then r else { r with size := v }
  | _ => r

/-- The MSI-X vectors of a function (R470). -/
def msixVectors (fn : Nat) : Nat :=
  match fn with
  | 0 => 1024
  | 1 => 960
  | _ => 64

/-- The MSI-X table of a function lies at these offsets (R470). -/
def inMsixTable (fn off : Nat) : Bool := decide (msixBase fn ≤ off ∧ off < msixBase fn + 16 * msixVectors fn)

/-- A word of the MSI-X table of a function; a function that a Function Level Reset disabled signals again
(notes/assumptions/13.md), and a vector that the write unmasks sends its pending signal. -/
def msixWrite (fn port off v : Nat) (s : State) : State :=
  let h := { s.host with msixTab := Tab.set s.host.msixTab ((port * 3 + fn) * 2 ^ 24 + off) v
                         msixOff := s.host.msixOff.filter (· != port * 3 + fn) }
  let vec := (off - msixBase fn) / 16
  let key := msixKey port fn vec
  if h.msixPend.contains key && !h.msixMasked port fn vec then
    { s with host := ({ h with msixPend := h.msixPend.filter (· != key) }).signal port fn vec }
  else { s with host := h }

/-- The register at an offset of a function's BAR0 takes a value; a read-only or unmapped one ignores it (R475, R477). -/
def storeReg (fn port off v : Nat) (s : State) : State :=
  if inMsixTable fn off then msixWrite fn port off v s
  else if fn = 0 then
    if off = 0x24 then { s with host := { s.host with scratch := BitVec.ofNat 32 v } }
    else if 0x100 ≤ off && off < 0x168 then onPort port (fun k => k.configure off v) s
    else s
  else if fn = 1 then
    if off < 0x800 then
      let inject := decide (0x400 ≤ off)
      let r := off % 0x400 / 0x20
      if s.ringPort r == port then
        { s with host := s.host.setRing inject r ((Tab.getD (s.host.rings inject) r {}).configure (off % 0x20) v) }
      else s
    else s
  else if 0x2000 ≤ off && off < 0x2400 then
    let x := s.host.pf2 port
    { s with host := s.host.setPf2 port { x with mem := Tab.set x.mem ((off - 0x2000) / 4) (slotWord off v) } }
  else s

/-- REGISTER_WRITE (R475, R549): the write is stored and offered to the sample unit; Ampoule's function has no address in
the space. -/
def registerWrite (fn port off : Nat) (v : Nat) (s : State) : State :=
  if off % 4 != 0 || 3 ≤ fn then bump .pcieBadAccess 0 s
  else
    let s := storeReg fn port off v s
    if fn = 2 then s
    else sample { priv := 0, master := 72 + 2 * port + fn, cls := 1, addr := Config.internalAddr fn port off, sizeLog2 := 2,
                  data := v } s

/-- REGISTER_WRITE (R475). -/
def execRegisterWrite (fn port off : Nat) (v : Reg) (s : State) : Host.Outcome State Fault Refusal :=
  regAccess port (registerWrite fn port off v.toNat) s

end Sys2Proof.Machine
end

