-- ==== Sys2Proof/Machine/Reset.lean ====
section
/-! DEFINITION. The reset controller: sources, reach, release, watchdogs, block resets, sweeps; the option commit and the
boot; the restart of Bexed and the device commands (R490, R502 to R516, R520 to R524, R579). -/

namespace Sys2Proof.Machine

/-! ### Sources (R505, R509) -/

/-- The reach of a source: 3 power-on, 2 system, 1 core (R505). -/
def srcReach : ResetSource → Nat
  | .pwrGood => 3
  | .brownOut => 3
  | .resetN => 2
  | .perst => 2
  | .wdt => 2
  | .devCmd => 2
  | .reqSystem => 2
  | .coreCmd => 1
  | .bexedWdt => 1
  | .reqCore => 1

/-- The RESET_CAUSE bit of a source (R505). -/
def srcBit : ResetSource → Nat
  | .pwrGood => 31
  | .brownOut => 30
  | .resetN => 29
  | .perst => 28
  | .wdt => 27
  | .devCmd => 26
  | .reqSystem => 25
  | .coreCmd => 24
  | .bexedWdt => 23
  | .reqCore => 22

/-- RESET_CAUSE after a source is seen (R509): its bit set; `first` takes it while every bit was clear. -/
def causeSeen (cause : Reg) (bitNo : Nat) : Reg :=
  let old := cause.toNat / 2 ^ 22
  let first := if old = 0 then bitNo else cause.toNat % 32
  BitVec.ofNat 32 ((old ||| 2 ^ (bitNo - 22)) * 2 ^ 22 + first)

/-! ### What each level clears (R507, R508, R579) -/

/-- The counters that a core reset keeps (R508). -/
def coreCtrs : List Ctr :=
  [.pcieBadAccess, .refSwitch, .steerSwitch, .holdoverEntries, .todInErr, .ppsInMiss, .roundsWon, .roundsLost, .roundsVoid,
   .claimBusFault, .sblBadEvent, .sblLockLoss, .sblCrc, .sblLate, .sblTxMissed, .moduleUnreachable, .sagEntries,
   .capStageEntries, .optLoadFail, .blockResets]

/-- A core reset keeps the value of the parameter (R579). -/
def coreKeeps (pid : Nat) : Bool :=
  let grp := pid / 256
  [0x00, 0x02, 0x10, 0x13, 0x14, 0xB0, 0xF0].contains grp || decide (0xD0 ≤ grp ∧ grp ≤ 0xDF)
    || ((pidDesc? pid).map fun d => d.access == 3).getD false

/-- The ledger's cumulative imbalances alone (R507). -/
def keptLedger (l : LedS) : LedS :=
  let only (b : Balance) : Balance := { cum := b.cum }
  { bal := l.bal.map fun t => (t.1, t.2.map fun e => (e.1, only e.2)) }

/-- A port's Kilak rings at a core reset (R482, R507): disabled, their commands without completion. -/
def KlPort.coreReset (k : KlPort) : KlPort := { k with enable := false, inProg := [], evtLost := 0, lostFlag := false }

/-- The host interface at a core reset: the endpoint stays, Bexed starts again. -/
def HostS.coreReset (h : HostS) : HostS :=
  let clr (e : Nat × Pf1Ring) : Nat × Pf1Ring := (e.1, { e.2 with drops := 0 })
  { h with bexedReady := false, running := false, romMode := false, standby := none, restart := none, restartQueue := [],
           port0 := h.port0.coreReset, port1 := h.port1.coreReset, puntQ := [], punt := h.punt.map clr,
           inject := h.inject.map clr }

/-- The lanes at a core reset: PMAs, sideband links, I3C buses and phase memory stay; the framers stop, so that each
transmit lane returns to STANDBY; the uplink MAC and PCS and the Ixrardo links start again. -/
def LaneS.coreReset (l : LaneS) : LaneS :=
  let rest (x : LanePwr) : LanePwr := if x = .active then .standby else x
  let goal (x g : LanePwr) : LanePwr := if x = .off then .off else rest g
  let ch (c : LaneCh) : LaneCh :=
    { c with enabled := false, ladder := none, tx := rest c.tx, txGoal := goal c.tx c.txGoal, rx := rest c.rx, rxGoal := goal c.rx c.rxGoal }
  { ch := l.ch.map fun e => (e.1, ch e.2), phase := l.phase, link := l.link, bus := l.bus }

/-- TX_DISABLE for each channel pair that transmitted. -/
def stopLight (s : State) : State :=
  s.lane.ch.foldl (fun s e => if e.2.tx = .active || e.2.rx = .active then sbSend (e.1 / 8) (e.1 % 8) 0x3 0 s else s) s

/-- Core reset (R507, R508, R579). -/
def resetCore (s0 : State) : State :=
  let s := clearWindows coreReaches (stopLight (withdrawClaims (interruptWrite s0)))
  let ke : KeLock := { waitAmp := s.amp.drawing, grants := s.cip.ke.grants }
  let par := s.par.filter fun e => coreKeeps e.1
  let up (e : Nat × Option Req) : Nat × Option Req := (e.1, none)
  let r : State := {
    pending := s.pending, free := s.free, clk := s.clk, rst := s.rst, opt := s.opt
    pwr := { s.pwr with upping := s.pwr.upping.map up }
    host := s.host.coreReset, flt := s.flt
    ann := { step := s.ann.step, plan := s.ann.plan }
    led := keptLedger s.led, lane := s.lane.coreReset
    onu := { lastSerial := s.onu.lastSerial }
    time := { s.time with sets := [], pair := [], told := [] }
    amp := s.amp
    cip := { rngFailed := s.cip.rngFailed, draws := s.cip.draws, ke := ke }
    prot := { asMember := s.prot.asMember, busFault := s.prot.busFault }
    pool := { modeInForce := s.paramN 0x8000 0 }
    par := par
    ctr := s.ctr.filter fun e => coreCtrs.any fun c => c.ctorIdx == e.1 }
  let gs := Tab.keys (Tab.getD s.par 0x3022 [])
  gs.foldl (fun r g => setParam 0x3022 g (r.rtdPpm g) r) r

/-- The fault windows and latches after a system or power-on reset (R507): class-F records stay where a real class F is
latched; else every window is clear. -/
def FltS.wideReset (f : FltS) (power : Bool) : FltS :=
  let soft (e : Nat × FaultWin) : Option (Nat × FaultWin) :=
    if e.2.status &&& classFMask != 0 then some (e.1, e.2.clearSoft) else none
  if f.latchReal then { win := f.win.filterMap soft, latchReal := true, latchInj := f.latchInj, alive := false }
  else { alive := f.alive && !power }

/-- System or power-on reset (R507). The options in force stay until the next commit (R521). -/
def resetWide (power : Bool) (s0 : State) : State :=
  let s := interruptWrite s0
  { pending := s.pending, free := s.free, clk := { now := s.clk.now }, rst := s.rst, opt := s.opt
    pwr := { domains := s.pwr.domains }
    host := { restarts := if power then 0 else s.host.restarts }
    flt := s.flt.wideReset power
    ann := { step := if power then 0 else s.ann.step }
    led := if power then {} else keptLedger s.led
    amp := s.amp
    cip := { rngFailed := !power && s.cip.rngFailed, draws := s.cip.draws,
             ke := { grants := if power then 0 else s.cip.ke.grants } }
    prot := { asMember := !power && s.prot.asMember } }

/-- A source asserts its reset (R505, R509, R510): one that meets a reset in progress merges under the wider reach, and
the release starts again. -/
def assertReset (src : ResetSource) (s : State) : State :=
  let r := s.rst
  let lvl := srcReach src
  let cause := if lvl = 3 && r.reach != 3 then 0 else r.cause
  let reach := max r.reach lvl
  let alone (x : BlockRst) : BlockRst := { x with cmd := none }
  let r : RstS := {
    asserted := if r.asserted.contains src then r.asserted else r.asserted ++ [src]
    phase := .asserted, reach := reach, cause := causeSeen cause (srcBit src), strapDue := r.strapDue || lvl == 3
    held := if reach = 1 then r.held.filter fun b => !coreReaches b else []
    blocks := if reach = 1 then (r.blocks.filter fun x => !coreReaches x.block).map alone else []
    wdtCores := if reach = 1 then r.wdtCores else [] }
  let t := if reach = 1 then resetCore { s with rst := r } else resetWide (reach == 3) { s with rst := r }
  { t with rst := r }

/-- POWER_ON_RESET (R505): PWR_GOOD is low. -/
def execPowerOnReset (s : State) : Host.Outcome State Fault Refusal := .next (assertReset .pwrGood s)

/-- VDD_AO falls below its brown-out level (R525, R542): all state is cleared, the class-F latch and records included;
what the SPI NOR device and Ampoule's OTP hold stays. -/
def aoFall (s : State) : State :=
  let o := (interruptWrite s).opt
  let r : State := {
    pending := s.pending, free := (interruptWrite s).free, clk := { now := s.clk.now }
    opt := { copyA := o.copyA, copyB := o.copyB, bexed0 := o.bexed0, bexed1 := o.bexed1, marver0 := o.marver0,
             marver1 := o.marver1 }
    amp := { counter := s.amp.counter, slots := s.amp.slots, pin := s.amp.pin, pinAt := s.amp.pinAt } }
  r

/-- VDD_AO_FALL (R542). -/
def execVddAoFall (s : State) : Host.Outcome State Fault Refusal := .next (aoFall s)

/-- BROWN_OUT (R525). -/
def brownOut (rail : Rail) (s : State) : State :=
  match rail with
  | .vddAo => aoFall s
  | .vddAmp => newRun true s
  | _ => assertReset .brownOut s

/-- BROWN_OUT (R525). -/
def execBrownOut (rail : Rail) (s : State) : Host.Outcome State Fault Refusal := .next (brownOut rail s)

/-- AMP_RAIL_RESTART (R435). -/
def execAmpRailRestart (s : State) : Host.Outcome State Fault Refusal := island 173 (newRun true) s

/-- RESET_N_ASSERT (R505, R506): a low pulse of 1 µs or more is honoured, one below 200 ns ignored; between the two a
free value decides. -/
def resetNLow (lowNs : Nat) (s : State) : State :=
  if lowNs < 200 then s
  else if 1000 ≤ lowNs then assertReset .resetN s
  else if s.freeVal % 2 = 1 then assertReset .resetN s.drawn
  else s.drawn

/-- RESET_N_ASSERT (R506). -/
def execResetNAssert (lowNs : Nat) (s : State) : Host.Outcome State Fault Refusal := .next (resetNLow lowNs s)

/-- PCIE_PERST_PORT0 (R505). -/
def execPciePerstPort0 (s : State) : Host.Outcome State Fault Refusal := .next (assertReset .perst s)

/-- PCIE_PERST_PORT1 (R471): in mode 1, port 1's link and functions alone; what was fetched from its ring runs to its end
without completion. -/
def perst1 (s : State) : State :=
  if !s.twoPorts then s
  else
    let s := flrRings 1 s
    let fetched := s.host.port1.inProg.map fun e => { e with discard := true }
    { s with host := { s.host with
      port1 := { inProg := fetched }
      punt := s.host.punt.filter fun e => s.ringPort e.1 != 1
      inject := s.host.inject.filter fun e => s.ringPort e.1 != 1
      pf2b := {}
      msix := s.host.msix.filter fun e => e.1 / 6144 != 1
      msixTab := s.host.msixTab.filter fun e => e.1 / 2 ^ 24 / 3 != 1
      msixOff := s.host.msixOff.filter fun x => x / 3 != 1
      msixPend := s.host.msixPend.filter fun x => x / 6144 != 1
      pcie := s.host.pcie.filter fun e => e.1 / 3 != 1 } }

/-- PCIE_PERST_PORT1 (R471). -/
def execPciePerstPort1 (s : State) : Host.Outcome State Fault Refusal := .next (perst1 s)

/-! ### RESET_REQ and RESET_CAUSE (R479, R509) -/

/-- A RESET_REQ value with the key and a level. -/
def reqLevel (v : Reg) : Nat := if bits v.toNat 31 16 = 0x5EA1 then bits v.toNat 1 0 else 0

/-- RESET_REQ_CORE (R479). -/
def execResetReqCore (v : Reg) (s : State) : Host.Outcome State Fault Refusal :=
  regAccess 0 (fun s => if reqLevel v = 1 then assertReset .reqCore s else s) s

/-- RESET_REQ_SYSTEM (R479). -/
def execResetReqSystem (v : Reg) (s : State) : Host.Outcome State Fault Refusal :=
  regAccess 0 (fun s => if reqLevel v = 2 then assertReset .reqSystem s else s) s

/-- RESET_CAUSE after a W1C write; `first` is 0 when no bit stands (R479, R509). -/
def causeClear (cause v : Reg) : Reg :=
  let left := (cause &&& ~~~v).toNat / 2 ^ 22
  if left = 0 then 0 else BitVec.ofNat 32 (left * 2 ^ 22 + cause.toNat % 32)

/-- RESET_CAUSE after a W1C write in whose cycle the controller sets the bits of some sources: those stay set (R8, R476). -/
def causeClearMeet (cause v : Reg) (meet : List ResetSource) : Reg :=
  meet.foldl (fun c x => causeSeen c (srcBit x)) (causeClear cause v)

/-- RESET_CAUSE_CLEAR (R509). -/
def execResetCauseClear (w : CauseWrite) (s : State) : Host.Outcome State Fault Refusal :=
  regAccess 0 (fun s => { s with rst := { s.rst with cause := causeClearMeet s.rst.cause w.v w.meet } }) s

/-! ### Release (R510 to R513, R567) -/

/-- A source is released; after the last one the clocks-present check runs (R510, R512). For a system or power-on reset
every domain is powered (R513 step 3 powers down those absent from the options). -/
def sourceRelease (src : ResetSource) (s : State) : State :=
  let r := s.rst
  if !r.asserted.contains src then s
  else
    let left := r.asserted.filter (· != src)
    if left.isEmpty then
      { s with
        rst := { r with asserted := [], phase := .clocksCheck, checkEnd := s.clk.now + msT 10 }
        pwr := if 2 ≤ r.reach then { s.pwr with domains := 2 ^ 24 - 1 } else s.pwr }
    else { s with rst := { r with asserted := left } }

/-- RESET_SOURCE_RELEASE (R510). -/
def execResetSourceRelease (src : ResetSource) (s : State) : Host.Outcome State Fault Refusal := .next (sourceRelease src s)

/-- STRAP_SAMPLE (R567): STACK_ID[2:0] once per power-on reset, after its last source has been released. -/
def strapSample (v : Nat) (s : State) : State :=
  if s.rst.strapDue && s.rst.asserted.all fun x => srcReach x != 3 then
    { s with opt := { s.opt with unitId := v % 8 }, rst := { s.rst with strapDue := false } }
  else s

/-- STRAP_SAMPLE (R567). -/
def execStrapSample (v : Nat) (s : State) : Host.Outcome State Fault Refusal := .next (strapSample v s)

/-- XTS key pairs for the powered stacks (R375). -/
def drawAllXts (s : State) : State := [0, 1, 2, 3].foldl (fun s j => if bit s.pwr.domains (20 + j) then drawXts j s else s) s

/-- The option loader waits for the Key Engine (R377, R520 step 1). -/
def loaderWaits (s : State) : State := { s with cip := { s.cip with ke := { s.cip.ke with waitLoader := true } } }

/-- CLOCKS_PRESENT_CHECK_END (R512, R513): an island in reach without a clock stays in reset; step 1 releases TIME and
Ampoule, whose run begins; a core reset goes on with steps 5 and 6. The release steps wait for the strap sample (R567). -/
def checkDone (absent : List Nat) (s : State) : State :=
  let r := s.rst
  if r.phase != .clocksCheck || r.strapDue || (!absent.isEmpty && decide (s.clk.now < r.checkEnd)) then s
  else
    let reached (b : Nat) : Bool := decide (b ≤ 188) && b != 174 && (decide (2 ≤ r.reach) || coreReaches b)
      && bit s.pwr.domains (domainOf b)
    let held := absent.filter reached
    let s := { s with rst := { r with held := r.held ++ held } }
    let s := held.foldl (fun s b => raiseFault 174 8 b s) s
    let s := { s with flt := { s.flt with alive := !s.classF } }
    if 2 ≤ r.reach then newRun false (loaderWaits { s with rst := { s.rst with phase := .optionLoad } })
    else drawAllXts { s with rst := { s.rst with phase := .bootLoad, devWdt := some (s.clk.now + secT 2) } }

/-- CLOCKS_PRESENT_CHECK_END (R512). -/
def execClocksPresentCheckEnd (absent : Blocks) (s : State) : Host.Outcome State Fault Refusal := .next (checkDone absent s)

/-- ISLAND_LATE_CLOCK_RELEASE (R512): the block rebuilds state as after a block reset. -/
def lateClock (b : Nat) (s : State) : State :=
  if !s.rst.held.contains b then s
  else
    let s := { s with rst := { s.rst with held := s.rst.held.filter (· != b) } }
    match s.rst.blocks.find? fun x => x.block == b with
    | some x =>
      let go (y : BlockRst) : BlockRst := if y.block = b then { y with sweeping := true } else y
      rebuildBlock x { s with rst := { s.rst with blocks := s.rst.blocks.map go } }
    | none =>
      let r := resetOf b none s
      sweepBlock r (rebuildBlock r (clearBlock b s))

/-- ISLAND_LATE_CLOCK_RELEASE (R512). -/
def execIslandLateClockRelease (b : Nat) (s : State) : Host.Outcome State Fault Refusal := .next (lateClock b s)

/-! ### Options (R520, R521) -/

/-- An invalid copy is counted and raises OPT_COPY_INVALID (R520, R541). -/
def copyInvalid (copy step : Nat) (s : State) : State :=
  if step = 0 then s else raiseFault 179 8 (copy + 2 * step) (bump .optLoadFail copy s)

/-- A preset applies to a parameter that ParamSet may write (notes/assumptions/82.md). -/
def applyPreset (p : Preset) (s : State) : State :=
  match pidDesc? p.pid with
  | some d =>
    let v : Int := if bit d.flags 0 && decide (2 ^ 31 ≤ p.value) then (p.value : Int) - 2 ^ 32 else p.value
    if d.access = 1 then setParam p.pid p.index v s else s
  | none => s

/-- The powered domains that the options name: the first five always, HBM all or none (R519). -/
def optDomains (n : Nat) : Nat :=
  let hbm := n / 2 ^ 20 % 16
  n % 2 ^ 20 / 32 * 32 + 31 + (if hbm = 0 then 0 else 15 * 2 ^ 20)

/-- The domains absent from the options are powered down (R513 step 3). -/
def powerDown (want : Nat) (s : State) : State :=
  powerOff ((List.range 24).filter fun d => !bit want d) s

/-- The option loader holds the Key Engine, granted now where it is free, and then releases it (R377, R520 steps 1 and 8). -/
def loaderDone (s : State) : State :=
  let k := s.cip.ke
  let n := if k.owner = 0 then (k.grants + 1) % 2 ^ 16 else k.grants
  { s with cip := { s.cip with ke := { k with owner := 0, waitLoader := false, grants := n } } }

/-- The octets 0 to 4091 of a copy, over which its CRC is taken. -/
def crcOctets (i : OptImage) : List Nat := (optOctets i).take 4092

/-- OPTION_COMMIT (R520, R521): copy A, else copy B, else the defaults, in force in one cycle, while the loader holds the Key
Engine. -/
def optionCommit (s : State) : State :=
  if s.rst.phase != .optionLoad || s.cip.ke.owner = 1 || s.cip.ke.owner = 2 then s
  else
    let fa := optFail true s.opt.copyA
    let fb := optFail true s.opt.copyB
    let copy := if fa = 0 then 0 else if fb = 0 then 1 else 2
    let cur := if fa = 0 then s.opt.copyA else if fb = 0 then s.opt.copyB else OptImage.defaults
    let s := copyInvalid 0 fa (loaderDone s)
    let s := if fa = 0 then s else copyInvalid 1 fb s
    let s := cu3Ran (crcOctets (if fa = 0 then s.opt.copyA else s.opt.copyB)) s
    let s := { s with
      opt := { s.opt with cur := cur, copy := copy, failA := fa, failB := if fa = 0 then 0 else fb, fallbackDue := copy != 0 }
      pwr := { s.pwr with capW := cur.capW, capStageMax := cur.capStageMax }
      ann := { s.ann with plan := cur.plan }
      rst := { s.rst with phase := .hbmTraining } }
    powerDown (optDomains cur.domains) (cur.presets.foldl (fun s p => applyPreset p s) s)

/-- OPTION_COMMIT (R521). -/
def execOptionCommit (s : State) : Host.Outcome State Fault Refusal := island 179 optionCommit s

/-- HBM_TRAINING_DONE (R513 step 5): controllers, XTS engines with new keys, the pool, slices and Marver groups. -/
def trainingDone (s : State) : State :=
  if s.rst.phase != .hbmTraining then s
  else
    let s := { s with rst := { s.rst with phase := .bootLoad, devWdt := some (s.clk.now + secT 2) }
                      pool := { s.pool with modeInForce := s.paramN 0x8000 0 } }
    drawAllXts s

/-- HBM_TRAINING_DONE (R513). -/
def execHbmTrainingDone (s : State) : Host.Outcome State Fault Refusal := .next (trainingDone s)

/-! ### Boot (R523) -/

/-- The step at which a slot fails: 1 its Bexed image, 2 its Marver image, 0 none. -/
def OptS.bootFail (o : OptS) (slot : Nat) : Nat := if !o.bootOk slot false then 1 else if !o.bootOk slot true then 2 else 0

/-- The first run after a boot (R558), in LTB seconds. -/
def State.firstRun (s : State) : Nat :=
  if s.ann.plan.version = 0 then s.ltbSec + 60 else s.ann.plan.runSec + 86400 * s.paramN 0xD800 0

/-- bexed_ready is set, and what waited for it is reported (R512, R520, R523, R561). -/
def bexedReady (s : State) : State :=
  let s := { s with host := { s.host with bexedReady := true }
                    rst := { s.rst with phase := .released, reach := 0, devWdt := none }
                    ann := { s.ann with nextRun := s.firstRun } }
  let s := s.rst.held.foldl (fun s b => event 0xD002 [.u 8 b] s) s
  let s := if s.opt.fallbackDue then event 0xD003 [.u 2 s.opt.copy, .u 3 s.opt.failA, .u 3 s.opt.failB] s else s
  annAbort 1 { s with opt := { s.opt with fallbackDue := false } }

/-- BOOT_LOAD_DONE (R523): the slot of the options, else both images of the other, else ROM mode. -/
def bootDone (s : State) : State :=
  if s.rst.phase != .bootLoad then s
  else
    let want := s.opt.cur.bootSlot
    let fail := s.opt.bootFail want
    let slot := if fail = 0 then want else if s.opt.bootFail (1 - want) = 0 then 1 - want else 2
    let img := s.opt.boot slot true
    let s := if slot = 2 then
        { s with opt := { s.opt with booted := 2 }, host := { s.host with romMode := true, running := false } }
      else
        { s with
          opt := { s.opt with booted := slot }
          host := { s.host with romMode := false, running := true, image := s.opt.boot slot false }
          map := { s.map with core := (List.range 64).map fun k => (k, { active := img }) } }
    let s := bexedReady s
    if fail = 0 then s else event 0xD004 [.u 2 slot, .u 2 fail] s

/-- BOOT_LOAD_DONE (R523). -/
def execBootLoadDone (s : State) : Host.Outcome State Fault Refusal := .next (bootDone s)

/-! ### Watchdogs (R514) -/

/-- BEXED_WATCHDOG_EXPIRY (R514). -/
def bexedWatchdog (s : State) : State :=
  if !s.host.bexedReady then s
  else
    let s := assertReset .bexedWdt s
    let recent := s.rst.wdtCores.filter fun t => decide (s.clk.now < t + secT 60)
    { s with rst := { s.rst with wdtCores := if s.rst.reach = 1 then s.clk.now :: recent else [] } }

/-- BEXED_WATCHDOG_EXPIRY (R514). -/
def execBexedWatchdogExpiry (s : State) : Host.Outcome State Fault Refusal := .next (bexedWatchdog s)

/-- DEVICE_WATCHDOG_EXPIRY (R514): bexed_ready is late, or the Bexed watchdog has asserted a third core reset in 60 s. -/
def deviceWatchdog (s : State) : State :=
  if s.due s.rst.devWdt || decide (3 ≤ s.rst.wdtCores.length) then assertReset .wdt s else s

/-- DEVICE_WATCHDOG_EXPIRY (R514). -/
def execDeviceWatchdogExpiry (s : State) : Host.Outcome State Fault Refusal := .next (deviceWatchdog s)

/-! ### Block reset (R490, R515, R516) -/

/-- The blocks that take no block reset (R490, R507). -/
def noBlockReset (b : Nat) : Bool := decide (172 ≤ b ∧ b ≤ 176)

/-- BLOCK_RESET: `idle` is the block's idle indicator (R515); it is clear while the domain is off, and never set for
Bexed. -/
def blockReset (q : Req) (b : Nat) (idle : Bool) (s : State) : State × Option Reply :=
  if 189 ≤ b then deny .badArg s
  else if noBlockReset b then deny .denied s
  else if !idle || b == 104 || b == 105 || !s.islandUp b || s.rst.blocks.any (fun x => x.block == b) then deny .busy s
  else
    let r := resetOf b (some q) s
    let s := if 181 ≤ b then annAbort 1 s else s
    waits (clearBlock b { s with rst := { s.rst with blocks := s.rst.blocks ++ [r] } })

/-- BLOCK_RESET (R516). -/
def execBlockReset (q : Req) (b : Nat) (idle : Bool) (s : State) : Host.Outcome State Fault Refusal :=
  kilak q 0x0004 (blockReset q b idle) s

/-- BLOCK_RESET_RELEASE (R516): the island is released through the clocks-present check, and its block rebuilds state. -/
def blockRelease (b : Nat) (clockPresent : Bool) (s : State) : State :=
  match s.rst.blocks.find? fun x => x.block == b && !x.sweeping with
  | none => s
  | some x =>
    if s.rst.held.contains b then s
    else if clockPresent then
      let go (y : BlockRst) : BlockRst := if y.block = b then { y with sweeping := true } else y
      rebuildBlock x { s with rst := { s.rst with blocks := s.rst.blocks.map go } }
    else
      let s := { s with rst := { s.rst with held := s.rst.held ++ [b] } }
      event 0xD002 [.u 8 b] (raiseFault 174 8 b s)

/-- BLOCK_RESET_RELEASE (R516). -/
def execBlockResetRelease (b : Nat) (clockPresent : Bool) (s : State) : Host.Outcome State Fault Refusal :=
  .next (blockRelease b clockPresent s)

/-- LEDGER_SWEEP_DONE (R321): the chains that name the block are freed, and BlockReset completes. -/
def sweepDone (b : Nat) (s : State) : State :=
  match s.rst.blocks.find? fun x => x.block == b && x.sweeping with
  | none => s
  | some x =>
    let s := sweepBlock x { s with rst := { s.rst with blocks := s.rst.blocks.filter fun y => y.block != b } }
    match x.cmd with
    | some q => complete q 0x0004 .ok (bump .blockResets b s)
    | none => s

/-- LEDGER_SWEEP_DONE (R321). -/
def execLedgerSweepDone (b : Nat) (s : State) : Host.Outcome State Fault Refusal := island 180 (sweepDone b) s

/-- ORPHAN_SWEEP_DONE (R322): every cell in a state other than FREE that no live chain reaches is freed and counted. -/
def orphanDone (s : State) : State :=
  if !s.rst.orphanSweep then s
  else
    let live := s.pool.chains.flatMap fun e => e.2.cells
    let lost := s.pool.cells.filter fun e => !live.contains e.1 && !s.pool.freeing.contains e.1
    let s := { s with rst := { s.rst with orphanSweep := false } }
    let one (s : State) (e : Nat × Cell) : State :=
      ledEnd 0 0 1 (bump .orphanFreed 0 (onPool (fun p => { p with
        cells := Tab.erase p.cells e.1
        bad := p.bad.filter (· != e.1)
        held := Tab.upd p.held e.2.owner 0 (· - 1) }) s))
    lost.foldl one s

/-- ORPHAN_SWEEP_DONE (R322). -/
def execOrphanSweepDone (s : State) : Host.Outcome State Fault Refusal := island 180 orphanDone s

/-! ### The restart of Bexed (R502 to R504) -/

/-- BEXED_IMAGE_LOAD (R380, R490): the image waits for the Key Engine. -/
def imageLoad (q : Req) (img : Image) (s : State) : State × Option Reply :=
  if s.host.restart.isSome then deny .busy s
  else if imageRefused img 1 || 4194304 < img.length + 80 then deny .badArg s
  else waits (keQueue (.image q .bexed img) s)

/-- BEXED_IMAGE_LOAD (R380). -/
def execBexedImageLoad (q : Req) (img : Image) (s : State) : Host.Outcome State Fault Refusal :=
  kilak q 0x000A (imageLoad q img) s

/-- BEXED_RESTART (R502, R503 step 1). -/
def restart (q : Req) (s : State) : State × Option Reply :=
  match s.host.standby with
  | none => deny .badState s
  | some img =>
    if img.stateVersion != s.host.image.stateVersion then deny .badArg s
    else if s.host.restart.isSome || decide (1 < s.host.port0.inProg.length + s.host.port1.inProg.length) then deny .busy s
    else waits { s with host := { s.host with restart := some { cmd := q, start := s.clk.now, image := img } } }

/-- BEXED_RESTART (R503). -/
def execBexedRestart (q : Req) (s : State) : Host.Outcome State Fault Refusal := kilak q 0x000B (restart q) s

/-- A PLOAM message that waited during a restart is worked off (R503 step 4). -/
def replay (i : Instr) (s : State) : State :=
  match i with
  | .serialNumberOnu hd serial quiet => serialNumberOnu hd serial quiet s
  | .acknowledgement hd code => acknowledgement hd code s
  | .registration hd id => registration hd id s
  | .extCapability hd x => extCapability hd x s
  | .tuningResponse hd ack => tuningResponse hd ack s
  | .keyReport hd slot frag octets => keyReport hd slot frag octets s
  | .sleepRequest hd => unsupported hd s
  | .ploamUnsupported hd => unsupported hd s
  | _ => s

/-- The restart is over: fetching resumes, and the queue is worked off in arrival order. -/
def resume (s : State) : State :=
  let l := s.host.restartQueue
  l.foldl (fun s i => replay i s) { s with host := { s.host with restart := none, restartQueue := [] } }

/-- BEXED_TAKEOVER (R503 steps 3 and 4): within 500 ms of step 2, at a superframe boundary. -/
def takeover (s : State) : State :=
  match s.host.restart with
  | none => s
  | some r =>
    if r.start + msT 500 < s.clk.now then s
    else
      let old := s.host.image.version
      let us := ticksNs (s.clk.now - r.start) / 1000
      let s := { s with host := { s.host with image := r.image, standby := none, restarts := (s.host.restarts + 1) % 65536 } }
      let s := complete r.cmd 0x000B (.vals [.u 32 old, .u 32 r.image.version, .u 64 us]) (resume s)
      event 0x0000 [.u 32 old, .u 32 r.image.version] s

/-- BEXED_TAKEOVER (R503). -/
def execBexedTakeover (s : State) : Host.Outcome State Fault Refusal := island 105 takeover s

/-- BEXED_RESTART_TIMEOUT (R504). -/
def restartTimeout (s : State) : State :=
  match s.host.restart with
  | none => s
  | some r =>
    if s.clk.now < r.start + msT 500 then s
    else complete r.cmd 0x000B { code := .failed, detail := 2 * 2 ^ 24 } (resume s)

/-- BEXED_RESTART_TIMEOUT (R504). -/
def execBexedRestartTimeout (s : State) : Host.Outcome State Fault Refusal := island 105 restartTimeout s

/-- BEXED_STATUS as a register (R477). -/
def State.bexedWord (s : State) : Nat :=
  fields [(1, flag s.host.running), (1, flag s.host.restart.isSome), (1, flag s.host.standby.isSome), (13, 0),
    (16, s.host.restarts)]

/-- BEXED_STATUS (R490). -/
def execBexedStatus (q : Req) (s : State) : Host.Outcome State Fault Refusal :=
  kilak q 0x000C (fun s =>
    let sb := s.host.standby
    doneWith [.u 32 s.bexedWord, .u 32 s.host.image.version, .u 32 ((sb.map (·.version)).getD 0),
      .u 32 s.host.image.stateVersion, .u 32 ((sb.map (·.stateVersion)).getD 0)] s) s

/-! ### Device commands (R490) -/

/-- NOP (R490). -/
def execNop (q : Req) (s : State) : Host.Outcome State Fault Refusal := kilak q 0x0000 done s

/-- DEVICE_INFO (R490). -/
def execDeviceInfo (q : Req) (s : State) : Host.Outcome State Fault Refusal :=
  kilak q 0x0001 (fun s => doneWith [.u 32 0x66401FB4, .u 8 0xB1, .u 128 Config.devSerial.toNat, .u 32 s.host.image.version,
    .u 32 (s.core 0).active.version, .u 2 s.opt.copy, .u 1 s.opt.cur.pcieMode, .u 3 s.opt.unitId] s) s

/-- DEVICE_RESET (R437, R490): a checkpoint of Ampoule where it runs, then the system reset. -/
def execDeviceReset (q : Req) (s : State) : Host.Outcome State Fault Refusal :=
  kilak q 0x0002 (fun s =>
    let s := if s.islandUp 173 && !s.undefinedBlk 173 then checkpoint s else s
    waits (assertReset .devCmd s)) s

/-- CORE_RESET (R490). -/
def execCoreReset (q : Req) (s : State) : Host.Outcome State Fault Refusal :=
  kilak q 0x0003 (fun s => waits (assertReset .coreCmd s)) s

end Sys2Proof.Machine
end

