-- ==== Sys2Proof/Machine/Scan.lean ====
section
/-! DEFINITION. The CRC check units' scans of the spaces of R384 (R383 to R385). -/

namespace Sys2Proof.Machine

/-! ### CRC check units (R383 to R385) -/

/-- Octets and record size of a space (R384). -/
def crcSpace (sp : Nat) : Option (Nat × Nat) :=
  if sp = 0 then some (4 * 24 * 2 ^ 30, 64)
  else if sp = 1 then some (917504 * 256, 256)
  else if sp = 2 then some (262144 * 16, 16)
  else if sp = 3 then some (32768 * (16 + 8 * 4), 4)
  else if sp = 4 then some (512 * 2 * 1024 * 4, 4)
  else if sp = 5 then some (512 * 2 * 128 * 16, 16)
  else if sp = 6 then some ((262144 * 4 + 8192) * 32, 32)
  else if 0x10 ≤ sp && sp ≤ 0x17 then some (16 * 2048 * 48, 48)
  else none

/-- The record size at an address of a space: in space 0x03 the equalisation records follow the ONU contexts. -/
def crcRecord (sp addr size : Nat) : Nat := if sp = 3 && decide (addr < 32768 * 16) then 16 else size

/-- The CRC a register value gives after output reflection and final XOR. -/
def crcFinal (alg run : Nat) : Nat :=
  match crcAlg alg with
  | some (w, _, _, r, x) => Nat.xor (if r then bitRev w run else run) x
  | none => 0

/-- The octets of a record of a space at its address, its image little-endian (R384). The active page of a channel pair, or its
current set, stands first; none for HBM and the pool, whose octets no other state holds. -/
def State.spaceRecord (s : State) (sp addr : Nat) : List Nat :=
  let i16 := addr / 16
  if sp = 2 then
    let m := s.mapCh (i16 / 512)
    let page := if i16 / 256 % 2 = 0 then m.active else m.standby
    leOctets 16 ((page[i16 % 256]?).elim 0 entryWord)
  else if sp = 3 then
    if addr < 32768 * 16 then leOctets 16 ((Tab.get? s.onu.ctx i16).elim 0 Onu.status)
    else
      let r := (addr - 32768 * 16) / 4
      leOctets 4 ((Tab.get? s.onu.ctx (r / 8)).elim 0 fun o => (Tab.getD o.eq (r % 8) {}).word)
  else if sp = 4 then
    let c := s.dsCh (addr / 8192)
    let page := if addr / 4096 % 2 = 0 then c.active else c.standby
    leOctets 4 ((page[addr / 4 % 1024]?).elim 0 SlotEntry.word)
  else if sp = 5 then
    let m := s.mapCh (i16 / 256)
    let set := if i16 / 128 % 2 = 0 then m.fixedCur else m.fixedNext
    leOctets 16 ((set.bind fun f => f.entries[i16 % 128]?).elim 0 fixedWord)
  else if sp = 6 then
    leOctets 32 ((Tab.get? (s.emCopy 0) (addr / 32)).elim 0 fun e => EmEnt.word { e with hit := false, age := 0, retiring := false })
  else if 0x10 ≤ sp && sp ≤ 0x17 then
    let e := addr / 48
    let x := s.facet (sp - 0x10)
    let word (j : Nat) : Option Nat := (Tab.get? x.entry (e - 2048 * j)).bind fun f => (FacetEntry.words f)[j]?
    leOctets 48 ((((List.range (min 4 (e % 16384 / 2048 + 1))).findSome? word)).getD 0)
  else []

/-- The octets of so many records of a space from an address on. -/
def State.spaceOctets (s : State) (sp : Nat) : Nat → Nat → List Nat
  | 0, _ => []
  | n + 1, addr =>
    let r := s.spaceRecord sp addr
    r ++ s.spaceOctets sp n (addr + r.length)

/-- The octets that a unit reads next when as many as `data` have passed it: whole records, of the space where the state holds it,
else of `data`. -/
def State.scanned (s : State) (c : CrcUnit) (data : List Nat) : List Nat :=
  let rec_ := ((crcSpace c.space).map (·.2)).getD 1
  let stop := c.addr + min c.left data.length
  let stop := stop / crcRecord c.space stop rec_ * crcRecord c.space stop rec_
  if c.space ≤ 1 then data.take (stop - c.addr)
  else (s.spaceOctets c.space (ceilDiv (stop - c.addr) (crcRecord c.space c.addr rec_) * 4) c.addr).take (stop - c.addr)

/-- A busy unit reads octets of its space; the last one ends the scan. -/
def CrcUnit.read (c : CrcUnit) (d : List Nat) : CrcUnit :=
  if !c.busy then c
  else
    let left := c.left - d.length
    { c with run := crcStep c.alg c.run d, addr := c.addr + d.length, left := left, isDone := left == 0, busy := left != 0 }

/-- The context of R385. -/
def CrcUnit.vals (c : CrcUnit) : List RVal :=
  [.u 64 c.alg, .u 64 c.space, .u 64 c.addr, .u 64 c.left, .u 64 (flag c.isDone), .u 64 c.run]

/-- CRC_SCAN_START (R384, R385): unit 3 is not the host's; the range is checked against the space. -/
def execCrcScanStart (q : Req) (unit alg space addr len init run : Nat) (s : State) : Host.Outcome State Fault Refusal :=
  kilak q 0xA00B (fun s =>
    if unit = 3 then deny .limit s
    else if 3 < unit || (crcAlg alg).isNone || 2 ≤ init then deny .badArg s
    else if (s.crcUnit unit).busy then deny .busy s
    else
      match crcSpace space with
      | none => deny .badArg s
      | some (size, rec) =>
        if size < addr + len || addr % crcRecord space addr rec != 0 || (addr + len) % crcRecord space (addr + len) rec != 0 then deny .badArg s
        else done (onCu unit (fun _ => {
          alg := alg, space := space, addr := addr, left := len, run := if init = 1 then crcInit alg else run
          isDone := len == 0, busy := len != 0 }) s)) s

/-- CRC_SCAN_PAUSE (R385): as many octets as `data` have passed until the current record's end. A pause that meets the last record finds the
scan done. -/
def execCrcScanPause (q : Req) (unit : Nat) (data : List Nat) (s : State) : Host.Outcome State Fault Refusal :=
  kilak q 0xA00C (fun s =>
    let c := s.crcUnit unit
    if unit = 3 then deny .limit s
    else if 3 < unit then deny .badArg s
    else if !c.busy then deny .badState s
    else
      let c := c.read (s.scanned c data)
      doneWith c.vals (onCu unit (fun _ => { c with busy := false }) s)) s

/-- CRC_SCAN_STATUS (R390): the context, and the final CRC when done. -/
def execCrcScanStatus (q : Req) (unit : Nat) (data : List Nat) (s : State) : Host.Outcome State Fault Refusal :=
  kilak q 0xA00D (fun s =>
    if unit = 3 then deny .limit s
    else if 3 < unit then deny .badArg s
    else
      let c := (s.crcUnit unit).read (s.scanned (s.crcUnit unit) data)
      doneWith (c.vals ++ [.u 64 (if c.isDone then crcFinal c.alg c.run else 0)]) (onCu unit (fun _ => c) s)) s

/-- CRC_SCAN_DONE (R385): the scan has read the rest of its space, each byte once. -/
def execCrcScanDone (unit : Nat) (data : List Nat) (s : State) : Host.Outcome State Fault Refusal :=
  island 178 (fun s =>
    let c := s.crcUnit unit
    if c.busy && decide (c.left ≤ data.length) then onCu unit (fun c => c.read (s.scanned c data)) s else s) s

end Sys2Proof.Machine
end

