-- ==== Sys2Proof/Machine/Superframe.lean ====
section
/-! DEFINITION. The superframe boundary (R27, R77): protection, pages, snapshots, keys, the PLOAM partition and the
downstream frame of every channel pair, in that order. -/

namespace Sys2Proof.Machine

/-! ### The PLOAM partition (R80, R123 to R125) -/

/-- The context that a message concerns: its ONU's, or that of the serial number Assign_ONU-ID names. -/
def State.itemOnu (s : State) (i : PlItem) : Option (Nat × Onu) :=
  match i.onu with
  | some h => (Tab.get? s.onu.ctx h).map fun o => (h, o)
  | none =>
    match i.msg with
    | .assignOnuId _ serial => s.findSerial serial
    | _ => none

/-- The channel pair of a Ranging_Time: where its ranging window was, the target of a retune or the spare (R134, R138). -/
def State.rangingChan (s : State) (h : Nat) (o : Onu) : Nat :=
  match o.tune with
  | some t => 8 * o.tree + t.target
  | none => (s.spareAt h).getD o.g

/-- The channel pair that carries a message: its ONU's present one (R132), else the one it was queued for. -/
def State.itemChan (s : State) (i : PlItem) : Nat :=
  match i.onu.bind fun h => (Tab.get? s.onu.ctx h).map fun o => (h, o) with
  | some (h, o) => (match i.msg with
    | .rangingTime _ => s.rangingChan h o
    | _ => o.g)
  | none => i.g

/-- The message is for an ONU in DISCOVERED to EXTENDING (R80). -/
def State.itemEarly (s : State) (i : PlItem) : Bool :=
  match s.itemOnu i with
  | some (_, o) => decide (2 ≤ o.state.ctorIdx ∧ o.state.ctorIdx ≤ 7)
  | none => false

/-- The message is ready to be sent in superframe sfc: no retry or repetition waits, its ONU has an ONU-ID, no answer is
outstanding before one that needs an answer (R123), and the ONU is not away on a retune (R132). -/
def State.itemReady (s : State) (sfc : Nat) (i : PlItem) : Bool :=
  decide (i.ready ≤ sfc) && (match i.onu with
    | none => true
    | some h =>
      match Tab.get? s.onu.ctx h with
      | none => false
      | some o => o.onuId.isSome && !(o.awaits i.msg && o.out.isSome)
          && !(o.state == .tuning && !ofRetune i.msg && (o.tune.map fun t => decide (t.q ≤ sfc)).getD false))

/-- The message as it leaves: Rate_Step carries the SFC of its sending + 20 (R128). -/
def asSent (sfc : Nat) : PlMsg → PlMsg
  | .rateStep r _ seeded => .rateStep r (sfc + 20) seeded
  | m => m

/-- A message leaves on channel pair g: a unicast one takes its ONU's SeqNo, a broadcast one the channel pair's; one that
needs an answer is outstanding from now on. -/
def sendItem (g sfc : Nat) (i0 : PlItem) (s : State) : Nat × State :=
  let i := { i0 with msg := asSent sfc i0.msg }
  let ctx := i.onu.bind fun h => (Tab.get? s.onu.ctx h).map fun o => (h, o)
  let out (seq : Nat) (id : Option Nat) (s : State) : State :=
    bump .dsPloamSent g { s with onu := { s.onu with sent := s.onu.sent ++ [{ g := g, onuId := id, seq := seq, msg := i.msg }] } }
  match ctx with
  | some (h, o) =>
    let seq := i.seq.getD o.seqNo
    let s := onOnu h (fun o => { o with
      seqNo := if i.seq.isSome then o.seqNo else (o.seqNo + 1) % 256
      out := if o.awaits i.msg then some { msg := i.msg, seq := seq, sfc := sfc, tries := i.tries } else o.out
      tune := if isCarry i.msg then o.tune.map fun t => { t with carry := some { msg := i.msg, seq := seq, sfc := sfc, tries := i.tries } }
        else o.tune }) s
    (seq, out seq o.onuId s)
  | none =>
    let next := Tab.getD s.onu.bcastSeq g 0
    let seq := i.seq.getD next
    let s := if i.seq.isSome then s
      else { s with onu := { s.onu with bcastSeq := Tab.set s.onu.bcastSeq g ((next + 1) % 256) } }
    (seq, out seq none s)

/-- One pass over the queued messages for channel pair g: those of one class (R80), in order, while there is room. A
ready message without room counts in DS_PLOAM_DEFERRED (R82). A message that repeats stays (R124). -/
def sendPass (g sfc : Nat) (early : Bool) : List PlItem → Nat → State → List PlItem × Nat × State
  | [], room, s => ([], room, s)
  | i :: is, room, s =>
    if s.itemChan i != g || s.itemEarly i != early || !s.itemReady sfc i then
      let (r, n, s) := sendPass g sfc early is room s
      (i :: r, n, s)
    else if room = 0 then
      let (r, n, s) := sendPass g sfc early is room (bump .dsPloamDeferred g s)
      (i :: r, n, s)
    else
      let (seq, s) := sendItem g sfc i s
      let (r, n, s) := sendPass g sfc early is (room - 1) s
      if i.left ≤ 1 then (r, n, s) else ({ i with left := i.left - 1, seq := some seq, ready := sfc + 1 } :: r, n, s)

/-- The broadcast profile messages of channel pair g, by number (R124, R125). -/
def State.profiles (s : State) (g : Nat) : List Nat :=
  [0, 1] ++ ((List.range 8).filter fun c => !s.isSpare (8 * (g / 8) + c)).map (2 + ·)

/-- The message of a profile number. -/
def profMsg (k : Nat) : PlMsg := if k = 0 then .burstProfile else if k = 1 then .systemProfile else .channelProfile (k - 2)

/-- When a profile message falls due: 48 superframes after it was last sent; 0, at once, where it has not been (R125). -/
def State.profDue (s : State) (g k : Nat) : Nat := ((Tab.get? s.onu.profSent (16 * g + k)).map (· + 48)).getD 0

/-- A profile message is sent while there is room; one that is due and finds none is deferred (R82). -/
def sendProf (g sfc : Nat) (due : Bool) (acc : Nat × State) (k : Nat) : Nat × State :=
  let (room, s) := acc
  if room = 0 then (0, if due then bump .dsPloamDeferred g s else s)
  else
    let s := (sendItem g sfc { g := g, onu := none, msg := profMsg k } s).2
    (room - 1, { s with onu := { s.onu with profSent := Tab.set s.onu.profSent (16 * g + k) sfc } })

/-- The profile messages of a list, the one due longest first. -/
def State.profOrder (s : State) (g : Nat) (ks : List Nat) : List Nat :=
  ks.mergeSort fun a b => decide (s.profDue g a ≤ s.profDue g b)

/-- The PLOAM partition of channel pair g: due profile messages, messages for ONUs that come up, all others, and profile
messages again in what room is left, none twice within 8 superframes (R80, R125). The reserved spare sends no
profile, and a channel pair that is not enabled yet none either. -/
def sendPloam (g sfc : Nat) (s : State) : Nat × State :=
  let size := s.paramN 0x2001 0
  let ks := if s.isSpare g || !(Tab.getD s.lane.ch g {}).enabled then [] else s.profiles g
  let due := ks.filter fun k => decide (s.profDue g k ≤ sfc)
  let (room, s) := (s.profOrder g due).foldl (sendProf g sfc true) (size, s)
  let (q, room, s) := sendPass g sfc true s.onu.queue room s
  let (q, room, s) := sendPass g sfc false q room s
  let s := { s with onu := { s.onu with queue := q } }
  let fill := ks.filter fun k => (Tab.get? s.onu.profSent (16 * g + k)).any fun n => decide (n + 8 ≤ sfc)
  let (room, s) := (s.profOrder g fill).foldl (sendProf g sfc false) (room, s)
  (size - room, s)

/-! ### The boundary of a channel pair -/

/-- The pages of a channel pair at the boundary, whatever its lanes do (R158): the fixed pattern set first, which the map's
execution reads (R149, R159). A standby's maps come from its peer (R225, R452). -/
def pairPages (sfc g : Nat) (s : State) : State :=
  if !s.islandUp (ponBlk g) then s
  else
    let s := fixedActivate g sfc s
    let s := if s.standbyTree (g / 8) then s else mapBoundary g sfc s
    slotBoundary g sfc s

/-- A transmit lane that is ACTIVE sends the superframe's frame, a spare's from its first superframe on (R106, R462). -/
def pairSends (sfc g : Nat) (s : State) : State :=
  if s.islandUp (ponBlk g) && (Tab.getD s.lane.ch g {}).tx == .active && decide ((s.dsCh g).txFrom ≤ sfc) then
    let (n, s) := sendPloam g sfc s
    dsFrame g sfc n s
  else s

/-- Profile messages of a channel pair that does not transmit, or is the spare, fall due at once when it does (R125). -/
def forgetProfiles (s : State) : State :=
  { s with onu := { s.onu with profSent := s.onu.profSent.filter fun e =>
      (Tab.getD s.lane.ch (e.1 / 16) {}).tx == .active && (Tab.getD s.lane.ch (e.1 / 16) {}).enabled && !s.isSpare (e.1 / 16) } }

/-- The full ranging window on the target at Q + T of an ONU retuned without a carried delay (R134): asked for at the
snapshot that compiles that superframe. -/
def tuneWindows (sfc : Nat) (s : State) : State :=
  s.onu.ctx.foldl (fun s e =>
    match e.2.tune with
    | some t =>
      if e.2.state == .tuning && !e.2.carryOk && !t.windowed && decide (s.tuneDueAt e.1 t ≤ sfc + 1) then
        tuneWindow e.1 (8 * e.2.tree + t.target) t s
      else s
    | none => s) s

/-- The standing instruction of every ONU whose E_spare changed by more than 2 ticks goes out again (R137). -/
def standingAll (s : State) : State := (Tab.keys s.onu.ctx).foldl (fun s h => standingSpare h false s) s

/-- Sideband frames that left before the superframe that has ended are forgotten (R54), and the Ixrardo frames sent in it. -/
def pruneSideband (s : State) : State :=
  { s with lane := { s.lane with
      link := s.lane.link.map fun e => (e.1, { e.2 with out := e.2.out.filter fun x => decide (s.sbFrameNow ≤ x.frame + 1215) })
      ixr := s.lane.ixr.map fun e => (e.1, { e.2 with out := [] }) } }

/-- The channel pairs whose lanes or pages hold anything. -/
def State.pairs (s : State) : List Nat :=
  (List.range 512).filter fun g =>
    (Tab.get? s.lane.ch g).isSome || (Tab.get? s.map.ch g).isSome || (Tab.get? s.ds.ch g).isSome

/-- What happens at the boundary that starts the present superframe. -/
def boundaryWork (s : State) : State :=
  let sfc := s.clk.sfc
  let s := pruneSideband { s with onu := { s.onu with sent := [] } }
  let s := if s.islandUp 104 then standingAll (tuneWindows sfc (protBoundary s)) else s
  let s := (List.range 512).foldl (fun s g => pairPages sfc g s) s
  let s := (Tab.keys s.ds.trib).foldl (fun s i => moveBoundary i s) s
  let s := destroyDone s
  let s := if (List.range 16).any fun i => s.islandUp (88 + i) then snapshot sfc s else s
  let s := keyBoundary sfc s
  let s := forgetProfiles s
  s.pairs.foldl (fun s g => pairSends sfc g s) s

/-- The map clock and the LTB reach the next boundary; the SFC advances modulo 2^51 (R77, R392). -/
def reachBoundary (s : State) : State :=
  let d := 311040 - s.clk.ltb % 311040
  { s with clk := { now := s.clk.now + d, ltb := s.clk.ltb + d, sfc := (s.clk.sfc + 1) % 2 ^ 51 } }

/-- SUPERFRAME_BOUNDARY (R77): the blocks that act at it are Bexed, Marver, the PON dies and the TIME island. -/
def execSuperframeBoundary (s : State) : Host.Outcome State Fault Refusal :=
  guardBlks (172 :: (List.range 54).map (88 + ·))
    (fun s => .next (if s.islandUp 172 then boundaryWork (reachBoundary s) else s)) s

/-! ### The clock between boundaries -/

/-- One map tick without a command (notes/assumptions/3.md): the LTB counts while the TIME island is out of reset, and
waits at the last tick before a boundary, which SUPERFRAME_BOUNDARY passes. -/
def tick (s : State) : State :=
  if !s.islandUp 172 then { s with clk := { s.clk with now := s.clk.now + 1 } }
  else if s.clk.ltb % 311040 = 311039 then s
  else { s with clk := { s.clk with now := s.clk.now + 1, ltb := s.clk.ltb + 1 } }

end Sys2Proof.Machine
end

