-- ==== Sys2Proof/Machine/Dispatch.lean ====
section
/-! DEFINITION. Which meaning each command has: one arm per constructor. -/

namespace Sys2Proof.Machine

/-- The effect of a command on everything but the queue. -/
def exec (i : Instr) (s : State) : Host.Outcome State Fault Refusal :=
  match i with
  | .powerOnReset => Sys2Proof.Machine.execPowerOnReset s
  | .brownOut rail => Sys2Proof.Machine.execBrownOut rail s
  | .vddAoFall => Sys2Proof.Machine.execVddAoFall s
  | .ampRailRestart => Sys2Proof.Machine.execAmpRailRestart s
  | .resetNAssert lowNs => Sys2Proof.Machine.execResetNAssert lowNs s
  | .pciePerstPort0 => Sys2Proof.Machine.execPciePerstPort0 s
  | .pciePerstPort1 => Sys2Proof.Machine.execPciePerstPort1 s
  | .resetSourceRelease src => Sys2Proof.Machine.execResetSourceRelease src s
  | .clocksPresentCheckEnd absent => Sys2Proof.Machine.execClocksPresentCheckEnd absent s
  | .islandLateClockRelease b => Sys2Proof.Machine.execIslandLateClockRelease b s
  | .strapSample v => Sys2Proof.Machine.execStrapSample v s
  | .optionCommit => Sys2Proof.Machine.execOptionCommit s
  | .hbmTrainingDone => Sys2Proof.Machine.execHbmTrainingDone s
  | .bootLoadDone => Sys2Proof.Machine.execBootLoadDone s
  | .bexedWatchdogExpiry => Sys2Proof.Machine.execBexedWatchdogExpiry s
  | .deviceWatchdogExpiry => Sys2Proof.Machine.execDeviceWatchdogExpiry s
  | .blockResetRelease b clockPresent => Sys2Proof.Machine.execBlockResetRelease b clockPresent s
  | .ledgerSweepDone b => Sys2Proof.Machine.execLedgerSweepDone b s
  | .orphanSweepDone => Sys2Proof.Machine.execOrphanSweepDone s
  | .resetReqCore v => Sys2Proof.Machine.execResetReqCore v s
  | .resetReqSystem v => Sys2Proof.Machine.execResetReqSystem v s
  | .resetCauseClear w => Sys2Proof.Machine.execResetCauseClear w s
  | .klRingEnable p => Sys2Proof.Machine.execKlRingEnable p s
  | .klRingDisable p => Sys2Proof.Machine.execKlRingDisable p s
  | .klCmdDoorbell p tail => Sys2Proof.Machine.execKlCmdDoorbell p tail s
  | .klCommandFetch p d => Sys2Proof.Machine.execKlCommandFetch p d s
  | .klCplHeadWrite p v => Sys2Proof.Machine.execKlCplHeadWrite p v s
  | .klEvtHeadWrite p v => Sys2Proof.Machine.execKlEvtHeadWrite p v s
  | .klEvtLostRead p meet => Sys2Proof.Machine.execKlEvtLostRead p meet s
  | .faultStatusClear b v meet => Sys2Proof.Machine.execFaultStatusClear b v meet s
  | .faultFirstClear b v meet => Sys2Proof.Machine.execFaultFirstClear b v meet s
  | .faultMaskWrite b v meet => Sys2Proof.Machine.execFaultMaskWrite b v meet s
  | .faultInjectWrite b v real => Sys2Proof.Machine.execFaultInjectWrite b v real s
  | .faultDetect b fs => Sys2Proof.Machine.execFaultDetect b fs s
  | .bar0BadAccess write => Sys2Proof.Machine.execBar0BadAccess write s
  | .registerWrite fn port off v => Sys2Proof.Machine.execRegisterWrite fn port off v s
  | .flrPf0 p => Sys2Proof.Machine.execFlrPf0 p s
  | .flrPf1 p => Sys2Proof.Machine.execFlrPf1 p s
  | .flrPf2 p => Sys2Proof.Machine.execFlrPf2 p s
  | .pf1RingEnable inject r ctrl base size => Sys2Proof.Machine.execPf1RingEnable inject r ctrl base size s
  | .puntRingDoorbell r tail => Sys2Proof.Machine.execPuntRingDoorbell r tail s
  | .injectRingDoorbell r tail entries => Sys2Proof.Machine.execInjectRingDoorbell r tail entries s
  | .ringDropsRead inject r meet => Sys2Proof.Machine.execRingDropsRead inject r meet s
  | .puntDelivery k => Sys2Proof.Machine.execPuntDelivery k s
  | .ampCmdDoorbell p tail => Sys2Proof.Machine.execAmpCmdDoorbell p tail s
  | .nop q => Sys2Proof.Machine.execNop q s
  | .deviceInfo q => Sys2Proof.Machine.execDeviceInfo q s
  | .deviceReset q => Sys2Proof.Machine.execDeviceReset q s
  | .coreReset q => Sys2Proof.Machine.execCoreReset q s
  | .blockReset q b idle => Sys2Proof.Machine.execBlockReset q b idle s
  | .paramGet q pid first count => Sys2Proof.Machine.execParamGet q pid first count s
  | .paramSet q pid first count vals => Sys2Proof.Machine.execParamSet q pid first count vals s
  | .paramDescribe q pid => Sys2Proof.Machine.execParamDescribe q pid s
  | .paramNext q pid => Sys2Proof.Machine.execParamNext q pid s
  | .ledgerAudit q quantity first count => Sys2Proof.Machine.execLedgerAudit q quantity first count s
  | .bexedImageLoad q img => Sys2Proof.Machine.execBexedImageLoad q img s
  | .bexedRestart q => Sys2Proof.Machine.execBexedRestart q s
  | .bexedTakeover => Sys2Proof.Machine.execBexedTakeover s
  | .bexedRestartTimeout => Sys2Proof.Machine.execBexedRestartTimeout s
  | .bexedStatus q => Sys2Proof.Machine.execBexedStatus q s
  | .channelEnable q g => Sys2Proof.Machine.execChannelEnable q g s
  | .ladderRungSuccess g => Sys2Proof.Machine.execLadderRungSuccess g s
  | .ladderRungTimeout g => Sys2Proof.Machine.execLadderRungTimeout g s
  | .laneTransitionDone g rx => Sys2Proof.Machine.execLaneTransitionDone g rx s
  | .channelDisable q g => Sys2Proof.Machine.execChannelDisable q g s
  | .phaseMemoryRead q h c => Sys2Proof.Machine.execPhaseMemoryRead q h c s
  | .moduleRead q g addr len => Sys2Proof.Machine.execModuleRead q g addr len s
  | .moduleWrite q g addr data => Sys2Proof.Machine.execModuleWrite q g addr data s
  | .i3cPoll g => Sys2Proof.Machine.execI3cPoll g s
  | .i3cTransferDone bus ack data => Sys2Proof.Machine.execI3cTransferDone bus ack data s
  | .i3cInBandInterrupt g payload => Sys2Proof.Machine.execI3cInBandInterrupt g payload s
  | .tributaryCreate q id a => Sys2Proof.Machine.execTributaryCreate q id a s
  | .tributaryStatus q id => Sys2Proof.Machine.execTributaryStatus q id s
  | .tributaryResize q id slots fill => Sys2Proof.Machine.execTributaryResize q id slots fill s
  | .tributaryMove q id channel => Sys2Proof.Machine.execTributaryMove q id channel s
  | .tributaryDelete q id => Sys2Proof.Machine.execTributaryDelete q id s
  | .slotMapLoad q g entries => Sys2Proof.Machine.execSlotMapLoad q g entries s
  | .slotMapCommit q g => Sys2Proof.Machine.execSlotMapCommit q g s
  | .slotMapCheckDone g => Sys2Proof.Machine.execSlotMapCheckDone g s
  | .slotMapWithdraw q g meet => Sys2Proof.Machine.execSlotMapWithdraw q g meet s
  | .tribFeedWrite id seq octets => Sys2Proof.Machine.execTribFeedWrite id seq octets s
  | .tribDefectEval id delineated => Sys2Proof.Machine.execTribDefectEval id delineated s
  | .onuCreate q tree serial onuId => Sys2Proof.Machine.execOnuCreate q tree serial onuId s
  | .onuDestroy q h => Sys2Proof.Machine.execOnuDestroy q h s
  | .onuStatus q h => Sys2Proof.Machine.execOnuStatus q h s
  | .onuRangeRead q h => Sys2Proof.Machine.execOnuRangeRead q h s
  | .onuAccept q h => Sys2Proof.Machine.execOnuAccept q h s
  | .onuReject q h => Sys2Proof.Machine.execOnuReject q h s
  | .onuDeactivate q h => Sys2Proof.Machine.execOnuDeactivate q h s
  | .onuDisable q h => Sys2Proof.Machine.execOnuDisable q h s
  | .onuEnable q h => Sys2Proof.Machine.execOnuEnable q h s
  | .onuEnableAll q tree => Sys2Proof.Machine.execOnuEnableAll q tree s
  | .onuRetune q h c => Sys2Proof.Machine.execOnuRetune q h c s
  | .onuPin q h on => Sys2Proof.Machine.execOnuPin q h on s
  | .onuLadderRestart q h => Sys2Proof.Machine.execOnuLadderRestart q h s
  | .serialNumberWindow g => Sys2Proof.Machine.execSerialNumberWindow g s
  | .serialNumberOnu hd serial windowQuiet => Sys2Proof.Machine.execSerialNumberOnu hd serial windowQuiet s
  | .snWindowEnd g signal overlap => Sys2Proof.Machine.execSnWindowEnd g signal overlap s
  | .rangingBurst g h rtd64 => Sys2Proof.Machine.execRangingBurst g h rtd64 s
  | .rangingWindowEnd h => Sys2Proof.Machine.execRangingWindowEnd h s
  | .acknowledgement hd code => Sys2Proof.Machine.execAcknowledgement hd code s
  | .registration hd regId => Sys2Proof.Machine.execRegistration hd regId s
  | .extCapability hd x => Sys2Proof.Machine.execExtCapability hd x s
  | .keyReport hd slot frag octets => Sys2Proof.Machine.execKeyReport hd slot frag octets s
  | .tuningResponse hd ack => Sys2Proof.Machine.execTuningResponse hd ack s
  | .sleepRequest hd => Sys2Proof.Machine.execSleepRequest hd s
  | .ploamUnsupported hd => Sys2Proof.Machine.execPloamUnsupported hd s
  | .ploamAnswerTimeout h => Sys2Proof.Machine.execPloamAnswerTimeout h s
  | .extendingTimeout h => Sys2Proof.Machine.execExtendingTimeout h s
  | .authTimeout h => Sys2Proof.Machine.execAuthTimeout h s
  | .lostTimeout h => Sys2Proof.Machine.execLostTimeout h s
  | .onuIdQuarantineEnd tree onuId => Sys2Proof.Machine.execOnuIdQuarantineEnd tree onuId s
  | .tuningResponseTimeout h => Sys2Proof.Machine.execTuningResponseTimeout h s
  | .tuneArrivalTimeout h foundOld => Sys2Proof.Machine.execTuneArrivalTimeout h foundOld s
  | .ladderAckTimeout h => Sys2Proof.Machine.execLadderAckTimeout h s
  | .ladderTrialEnd h => Sys2Proof.Machine.execLadderTrialEnd h s
  | .ladderRetry h => Sys2Proof.Machine.execLadderRetry h s
  | .balanceInterval tree => Sys2Proof.Machine.execBalanceInterval tree s
  | .mapBudgetSet q g b => Sys2Proof.Machine.execMapBudgetSet q g b s
  | .fixedPatternLoad q g actSfc entries => Sys2Proof.Machine.execFixedPatternLoad q g actSfc entries s
  | .fixedPatternRead q g next => Sys2Proof.Machine.execFixedPatternRead q g next s
  | .mapPageRead q g standby changes => Sys2Proof.Machine.execMapPageRead q g standby changes s
  | .mapStats q g => Sys2Proof.Machine.execMapStats q g s
  | .onuGrantStats q h => Sys2Proof.Machine.execOnuGrantStats q h s
  | .allocCreate q onu allocId a => Sys2Proof.Machine.execAllocCreate q onu allocId a s
  | .allocModify q alloc a => Sys2Proof.Machine.execAllocModify q alloc a s
  | .allocDestroy q alloc => Sys2Proof.Machine.execAllocDestroy q alloc s
  | .allocStatus q alloc => Sys2Proof.Machine.execAllocStatus q alloc s
  | .mapPolicySet q scope vals => Sys2Proof.Machine.execMapPolicySet q scope vals s
  | .mapPolicyGet q scope => Sys2Proof.Machine.execMapPolicyGet q scope s
  | .mapHints q g => Sys2Proof.Machine.execMapHints q g s
  | .grantLatencyBind q isOnu handle unit => Sys2Proof.Machine.execGrantLatencyBind q isOnu handle unit s
  | .marverImageLoad q img => Sys2Proof.Machine.execMarverImageLoad q img s
  | .marverImageActivate q sfc => Sys2Proof.Machine.execMarverImageActivate q sfc s
  | .marverStatus q core => Sys2Proof.Machine.execMarverStatus q core s
  | .superframeBoundary => Sys2Proof.Machine.execSuperframeBoundary s
  | .mapCommit g => Sys2Proof.Machine.execMapCommit g s
  | .compileDeadline g => Sys2Proof.Machine.execCompileDeadline g s
  | .mapPageCheckDone g => Sys2Proof.Machine.execMapPageCheckDone g s
  | .hintPublish k => Sys2Proof.Machine.execHintPublish k s
  | .marverCoreTrap k cause => Sys2Proof.Machine.execMarverCoreTrap k cause s
  | .marverWatchEnd k => Sys2Proof.Machine.execMarverWatchEnd k s
  | .bufferReportArrival alloc bytes burstPos => Sys2Proof.Machine.execBufferReportArrival alloc bytes burstPos s
  | .phaseMemoryLoad g h => Sys2Proof.Machine.execPhaseMemoryLoad g h s
  | .burstReception g rx => Sys2Proof.Machine.execBurstReception g rx s
  | .decryptVerify slice clocks => Sys2Proof.Machine.execDecryptVerify slice clocks s
  | .decryptRelease slice => Sys2Proof.Machine.execDecryptRelease slice s
  | .reasmTimeout slice h gem => Sys2Proof.Machine.execReasmTimeout slice h gem s
  | .upstreamEvaluation g => Sys2Proof.Machine.execUpstreamEvaluation g s
  | .sdbIntervalEnd h => Sys2Proof.Machine.execSdbIntervalEnd h s
  | .dyingGaspExpiry h => Sys2Proof.Machine.execDyingGaspExpiry h s
  | .sidebandFrameReceive link f => Sys2Proof.Machine.execSidebandFrameReceive link f s
  | .rssiResult link chan code onu => Sys2Proof.Machine.execRssiResult link chan code onu s
  | .sigDetect link chan v => Sys2Proof.Machine.execSigDetect link chan v s
  | .txFault link chan v => Sys2Proof.Machine.execTxFault link chan v s
  | .modPresent link chan v answers => Sys2Proof.Machine.execModPresent link chan v answers s
  | .late link type => Sys2Proof.Machine.execLate link type s
  | .echo link tag turnaround8 roundTrip => Sys2Proof.Machine.execEcho link tag turnaround8 roundTrip s
  | .sblBadEvent link ev => Sys2Proof.Machine.execSblBadEvent link ev s
  | .sidebandCalibration link => Sys2Proof.Machine.execSidebandCalibration link s
  | .uplinkFrameArrival port octets bufFull => Sys2Proof.Machine.execUplinkFrameArrival port octets bufFull s
  | .uplinkBlockLock port lane headers => Sys2Proof.Machine.execUplinkBlockLock port lane headers s
  | .ingressPass k => Sys2Proof.Machine.execIngressPass k s
  | .fragHoldTimeout slice => Sys2Proof.Machine.execFragHoldTimeout slice s
  | .fragEntryExpiry slice key => Sys2Proof.Machine.execFragEntryExpiry slice key s
  | .cellFree cell => Sys2Proof.Machine.execCellFree cell s
  | .descriptorArrival k => Sys2Proof.Machine.execDescriptorArrival k s
  | .dequeueWalk root => Sys2Proof.Machine.execDequeueWalk root s
  | .dbufFlushTimeout queue => Sys2Proof.Machine.execDbufFlushTimeout queue s
  | .dbufPageWriteDone queue => Sys2Proof.Machine.execDbufPageWriteDone queue s
  | .dbufPageReadDone queue err lost => Sys2Proof.Machine.execDbufPageReadDone queue err lost s
  | .lagReorderTimeout grp => Sys2Proof.Machine.execLagReorderTimeout grp s
  | .lagMemberDown grp port => Sys2Proof.Machine.execLagMemberDown grp port s
  | .lagMemberUp grp port => Sys2Proof.Machine.execLagMemberUp grp port s
  | .uplinkFrameTransmit port => Sys2Proof.Machine.execUplinkFrameTransmit port s
  | .facetImageLoad q slice group ld => Sys2Proof.Machine.execFacetImageLoad q slice group ld s
  | .facetImageCommit q slice => Sys2Proof.Machine.execFacetImageCommit q slice s
  | .facetImageWithdraw q slice meet => Sys2Proof.Machine.execFacetImageWithdraw q slice meet s
  | .facetImageSwap q slice timeoutUs => Sys2Proof.Machine.execFacetImageSwap q slice timeoutUs s
  | .facetEpochBoundary slice => Sys2Proof.Machine.execFacetEpochBoundary slice s
  | .facetSwapTimeout slice => Sys2Proof.Machine.execFacetSwapTimeout slice s
  | .facetEpochDrain slice => Sys2Proof.Machine.execFacetEpochDrain slice s
  | .facetEntryInsert q slice group after e r => Sys2Proof.Machine.execFacetEntryInsert q slice group after e r s
  | .facetEntryDelete q slice group index => Sys2Proof.Machine.execFacetEntryDelete q slice group index s
  | .facetEntryRead q slice group index => Sys2Proof.Machine.execFacetEntryRead q slice group index s
  | .facetEpochStatus q slice => Sys2Proof.Machine.execFacetEpochStatus q slice s
  | .facetThrottleSample slice tjA tjB => Sys2Proof.Machine.execFacetThrottleSample slice tjA tjB s
  | .cascadeEnable q length position partition => Sys2Proof.Machine.execCascadeEnable q length position partition s
  | .matchTrainingEnd slice line => Sys2Proof.Machine.execMatchTrainingEnd slice line s
  | .cascadeKeyReceive link seq rs inTime => Sys2Proof.Machine.execCascadeKeyReceive link seq rs inTime s
  | .matchSymbol slice slot sym => Sys2Proof.Machine.execMatchSymbol slice slot sym s
  | .cascadeResultReceive link seq rs => Sys2Proof.Machine.execCascadeResultReceive link seq rs s
  | .cascadeTimeout slice tag => Sys2Proof.Machine.execCascadeTimeout slice tag s
  | .lagCreate q grp ports => Sys2Proof.Machine.execLagCreate q grp ports s
  | .lagMemberSet q grp ports => Sys2Proof.Machine.execLagMemberSet q grp ports s
  | .lagDestroy q grp => Sys2Proof.Machine.execLagDestroy q grp s
  | .lagStatus q grp => Sys2Proof.Machine.execLagStatus q grp s
  | .classStats q kind idx => Sys2Proof.Machine.execClassStats q kind idx s
  | .tableInsert q a => Sys2Proof.Machine.execTableInsert q a s
  | .tableDelete q kind key => Sys2Proof.Machine.execTableDelete q kind key s
  | .tableSearch q kind key slice => Sys2Proof.Machine.execTableSearch q kind key slice s
  | .tableWalkOpen q kindF ownerF => Sys2Proof.Machine.execTableWalkOpen q kindF ownerF s
  | .tableNext q walk count => Sys2Proof.Machine.execTableNext q walk count s
  | .tableWalkClose q walk => Sys2Proof.Machine.execTableWalkClose q walk s
  | .tableWalkTimeout walk => Sys2Proof.Machine.execTableWalkTimeout walk s
  | .tableFlushByPort q ownerKind owner bd includeStatic => Sys2Proof.Machine.execTableFlushByPort q ownerKind owner bd includeStatic s
  | .tableStats q isOwner idx => Sys2Proof.Machine.execTableStats q isOwner idx s
  | .tableWriteApply slice => Sys2Proof.Machine.execTableWriteApply slice s
  | .learnTake => Sys2Proof.Machine.execLearnTake s
  | .agerSweep pos => Sys2Proof.Machine.execAgerSweep pos s
  | .conditionalInvalidation pos hitMeets => Sys2Proof.Machine.execConditionalInvalidation pos hitMeets s
  | .parityRepair slice pos failed => Sys2Proof.Machine.execParityRepair slice pos failed s
  | .poolStatus q => Sys2Proof.Machine.execPoolStatus q s
  | .poolQuotaSet q r reserve limit => Sys2Proof.Machine.execPoolQuotaSet q r reserve limit s
  | .poolCellRead q cell => Sys2Proof.Machine.execPoolCellRead q cell s
  | .dbufProfileSet q n p => Sys2Proof.Machine.execDbufProfileSet q n p s
  | .dbufStatus q stack => Sys2Proof.Machine.execDbufStatus q stack s
  | .queueBufferStatus q queue => Sys2Proof.Machine.execQueueBufferStatus q queue s
  | .dbufPageRead q page => Sys2Proof.Machine.execDbufPageRead q page s
  | .queueCreate q dir id a => Sys2Proof.Machine.execQueueCreate q dir id a s
  | .queueModify q queue a => Sys2Proof.Machine.execQueueModify q queue a s
  | .queueMove q queue parent prio weight => Sys2Proof.Machine.execQueueMove q queue parent prio weight s
  | .vertexMove q v parent prio weight => Sys2Proof.Machine.execVertexMove q v parent prio weight s
  | .queueDelete q queue => Sys2Proof.Machine.execQueueDelete q queue s
  | .queueStatus q queue => Sys2Proof.Machine.execQueueStatus q queue s
  | .vertexCreate q dir a => Sys2Proof.Machine.execVertexCreate q dir a s
  | .vertexModify q v a => Sys2Proof.Machine.execVertexModify q v a s
  | .vertexStatus q v => Sys2Proof.Machine.execVertexStatus q v s
  | .vertexDelete q v => Sys2Proof.Machine.execVertexDelete q v s
  | .lenProfileSet q n overhead => Sys2Proof.Machine.execLenProfileSet q n overhead s
  | .policerSet q slice policer r => Sys2Proof.Machine.execPolicerSet q slice policer r s
  | .policerStatus q slice policer => Sys2Proof.Machine.execPolicerStatus q slice policer s
  | .gateListLoad q gate l => Sys2Proof.Machine.execGateListLoad q gate l s
  | .gateListCommit q gate => Sys2Proof.Machine.execGateListCommit q gate s
  | .gateListWithdraw q gate meet => Sys2Proof.Machine.execGateListWithdraw q gate meet s
  | .gateStatus q gate => Sys2Proof.Machine.execGateStatus q gate s
  | .gateListStart gate => Sys2Proof.Machine.execGateListStart gate s
  | .gateWindowOpen gate => Sys2Proof.Machine.execGateWindowOpen gate s
  | .portQueueSet q port tc queue => Sys2Proof.Machine.execPortQueueSet q port tc queue s
  | .queueSampleBind q queue delay unit => Sys2Proof.Machine.execQueueSampleBind q queue delay unit s
  | .schedStats q kind idx => Sys2Proof.Machine.execSchedStats q kind idx s
  | .queueSample k => Sys2Proof.Machine.execQueueSample k s
  | .onuMasterKeySet q h msk mk => Sys2Proof.Machine.execOnuMasterKeySet q h msk mk s
  | .onuRekey q h => Sys2Proof.Machine.execOnuRekey q h s
  | .keyStatus q isOnu idx => Sys2Proof.Machine.execKeyStatus q isOnu idx s
  | .broadcastKeySet q g slot key actSfc => Sys2Proof.Machine.execBroadcastKeySet q g slot key actSfc s
  | .cipherParamSet q scope vals => Sys2Proof.Machine.execCipherParamSet q scope vals s
  | .keKeyLoad q slot key => Sys2Proof.Machine.execKeKeyLoad q slot key s
  | .keKeyUnwrap q kek slot wrapped => Sys2Proof.Machine.execKeKeyUnwrap q kek slot wrapped s
  | .keKeyClear q slot => Sys2Proof.Machine.execKeKeyClear q slot s
  | .keEncrypt q slot mode iv aadLen src dst len => Sys2Proof.Machine.execKeEncrypt q slot mode iv aadLen src dst len s
  | .keDecrypt q slot mode iv aadLen src dst len tag => Sys2Proof.Machine.execKeDecrypt q slot mode iv aadLen src dst len tag s
  | .keStatus q => Sys2Proof.Machine.execKeStatus q s
  | .keLockGrant => Sys2Proof.Machine.execKeLockGrant s
  | .keJobDone => Sys2Proof.Machine.execKeJobDone s
  | .rngFail => Sys2Proof.Machine.execRngFail s
  | .crcScanStart q unit alg space addr len init run => Sys2Proof.Machine.execCrcScanStart q unit alg space addr len init run s
  | .crcScanPause q unit data => Sys2Proof.Machine.execCrcScanPause q unit data s
  | .crcScanStatus q unit data => Sys2Proof.Machine.execCrcScanStatus q unit data s
  | .crcScanDone unit data => Sys2Proof.Machine.execCrcScanDone unit data s
  | .cipherStats q kind idx => Sys2Proof.Machine.execCipherStats q kind idx s
  | .rekeyInterval h => Sys2Proof.Machine.execRekeyInterval h s
  | .rekeyRetry h => Sys2Proof.Machine.execRekeyRetry h s
  | .keyFragmentTimeout h => Sys2Proof.Machine.execKeyFragmentTimeout h s
  | .keyRetire h dir slot => Sys2Proof.Machine.execKeyRetire h dir slot s
  | .timeStatus q => Sys2Proof.Machine.execTimeStatus q s
  | .timeSet q sec ns => Sys2Proof.Machine.execTimeSet q sec ns s
  | .timeSourceSet q td kind inst prio => Sys2Proof.Machine.execTimeSourceSet q td kind inst prio s
  | .timeParamSet q vals => Sys2Proof.Machine.execTimeParamSet q vals s
  | .ptpPortSet q p a => Sys2Proof.Machine.execPtpPortSet q p a s
  | .ptpPortStatus q p => Sys2Proof.Machine.execPtpPortStatus q p s
  | .ptpClockStatus q => Sys2Proof.Machine.execPtpClockStatus q s
  | .asymSet q g a => Sys2Proof.Machine.execAsymSet q g a s
  | .todPairRead q h n => Sys2Proof.Machine.execTodPairRead q h n s
  | .pulseOutSet q k a => Sys2Proof.Machine.execPulseOutSet q k a s
  | .ppsInSet q input delay => Sys2Proof.Machine.execPpsInSet q input delay s
  | .servoUpdate => Sys2Proof.Machine.execServoUpdate s
  | .wtrExpiry => Sys2Proof.Machine.execWtrExpiry s
  | .refclkLoss inputB => Sys2Proof.Machine.execRefclkLoss inputB s
  | .refclkQualify inputB => Sys2Proof.Machine.execRefclkQualify inputB s
  | .refclkBReturn => Sys2Proof.Machine.execRefclkBReturn s
  | .ppsInEdge input at64 => Sys2Proof.Machine.execPpsInEdge input at64 s
  | .todInMessage m => Sys2Proof.Machine.execTodInMessage m s
  | .ppsInMiss input => Sys2Proof.Machine.execPpsInMiss input s
  | .timeSourceLoss td => Sys2Proof.Machine.execTimeSourceLoss td s
  | .ptpMessageReceive m => Sys2Proof.Machine.execPtpMessageReceive m s
  | .ptpMessageSend port kind => Sys2Proof.Machine.execPtpMessageSend port kind s
  | .announceReceiptTimeout port => Sys2Proof.Machine.execAnnounceReceiptTimeout port s
  | .ixrSyncSend link => Sys2Proof.Machine.execIxrSyncSend link s
  | .ixrTimeReceive m => Sys2Proof.Machine.execIxrTimeReceive m s
  | .ixrRespTimeout link seq => Sys2Proof.Machine.execIxrRespTimeout link seq s
  | .ppsOutEdge k => Sys2Proof.Machine.execPpsOutEdge k s
  | .todOutMessage => Sys2Proof.Machine.execTodOutMessage s
  | .timeRecordToAmpoule => Sys2Proof.Machine.execTimeRecordToAmpoule s
  | .tapDrain => Sys2Proof.Machine.execTapDrain s
  | .bindingNotice h serial => Sys2Proof.Machine.execBindingNotice h serial s
  | .evidenceMinute => Sys2Proof.Machine.execEvidenceMinute s
  | .timeGap => Sys2Proof.Machine.execTimeGap s
  | .ampSealPinChange level => Sys2Proof.Machine.execAmpSealPinChange level s
  | .sealOpenTimeout => Sys2Proof.Machine.execSealOpenTimeout s
  | .sealBurnDone => Sys2Proof.Machine.execSealBurnDone s
  | .ampouleIdentity q => Sys2Proof.Machine.execAmpouleIdentity q s
  | .ampouleEvidenceRead q first count => Sys2Proof.Machine.execAmpouleEvidenceRead q first count s
  | .ampouleMeterRead q first count => Sys2Proof.Machine.execAmpouleMeterRead q first count s
  | .ampouleLogRead q first count => Sys2Proof.Machine.execAmpouleLogRead q first count s
  | .ampouleLogAck q seq => Sys2Proof.Machine.execAmpouleLogAck q seq s
  | .ampouleCheckpoint q => Sys2Proof.Machine.execAmpouleCheckpoint q s
  | .ampouleSealOpen q => Sys2Proof.Machine.execAmpouleSealOpen q s
  | .ampouleParamStage q p => Sys2Proof.Machine.execAmpouleParamStage q p s
  | .ampouleSealCommit q => Sys2Proof.Machine.execAmpouleSealCommit q s
  | .ampouleSealAbort q => Sys2Proof.Machine.execAmpouleSealAbort q s
  | .protEnable q t => Sys2Proof.Machine.execProtEnable q t s
  | .protDisable q t => Sys2Proof.Machine.execProtDisable q t s
  | .protActivate q t => Sys2Proof.Machine.execProtActivate q t s
  | .protSwitch q t => Sys2Proof.Machine.execProtSwitch q t s
  | .protAuditNow q t => Sys2Proof.Machine.execProtAuditNow q t s
  | .protStatus q t => Sys2Proof.Machine.execProtStatus q t s
  | .spareSet q t c => Sys2Proof.Machine.execSpareSet q t c s
  | .channelSpare q g => Sys2Proof.Machine.execChannelSpare q g s
  | .stackStatus q => Sys2Proof.Machine.execStackStatus q s
  | .heartbeatReceive m => Sys2Proof.Machine.execHeartbeatReceive m s
  | .ixrardoBadType link version type => Sys2Proof.Machine.execIxrardoBadType link version type s
  | .ixrardoLinkChange link up => Sys2Proof.Machine.execIxrardoLinkChange link up s
  | .claimRoundEnd rs => Sys2Proof.Machine.execClaimRoundEnd rs s
  | .claimBusFault stuckLow => Sys2Proof.Machine.execClaimBusFault stuckLow s
  | .claimBusFaultClear => Sys2Proof.Machine.execClaimBusFaultClear s
  | .promotion t => Sys2Proof.Machine.execPromotion t s
  | .protSettleEnd t => Sys2Proof.Machine.execProtSettleEnd t s
  | .mirrorReceive link seq rs => Sys2Proof.Machine.execMirrorReceive link seq rs s
  | .auditInterval => Sys2Proof.Machine.execAuditInterval s
  | .auditReceive link seq group isResult sfcA mirrorSeq digest crcs => Sys2Proof.Machine.execAuditReceive link seq group isResult sfcA mirrorSeq digest crcs s
  | .drillWatchEnd t => Sys2Proof.Machine.execDrillWatchEnd t s
  | .powerStatus q => Sys2Proof.Machine.execPowerStatus q s
  | .domainPowerSet q domain allHbm on => Sys2Proof.Machine.execDomainPowerSet q domain allHbm on s
  | .domainPowerUpDone domain => Sys2Proof.Machine.execDomainPowerUpDone domain s
  | .powerCapSet q capW capStageMax => Sys2Proof.Machine.execPowerCapSet q capW capStageMax s
  | .sagStatus q => Sys2Proof.Machine.execSagStatus q s
  | .optionImageRead q copyB => Sys2Proof.Machine.execOptionImageRead q copyB s
  | .optionImageWrite q img => Sys2Proof.Machine.execOptionImageWrite q img s
  | .optionStoreWriteDone ok1 ok2 => Sys2Proof.Machine.execOptionStoreWriteDone ok1 ok2 s
  | .optionStatus q => Sys2Proof.Machine.execOptionStatus q s
  | .bootImageWrite q slot marver img => Sys2Proof.Machine.execBootImageWrite q slot marver img s
  | .bootImageStatus q => Sys2Proof.Machine.execBootImageStatus q s
  | .sagStageRise margin group => Sys2Proof.Machine.execSagStageRise margin group s
  | .sagStageFall margin group => Sys2Proof.Machine.execSagStageFall margin group s
  | .powerEstimate watts => Sys2Proof.Machine.execPowerEstimate watts s
  | .ledgerWindowClose => Sys2Proof.Machine.execLedgerWindowClose s
  | .faultSummary q first count => Sys2Proof.Machine.execFaultSummary q first count s
  | .sampleConfig q filters rate mode => Sys2Proof.Machine.execSampleConfig q filters rate mode s
  | .sampleStart q => Sys2Proof.Machine.execSampleStart q s
  | .sampleStop q => Sys2Proof.Machine.execSampleStop q s
  | .sampleRead q first count => Sys2Proof.Machine.execSampleRead q first count s
  | .bwWindowSet q ns => Sys2Proof.Machine.execBwWindowSet q ns s
  | .bwWindowRead q isPort idx dir => Sys2Proof.Machine.execBwWindowRead q isPort idx dir s
  | .bwWindowEnd => Sys2Proof.Machine.execBwWindowEnd s
  | .histogramConfig q source shift => Sys2Proof.Machine.execHistogramConfig q source shift s
  | .histogramRead q unit => Sys2Proof.Machine.execHistogramRead q unit s
  | .histogramClear q unit => Sys2Proof.Machine.execHistogramClear q unit s
  | .histogramRelease q unit => Sys2Proof.Machine.execHistogramRelease q unit s
  | .annealRun q => Sys2Proof.Machine.execAnnealRun q s
  | .annealStatus q => Sys2Proof.Machine.execAnnealStatus q s
  | .annealPlanRead q => Sys2Proof.Machine.execAnnealPlanRead q s
  | .monitorRead q lane hub idx => Sys2Proof.Machine.execMonitorRead q lane hub idx s
  | .annealRunStart => Sys2Proof.Machine.execAnnealRunStart s
  | .annealMeasureDone m => Sys2Proof.Machine.execAnnealMeasureDone m s
  | .annealTargetSettle group => Sys2Proof.Machine.execAnnealTargetSettle group s
  | .annealPlanWritten => Sys2Proof.Machine.execAnnealPlanWritten s
  | .rxThresholdSet q g vals => Sys2Proof.Machine.execRxThresholdSet q g vals s
  | .onuRxStats q h chan => Sys2Proof.Machine.execOnuRxStats q h chan s
  | .lanePllLockChange g rx locked => Sys2Proof.Machine.execLanePllLockChange g rx locked s
  | .portAdminStateChange port up => Sys2Proof.Machine.execPortAdminStateChange port up s
  | .irqHoldoffExpiry src idx => Sys2Proof.Machine.execIrqHoldoffExpiry src idx s
  | .cascadeFrameClose slice result => Sys2Proof.Machine.execCascadeFrameClose slice result s

end Sys2Proof.Machine
end

