-- ==== Sys2Proof/Machine/Regs.lean ====
section
/-! DEFINITION. What host software reads and no command of the table reads: the registers of the three functions' BAR0 (R8,
R477 to R482, R495, R501), their configuration space (R3, R470, R472), the attributes of the writes the device sends (R472),
the defect words of RxDefectRead and the records of ChannelRxStats (R221 to R224). Each is a function of the state. -/

namespace Sys2Proof.Machine

/-- DEV_STATUS as port p reads it (R478). -/
def State.devStatus (s : State) (p : Nat) : Nat :=
  fields [(1, flag s.host.bexedReady), (1, flag s.ltbSet), (1, flag s.classF), (3, s.sagStage), (3, s.opt.unitId),
    (1, if s.opt.copy = 1 then 1 else 0), (1, if s.opt.copy = 2 then 1 else 0), (1, s.opt.cur.pcieMode), (1, p), (19, 0)]

/-- The value of a list of octets, least significant first (R6). -/
def leNat (os : List Nat) : Nat := beNat os.reverse 0

/-- Word k of a list of octets, little-endian (R6). -/
def wordOf (os : List Nat) (k : Nat) : Nat := leNat ((os.drop (4 * k)).take 4)

/-- The low or high 32 bits of an address. -/
def halfOf (a i : Nat) : Nat := a / 2 ^ (32 * i) % 2 ^ 32

/-- A Kilak ring register of a port (R482). -/
def KlPort.reg (k : KlPort) (off : Nat) : Nat :=
  match off with
  | 0x100 => flag k.enable
  | 0x104 => flag k.enable + 2 * flag k.cmdErr + 4 * flag k.cfgErr + 8 * flag k.headErr
  | 0x108 => halfOf k.cmdBase 0
  | 0x10C => halfOf k.cmdBase 1
  | 0x110 => k.cmdSize
  | 0x114 => k.cmdTail
  | 0x118 => k.cmdHead
  | 0x120 => halfOf k.cplBase 0
  | 0x124 => halfOf k.cplBase 1
  | 0x128 => k.cplSize
  | 0x12C => k.cplHead
  | 0x130 => k.cplTail
  | 0x140 => halfOf k.evtBase 0
  | 0x144 => halfOf k.evtBase 1
  | 0x148 => k.evtSize
  | 0x14C => k.evtHead
  | 0x150 => k.evtTail
  | 0x160 => k.irqMod.toNat
  | 0x164 => k.evtLost
  | _ => 0

/-- A register of a fault window (R481): FAULT_INJECT is write-only and reads 0. -/
def FaultWin.reg (w : FaultWin) (off : Nat) : Nat :=
  match off with
  | 0x00 => w.status
  | 0x04 => w.first
  | 0x08 => w.time % 2 ^ 32
  | 0x0C => w.time / 2 ^ 32 % 2 ^ 32
  | 0x10 => w.time / 2 ^ 64 % 2 ^ 32
  | 0x14 => w.mask
  | _ => 0

/-- A word of a function's MSI-X table, as written; a bit of its PBA (R470, R474). -/
def State.msixReg (s : State) (fn p off : Nat) : Nat :=
  let pba := if fn = 0 then 0xF10000 else if fn = 1 then 0xC000 else 0x3800
  if inMsixTable fn off then Tab.getD s.host.msixTab ((p * 3 + fn) * 2 ^ 24 + off) 0
  else if pba ≤ off && off < pba + msixVectors fn / 8 then
    (List.range 32).foldl (fun n i =>
      n + if s.host.msixPend.contains (msixKey p fn (8 * (off - pba) + i)) then 2 ^ i else 0) 0
  else 0

/-- A register of PF0's BAR0 that port p reads, by its offset (R477); RESET_REQ is write-only and reads 0; none for a
reserved or unmapped address. -/
def State.bar0 (s : State) (p off : Nat) : Option Nat :=
  match off with
  | 0x000000 => some (0x66401FB4)
  | 0x000004 => some (0xB1)
  | 0x000008 => some (Config.devSerial.toNat % 2 ^ 32)
  | 0x00000C => some (Config.devSerial.toNat / 2 ^ 32 % 2 ^ 32)
  | 0x000010 => some (Config.devSerial.toNat / 2 ^ 64 % 2 ^ 32)
  | 0x000014 => some (Config.devSerial.toNat / 2 ^ 96 % 2 ^ 32)
  | 0x000020 => some (s.devStatus p)
  | 0x000024 => some (s.host.scratch.toNat)
  | 0x000030 => some (s.rst.cause.toNat)
  | 0x000034 => some (0)
  | 0x000040 => some (s.pwr.domains % 2 ^ 24)
  | 0x000050 => some (s.cip.ke.word)
  | 0x000060 => some (s.bexedWord)
  | 0x000064 => some (s.host.image.version)
  | _ =>
    if 0x100 ≤ off && off < 0x168 then some ((s.host.port p).reg off)
    else if 0x10000 ≤ off && off < 0x10000 + 0x20 * 189 then some ((s.window ((off - 0x10000) / 0x20)).reg (off % 0x20))
    else if inMsixTable 0 off || (0xF10000 ≤ off && off < 0xF10080) then some (s.msixReg 0 p off)
    else none

/-- A register of a PF1 ring (R495). -/
def Pf1Ring.reg (r : Pf1Ring) (off : Nat) : Nat :=
  match off with
  | 0x00 => flag r.enable + r.bufLog2 % 16 * 2 ^ 8
  | 0x04 => halfOf r.base 0
  | 0x08 => halfOf r.base 1
  | 0x0C => r.size
  | 0x10 => r.tail
  | 0x14 => r.head
  | 0x18 => r.irqMod.toNat
  | _ => r.drops

/-- A register of PF1's BAR0 that port p reads: the rings that the port holds. -/
def State.pf1Reg (s : State) (p off : Nat) : Nat :=
  if off < 0x800 then
    let r := off % 0x400 / 0x20
    if s.ringPort r = p then (Tab.getD (s.host.rings (decide (0x400 ≤ off))) r {}).reg (off % 0x20) else 0
  else s.msixReg 1 p off

/-- The octets of a PF2 completion (R484). -/
def AmpCpl.octets (c : AmpCpl) (op : Nat) : List Nat :=
  leOctets 4 c.tag ++ leOctets 2 op ++ [c.code.ctorIdx, 0] ++ leOctets 4 c.result.length ++ leOctets 4 c.detail
    ++ (c.result ++ List.replicate 16 0).take 16

/-- A word of PF2's BAR0 that port p reads (R501): the latest EVIDENCE record, the mirror of Ampoule's parameters, the slots. -/
def State.pf2Reg (s : State) (p off : Nat) : Nat :=
  let x := s.host.pf2 p
  if off < 0x90 then wordOf ((s.amp.evidence.getLast?.map (·.octets)).getD []) (off / 4)
  else if 0x100 ≤ off && off < 0x100 + 8 * 21 then
    wordOf (leOctets 8 (signed 64 (s.paramValue (0xF000 + (off - 0x100) / 8) 0))) (off / 4 % 2)
  else if off = 0x1000 then x.tail
  else if off = 0x1004 then x.head
  else if 0x1800 ≤ off && off < 0x1A00 then
    let n := (off - 0x1800) / 32
    match Tab.get? x.cpl n with
    | some c => wordOf (c.octets ((x.slotOp n).getD 0)) (off % 32 / 4)
    | none => 0
  else if 0x2000 ≤ off && off < 0x2400 then Tab.getD x.mem ((off - 0x2000) / 4) 0
  else if 0x10000 ≤ off && off < 0x40000 then
    let n := (off - 0x10000) / 0x3000
    wordOf (((Tab.get? x.cpl n).map (·.result)).getD []) ((off - 0x10000) % 0x3000 / 4)
  else s.msixReg 2 p off

/-- What a read of function fn's BAR0 at an aligned offset answers on port p (R8); a reserved or unmapped address reads 0
(R475). -/
def State.readReg (s : State) (fn p off : Nat) : Nat :=
  match fn with
  | 0 => (s.bar0 p off).getD 0
  | 1 => s.pf1Reg p off
  | _ => s.pf2Reg p off

/-! ### PCI configuration space (R3, R470, R472) -/

/-- What the configuration space of a function tells: its identity, its BAR0, what it supports. -/
structure PciConfig where
  vendor : Nat
  device : Nat
  revision : Nat
  classCode : Nat
  ssvid : Nat
  ssid : Nat
  /-- Octets of BAR0, 64-bit and non-prefetchable; virtual functions and expansion ROM. -/
  barOctets : Nat
  prefetchable : Bool
  virtualFns : Nat
  expansionRom : Bool
  msixVectors : Nat
  maxPayload : Nat
  maxReadRequest : Nat
  tags10 : Bool
  ari : Bool
  aer : Bool
  d3hot : Bool
  aspm : Bool
  /-- The Device Serial Number capability, where the function has it. -/
  serial : Option Nat
deriving DecidableEq, Repr

/-- The configuration space of function fn (R470, R472): the Revision ID of every function is 0xB1 (R3). -/
def State.pciConfig (s : State) (fn : Nat) : PciConfig :=
  { vendor := 0x1FB4, device := 0x6640 + fn, revision := 0xB1, classCode := if fn = 2 then 0x118000 else 0x028000
    ssvid := s.opt.cur.ssvid, ssid := s.opt.cur.ssid
    barOctets := if fn = 0 then 2 ^ 24 else if fn = 1 then 2 ^ 16 else 2 ^ 18
    prefetchable := false, virtualFns := 0, expansionRom := false, msixVectors := msixVectors fn
    maxPayload := 512, maxReadRequest := 4096, tags10 := true, ari := true, aer := true, d3hot := true, aspm := false
    serial := if fn = 0 then some (Config.devSerial.toNat % 2 ^ 64) else none }

/-- The power state and the request limits that the host configured in a function, within what it supports (R472). -/
def State.pcieFn (s : State) (p fn : Nat) : PcieFn :=
  let x := Tab.getD s.host.pcie (p * 3 + fn) {}
  { x with mps := min 512 x.mps, mrrs := min 4096 x.mrrs }

/-- What a write that the device sends carries (R472). -/
inductive HostWrite
  | packetData | resultBuffer | completionEntry | eventEntry | doneFlag | phaseBit
deriving DecidableEq, Repr

/-- The Relaxed Ordering attribute: packet data and result buffers only, so that every other write follows all earlier ones of
its function. -/
def HostWrite.relaxed (w : HostWrite) : Bool := w == .packetData || w == .resultBuffer

/-- The No Snoop attribute is never set. -/
def HostWrite.noSnoop (_ : HostWrite) : Bool := false

/-! ### Receive defect words and statistics (R221 to R224) -/

/-- The ONU defect word of handle h on the channel pair c of its tree (R221); a dying gasp is in force at the superframe
evaluated last. -/
def State.onuDefectWord (s : State) (h c g : Nat) : Nat :=
  let r := Tab.getD s.rx.onu (8 * h + c) {}
  let n := ((Tab.getD s.rx.ch g {}).evalSfc).getD 0
  let b (x i : Nat) : Nat × Nat := (1, flag (bit x i))
  fields ([b r.rep 0, b r.rep 1, b r.rep 2, b r.rep 3, (1, flag (RxOnu.gaspAt r n)), (1, flag (r.enters r.drifted 0)),
    (1, flag (r.enters r.drifted 1)), (1, flag (r.enters r.drifted 2)), (1, flag (r.enters r.drifted 3)), (7, 0), (8, min 255 r.missRun), (4, min 15 r.damageRun), (4, min 15 r.cleanRun)])

/-- The channel defect word of channel pair g (R222). -/
def State.chanDefectWord (s : State) (g : Nat) : Nat :=
  let c := Tab.getD s.rx.ch g {}
  fields [(1, flag c.losC), (1, flag c.opticsFail), (3, c.opticsCause), (1, flag c.channelFail),
    (1, flag (s.rx.treeFail.contains (g / 8))), (1, flag (s.populated g)), (8, min 255 c.silentRun), (4, min 15 c.liveRun), (12, 0)]

/-- What RxDefectRead answers (R224): for an ONU handle the word of its current channel pair, BAD_STATE for a FREE handle; for a
global channel the channel's word. The command table has no row for it. -/
def State.rxDefectRead (s : State) (onu : Bool) (i : Nat) : Reply :=
  if onu then
    match Tab.get? s.onu.ctx i with
    | some o => .vals [.u 32 (s.onuDefectWord i o.chan o.g)]
    | none => .err .badState
  else .vals [.u 32 (s.chanDefectWord i)]

/-- What ChannelRxStats answers (R223, R224): the counters of a channel pair. The command table has no row for it. -/
def State.channelRxStats (s : State) (g : Nat) : Reply :=
  .vals ([Ctr.rxSilentSf, .losCCount, .opticsFailCount, .channelFailCount, .onuIdMismatch].map fun c => .u 64 (s.count c g))

end Sys2Proof.Machine
end

