-- ==== Sys2Proof/WellFormed.lean ====
section
/-! DEFINITION. Well-formed commands: the operands fit the fields that carry them, and the part of the device that an
event names exists. A command from host software with a number out of range is well formed; its meaning answers it with a
code. -/

namespace Sys2Proof

/-- An open reference: port 0 or 1, a 32-bit tag, a 32-bit res_cap (R483). -/
def reqOk (q : Req) : Bool := decide (q.port < 2 ∧ q.tag < 2 ^ 32 ∧ q.resCap < 2 ^ 32)

/-- A PF2 slot: port 0 or 1, slot 0 to 15, a 32-bit tag (R501). -/
def ampReqOk (q : AmpReq) : Bool := decide (q.port < 2 ∧ q.slot < 16 ∧ q.tag < 2 ^ 32)

/-- The head of an upstream PLOAM message: its channel pair, a 10-bit ONU-ID, an octet SeqNo (R122). -/
def headOk (h : UsHead) : Bool := decide (h.g < 512 ∧ h.onuId < 1024 ∧ h.seq < 256)

/-- Octets. -/
def octetsOk (os : List Nat) : Bool := os.all (· < 256)

/-- A field of at most 64 bits (R483). -/
def fieldOk (n : Nat) : Bool := decide (n < 2 ^ 64)

/-- A key, tag, initialisation vector or message field of at most 288 bits. -/
def wideOk (n : Nat) : Bool := decide (n < 2 ^ 288)

/-- A block number (R20). -/
def blockOk (n : Nat) : Bool := decide (n < 189)

/-- A global channel. -/
def pairOk (n : Nat) : Bool := decide (n < 512)

/-- An ONU handle. -/
def handleOk (n : Nat) : Bool := decide (n < 32768)

/-- A tree or protection group. -/
def treeOk (n : Nat) : Bool := decide (n < 64)

/-- A slice. -/
def sliceOk (n : Nat) : Bool := decide (n < 8)

/-- A tributary ID (R83). -/
def tribOk (n : Nat) : Bool := decide (n < 8192)

/-- A gate (R340). -/
def gateOk (n : Nat) : Bool := decide (n < 4096)

/-- A cell of the Gather pool (R296). -/
def cellOk (n : Nat) : Bool := decide (n < 917504)

/-- A logical uplink port. -/
def portOk (n : Nat) : Bool := decide (n < 256)

/-- A root: channel pairs 0 to 511, then logical uplink ports. -/
def rootOk (n : Nat) : Bool := decide (n < 768)

/-- One of two. -/
def halfOk (n : Nat) : Bool := decide (n < 2)

/-- The command is well formed. -/
def Instr.wf : Instr → Bool
  | .powerOnReset => true
  | .brownOut _ => true
  | .vddAoFall => true
  | .ampRailRestart => true
  | .resetNAssert lowNs => fieldOk lowNs
  | .pciePerstPort0 => true
  | .pciePerstPort1 => true
  | .resetSourceRelease _ => true
  | .clocksPresentCheckEnd _ => true
  | .islandLateClockRelease b => blockOk b
  | .strapSample v => fieldOk v
  | .optionCommit => true
  | .hbmTrainingDone => true
  | .bootLoadDone => true
  | .bexedWatchdogExpiry => true
  | .deviceWatchdogExpiry => true
  | .blockResetRelease b _ => blockOk b
  | .ledgerSweepDone b => blockOk b
  | .orphanSweepDone => true
  | .resetReqCore _ => true
  | .resetReqSystem _ => true
  | .resetCauseClear _ => true
  | .klRingEnable p => halfOk p
  | .klRingDisable p => halfOk p
  | .klCmdDoorbell p _ => halfOk p
  | .klCommandFetch p _ => halfOk p
  | .klCplHeadWrite p _ => halfOk p
  | .klEvtHeadWrite p _ => halfOk p
  | .klEvtLostRead p _ => halfOk p
  | .faultStatusClear b _ _ => blockOk b
  | .faultFirstClear b _ _ => blockOk b
  | .faultMaskWrite b _ _ => blockOk b
  | .faultInjectWrite b _ _ => blockOk b
  | .faultDetect b _ => blockOk b
  | .bar0BadAccess _ => true
  | .registerWrite fn port off _ => fieldOk fn && halfOk port && fieldOk off
  | .flrPf0 p => halfOk p
  | .flrPf1 p => halfOk p
  | .flrPf2 p => halfOk p
  | .pf1RingEnable _ r _ base size => fieldOk r && fieldOk base && fieldOk size
  | .puntRingDoorbell r _ => fieldOk r
  | .injectRingDoorbell r _ _ => fieldOk r
  | .ringDropsRead _ r meet => fieldOk r && fieldOk meet
  | .puntDelivery k => fieldOk k
  | .ampCmdDoorbell p _ => fieldOk p
  | .nop q => reqOk q
  | .deviceInfo q => reqOk q
  | .deviceReset q => reqOk q
  | .coreReset q => reqOk q
  | .blockReset q b _ => reqOk q && fieldOk b
  | .paramGet q pid first count => reqOk q && fieldOk pid && fieldOk first && fieldOk count
  | .paramSet q pid first count _ => reqOk q && fieldOk pid && fieldOk first && fieldOk count
  | .paramDescribe q pid => reqOk q && fieldOk pid
  | .paramNext q pid => reqOk q && fieldOk pid
  | .ledgerAudit q quantity first count => reqOk q && fieldOk quantity && fieldOk first && fieldOk count
  | .bexedImageLoad q _ => reqOk q
  | .bexedRestart q => reqOk q
  | .bexedTakeover => true
  | .bexedRestartTimeout => true
  | .bexedStatus q => reqOk q
  | .channelEnable q g => reqOk q && fieldOk g
  | .ladderRungSuccess g => pairOk g
  | .ladderRungTimeout g => pairOk g
  | .laneTransitionDone g _ => pairOk g
  | .channelDisable q g => reqOk q && fieldOk g
  | .phaseMemoryRead q h c => reqOk q && fieldOk h && fieldOk c
  | .moduleRead q g addr len => reqOk q && fieldOk g && fieldOk addr && fieldOk len
  | .moduleWrite q g addr data => reqOk q && fieldOk g && fieldOk addr && octetsOk data
  | .i3cPoll g => pairOk g
  | .i3cTransferDone bus _ data => fieldOk bus && octetsOk data
  | .i3cInBandInterrupt g payload => pairOk g && wideOk payload
  | .tributaryCreate q id _ => reqOk q && fieldOk id
  | .tributaryStatus q id => reqOk q && fieldOk id
  | .tributaryResize q id slots fill => reqOk q && fieldOk id && fieldOk slots && fieldOk fill
  | .tributaryMove q id channel => reqOk q && fieldOk id && fieldOk channel
  | .tributaryDelete q id => reqOk q && fieldOk id
  | .slotMapLoad q g _ => reqOk q && fieldOk g
  | .slotMapCommit q g => reqOk q && fieldOk g
  | .slotMapCheckDone g => pairOk g
  | .slotMapWithdraw q g _ => reqOk q && fieldOk g
  | .tribFeedWrite id seq octets => tribOk id && fieldOk seq && octetsOk octets
  | .tribDefectEval id delineated => tribOk id && fieldOk delineated
  | .onuCreate q tree serial onuId => reqOk q && fieldOk tree && fieldOk serial && fieldOk onuId
  | .onuDestroy q h => reqOk q && fieldOk h
  | .onuStatus q h => reqOk q && fieldOk h
  | .onuRangeRead q h => reqOk q && fieldOk h
  | .onuAccept q h => reqOk q && fieldOk h
  | .onuReject q h => reqOk q && fieldOk h
  | .onuDeactivate q h => reqOk q && fieldOk h
  | .onuDisable q h => reqOk q && fieldOk h
  | .onuEnable q h => reqOk q && fieldOk h
  | .onuEnableAll q tree => reqOk q && fieldOk tree
  | .onuRetune q h c => reqOk q && fieldOk h && fieldOk c
  | .onuPin q h _ => reqOk q && fieldOk h
  | .onuLadderRestart q h => reqOk q && fieldOk h
  | .serialNumberWindow g => pairOk g
  | .serialNumberOnu hd serial _ => headOk hd && fieldOk serial
  | .snWindowEnd g _ _ => pairOk g
  | .rangingBurst g h _ => pairOk g && handleOk h
  | .rangingWindowEnd h => handleOk h
  | .acknowledgement hd code => headOk hd && fieldOk code
  | .registration hd regId => headOk hd && wideOk regId
  | .extCapability hd _ => headOk hd
  | .keyReport hd slot frag octets => headOk hd && fieldOk slot && fieldOk frag && octetsOk octets
  | .tuningResponse hd _ => headOk hd
  | .sleepRequest hd => headOk hd
  | .ploamUnsupported hd => headOk hd
  | .ploamAnswerTimeout h => handleOk h
  | .extendingTimeout h => handleOk h
  | .authTimeout h => handleOk h
  | .lostTimeout h => handleOk h
  | .onuIdQuarantineEnd tree onuId => treeOk tree && fieldOk onuId
  | .tuningResponseTimeout h => handleOk h
  | .tuneArrivalTimeout h _ => handleOk h
  | .ladderAckTimeout h => handleOk h
  | .ladderTrialEnd h => handleOk h
  | .ladderRetry h => handleOk h
  | .balanceInterval tree => treeOk tree
  | .mapBudgetSet q g b => reqOk q && fieldOk g && fieldOk b
  | .fixedPatternLoad q g actSfc _ => reqOk q && fieldOk g && fieldOk actSfc
  | .fixedPatternRead q g _ => reqOk q && fieldOk g
  | .mapPageRead q g _ _ => reqOk q && fieldOk g
  | .mapStats q g => reqOk q && fieldOk g
  | .onuGrantStats q h => reqOk q && fieldOk h
  | .allocCreate q onu allocId _ => reqOk q && fieldOk onu && fieldOk allocId
  | .allocModify q alloc _ => reqOk q && fieldOk alloc
  | .allocDestroy q alloc => reqOk q && fieldOk alloc
  | .allocStatus q alloc => reqOk q && fieldOk alloc
  | .mapPolicySet q _ _ => reqOk q
  | .mapPolicyGet q _ => reqOk q
  | .mapHints q g => reqOk q && fieldOk g
  | .grantLatencyBind q _ handle unit => reqOk q && fieldOk handle && fieldOk unit
  | .marverImageLoad q _ => reqOk q
  | .marverImageActivate q sfc => reqOk q && fieldOk sfc
  | .marverStatus q core => reqOk q && fieldOk core
  | .superframeBoundary => true
  | .mapCommit g => pairOk g
  | .compileDeadline g => pairOk g
  | .mapPageCheckDone g => pairOk g
  | .hintPublish k => fieldOk k
  | .marverCoreTrap k cause => fieldOk k && fieldOk cause
  | .marverWatchEnd k => fieldOk k
  | .bufferReportArrival alloc bytes burstPos => fieldOk alloc && fieldOk bytes && fieldOk burstPos
  | .phaseMemoryLoad g h => pairOk g && handleOk h
  | .burstReception g _ => pairOk g
  | .decryptVerify slice _ => sliceOk slice
  | .decryptRelease slice => sliceOk slice
  | .reasmTimeout slice h gem => sliceOk slice && handleOk h && fieldOk gem
  | .upstreamEvaluation g => pairOk g
  | .sdbIntervalEnd h => handleOk h
  | .dyingGaspExpiry h => handleOk h
  | .sidebandFrameReceive link _ => fieldOk link
  | .rssiResult link chan code onu => fieldOk link && fieldOk chan && fieldOk code && fieldOk onu
  | .sigDetect link chan _ => fieldOk link && fieldOk chan
  | .txFault link chan _ => fieldOk link && fieldOk chan
  | .modPresent link chan _ _ => fieldOk link && fieldOk chan
  | .late link type => fieldOk link && fieldOk type
  | .echo link tag turnaround8 roundTrip => fieldOk link && wideOk tag && fieldOk turnaround8 && fieldOk roundTrip
  | .sblBadEvent link _ => fieldOk link
  | .sidebandCalibration link => fieldOk link
  | .uplinkFrameArrival port octets _ => portOk port && octetsOk octets
  | .uplinkBlockLock port lane _ => portOk port && fieldOk lane
  | .ingressPass k => fieldOk k
  | .fragHoldTimeout slice => sliceOk slice
  | .fragEntryExpiry slice key => sliceOk slice && wideOk key
  | .cellFree cell => cellOk cell
  | .descriptorArrival k => fieldOk k
  | .dequeueWalk root => rootOk root
  | .dbufFlushTimeout queue => fieldOk queue
  | .dbufPageWriteDone queue => fieldOk queue
  | .dbufPageReadDone queue err _ => fieldOk queue && fieldOk err
  | .lagReorderTimeout grp => fieldOk grp
  | .lagMemberDown grp port => fieldOk grp && portOk port
  | .lagMemberUp grp port => fieldOk grp && portOk port
  | .uplinkFrameTransmit port => portOk port
  | .facetImageLoad q slice group _ => reqOk q && fieldOk slice && fieldOk group
  | .facetImageCommit q slice => reqOk q && fieldOk slice
  | .facetImageWithdraw q slice _ => reqOk q && fieldOk slice
  | .facetImageSwap q slice timeoutUs => reqOk q && fieldOk slice && fieldOk timeoutUs
  | .facetEpochBoundary slice => sliceOk slice
  | .facetSwapTimeout slice => sliceOk slice
  | .facetEpochDrain slice => sliceOk slice
  | .facetEntryInsert q slice group after _ _ => reqOk q && fieldOk slice && fieldOk group && fieldOk after
  | .facetEntryDelete q slice group index => reqOk q && fieldOk slice && fieldOk group && fieldOk index
  | .facetEntryRead q slice group index => reqOk q && fieldOk slice && fieldOk group && fieldOk index
  | .facetEpochStatus q slice => reqOk q && fieldOk slice
  | .facetThrottleSample slice _ _ => sliceOk slice
  | .cascadeEnable q length position _ => reqOk q && fieldOk length && fieldOk position
  | .matchTrainingEnd slice _ => sliceOk slice
  | .cascadeKeyReceive link seq rs inTime => fieldOk link && fieldOk seq && rs.length == inTime.length
  | .matchSymbol slice slot sym => sliceOk slice && fieldOk slot && fieldOk sym
  | .cascadeResultReceive link seq _ => fieldOk link && fieldOk seq
  | .cascadeTimeout slice tag => sliceOk slice && wideOk tag
  | .lagCreate q grp _ => reqOk q && fieldOk grp
  | .lagMemberSet q grp _ => reqOk q && fieldOk grp
  | .lagDestroy q grp => reqOk q && fieldOk grp
  | .lagStatus q grp => reqOk q && fieldOk grp
  | .classStats q kind idx => reqOk q && fieldOk kind && fieldOk idx
  | .tableInsert q _ => reqOk q
  | .tableDelete q kind key => reqOk q && fieldOk kind && wideOk key
  | .tableSearch q kind key slice => reqOk q && fieldOk kind && wideOk key && fieldOk slice
  | .tableWalkOpen q _ _ => reqOk q
  | .tableNext q walk count => reqOk q && fieldOk walk && fieldOk count
  | .tableWalkClose q walk => reqOk q && fieldOk walk
  | .tableWalkTimeout walk => fieldOk walk
  | .tableFlushByPort q ownerKind owner _ _ => reqOk q && fieldOk ownerKind && fieldOk owner
  | .tableStats q _ idx => reqOk q && fieldOk idx
  | .tableWriteApply slice => sliceOk slice
  | .learnTake => true
  | .agerSweep pos => fieldOk pos
  | .conditionalInvalidation pos _ => fieldOk pos
  | .parityRepair slice pos _ => sliceOk slice && fieldOk pos
  | .poolStatus q => reqOk q
  | .poolQuotaSet q r reserve limit => reqOk q && fieldOk r && fieldOk reserve && fieldOk limit
  | .poolCellRead q cell => reqOk q && fieldOk cell
  | .dbufProfileSet q n _ => reqOk q && fieldOk n
  | .dbufStatus q stack => reqOk q && fieldOk stack
  | .queueBufferStatus q queue => reqOk q && fieldOk queue
  | .dbufPageRead q page => reqOk q && fieldOk page
  | .queueCreate q dir id _ => reqOk q && fieldOk dir && fieldOk id
  | .queueModify q queue _ => reqOk q && fieldOk queue
  | .queueMove q queue parent prio weight => reqOk q && fieldOk queue && fieldOk parent && fieldOk prio
      && fieldOk weight
  | .vertexMove q v parent prio weight => reqOk q && fieldOk v && fieldOk parent && fieldOk prio && fieldOk weight
  | .queueDelete q queue => reqOk q && fieldOk queue
  | .queueStatus q queue => reqOk q && fieldOk queue
  | .vertexCreate q dir _ => reqOk q && fieldOk dir
  | .vertexModify q v _ => reqOk q && fieldOk v
  | .vertexStatus q v => reqOk q && fieldOk v
  | .vertexDelete q v => reqOk q && fieldOk v
  | .lenProfileSet q n _ => reqOk q && fieldOk n
  | .policerSet q slice policer _ => reqOk q && fieldOk slice && fieldOk policer
  | .policerStatus q slice policer => reqOk q && fieldOk slice && fieldOk policer
  | .gateListLoad q gate _ => reqOk q && fieldOk gate
  | .gateListCommit q gate => reqOk q && fieldOk gate
  | .gateListWithdraw q gate _ => reqOk q && fieldOk gate
  | .gateStatus q gate => reqOk q && fieldOk gate
  | .gateListStart gate => gateOk gate
  | .gateWindowOpen gate => gateOk gate
  | .portQueueSet q port tc queue => reqOk q && fieldOk port && fieldOk tc && fieldOk queue
  | .queueSampleBind q queue _ unit => reqOk q && fieldOk queue && fieldOk unit
  | .schedStats q kind idx => reqOk q && fieldOk kind && fieldOk idx
  | .queueSample k => fieldOk k
  | .onuMasterKeySet q h msk mk => reqOk q && fieldOk h && wideOk msk && wideOk mk
  | .onuRekey q h => reqOk q && fieldOk h
  | .keyStatus q _ idx => reqOk q && fieldOk idx
  | .broadcastKeySet q g slot key actSfc => reqOk q && fieldOk g && fieldOk slot && wideOk key && fieldOk actSfc
  | .cipherParamSet q _ _ => reqOk q
  | .keKeyLoad q slot key => reqOk q && fieldOk slot && wideOk key
  | .keKeyUnwrap q kek slot wrapped => reqOk q && wideOk kek && fieldOk slot && wideOk wrapped
  | .keKeyClear q slot => reqOk q && fieldOk slot
  | .keEncrypt q slot mode iv aadLen src dst len => reqOk q && fieldOk slot && fieldOk mode && wideOk iv
      && fieldOk aadLen && octetsOk src && fieldOk dst && fieldOk len
  | .keDecrypt q slot mode iv aadLen src dst len tag => reqOk q && fieldOk slot && fieldOk mode && wideOk iv
      && fieldOk aadLen && octetsOk src && fieldOk dst && fieldOk len && wideOk tag
  | .keStatus q => reqOk q
  | .keLockGrant => true
  | .keJobDone => true
  | .rngFail => true
  | .crcScanStart q unit alg space addr len init run => reqOk q && fieldOk unit && fieldOk alg && fieldOk space
      && fieldOk addr && fieldOk len && fieldOk init && fieldOk run
  | .crcScanPause q unit data => reqOk q && fieldOk unit && octetsOk data
  | .crcScanStatus q unit data => reqOk q && fieldOk unit && octetsOk data
  | .crcScanDone unit _ => fieldOk unit
  | .cipherStats q kind idx => reqOk q && fieldOk kind && fieldOk idx
  | .rekeyInterval h => handleOk h
  | .rekeyRetry h => handleOk h
  | .keyFragmentTimeout h => handleOk h
  | .keyRetire h dir slot => handleOk h && fieldOk dir && fieldOk slot
  | .timeStatus q => reqOk q
  | .timeSet q sec ns => reqOk q && fieldOk sec && fieldOk ns
  | .timeSourceSet q td kind inst prio => reqOk q && fieldOk td && fieldOk kind && fieldOk inst && fieldOk prio
  | .timeParamSet q _ => reqOk q
  | .ptpPortSet q p _ => reqOk q && fieldOk p
  | .ptpPortStatus q p => reqOk q && fieldOk p
  | .ptpClockStatus q => reqOk q
  | .asymSet q g _ => reqOk q && fieldOk g
  | .todPairRead q h n => reqOk q && fieldOk h && fieldOk n
  | .pulseOutSet q k _ => reqOk q && fieldOk k
  | .ppsInSet q input delay => reqOk q && fieldOk input && fieldOk delay
  | .servoUpdate => true
  | .wtrExpiry => true
  | .refclkLoss _ => true
  | .refclkQualify _ => true
  | .refclkBReturn => true
  | .ppsInEdge input _ => halfOk input
  | .todInMessage _ => true
  | .ppsInMiss input => halfOk input
  | .timeSourceLoss td => halfOk td
  | .ptpMessageReceive _ => true
  | .ptpMessageSend port kind => portOk port && fieldOk kind
  | .announceReceiptTimeout port => portOk port
  | .ixrSyncSend link => fieldOk link
  | .ixrTimeReceive _ => true
  | .ixrRespTimeout link seq => fieldOk link && fieldOk seq
  | .ppsOutEdge k => fieldOk k
  | .todOutMessage => true
  | .timeRecordToAmpoule => true
  | .tapDrain => true
  | .bindingNotice h serial => handleOk h && fieldOk serial
  | .evidenceMinute => true
  | .timeGap => true
  | .ampSealPinChange _ => true
  | .sealOpenTimeout => true
  | .sealBurnDone => true
  | .ampouleIdentity q => ampReqOk q
  | .ampouleEvidenceRead q first count => ampReqOk q && fieldOk first && fieldOk count
  | .ampouleMeterRead q first count => ampReqOk q && fieldOk first && fieldOk count
  | .ampouleLogRead q first count => ampReqOk q && fieldOk first && fieldOk count
  | .ampouleLogAck q seq => ampReqOk q && fieldOk seq
  | .ampouleCheckpoint q => ampReqOk q
  | .ampouleSealOpen q => ampReqOk q
  | .ampouleParamStage q _ => ampReqOk q
  | .ampouleSealCommit q => ampReqOk q
  | .ampouleSealAbort q => ampReqOk q
  | .protEnable q t => reqOk q && fieldOk t
  | .protDisable q t => reqOk q && fieldOk t
  | .protActivate q t => reqOk q && fieldOk t
  | .protSwitch q _ => reqOk q
  | .protAuditNow q t => reqOk q && fieldOk t
  | .protStatus q t => reqOk q && fieldOk t
  | .spareSet q t c => reqOk q && fieldOk t && fieldOk c
  | .channelSpare q g => reqOk q && fieldOk g
  | .stackStatus q => reqOk q
  | .heartbeatReceive _ => true
  | .ixrardoBadType link version type => fieldOk link && fieldOk version && fieldOk type
  | .ixrardoLinkChange link _ => fieldOk link
  | .claimRoundEnd _ => true
  | .claimBusFault _ => true
  | .claimBusFaultClear => true
  | .promotion t => treeOk t
  | .protSettleEnd t => treeOk t
  | .mirrorReceive link seq _ => fieldOk link && fieldOk seq
  | .auditInterval => true
  | .auditReceive link seq group _ sfcA mirrorSeq digest _ => fieldOk link && fieldOk seq && fieldOk group
      && fieldOk sfcA && fieldOk mirrorSeq && wideOk digest
  | .drillWatchEnd t => treeOk t
  | .powerStatus q => reqOk q
  | .domainPowerSet q domain _ _ => reqOk q && fieldOk domain
  | .domainPowerUpDone domain => fieldOk domain
  | .powerCapSet q capW capStageMax => reqOk q && fieldOk capW && fieldOk capStageMax
  | .sagStatus q => reqOk q
  | .optionImageRead q _ => reqOk q
  | .optionImageWrite q _ => reqOk q
  | .optionStoreWriteDone _ _ => true
  | .optionStatus q => reqOk q
  | .bootImageWrite q slot _ _ => reqOk q && fieldOk slot
  | .bootImageStatus q => reqOk q
  | .sagStageRise _ group => fieldOk group
  | .sagStageFall _ group => fieldOk group
  | .powerEstimate watts => fieldOk watts
  | .ledgerWindowClose => true
  | .faultSummary q first count => reqOk q && fieldOk first && fieldOk count
  | .sampleConfig q _ rate mode => reqOk q && fieldOk rate && fieldOk mode
  | .sampleStart q => reqOk q
  | .sampleStop q => reqOk q
  | .sampleRead q first count => reqOk q && fieldOk first && fieldOk count
  | .bwWindowSet q ns => reqOk q && fieldOk ns
  | .bwWindowRead q _ idx dir => reqOk q && fieldOk idx && fieldOk dir
  | .bwWindowEnd => true
  | .histogramConfig q source shift => reqOk q && fieldOk source && fieldOk shift
  | .histogramRead q unit => reqOk q && fieldOk unit
  | .histogramClear q unit => reqOk q && fieldOk unit
  | .histogramRelease q unit => reqOk q && fieldOk unit
  | .annealRun q => reqOk q
  | .annealStatus q => reqOk q
  | .annealPlanRead q => reqOk q
  | .monitorRead q _ hub idx => reqOk q && fieldOk hub && fieldOk idx
  | .annealRunStart => true
  | .annealMeasureDone _ => true
  | .annealTargetSettle group => fieldOk group
  | .annealPlanWritten => true
  | .rxThresholdSet q g _ => reqOk q && fieldOk g
  | .onuRxStats q h _ => reqOk q && fieldOk h
  | .lanePllLockChange g _ _ => pairOk g
  | .portAdminStateChange port _ => portOk port
  | .irqHoldoffExpiry src idx => fieldOk src && fieldOk idx
  | .cascadeFrameClose slice _ => sliceOk slice

end Sys2Proof
end

