-- ==== Sys2Proof/Safety.lean ====
section
/-! DEFINITION. What statements about the block are phrased in: the ranges its clocks and power state stay in, the
invariant of a step, when a Kilak command is served, and when a block can act. -/

namespace Sys2Proof.Machine

/-- The superframe counter stays in its 51 bits (R77). -/
def State.clkOk (s : State) : Prop := s.clk.sfc < 2 ^ 51

/-- The voltage stage is S0 to S5 and the cap stage and its limit never exceed S4 (R529, R531). -/
def State.pwrOk (s : State) : Prop := s.pwr.voltStage ≤ 5 ∧ s.pwr.capStage ≤ 4 ∧ s.pwr.capStageMax ≤ 4

/-- The invariant every step keeps. -/
def State.Inv (s : State) : Prop := s.clkOk ∧ s.pwrOk ∧ s.pending.all Instr.wf = true

/-- Bexed takes up the command and no rule turns it away before its own checks: neither Bexed core has a real class-F
record (R536), the port presents a ring that serves it (R482, R486), port 1 may write or the command only reads (R471),
and ROM mode serves it (R523). -/
def Served (s : State) (q : Req) (op : Nat) : Prop :=
  s.undefinedBlk 104 = false ∧ s.undefinedBlk 105 = false ∧ s.serves q op = true
    ∧ (q.port == 1 && s.opt.cur.port1Write == 0 && !readOnlyOps.contains op) = false
    ∧ (s.host.romMode && !romOps op) = false

/-- The answer's octets fit the command's result area (R484). -/
def Fits (q : Req) (r : Reply) : Prop := (pack r.res).length ≤ 16 ∨ (pack r.res).length ≤ q.resCap

/-- A block can act: it is out of reset and powered, and no real class-F record stands in it. -/
def Acts (s : State) (b : Nat) : Prop := s.undefinedBlk b = false ∧ s.islandUp b = true

/-- The command is served and answers r at once, its effect f: the completion of r is written after f. -/
def Replies (i : Instr) (q : Req) (op : Nat) (r : Reply) (f : State → State) (s : State) : Prop :=
  Served s q op → Fits q r → exec i s = .next (complete q op r (f (openCmd q op s)))

/-- The command is served and waits, in progress, after its effect f. -/
def Waits (i : Instr) (q : Req) (op : Nat) (f : State → State) (s : State) : Prop :=
  Served s q op → exec i s = .next (f (openCmd q op s))

/-- Block b can act, and the event's whole effect is f. -/
def Does (i : Instr) (b : Nat) (f : State → State) (s : State) : Prop := Acts s b → exec i s = .next (f s)

/-- The punt or inject ring r changed. -/
def onRing (inject : Bool) (r : Nat) (f : Pf1Ring → Pf1Ring) (s : State) : State :=
  { s with host := s.host.setRing inject r (f (Tab.getD (s.host.rings inject) r {})) }

/-- The endpoint of a port the device presents can act (R471). -/
def PortUp (s : State) (p : Nat) : Prop := Acts s (pcieBlk p) ∧ s.ports.contains p = true

/-- Ampoule's answer r to a PF2 command stands in the command's slot. -/
def ampAnswer (q : AmpReq) (r : Reply) (s : State) : State :=
  { s with host := s.host.ampComplete q.port (q.slot % 16) q.tag r.code r.detail (pack r.res) }

/-- Ampoule serves the command and answers r at once, its effect f: no burn holds a command open (R432, R500). -/
def AmpReplies (i : Instr) (q : AmpReq) (r : Reply) (f : State → State) (s : State) : Prop :=
  Acts s 173 → s.amp.burn = none → s.ports.contains q.port = true → exec i s = .next (ampAnswer q r (f s))

/-- t is s with a reset asserted by src (R505, R507, R509): the source stands, the cause bit is recorded, the reach is the
wider one, every Kilak ring is disabled and Bexed not ready; the queue of commands and the time stay; what a system or
power-on reset reaches is at its reset value. -/
def ResetBy (src : ResetSource) (s t : State) : Prop :=
  t.rst.phase = .asserted ∧ t.rst.reach = max s.rst.reach (srcReach src) ∧ src ∈ t.rst.asserted
    ∧ t.rst.cause = causeSeen (if srcReach src = 3 && s.rst.reach != 3 then 0 else s.rst.cause) (srcBit src)
    ∧ t.pending = s.pending ∧ t.clk.now = s.clk.now
    ∧ t.host.bexedReady = false ∧ t.host.port0.enable = false ∧ t.host.port1.enable = false
    ∧ (2 ≤ t.rst.reach → t.lane = {} ∧ t.ds = {} ∧ t.onu = {} ∧ t.map = {} ∧ t.rx = {} ∧ t.time = {} ∧ t.cls = {}
      ∧ t.em = {} ∧ t.pool = {} ∧ t.sch = {} ∧ t.mon = {} ∧ t.par = [] ∧ t.ctr = [])

end Sys2Proof.Machine
end

