-- ==== Sys2Proof/Certificates/Slice0/Obligations.lean ====
section
/-! DEFINITION. The statements. -/

open Sys2Proof Sys2Proof.Machine

/-- O1: A step runs the command at the front of the queue on the queue's rest (derived; sections 0, 95). -/
def Obligations.StepTakesFrontCommand : Prop :=
  ∀ (c : Instr) (cs : List Instr) (s : State), step { s with pending := c :: cs } = exec c { s with pending := cs }

/-- O2: With no command waiting, one map tick passes, never past a superframe boundary (the model's choice, log 3)
(derived; R77, R391). Choices of the model it rests on: log 3, log 77. -/
def Obligations.IdleStepAdvancesTime : Prop :=
  ∀ s : State, s.pending = [] →
    (s.islandUp 172 = false → step s = .next { s with clk := { s.clk with now := s.clk.now + 1 } })
    ∧ (s.islandUp 172 = true → s.clk.ltb % 311040 = 311039 → step s = .next s)
    ∧ (s.islandUp 172 = true → s.clk.ltb % 311040 ≠ 311039 →
        step s = .next { s with clk := { s.clk with now := s.clk.now + 1, ltb := s.clk.ltb + 1 } })

/-- O3: The step invariant holds at reset (derived; R507, R529, R531). -/
def Obligations.InvariantHoldsAtReset : Prop := State.reset.Inv

/-- O4: Every step of every command keeps the counter and power ranges and the queue's well-formedness (derived; R77,
R394, R506, R519, R529, R531). -/
def Obligations.EveryStepKeepsInvariant : Prop :=
  ∀ s t : State, s.Inv → step s = .next t → t.Inv

/-- O5: No command changes the queue of waiting commands (derived; sections 0, 95). -/
def Obligations.CommandsNeverTouchTheQueue : Prop :=
  ∀ (i : Instr) (s t : State), exec i s = .next t → t.pending = s.pending

/-- O6: No command is refused; a command faults only where a real class-F fault has left a block undefined (derived;
R536, R538, R543). Choices of the model it rests on: log 68. -/
def Obligations.OnlyClassFStopsACommand : Prop :=
  ∀ (i : Instr) (s : State),
    (∀ r, exec i s ≠ .refused r)
    ∧ (∀ f, exec i s = .fault f → ∃ b, f = .blockUndefined b ∧ s.undefinedBlk b = true)
    ∧ ((∀ b, s.undefinedBlk b = false) → ∃ t, exec i s = .next t)

/-- O7: Each reset source asserts its reset: reach, cause bit, what is cleared, what stays (derived; R505, R506, R507,
R508, R509, R514, R479, R490, R525). Choices of the model it rests on: log 16, log 17. -/
def Obligations.ResetSourcesAssertTheirReset : Prop :=
  ∀ (s : State) (q : Req) (v : Reg) (lowNs : Nat),
    (∃ t, exec .powerOnReset s = .next t ∧ ResetBy .pwrGood s t)
    ∧ (∀ rail, rail ≠ .vddAo → rail ≠ .vddAmp → ∃ t, exec (.brownOut rail) s = .next t ∧ ResetBy .brownOut s t)
    ∧ (1000 ≤ lowNs → ∃ t, exec (.resetNAssert lowNs) s = .next t ∧ ResetBy .resetN s t)
    ∧ (lowNs < 200 → exec (.resetNAssert lowNs) s = .next s)
    ∧ (∃ t, exec .pciePerstPort0 s = .next t ∧ ResetBy .perst s t)
    ∧ (PortUp s 0 → reqLevel v = 1 → ∃ t, exec (.resetReqCore v) s = .next t ∧ ResetBy .reqCore s t)
    ∧ (PortUp s 0 → reqLevel v = 2 → ∃ t, exec (.resetReqSystem v) s = .next t ∧ ResetBy .reqSystem s t)
    ∧ (Served s q 0x0002 → ∃ t, exec (.deviceReset q) s = .next t ∧ ResetBy .devCmd s t)
    ∧ (Served s q 0x0003 → ∃ t, exec (.coreReset q) s = .next t ∧ ResetBy .coreCmd s t)
    ∧ (s.host.bexedReady = true → ∃ t, exec .bexedWatchdogExpiry s = .next t ∧ ResetBy .bexedWdt s t)
    ∧ (s.due s.rst.devWdt = true → ∃ t, exec .deviceWatchdogExpiry s = .next t ∧ ResetBy .wdt s t)

/-- O8: The release sequence: sources, straps, clocks check, options, HBM, boot (derived; R509, R510, R512, R513,
R520, R521, R523, R567, R375, R435, R377, R384). Choices of the model it rests on: log 1, log 18, log 53, log 54. -/
def Obligations.ReleaseSequenceAdvances : Prop :=
  ∀ (s : State) (src : ResetSource) (v : Reg) (n : Nat),
    (s.rst.asserted.contains src = true → s.rst.asserted.filter (· != src) = [] →
      exec (.resetSourceRelease src) s = .next { s with
        rst := { s.rst with asserted := [], phase := .clocksCheck, checkEnd := s.clk.now + msT 10 }
        pwr := if 2 ≤ s.rst.reach then { s.pwr with domains := 2 ^ 24 - 1 } else s.pwr })
    ∧ (s.rst.asserted.contains src = true → s.rst.asserted.filter (· != src) ≠ [] →
      exec (.resetSourceRelease src) s = .next { s with
        rst := { s.rst with asserted := s.rst.asserted.filter (· != src) } })
    ∧ (s.rst.strapDue = true → (s.rst.asserted.all fun x => srcReach x != 3) = true →
      exec (.strapSample n) s = .next { s with
        opt := { s.opt with unitId := n % 8 }, rst := { s.rst with strapDue := false } })
    ∧ (s.rst.phase = .clocksCheck → s.rst.strapDue = false → 2 ≤ s.rst.reach →
      exec (.clocksPresentCheckEnd []) s = .next (newRun false (loaderWaits { s with
        flt := { s.flt with alive := !s.classF }, rst := { s.rst with phase := .optionLoad } })))
    ∧ (s.rst.phase = .clocksCheck → s.rst.strapDue = false → s.rst.reach = 1 →
      exec (.clocksPresentCheckEnd []) s = .next (drawAllXts { s with
        flt := { s.flt with alive := !s.classF }
        rst := { s.rst with phase := .bootLoad, devWdt := some (s.clk.now + secT 2) } }))
    ∧ (Acts s 179 → s.rst.phase = .optionLoad → s.cip.ke.owner = 1 ∨ s.cip.ke.owner = 2 → exec .optionCommit s = .next s)
    ∧ (Acts s 179 → s.rst.phase = .optionLoad → s.cip.ke.owner ≠ 1 → s.cip.ke.owner ≠ 2 → optFail true s.opt.copyA = 0 →
      let u := cu3Ran (crcOctets s.opt.copyA) (loaderDone s)
      (u.cip.ke.owner = 0 ∧ u.cip.ke.waitLoader = false
        ∧ u.cip.ke.grants = if s.cip.ke.owner = 0 then (s.cip.ke.grants + 1) % 2 ^ 16 else s.cip.ke.grants)
      ∧ exec .optionCommit s = .next (powerDown (optDomains s.opt.copyA.domains)
        (s.opt.copyA.presets.foldl (fun s p => applyPreset p s) { u with
          opt := { s.opt with cur := s.opt.copyA, copy := 0, failA := 0, failB := 0, fallbackDue := false }
          pwr := { s.pwr with capW := s.opt.copyA.capW, capStageMax := s.opt.copyA.capStageMax }
          ann := { s.ann with plan := s.opt.copyA.plan }
          rst := { s.rst with phase := .hbmTraining } })))
    ∧ (s.rst.phase = .hbmTraining →
      exec .hbmTrainingDone s = .next (drawAllXts { s with
        rst := { s.rst with phase := .bootLoad, devWdt := some (s.clk.now + secT 2) }
        pool := { s.pool with modeInForce := s.paramN 0x8000 0 } }))
    ∧ (s.rst.phase = .bootLoad → s.opt.bootFail s.opt.cur.bootSlot = 0 → s.opt.cur.bootSlot ≠ 2 →
      exec .bootLoadDone s = .next (bexedReady { s with
        opt := { s.opt with booted := s.opt.cur.bootSlot }
        host := { s.host with romMode := false, running := true, image := s.opt.boot s.opt.cur.bootSlot false }
        map := { s.map with core :=
          (List.range 64).map fun k => (k, { active := s.opt.boot s.opt.cur.bootSlot true }) } }))
    ∧ (PortUp s 0 → ∀ meet, exec (.resetCauseClear ⟨v, meet⟩) s = .next { s with
        rst := { s.rst with cause := meet.foldl (fun c x => causeSeen c (srcBit x)) (causeClear s.rst.cause v) } })
    ∧ (Acts s 173 → exec .ampRailRestart s = .next (newRun true s))

/-- O9: VDD_AO clears all but the option store and OTP; AMP starts a run; port 1 is reset alone; a late clock releases
(derived; R525, R542, R435, R471, R512, R507, R519). Choices of the model it rests on: log 21, log 80. -/
def Obligations.RailsPortOneAndLateClocks : Prop :=
  ∀ (s : State) (b : Nat) (x : BlockRst),
    exec .vddAoFall s = .next {
        pending := s.pending, free := (interruptWrite s).free, clk := { now := s.clk.now }
        opt := { copyA := (interruptWrite s).opt.copyA, copyB := (interruptWrite s).opt.copyB, bexed0 := s.opt.bexed0
                 bexed1 := s.opt.bexed1, marver0 := s.opt.marver0, marver1 := s.opt.marver1 }
        amp := { counter := s.amp.counter, slots := s.amp.slots, pin := s.amp.pin, pinAt := s.amp.pinAt } }
    ∧ (s.opt.writer = none → interruptWrite s = s)
    ∧ exec (.brownOut .vddAo) s = exec .vddAoFall s
    ∧ exec (.brownOut .vddAmp) s = .next (newRun true s)
    ∧ (s.twoPorts = false → exec .pciePerstPort1 s = .next s)
    ∧ (s.twoPorts = true → ∃ t, exec .pciePerstPort1 s = .next t ∧ t.pending = s.pending ∧ t.host.port0 = s.host.port0
        ∧ t.host.port1 = { inProg := s.host.port1.inProg.map fun e => { e with discard := true } }
        ∧ t.host.pf2b = {} ∧ t.host.pf2a = s.host.pf2a ∧ t.clk = s.clk ∧ t.lane = s.lane ∧ t.ds = s.ds ∧ t.rst = s.rst)
    ∧ (s.rst.held.contains b = false → exec (.islandLateClockRelease b) s = .next s)
    ∧ (s.rst.held.contains b = true → s.rst.blocks.find? (·.block == b) = some x →
        exec (.islandLateClockRelease b) s = .next (rebuildBlock x { s with rst := { s.rst with
          held := s.rst.held.filter (· != b)
          blocks := s.rst.blocks.map fun y => if y.block = b then { y with sweeping := true } else y } }))
    ∧ (s.rst.held.contains b = true → s.rst.blocks.find? (·.block == b) = none →
        exec (.islandLateClockRelease b) s = .next (
          let u : State := { s with rst := { s.rst with held := s.rst.held.filter (· != b) } }
          let r := resetOf b none u
          sweepBlock r (rebuildBlock r (clearBlock b u))))

/-- O10: A block reset clears its block, rebuilds at its release and ends with the ledger sweep; orphan cells are
freed (derived; R490, R507, R515, R516, R321, R322, R364). Choices of the model it rests on: log 80. -/
def Obligations.BlockResetsAndSweeps : Prop :=
  ∀ (s : State) (q c : Req) (b : Nat) (x : BlockRst),
    (b ≤ 180 → noBlockReset b = false → b ≠ 104 → b ≠ 105 → s.islandUp b = true →
      s.rst.blocks.any (·.block == b) = false →
      Waits (.blockReset q b true) q 0x0004 (fun u => clearBlock b { u with rst := { u.rst with
        blocks := u.rst.blocks ++ [resetOf b (some q) u] } }) s)
    ∧ (181 ≤ b → b ≤ 188 → s.islandUp b = true → s.rst.blocks.any (·.block == b) = false →
      Waits (.blockReset q b true) q 0x0004 (fun u => clearBlock b { annAbort 1 u with rst := { (annAbort 1 u).rst with
        blocks := (annAbort 1 u).rst.blocks ++ [resetOf b (some q) u] } }) s)
    ∧ (s.rst.blocks.find? (fun y => y.block == b && !y.sweeping) = some x → s.rst.held.contains b = false →
      exec (.blockResetRelease b true) s = .next (rebuildBlock x { s with rst := { s.rst with
        blocks := s.rst.blocks.map fun y => if y.block = b then { y with sweeping := true } else y } })
      ∧ exec (.blockResetRelease b false) s = .next (event 0xD002 [.u 8 b] (raiseFault 174 8 b
        { s with rst := { s.rst with held := s.rst.held ++ [b] } })))
    ∧ (Acts s 180 → s.rst.blocks.find? (fun y => y.block == b && y.sweeping) = some x → x.cmd = some c →
      exec (.ledgerSweepDone b) s = .next (complete c 0x0004 .ok (bump .blockResets b (sweepBlock x
        { s with rst := { s.rst with blocks := s.rst.blocks.filter fun y => y.block != b } }))))
    ∧ (Acts s 180 → s.rst.orphanSweep = false → exec .orphanSweepDone s = .next s)
    ∧ (Acts s 180 → s.rst.orphanSweep = true → ∃ t, exec .orphanSweepDone s = .next t ∧ t.rst.orphanSweep = false
      ∧ t.pool.chains = s.pool.chains ∧ t.pool.freeing = s.pool.freeing
      ∧ t.pool.cells = ((s.pool.cells.filter fun e => !(s.pool.chains.flatMap (·.2.cells)).contains e.1
          && !s.pool.freeing.contains e.1).foldl (fun l e => Tab.erase l e.1) s.pool.cells)
      ∧ t.lane = s.lane ∧ t.sch = s.sch ∧ t.host = s.host)

/-- O11: DomainPowerSet: same state OK, on waits for the power-up, off needs R527's condition and loses the domain's
state (derived; R527, R533, R477, R364, R375). Choices of the model it rests on: log 80. -/
def Obligations.DomainsSwitchOnAndOff : Prop :=
  ∀ (s : State) (q c : Req) (d : Nat) (allHbm on : Bool),
    (5 ≤ d → d < 20 → s.pwr.upping.any (·.1 == d) = false →
      (bit s.pwr.domains d = on → Replies (.domainPowerSet q d false on) q 0xD001 .ok id s)
      ∧ (bit s.pwr.domains d = false → Waits (.domainPowerSet q d false true) q 0xD001
          (fun u => { u with pwr := { u.pwr with upping := u.pwr.upping ++ [(d, some q)] } }) s)
      ∧ (bit s.pwr.domains d = true → (openCmd q 0xD001 s).mayPowerOff d = true →
          Replies (.domainPowerSet q d false false) q 0xD001 .ok (powerOff [d]) s)
      ∧ (bit s.pwr.domains d = true → (openCmd q 0xD001 s).mayPowerOff d = false →
          Replies (.domainPowerSet q d false false) q 0xD001 (.err .busy) id s))
    ∧ (s.pwr.upping.any (·.1 == 20) = false → bit s.pwr.domains 20 = true → s.pool.pages = [] →
        Replies (.domainPowerSet q d true false) q 0xD001 .ok (powerOff [20, 21, 22, 23]) s)
    ∧ (d < 5 → Replies (.domainPowerSet q d false on) q 0xD001 (.err .denied) id s)
    ∧ (20 ≤ d → Replies (.domainPowerSet q d false on) q 0xD001 (.err .badArg) id s)
    ∧ (5 ≤ d → d < 20 → s.pwr.upping.any (·.1 == d) = true →
        Replies (.domainPowerSet q d false on) q 0xD001 (.err .busy) id s)
    ∧ (Acts s 174 → d < 20 → s.pwr.upping.find? (·.1 == d) = some (d, some c) → bit s.pwr.domains d = false →
        exec (.domainPowerUpDone d) s = .next (complete c 0xD001 .ok
          ((domainBlks d).foldl (fun u b => rebuildBlock (resetOf b none u) u) { s with pwr := { s.pwr with
            upping := s.pwr.upping.filter fun x => x.1 != d, domains := s.pwr.domains + 2 ^ d } })))

/-- O12: KL_CTRL enable, disable, the command doorbell and the fetch of one command (derived; R482, R483, R486, R488,
R471). Choices of the model it rests on: log 6, log 11, log 14. -/
def Obligations.KilakRingControlAndFetch : Prop :=
  ∀ (s : State) (p : Nat) (tail : Reg) (d : CmdDesc),
    (PortUp s p →
      ((s.host.port p).enable = false → (s.host.port p).cfgOk = true →
        exec (.klRingEnable p) s = .next (onPort p (fun k => { k with
          enable := true, cmdErr := false, cfgErr := false, headErr := false, cmdTail := 0, cmdHead := 0, cplHead := 0
          cplTail := 0, cplPhase := true, evtHead := 0, evtTail := 0, evtPhase := true, cpl := [], evt := []
          cplIrq := { k.cplIrq with count := 0, deadline := none }
          evtIrq := { k.evtIrq with count := 0, deadline := none } }) s))
      ∧ ((s.host.port p).enable = false → (s.host.port p).cfgOk = false →
        exec (.klRingEnable p) s = .next (onPort p (fun k => { k with cfgErr := true }) s))
      ∧ ((s.host.port p).enable = true → exec (.klRingEnable p) s = .next (onPort p (fun k => k) s))
      ∧ exec (.klRingDisable p) s = .next (onPort p (fun k => { k with
          enable := false, inProg := k.inProg.map fun e => { e with discard := true } }) s)
      ∧ ((s.host.port p).enable = false →
        exec (.klCmdDoorbell p tail) s = .next (onPort p (fun k => { k with cmdTail := tail.toNat }) s))
      ∧ ((s.host.port p).enable = true → 2 ^ (s.host.port p).cmdSize ≤ tail.toNat →
        exec (.klCmdDoorbell p tail) s = .next (onPort p (fun k => { k with cmdTail := tail.toNat, cmdErr := true }) s))
      ∧ (tail.toNat < 2 ^ (s.host.port p).cmdSize →
        (tail.toNat + 2 ^ (s.host.port p).cmdSize - (s.host.port p).cmdTail) % 2 ^ (s.host.port p).cmdSize
          ≤ ((s.host.port p).cmdHead + 2 ^ (s.host.port p).cmdSize - (s.host.port p).cmdTail
              + 2 ^ (s.host.port p).cmdSize - 1) % 2 ^ (s.host.port p).cmdSize →
        exec (.klCmdDoorbell p tail) s = .next (onPort p (fun k => { k with cmdTail := tail.toNat }) s)))
    ∧ (Acts s 104 →
      (s.canFetch p d.fence = false → exec (.klCommandFetch p d) s = .next s)
      ∧ (s.canFetch p d.fence = true → d.reservedOk = true → d.opcode / 4096 ≠ 15 → knownOp d.opcode = true →
        exec (.klCommandFetch p d) s = .next (onPort p (fun k => { k with
          cmdHead := (k.cmdHead + 1) % 2 ^ k.cmdSize
          inProg := k.inProg ++ [{ tag := d.tag, op := d.opcode, irq := d.irq, resCap := d.resCap }] }) s))
      ∧ (s.canFetch p d.fence = true → d.reservedOk = false ∨ (d.opcode / 4096 ≠ 15 ∧ knownOp d.opcode = false) →
        exec (.klCommandFetch p d) s = .next (complete { port := p, tag := d.tag, resCap := d.resCap } d.opcode
          (.err .badOpcode) (onPort p (fun k => { k with
          cmdHead := (k.cmdHead + 1) % 2 ^ k.cmdSize
          inProg := k.inProg ++ [{ tag := d.tag, op := d.opcode, irq := d.irq, resCap := d.resCap }] }) s)))
      ∧ (s.canFetch p d.fence = true → d.reservedOk = true → d.opcode / 4096 = 15 →
        exec (.klCommandFetch p d) s = .next (complete { port := p, tag := d.tag, resCap := d.resCap } d.opcode
          (.err .denied) (onPort p (fun k => { k with
          cmdHead := (k.cmdHead + 1) % 2 ^ k.cmdSize
          inProg := k.inProg ++ [{ tag := d.tag, op := d.opcode, irq := d.irq, resCap := d.resCap }] }) s))))

/-- O13: Head writes consume entries, EVT_LOST clears on read, an expired holdoff signals, bad BAR0 writes are counted
(derived; R482, R475, R476, R474, R548). Choices of the model it rests on: log 7, log 10. -/
def Obligations.KilakHeadsLossAndHoldoff : Prop :=
  ∀ (s : State) (p : Nat) (v : Reg) (meet write : Bool) (r : Nat),
    (PortUp s p →
      (v.toNat < 2 ^ (s.host.port p).cplSize → exec (.klCplHeadWrite p v) s = .next (onPort p (fun k => { k with
        cplHead := v.toNat, cpl := k.cpl.drop ((v.toNat + 2 ^ k.cplSize - k.cplHead) % 2 ^ k.cplSize) }) s))
      ∧ (2 ^ (s.host.port p).cplSize ≤ v.toNat →
        exec (.klCplHeadWrite p v) s = .next (onPort p (fun k => { k with headErr := true }) s))
      ∧ (v.toNat < 2 ^ (s.host.port p).evtSize → exec (.klEvtHeadWrite p v) s = .next (onPort p (fun k => { k with
        evtHead := v.toNat, evt := k.evt.drop ((v.toNat + 2 ^ k.evtSize - k.evtHead) % 2 ^ k.evtSize) }) s))
      ∧ (2 ^ (s.host.port p).evtSize ≤ v.toNat →
        exec (.klEvtHeadWrite p v) s = .next (onPort p (fun k => { k with headErr := true }) s))
      ∧ (∃ t, exec (.klEvtLostRead p meet) s = .next t ∧ t.host.rdData = (s.host.port p).evtLost
        ∧ (t.host.port p).evtLost = flag meet ∧ (t.host.port p).lostFlag = ((s.host.port p).lostFlag || meet)
        ∧ (t.host.port p).evt = (s.host.port p).evt ∧ t = { s with host := t.host }))
    ∧ (PortUp s 0 → exec (.bar0BadAccess false) s = .next s ∧ exec (.bar0BadAccess true) s = .next (bump .pcieBadAccess 0 s))
    ∧ (Acts s (pcieBlk p) →
      ((s.host.port p).cplIrq.expired s.clk.now = true → exec (.irqHoldoffExpiry 0 p) s = .next { s with
        host := (s.host.setPort p { s.host.port p with cplIrq := (s.host.port p).cplIrq.clear }).signal p 0 512 })
      ∧ ((s.host.port p).evtIrq.expired s.clk.now = true → exec (.irqHoldoffExpiry 1 p) s = .next { s with
        host := (s.host.setPort p { s.host.port p with evtIrq := (s.host.port p).evtIrq.clear }).signal p 0 513 })
      ∧ ((s.host.port p).cplIrq.expired s.clk.now = false → exec (.irqHoldoffExpiry 0 p) s = .next s))
    ∧ (Acts s (pcieBlk (s.ringPort r)) →
      ((Tab.getD s.host.punt r {}).irq.expired s.clk.now = true → exec (.irqHoldoffExpiry 2 r) s = .next { s with
        host := { s.host with punt := Tab.upd s.host.punt r {} fun x => { x with irq := x.irq.clear } }.signal (s.ringPort r) 1 r })
      ∧ ((Tab.getD s.host.inject r {}).irq.expired s.clk.now = true → exec (.irqHoldoffExpiry 3 r) s = .next { s with
        host := { s.host with inject := Tab.upd s.host.inject r {} fun x => { x with irq := x.irq.clear } }.signal
          (s.ringPort r) 1 (32 + r) }))

/-- O14: PF1 ring enable, doorbells, drops, PF2 doorbell, Function Level Resets, plain register writes (derived; R473,
R495, R497, R500, R501, R548, R475, R477, R549, R476). Choices of the model it rests on: log 10, log 12, log 13, log
15, log 85. -/
def Obligations.Pf1RingsPf2SlotsAndResets : Prop :=
  ∀ (s : State) (p r meet : Nat) (ctrl tail v : Reg) (base size fn off : Nat) (inj : Bool),
    (PortUp s (s.ringPort r) → r < 32 →
      ((Tab.getD (s.host.rings inj) r {}).enable = false → bit ctrl.toNat 0 = true → 6 ≤ size → size ≤ 14 → base % 4096 = 0 →
        11 ≤ bits ctrl.toNat 11 8 → bits ctrl.toNat 11 8 ≤ 14 →
        exec (.pf1RingEnable inj r ctrl base size) s = .next (onRing inj r (fun x => { x with
          enable := true, base := base, size := size, bufLog2 := bits ctrl.toNat 11 8, tail := 0, head := 0, done := []
          posted := [], status := [], irq := x.irq.clear }) s))
      ∧ exec (.puntRingDoorbell r tail) s = .next (onRing false r (fun x => { x with tail := tail.toNat }) s))
    ∧ (PortUp s (s.ringPort r) → meet < 2 ^ 32 → exec (.ringDropsRead inj r meet) s = .next (
        let u := onRing inj r (fun x => { x with drops := meet }) s
        { u with host := { u.host with rdData := (Tab.getD (s.host.rings inj) r {}).drops } }))
    ∧ (PortUp s p →
      ((s.host.pf2 p).mem = [] → exec (.ampCmdDoorbell p tail) s = .next { s with host := s.host.setPf2 p { s.host.pf2 p with
          tail := tail.toNat % 16
          posted := (s.host.pf2 p).posted ++ slotsUpTo (s.host.pf2 p).tail (tail.toNat % 16) } })
      ∧ exec (.flrPf0 p) s = .next { s with host := (s.host.setPort p (s.host.port p).clearEnable).msixDisable p 0 }
      ∧ exec (.flrPf2 p) s = .next { s with host := (s.host.setPf2 p {}).msixDisable p 2 }
      ∧ (∃ t, exec (.flrPf1 p) s = .next t ∧ t.host.msixOff = (p * 3 + 1) :: s.host.msixOff
        ∧ t.host.puntQ = s.host.puntQ.filter (fun e => s.ringPort e.2.ring != p)
        ∧ (∀ e ∈ t.host.inject, s.ringPort e.1 = p → e.2.enable = false)
        ∧ t.host.port0 = s.host.port0 ∧ t.host.port1 = s.host.port1 ∧ t.lane = s.lane ∧ t.sch = s.sch)
      ∧ (s.mon.sampling = false → exec (.registerWrite 0 p 0x24 v) s = .next { s with host := { s.host with scratch := v } })
      ∧ (off % 4 ≠ 0 → exec (.registerWrite fn p off v) s = .next (bump .pcieBadAccess 0 s))
      ∧ (fn < 3 → off % 4 = 0 → fn ≠ 2 → s.mon.sampling = false →
        exec (.registerWrite fn p off v) s = .next (storeReg fn p off v.toNat s)))

/-- O15: A punt reaches its ring's next buffer or is dropped; injected entries are taken in ring order (derived; R497,
R498, R500, R32). Choices of the model it rests on: log 9. -/
def Obligations.PuntDeliveryAndInjection : Prop :=
  ∀ (s : State) (k r : Nat) (tail : Reg) (x : Punt) (es : List InjectEntry),
    let b := sliceBlk (k / 2) (2 * (k % 2) + 1)
    (Acts s b → s.undefinedBlk (pcieBlk (s.ringPort 0)) = false → s.host.puntQ.find? (·.1 == k) = none →
      exec (.puntDelivery k) s = .next s)
    ∧ (s.undefinedBlk b = false → s.islandUp b = false → s.host.puntQ.find? (·.1 == k) = some (k, x) →
      exec (.puntDelivery k) s = .next (
        let u := bump .dropBlk (256 * b + 0x28) (puntGone x s)
        { u with host := { u.host with puntQ := u.host.puntQ.filter fun e => !([(k, x)] : List (Nat × Punt)).contains e } }))
    ∧ (Acts s b → Acts s (pcieBlk (s.ringPort x.ring)) → s.host.puntQ.find? (·.1 == k) = some (k, x) →
      let u := puntGone x { s with host := { s.host with puntQ := s.host.puntQ.erase (k, x) } }
      ((Tab.getD s.host.punt x.ring {}).enable = true → (Tab.getD s.host.punt x.ring {}).buffers ≠ 0 →
        (noFcs x.octets).length ≤ 2 ^ (Tab.getD s.host.punt x.ring {}).bufLog2 →
        ∃ t y, exec (.puntDelivery k) s = .next t ∧ Tab.get? t.host.punt x.ring = some y
          ∧ y.done = (Tab.getD s.host.punt x.ring {}).done ++ [⟨noFcs x.octets, x.reason, x.dir, x.sourceKind, x.source, x.ltb,
              if x.dir = 1 then x.gem else 0, x.tc⟩]
          ∧ y.head = ((Tab.getD s.host.punt x.ring {}).head + 1) % 2 ^ (Tab.getD s.host.punt x.ring {}).size
          ∧ y.drops = (Tab.getD s.host.punt x.ring {}).drops ∧ t.host.puntQ = s.host.puntQ.erase (k, x)
          ∧ t = { u with host := t.host })
      ∧ ((Tab.getD s.host.punt x.ring {}).buffers = 0 → exec (.puntDelivery k) s = .next (ringDrop false x.ring u)))
    ∧ (PortUp s (s.ringPort r) → r < 32 →
      let size := 2 ^ (Tab.getD s.host.inject r {}).size
      let stored := onRing true r (fun x => { x with tail := tail.toNat }) s
      ((Tab.getD s.host.inject r {}).enable = true → exec (.injectRingDoorbell r tail es) s = .next
        ((es.take ((tail.toNat % size + size - (Tab.getD s.host.inject r {}).head) % size)).foldl (fun s e => injectOne r e s) stored))
      ∧ ((Tab.getD s.host.inject r {}).enable = false → exec (.injectRingDoorbell r tail es) s = .next stored))
    ∧ (∀ e, s.injectOk e = false → ∃ y, Tab.get? (injectOne r e s).host.inject r = some y
      ∧ y.status = (Tab.getD s.host.inject r {}).status ++ [0x63]
      ∧ y.drops = min ((Tab.getD s.host.inject r {}).drops + 1) (2 ^ 32 - 1)
      ∧ injectOne r e s = { s with host := (injectOne r e s).host })

/-- O16: Fault windows: recording, first fault, W1C status, first and mask writes, injection (derived; R537, R538,
R476, R481, R545, R546, R547, R540). Choices of the model it rests on: log 7. -/
def Obligations.FaultWindowsRecordAndClear : Prop :=
  ∀ (s : State) (b k d : Nat) (v : Reg) (fs : List FaultIn),
    (b ≤ 188 → s.islandUp b = true →
      exec (.faultDetect b fs) s = .next (detectFaults b fs s)
      ∧ exec (.faultStatusClear b v []) s = .next (onWindow b (fun w => { w with
          status := w.status &&& ((2 ^ 32 - 1) ^^^ (v.toNat &&& ((2 ^ 32 - 1) ^^^ classFMask))) }) s)
      ∧ (bit v.toNat 31 = true → ((s.window b).firstValid && (s.window b).cls == 3) = false →
        exec (.faultFirstClear b v []) s = .next (onWindow b (fun w => { w with
          firstValid := false, firstTie := false, injAlso := false, injected := false, cls := 0, kindNo := 0
          detail := 0, time := 0 }) s))
      ∧ ((s.window b).firstValid = true → (s.window b).cls = 3 →
        exec (.faultFirstClear b v []) s = .next (if bit v.toNat 31 then onWindow b id s else s))
      ∧ exec (.faultMaskWrite b v []) s = .next (onWindow b (fun w => { w with
          mask := v.toNat &&& ((2 ^ 32 - 1) ^^^ classFMask) }) s)
      ∧ (k < 32 → v.toNat = 2 ^ k → faultClass b k = some .c ∨ faultClass b k = some .u →
        exec (.faultInjectWrite b v []) s = .next (recordFaults b [⟨k, 0, true, false⟩] s))
      ∧ (k < 32 → v.toNat = 2 ^ k → faultClass b k = none → exec (.faultInjectWrite b v []) s = .next s))
    ∧ (s.islandUp b = false → exec (.faultDetect b fs) s = .next s ∧ exec (.faultStatusClear b v fs) s = .next s
      ∧ exec (.faultFirstClear b v fs) s = .next s ∧ exec (.faultMaskWrite b v fs) s = .next s
      ∧ exec (.faultInjectWrite b v fs) s = .next s)
    ∧ (∀ w : FaultWin, ∀ c, faultClass b k = some c → w.firstValid = false → ∀ time,
      (w.record b time [⟨k, d, false, false⟩]).status = w.status ||| 2 ^ k
      ∧ (w.record b time [⟨k, d, false, false⟩]).firstValid = true
      ∧ (w.record b time [⟨k, d, false, false⟩]).kindNo = k
      ∧ (w.record b time [⟨k, d, false, false⟩]).cls = c.num
      ∧ (w.record b time [⟨k, d, false, false⟩]).detail = d % 2 ^ 21
      ∧ (w.record b time [⟨k, d, false, false⟩]).time = time
      ∧ (w.record b time [⟨k, d, false, false⟩]).mask = w.mask
      ∧ (w.record b time [⟨k, d, false, false⟩]).realF = if c = .f then w.realF ||| 2 ^ k else w.realF)

/-- O17: A ledger window that ended 20 us ago closes every balance; LedgerAudit and FaultSummary read without changing
state (derived; R33, R34, R490, R539, R563). Choices of the model it rests on: log 66, log 84. -/
def Obligations.LedgerAndFaultSummaryReads : Prop :=
  ∀ (s : State) (q : Req) (quantity first count : Nat),
    (Acts s 180 →
      (s.windowsEnded ≠ s.led.window → ∃ t, exec .ledgerWindowClose s = .next t ∧ t.led.window = s.windowsEnded
        ∧ t.pool = s.pool ∧ t.sch = s.sch ∧ t.onu = s.onu
        ∧ (s.led.bal = [] → s.led.grants = [] → t = { s with led := { s.led with window := s.windowsEnded } }))
      ∧ (s.windowsEnded = s.led.window → exec .ledgerWindowClose s = .next s))
    ∧ (0 < count → quantity ≤ 4 ∨ quantity = 0xFF →
      let qs := if quantity = 0xFF then List.range 5 else [quantity]
      let all := qs.flatMap fun x => ((s.ledScopes x).filter fun i => decide (first ≤ i)).map fun i => (x, i)
      let code : Code := if all.length ≤ count then .ended else .ok
      let records := (all.take count).map fun e => s.ledRecord e.1 e.2
      Replies (.ledgerAudit q quantity first count) q 0x0009 { code := code, res := [.lst 32 records] } id s)
    ∧ (count = 0 ∨ (4 < quantity ∧ quantity ≠ 0xFF) → Replies (.ledgerAudit q quantity first count) q 0x0009 (.err .badArg) id s)
    ∧ (first + count ≤ 189 → Replies (.faultSummary q first count) q 0xE000 (.vals [.lst 20 ((List.range count).map fun i =>
        s.faultRow (first + i))]) id s)
    ∧ (189 < first + count → Replies (.faultSummary q first count) q 0xE000 (.err .limit) id s)

/-- O18: SampleConfig, Start, Stop, Read and the bandwidth windows (derived; R549, R551, R552, R563). Choices of the
model it rests on: log 65, log 67. -/
def Obligations.SamplingAndBandwidthWindows : Prop :=
  ∀ (s : State) (q : Req) (fs : List SampleFilter) (rate mode first count i ns idx dir : Nat),
    (s.mon.sampling = false → fs.length ≤ 4 → fs.all filterOk = true → rate ≤ 16 → mode ≤ 1 →
      Replies (.sampleConfig q fs rate mode) q 0xE001 .ok (fun u => { u with mon := { u.mon with
        filters := fs.zipIdx.map fun e => (e.2, { e.1 with classMask := e.1.classMask % 128 }), rateLog2 := rate, mode := mode } }) s)
    ∧ (s.mon.sampling = false → Replies (.sampleStart q) q 0xE002 .ok (fun u => { u with mon := { u.mon with
        sampling := true, recs := [], sampleSeq := 0 } }) s)
    ∧ (s.mon.sampling = true → Replies (.sampleConfig q fs rate mode) q 0xE001 (.err .busy) id s
      ∧ Replies (.sampleStart q) q 0xE002 (.err .badState) id s
      ∧ Replies (.sampleStop q) q 0xE003 .ok (fun u => { u with mon := { u.mon with sampling := false } }) s)
    ∧ (count ≤ 256 → s.mon.recs.findIdx? (·.seq == first) = some i →
      Replies (.sampleRead q first count) q 0xE004
        (.vals [.lst 64 (((s.mon.recs.drop i).take count).map SampleRec.word)]) id s)
    ∧ (10000 ≤ ns → ns ≤ 1000000000 → Replies (.bwWindowSet q ns) q 0xE005 .ok
        (fun u => { u with mon := { u.mon with bwNext := some ns } }) s)
    ∧ (idx < 512 → dir ≤ 1 → Replies (.bwWindowRead q false idx dir) q 0xE006 (.vals (s.mon.bwOf (512 + 2 * idx + dir)).vals)
        (fun u => { u with mon := { u.mon with
          bw := Tab.set u.mon.bw (512 + 2 * idx + dir) (u.mon.bwOf (512 + 2 * idx + dir)).restart } }) s)
    ∧ (s.portExists idx = true → dir ≤ 1 → Replies (.bwWindowRead q true idx dir) q 0xE006 (.vals (s.mon.bwOf (2 * idx + dir)).vals)
        (fun u => { u with mon := { u.mon with
          bw := Tab.set u.mon.bw (2 * idx + dir) (u.mon.bwOf (2 * idx + dir)).restart } }) s)
    ∧ (Acts s 104 → ∃ t, exec .bwWindowEnd s = .next t ∧ t = { s with mon := t.mon }
        ∧ t.mon.bwNs = s.mon.bwNext.getD s.mon.bwNs ∧ t.mon.bwNext = none ∧ t.mon.bwStart = s.clk.ltb
        ∧ (s.mon.bwNext = none → s.mon.bwSag = false → s.sagStage = 0 →
          t.mon.bw = s.mon.bw.map fun e => (e.1, e.2.close s.mon.bwStart s.mon.bwFirst)))

/-- O19: HistogramConfig takes the lowest free unit; read, clear and release of a bound unit (derived; R553, R554,
R563). Choices of the model it rests on: log 67, log 73. -/
def Obligations.HistogramUnitsBindReadClearRelease : Prop :=
  ∀ (s : State) (q : Req) (source shift unit : Nat) (x : HistUnit),
    (shift ≤ 31 → lowestFree (Tab.keys s.mon.hist) 0 256 = some unit →
      Replies (.histogramConfig q source shift) q 0xE007 (.vals [.u 64 unit]) (fun u => { u with mon := { u.mon with
        hist := Tab.set u.mon.hist unit { src := histSrcOf source, shift := shift } } }) s)
    ∧ (shift ≤ 31 → lowestFree (Tab.keys s.mon.hist) 0 256 = none →
      Replies (.histogramConfig q source shift) q 0xE007 (.err .limit) id s)
    ∧ (Tab.get? s.mon.hist unit = some x →
      Replies (.histogramRead q unit) q 0xE008 (.vals ([.u 64 x.src.num, .u 64 x.shift]
        ++ ((List.range 64).map fun i => .u 64 (Tab.getD x.bins i 0))
        ++ [.u 64 x.count, .u 64 x.sum, .u 64 x.min, .u 96 x.minLtb, .u 64 x.minId, .u 64 x.max, .u 96 x.maxLtb
          , .u 64 x.maxId])) id s
      ∧ Replies (.histogramClear q unit) q 0xE009 .ok (fun u => { u with mon := { u.mon with
          hist := Tab.set u.mon.hist unit { src := x.src, shift := x.shift } } }) s
      ∧ Replies (.histogramRelease q unit) q 0xE00A .ok (fun u => { u with mon := { u.mon with
          hist := Tab.erase u.mon.hist unit } }) s)
    ∧ (Tab.get? s.mon.hist unit = none → Replies (.histogramRead q unit) q 0xE008 (.err .badState) id s
      ∧ Replies (.histogramClear q unit) q 0xE009 (.err .badState) id s
      ∧ Replies (.histogramRelease q unit) q 0xE00A (.err .badState) id s)

/-- O20: Annealer runs: start, measurement, settling, completion; status, plan and monitor reads (derived; R556, R558,
R559, R560, R561, R563). Choices of the model it rests on: log 69. -/
def Obligations.AnnealerRunsAndReads : Prop :=
  ∀ (s : State) (q c : Req) (m : AnnealMeas) (g hub idx : Nat) (p : MarginPlan),
    (s.ann.step = 0 → s.sagStage = 0 → Waits (.annealRun q) q 0xE00B (fun u => { u with ann := { u.ann with
        step := 1, cmd := some q, newPlan := none } }) s)
    ∧ (s.ann.step ≠ 0 → Replies (.annealRun q) q 0xE00B (.err .busy) id s)
    ∧ (s.ann.step = 0 → s.sagStage ≠ 0 → Replies (.annealRun q) q 0xE00B (.err .badState) id s)
    ∧ (Acts s 104 → s.ann.step = 0 → s.host.bexedReady = true → s.ann.nextRun ≤ s.ltbSec →
      exec .annealRunStart s = .next { s with ann := if s.sagStage = 0
        then { s.ann with step := 1, cmd := none, newPlan := none } else { s.ann with nextRun := s.ltbSec + 3600 } })
    ∧ (Acts s 104 → s.ann.step = 1 → s.opt.writer = none → ∃ t, exec (.annealMeasureDone m) s = .next t
        ∧ t.ann.step = 5 ∧ t.ann.newPlan = some (s.newPlan m) ∧ t.opt.writer.isSome = true ∧ t.ann.plan = s.ann.plan)
    ∧ (Acts s 174 → exec (.annealTargetSettle g) s = .next { s with ann := { s.ann with
        settling := Tab.erase s.ann.settling g } })
    ∧ (Acts s 104 → s.ann.step = 6 → s.ann.newPlan = some p → s.ann.cmd = some c →
      exec .annealPlanWritten s = .next (complete c 0xE00B .ok (event 0xE000 [.i 16 (planGroup p (lowestGroup p)).margin
        , .u 8 (lowestGroup p), .u 16 p.version, .u 16 p.runCount] { s with ann := { s.ann with
          step := 0, cmd := none, newPlan := none, last := 1, plan := saturate p
          vTarget := (List.range 48).map fun g => (g, (planGroup p g).vTarget)
          nextRun := s.ltbSec + 86400 * s.paramN 0xD800 0 } })))
    ∧ Replies (.annealStatus q) q 0xE00C (.vals [.u 64 (flag (s.ann.step != 0)), .u 64 s.ann.step, .u 64 s.ann.last
        , .u 48 s.ann.nextRun, .i 8 (clampI (-128) 127 (planGroup s.ann.plan (lowestGroup s.ann.plan)).margin)]) id s
    ∧ Replies (.annealPlanRead q) q 0xE00D (.vals [.lst 1 (planOctets s.ann.plan)]) id s
    ∧ (idx < 768 → Replies (.monitorRead q true hub idx) q 0xE00E (.vals [.u 64 (Tab.getD s.ann.eye idx 0)]) id s)
    ∧ (hub < 8 → idx < 148 → Replies (.monitorRead q false hub idx) q 0xE00E
        (.vals [.i 64 (Tab.getD s.ann.slack (hub * 148 + idx) 0)]) id s)

/-- O21: ParamGet, ParamSet, ParamDescribe and ParamNext follow the descriptor table (derived; R490, R491, R492, R493,
R11, R171, R389, R74). Choices of the model it rests on: log 5, log 23, log 24. -/
def Obligations.ParametersGetSetDescribe : Prop :=
  ∀ (s : State) (q : Req) (pid first count i : Nat) (v : Int) (vs : List Int) (d n : PidDesc),
    (pidDesc? pid = none → Replies (.paramGet q pid first count) q 0x0005 (.err .notFound) id s
      ∧ Replies (.paramSet q pid first count vs) q 0x0006 (.err .notFound) id s
      ∧ Replies (.paramDescribe q pid) q 0x0007 (.err .notFound) id s)
    ∧ (pidDesc? pid = some d →
      (0 < count → count ≤ 256 → first + count ≤ d.indexCount → Replies (.paramGet q pid first count) q 0x0005
        (.vals [.lst d.octets ((List.range count).map fun k => signed (8 * d.octets) (s.paramValue pid (first + k)))]) (fun u =>
          if pid = 0x4A20 then { u with map := { u.map with
            cyclesMax := (List.range count).foldl (fun t k => Tab.erase t (first + k)) u.map.cyclesMax } } else u) s)
      ∧ (0 < count → count ≤ 256 → vs.length = count → d.access ≠ 1 →
        Replies (.paramSet q pid first count vs) q 0x0006 (.err .denied) id s)
      ∧ (d.access = 1 → d.pid = pid → i < d.indexCount → d.min ≤ v → v ≤ d.max → s.setRefused pid i v = none →
        Replies (.paramSet q pid i 1 [v]) q 0x0006 .ok (applyParam pid i v) s)
      ∧ (d.access = 1 → i < d.indexCount → v < d.min ∨ d.max < v → Replies (.paramSet q pid i 1 [v]) q 0x0006
        { code := .limit, detail := i % 2 ^ 24 } id s)
      ∧ Replies (.paramDescribe q pid) q 0x0007 (.vals [.lst 1 d.bytes]) id s)
    ∧ (let kept := { s with par := Tab.upd s.par pid [] fun t => Tab.set t i v }
      (pid ≠ 0xD013 → pid ≠ 0xA020 → pid ≠ 0x1500 ∨ v = 4 → applyParam pid i v s = kept)
      ∧ (pid = 0xA020 → applyParam pid i v s = logEncrypt i (s.param 0xA020 i == 1) kept)
      ∧ (pid = 0x1500 → v ≠ 4 → applyParam pid i v s = { kept with
        lane := { kept.lane with ixr := Tab.erase s.lane.ixr i }, prot := { kept.prot with links := Tab.erase s.prot.links i } }))
    ∧ (pidTable.find? (fun d => decide (pid < d.pid)) = some n →
      Replies (.paramNext q pid) q 0x0008 (.vals [.u 16 n.pid]) id s)
    ∧ (pidTable.find? (fun d => decide (pid < d.pid)) = none → Replies (.paramNext q pid) q 0x0008 (.err .ended) id s)

/-- O22: Nop, DeviceInfo, Bexed image load, restart, takeover, restart timeout and status (derived; R380, R477, R490,
R502, R503, R504, R484, R487, R376, R379). Choices of the model it rests on: log 22, log 134. -/
def Obligations.DeviceAndBexedCommands : Prop :=
  ∀ (s : State) (q : Req) (img : Image) (r : BexRestart),
    Replies (.nop q) q 0x0000 .ok id s
    ∧ Replies (.deviceInfo q) q 0x0001 (.vals [.u 32 0x66401FB4, .u 8 0xB1, .u 128 Config.devSerial.toNat
        , .u 32 s.host.image.version, .u 32 (s.core 0).active.version, .u 2 s.opt.copy, .u 1 s.opt.cur.pcieMode
        , .u 3 s.opt.unitId]) id s
    ∧ Replies (.bexedStatus q) q 0x000C (.vals [.u 32 s.bexedWord, .u 32 s.host.image.version
        , .u 32 ((s.host.standby.map (·.version)).getD 0), .u 32 s.host.image.stateVersion
        , .u 32 ((s.host.standby.map (·.stateVersion)).getD 0)]) id s
    ∧ (s.host.restart = none → imageRefused img 1 = false → img.length + 80 ≤ 4194304 →
      Waits (.bexedImageLoad q img) q 0x000A (keQueue (.image q .bexed img)) s)
    ∧ (s.host.restart = none → imageRefused img 1 = true ∨ 4194304 < img.length + 80 →
      Replies (.bexedImageLoad q img) q 0x000A (.err .badArg) id s)
    ∧ (s.host.restart.isSome = true → Replies (.bexedImageLoad q img) q 0x000A (.err .busy) id s)
    ∧ (s.host.standby = some img → img.stateVersion = s.host.image.stateVersion → s.host.restart = none →
      s.host.port0.inProg = [] → s.host.port1.inProg = [] →
      Waits (.bexedRestart q) q 0x000B (fun u => { u with host := { u.host with
        restart := some { cmd := q, start := s.clk.now, image := img } } }) s)
    ∧ (s.host.standby = none → Replies (.bexedRestart q) q 0x000B (.err .badState) id s)
    ∧ (Acts s 105 → s.host.restart = none → exec .bexedTakeover s = .next s ∧ exec .bexedRestartTimeout s = .next s)
    ∧ (Acts s 105 → s.host.restart = some r → s.clk.now ≤ r.start + msT 500 →
      exec .bexedTakeover s = .next (event 0x0000 [.u 32 s.host.image.version, .u 32 r.image.version]
        (complete r.cmd 0x000B (.vals [.u 32 s.host.image.version, .u 32 r.image.version
          , .u 64 (ticksNs (s.clk.now - r.start) / 1000)])
          (resume { s with host := { s.host with
            image := r.image, standby := none, restarts := (s.host.restarts + 1) % 65536 } }))))
    ∧ (Acts s 105 → s.host.restart = some r → r.start + msT 500 ≤ s.clk.now →
      exec .bexedRestartTimeout s = .next (complete r.cmd 0x000B { code := .failed, detail := 2 * 2 ^ 24 } (resume s)))
    ∧ (s.host.restartQueue = [] → resume s = { s with host := { s.host with restart := none } })

/-- O23: Voltage-stage rises and falls, the power estimate, PowerCapSet, PowerStatus, SagStatus (derived; R528, R529,
R531, R533, R534, R561). Choices of the model it rests on: log 20. -/
def Obligations.SagStagesCapsAndPowerReads : Prop :=
  ∀ (s : State) (q : Req) (m : Int) (g w cap st : Nat),
    (Acts s 174 →
      exec (.sagStageRise m g) s = .next (stageChanged s.sagStage 0 { s with pwr := { s.pwr with
        voltStage := max s.pwr.voltStage (stageOf m), minMargin := m, minGroup := g } })
      ∧ (s.pwr.voltStage ≠ 0 → sagThreshold s.pwr.voltStage + 10 ≤ m →
        exec (.sagStageFall m g) s = .next (stageChanged s.sagStage 0 { s with pwr := { s.pwr with
          voltStage := s.pwr.voltStage - 1, minMargin := m, minGroup := g } }))
      ∧ (s.pwr.voltStage = 0 ∨ m < sagThreshold s.pwr.voltStage + 10 →
        exec (.sagStageFall m g) s = .next { s with pwr := { s.pwr with minMargin := m, minGroup := g } })
      ∧ (s.pwr.capW = 0 → s.pwr.underSince = none → exec (.powerEstimate w) s = .next { s with pwr := { s.pwr with
          estimate := w, overSince := none, underSince := some s.clk.now } })
      ∧ (s.pwr.capW = 0 → s.pwr.capStage = 0 → s.pwr.underSince = some g → g + msT 100 ≤ s.clk.now →
        exec (.powerEstimate w) s = .next { s with pwr := { s.pwr with
          estimate := w, overSince := none, guard := min (s.pwr.guard + 1) (s.paramN 0xD013 0) } })
      ∧ (s.pwr.capW ≠ 0 → s.pwr.capW < w → s.guardNow ≠ 0 → ∃ t, exec (.powerEstimate w) s = .next t
          ∧ t = { s with pwr := t.pwr } ∧ t.pwr.guard = s.guardNow - 1 ∧ t.pwr.estimate = w
          ∧ t.pwr.capStage = s.pwr.capStage ∧ t.pwr.voltStage = s.pwr.voltStage ∧ t.pwr.capW = s.pwr.capW))
    ∧ (∀ old cause u, State.sagStage u = old → stageChanged old cause u = u)
    ∧ (cap = 0 ∨ (300 ≤ cap ∧ cap ≤ 585) → 1 ≤ st → st ≤ 4 → Replies (.powerCapSet q cap st) q 0xD002 .ok
        (fun u => { u with pwr := { u.pwr with capW := cap, capStageMax := st } }) s)
    ∧ ((cap ≠ 0 ∧ cap < 300) ∨ 585 < cap ∨ st = 0 ∨ 4 < st → Replies (.powerCapSet q cap st) q 0xD002 (.err .limit) id s)
    ∧ Replies (.powerStatus q) q 0xD000 (.vals [.u 32 s.pwr.domains, .u 16 s.pwr.estimate, .u 16 s.setpoint
        , .u 8 s.guardNow, .u 64 (flag (s.pwr.capStage != 0))]) id s
    ∧ Replies (.sagStatus q) q 0xD003 (.vals [.u 8 s.sagStage, .u 8 s.pwr.voltStage, .u 8 s.pwr.capStage
        , .i 16 s.pwr.minMargin, .u 64 s.pwr.minGroup, .lst 8 ([1, 2, 3, 4, 5].map (s.count .sagEntries))]) id s

/-- O24: Option image reads and writes, the end of a store write, boot image writes and status (derived; R517, R519,
R520, R522, R523, R524, R533, R561, R380, R376, R379). Choices of the model it rests on: log 21, log 81, log 82. -/
def Obligations.OptionStoreAndBootSlots : Prop :=
  ∀ (s : State) (q c : Req) (b marver : Bool) (img : OptImage) (bi : Image) (n slot : Nat),
    Replies (.optionImageRead q b) q 0xD004 (.vals [.lst 1 (optOctets (s.opt.copyOf b))
        , .u 64 (flag (optFail true (s.opt.copyOf b) == 0))]) id s
    ∧ (optFail false img = 0 → s.opt.writer = none → Waits (.optionImageWrite q img) q 0xD005 (fun u => { u with
        opt := { u.opt with writer := some (.host q { img with seq := s.nextOptSeq, tagOk := true }) } }) s)
    ∧ (optFail false img = n + 1 → Replies (.optionImageWrite q img) q 0xD005
        { code := .badArg, detail := (n + 1) % 256 * 2 ^ 24 } id s)
    ∧ (optFail false img = 0 → s.opt.writer.isSome = true → Replies (.optionImageWrite q img) q 0xD005 (.err .busy) id s)
    ∧ (Acts s 179 → s.opt.writer = none → exec (.optionStoreWriteDone b marver) s = .next s)
    ∧ (Acts s 179 → s.opt.writer = some (.host c img) → exec (.optionStoreWriteDone true true) s = .next
        (annWaiting (complete c 0xD005 (.vals [.u 32 img.seq]) { s with opt := { s.opt with
          writer := none, copyA := img, copyB := img } })))
    ∧ (Acts s 179 → s.opt.writer = some (.host c img) → s.opt.copy = 0 → exec (.optionStoreWriteDone false b) s = .next
        (annWaiting (complete c 0xD005 { code := .failed, detail := 3 * 2 ^ 24 } { s with opt := { s.opt with
          writer := none, copyB := { img with crcOk := false } } })))
    ∧ (s.ann.newPlan = none → annWaiting s = s)
    ∧ Replies (.optionStatus q) q 0xD006 (.vals [.u 8 s.opt.copy, .u 32 s.opt.cur.seq, .u 64 (s.count .optLoadFail 0)
        , .u 64 (s.count .optLoadFail 1)]) id s
    ∧ (slot < 2 → imageRefused bi (if marver then 2 else 1) = false →
      (bi.length + 80 ≤ bootLimit marver → s.opt.booted ≠ slot →
        Waits (.bootImageWrite q slot marver bi) q 0xD007 (keQueue (.image q (.boot slot marver) bi)) s)
      ∧ (bi.length + 80 ≤ bootLimit marver → s.opt.booted = slot →
        Replies (.bootImageWrite q slot marver bi) q 0xD007 (.err .busy) id s)
      ∧ (bootLimit marver < bi.length + 80 → Replies (.bootImageWrite q slot marver bi) q 0xD007 (.err .limit) id s))
    ∧ (2 ≤ slot ∨ imageRefused bi (if marver then 2 else 1) = true →
      Replies (.bootImageWrite q slot marver bi) q 0xD007 (.err .badArg) id s)
    ∧ Replies (.bootImageStatus q) q 0xD008 (.vals (bootVals s.opt 0 false ++ bootVals s.opt 1 false
        ++ bootVals s.opt 0 true ++ bootVals s.opt 1 true)) id s

/-- O25: ChannelEnable climbs the ladder; rung success, timeout, lane transitions, disable, phase memory (derived;
R42, R43, R47, R48, R489, R580, R581, R40, R225). Choices of the model it rests on: log 25, log 93, log 103. -/
def Obligations.ChannelLadderAndLanePower : Prop :=
  ∀ (s : State) (q : Req) (g h c : Nat) (l : Ladder) (rx : Bool),
    (g < 512 → s.ltbSet = true → s.isSpare g = false → (s.laneCh g).ladder = none →
      ((s.laneCh g).enabled = true → Replies (.channelEnable q g) q 0x1000 .ok id s)
      ∧ ((s.laneCh g).enabled = false → (s.laneCh g).tx = .off →
        Waits (.channelEnable q g) q 0x1000 (fun u => onLaneCh g (fun c => { c with
          txGoal := .standby
          rxGoal := if c.rx = .off then .standby else c.rxGoal }) (onLaneCh g (fun c => { c with
          ladder := some { rung := 0, cmd := q, deadline := u.clk.now + msT 1, clean := u.clk.now } }) u)) s))
    ∧ (Acts s (ponBlk g) →
      ((s.laneCh g).ladder = none → exec (.ladderRungSuccess g) s = .next s ∧ exec (.ladderRungTimeout g) s = .next s)
      ∧ ((s.laneCh g).ladder = some l → s.rungMet g l = true → l.rung < 3 →
        exec (.ladderRungSuccess g) s = .next (rungEnter g (l.rung + 1) l.cmd s))
      ∧ ((s.laneCh g).ladder = some l → s.rungMet g l = true → 3 ≤ l.rung →
        exec (.ladderRungSuccess g) s = .next (complete l.cmd 0x1000 .ok
          (onLaneCh g (fun c => { c with ladder := none, enabled := true }) s)))
      ∧ ((s.laneCh g).ladder = some l → l.deadline ≤ s.clk.now → l.rung < 4 →
        exec (.ladderRungTimeout g) s = .next (bump .laneFail g (complete l.cmd 0x1000
          { code := .failed, detail := l.rung * 2 ^ 24 }
          (onLaneCh g (fun c => { c with ladder := none, txGoal := .standby, rxGoal := s.restGoal g .standby }) s))))
      ∧ exec (.laneTransitionDone g true) s = .next (onLaneCh g (fun c => { c with
          rx := laneStep c.rx c.rxGoal, rxPll := laneStep c.rx c.rxGoal != .off }) s)
      ∧ exec (.laneTransitionDone g false) s = .next (onLaneCh g (fun c => { c with
          tx := laneStep c.tx c.txGoal, txPll := laneStep c.tx c.txGoal != .off }) s)
      ∧ exec (.phaseMemoryLoad g h) s = .next (
          let l := match s.nextLoad g h with
            | some x => s.loadFor g h x.arrival x.rate
            | none => s.loadFor g h 0 (s.onuRate h)
          let old := (Tab.getD s.lane.loaded g []).filter fun l => (s.mapCh g).expect.any fun x => x.arrival == l.arrival
          { s with lane := { s.lane with loaded := Tab.set s.lane.loaded g (old ++ [l]) } }))
    ∧ (∀ at_ rate, (s.loadFor g h at_ rate).ent = s.phaseEnt h (g % 8) ∧ (s.loadFor g h at_ rate).ctle = s.ctleAt g rate
      ∧ (s.loadFor g h at_ rate).phase = (s.phaseEnt h (g % 8)).tickOffset * 64 + (s.phaseEnt h (g % 8)).finePhase
          + Config.rateSkew g rate)
    ∧ (g < 512 → s.anyPastDiscovery g = false → (s.laneCh g).ladder = none →
      Replies (.channelDisable q g) q 0x1001 .ok (onLaneCh g (fun c => { c with
        enabled := false, txGoal := .off, rxGoal := s.restGoal g .off })) s)
    ∧ s.restGoal g .off = (if s.standbyTree (g / 8) then .active else .off)
    ∧ (g < 512 → s.anyPastDiscovery g = true → Replies (.channelDisable q g) q 0x1001 (.err .busy) id s)
    ∧ (c < 8 → s.onuState h ≠ .free → Replies (.phaseMemoryRead q h c) q 0x1002 (.vals [.rcd 64 (s.phaseEnt h c).word]) id s)

/-- O26: I3C transfers, polls and in-band interrupts; module presence, signal, fault and RSSI events (derived; R57,
R61, R63, R64, R66, R43). Choices of the model it rests on: log 27, log 86. -/
def Obligations.ModuleBusAndModuleEvents : Prop :=
  ∀ (s : State) (q : Req) (g addr len bus t ch code onu pay : Nat) (data : List Nat) (x : I3cXfer) (v a : Bool),
    (g < 512 → addr < 256 → 0 < len → len ≤ 64 → addr + len ≤ 256 →
      ((s.laneCh g).addressed = true → Waits (.moduleRead q g addr len) q 0x1003 (onBus (g / 32) (fun b => I3cBus.next { b with
          host := b.host ++ [{ g := g, cmd := some (q, false), addr := addr, len := len, data := [] }] })) s)
      ∧ ((s.laneCh g).addressed = false → Replies (.moduleRead q g addr len) q 0x1003 (.err .noTarget) id s))
    ∧ (g < 512 → addr < 256 → data ≠ [] → data.length ≤ 64 → addr + data.length ≤ 256 → (s.laneCh g).addressed = true →
      Waits (.moduleWrite q g addr data) q 0x1004 (onBus (g / 32) (fun b => I3cBus.next { b with
          host := b.host ++ [{ g := g, cmd := some (q, true), addr := addr, len := data.length, data := data }] })) s)
    ∧ (Acts s (sbBlk (g / 8)) → (s.laneCh g).addressed = true →
      ((s.laneCh g).pollAt ≤ s.clk.now → exec (.i3cPoll g) s = .next (onBus (g / 32) (fun b => I3cBus.next { b with
          polls := b.polls ++ [{ g := g, cmd := none, addr := 0, len := 0, data := [] }] })
            (onLaneCh g (fun c => { c with pollAt := s.clk.now + msT (s.paramN 0x1401 0) }) s)))
      ∧ (s.clk.now < (s.laneCh g).pollAt → exec (.i3cPoll g) s = .next s)
      ∧ exec (.i3cInBandInterrupt g pay) s = .next (onLaneCh g (fun c => { c with ibi := pay % 2 ^ 32 }) s))
    ∧ (Acts s (sbBlk (4 * bus)) →
      ((Tab.getD s.lane.bus bus {}).cur = some x → x.cmd = some (q, false) → exec (.i3cTransferDone bus true data) s = .next
        (complete q 0x1003 (.vals [dataList x.len data]) (onBus bus (fun b => I3cBus.next { b with cur := none }) s)))
      ∧ ((Tab.getD s.lane.bus bus {}).cur = some x → x.cmd = some (q, true) → exec (.i3cTransferDone bus true data) s = .next
        (complete q 0x1004 .ok (onBus bus (fun b => I3cBus.next { b with cur := none }) s)))
      ∧ ((Tab.getD s.lane.bus bus {}).cur = some x → x.cmd = none → exec (.i3cTransferDone bus true data) s = .next
        (onBus bus (fun b => I3cBus.next { b with cur := none }) (onLaneCh x.g (fun c => if x.pid then { c with pidOk := true } else { c with polled := data }) s)))
      ∧ ((Tab.getD s.lane.bus bus {}).cur = some x → x.retries < 3 → exec (.i3cTransferDone bus false data) s = .next
        (onBus bus (fun b => { b with cur := some { x with retries := x.retries + 1 } }) s))
      ∧ ((Tab.getD s.lane.bus bus {}).cur = some x → 3 ≤ x.retries → x.cmd = some (q, false) →
        exec (.i3cTransferDone bus false data) s = .next (complete q 0x1003 (.err .noTarget)
          (bump .moduleUnreachable x.g (onBus bus (fun b => I3cBus.next { b with cur := none }) s)))))
    ∧ (Acts s (sbBlk t) →
      ((Tab.getD s.lane.link t {}).state = .locked →
        (let m := 8 * t + ch % 8
          let w := onLaneCh m (fun c => { c with
            present := v, addressed := v && (a || c.addressed)
            dynAddr := if v && (a || c.addressed) then some (0x10 + 8 * (m / 8 % 4) + m % 8) else none }) s
          ((v && a && !(s.laneCh m).addressed) = false ∨ ((w.laneCh m).ladder.map (·.rung)) ≠ some 1 →
            exec (.modPresent t ch v a) s = .next w)
          ∧ (v = true → a = true → (s.laneCh m).addressed = false → ((w.laneCh m).ladder.map (·.rung)) = some 1 →
            exec (.modPresent t ch v a) s = .next (onBus (m / 32) (fun b => I3cBus.next { b with
              polls := b.polls ++ [{ g := m, cmd := none, addr := 0, len := 0, data := [], pid := true }] }) w)))
        ∧ exec (.sigDetect t ch v) s = .next (onLaneCh (8 * t + ch % 8) (fun c => { c with sigDetect := v }) s)
        ∧ exec (.txFault t ch v) s = .next (onLaneCh (8 * t + ch % 8) (fun c => { c with
          txFault := v, ladder := c.ladder.map fun l => { l with clean := s.clk.now } }) s)
        ∧ exec (.rssiResult t ch code onu) s = .next (setRssi onu ch (code % 8192) s))
      ∧ ((Tab.getD s.lane.link t {}).state ≠ .locked → exec (.modPresent t ch v a) s = .next s
        ∧ exec (.sigDetect t ch v) s = .next s ∧ exec (.txFault t ch v) s = .next s
        ∧ exec (.rssiResult t ch code onu) s = .next s))

/-- O27: Sideband lock, CRC, ECHO and calibration; PCS block lock and port admin state (derived; R57, R58, R60, R61,
R67, R68, R69, R70, R71, R55, R74). Choices of the model it rests on: log 26, log 87, log 88. -/
def Obligations.SidebandLinksAndUplinkPorts : Prop :=
  ∀ (s : State) (t tag ta rt port lane type : Nat) (ev : SbEvent) (hs : List Bool),
    (Acts s (sbBlk t) →
      (∀ f : SbFrame, (Tab.getD s.lane.link t {}).state ≠ .locked →
        let k := (Tab.getD s.lane.link t {}).sync (sbSyncOk f) (sbFrameNo f)
        let w := onLink t (fun _ => { k with rx := [] }) s
        exec (.sidebandFrameReceive t f) s = .next (if k.state = .locked ∧ w.treeInP1 t = true then calibrateP1 t w else w))
      ∧ (∀ f : SbFrame, (Tab.getD s.lane.link t {}).state = .locked → sbSyncOk f = true →
        (sbCrcOk f = true → exec (.sidebandFrameReceive t f) s = .next (onLink t (fun k => { k with
          misses := 0, nextFrame := (sbFrameNo f + 1) % 1215, peerState := sbLinkState f, rx := sbEvents f }) s))
        ∧ (sbCrcOk f = false → exec (.sidebandFrameReceive t f) s = .next (bump .sblCrc t (onLink t (fun k => { k with
          misses := 0, nextFrame := (sbFrameNo f + 1) % 1215, rx := [] }) s))))
      ∧ (∀ f : SbFrame, (Tab.getD s.lane.link t {}).state = .locked → sbSyncOk f = false → sbCrcOk f = false →
        (3 ≤ (Tab.getD s.lane.link t {}).misses →
          exec (.sidebandFrameReceive t f) s = .next (bump .sblCrc t (bump .sblLockLoss t (onLink t (fun k => { k with
            state := .hunt, misses := 0, rx := [] }) s))))
        ∧ ((Tab.getD s.lane.link t {}).misses < 3 →
          exec (.sidebandFrameReceive t f) s = .next (bump .sblCrc t (onLink t (fun k => { k with
            misses := k.misses + 1, nextFrame := (k.nextFrame + 1) % 1215, rx := [] }) s))))
      ∧ ((Tab.getD s.lane.link t {}).state = .locked →
        (type < 16 → exec (.late t type) s = .next (bump .sblLate t s))
        ∧ (returnType ev.type = false → exec (.sblBadEvent t ev) s = .next (bump .sblBadEvent t s))
        ∧ (returnType ev.type = true → exec (.sblBadEvent t ev) s = .next s)
        ∧ ((Tab.getD s.lane.link t {}).echo = some (tag % 256) → exec (.echo t tag ta rt) s = .next
          (onLink t (fun k => k.calibrate ((rt - ta % 32 * 8 + 1) / 2)) s))
        ∧ ((Tab.getD s.lane.link t {}).echo ≠ some (tag % 256) → exec (.echo t tag ta rt) s = .next (onLink t id s))
        ∧ ((∀ f, (Tab.getD s.lane.link t {}).calAt = some f → f + 1215 ≤ s.sbFrameNow) →
          exec (.sidebandCalibration t) s = .next (onLink t (fun k => { k with
            echo := some (Tab.getD s.lane.link t {}).echoTag
            echoTag := ((Tab.getD s.lane.link t {}).echoTag + 1) % 256, calAt := some s.sbFrameNow })
            (sbSend t 0 0x5 (Tab.getD s.lane.link t {}).echoTag s)))
        ∧ (∀ f, (Tab.getD s.lane.link t {}).calAt = some f → s.sbFrameNow < f + 1215 →
          exec (.sidebandCalibration t) s = .next s)))
    ∧ (Acts s (upBlk (port / 8)) →
      (let k := port * 32 + lane % 32
        let r := pcsHeaders hs (Tab.getD s.lane.pcs k {})
        let w := bumpBy .blockLockLoss port r.2 { s with lane := { s.lane with pcs := Tab.set s.lane.pcs k r.1 } }
        (port % 8 ≠ 0 ∨ (Tab.getD s.lane.ixr (port / 8) {}).up = false ∨ w.ixrLocked (port / 8) = true →
          exec (.uplinkBlockLock port lane hs) s = .next w)
        ∧ (port % 8 = 0 → (Tab.getD s.lane.ixr (port / 8) {}).up = true → w.ixrLocked (port / 8) = false →
          s.paramN 0x1500 (port / 8) = 4 →
          exec (.uplinkBlockLock port lane hs) s = .next { w with
            lane := { w.lane with ixr := Tab.set w.lane.ixr (port / 8) { up := false } }
            prot := { w.prot with links := Tab.erase w.prot.links (port / 8) } }))
      ∧ (s.portExists port = false → exec (.portAdminStateChange port true) s = .next s)
      ∧ (s.portExists port = true → (Tab.getD s.lane.port port {}).up = false →
        exec (.portAdminStateChange port true) s = .next (
          let ffe := (List.range (lanesPerPort (s.paramN 0x1500 (port / 8)))).map fun i => s.param 0x1502 (port + i)
          let p : UpPort := ⟨true, s.paramN 0x1501 (port / 8), ffe⟩
          { s with lane := { s.lane with port := Tab.set s.lane.port port p } }))
      ∧ (s.portExists port = true → exec (.portAdminStateChange port false) s = .next (portDownFlush port
        { s with lane := { s.lane with port := Tab.upd s.lane.port port {} fun p => { p with up := false } } })))

/-- O28: TributaryCreate, Status, Resize, Move and Delete (derived; R83, R105, R106, R107, R130, R489, R126). Choices
of the model it rests on: log 28, log 95, log 100. -/
def Obligations.TributaryCommands : Prop :=
  ∀ (s : State) (q : Req) (i n fill g : Nat) (a : TribArgs) (t : Trib) (x : Alloc) (o : Onu),
    (i < 8192 → a.channel < 512 → a.gem < 2 ^ 18 → Tab.get? s.ds.trib i = none →
      Tab.get? s.map.alloc a.alloc = some x → Tab.get? s.onu.ctx x.onu = some o → o.tree = a.channel / 8 →
      Config.gemOnu a.gem = x.onu →
      s.slotsOk a.channel a.slots a.fill = true → 32 ≤ a.feedPayload → a.feedPayload ≤ 1024 → o.tribOk = true →
      (s.ds.trib.filter fun e => s.tribOnu e.2 == some x.onu).length < o.tribMax →
      Waits (.tributaryCreate q i a) q 0x2000 (fun u => plSend x.onu
        (.tribOffer i x.allocId a.gem (16 * a.slots + 16) true)
        { u with ds := { u.ds with trib := Tab.set u.ds.trib i { a := a, create := some q, huntFrom := s.clk.sfc + 1 } } }) s)
    ∧ (Tab.get? s.ds.trib i = some t → t.create = none →
      Replies (.tributaryStatus q i) q 0x2001 (.vals [.u 16 t.a.channel, .u 16 t.a.slots, .u 32 t.a.fill, .u 32 t.a.gem
        , .u 32 t.a.alloc, .u 16 t.a.feedPayload, .u 64 t.rep, .u 64 (s.count .tribJustPos (2 * i))
        , .u 64 (s.count .tribJustNeg (2 * i)), .u 64 (s.count .tribJustPos (2 * i + 1))
        , .u 64 (s.count .tribJustNeg (2 * i + 1))]) id s
      ∧ ((∀ k, (s.dsCh t.a.channel).commit = some k → k.checked = false) →
        Replies (.tributaryResize q i t.a.slots t.a.fill) q 0x2002 .ok (onTrib i (fun t => { t with pending := none })) s)
      ∧ ((n ≠ t.a.slots ∨ fill ≠ t.a.fill) → t.pending = none → s.slotsOk t.a.channel n fill = true →
        Replies (.tributaryResize q i n fill) q 0x2002 .ok (onTrib i (fun t => { t with pending := some (n, fill) })) s)
      ∧ ((n ≠ t.a.slots ∨ fill ≠ t.a.fill) → t.pending = none → s.slotsOk t.a.channel n fill = false →
        Replies (.tributaryResize q i n fill) q 0x2002 (.err .limit) id s)
      ∧ (g < 512 → g / 8 = t.a.channel / 8 → t.move = none →
        ((s.dsCh t.a.channel).commit.isSome = true → Waits (.tributaryMove q i g) q 0x2003
          (onTrib i (fun t => { t with move := some { cmd := q, dest := g, step := 1 } })) s)
        ∧ ((s.dsCh t.a.channel).commit = none → Waits (.tributaryMove q i g) q 0x2003 (fun u =>
          onTrib i (fun t => { t with move := some { cmd := q, dest := g, step := 2 } })
            (moveCommit t.a.channel i ((pageEntries (s.dsCh t.a.channel).active).filter fun e => e.trib != i)
              (onTrib i (fun t => { t with move := some { cmd := q, dest := g, step := 1 } }) u))) s))
      ∧ ((s.ds.ch.any fun e => (pageTribs e.2.active).contains i
          || (e.2.commit.isSome && (pageTribs e.2.standby).contains i)) = false → Tab.get? s.map.alloc t.a.alloc = some x →
        let gone := fun (u : State) => { u with ds := { u.ds with trib := Tab.erase u.ds.trib i } }
        (((Tab.get? s.onu.ctx x.onu).map (·.ext)).getD true = true → Replies (.tributaryDelete q i) q 0x2004 .ok (fun u => plSend x.onu
          (.tribOffer i x.allocId t.a.gem (16 * t.a.slots + 16) false) (gone u)) s)
        ∧ (((Tab.get? s.onu.ctx x.onu).map (·.ext)).getD true = false → Replies (.tributaryDelete q i) q 0x2004 .ok gone s)))
    ∧ (Tab.get? s.ds.trib i = none → Replies (.tributaryStatus q i) q 0x2001 (.err .notFound) id s
      ∧ Replies (.tributaryDelete q i) q 0x2004 (.err .notFound) id s)

/-- O29: SlotMapLoad, Commit, its check, Withdraw; feed packets; the defect evaluation (derived; R31, R85, R92, R93,
R98, R100, R101, R103, R104). Choices of the model it rests on: log 28, log 117. -/
def Obligations.SlotMapsFeedsAndTributaryDefects : Prop :=
  ∀ (s : State) (q : Req) (g i seq r : Nat) (es : List SlotEntry) (k : SlotCommit) (t : Trib) (os : List Nat) (d : Nat),
    (g < 512 → (s.dsCh g).commit = none →
      (es.length ≤ (slotCaps (s.paramN 0x1020 g)).1 → Replies (.slotMapLoad q g es) q 0x2005 .ok
        (onDsCh g (fun c => { c with standby := es })) s)
      ∧ Waits (.slotMapCommit q g) q 0x2006 (onDsCh g (fun c => { c with
          commit := some { sfc := s.slotTarget, cmd := some q } })) s
      ∧ Replies (.slotMapWithdraw q g false) q 0x2007 (.err .badState) id s)
    ∧ (g < 512 → (s.dsCh g).commit.isSome = true →
      Replies (.slotMapLoad q g es) q 0x2005 (.err .busy) (bump .pageRefusedSlot g) s
      ∧ Replies (.slotMapCommit q g) q 0x2006 (.err .busy) id s)
    ∧ ((s.dsCh g).commit = some k → k.cmd = none → k.move = none →
      Replies (.slotMapWithdraw q g false) q 0x2007 .ok (onDsCh g (fun c => { c with commit := none })) s)
    ∧ (Acts s (ponBlk g) → (s.dsCh g).commit = some k → k.checked = false →
      (slotCheck s g (s.dsCh g).standby = none → exec (.slotMapCheckDone g) s = .next (completeOpt k.cmd 0x2006
        (.vals [.u 51 k.sfc]) (onDsCh g (fun c => { c with commit := some { k with checked := true, cmd := none } }) s)))
      ∧ (slotCheck s g (s.dsCh g).standby = some r → k.move = none → exec (.slotMapCheckDone g) s = .next (completeOpt k.cmd 0x2006
        { code := .badArg, detail := r * 2 ^ 24 } (bump .slotmapReject g (onDsCh g (fun c => { c with commit := none }) s)))))
    ∧ (Tab.get? s.ds.trib i = some t → Acts s (ponBlk t.a.channel) →
      (t.lastFeed = some ((seq + 65535) % 65536) → seq < 65536 → t.store.length + os.length ≤ 64 * t.a.slots →
        exec (.tribFeedWrite i seq os) s = .next (onTrib i (fun t => { t with
          lastFeed := some seq, store := t.store ++ os.map (· % 256) }) s))
      ∧ (t.lastFeed = some (seq % 65536) → exec (.tribFeedWrite i seq os) s = .next (bump .tribFeedLate i s))
      ∧ (let h := (s.tribOnu t).getD 0
        let c := ((Tab.get? s.onu.ctx h).map (·.chan)).getD 0
        let lob := bit (Tab.getD s.rx.onu (8 * h + c) {}).det 0
        let losC := (Tab.getD s.rx.ch (t.a.channel / 8 * 8 + c) {}).losC
        let f := fun (t : Trib) =>
          let t := t.detect s.clk.sfc (0 < d) lob losC
          if t.det % 8 != 0 then t.emit (List.replicate t.a.fill 0xFF) true else t
        (∀ k < 4, tribSuppressed (f t).det k = true ∨ bit (f t).det k = bit (f t).rep k) →
          exec (.tribDefectEval i d) s = .next (onTrib i f s)))
    ∧ (Acts s (ponBlk 0) → Tab.get? s.ds.trib i = none → exec (.tribFeedWrite i seq os) s = .next s
      ∧ exec (.tribDefectEval i d) s = .next s)
    ∧ (∀ lob losC, (t.detect seq (0 < d) lob losC).det % 2 = 1 ↔
        (if bit t.det 0 then ¬ (4 ≤ (if 0 < d then t.liveRun + 1 else 0) ∧ lob = false ∧ losC = false)
         else (4 ≤ (if 0 < d then 0 else t.deadRun + 1) ∨ lob = true ∨ losC = true)))

/-- O30: The thirteen ONU commands of host software (derived; R45, R108, R109, R110, R111, R113, R124, R131, R132,
R139, R489, R136). Choices of the model it rests on: log 97, log 98, log 121, log 129. -/
def Obligations.OnuHostCommands : Prop :=
  ∀ (s : State) (q : Req) (tree serial h c : Nat) (o : Onu) (on : Bool) (code : Code),
    (tree < 64 → s.findSerial serial = none → lowestFree (Tab.keys s.onu.ctx) 0 32768 = some h →
      Replies (.onuCreate q tree serial 0x3FF) q 0x3000 (.vals [.u 15 h]) 
        (let o : Onu := { tree := tree, state := .provisioned, serial := serial, hostSerial := true, wantId := none, provisioned := true }
         newContext h o) s)
    ∧ (s.onuState h = .provisioned ∨ s.onuState h = .disabled → Replies (.onuDestroy q h) q 0x3001 .ok
        (fun u => { u with onu := { u.onu with ctx := Tab.erase u.onu.ctx h } }) s)
    ∧ (s.onuState h = .operation ∨ s.onuState h = .ranging → Replies (.onuDestroy q h) q 0x3001 (.err .busy) id s)
    ∧ (Tab.get? s.onu.ctx h = some o →
      Replies (.onuStatus q h) q 0x3002 (.vals [.rcd 128 o.status]) id s
      ∧ Replies (.onuRangeRead q h) q 0x3003 (.vals [.lst 4 ((List.range 8).map fun c => (Tab.getD o.eq c {}).word)]) id s
      ∧ (o.state = .authorising → Replies (.onuAccept q h) q 0x3004 .ok (enterExtending h) s
        ∧ Replies (.onuReject q h) q 0x3005 .ok (fun u => onOnu h (fun o => { o with state := .disabled })
          (sendDisable h 0 (retireOnu h u))) s)
      ∧ (o.state ≠ .authorising → Replies (.onuAccept q h) q 0x3004 (.err .badState) id s
        ∧ Replies (.onuReject q h) q 0x3005 (.err .badState) id s)
      ∧ (∀ i, 2 ≤ o.state.ctorIdx → o.state.ctorIdx ≤ 10 → o.onuId = some i → Replies (.onuDeactivate q h) q 0x3006 .ok
          (fun u => plBroadcast o.g 3 (.deactivate i) (onOnu h (fun o => { o with deactSfc := some u.clk.sfc }) (releaseOnu h u))) s)
      ∧ (o.state.active = false → (o.left.filter fun x => x.1 == s.clk.sfc) = none →
        Replies (.onuDeactivate q h) q 0x3006 (.err .badState) id s)
      ∧ (o.deactSfc ≠ some s.clk.sfc →
        (o.state ≠ .disabled → Replies (.onuDisable q h) q 0x3007 .ok (fun u => onOnu h (fun o => { o with
          state := .disabled }) (sendDisable h 0 (retireOnu h u))) s)
        ∧ (o.state = .disabled → Replies (.onuDisable q h) q 0x3007 .ok (sendDisable h 0) s))
      ∧ (o.deactSfc = some s.clk.sfc → Replies (.onuDisable q h) q 0x3007 (.err .badState) id s)
      ∧ (o.state = .disabled → Replies (.onuEnable q h) q 0x3008 .ok 
          (fun u => onOnu h (fun o =>
            let n : Onu := { tree := o.tree, state := .provisioned, serial := o.serial, hostSerial := o.hostSerial }
            { n with wantId := o.wantId, chan := o.chan, provisioned := true }) (sendDisable h 1 u)) s)
      ∧ Replies (.onuPin q h on) q 0x300B .ok (onOnu h (fun o => { o with pinned := on })) s
      ∧ (o.state = .operation → s.inFixedPattern h = false → Replies (.onuLadderRestart q h) q 0x300C .ok
          (fun u => ladderStep h (onOnu h (fun o => { o with ladder := {} }) u)) s))
    ∧ (tree < 64 → Replies (.onuEnableAll q tree) q 0x3009 .ok (fun u => ((List.range 8).filter fun c =>
        (Tab.getD u.lane.ch (8 * tree + c) {}).enabled).foldl
          (fun s c => plBroadcast (8 * tree + c) 1 (.disableSerial 2 0) s) u) s)
    ∧ ((balanceYield h (openCmd q 0x300A s)).retuneRefused h c false = none →
      Waits (.onuRetune q h c) q 0x300A (fun u => startRetune (some q) 0 h c 20 (balanceYield h u)) s)
    ∧ ((Tab.get? s.onu.ctx h).bind (·.tune) = none → balanceYield h s = s
      ∧ (s.retuneRefused h c false = some code → Replies (.onuRetune q h c) q 0x300A (.err code) id s))

/-- O31: Upstream PLOAM messages, serial-number and ranging windows (derived; R113, R114, R116, R118, R119, R121,
R122, R124, R127, R134, R503, R358). Choices of the model it rests on: log 22, log 31, log 32. -/
def Obligations.OnuUpstreamMessagesAndWindows : Prop :=
  ∀ (s : State) (hd : UsHead) (code serial reg g h : Nat) (x : ExtCap) (o : Onu) (p : PlOut) (t : Tune) (w : DiscWin)
    (wq ack sig ov : Bool) (rtd : Int),
    (Acts s 104 → s.host.restart.isSome = true → s.host.restartQueue.length < 4096 →
      exec (.serialNumberOnu hd serial wq) s = .next { s with host := { s.host with
        restartQueue := s.host.restartQueue ++ [.serialNumberOnu hd serial wq] } })
    ∧ (Acts s 104 → s.host.restart = none → s.micOk hd = false →
      exec (.serialNumberOnu hd serial wq) s = .next (bump .ploamMicErr hd.g s)
      ∧ exec (.acknowledgement hd code) s = .next (bump .ploamMicErr hd.g s)
      ∧ exec (.registration hd reg) s = .next (bump .ploamMicErr hd.g s)
      ∧ exec (.extCapability hd x) s = .next (bump .ploamMicErr hd.g s)
      ∧ exec (.tuningResponse hd ack) s = .next (bump .ploamMicErr hd.g s))
    ∧ (Acts s 104 → s.host.restart = none → s.micOk hd = true →
      (s.inQuarantine (hd.g / 8) hd.onuId = false →
        exec (.sleepRequest hd) s = .next (bump .ploamUnsupported hd.g s)
        ∧ exec (.ploamUnsupported hd) s = .next (bump .ploamUnsupported hd.g s))
      ∧ (s.inQuarantine (hd.g / 8) hd.onuId = true →
        exec (.sleepRequest hd) s = .next (bump .ploamStale hd.g s)
        ∧ exec (.ploamUnsupported hd) s = .next (bump .ploamStale hd.g s))
      ∧ (Tab.get? s.onu.disc hd.g = some w → w.valid = true → exec (.serialNumberOnu hd serial wq) s = .next s)
      ∧ (Tab.get? s.onu.disc hd.g = some w → w.valid = false → wq = true → s.findSerial serial = some (h, o) → o.tree = hd.g / 8 →
        o.state = .provisioned → exec (.serialNumberOnu hd serial wq) s = .next (enterDiscovered h (bump .discNew o.tree
          (onOnu h (fun o => { o with state := .discovered, chan := hd.g % 8 }) { s with onu := { s.onu with
            disc := Tab.set s.onu.disc hd.g { w with valid := true } } }))))
      ∧ (s.findOnu (hd.g / 8) hd.onuId = some (h, o) →
        (o.out = some p → p.seq = hd.seq → p.sfc < s.clk.sfc → p.late s.clk.sfc = false → ackKind code p.msg = true →
          exec (.acknowledgement hd code) s = .next (acknowledged h o p.msg (code == 0) (plAnswered h s)))
        ∧ (o.state = .confirm → ∀ e, acknowledged h o (.rangingTime e) true s = onOnu h (fun o => { o with acked := true }) s)
        ∧ (o.out = none → o.answersCarry hd s.clk.sfc = false → exec (.acknowledgement hd code) s = .next (bump .ploamStale hd.g s))
        ∧ (o.state = .registering → o.answers hd s.clk.sfc (· == .requestRegistration) = true → s.param 0x3010 o.tree ≠ 2 → exec (.registration hd reg) s = .next (event 0x3001
          [.u 64 o.serial, .u 288 reg] (onOnu h (fun u => { u with
            state := .authorising, regId := reg % 2 ^ 288
            deadline := some (s.clk.now + secT (s.paramN 0x3011 u.tree)) }) (plAnswered h s))))
        ∧ (o.state = .extending → o.answers hd s.clk.sfc (· == .extInquire) = true → exec (.extCapability hd x) s = .next (enterOperation h (onOnu h (fun o => { o with
            ext := true, maxRate := x.maxRate, tribOk := x.tribOk, carryOk := x.carryOk, standingOk := x.standingOk
            chanMask := x.chanMask, tuneTime := x.tuneTime, tribMax := x.tribMax }) (plAnswered h s))))
        ∧ (o.tune = some t → o.state = .tuning → t.q ≤ s.clk.sfc → hd.g = 8 * o.tree + t.target → t.resp = false →
          exec (.tuningResponse hd ack) s = .next (onOnu h (fun o => { o with
            tune := some { t with resp := true }, respCount := o.respCount + 1 }) s))
        ∧ (o.tune = some t → o.state = .tuning → s.clk.sfc < t.q → t.source ≠ 2 →
          o.answers hd s.clk.sfc (· == .tuningControl t.target t.q) = true →
          exec (.tuningResponse hd true) s = .next (plAnswered h (onOnu h (fun o => { o with
            tune := o.tune.map fun t => { t with acked := true } }) s))
          ∧ exec (.tuningResponse hd false) s = .next (tuneEnded h .tuneNack .operation s))))
    ∧ (Acts s 104 →
      (g < 512 → s.discOpen g = true → Tab.getD s.onu.discNext g 0 ≤ s.clk.now → s.host.restart = none →
        exec (.serialNumberWindow g) s = .next (
          let u := { s with onu := { s.onu with
            disc := Tab.set s.onu.disc g { opened := s.clk.sfc }
            discNext := Tab.set s.onu.discNext g (s.clk.now + msT (s.paramN 0x3001 g)) } }
          bump .discWindows g (requestWindow g .snWindow 0 (u.discQuiet g) u)))
      ∧ (Tab.get? s.onu.disc g = some w → exec (.snWindowEnd g sig ov) s = .next (
          let u := { s with onu := { s.onu with disc := Tab.erase s.onu.disc g } }
          if ov || (sig && !w.valid) then bump .discCollision g u else u))
      ∧ (Tab.get? s.onu.ctx h = some o → o.state = .tuning → o.tune = some t → t.windowed = true → 8 * o.tree + t.target = g →
        s.inReach g rtd = true → let e := ((s.paramN 0x3020 g : Int) * 64 - rtd).toNat
        exec (.rangingBurst g h rtd) s = .next (plSend h (.rangingTime e) (onOnu h (fun o => { o with
          tune := some { t with ranged := true }
          eq := Tab.upd o.eq t.target {} fun r => { r with eqd64 := e, valid := false, carried := false } }) s)))
      ∧ (Tab.get? s.onu.ctx h = some o → o.state = .ranging → o.windowOpen = true →
        (o.g = g → s.inReach g rtd = true → exec (.rangingBurst g h rtd) s = .next
          (sendEqd h ((s.paramN 0x3020 g : Int) * 64 - rtd).toNat false s))
        ∧ (o.g = g → s.inReach g rtd = false → exec (.rangingBurst g h rtd) s = .next (releaseFor h 2 s))
        ∧ exec (.rangingWindowEnd h) s = .next (rangingMissed h (bump .rangeMiss (8 * h + o.chan) s))))

/-- O32: PLOAM, state, quarantine, tuning and ladder timeouts; the balancing interval (derived; R45, R111, R113, R123,
R132, R134, R135, R136). Choices of the model it rests on: log 32, log 92, log 115, log 123, log 128, log 130. -/
def Obligations.OnuTimeoutsLadderAndBalancing : Prop :=
  ∀ (s : State) (h tree i e : Nat) (o : Onu) (p : PlOut) (t : Tune) (found : Bool), Acts s 104 →
    (Tab.get? s.onu.ctx h = none → exec (.ploamAnswerTimeout h) s = .next s ∧ exec (.extendingTimeout h) s = .next s
      ∧ exec (.authTimeout h) s = .next s ∧ exec (.ladderRetry h) s = .next s)
    ∧ (Tab.get? s.onu.ctx h = some o →
      (o.tune.bind (·.carry) = none → o.out = some p → p.late s.clk.sfc = true → p.tries < s.retriesOf p.msg →
        exec (.ploamAnswerTimeout h) s = .next (
        plAnswered h { s with onu := { s.onu with queue :=
          { g := o.g, onu := some h, msg := p.msg, seq := some p.seq, tries := p.tries + 1, ready := s.clk.sfc }
            :: s.onu.queue } }))
      ∧ (o.state = .extending → o.out = some p → p.late s.clk.sfc = true → p.msg = .extInquire →
        let v := bump .ploamNoAck o.g (plAnswered h s)
        exec (.extendingTimeout h) s = .next (enterOperation h (onOnu h (fun u => { u with
          ext := false, carryOk := false, tribOk := false, standingOk := false, tribMax := 0
          tuneTime := v.paramN 0x3030 u.tree, maxRate := u.curRate, chanMask := 0xFF }) v)))
      ∧ (o.state = .authorising → s.due o.deadline = true →
        exec (.authTimeout h) s = .next (releaseFor h 4 (bump .authTimeout o.tree s)))
      ∧ (o.state = .lost → s.due o.deadline = true → exec (.lostTimeout h) s = .next (releaseFor h 6 s))
      ∧ (o.tune = some t → t.acked = false → t.sent + 16 < s.clk.sfc →
        exec (.tuningResponseTimeout h) s = .next (tuneEnded h .tuneNack .operation
          (if o.out.any fun p => isTuning p.msg then bump .ploamNoAck o.g s else s)))
      ∧ (o.tune = some t → t.oldAt = none →
        (s.clk.sfc < s.tuneDueAt h t + 8 → exec (.tuneArrivalTimeout h found) s = .next s)
        ∧ (s.tuneDueAt h t + 8 ≤ s.clk.sfc → t.windowed = false → exec (.tuneArrivalTimeout h found) s = .next
          (tuneWindow h (8 * o.tree + t.target) { t with q := s.clk.sfc } s))
        ∧ (s.tuneDueAt h t + 8 ≤ s.clk.sfc → t.windowed = true → exec (.tuneArrivalTimeout h found) s = .next
          (bump .tuneFail h (onOnu h (fun o => { o with tune := some { t with oldAt := some (s.clk.sfc + 2) } }) s))))
      ∧ (∀ n, o.tune = some t → t.oldAt = some n →
        (s.clk.sfc < n + 4 → exec (.tuneArrivalTimeout h found) s = .next s)
        ∧ (n + 4 ≤ s.clk.sfc → exec (.tuneArrivalTimeout h found) s = .next
          (tuneBack h (if found then .operation else .lost) s)))
      ∧ (o.tune = none → Tab.get? s.map.spare h = none → exec (.tuneArrivalTimeout h found) s = .next s)
      ∧ (∀ r a b, o.out = some p → p.late s.clk.sfc = true → o.ladder.phase = 1 → p.msg = .rateStep r a b →
        exec (.ladderAckTimeout h) s = .next (ladderFailed h (bump .ploamNoAck o.g (plAnswered h s))))
      ∧ (o.ladder.phase = 2 → 16 ≤ o.ladder.bursts → 15 ≤ o.ladder.good → o.ladder.uncorr = false →
        exec (.ladderTrialEnd h) s = .next (ladderStep h (onOnu h (fun u => { u with
          curRate := o.ladder.rate, ladder := { fails := o.ladder.fails } }) s)))
      ∧ (o.ladder.phase = 2 → 16 ≤ o.ladder.bursts → o.ladder.good < 15 ∨ o.ladder.uncorr = true →
        exec (.ladderTrialEnd h) s = .next (ladderFailed h s))
      ∧ (o.ladder.phase = 2 → o.ladder.bursts < 16 → exec (.ladderTrialEnd h) s = .next
        (if o.ladder.untilSfc ≤ s.clk.sfc then ladderFailed h s else s))
      ∧ (o.ladder.phase = 3 → o.ladder.retryAt ≤ s.clk.now → exec (.ladderRetry h) s = .next (ladderStep h
          (onOnu h (fun o => { o with ladder := { o.ladder with phase := 0 } }) s))))
    ∧ (Tab.get? s.onu.quar (tree * 1024 + i) = some e → s.clk.sfc < e → exec (.onuIdQuarantineEnd tree i) s = .next s)
    ∧ (Tab.get? s.onu.quar (tree * 1024 + i) = some e → e ≤ s.clk.sfc → exec (.onuIdQuarantineEnd tree i) s = .next (
        (s.onu.ctx.filter fun x => x.2.state == .deactivating && x.2.tree == tree && decide (x.2.quarEnd ≤ s.clk.sfc)).foldl
          (fun s x => vacate x.1 s) { s with onu := { s.onu with quar := Tab.erase s.onu.quar (tree * 1024 + i) } }))
    ∧ (s.clk.now < Tab.getD s.onu.balNext tree 0 → exec (.balanceInterval tree) s = .next s)
    ∧ (Tab.getD s.onu.balNext tree 0 ≤ s.clk.now →
      let cs := (List.range 8).filter fun c => s.paramN 0x3036 tree != c && (Tab.getD s.lane.ch (8 * tree + c) {}).enabled
      let loads := cs.map fun c => (c, s.chLoad (8 * tree + c))
      let closed := fun (u : State) => { u with
        onu := { u.onu with
          balNext := Tab.set u.onu.balNext tree (s.clk.now + secT (s.paramN 0x3033 0))
          chUp := u.onu.chUp.filter fun e => e.1 / 8 != tree
          chDown := u.onu.chDown.filter fun e => e.1 / 8 != tree
          ctx := u.onu.ctx.map fun e => (e.1, if e.2.tree = tree then { e.2 with loadUp := 0, loadDown := 0 } else e.2) } }
      (s.param 0x3031 0 ≠ 1 → exec (.balanceInterval tree) s = .next (closed s))
      ∧ (s.param 0x3031 0 = 1 →
        (∀ hi lo, maxBy (fun e => e.2) loads = some hi → maxBy (fun e => 1000000 - e.2) loads = some lo →
          (hi.2 ≤ lo.2 + 100 * s.paramN 0x3032 0 → s.paramN 0x3034 0 ≠ 0 → exec (.balanceInterval tree) s = .next (closed s))
          ∧ (∀ i x, lo.2 + 100 * s.paramN 0x3032 0 < hi.2 → s.paramN 0x3034 0 = 1 →
            maxBy (fun e => s.onuLoad e.2 (8 * tree + hi.1)) ((s.onu.ctx.filter fun e => e.2.g == 8 * tree + hi.1
                && s.balanceable e.1 e.2 lo.1).filter fun e => decide (0 < s.onuLoad e.2 (8 * tree + hi.1)
                  ∧ 2 * s.onuLoad e.2 (8 * tree + hi.1) ≤ hi.2 - lo.2)) = some (i, x) →
            exec (.balanceInterval tree) s = .next (closed (bump .balanceMoves tree (startRetune none 1 i lo.1 20 s)))))))

/-- O33: Map budget, fixed patterns, page reads and statistics, the page check, compile and commit, the superframe
boundary (derived; R77, R142, R149, R152, R153, R154, R165, R167, R169, R170, R392). Choices of the model it rests on:
log 3, log 33, log 101, log 102. -/
def Obligations.MapCommandsAndTheBoundary : Prop :=
  ∀ (s : State) (q : Req) (g b sfc r i h : Nat) (es : List FixedEntry) (c : MapCommit) (st next : Bool),
    (g < 512 → b ≤ 16 → ((List.range 512).filter (· != g)).foldl (fun a i => a + s.budgetOf i) 0
        + max b (max (s.mapCh g).budgetA (s.mapCh g).budgetS) ≤ 4096 →
      Replies (.mapBudgetSet q g b) q 0x4000 .ok (setParam 0x4020 g b) s)
    ∧ (g < 512 → (s.mapCh g).fixedNext = none → (s.mapCh g).fixedStage = none → s.clk.sfc + 8 ≤ sfc → es.length ≤ 128 → es.length ≤ 32 * s.paramN 0x4020 g →
      fixedSetOk s g es = true → Replies (.fixedPatternLoad q g sfc es) q 0x4001 .ok
        (onMap g (fun m => { m with fixedNext := some { actSfc := sfc, entries := es } })) s)
    ∧ Replies (.fixedPatternRead q g next) q 0x4002 (match (if next then (s.mapCh g).fixedNext else (s.mapCh g).fixedCur) with
        | some f => .vals [.u 51 f.actSfc, .lst 12 (f.entries.map fixedWord)]
        | none => .vals [.u 51 0]) id s
    ∧ (g < 512 → Replies (.mapPageRead q g st false) q 0x4003 (.vals [.u 64 ((s.mapCh g).stateCode st)
        , .u 51 (if st then (s.mapCh g).standbyTarget else (s.mapCh g).activeTarget)
        , .lst 10 ((if st then (s.mapCh g).standby else (s.mapCh g).active).map entryWord)]) id s
      ∧ Replies (.mapStats q g) q 0x4004 (.vals ([Ctr.mapPages, .mapReject, .mapLate, .mapReplay, .mapLateRun, .mapStall
        , .pageRefusedMap, .grantsCreated, .grantsExecuted, .grantsReturned, .grantsCancelled, .grantTicks
        , .overheadTicks, .quietTicks].map fun c => RVal.u 64 (s.count c g))) id s)
    ∧ (s.onuState h ≠ .free → Replies (.onuGrantStats q h) q 0x4005 (.vals (([Ctr.onuGrants, .onuGrantTicks
        , .onuGrantsReturned, .onuGrantsCancelled, .onuFixedGrants].map fun c => RVal.u 64 (s.count c h))
        ++ [.u 51 (Tab.getD s.map.lastGrantSfc h 0)])) id s)
    ∧ (Acts s (ponBlk g) → (s.mapCh g).commit = some c → c.check = .waiting →
      (checkPage s g c.target (s.mapCh g).budgetS (s.mapCh g).standby = none →
        exec (.mapPageCheckDone g) s = .next (onMap g (fun m => { m with commit := some { c with check := .passed } }) s))
      ∧ (checkPage s g c.target (s.mapCh g).budgetS (s.mapCh g).standby = some (r, i) →
        exec (.mapPageCheckDone g) s = .next (marverTrouble (g / 8) (event 0x4000 [.u 9 g, .u 51 c.target, .u 8 r, .u 16 i]
          (bump .mapReject g (onMap g (fun m => { m with commit := some { c with check := .failed r i } }) s))))))
    ∧ (Acts s (marverBlk (g / 8)) → s.coreRuns (g / 8) = true → (s.mapCh g).compiled = false →
      (g < 512 → s.map.snap.sfc = s.clk.sfc → s.laterCommitted g = false →
        s.clk.ltb % 311040 + (policyIn s.map.snap.policy 0x4A10 g).toNat ≤ 311040 →
        ((s.mapCh g).commit = none → exec (.mapCommit g) s = .next (compilePage g s)
          ∧ ((compilePage g s).mapCh g).compiled = true)
        ∧ ((s.mapCh g).commit.isSome = true → exec (.mapCommit g) s = .next (bump .pageRefusedMap g
          (onMap g (fun m => { m with compiled := true }) s)))
        ∧ exec (.compileDeadline g) s = .next s)
      ∧ (311040 < s.clk.ltb % 311040 + (policyIn s.map.snap.policy 0x4A10 g).toNat →
        exec (.compileDeadline g) s = .next (marverTrouble (g / 8) (bump .compileLate g
          (onMap g (fun m => { m with compiled := true }) s))) ∧ exec (.mapCommit g) s = .next s))
    ∧ ((∀ b, b = 172 ∨ (88 ≤ b ∧ b < 142) → s.undefinedBlk b = false) →
      (s.islandUp 172 = false → exec .superframeBoundary s = .next s)
      ∧ (s.islandUp 172 = true → ∃ t, exec .superframeBoundary s = .next t
        ∧ t.clk.ltb = (s.clk.ltb / 311040 + 1) * 311040 ∧ t.clk.sfc = (s.clk.sfc + 1) % 2 ^ 51
        ∧ t.clk.now = s.clk.now + (t.clk.ltb - s.clk.ltb) ∧ t.pending = s.pending))

/-- O34: Allocation contexts, map policy, hints, grant latency, Marver images, traps and watches (derived; R173, R174,
R175, R176, R179, R188, R190, R194, R196, R197, R199, R380). Choices of the model it rests on: log 34, log 36, log 37,
log 51, log 102. -/
def Obligations.AllocationsPolicyAndMarver : Prop :=
  ∀ (s : State) (q : Req) (onu id n g u k cause sfc bytes pos : Nat) (a : AllocArgs) (o : Onu) (x : Alloc) (sc : Scope)
    (vals : List (Nat × Int)) (img : Image) (isOnu : Bool),
    (Tab.get? s.onu.ctx onu = some o → o.state ≠ .disabled → o.state ≠ .deactivating → allocBad a = false → id < 2 ^ 14 →
      s.treeAllocs o.tree < 4096 → lowestFree (Tab.keys s.map.alloc) 0 131072 = some n → s.admits onu n a.assured = true →
      Replies (.allocCreate q onu id a) q 0x4006 (.vals [.u 17 n]) (fun u => plSend onu (.assignAlloc n id true) { u with
        map := { u.map with alloc := Tab.set u.map.alloc n { allocId := id, onu := onu, a := a } } }) s)
    ∧ (Tab.get? s.map.alloc n = some x →
      (allocBad a = false → s.admits x.onu n a.assured = true → Replies (.allocModify q n a) q 0x4007 .ok
        (onAlloc n (fun x => { x with staged := some a })) s)
      ∧ (s.allocInFixed n = false → x.destroying = none → Waits (.allocDestroy q n) q 0x4008 (fun u => plSend x.onu
        (.assignAlloc n x.allocId false) (onAlloc n (fun x => { x with destroying := some q }) u)) s)
      ∧ Replies (.allocStatus q n) q 0x4009 (.vals [.rcd 128 x.word, .u 64 x.demand, .u 64 x.aCredit, .u 64 x.nCredit
        , .u 51 x.lastReport, .u 51 x.lastGrant]) (fun s => s) s)
    ∧ (scopeKey sc = some k → (∀ v ∈ vals, policyPids.contains v.1 = true ∧ inRange v.1 v.2 = true) →
      (let policy : Tab (Tab Int) := Tab.upd s.map.policy k [] (fun t => vals.foldl (fun t v => Tab.set t v.1 v.2) t);
        Replies (.mapPolicySet q sc vals) q 0x400A (.vals (policyPids.map fun p =>
          RVal.u (((pidDesc? p).map (·.width)).getD 64) (policyAt policy p sc).toNat))
          (fun u => { u with map := { u.map with policy := policy } }) s)
      ∧ Replies (.mapPolicyGet q sc) q 0x400B (.vals (policyPids.map fun p =>
        RVal.u (((pidDesc? p).map (·.width)).getD 64) (policyAt s.map.policy p sc).toNat)) (fun s => s) s)
    ∧ (g < 512 → Replies (.mapHints q g) q 0x400C (.vals [.u 64 (Tab.getD s.map.hints g {}).demanded
        , .u 64 (Tab.getD s.map.hints g {}).granted, .u 64 (Tab.getD s.map.hints g {}).short
        , .lst 2 (Tab.getD s.map.hints g {}).onus]) (fun s => s) s)
    ∧ (u < 256 → Tab.get? s.mon.hist u = none → Replies (.grantLatencyBind q isOnu n u) q 0x400D .ok
        (bindUnit u 10 (if isOnu then .onuLat n else .allocLat n)) s)
    ∧ (((List.range 64).any fun k => (s.core k).watchEnd.isSome) = false → imageRefused img 2 = false → img.length ≤ 196608 →
      Waits (.marverImageLoad q img) q 0x400E (keQueue (.image q .marver img)) s)
    ∧ (((List.range 64).any fun k => (s.core k).watchEnd.isSome) = true →
      Replies (.marverImageLoad q img) q 0x400E (.err .busy) (fun s => s) s)
    ∧ (s.clk.sfc + 8 ≤ sfc → ((List.range 64).any fun k => (s.core k).standby.isNone) = false →
      Replies (.marverImageActivate q sfc) q 0x400F .ok (fun u =>
        (List.range 64).foldl (fun s k => onCore k (fun c => { c with activateAt := some sfc }) s) u) s)
    ∧ (k < 64 → Replies (.marverStatus q k) q 0x4010 (.vals [.u 32 (s.core k).active.version
        , .u 32 (((s.core k).standby.map (·.version)).getD 0), .u 64 (flag (s.core k).watchEnd.isSome)
        , .u 32 (Tab.getD s.map.cyclesMax k 0)])
        (fun u => { u with map := { u.map with cyclesMax := Tab.erase u.map.cyclesMax k } }) s)
    ∧ (Acts s (marverBlk k) →
      exec (.hintPublish k) s = .next ((List.range 8).foldl (fun s c => hintPublish (8 * k + c) s) s)
      ∧ (let due := Tab.getD s.map.hintAt g 0 + (policyIn s.map.snap.policy 0x4A17 g).toNat
        (s.clk.sfc < due → hintPublish g s = s)
        ∧ (due ≤ s.clk.sfc → ∃ ids, Tab.get? (hintPublish g s).map.hints g = some { Tab.getD s.map.hintAcc g {} with onus := ids }
          ∧ ids.length ≤ 4 ∧ Tab.getD (hintPublish g s).map.hintAt g 0 = s.clk.sfc
          ∧ hintPublish g s = { s with map := (hintPublish g s).map }))
      ∧ (marverTrap k cause s).count .marverTrap k = (s.count .marverTrap k + 1) % 2 ^ 64
      ∧ exec (.marverCoreTrap k cause) s = .next (marverTrap k cause s)
      ∧ ((s.core k).watchEnd = some n → n ≤ s.clk.sfc → (s.core k).revertDue = false →
        exec (.marverWatchEnd k) s = .next (onCore k (fun c => { c with standby := c.old, old := none, watchEnd := none }) s)))
    ∧ (Tab.get? s.map.alloc n = none → exec (.bufferReportArrival n bytes pos) s = .next s)
    ∧ (Tab.get? s.map.alloc n = some x → Tab.get? s.onu.ctx x.onu = some o → Acts s (marverBlk o.tree) →
      exec (.bufferReportArrival n bytes pos) s = .next (takeReport n bytes pos s)
      ∧ ∃ y, Tab.get? (takeReport n bytes pos s).map.alloc n = some y ∧ (pos < x.reportPos → y = x)
        ∧ (x.reportPos ≤ pos → y.report = bytes ∧ y.reportPos = pos ∧ y.lastReport = s.clk.sfc
          ∧ y.granted = x.granted.filter fun e => decide (pos < e.1))
        ∧ takeReport n bytes pos s = { s with
          map := { s.map with alloc := (takeReport n bytes pos s).map.alloc } })

/-- O35: A received burst: its outcome, the phase memory entry it writes, its arrival statistics (derived; R49, R50,
R202, R203, R204, R205, R206, R207, R208, R201, R59). Choices of the model it rests on: log 38, log 93, log 103. -/
def Obligations.BurstOutcomesPhaseAndArrival : Prop :=
  ∀ (s : State) (g : Nat) (x : Expect) (rx : BurstRx) (o : Onu) (d : Int) (r : RxOnu),
    (Acts s (ponBlk g) → (nextExpect (s.mapCh g).expect = none → exec (.burstReception g rx) s = .next s)
      ∧ exec (.burstReception g rx) s = .next (burstReception g rx s))
    ∧ (Acts s (ponBlk g) → nextExpect (s.mapCh g).expect = some x →
      let u := onMap g (fun m => { m with expect := m.expect.erase x }) s
      let bad := decide (0 < rxUncorr rx) && fecOn x
      let counted := fun (w : State) => if fecOn x then rxCount .fecCodewords x.onu g rx.words.length (rxCount .fecCorrBits x.onu g
        (rxCorrBits rx) (rxCount .fecUncorr x.onu g (rxUncorr rx) w)) else w
      s.standbyTree (g / 8) = false →
      (u.outcome g x rx = (.foreign, some d) → rx.headerOk = true → exec (.burstReception g rx) s = .next
        (endBurst g x .foreign false d (ladderBurst x .foreign bad (counted (bump .onuIdMismatch g u)))))
      ∧ (u.outcome g x rx = (.missing, none) → x.profile ≠ 1 ∨ rx.loopLocked = true → exec (.burstReception g rx) s = .next
        (confirmLost g x.onu (endBurst g x .missing false 0 (ladderBurst x .missing false u))))
      ∧ (u.outcome g x rx = (.missing, none) → x.profile = 1 → rx.loopLocked = false → exec (.burstReception g rx) s = .next
        (confirmLost g x.onu (endBurst g x .missing false 0 (ladderBurst x .missing false (seedMiss g x u)))))
      ∧ (u.outcome g x rx = (.discarded, some d) → rx.headerOk = true → u.inQuarantine (g / 8) rx.onuId = true →
        exec (.burstReception g rx) s = .next
          (endBurst g x .discarded false d (ladderBurst x .discarded bad (counted (bump .ploamStale g u)))))
      ∧ (u.outcome g x rx = (.discarded, none) → exec (.burstReception g rx) s = .next
        (endBurst g x .discarded false 0 (ladderBurst x .discarded false u)))
      ∧ (u.outcome g x rx = (.clean, some d) →
        let v := onRxOnu x.onu (g % 8) (fun r => if fecOn x then { r.arrived d with
            corr := r.corr + rxCorrBits rx, prot := r.prot + rx.protBits } else r.arrived d)
          (dropLoads g x (phaseWrite g x rx d (endBurst g x .clean rx.dyingGasp d (ladderBurst x .clean bad (counted u)))))
        exec (.burstReception g rx) s = .next (todMoved x.onu (confirmBurst g x.onu
          (rxAllocs g x false (fecOn x) rx (x.allocs.zip rx.allocs) (v.entryPos g x) v)))))
    ∧ (∀ oc gasp, (endBurst g x oc gasp d s).count .burstsExpected (8 * x.onu + g % 8)
        = (s.count .burstsExpected (8 * x.onu + g % 8) + 1) % 2 ^ 64
      ∧ ((endBurst g x oc gasp d s).rxCh g).ends = (s.rxCh g).ends ++ [{ sfc := x.sfc, onu := x.onu, outcome := oc, gasp := gasp
                                                                        , offset := wholeTicks d }])
    ∧ (s.assigned x = none → s.outcome g x rx =
        (.discarded, if x.noReset = true ∨ rx.loopLocked = false then none else s.delimiter g x rx))
    ∧ (s.assigned x = some o →
      (x.noReset = true ∨ rx.loopLocked = false → s.outcome g x rx = (.missing, none))
      ∧ (x.noReset = false → rx.loopLocked = true →
        (s.delimiter g x rx = none → s.outcome g x rx = (.missing, none))
        ∧ (s.delimiter g x rx = some d →
          (rx.headerOk = false → s.outcome g x rx = (.foreign, some d))
          ∧ (rx.headerOk = true → s.inQuarantine (g / 8) rx.onuId = true → s.outcome g x rx = (.discarded, some d))
          ∧ (rx.headerOk = true → s.inQuarantine (g / 8) rx.onuId = false →
            (o.onuId ≠ some rx.onuId → s.outcome g x rx = (.foreign, some d))
            ∧ (o.onuId = some rx.onuId →
              s.outcome g x rx = (if (0 < rxUncorr rx ∧ fecOn x = true) ∨ rx.allocs.any rxLost = true
                then (.damaged, some d) else (.clean, some d)))))))
    ∧ (∃ e : PhaseEnt, Tab.get? (phaseWrite g x rx d s).lane.phase (8 * x.onu + g % 8) = some e
      ∧ e.valid = true ∧ e.tickOffset = clampI (-8) 8 (d / 64) ∧ e.finePhase = (d % 64).toNat ∧ e.rate = x.rate
      ∧ e.lastSeen = x.sfc % 2 ^ 26 ∧ e.level = rx.level % 256
      ∧ e.freqErr = clampI (-2048) 2047 ((s.phaseEnt x.onu (g % 8)).freqErr + (rx.freqErr - (s.phaseEnt x.onu (g % 8)).freqErr) / 8)
      ∧ (e.confidence =
          let near := (d - (s.loadOf g x).phase).natAbs
          if near < 8 then min 15 ((s.phaseEnt x.onu (g % 8)).confidence + 1)
          else if near < 16 then (s.phaseEnt x.onu (g % 8)).confidence else 0)
      ∧ ((Tab.getD s.lane.loaded g []).find? (fun l => l.onu == x.onu && l.arrival == x.arrival) = none →
        s.loadOf g x = s.loadFor g x.onu x.arrival x.rate)
      ∧ phaseWrite g x rx d s = { s with lane := { s.lane with phase := (phaseWrite g x rx d s).lane.phase } })
    ∧ ((r.arrived d).arrLast = d ∧ (r.arrived d).arr = (d :: r.arr).take 64
      ∧ (r.arrived d).arrMin = (if r.arr = [] then d else min r.arrMin d)
      ∧ (r.arrived d).arrMax = (if r.arr = [] then d else max r.arrMax d) ∧ (r.arrived d).det = r.det)

/-- O36: Upstream evaluation, SDB interval, dying gasp, PLL lock, RxThresholdSet and OnuRxStats (derived; R209, R215,
R217, R223, R224, R208). Choices of the model it rests on: log 39. -/
def Obligations.EvaluationsThresholdsAndReceiveStats : Prop :=
  ∀ (s : State) (q : Req) (g h n t c : Nat) (o : Onu) (vals : List (Nat × Nat × Int)) (locked : Bool),
    (Acts s (ponBlk g) →
      (s.evalDue g = none → exec (.upstreamEvaluation g) s = .next s)
      ∧ (s.evalDue g = some n → (s.rxCh g).evalSfc = some n → exec (.upstreamEvaluation g) s = .next s)
      ∧ (s.evalDue g = some n → (∀ m, (s.rxCh g).evalSfc = some m → m < n) → s.evaluated g = true →
        ∃ t, exec (.upstreamEvaluation g) s = .next t ∧ (t.rxCh g).evalSfc = some n)
      ∧ exec (.upstreamEvaluation g) s = .next (upstreamEvaluation g s)
      ∧ exec (.lanePllLockChange g true locked) s = .next (onLaneCh g (fun c => { c with rxPll := locked }) s)
      ∧ exec (.lanePllLockChange g false locked) s = .next (onLaneCh g (fun c => { c with txPll := locked }) s))
    ∧ (Tab.get? s.onu.ctx h = some o → Acts s (ponBlk o.g) →
      ((s.rxOnu h o.chan).sdbEnd = none → exec (.sdbIntervalEnd h) s = .next (onRxOnu h o.chan (fun r => { r with
        sdbEnd := some (s.clk.now + msT (s.paramN 0x5021 o.g)), corr := 0, prot := 0 }) s))
      ∧ ((s.rxOnu h o.chan).sdbEnd = some t → s.clk.now < t → exec (.sdbIntervalEnd h) s = .next s)
      ∧ ((s.rxOnu h o.chan).sdbEnd = some t → t ≤ s.clk.now → bit (s.rxOnu h o.chan).det 3 = false →
        (s.rxOnu h o.chan).prot ≤ (s.rxOnu h o.chan).corr * 10 ^ s.paramN 0x5020 o.g →
        10 ^ (s.paramN 0x5020 o.g + 1) ≤ (s.rxOnu h o.chan).prot →
        exec (.sdbIntervalEnd h) s = .next (onRxOnu h o.chan (fun r => { r with
          det := r.det % 8 + 8 * flag (o.usesFec s.clk.sfc), sdbHot := o.usesFec s.clk.sfc, corr := 0, prot := 0, sdbEnd := some (t + msT (s.paramN 0x5021 o.g)) }) s))
      ∧ ((s.rxOnu h o.chan).sdbEnd = some t → t ≤ s.clk.now →
        (s.rxOnu h o.chan).corr * 10 ^ (s.paramN 0x5020 o.g + 1) < (s.rxOnu h o.chan).prot → bit (s.rxOnu h o.chan).det 3 = true →
        exec (.sdbIntervalEnd h) s = .next (onRxOnu h o.chan (fun r => { r with
          det := r.det % 8, sdbHot := false, corr := 0, prot := 0, sdbEnd := some (t + msT (s.paramN 0x5021 o.g)) }) s))
      ∧ exec (.dyingGaspExpiry h) s = .next (gaspExpiry h s)
      ∧ (∀ r u m, c < 8 → s.rx.onu = [(8 * h + c, r)] → r.gaspUntil = some u → (s.rxCh (8 * o.tree + c)).evalSfc = some m →
        exec (.dyingGaspExpiry h) s = .next { s with
          rx := { s.rx with onu := [(8 * h + c, if u < m then { r with gaspUntil := none } else r)] } })
      ∧ ((∀ e ∈ s.rx.onu, e.1 / 8 = h → ∀ u m, e.2.gaspUntil = some u → (s.rxCh (8 * o.tree + e.1 % 8)).evalSfc = some m → m ≤ u) →
        exec (.dyingGaspExpiry h) s = .next s)
      ∧ (c < 8 → Replies (.onuRxStats q h (some c)) q 0x5001 (.vals (([Ctr.burstsExpected, .burstsClean, .burstsDamaged
          , .burstsMissing, .burstsForeign, .burstsDg, .fecCodewords, .fecCorrBits, .fecUncorr, .gemFrames, .gemDiscard
          , .gemHuntBytes, .dbruErr].map fun x => RVal.u 64 (s.count x (8 * h + c)))
          ++ ([Ctr.dyingGasp, .lobCount, .lodCount, .driftCount, .sdbCount].map fun x => RVal.u 64 (s.count x h))
          ++ [.i 32 (s.rxOnu h c).arrLast, .i 32 (s.rxOnu h c).arrMin, .i 32 (s.rxOnu h c).arrMax
            , .i 32 (meanOf (s.rxOnu h c).arr), .u 12 (s.rxOnu h c).rssi]))
          (onRxOnu h c (fun r => { r with arrMin := r.arrLast, arrMax := r.arrLast })) s))
    ∧ (g < 512 → (vals.all fun v => [0x5001, 0x5020, 0x5021, 0x5030, 0x5031].contains v.1) = true → vals.all thresholdOk = true →
      Replies (.rxThresholdSet q g vals) q 0x5003 .ok (fun u => vals.foldl (fun s v =>
        if v.1 = 0x5001 then setParam 0x5001 (8 * g + v.2.1) v.2.2 { s with rx := { s.rx with
          errHeld := Tab.set s.rx.errHeld (8 * g + v.2.1) (s.delimErrMax (8 * g + v.2.1)) } }
        else setParam v.1 g v.2.2 s) u) s)

/-- O37: Facet images: load, commit, withdraw, swap, check, drain, timeout, insert, delete, reads, throttle (derived;
R240, R241, R242, R243, R244, R245, R247, R248, R249, R268). Choices of the model it rests on: log 42, log 105, log
109. -/
def Obligations.FacetImagesAndEpochs : Prop :=
  ∀ (s : State) (q : Req) (sl grp idx us n i : Nat) (ld : FacetLoad) (e : FacetEntry) (r : ActionRec) (x : FacetSl)
    (w : FacetSwap) (tA tB : Int),
    (sl < 8 → (s.facet sl).draining = false → (s.facet sl).committed = false →
      (grp < 2 → gangsOk ld.width ld.banks = true → (∀ r ∈ ld.records, r.1 < 16384) →
        ((s.facet sl).entry.any fun e => entryMeets grp ld.banks e && bit e.2.pg ((s.facet sl).epoch % 2)) = false →
        ld.entries.length ≤ (leaders ld.width ld.banks).length * (2048 - 2048 / max 2 (s.paramN 0x6010 0)) →
        let ls := (leaders ld.width ld.banks).mergeSort fun a b => decide (a ≤ b)
        let put := fun (t : Tab FacetEntry) (e : FacetEntry × Nat) =>
          Tab.set t (entKey grp (loadIndex (max 2 (s.paramN 0x6010 0)) ls e.2)) { e.1 with valid := true, pg := 2 ^ (s.facet sl).spare }
        Replies (.facetImageLoad q sl grp ld) q 0x6000 .ok (onFacet sl (fun x => { x with
          entry := ld.entries.zipIdx.foldl put ((s.facet sl).entry.filter fun e => !entryMeets grp ld.banks e)
          width := ld.banks.foldl (fun t b => Tab.set t (widthKey (s.facet sl).spare grp b) ld.width) x.width
          recs := ld.records.foldl (fun t r => Tab.set t (recKeyOf (s.facet sl).spare grp r.1) r.2) x.recs })) s)
      ∧ (grp < 2 → idx < 16384 → e.action < 16384 → (s.facet sl).insertAt grp idx e r = some (x, i) →
        Replies (.facetEntryInsert q sl grp idx e r) q 0x6004 (.vals [.u 24 i]) (onFacet sl (fun _ => x)) s)
      ∧ (2 ≤ grp ∨ 16384 ≤ idx → Replies (.facetEntryDelete q sl grp idx) q 0x6005 (.err .badArg) id s)
      ∧ (grp < 2 → idx < 16384 → Tab.get? (s.facet sl).entry (entKey grp idx) = some e →
        (e.pg = 2 ^ (s.facet sl).spare → Replies (.facetEntryDelete q sl grp idx) q 0x6005 .ok (onFacet sl (fun x =>
          { x with entry := Tab.erase (s.facet sl).entry (entKey grp idx) })) s)
        ∧ (e.pg = 3 → Replies (.facetEntryDelete q sl grp idx) q 0x6005 .ok (onFacet sl (fun x => { x with
          entry := Tab.set (s.facet sl).entry (entKey grp idx) { e with pg := 2 ^ ((s.facet sl).epoch % 2) } })) s))
      ∧ ((s.facet sl).swap = none →
        Replies (.facetImageCommit q sl) q 0x6001 .ok (onFacet sl (fun x => { x with committed := true })) s)
      ∧ ((s.facet sl).swap.isSome = true → Replies (.facetImageCommit q sl) q 0x6001 (.err .busy) id s))
    ∧ (sl < 8 → (s.facet sl).committed = true →
      Replies (.facetImageWithdraw q sl false) q 0x6002 .ok (onFacet sl (fun x => { x with committed := false })) s)
    ∧ (sl < 8 → (s.facet sl).swap = none → Waits (.facetImageSwap q sl us) q 0x6003
      (onFacet sl (fun x => { x with swap := some { cmd := q, deadline := s.clk.now + usT us } })) s)
    ∧ (Acts s (facetBlk sl 0) → Acts s (facetBlk sl 1) → (s.facet sl).swap = some w →
      (w.draining = false → (s.facet sl).committed = true →
        (s.facetCheck sl = some (n, i) → exec (.facetEpochBoundary sl) s = .next (complete w.cmd 0x6003
          { code := .badArg, detail := n % 256 * 2 ^ 24 + i }
          (bump .facetReject sl (onFacet sl (fun x => { x with committed := false, swap := none }) s))))
        ∧ (s.facetCheck sl = none → exec (.facetEpochBoundary sl) s = .next (onFacet sl (fun x => { x with
          epoch := (x.epoch + 1) % 256, committed := false, swap := some { w with draining := true } }) s)))
      ∧ (w.draining = true → (s.facet sl).inFlight ((s.facet sl).epoch + 1) = 0 →
        exec (.facetEpochDrain sl) s = .next (complete w.cmd 0x6003 (.vals [.u 8 (s.facet sl).epoch])
          (onFacet sl (fun x => { x.equalise with swap := none }) s))))
    ∧ (Acts s 104 → (s.facet sl).swap = some w → w.draining = false → w.deadline ≤ s.clk.now →
      exec (.facetSwapTimeout sl) s = .next (complete w.cmd 0x6003 (.err .timeout)
        (onFacet sl (fun x => { x with swap := none }) s)))
    ∧ (sl < 8 → Replies (.facetEpochStatus q sl) q 0x6007 (.vals [.u 8 (s.facet sl).epoch
        , .u 32 ((s.facet sl).inFlight (s.facet sl).epoch), .u 32 ((s.facet sl).inFlight ((s.facet sl).epoch + 1))
        , .u 64 ((s.facet sl).pageState 0), .u 64 ((s.facet sl).pageState 1), .u 8 (s.facet sl).level]) id s
      ∧ (grp < 2 → idx < 16384 → Tab.get? (s.facet sl).entry (entKey grp idx) = some e →
        Replies (.facetEntryRead q sl grp idx) q 0x6006 (.vals [.lst 44 (FacetEntry.words e)
          , .rcd 128 (ActionRec.word ((s.facet sl).record 0 grp e.action))
          , .rcd 128 (ActionRec.word ((s.facet sl).record 1 grp e.action))]) id s))
    ∧ (s.undefinedBlk (facetBlk sl 0) = false → s.undefinedBlk (facetBlk sl 1) = false →
      s.islandUp (facetBlk sl 0) = true ∨ s.islandUp (facetBlk sl 1) = true →
      let lost := fun grp => if s.islandUp (facetBlk sl grp) then s.withheld sl * 19440 else 0
      exec (.facetThrottleSample sl tA tB) s = .next
      (bumpBy .facetThrottleClocks (2 * sl + 1) (lost 1) (bumpBy .facetThrottleClocks (2 * sl) (lost 0)
        (onFacet sl (fun x => { x with
          level := throttleNext (s.facet sl).level (max tA tB) (10 * s.throttleStart sl) }) s))))
    ∧ (∀ old ts, throttleNext old ts ts ≤ old ∧ throttleNext 0 (ts + 10) ts = 1 ∧ throttleNext 0 (ts + 300) ts = 7)

/-- O38: Uplink arrivals, the passes of the ingress pipelines, held and expired fragments (derived; R16, R17, R229,
R237, R260, R261, R263, R266, R396). Choices of the model it rests on: log 40, log 43, log 56. -/
def Obligations.IngressPassesAndFragments : Prop :=
  ∀ (s t : State) (port k sl key : Nat) (os : List Nat) (full : Bool) (p p' : Pkt) (rest : List Pkt) (f : FragHeld)
    (before fs : List FragHeld) (e : FragEnt),
    (Acts s (upBlk (port / 8)) → s.portUp port = true → (bwCount (2 * port) os.length s).ptpTerminates port os = false →
      exec (.uplinkFrameArrival port os true) s =
        .next (bump .pipeOverrun port (countSource 1 port false 0x10 (bwCount (2 * port) os.length s)))
      ∧ (let a : Pkt := { dir := 0, srcKind := 1, source := port, octets := os
                          , at_ := ltbWord64 (bwCount (2 * port) os.length s).stamp64 }
        exec (.uplinkFrameArrival port os false) s = .next (onCls (fun c => { c with
          inq := Tab.upd c.inq (2 * (port / 32)) [] fun q => q ++ [a] }) (bwCount (2 * port) os.length s).drawn)))
    ∧ (Acts s (inBlk k) → Acts s (facetBlk (k / 2) (k % 2)) → s.undefinedBlk (emBlk (k / 2)) = false →
      let took := onCls (fun c => { c with recirc := Tab.set c.recirc k rest }) s
      let first := onCls (fun c => { c with inq := Tab.set c.inq k rest }) s
      (Tab.getD s.cls.recirc k [] = p :: rest → exec (.ingressPass k) s = .next (classify k p took))
      ∧ (Tab.getD s.cls.recirc k [] = [] → Tab.getD s.cls.inq k [] = p :: rest →
        (takeIn k p first = (some p', t) → exec (.ingressPass k) s = .next (classify k p' t))
        ∧ (takeIn k p first = (none, t) → exec (.ingressPass k) s = .next t))
      ∧ (Tab.getD s.cls.recirc k [] = [] → Tab.getD s.cls.inq k [] = [] → exec (.ingressPass k) s = .next s)
      ∧ (Tab.getD s.cls.recirc k [] = p :: rest → (took.parsed p).conflict = true → p.pass2 = false →
        exec (.ingressPass k) s = .next (if took.param 0x6000 p.arrival == 1 then puntPkt k p 0x80 took
          else bump .lenConflict p.src (dropPkt p 0x12 took)))
      ∧ (Tab.getD s.cls.recirc k [] = p :: rest → (took.parsed p).conflict = false → (took.parsed p).incomplete = false →
        (p.pass2 = true → exec (.ingressPass k) s = .next (facetPass k p (took.parsed p) took))
        ∧ ((took.parsed p).fragLater = true → p.pass2 = false →
          Tab.get? (took.fragTab (k / 2)) (took.parsed p).fragKey = some e →
          let used := { e with used := took.clk.now }
          let s1 := onCls (fun c => { c with
            frag := Tab.upd c.frag (k / 2) [] fun t => Tab.set t (took.parsed p).fragKey used }) took
          exec (.ingressPass k) s = .next (conclude k { p with hash := (took.parsed p).bucket }
            { e.act with destKind := e.destKind, dest := e.dest } s1))))
    ∧ (s.undefinedBlk (sliceBlk sl 0) = false → s.undefinedBlk (sliceBlk sl 2) = false →
      ((∀ f ∈ Tab.getD s.cls.held sl [], s.clk.now < f.until_) → exec (.fragHoldTimeout sl) s = .next s)
      ∧ (Tab.getD s.cls.held sl [] = before ++ f :: fs → (∀ x ∈ before, s.clk.now < x.until_) → f.until_ ≤ s.clk.now →
        f.pkt.chain = none → exec (.fragHoldTimeout sl) s =
          .next (noFirst (2 * sl + f.pkt.dir) f.pkt (onCls (fun c => { c with held := Tab.set c.held sl (before ++ fs) }) s)))
      ∧ (Tab.get? (s.fragTab sl) key = some e →
        (s.clk.now < e.used + msT (s.paramN 0x6031 0) → exec (.fragEntryExpiry sl key) s = .next s)
        ∧ (e.used + msT (s.paramN 0x6031 0) ≤ s.clk.now → exec (.fragEntryExpiry sl key) s =
          .next (onCls (fun c => { c with frag := Tab.upd c.frag sl [] fun t => Tab.erase t key }) s))))

/-- O39: The cascade: enabling, training, frames, keys, symbols, results and timeouts (derived; R251, R253, R254,
R255, R256, R257, R268, R394). Choices of the model it rests on: log 35, log 44, log 106, log 132. -/
def Obligations.CascadeSearchesAndTraining : Prop :=
  ∀ (s : State) (q : Req) (sl len pos slot sym lvl tag i link seq tm : Nat) (part : List Nat) (w : CascWait) (o : CascOwn)
    (r : CascadeKey) (v : CascadeResult) (a : ActionRec) (res ok : Bool) (line oks : List Bool) (rs : List CascadeKey) (vs : List CascadeResult),
    (1 ≤ len → len ≤ 4 → pos < len → part.length = 16 → (∀ x ∈ part, x ≤ 255) → s.ltbSet = true →
      linksNeeded len pos ≤ s.ixrGroups.length → Replies (.cascadeEnable q len pos part) q 0x6008 .ok (fun u =>
        let v := part.zipIdx.foldl (fun s e => setParam 0x6022 e.2 e.1 s) (setParam 0x6021 0 pos (setParam 0x6020 0 len u))
        if 1 < len then trainAll v else onCasc (fun c => { c with trained := [], trainEnd := [], rxEnd := [] }) v) s)
    ∧ (s.ltbSet = false → len = 0 ∨ 4 < len ∨ len ≤ pos → Replies (.cascadeEnable q len pos part) q 0x6008 (.err .badArg) id s)
    ∧ (s.ltbSet = false → 1 ≤ len → len ≤ 4 → pos < len → part.length = 16 → (∀ x ∈ part, x ≤ 255) →
      Replies (.cascadeEnable q len pos part) q 0x6008 (.err .badState) id s)
    ∧ (s.undefinedBlk (sliceBlk sl 0) = false →
      (Tab.get? s.cls.casc.rxEnd sl = some tm → tm ≤ s.clk.now →
        let last := s.cascPos + 1 == s.cascLen
        let seen := onCasc (fun c => { c with rx := Tab.set c.rx sl (if last then {} else s.lineTrained sl line) }) s
        (64 ≤ (s.lineTrained sl line).run ∨ last = true → exec (.matchTrainingEnd sl line) s = .next (onCasc
          (fun c => { c with trained := Tab.set c.trained sl true, rxEnd := Tab.erase c.rxEnd sl }) seen))
        ∧ ((s.lineTrained sl line).run < 64 → last = false → exec (.matchTrainingEnd sl line) s = .next (onCasc
          (fun c => { c with rxEnd := Tab.set c.rxEnd sl (s.clk.now + trainTicks) }) seen)))
      ∧ (Tab.get? s.cls.casc.rxEnd sl = some tm → s.clk.now < tm → exec (.matchTrainingEnd sl line) s = .next s)
      ∧ exec (.cascadeFrameClose sl res) s = .next (if res then closeResults sl s else closeKeys sl s)
      ∧ (∀ fr u, Tab.getD s.cls.casc.keyOpen sl [] = fr → fr ≠ [] → s.downLink = some u → s.linkUp (some u) = true →
        exec (.cascadeFrameClose sl false) s = .next (onCasc (fun c => { c with keySent := c.keySent ++ [fr] })
          (ixrSeq u 3 ((fr.map fun r => keyRecLen r.width).foldl (· + ·) 0)
            (onCasc (fun c => { c with keyOpen := Tab.erase c.keyOpen sl }) s)).2))
      ∧ (∀ fr u, Tab.getD s.cls.casc.resOpen sl [] = fr → fr ≠ [] → s.upLink = some u → s.linkUp (some u) = true →
        exec (.cascadeFrameClose sl true) s = .next (onCasc (fun c => { c with resSent := c.resSent ++ [fr] })
          (ixrSeq u 4 (32 * fr.length) (onCasc (fun c => { c with resOpen := Tab.erase c.resOpen sl }) s)).2)))
    ∧ (s.undefinedBlk (sliceBlk sl 0) = false → s.undefinedBlk (sliceBlk sl 2) = false →
      (s.cascading = true → s.cascPos = 0 → s.cascLocked sl = true → sym < 16 →
        s.cls.casc.waits.find? (fun e => e.1 / 2 ^ 32 == sl && e.2.slot % slotCycle == s.symbolSlot sl slot && e.2.final.isNone)
          = some (i, w) →
        let k := 2 * sl + w.pkt.dir
        let freed := dropWait sl (i % 2 ^ 32) s
        (sym = 15 ∨ w.own = 15 → exec (.matchSymbol sl slot sym) s = .next (incomplete k w.pkt w.act 0x15 (bump .cascadeIncomplete (k / 2) freed)))
        ∧ (sym = 0 → w.own = 0 → exec (.matchSymbol sl slot sym) s = .next (forward k w.pkt (s.parsed w.pkt) w.act freed))
        ∧ (0 < w.own → w.own ≠ 15 → sym ≤ w.own → sym ≠ 15 →
          exec (.matchSymbol sl slot sym) s = .next (applyWinner k w.pkt (w.ownRec.getD ActionRec.zero) freed))
        ∧ (w.own < sym → sym ≠ 15 → w.res = none →
          let v := { w with final := some sym, until_ := s.clk.now + usT (s.paramN 0x6024 0) }
          exec (.matchSymbol sl slot sym) s = .next (onCasc (fun c => { c with
            waits := Tab.set c.waits (waitKey sl (i % 2 ^ 32)) v }) s))
        ∧ (w.own < sym → sym ≠ 15 → w.res = some (lvl, a) →
          (lvl = sym → exec (.matchSymbol sl slot sym) s = .next (applyWinner k w.pkt a freed))
          ∧ (lvl ≠ sym → exec (.matchSymbol sl slot sym) s = .next (incomplete k w.pkt w.act 0x16
            (cascBad (bump .cascadeMismatch sl freed))))))
      ∧ (s.cascading = true → s.cascPos = 0 → s.cascLocked sl = false →
        s.cls.casc.waits.find? (fun e => e.1 / 2 ^ 32 == sl && e.2.slot % slotCycle == s.symbolSlot sl slot && e.2.final.isNone)
          = some (i, w) →
        exec (.matchSymbol sl slot sym) s = .next (incomplete (2 * sl + w.pkt.dir) w.pkt w.act 0x15
          (bump .cascadeIncomplete ((2 * sl + w.pkt.dir) / 2) (dropWait sl (i % 2 ^ 32) s))))
      ∧ (s.cascading = true → s.cascPos ≠ 0 → let at_ := s.symbolSlot sl slot
        ∃ t, exec (.matchSymbol sl slot sym) s = .next t
        ∧ (s.cascTraining sl = true → Tab.get? t.cls.casc.out sl = some (at_ % slotCycle, at_ % slotCycle % 16))
        ∧ (s.cascTraining sl = false → s.cascLocked sl = true → sym < 16 →
          Tab.get? s.cls.casc.own (ownKey sl (at_ % slotCycle)) = some o → o.level ≤ 15 →
          Tab.get? t.cls.casc.out sl = some (at_ % slotCycle, max o.level (if s.cascPos + 1 == s.cascLen then 0 else sym)))
        ∧ (s.cascTraining sl = false → Tab.get? s.cls.casc.own (ownKey sl (at_ % slotCycle)) = none → s.cascPos + 1 = s.cascLen →
          Tab.get? t.cls.casc.out sl = some (at_ % slotCycle, 0)))
      ∧ (Tab.get? s.cls.casc.waits (waitKey sl tag) = some w →
        (w.final.isSome = true → w.until_ ≤ s.clk.now → exec (.cascadeTimeout sl tag) s = .next (incomplete (2 * sl + w.pkt.dir)
          w.pkt w.act 0x16 (cascBad (bump .cascadeTimeout sl (onCasc (fun c => { c with
            timedOut := c.timedOut ++ [waitKey sl tag] }) (dropWait sl tag s))))))
        ∧ (w.final = none → exec (.cascadeTimeout sl tag) s = .next s)))
    ∧ (Acts s (ixrBlk link) → let t := (ixrArrive link 3 seq s).2
      (t.cascading = false ∨ t.cascPos = 0 → exec (.cascadeKeyReceive link seq rs oks) s = .next t)
      ∧ (t.cascading = true → t.cascPos ≠ 0 → exec (.cascadeKeyReceive link seq rs oks) s = .next
        ((rs.zip oks).foldl (fun s e => takeKey e.1 e.2 s) (pruneOwn t))))
    ∧ (s.downLink = none → r.slice = sl → let m := s.ownMatch sl (keyDir r.width r.key) r.width r.key
      let o := { tag := r.tag, level := if ok && s.downReach then m.1 else 15, index := m.2.1, act := m.2.2 : CascOwn }
      takeKey r ok s = onCasc (fun c => { c with own := Tab.set c.own (ownKey sl (r.slot % slotCycle)) o }) s)
    ∧ (Acts s (ixrBlk link) → let t := (ixrArrive link 4 seq s).2
      (t.cascading = false → exec (.cascadeResultReceive link seq vs) s = .next t)
      ∧ (t.cascading = true → exec (.cascadeResultReceive link seq vs) s = .next (vs.foldl (fun s r => takeRecord r s) t)))
    ∧ (s.cascPos = 0 →
      (Tab.get? s.cls.casc.waits (waitKey v.slice v.tag) = none →
        (s.cls.casc.timedOut.contains (waitKey v.slice v.tag) = true → takeRecord v s = bump .cascadeLateResult v.slice
          (onCasc (fun c => { c with timedOut := c.timedOut.filter (· != waitKey v.slice v.tag) }) s))
        ∧ (s.cls.casc.timedOut.contains (waitKey v.slice v.tag) = false → takeRecord v s = s))
      ∧ (Tab.get? s.cls.casc.waits (waitKey v.slice v.tag) = some w →
        (w.final = none → let u := { w with res := some (v.level, v.action) }
          takeRecord v s = onCasc (fun c => { c with waits := Tab.set c.waits (waitKey v.slice v.tag) u }) s)
        ∧ (w.final = some v.level →
          takeRecord v s = applyWinner (2 * v.slice + w.pkt.dir) w.pkt v.action (dropWait v.slice v.tag s))))

/-- O40: Aggregation groups: create, members up and down, member set, destroy, status, statistics, the reorder timeout
(derived; R262, R263, R265, R267, R268). Choices of the model it rests on: log 43. -/
def Obligations.AggregationGroups : Prop :=
  ∀ (s : State) (q : Req) (grp port b m : Nat) (ports : List Nat) (l : Lag),
    (grp < 64 → s.lagOf grp = none → s.lagPortsOk grp ports = true → Replies (.lagCreate q grp ports) q 0x6009 .ok
      (fun u => { u with cls := { u.cls with lag := Tab.set u.cls.lag grp (s.freshLag ports) } }) s)
    ∧ (s.lagOf grp = some l →
      (s.namedByAction 1 grp (fun _ _ _ => true) = false → s.namedByEntry 1 grp = false →
        Replies (.lagDestroy q grp) q 0x600B .ok (fun u => { u with cls := { u.cls with lag := Tab.erase u.cls.lag grp } }) s)
      ∧ (s.lagPortsOk grp ports = true → (∀ p ∈ l.ports, p ∈ ports) → (s.freshLag ports).roundRobin = l.roundRobin →
        Replies (.lagMemberSet q grp ports) q 0x600A .ok (fun u => ((s.freshLag ports).up.filter fun p => !l.up.contains p).foldl
          (fun s p => lagUp grp p s) (onLag grp (fun l => { l with
            ports := (s.freshLag ports).ports, out := l.out.filter ports.contains }) u)) s)
      ∧ Replies (.lagStatus q grp) q 0x600C (.vals [.u 64 (flag (!l.roundRobin))
        , .lst 1 (l.ports ++ List.replicate (16 - l.ports.length) 255)
        , .lst 1 ((List.range 256).map fun b => (l.member b).getD 255)]) id s
      ∧ (Acts s (sliceBlk (port / 32) 3) →
        (port ∈ l.up → exec (.lagMemberDown grp port) s = .next (bumpBy .lagBucketMoves grp (l.pass port).2
          (dropAssigned grp port (onLag grp (fun _ => (l.pass port).1) s))))
        ∧ (port ∉ l.up → exec (.lagMemberDown grp port) s = .next s)
        ∧ (port ∉ l.up → port ∈ l.ports → exec (.lagMemberUp grp port) s = .next (bumpBy .lagBucketMoves grp (l.join port).2
          (onLag grp (fun _ => (l.join port).1) s))))
      ∧ (Acts s (sliceBlk (l.ports.headD 0 / 32) 3) →
        let waiting := s.sch.tx.flatMap fun e => e.2.filterMap fun f => match f.lag with
          | some (g, n) => if g == grp && decide (l.started < n) && decide (f.since + usT (s.paramN 0x6040 0) ≤ s.clk.now)
            then some n else none
          | none => none
        (waiting = [] → exec (.lagReorderTimeout grp) s = .next s)
        ∧ (∀ n ns, waiting = n :: ns → s.lagBlocker grp l.started = none → exec (.lagReorderTimeout grp) s =
          .next (bump .lagRrSkip grp (onLag grp (fun l => { l with started := ns.foldl min n }) s)))
        ∧ (∀ n ns p, waiting = n :: ns → s.lagBlocker grp l.started = some p → exec (.lagReorderTimeout grp) s =
          .next (bump .lagRrSkip grp (onLag grp (fun l => { l with started := ns.foldl min n })
            (onLag grp (fun l => { l with out := if l.out.contains p then l.out else l.out ++ [p] }) s))))))
    ∧ (grp < 64 → Replies (.classStats q 3 grp) q 0x600D (.vals ([Ctr.lagRrSkip, .lagNoMember, .lagBucketMoves].map fun x =>
      RVal.u 64 (s.count x grp))) id s)
    ∧ (port < 256 → Replies (.classStats q 0 port) q 0x600D (.vals ([Ctr.parseIncomplete, .lenConflict, .classMiss].map fun x =>
      RVal.u 64 (s.count x (srcIdx 1 port)))) id s)
    ∧ (256 ≤ port → Replies (.classStats q 0 port) q 0x600D (.err .badArg) id s)
    ∧ ((l.pass port).1.up = l.up.filter (· != port))
    ∧ ((l.pass port).1.member b = some m → l.member b ≠ some port → Tab.wf l.bucket = true → l.member b = some m)
    ∧ ((l.pass port).1.member b = some m → l.member b = some port → Tab.wf l.bucket = true → m ∈ l.up ∧ m ≠ port)

/-- O41: Exact-match table: insert, delete, search, walks, flush, statistics (derived; R270, R272, R273, R279, R280,
R281, R290, R291, R292, R294). Choices of the model it rests on: log 30, log 45. -/
def Obligations.ExactMatchTableCommands : Prop :=
  ∀ (s : State) (q : Req) (a : TableArgs) (p w n sl kind key own ownK : Nat) (old e : EmEnt) (x : EmWalk) (k? : Option Nat)
    (o? : Option (Nat × Nat)) (bd : Option Nat) (st : Bool),
    let await := fun (op : Nat) (vals : List Nat) (u : State) => onEm (fun m => { m with
      waits := m.waits ++ [{ seq := m.seq, cmd := q, op := op, vals := vals }] }) u
    (tableArgsOk a = true →
      (findKey s.em.tab (s.emBucket a.kind a.key) a.kind a.key = some (p, old) → old.learned = false →
        (emPut p { entryOf a with age := old.age } s).emComplete (s.em.seq + 1) = false →
        Waits (.tableInsert q a) q 0x7000 (fun u => await 0x7000 [p] (emPut p { entryOf a with age := old.age } u)) s)
      ∧ (findKey s.em.tab (s.emBucket a.kind a.key) a.kind a.key = none →
        (s.freeWay (s.emBucket a.kind a.key) = some p → (emPut p (entryOf a) s).emComplete (s.em.seq + 1) = false →
          Waits (.tableInsert q a) q 0x7000 (fun u => await 0x7000 [p] (emPut p (entryOf a) u)) s)
        ∧ (s.freeWay (s.emBucket a.kind a.key) = none → a.isStatic = false → s.freeOvf = some p →
          (emPut p (entryOf a) s).emComplete (s.em.seq + 1) = false →
          Waits (.tableInsert q a) q 0x7000 (fun u => await 0x7000 [p] (emPut p (entryOf a) u)) s)
        ∧ (s.freeWay (s.emBucket a.kind a.key) = none → s.freeOvf = none →
          Replies (.tableInsert q a) q 0x7000 (.err .limit) (bump .tableFull 0) s)))
    ∧ (findKey s.em.tab (s.emBucket kind key) kind key = some (p, e) →
      (emDelete p (openCmd q 0x7001 s)).emComplete (emDelete p (openCmd q 0x7001 s)).em.seq = false →
      Waits (.tableDelete q kind key) q 0x7001 (fun u => await 0x7001 [] (emDelete p u)) s)
    ∧ (sl < 8 → findKey (s.emCopy sl) (s.emBucket kind key) kind key = some (p, e) →
      Replies (.tableSearch q kind key sl) q 0x7002 (.vals [.rcd 256 e.word, .u 64 (flag (s.hitOr p)), .u 64 p]) id s)
    ∧ (lowestFree (Tab.keys s.em.walk) 0 4 = some w → Replies (.tableWalkOpen q k? o?) q 0x7003 (.vals [.u 64 w])
      (fun u => onEm (fun m => { m with walk := Tab.set m.walk w {
        kindF := k?, ownerF := o?, until_ := s.clk.now + secT (s.paramN 0x7031 0) } }) u) s)
    ∧ (Tab.get? s.em.walk w = some x → n ≤ 256 →
      let left := (s.emCopy 0).filter fun e => decide (x.cursor ≤ e.1) && x.takes e.2
      (left.length ≤ n → Replies (.tableNext q w n) q 0x7004
        { code := .ended, res := [.lst 40 (left.map fun e => e.2.word + e.1 * 2 ^ 256)] } (closeWalk w) s)
      ∧ (n < left.length → Replies (.tableNext q w n) q 0x7004
        (.vals [.lst 40 ((left.take n).map fun e => e.2.word + e.1 * 2 ^ 256)])
        (fun u => onEm (fun m => { m with walk := Tab.set m.walk w { x with
          cursor := (((left.take n).getLast?).map (·.1 + 1)).getD x.cursor
          until_ := s.clk.now + secT (s.paramN 0x7031 0) } }) u) s))
    ∧ Replies (.tableWalkClose q w) q 0x7005 .ok (closeWalk w) s
    ∧ (Acts s 104 → Tab.get? s.em.walk w = some x →
      (x.until_ ≤ s.clk.now → exec (.tableWalkTimeout w) s = .next (closeWalk w s))
      ∧ (s.clk.now < x.until_ → exec (.tableWalkTimeout w) s = .next s))
    ∧ (s.em.flushing = none → let gone := fun (u : State) => deleteAll (flushes ownK own bd st) s.em.tab.length u
      (gone (openCmd q 0x7006 s)).2.emComplete (gone (openCmd q 0x7006 s)).2.em.seq = false →
      Waits (.tableFlushByPort q ownK own bd st) q 0x7006 (fun u => let v := (gone u).2
        onEm (fun m => { m with flushing := some v.em.seq, waits := m.waits ++ [{
          seq := m.seq, cmd := q, op := 0x7006, vals := [(gone u).1] }] }) v) s)
    ∧ (s.em.flushing.isSome = true → Replies (.tableFlushByPort q ownK own bd st) q 0x7006 (.err .busy) id s)
    ∧ Replies (.tableStats q false sl) q 0x7007 (.vals ([Ctr.emLookups, .emHits, .emMisses, .emParity, .emRefillMiss].map
        (fun c => RVal.u 64 (s.count c sl))
      ++ [Ctr.tableFull, .learnFull, .ovfRelocate, .ovfPromote, .promoteDefer].map (fun c => RVal.u 64 (s.count c 0))
      ++ [.u 64 (s.count .learnQueueFull sl), .u 64 (s.count .ageOut 0), .u 64 (s.count .ageRestore 0)])) id s

/-- O42: Exact-match events: writes applied, learning, the sweep, conditional invalidation, parity repair, lookups
(derived; R270, R282, R283, R284, R285, R287, R288, R289). Choices of the model it rests on: log 30, log 45, log 113.
-/
def Obligations.LearningAgeingAndParity : Prop :=
  ∀ (s : State) (sl pos p k c key : Nat) (op : EmOp) (e : EmEnt) (n : LearnNote) (rest : List LearnNote) (meets : Bool),
    (Acts s (emBlk sl) → s.em.refilling.contains sl = false →
      (Tab.get? s.em.writes (Tab.getD s.em.applied sl 0 + 1) = some op → exec (.tableWriteApply sl) s =
        .next (emSettle (onEm (fun m => { m with
          copy := Tab.upd m.copy sl [] fun t => EmOp.apply sl t op
          applied := Tab.set m.applied sl (Tab.getD s.em.applied sl 0 + 1) }) s)))
      ∧ (Tab.get? s.em.writes (Tab.getD s.em.applied sl 0 + 1) = none → exec (.tableWriteApply sl) s = .next s))
    ∧ (Acts s 104 →
      ((∀ k < 8, Tab.getD s.em.learnQ k [] = []) → exec .learnTake s = .next s)
      ∧ (s.em.turn = k → k < 8 → Tab.getD s.em.learnQ k [] = n :: rest →
        exec .learnTake s = .next (learn n (onEm (fun m => { m with learnQ := Tab.set m.learnQ k rest, turn := (k + 1) % 8 }) s)))
      ∧ (Tab.get? s.em.tab pos = some e →
        (s.param 0x7030 0 = 0 ∨ Tab.get? s.em.swept pos = some s.sweepNo → exec (.agerSweep pos) s = .next s)
        ∧ (s.param 0x7030 0 ≠ 0 → Tab.get? s.em.swept pos ≠ some s.sweepNo →
          let v := onEm (fun m => { m with swept := Tab.set m.swept pos s.sweepNo }) s
          (e.isStatic = true ∨ e.retiring = true → exec (.agerSweep pos) s = .next v)
          ∧ (e.isStatic = false → e.retiring = false →
            (s.hitOr pos = true → exec (.agerSweep pos) s = .next (setAge pos 0 true false v))
            ∧ (s.hitOr pos = false → e.age < 3 → exec (.agerSweep pos) s = .next (setAge pos (e.age + 1) false false v))
            ∧ (s.hitOr pos = false → 3 ≤ e.age → exec (.agerSweep pos) s = .next (onEm (fun m => { m with
              retire := Tab.set m.retire pos m.seq }) (setAge pos 3 false true v)))))
        ∧ (e.retiring = false ∨ s.emComplete (s.retireSeq pos) = false → exec (.conditionalInvalidation pos meets) s = .next s)
        ∧ (e.retiring = true → s.emComplete (s.retireSeq pos) = true →
          let u := if meets then meetHit pos s else s
          let keepHit := fun (t : Tab EmEnt) => if ((Tab.get? t pos).map (·.hit)).getD false then t else Tab.erase t pos
          let v := onEm (fun m => { m with retire := Tab.erase m.retire pos, copy := m.copy.map fun c => (c.1, keepHit c.2) }) u
          (u.hitOr pos = true → exec (.conditionalInvalidation pos meets) s = .next (bump .ageRestore 0
            (setAge pos 0 true false (emWrite (.back pos { e with hit := false }) v))))
          ∧ (u.hitOr pos = false → exec (.conditionalInvalidation pos meets) s = .next (bump .ageOut 0 (emDelete pos v))))))
    ∧ (findKey s.em.tab (s.emBucket 0 n.key) 0 n.key = none →
      (s.ownerLimit n.srcKind n.source < Tab.getD s.em.owners (ownerIdx n.srcKind n.source) 0 + 1 → learn n s = learnRefused n s)
      ∧ (Tab.getD s.em.owners (ownerIdx n.srcKind n.source) 0 + 1 ≤ s.ownerLimit n.srcKind n.source →
        s.learnedTotal + 1 ≤ s.paramN 0x7026 0 → s.freeWay (s.emBucket 0 n.key) = some p →
        (learn n s).count .learnNew (ownerIdx n.srcKind n.source) = (s.count .learnNew (ownerIdx n.srcKind n.source) + 1) % 2 ^ 64
        ∧ Tab.getD (learn n s).em.owners (ownerIdx n.srcKind n.source) 0 = Tab.getD s.em.owners (ownerIdx n.srcKind n.source) 0 + 1))
    ∧ (Acts s (emBlk sl) → let t := raiseFault (emBlk sl) 8 (if ovfBase ≤ pos then 2 ^ 20 + (pos - ovfBase) else pos) (bump .emParity sl s)
      let v := onEm (fun m => { m with copy := Tab.upd m.copy sl [] fun t => Tab.erase t pos }) t
      let found := ((List.range 8).filter fun k => k != sl && v.islandUp (emBlk k)).findSome? fun k => Tab.get? (v.emAhead k) pos
      (found = some e → exec (.parityRepair sl pos false) s = .next (emWrite (.repair sl pos { e with hit := false }) v))
      ∧ (found = none → exec (.parityRepair sl pos false) s = .next v))
    ∧ (findKey (s.emCopy sl) (s.emBucket k key) k key = some (p, e) → (emLookup sl k key s).1 = some e
      ∧ (emLookup sl k key s).2.count .emLookups sl = (s.count .emLookups sl + 1) % 2 ^ 64
      ∧ (c ≠ sl → (emLookup sl k key s).2.emCopy c = s.emCopy c))

/-- O43: Gather pool and deep buffer: status, quotas, profiles, cell and page reads, freed cells (derived; R295, R297,
R298, R302, R304, R307, R313, R315, R326). Choices of the model it rests on: log 46, log 48. -/
def Obligations.PoolAndDeepBufferCommands : Prop :=
  ∀ (s : State) (q : Req) (r res lim c n stack k page : Nat) (p : BufProfile) (x : Cell) (ch : Chain) (y : Queue),
    (Replies (.poolStatus q) q 0x8000 (.vals [.u 20 (917504 - s.pool.cells.length)
      , .lst 4 ((List.range 24).map fun r => Tab.getD s.pool.held r 0), .u 1 (s.paramN 0x8000 0), .u 1 s.pool.modeInForce
      , .lst 8 ((List.range 8).map fun sl => (s.pool.cells.filter fun e => e.2.st == 2 && e.2.owner == 2 * sl + 1).length)]) id s)
    ∧ (r < 24 → res % 32 = 0 → lim ≤ 917504 →
      (((List.range 24).filter (· != r)).map fun i => s.paramN 0x8010 i).foldl (· + ·) 0 + res ≤ 786432 →
      Replies (.poolQuotaSet q r res lim) q 0x8001 .ok (fun u => setParam 0x8011 r lim (setParam 0x8010 r res u)) s)
    ∧ (c < 917504 →
      (Tab.get? s.pool.cells c = some x → x.head = true → s.chain c = some ch →
        Replies (.poolCellRead q c) q 0x8002 (.vals [.rcd 40 (fields [(20, x.next), (1, flag x.last), (1, flag x.head)
          , (2, x.st), (6, x.holder), (5, x.owner), (5, 0)]), .rcd 128 ch.hdr.word]) id s)
      ∧ (Tab.get? s.pool.cells c = none → s.chain c = none →
        Replies (.poolCellRead q c) q 0x8002 (.vals [.rcd 40 0]) id s))
    ∧ (n < 16 → profileOk p = true → Replies (.dbufProfileSet q n p) q 0x8003 .ok
      (fun u => ((u.sch.q.filter fun e => e.2.a.bufProfile == n).map (·.1)).foldl (fun s k => refill k s)
        (onPool (fun x => { x with prof := Tab.set x.prof n p }) u)) s)
    ∧ (stack < 4 → Replies (.dbufStatus q stack) q 0x8004 (.vals [.u 23 (s.freePages stack), .u 64 s.freeVal
      , .u 64 s.drawn.freeVal]) (fun u => u.drawn.drawn) s)
    ∧ (s.queue k = some y → Replies (.queueBufferStatus q k) q 0x8005 (.vals [.u 64 (flag y.spill), .u 64 (s.descCells y.head)
      , .u 64 ((y.deep.map fun p => ((Tab.get? s.pool.pages p).map (·.slots)).getD 0).foldl (· + ·) 0), .u 64 y.tailCells
      , .u 64 y.pages.length, .u 24 ((y.deep.head?).getD 0xFFFFFF)]) id s)
    ∧ (page < 4 * s.stackPages → Replies (.dbufPageRead q page) q 0x8006
      (.vals [.rcd 256 (((Tab.get? s.pool.pages page).map (·.word)).getD 0)]) id s)
    ∧ (917504 ≤ c → exec (.cellFree c) s = .next s)
    ∧ (c < 917504 → Acts s (poolBlk c) →
      (Tab.get? s.pool.cells c = none → ∃ t, exec (.cellFree c) s = .next t ∧ t = raiseFault (poolBlk c) 8 c s ∧ t.pool = s.pool)
      ∧ (Tab.get? s.pool.cells c = some x → s.pool.freeing.contains c = true → Tab.wf s.pool.cells = true →
        ∃ t, exec (.cellFree c) s = .next t ∧ Tab.get? t.pool.cells c = none
        ∧ t.pool.freeing = s.pool.freeing.erase c ∧ Tab.getD t.pool.held x.owner 0 = Tab.getD s.pool.held x.owner 0 - 1
        ∧ (∀ d, d ≠ c → Tab.get? t.pool.cells d = Tab.get? s.pool.cells d)
        ∧ t.count .cellsFreed x.owner = (s.count .cellsFreed x.owner + 1) % 2 ^ 64)
      ∧ (Tab.get? s.pool.cells c = some x → s.pool.freeing.contains c = false → exec (.cellFree c) s = .next s))

/-- O44: Descriptor arrival, enqueueing by profile, page flush, write and read completion (derived; R299, R300, R314,
R315, R316, R320, R321, R317, R301). Choices of the model it rests on: log 47, log 91. -/
def Obligations.EgressArrivalAndDeepPages : Prop :=
  ∀ (s : State) (k key op t0 p err : Nat) (d : Desc) (rest : List Desc) (x : Queue) (c : Chain) (g : Page) (ps : List Nat)
    (lost : List Bool),
    let b := sliceBlk (k / 2) (2 * (k % 2) + 1)
    let took := { s with
      cls := { s.cls with xbar := Tab.set s.cls.xbar k rest } }
    (s.undefinedBlk b = false → Tab.getD s.cls.xbar k [] = d :: rest →
      (s.islandUp b = false → exec (.descriptorArrival k) s = .next (dropChain .dropBlk b 0x28 d.cell took))
      ∧ (s.islandUp b = true → d.lag = none →
        exec (.descriptorArrival k) s = .next (arriveAt k (queueKey d.dir d.queue) d (handOver d.cell (16 + k) 1 took))))
    ∧ (s.undefinedBlk b = false → Tab.getD s.cls.xbar k [] = [] → exec (.descriptorArrival k) s = .next s)
    ∧ (s.queue key = some x → s.chain d.cell = some c → x.spill = false → s.maySpill key x.a = false →
      (s.onDie x + c.cells.length ≤ (s.bufProf x.a.bufProfile).ondieMax →
        enqueue key d s = onQueue key (fun q => { q with head := q.head ++ [d] }) s)
      ∧ ((s.bufProf x.a.bufProfile).ondieMax < s.onDie x + c.cells.length →
        enqueue key d s = bumpBy .dbufFull (stackOf key) 0 (dropChain .dropQueue key 0x24 d.cell s)))
    ∧ (s.queue key = none → arriveAt k key d s = dropChain .dropPipe k 0x33 d.cell s)
    ∧ (Acts s (hbmBlk (stackOf key)) → s.queue key = some x →
      (x.openPg = some (op, t0) →
        (t0 + nsTicks (s.paramN 0x8041 0) ≤ s.clk.now → exec (.dbufFlushTimeout key) s = .next (closePage key s))
        ∧ (s.clk.now < t0 + nsTicks (s.paramN 0x8041 0) → exec (.dbufFlushTimeout key) s = .next s))
      ∧ (x.writing = [] → exec (.dbufPageWriteDone key) s = .next s)
      ∧ (s.nextWrite (stackOf key) ≠ some key → exec (.dbufPageWriteDone key) s = .next s)
      ∧ (s.nextWrite (stackOf key) = some key → x.writing = p :: ps → x.staged = [] → Tab.get? s.pool.pages p = some g → 16 ≤ g.slots →
        exec (.dbufPageWriteDone key) s = .next (refill key (startWrites key (bump .dbufPagesWritten (stackOf key)
          (onPage p (fun g => { g with written := true })
            (onQueue key (fun q => { q with writing := ps, deep := q.deep ++ [p], staged := [] })
              (onPool (fun x => { x with wrOrder := x.wrOrder.erase key }) (writeSpoils key p x s))))))))
      ∧ (s.nextRead (stackOf key) ≠ some key → exec (.dbufPageReadDone key err lost) s = .next s)
      ∧ (x.reading = false → exec (.dbufPageReadDone key err lost) s = .next s)
      ∧ (s.nextRead (stackOf key) = some key → x.deep = p :: ps → x.reading = true → Tab.get? s.pool.pages p = some g → g.pkts = [] →
        x.partRd = none → err = 0 → g.seq = x.nextSeq → g.seq < 2 ^ 32 →
        exec (.dbufPageReadDone key err lost) s = .next (refill key (settleMode key (bump .dbufPagesRead (stackOf key)
          (freePagesOf [p] (onQueue key (fun q => { q with
            deep := ps, reading := false, partRd := none, nextSeq := (g.seq + 1) % 2 ^ 32 }) (leaveRead key s)))))))
      ∧ (s.nextRead (stackOf key) = some key → x.deep = p :: ps → x.reading = true → Tab.get? s.pool.pages p = some g → err = 2 → ∃ t,
        exec (.dbufPageReadDone key err lost) s = .next t
        ∧ ∀ y, t.queue key = some y → y.deep = [] ∧ y.reading = false ∧ y.partRd = none))

/-- O45: Upstream frames: which key, hold or quarantine, verdicts, release in order, reassembly timeout (derived;
R309, R356, R357, R359, R362, R370, R371, R372, R365, R366). Choices of the model it rests on: log 52, log 55, log
136. -/
def Obligations.UpstreamDecryptionAndReassembly : Prop :=
  ∀ (s : State) (sl g h gem ki t0 n : Nat) (x : HoldItem) (rest : List HoldItem) (r : Reasm),
    (s.param 0xA020 gem = 1 → ((s.keyOnu h).isRec = false ∨ s.param 0xA000 (g / 8) ≠ 0) → s.frameKey g h gem 0 = .error 0x43)
    ∧ (s.param 0xA020 gem = 1 → (s.keyOnu h).isRec = true → s.param 0xA000 (g / 8) = 0 → s.frameKey g h gem ki = .error 0x44)
    ∧ (s.param 0xA020 gem ≠ 1 → s.frameKey g h gem 0 = .ok none)
    ∧ (s.param 0xA020 gem ≠ 1 → ki ≠ 0 → (∀ k, keySlotOf ki = some k → slotAccepts (s.keyCtx h 1 k).st = false) →
      s.frameKey g h gem ki = .error 0x41)
    ∧ (Acts s (inBlk (upPipe sl)) →
      (s.hold sl = x :: rest →
        (x.verdict = none →
          exec (.decryptRelease sl) s = .next s
          ∧ (n < 48 → exec (.decryptVerify sl n) s = .next s)
          ∧ (48 ≤ n → x.good = true →
            (∀ k, x.slot = some k → (s.keyCtx x.h 1 k).st = .ready → exec (.decryptVerify sl n) s =
              .next (keySwitch x.h 1 k (onHold sl (fun _ => { x with verdict := some true } :: rest) s)))
            ∧ (x.slot = none → exec (.decryptVerify sl n) s =
              .next (onHold sl (fun _ => { x with verdict := some true } :: rest) s)))
          ∧ (48 ≤ n → x.good = false → exec (.decryptVerify sl n) s =
            .next (authFailed x.h (onHold sl (fun _ => { x with verdict := some false } :: rest) s))))
        ∧ (x.verdict = some true → x.last = true → Tab.get? s.cip.reasm (sduKey x.h x.gem) = none →
          exec (.decryptRelease sl) s = .next (releaseSdu sl x.h x.g x.gem x.at_ x.octets x.chain (onHold sl (fun _ => rest) s)))
        ∧ (x.verdict = some false → x.last = true → Tab.get? s.cip.reasm (sduKey x.h x.gem) = none → x.chain = none →
          ∃ t, exec (.decryptRelease sl) s = .next t
          ∧ t.count .dropOnu (256 * x.h + 0x40) = (s.count .dropOnu (256 * x.h + 0x40) + 1) % 2 ^ 64))
      ∧ (s.hold sl = [] → exec (.decryptRelease sl) s = .next s ∧ exec (.decryptVerify sl n) s = .next s)
      ∧ (Tab.get? s.cip.reasm (sduKey h gem) = some r →
        (r.bad = true ∨ s.clk.now < r.till → exec (.reasmTimeout sl h gem) s = .next s)
        ∧ (r.till ≤ s.clk.now → r.bad = false → exec (.reasmTimeout sl h gem) s = .next (bump .reasmTimeout h
          (spoilSdu sl h gem 0x45 r.till false s)))
        ∧ (r.bad = false → r.chain = none → r.octets ≠ [] → spoilSdu sl h gem 0x45 t0 false s = onReasm (fun t => Tab.set t
          (sduKey h gem) { octets := [], till := r.till, bad := true, code := 0x45, chain := none, at_ := s.ltbNow })
          (dropUp sl h 0x45 r.octets.length s))))
    ∧ (∀ (c : KeyCtx) (id : Nat) (hdr ct : List Nat) (tag : Nat), tag < 2 ^ 128 →
      let b := if c.sfcLast < n then 0 else c.blk
      let iv := ivWord 1 false id n b
      (c.openGcm id n hdr (ct ++ beOctets 16 tag)).1 = gcmText c.key iv ct
      ∧ ((c.openGcm id n hdr (ct ++ beOctets 16 tag)).2.1 = true ↔ gcmTag c.key iv hdr ct = tag))
    ∧ ((s.keyOnu h).authAt = some t0 → s.clk.now < t0 + secT 1 → authFailed h s = bump .gemAuthFail h s)
    ∧ ((s.keyOnu h).authAt = none → authFailed h s = event 0xA001 [.u 15 h]
      (onKeyOnu h (fun k => { k with authAt := some s.clk.now }) (bump .gemAuthFail h s)))

/-- O46: Queues and vertices: create, modify, move, delete, status, port queues, length profiles, sampling, statistics
(derived; R327, R329, R330, R334, R336, R346, R349, R350, R351, R353, R354, R335). Choices of the model it rests on:
log 2, log 49. -/
def Obligations.SchedulerNodeCommands : Prop :=
  ∀ (s : State) (q : Req) (dir i k v par pr wt port tc n u : Nat) (a b : NodeArgs) (x : Queue) (y : Vertex) (o : Int) (dl : Bool),
    (dir < 2 → s.parentOk dir a.parent = true → nodeArgsOk a = true →
      (i < (if dir = 0 then 131072 else 8192) → s.queue (queueKey dir i) = none → s.gateFits a = true →
        s.queuesIn dir ((s.vertSlice a.parent).getD 0) < (if dir = 0 then 32768 else 2048) →
        s.vertDepth s.treeFuel a.parent ≤ s.paramN 0x9001 0 →
        let nq : Queue := { a := a, bmax := { at_ := s.clk15 }, bmin := { at_ := s.clk15 }
                            , bind := if s.freeVal % 2 = 0 then none else some (s.freeVal / 2 % 32768), gem := s.freeVal / 65536 % 2 ^ 18 }
        Replies (.queueCreate q dir i a) q 0x9000 .ok (fun u =>
          let w := ledBucket (2 * queueKey dir i) 0 (ledBucket (2 * queueKey dir i + 1) 0 u.drawn)
          attach (queueKey dir i) a { w with
            sch := { w.sch with q := Tab.set w.sch.q (queueKey dir i) nq } }) s)
      ∧ (lowestRow ((Tab.keys s.sch.v).filter (768 ≤ ·)) 768 = v → v < 65536 →
        s.verticesIn ((s.vertSlice a.parent).getD 0) < 16384 →
        let nv : Vertex := { a := a, dir := dir, bmax := { at_ := s.clk15 }, bmin := { at_ := s.clk15 } }
        Replies (.vertexCreate q dir a) q 0x9006 (.vals [.u 16 v]) (fun u =>
          let w := ledBucket (2 * vxKey v) 0 (ledBucket (2 * vxKey v + 1) 0 u)
          attach (vxKey v) a { w with
            sch := { w.sch with v := Tab.set w.sch.v v nv } }) s))
    ∧ (s.queue k = some x →
      (nodeArgsOk { a with parent := x.a.parent } = true → s.gateFits { a with parent := x.a.parent } = true →
        a.bufProfile = x.a.bufProfile ∨ x.spill = false →
        Replies (.queueModify q k a) q 0x9001 .ok (changeNode k x.a { a with parent := x.a.parent }) s)
      ∧ (s.queueNamed k = false → (emptyQueue .dropQueue k k 0x32 (openCmd q 0x9004 s)).1 = n →
        Replies (.queueDelete q k) q 0x9004 (.vals [.u 64 n]) (fun u =>
          let w := detach k x.a (emptyQueue .dropQueue k k 0x32 u).2
          { w with
            sch := { w.sch with q := Tab.erase w.sch.q k } }) s)
      ∧ (let w := readNode k (openCmd q 0x9005 s)
        ∀ z, w.queue k = some z → Replies (.queueStatus q k) q 0x9005 (.vals [.rcd 256 (nodeWord false (k / 2 ^ 17) z.a)
        , .i 64 (w.levelNow z.bmax z.a.maxRate z.a.maxBurst), .i 64 (w.levelNow z.bmin z.a.minRate z.a.minBurst)
        , .i 64 z.deficit, .u 64 (flag (w.queueElig k z)), .u 64 (flag (w.inCommit k)), .u 64 z.qdLast, .u 64 z.qdMax
        , .u 64 z.qlLast, .u 64 z.qlMax])
        (fun u => onQueue k (fun x => { x with qdMax := x.qdLast, qlMax := x.qlLast }) (readNode k u)) s)
      ∧ (k < 2 ^ 18 → ∃ z, (readNode k s).queue k = some z ∧ z = { x with
        bmax := x.bmax.rebase x.a.maxRate x.a.maxBurst s.clk15, bmin := x.bmin.rebase x.a.minRate x.a.minBurst s.clk15 })
      ∧ (u < 256 → Tab.get? s.mon.hist u = none → Replies (.queueSampleBind q k dl u) q 0x9012 .ok (fun w =>
        bindUnit u (s.freeVal % 32) (if dl then .qDelay k else .qDepth k) w.drawn) s))
    ∧ (s.nodeArgs k = some b → isRoot k = false → s.vertSlice par = s.vertSlice b.parent → pr ≤ 7 → 1 ≤ wt → wt ≤ 1023 →
      (k < 2 ^ 18 → s.parentOk (k / 2 ^ 17) par = true →
        (∀ d, s.queueDepth s.treeFuel k = some d → s.vertDepth s.treeFuel par + d ≤ s.paramN 0x9001 0) →
        Replies (.queueMove q k par pr wt) q 0x9002 .ok (moveNode k par pr wt) s)
      ∧ (k = vxKey v → s.vert v = some y → s.parentOk y.dir par = true → s.isAncestor v s.treeFuel par = false →
        (∀ d, s.queueDepth s.treeFuel k = some d → s.vertDepth s.treeFuel par + d ≤ s.paramN 0x9001 0) →
        Replies (.vertexMove q v par pr wt) q 0x9003 .ok (moveNode (vxKey v) par pr wt) s))
    ∧ (s.vert v = some y →
      (768 ≤ v → nodeArgsOk { a with parent := y.a.parent } = true →
        Replies (.vertexModify q v a) q 0x9007 .ok (changeNode (vxKey v) y.a { a with parent := y.a.parent }) s)
      ∧ (v < 768 → a.maxRate ≤ s.rootSpeed v → burstOk a.maxRate a.maxBurst = true → Replies (.vertexModify q v a) q 0x9007 .ok
        (fun u => onVert v (fun x => { x with rateSet := true })
          (changeNode (vxKey v) y.a { y.a with maxRate := a.maxRate, maxBurst := a.maxBurst } u)) s)
      ∧ (768 ≤ v → y.children = [] → Replies (.vertexDelete q v) q 0x9009 .ok (fun u => let w := detach (vxKey v) y.a u
          { w with
            sch := { w.sch with v := Tab.erase w.sch.v v } }) s)
      ∧ (let w := readNode (vxKey v) (openCmd q 0x9008 s)
        ∀ z, w.vert v = some z → Replies (.vertexStatus q v) q 0x9008 (.vals [.rcd 256 (vertexWord v z)
        , .i 64 (w.levelNow z.bmax z.a.maxRate z.a.maxBurst), .i 64 (w.levelNow z.bmin z.a.minRate z.a.minBurst)
        , .u 64 (flag (w.eligible w.treeFuel (vxKey v)))]) (readNode (vxKey v)) s))
    ∧ (n < 16 → -32 ≤ o → o ≤ 63 → Replies (.lenProfileSet q n o) q 0x900A .ok (setParam 0x9010 n o) s)
    ∧ (s.queue (queueKey 1 k) = some x → port < 256 → tc < 8 → k < 8192 → s.rootOf s.treeFuel x.a.parent = some (512 + port) →
      Replies (.portQueueSet q port tc k) q 0x9011 .ok (setParam 0x9040 (8 * port + tc) k) s)
    ∧ Replies (.schedStats q 0 k) q 0x9013 (.vals ([Ctr.qDeqPkts, .qDeqBytes, .gateWaits, .tokensDiscarded].map fun c =>
      RVal.u 64 (s.count c k))) id s

/-- O47: Policers, gate lists, the dequeue walk, uplink transmission, queue samples (derived; R332, R338, R339, R340,
R341, R342, R343, R344, R345, R349, R424, R409). Choices of the model it rests on: log 41, log 49, log 50, log 133. -/
def Obligations.PolicersGatesAndTransmission : Prop :=
  ∀ (s t : State) (q : Req) (sl i gate root port k l rule idx st m : Nat) (r : PolicerRec) (x : Policer) (gl : GateList) (c : GateCommit)
    (v : Vertex) (f : TxFrame) (fs : List TxFrame) (o : Option Nat),
    (sl < 8 → 1 ≤ i → i < 131072 → r.lenProfile ≤ 15 → 1 ≤ r.rate → r.rate < 2 ^ 30 → 64 ≤ r.burst → r.burst < 2 ^ 24 →
      (Tab.get? s.sch.pol (polKey sl i) = none → let p : Policer := { r := r, b := { at_ := s.clk15 } }
        Replies (.policerSet q sl i r) q 0x900B .ok (fun u =>
          let w := ledBucket (2 ^ 20 + polKey sl i) 0 u
          { w with
            sch := { w.sch with pol := Tab.set w.sch.pol (polKey sl i) p } }) s)
      ∧ (Tab.get? s.sch.pol (polKey sl i) = some x → let p : Policer := { r := r, b := x.b.rebase x.r.rate x.r.burst s.clk15 }
        Replies (.policerSet q sl i r) q 0x900B .ok (fun u =>
          let w := readPolicer (polKey sl i) u
          { w with
            sch := { w.sch with pol := Tab.set w.sch.pol (polKey sl i) p } }) s
        ∧ (let b := x.b.rebase x.r.rate x.r.burst s.clk15
          Replies (.policerStatus q sl i) q 0x900C (.vals [.rcd 64 (fields [(1, flag x.r.valid), (4, x.r.lenProfile)
          , (30, x.r.rate), (24, x.r.burst), (5, 0)]), .i 64 (s.levelNow b x.r.rate x.r.burst)]) (readPolicer (polKey sl i)) s)))
    ∧ (1 ≤ i → Tab.get? s.sch.pol (polKey sl i) = some x → x.r.valid = true →
      ((s.counted x.r.lenProfile l * 65536 : Nat) ≤ (x.b.refresh x.r.rate x.r.burst s.clk15).1.level → (police sl i l s).1 = true)
      ∧ ((x.b.refresh x.r.rate x.r.burst s.clk15).1.level < (s.counted x.r.lenProfile l * 65536 : Nat) →
        (police sl i l s).1 = false
        ∧ ((Tab.get? (police sl i l s).2.sch.pol (polKey sl i)).map (·.b)) = some (x.b.refresh x.r.rate x.r.burst s.clk15).1))
    ∧ (gate < 4096 → (Tab.getD s.sch.gate gate {}).commit = none →
      (gl.entries.length = gl.count → gl.count ≤ 256 → Replies (.gateListLoad q gate gl) q 0x900D .ok
        (onGate gate (fun g => { g with standby := some gl })) s)
      ∧ ((Tab.getD s.sch.gate gate {}).standby = some gl →
        (gateCheck gl = some (rule, idx) → Replies (.gateListCommit q gate) q 0x900E
          { code := .badArg, detail := rule % 256 * 2 ^ 24 + idx % 2 ^ 24 } (bump .gateReject gate) s)
        ∧ (gateCheck gl = none → s.ltbSet = false → Waits (.gateListCommit q gate) q 0x900E
          (onGate gate (fun g => { g with commit := some { cmd := some q } })) s)))
    ∧ ((Tab.getD s.sch.gate gate {}).commit = some c → c.cmd = none → Replies (.gateListWithdraw q gate false) q 0x900F .ok
      (onGate gate (fun g => { g with commit := none })) s)
    ∧ (gate < 4096 → Replies (.gateStatus q gate) q 0x9010 (.vals (gateListVals ((Tab.getD s.sch.gate gate {}).active.map (·.1))
      ++ gateListVals (Tab.getD s.sch.gate gate {}).standby ++ [.u 64 (if (Tab.getD s.sch.gate gate {}).active.isSome then 2 else 0)
        , .u 64 (flag (Tab.getD s.sch.gate gate {}).commit.isSome), .u 96 (nsWord (Tab.getD s.sch.gate gate {}).lastS)
        , .u 64 (flag (Tab.getD s.sch.gate gate {}).late), .u 64 (s.gateEntry (Tab.getD s.sch.gate gate {}))])) id s)
    ∧ (Acts s (sliceBlk (gate / 512) 1) →
      ((Tab.getD s.sch.gate gate {}).commit = some { cmd := none, start := some st } →
        (Tab.getD s.sch.gate gate {}).standby = some gl →
        (st * 7776 ≤ s.ltbFine → exec (.gateListStart gate) s = .next (retestGate gate (bump .gateSwaps gate
          (onGate gate (fun g => { g with active := some (gl, st), standby := g.active.map (·.1), commit := none }) s))))
        ∧ (s.ltbFine < st * 7776 → exec (.gateListStart gate) s = .next s))
      ∧ ((Tab.getD s.sch.gate gate {}).at (s.ltbFine + s.paramN 0x9030 gate * 7776) = some o →
        exec (.gateWindowOpen gate) s = .next (retestGate gate s))
      ∧ ((Tab.getD s.sch.gate gate {}).at (s.ltbFine + s.paramN 0x9030 gate * 7776) = none →
        exec (.gateWindowOpen gate) s = .next s))
    ∧ (root < 768 → Acts s (sliceBlk (rootSlice root) (if root < 512 then 1 else 3)) →
      (s.rootAccepts root = false → exec (.dequeueWalk root) s = .next s)
      ∧ (s.nextRoot (rootPipe root) ≠ some root → exec (.dequeueWalk root) s = .next s)
      ∧ (let u := { s with
          sch := { s.sch with lastRoot := Tab.set s.sch.lastRoot (rootPipe root) root } }
        let w := (u.rootNodes root).foldl (fun s k => readNode k s) u
        s.nextRoot (rootPipe root) = some root → 512 ≤ root → u.rootQueues root = [] → w.vert root = some v → w.maxOk v.a v.bmax = true →
        (walkDown w.treeFuel root w = ([], t) → exec (.dequeueWalk root) s = .next (bump .schedEmptyWalk root t))
        ∧ (walkDown w.treeFuel root w = (m :: [], t) →
          exec (.dequeueWalk root) s = .next (rejoin root (dequeue root [m] t)))))
    ∧ (∀ r, s.nextRoot k = some r → r ∈ halfRoots k ∧ s.rootAccepts r = true)
    ∧ (port < 256 → Acts s (upBlk (port / 8)) →
      (Tab.getD s.sch.tx port [] = [] ∨ s.portUp port = false → exec (.uplinkFrameTransmit port) s = .next s)
      ∧ (Tab.getD s.sch.tx port [] = f :: fs → s.portUp port = true → f.lag = none →
        let w := bwCount (2 * port + 1) f.len { s with
          sch := { s.sch with tx := if fs = [] then Tab.erase s.sch.tx port else Tab.set s.sch.tx port fs } }
        (f.up = none → exec (.uplinkFrameTransmit port) s = .next (rejoin (512 + port) w))
        ∧ (f.up = some k → exec (.uplinkFrameTransmit port) s = .next (rejoin (512 + port) (tcSend port f (tcCount port f.octets
          (onuBytesOut k 1 f.bal (tapCredit (uplinkDie port) k 1 f.len w))))))))
    ∧ (∀ y, s.queue k = some y → ∃ z, (sampleQueue k s).queue k = some z ∧ z.qdLast = s.queueBytes y
      ∧ z.qdMax = max y.qdMax (s.queueBytes y) ∧ z.qlLast = s.queueDelay y ∧ z.qlMax = max y.qlMax (s.queueDelay y)
      ∧ z.head = y.head ∧ z.a = y.a)
    ∧ (Acts s (sliceBlk (k / 2) (2 * (k % 2) + 1)) → exec (.queueSample k) s = .next
      (((s.sch.q.filter fun e => e.1 / 2 ^ 17 == k % 2 && s.vertSlice e.2.a.parent == some (k / 2)).map (·.1)).foldl
        (fun s i => sampleQueue i s) s))

/-- O48: Key commands, key reports, rekeying, fragment timeouts, retirement, broadcast keys, cipher parameters and
statistics (derived; R358, R359, R360, R361, R362, R363, R373, R388, R389). Choices of the model it rests on: log 52.
-/
def Obligations.KeyContextsAndExchanges : Prop :=
  ∀ (s : State) (q : Req) (h g slot key msk mk act dir t u : Nat) (o : Onu) (hd : UsHead) (e : KeyExch) (os a b : List Nat)
    (vals : List (Nat × Int)),
    (Tab.get? s.onu.ctx h = some o →
      (o.state ≠ .operation → Replies (.onuMasterKeySet q h msk mk) q 0xA000 .ok (onKeyOnu h (fun k => { k with
        sessionKey := some (msk % 2 ^ 128), masterKey := some (mk % 2 ^ 256) })) s)
      ∧ (o.state = .operation →
        Replies (.onuMasterKeySet q h msk mk) q 0xA000 .ok (fun u => dueExchange h (onKeyOnu h (fun k => { k with
          sessionKey := some (msk % 2 ^ 128), masterKey := some (mk % 2 ^ 256) }) u)) s
        ∧ ((s.keyOnu h).exch = none → Replies (.onuRekey q h) q 0xA001 .ok (dueExchange h) s))
      ∧ Replies (.keyStatus q true h) q 0xA002 (.vals [.lst 16 [(s.keyCtx h 0 0).word, (s.keyCtx h 0 1).word
        , (s.keyCtx h 1 0).word, (s.keyCtx h 1 1).word]]) id s)
    ∧ (Tab.get? s.onu.ctx h = some o → (s.keyOnu h).exch = none → s.exchSlot h = some slot →
      let p : KeyCtx := { st := .pending, isRec := (s.keyOnu h).isRec }
      dueExchange h s = plSend h (.keyControl 0 slot) (onKeyOnu h (fun k => { k with
        due := false, retryAt := none, exch := some { slot := slot } })
        (setKey h 0 slot p (setKey h 1 slot p (onKeyOnu h (fun k => { k with due := true }) s)))))
    ∧ (Acts s 104 →
      (s.host.restart = none → s.micOk hd = true → s.findOnu (hd.g / 8) hd.onuId = some (h, o) →
        ((s.keyOnu h).exch = none → exec (.keyReport hd slot t os) s = .next (bump .ploamStale hd.g s))
        ∧ ((s.keyOnu h).exch = some e → e.slot ≠ slot → exec (.keyReport hd slot t os) s = .next (bump .ploamStale hd.g s))
        ∧ ((s.keyOnu h).exch = some { slot := slot, frag0 := some a, frag1 := none, until_ := some u } →
          (s.keyCtx h 0 slot).st = .pending → let v := keyAnswered hd h o s
          (v.keyOnu h).isRec = false → exec (.keyReport hd slot 1 os) s = .next (keQueue
            (.report h slot (beNat (a ++ os.take 8) 0)) (onKeyOnu h (fun k => { k with
              exch := some { slot := slot, frag0 := some a, frag1 := some (os.take 8), until_ := some u } }) v)))
        ∧ ((s.keyOnu h).exch = some e → e.slot = slot → (s.keyCtx h 0 slot).st = .pending →
          ((keyAnswered hd h o s).keyOnu h).isRec = true → exec (.keyReport hd slot 0 os) s =
            .next (keyInstall h slot (Config.recKey ((keyAnswered hd h o s).keyOnu h).mskOr os) (keyAnswered hd h o s))))
      ∧ ((s.keyOnu h).exch = none → s.due (s.keyOnu h).rekeyAt = true →
        exec (.rekeyInterval h) s = .next (dueExchange h (onKeyOnu h (fun k => { k with rekeyAt := none }) s)))
      ∧ ((s.keyOnu h).exch = none → s.due (s.keyOnu h).retryAt = true →
        exec (.rekeyRetry h) s = .next (dueExchange h (onKeyOnu h (fun k => { k with retryAt := none }) s)))
      ∧ (s.due (s.keyOnu h).rekeyAt = false → exec (.rekeyInterval h) s = .next s)
      ∧ (s.due (s.keyOnu h).retryAt = false → exec (.rekeyRetry h) s = .next s)
      ∧ ((s.keyOnu h).exch = some { slot := slot, frag0 := some a, frag1 := none, until_ := some u } →
        (u < s.clk.sfc → exec (.keyFragmentTimeout h) s = .next (keyFail h s))
        ∧ (s.clk.sfc ≤ u → exec (.keyFragmentTimeout h) s = .next s))
      ∧ (dir < 2 → (s.keyCtx h dir slot).st = .retiring →
        ((s.keyCtx h dir slot).till ≤ s.clk.sfc → exec (.keyRetire h dir slot) s = .next (tryExchange h (setKey h dir slot {} s)))
        ∧ (s.clk.sfc < (s.keyCtx h dir slot).till → exec (.keyRetire h dir slot) s = .next s))
      ∧ ((s.bcastCtx h slot).st = .retiring → (s.bcastCtx h slot).till ≤ s.clk.sfc →
        exec (.keyRetire h 2 slot) s = .next (setBcast h slot {} s)))
    ∧ ((s.keyOnu h).exch = some e → e.slot = slot → slot < 2 → Tab.wf s.cip.key = true →
      (keyFail h s).count .keyExchFail h = (s.count .keyExchFail h + 1) % 2 ^ 64
      ∧ ((s.keyCtx h 0 slot).st = .pending → ((keyFail h s).keyCtx h 0 slot).st = .empty)
      ∧ ((s.keyCtx h 0 slot).st ≠ .pending → (keyFail h s).keyCtx h 0 slot = s.keyCtx h 0 slot)
      ∧ ((keyInstall h slot key s).keyCtx h dir slot).st = (if dir < 2 then .ready else ((s.keyCtx h dir slot).st)))
    ∧ (g < 512 → slot < 2 → (s.bcastCtx g slot).st = .empty → s.clk.sfc + 8 ≤ act →
      Replies (.broadcastKeySet q g slot key act) q 0xA003 .ok (setBcast g slot { st := .ready, key := key % 2 ^ 256, at_ := act }) s)
    ∧ (t < 64 → Replies (.cipherParamSet q (.tree t) [(0xA000, 1)]) q 0xA004 .ok (setParam 0xA000 t 1) s)
    ∧ ((∀ v ∈ vals, cipherIdx .device v.1 = some 0 ∧ cipherInRange v.1 v.2 = true) →
      Replies (.cipherParamSet q .device vals) q 0xA004 .ok (fun u => vals.foldl (fun s v => setParam v.1 0 v.2 s) u) s)
    ∧ Replies (.cipherStats q 2 h) q 0xA00E (.vals [.u 64 (s.count .keJobs 0), .u 64 (s.count .keAuthFail 0)
      , .u 64 (s.count .rngFail 0)]) id s

/-- O49: Key Engine: key slots, lock grants in order, jobs; the random source; CRC check units (derived; R375, R376,
R377, R378, R381, R382, R383, R384, R385, R379, R380). Choices of the model it rests on: log 53, log 54, log 134. -/
def Obligations.KeyEngineAndCrcUnits : Prop :=
  ∀ (s : State) (q w : Req) (slot key kek wrapped iv n dst tag m unit alg sp addr len run size rc o : Nat) (src data : List Nat)
    (js : List KeJob) (enc : Bool) (img : Image),
    (s.hkOk slot = true →
      Replies (.keKeyLoad q slot key) q 0xA005 .ok (fun u => { u with
        cip := { u.cip with hk := Tab.set u.cip.hk slot (key % 2 ^ 256) } }) s
      ∧ Replies (.keKeyClear q slot) q 0xA007 .ok (fun u => { u with
        cip := { u.cip with hk := Tab.erase u.cip.hk slot } }) s
      ∧ (kek < 16 → Waits (.keKeyUnwrap q kek slot wrapped) q 0xA006 (keQueue (.unwrap q kek slot (wrapped % 2 ^ 320))) s))
    ∧ (slot < 16 → m < 2 → n ≤ src.length → src.length ≤ 16777216 →
      Waits (.keEncrypt q slot m iv n src dst src.length) q 0xA008
        (keQueue (.crypt q true slot m (iv % 2 ^ 96) n (src.map (· % 256)) dst 0)) s
      ∧ Waits (.keDecrypt q slot m iv n src dst src.length tag) q 0xA009
        (keQueue (.crypt q false slot m (iv % 2 ^ 96) n (src.map (· % 256)) dst tag)) s)
    ∧ Replies (.keStatus q) q 0xA00A (.vals [.rcd 32 s.cip.ke.word, .u 64 (flag (!s.cip.rngFailed))]) id s
    ∧ (Acts s 177 →
      (s.cip.ke.owner ≠ 0 → exec .keLockGrant s = .next s)
      ∧ (s.cip.ke.owner = 0 → ∃ t, exec .keLockGrant s = .next t ∧ t.cip.ke.jobs = s.cip.ke.jobs
        ∧ (s.cip.ke.waitLoader = true → t.cip.ke.owner = 3 ∧ t.cip.ke.waitAmp = s.cip.ke.waitAmp ∧ t.cip.ke.waitBexed = s.cip.ke.waitBexed)
        ∧ (s.cip.ke.waitLoader = false → s.cip.ke.waitAmp = true → t.cip.ke.owner = 2 ∧ t.cip.ke.waitBexed = s.cip.ke.waitBexed)
        ∧ (s.cip.ke.waitLoader = false → s.cip.ke.waitAmp = false → s.cip.ke.waitBexed = true → t.cip.ke.owner = 1)
        ∧ (s.cip.ke.waitLoader = false → s.cip.ke.waitAmp = false → s.cip.ke.waitBexed = false → t = s))
      ∧ (s.cip.ke.owner = 0 → exec .keJobDone s = .next s)
      ∧ (s.cip.ke.owner = 1 →
        let freed := { s with
          cip := { s.cip with ke := { s.cip.ke with owner := 0, jobs := js, waitBexed := !js.isEmpty, seg := 0 } } }
        (s.cip.ke.jobs = .unwrap w kek slot wrapped :: js →
          (keyUnwrap (s.hkKey kek) wrapped = none → exec .keJobDone s = .next (complete w 0xA006 (.err .authFail) freed))
          ∧ (keyUnwrap (s.hkKey kek) wrapped = some key → exec .keJobDone s = .next (complete w 0xA006 .ok { freed with
            cip := { freed.cip with hk := Tab.set freed.cip.hk slot (key % 2 ^ 256) } })))
        ∧ (s.cip.ke.jobs = .crypt w enc slot m iv n src dst tag :: js →
          (src.length ≤ keSegment * (s.cip.ke.seg + 1) ∨ (s.cip.ke.waitLoader = false ∧ s.cip.ke.waitAmp = false) →
            exec .keJobDone s = .next (keCryptDone w enc slot m iv n src dst tag freed))
          ∧ (keSegment * (s.cip.ke.seg + 1) < src.length → s.cip.ke.waitLoader = true ∨ s.cip.ke.waitAmp = true →
            exec .keJobDone s = .next { s with cip := { s.cip with
              keOut := if m = 0 then some (dst, gcmText (s.hkKey slot) iv ((src.take (keSegment * (s.cip.ke.seg + 1))).drop n))
                else s.cip.keOut
              ke := { s.cip.ke with owner := 0, waitBexed := true, seg := s.cip.ke.seg + 1 } } }))
        ∧ (s.cip.ke.jobs = .image w .bexed img :: js → s.cip.ke.waitLoader = false → s.cip.ke.waitAmp = false →
          (Image.tagOk img = true → exec .keJobDone s = .next (complete w 0x000A (.vals [.u 32 img.version])
            { bump .keJobs 0 freed with host := { s.host with standby := some img } }))
          ∧ (Image.tagOk img = false → exec .keJobDone s = .next (complete w 0x000A (.err .authFail)
            { bump .keAuthFail 0 (bump .keJobs 0 freed) with host := { s.host with standby := none } }))))
      ∧ (s.cip.rngFailed = true → exec .rngFail s = .next s)
      ∧ (s.cip.rngFailed = false → exec .rngFail s = .next (raiseFault 177 8 0 (bump .rngFail 0 { s with
        cip := { s.cip with rngFailed := true } }))))
    ∧ (let out := gcmText (s.hkKey slot) iv (src.drop n)
      gcmTag (s.hkKey slot) iv (src.take n) (src.drop n) ≠ tag % 2 ^ 128 →
      keCryptDone w false slot 0 iv n src dst tag s = complete w 0xA009 (.err .authFail) (bump .keAuthFail 0
        (let u := bump .keJobs 0 s
        { u with
          cip := { u.cip with keOut := some (dst, List.replicate out.length 0) } })))
    ∧ (unit < 3 → (crcAlg alg).isSome = true → (s.crcUnit unit).busy = false → crcSpace sp = some (size, rc) →
      addr + len ≤ size → addr % crcRecord sp addr rc = 0 → (addr + len) % crcRecord sp (addr + len) rc = 0 → m < 2 →
      let c0 : CrcUnit := { alg := alg, space := sp, addr := addr, left := len, run := if m = 1 then crcInit alg else run
                            , isDone := len == 0, busy := len != 0 }
      Replies (.crcScanStart q unit alg sp addr len m run) q 0xA00B .ok (onCu unit (fun _ => c0)) s)
    ∧ (unit < 3 → (s.crcUnit unit).busy = true → o = (s.crcUnit unit).left →
      (data.length = o → Acts s 178 → exec (.crcScanDone unit data) s = .next (onCu unit (fun c => c.read (s.scanned c data)) s)
        ∧ ((s.crcUnit unit).space ≤ 1 → crcSpace (s.crcUnit unit).space = some (size, rc) →
          ((s.crcUnit unit).addr + o) % rc = 0 →
          ((s.crcUnit unit).read (s.scanned (s.crcUnit unit) data)).isDone = true
          ∧ ((s.crcUnit unit).read (s.scanned (s.crcUnit unit) data)).run = crcStep (s.crcUnit unit).alg (s.crcUnit unit).run data))
      ∧ (data.length < o → Acts s 178 → exec (.crcScanDone unit data) s = .next s)
      ∧ Replies (.crcScanPause q unit data) q 0xA00C (.vals ((s.crcUnit unit).read (s.scanned (s.crcUnit unit) data)).vals)
        (onCu unit (fun _ => { (s.crcUnit unit).read (s.scanned (s.crcUnit unit) data) with busy := false })) s
      ∧ (let c := (s.crcUnit unit).read (s.scanned (s.crcUnit unit) data)
        Replies (.crcScanStatus q unit data) q 0xA00D (.vals (c.vals ++ [.u 64 (if c.isDone then crcFinal c.alg c.run else 0)]))
        (onCu unit (fun _ => c)) s))

/-- O50: PTP ports, messages, announce timeouts and status; TIME frames on Ixrardo links (derived; R394, R399, R405,
R407, R408, R417, R418, R420, R302). Choices of the model it rests on: log 57, log 111. -/
def Obligations.PtpPortsAndIxrardoTime : Prop :=
  ∀ (s : State) (q : Req) (p kind u i seq : Nat) (a : PtpArgs) (m : PtpMsg) (x : PtpPort) (f : IxrTime) (t1 : Int),
    (s.undefinedBlk 172 = false →
      (s.portExists p = true → (ptpVals a p).all (fun v => pidInRange v.1 v.2.2) = true →
        (a.enable = true → Tab.get? s.time.port p = none → s.time.port.length < 64 →
          Replies (.ptpPortSet q p a) q 0xB004 .ok (fun w =>
            let v := (ptpVals a p).foldl (fun s v => setParam v.1 v.2.1 v.2.2 s) w
            bmca { v with
              time := { v.time with port := Tab.set s.time.port p { heard := s.clk.now } } }) s)
        ∧ (a.enable = false → Replies (.ptpPortSet q p a) q 0xB004 .ok (fun w =>
            let v := (ptpVals a p).foldl (fun s v => setParam v.1 v.2.1 v.2.2 s) w
            bmca { v with
              time := { v.time with port := Tab.erase s.time.port p } }) s))
      ∧ (Tab.get? s.time.port p = some x → Replies (.ptpPortStatus q p) q 0xB005 (.vals [.u 64 x.state.ctorIdx
        , .u 64 ((x.foreign.map (·.identity)).getD 0), .u 64 ((x.foreign.map (·.steps)).getD 0), .i 64 (psOf x.delay)]) id s)
      ∧ (s.time.parent = none → Replies (.ptpClockStatus q) q 0xB006 (.vals [.u 64 s.clockId, .u 64 s.time.port.length
        , .u 8 s.clockClass, .u 8 (s.paramN 0xB056 0), .u 8 (s.paramN 0xB057 0), .u 8 (s.paramN 0xB054 0), .u 64 0
        , .i 64 (s.time.steer.elim 0 fun td => (s.time.dom td).thetaPs), .u 64 s.clockId, .u 64 s.clockId, .i 64 s.utc.1
        , .u 64 s.utc.2]) id s))
    ∧ (s.undefinedBlk 104 = false → Acts s 172 →
      (Tab.get? s.time.port m.port = none ∨ m.domain ≠ s.paramN 0xB054 0 → exec (.ptpMessageReceive m) s = .next s)
      ∧ (Tab.get? s.time.port m.port = some x → m.domain = s.paramN 0xB054 0 →
        (3 ≤ m.kind → exec (.ptpMessageReceive m) s = .next (bump .ptpDiscard m.port s))
        ∧ (m.kind = 0 → s.time.parent ≠ some (m.port, m.srcIdentity) →
          exec (.ptpMessageReceive m) s = .next (bump .ptpRx m.port s))
        ∧ (m.kind = 0 → s.time.parent = some (m.port, m.srcIdentity) → s.time.td0.kind = 1 → s.time.td1.kind ≠ 1 →
          exec (.ptpMessageReceive m) s = .next (let v := bump .ptpRx m.port s
            let up := m.t2 - ofPs (s.param 0xB050 m.port) - m.t1 - m.corr
            let back := m.t4 - (m.t3 + ofPs (s.param 0xB051 m.port)) - m.corrResp
            timeSample 0 ((up - back) / 2 - ofPs (s.param 0xB052 m.port)) { v with
              time := { v.time with port := Tab.modify v.time.port m.port fun x => { x with delay := (up + back) / 2 } } }))
        ∧ (m.kind = 1 → exec (.ptpMessageReceive m) s = .next (let v := bump .ptpRx m.port s
          let fo : PtpForeign := { identity := m.srcIdentity, gm := m.gmIdentity, cls := m.clockClass, accNs := m.accuracyNs
                                   , prio2 := m.priority2, steps := m.stepsRemoved, utc := m.utcOffset, leap := m.leap }
          bmca { v with
            time := { v.time with port := Tab.set v.time.port m.port { x with foreign := some fo, heard := s.clk.now } } }))
        ∧ (m.kind = 2 → x.state = .master → s.ltbSet = true → exec (.ptpMessageReceive m) s = .next
          (ptpOut m.port 3 (bump .ptpRx m.port s))))
      ∧ (Tab.get? s.time.port p = some x →
        (x.state = .master → s.ltbSet = true → exec (.ptpMessageSend p 2) s = .next (ptpOut p 2 s)
          ∧ exec (.ptpMessageSend p 0) s = .next (if s.param 0xB055 p = 1 then ptpOut p 4 (ptpOut p 0 s) else ptpOut p 0 s))
        ∧ (x.state = .slave → exec (.ptpMessageSend p 1) s = .next (ptpOut p 1 s))
        ∧ (∀ cs w e, (allocCells 21 1 1 [] s = (.ok cs, w) → ptpOut p kind s = freeCells cs (bump .ptpTx p { w with
            time := { w.time with sentP := Tab.set w.time.sentP p kind } }))
          ∧ (allocCells 21 1 1 [] s = (.error e, w) → ptpOut p kind s = bump .dropReq (256 * 21 + e) w))
        ∧ (x.state = .passive ∨ x.state = .listening → exec (.ptpMessageSend p kind) s = .next s)
        ∧ (s.clk.now < x.heard + msT 375 → exec (.announceReceiptTimeout p) s = .next s)
        ∧ (x.state ≠ .slave → x.heard + msT 375 ≤ s.clk.now → exec (.announceReceiptTimeout p) s = .next (bmca { s with
          time := { s.time with port := Tab.set s.time.port p { x with foreign := none, state := .master } } }))))
    ∧ (Acts s 172 → s.undefinedBlk (ixrBlk u) = false → s.linkIdx u = some i →
      (s.ixrUp.contains u = false → exec (.ixrSyncSend u) s = .next s)
      ∧ (s.ixrUp.contains u = true → let v := (ixrSeq u 2 48 s).2
        let n := (ixrSeq u 2 48 s).1
        exec (.ixrSyncSend u) s = .next (onIxrPeer i (fun p => { p with open_ := Tab.set p.open_ n v.ltb64 }) { v.drawn with
          time := { v.time with sentT := Tab.set v.time.sentT i (v.timeFrame u n 1 0 0 v.ltb64) } }))
      ∧ (f.link = u → f.msg = 1 → s.ixrUp.contains u = true →
        let v := onIxrPeer i (fun p => { p with steps := f.steps, cls := f.clockClass, ltbSet := f.ltbSet }) (ixrArrive u 2 f.seq s).2
        let w := (ixrSeq u 2 48 v).2
        exec (.ixrTimeReceive f) s = .next { w.drawn with
          time := { w.time with sentT := Tab.set w.time.sentT i (w.timeFrame u (ixrSeq u 2 48 v).1 2 f.seq f.arrival w.ltb64) } })
      ∧ (f.link = u → f.msg = 2 → s.ixrUp.contains u = true →
        let v := onIxrPeer i (fun p => { p with steps := f.steps, cls := f.clockClass, ltbSet := f.ltbSet }) (ixrArrive u 2 f.seq s).2
        (Tab.get? (Tab.getD v.time.ixr i {}).open_ f.refSeq = none →
          exec (.ixrTimeReceive f) s = .next (bump .ixrTimeGap i v))
        ∧ (Tab.get? (Tab.getD v.time.ixr i {}).open_ f.refSeq = some t1 → (v.domsOf 3 i) = [] →
          exec (.ixrTimeReceive f) s = .next (onIxrPeer i (fun p => { p with open_ := Tab.erase p.open_ f.refSeq }) v)))
      ∧ (Tab.get? (Tab.getD s.time.ixr i {}).open_ seq = some t1 → exec (.ixrRespTimeout u seq) s =
        .next (bump .ixrTimeGap i (onIxrPeer i (fun p => { p with open_ := Tab.erase p.open_ seq }) s)))
      ∧ (Tab.get? (Tab.getD s.time.ixr i {}).open_ seq = none → exec (.ixrRespTimeout u seq) s = .next s))

/-- O51: Time: setting, sources, parameters, status, source loss, the servo's states, wait to restore (derived; R393,
R394, R399, R400, R401, R402, R403, R405, R420). Choices of the model it rests on: log 56. -/
def Obligations.TimeDomainsAndTheServo : Prop :=
  ∀ (s : State) (q w : Req) (sec ns td kind inst prio cur c : Nat) (vals : List (Nat × Int)) (th : Int),
    (s.undefinedBlk 172 = false →
      (ns < 1000000000 → sec < 2 ^ 48 →
        (s.ltbSet = false → Waits (.timeSet q sec ns) q 0xB001 (fun u => { u with
          time := { u.time with sets := u.time.sets ++ [(q, sec, ns)] } }) s)
        ∧ (s.ltbSet = true → Replies (.timeSet q sec ns) q 0xB001 (.err .badState) id s))
      ∧ (td < 2 → kind = 2 ∨ kind = 3 → inst < 2 → prio ≤ 255 →
        ((s.time.dom (1 - td)).kind ≠ kind ∨ (s.time.dom (1 - td)).inst ≠ inst) →
        ((s.time.dom td).kind ≠ kind → Replies (.timeSourceSet q td kind inst prio) q 0xB002 .ok (fun u =>
          onDom td (fun _ => { kind := kind, inst := inst, prio := prio, last := s.clk.now })
            (setParam 0xB021 td prio (setParam 0xB020 td (kind * 128 + inst) u))) s)
        ∧ ((s.time.dom td).kind = kind → (s.time.dom td).inst = inst → Replies (.timeSourceSet q td kind inst prio) q 0xB002 .ok
          (fun u => onDom td (fun d => { d with prio := prio })
            (setParam 0xB021 td prio (setParam 0xB020 td (kind * 128 + inst) u))) s))
      ∧ ((∀ v ∈ vals, timePids.contains v.1 = true ∧ pidInRange v.1 v.2 = true) →
        Replies (.timeParamSet q vals) q 0xB003 .ok (fun u => vals.foldl (fun s v => setParam v.1 0 v.2 s) u) s)
      ∧ Replies (.timeStatus q) q 0xB000 (.vals [.u 8 s.time.state.ctorIdx, .u 96 s.ltbNow, .u 64 (s.time.steer.getD 255)
        , .u 9 (s.time.td0.kind * 128 + s.time.td0.inst), .u 64 (flag s.time.td0.qualified), .i 64 s.time.td0.thetaPs
        , .u 9 (s.time.td1.kind * 128 + s.time.td1.inst), .u 64 (flag s.time.td1.qualified), .i 64 s.time.td1.thetaPs
        , .i 32 s.time.residual, .u 32 s.maxErr, .u 8 s.clockClass, .u 64 s.time.dco]) id s)
    ∧ (Acts s 172 →
      (td < 2 → (s.time.dom td).kind ≠ 0 →
        ((s.time.dom td).last + s.lossTime (s.time.dom td).kind ≤ s.clk.now →
          exec (.timeSourceLoss td) s = .next (onDom td TimeDom.disqualify s))
        ∧ (s.clk.now < (s.time.dom td).last + s.lossTime (s.time.dom td).kind → exec (.timeSourceLoss td) s = .next s))
      ∧ (s.time.state = .unset → s.bestDomain = none → s.time.steer = none →
        let s1 := { s with
          time := { s.time with fresh := [], sets := [] } }
        (s.time.sets = [(w, sec, ns)] →
          exec .servoUpdate s = .next (complete w 0xB001 .ok (initialSet (secT sec + nsTicks ns) .freerun s1)))
        ∧ (s.time.sets = [] → exec .servoUpdate s = .next s1))
      ∧ (s.time.state = .freerun → s.bestDomain = none → exec .servoUpdate s = .next { s with
        time := { s.time with fresh := [], sets := [] } })
      ∧ (s.time.state = .locked → s.time.steer = some cur → ∃ t, exec .servoUpdate s = .next t
        ∧ t.time.sets = [] ∧ t.time.fresh = []
        ∧ ((s.time.dom cur).qualified = true → t.time.state = .locked ∧ t.time.steer = some cur)
        ∧ ((s.time.dom cur).qualified = false → s.bestDomain = some td → t.time.state = .locked ∧ t.time.steer = some td
          ∧ t.count .steerSwitch 0 = (s.count .steerSwitch 0 + 1) % 2 ^ 64)
        ∧ ((s.time.dom cur).qualified = false → s.bestDomain = none → t.time.state = .holdover ∧ t.time.hoErr = s.maxErr
          ∧ t.time.hoStart = s.clk.now))
      ∧ (s.time.state = .locked → s.time.steer = some cur → cur ≠ s.preferred → (s.time.dom s.preferred).qualified = true →
        (s.time.dom cur).qualified = true →
        ((s.time.dom s.preferred).since + secT (s.paramN 0xB014 0) ≤ s.clk.now →
          exec .wtrExpiry s = .next (bump .steerSwitch 0 (steerBy s.preferred s)))
        ∧ (s.clk.now < (s.time.dom s.preferred).since + secT (s.paramN 0xB014 0) → exec .wtrExpiry s = .next s)))
    ∧ (td < 2 → ((timeSample td th s).time.dom td).theta = th ∧ ((timeSample td th s).time.dom td).last = s.clk.now
      ∧ ((timeSample td th s).time.dom td).samples.length ≤ 16)
    ∧ (c = 1 - td → td < 2 → (timeSample td th s).time.dom c = s.time.dom c)

/-- O52: Reference inputs, PPS inputs, pulse outputs, time of day at an ONU, asymmetry (derived; R397, R398, R406,
R411, R412, R413, R415, R416, R396). Choices of the model it rests on: log 56, log 58. -/
def Obligations.ReferencePulsesAndTimeOfDay : Prop :=
  ∀ (s : State) (q : Req) (inp k g h n dly : Nat) (at64 : Int) (m : TodMsg) (a : PulseArgs) (b : AsymArgs) (o : Onu) (p : PulseOut),
    (Acts s 172 →
      (s.time.refB.lost = false → s.time.refA.lost = false → s.time.dco = 0 → exec (.refclkLoss true) s =
        .next (bump .refSwitch 0 { s with
          time := { s.time with refB := { s.time.refB with lost := true, qualified := false }, dco := 1
                                freq := s.time.freq + Config.inputRatio 0 1 s.clk.now } }))
      ∧ (s.time.refB.lost = true → s.time.refA.lost = false → ∃ t, exec (.refclkLoss false) s = .next t ∧ t.time.dco = 2
        ∧ t.time.bothLost = some (s.time.bothLost.getD s.clk.now) ∧ t.time.refA.lost = true ∧ bit (t.window 172).status 8 = true)
      ∧ (s.time.refA.lost = true → exec (.refclkLoss false) s = .next s)
      ∧ exec (.refclkQualify true) s = .next { s with
        time := { s.time with refB := { qualified := true, lost := false, since := s.clk.now } } }
      ∧ (s.time.dco = 1 → s.time.refB.qualified = true →
        (s.time.refB.since + secT 10 ≤ s.clk.now → exec .refclkBReturn s = .next (bump .refSwitch 0 { s with
          time := { s.time with dco := 0, freq := s.time.freq + Config.inputRatio 1 0 s.clk.now } }))
        ∧ (s.clk.now < s.time.refB.since + secT 10 → exec .refclkBReturn s = .next s))
      ∧ exec (.ppsInEdge 0 at64) s = .next { s with
        time := { s.time with edgeA := some (at64 - ofPs (s.param 0xB030 0)) } }
      ∧ exec (.ppsInEdge 1 at64) s = .next { s with
        time := { s.time with edgeB := some (at64 - ofPs (s.param 0xB030 1)) } }
      ∧ (inp ≤ 1 → exec (.ppsInMiss inp) s = .next (bump .ppsInMiss inp s))
      ∧ (m.input = 0 → s.time.edgeA = none → exec (.todInMessage m) s = .next (bump .todInErr 0 { s with
        time := { s.time with edgeA := none } }))
      ∧ (m.input = 0 → s.time.edgeA = some at64 → (m.crcOk = false ∨ m.startMs < 1 ∨ 900 < m.endMs) →
        exec (.todInMessage m) s = .next (bump .todInErr 0 { s with
          time := { s.time with edgeA := none } }))
      ∧ (m.input = 0 → s.time.edgeA = some at64 → m.crcOk = true → 1 ≤ m.startMs → m.endMs ≤ 900 →
        let u := { s with
          time := { s.time with edgeA := none } }
        (m.valid = false → exec (.todInMessage m) s = .next u)
        ∧ (∀ td, m.valid = true → u.domsOf 2 0 = [td] → exec (.todInMessage m) s = .next (timeSample td ((secT m.sec * 64 : Int) - at64)
          (timeSource td m.clockClass m.accuracyNs (if m.utcValid then m.utcOffset else (u.time.dom td).utc)
            (2 * flag m.leap61 + flag m.leap59) u))))
      ∧ (k < 4 → s.ltbSet = true → s.pulseOf k = p → p.next = none → p.cur.mode ≠ 0 →
        exec (.ppsOutEdge k) s = .next { s.drawn with
          time := { s.time with pulse := Tab.set s.time.pulse k { p with edges := p.edges + 1, last := s.stamp64 } } })
      ∧ (k < 4 → s.ltbSet = true → s.pulseOf k = { p with next := some (a, n) } → n ≤ s.clk.now → a.mode ≠ 0 →
        exec (.ppsOutEdge k) s = .next { s.drawn with
          time := { s.time with pulse := Tab.set s.time.pulse k { p with cur := a, next := none, edges := p.edges + 1, last := s.stamp64 } } })
      ∧ (s.stamp64 / 64 = s.clk.ltb)
      ∧ (s.ltbSet = true → (s.pulseOf 0).cur.mode = 1 → (s.pulseOf 0).cur.period = 1000000000 → (s.pulseOf 0).edges ≠ 0 →
        (s.pulseOf 0).last + 64 * msT 10 ≤ s.clk.ltb * 64 → ∃ t, exec .todOutMessage s = .next t
        ∧ t.time.tod.map (fun x => (x.sec, x.cls, x.utc)) = [((s.pulseOf 0).last / 64 / 2488320000, s.clockClass, s.utc.1)]))
    ∧ (s.undefinedBlk 172 = false →
      (inp ≤ 1 → dly ≤ 100000 → Replies (.ppsInSet q inp dly) q 0xB00A .ok (setParam 0xB030 inp dly) s)
      ∧ (let vals := [(0xB060, (a.mode : Int)), (0xB061, a.period), (0xB062, a.offset), (0xB063, a.width), (0xB064, a.polarity)
          , (0xB065, a.delay)]
        k < 4 → vals.all (fun v => pidInRange v.1 v.2) = true → pulseWidthOk a = true →
        Replies (.pulseOutSet q k a) q 0xB009 .ok (fun u => let v := vals.foldl (fun s v => setParam v.1 k v.2 s) u
          { v with
            time := { v.time with pulse := Tab.set v.time.pulse k { v.pulseOf k with next := some (a, s.clk.now + msT 1) } } }) s)
      ∧ (Tab.get? s.onu.ctx h = some o → o.state = .operation → s.ltbSet = true →
        Replies (.todPairRead q h n) q 0xB008 (.vals [.u 64 n, .u 96 (nsWord (s.todOf h o n).toNat)]) (fun u => { u with
          time := { u.time with pair := Tab.set u.time.pair h (n, s.todOf h o n), told := u.time.told.filter (· != h) } }) s)
      ∧ (Tab.get? s.onu.ctx h = some o → o.state ≠ .operation →
        Replies (.todPairRead q h n) q 0xB008 (.err .badState) id s)
      ∧ (512 ≤ g → Replies (.asymSet q g b) q 0xB007 (.err .badArg) id s)
      ∧ (let vals := [(0xB040, (b.nDs : Int)), (0xB041, b.nUs), (0xB042, b.txDelay), (0xB043, b.rxDelay), (0xB044, b.recRatio)]
        let w := fun (u : State) => vals.foldl (fun s v => setParam v.1 g v.2 s) u
        let ppm := (treePairs (g / 8)).map fun c => (c, (w s).rtdPpm c)
        g < 512 → vals.all (fun v => pidInRange v.1 v.2) = true → ppm.all (fun e => decide (e.2.natAbs ≤ 200)) = true →
        Replies (.asymSet q g b) q 0xB007 (.vals (.u 32 (roundAway ((b.nDs : Int) * 1000000000) (b.nDs + b.nUs)).toNat
          :: ppm.map fun e => .i 16 e.2)) (fun u => ppm.foldl (fun s e => setParam 0x3022 e.1 e.2 s) (w u)) s))
    ∧ (roundAway 5 2 = 3 ∧ roundAway (-5) 2 = -3 ∧ roundAway 7 3 = 2)

/-- O53: Ampoule: drains, bindings, time records, minutes, gaps, readouts, log acknowledgement, checkpoint, the seal
(derived; R419, R426, R427, R428, R429, R430, R432, R433, R434, R436). Choices of the model it rests on: log 59, log
60. -/
def Obligations.AmpouleRecordsAndReadouts : Prop :=
  ∀ (s : State) (q w : AmpReq) (h serial first n seq : Nat) (p : SealedParams) (e : SignedRec) (lv : Bool),
    (Acts s 173 →
      exec .tapDrain s = .next (onAmp (fun a => { drainAll s.ltbNow a with
        drainSeq := ((drainAll s.ltbNow a).drainSeq + 1) % 2 ^ 32, inForce := (drainAll s.ltbNow a).params }) s)
      ∧ (drainAll s.ltbNow s.amp).tap = [] ∧ (drainAll s.ltbNow s.amp).tapGap = false
      ∧ (h < 32768 → s.amp.tap = [] → exec (.bindingNotice h serial) s = .next (onAmp (fun a =>
        let b := a.logged s.ltbNow 10 (leOctets 8 (a.meterOf h).serial ++ leOctets 12 (a.meterOf h).down ++ leOctets 12 (a.meterOf h).up)
        { b with meter := Tab.set b.meter h { epoch := ((a.meterOf h).epoch + 1) % 65536, serial := serial } }) s))
      ∧ (Acts s 172 → exec .timeRecordToAmpoule s = .next (onAmp (secArrived s.secRec s.ltbNow) s)
        ∧ (secArrived s.secRec s.ltbNow s.amp).lastSec = some s.secRec ∧ (secArrived s.secRec s.ltbNow s.amp).missing = 0)
      ∧ exec .timeGap s = .next (onAmp (fun a => { a.logged s.ltbNow 9 [] with minuteGap := true, missing := 3 }) s)
      ∧ (∃ t, exec .evidenceMinute s = .next t ∧ t.amp.minute = [] ∧ t.amp.recSeq = (s.amp.recSeq + 1) % 2 ^ 32
        ∧ t.amp.evidence.getLast? = some { recSeq := s.amp.recSeq, ltb := s.ltbNow
                                           , octets := s.amp.record 1 s.ltbNow (!s.ltbSet) (evidenceBody s.amp) }
        ∧ (s.amp.evidence.length ≤ 1440 → t.amp.evidence.length ≤ 1440)))
    ∧ (let took := onAmp fun a => { a with recSeq := (a.recSeq + 1) % 2 ^ 32 }
      let signed := fun ty body => Reply.vals [.lst 1 (s.amp.record ty s.ltbNow (!s.ltbSet) body)]
      AmpReplies (.ampouleIdentity q) q (signed 4 (beOctets 64 Config.amplePublicKey ++ leOctets 16 Config.devSerial.toNat
        ++ leOctets 4 s.amp.params.certId ++ [s.amp.counter] ++ sealedOctets s.amp.params)) took s
      ∧ (1 ≤ n → n ≤ 256 → first + n ≤ 32768 → AmpReplies (.ampouleMeterRead q first n) q (signed 2 (leOctets 2 first
        ++ leOctets 2 n ++ leOctets 4 s.amp.drainSeq ++ (List.range n).flatMap fun i =>
          meterOctets (first + i) (s.amp.meterOf (first + i)))) took s)
      ∧ (n ≤ 32 → (s.amp.log.any fun e => e.seq == first) = true → let es := (s.amp.log.filter fun e => decide (first ≤ e.seq)).take n
        AmpReplies (.ampouleLogRead q first n) q (signed 3 (leOctets 4 es.length ++ es.flatMap LogEntry.octets)) took s))
    ∧ ((s.amp.evidence.find? fun e => if n = 1 then e.ltb == first else e.recSeq == first) = some e →
      AmpReplies (.ampouleEvidenceRead q first n) q (.vals [.lst 1 e.octets]) id s)
    ∧ (seq < s.amp.nextSeq → AmpReplies (.ampouleLogAck q seq) q .ok (onAmp fun a => { a with acked := max a.acked (seq + 1) }) s)
    ∧ AmpReplies (.ampouleCheckpoint q) q (.vals [.u 32 (checkpoint s).amp.drainSeq]) checkpoint s
    ∧ (s.amp.isOpen = true → sealedInRange p = true →
      AmpReplies (.ampouleParamStage q p) q .ok (onAmp fun a => { a with staged := some p }) s)
    ∧ (s.amp.isOpen = true → AmpReplies (.ampouleSealAbort q) q .ok sealAbort s)
    ∧ (Acts s 173 → s.amp.burn = none → s.ports.contains q.port = true →
      (s.amp.isOpen = false → s.amp.counter < 63 → s.amp.logFull = false → s.amp.pin = false → s.amp.pinAt + secT 1 ≤ s.clk.now →
        exec (.ampouleSealOpen q) s = .next (onAmp (fun a => { a with burn := some (.counter q) }) s))
      ∧ (s.amp.isOpen = false → 63 ≤ s.amp.counter → exec (.ampouleSealOpen q) s = .next (ampAnswer q (.err .limit) s))
      ∧ (s.amp.isOpen = false → s.amp.counter < 63 → s.amp.logFull = false → s.amp.pin = true →
        exec (.ampouleSealOpen q) s = .next (ampAnswer q (.err .badState) s))
      ∧ (s.amp.isOpen = true → s.amp.staged = some p → s.amp.pin = false →
        exec (.ampouleSealCommit q) s = .next (onAmp (fun a => { a with burn := some (.slot q p) }) s)))
    ∧ (Acts s 173 →
      (s.amp.pinQueue = [] → s.amp.burn = some (.counter w) → ∃ t, exec .sealBurnDone s = .next t ∧ t.amp.isOpen = true
        ∧ t.amp.counter = s.amp.counter + 1 ∧ t.amp.burn = none ∧ t.amp.slots = s.amp.slots
        ∧ t.amp.openUntil = s.clk.now + secT 600)
      ∧ (s.amp.pinQueue = [] → s.amp.burn = some (.slot w p) → ∃ t, exec .sealBurnDone s = .next t ∧ t.amp.isOpen = false
        ∧ t.amp.slots = Tab.set s.amp.slots s.amp.counter p ∧ t.amp.counter = s.amp.counter ∧ t.amp.burn = none)
      ∧ (s.amp.pin = lv → exec (.ampSealPinChange lv) s = .next s)
      ∧ (s.amp.pin = false → s.amp.burn = none → s.amp.isOpen = true → ∃ t, exec (.ampSealPinChange true) s = .next t
        ∧ t.amp.isOpen = false ∧ t.amp.staged = none ∧ t.amp.pin = true)
      ∧ (s.amp.isOpen = true → s.amp.burn = none →
        (s.amp.openUntil ≤ s.clk.now → exec .sealOpenTimeout s = .next (sealAbort s))
        ∧ (s.clk.now < s.amp.openUntil → exec .sealOpenTimeout s = .next s)))

/-- O54: Protection commands: enable, disable, activate, switch, audit, status, sparing, stack status (derived; R440,
R448, R449, R450, R457, R458, R461, R462, R464, R467, R468, R42). Choices of the model it rests on: log 64, log 94. -/
def Obligations.ProtectionCommands : Prop :=
  ∀ (s : State) (q : Req) (t c g : Nat) (p : ProtGrp),
    (t < 64 → s.grp t = p →
      (s.stackRole ≠ 0 → 32 ≤ s.paramN 0x3037 t → ((treePairs t).any fun x => decide (s.paramN 0x3020 x < 250000)) = false →
        s.paramN 0xC011 0 ≠ s.opt.unitId → (∀ d, p.peerDigest = some d → d = s.groupDigest t) →
        (p.st = .off → Replies (.protEnable q t) q 0xC000 .ok (fun u =>
          listen t (darken t (setParam 0xC010 t 1 (onGrp t (fun p => { p with st := .sync, synced := false, copying := false }) u)))) s)
        ∧ (p.st ≠ .off → Replies (.protEnable q t) q 0xC000 .ok id s))
      ∧ (p.st ≠ .active ∨ p.peerState = 0 → Replies (.protDisable q t) q 0xC001 .ok (fun u => setParam 0xC010 t 0 (onGrp t (fun p => { p with
          st := .off, held := false, raised := false, wanted := false, audit := none, sent := [], drillUntil := none }) u)) s)
      ∧ (s.peerActive t = false → p.st = .sync ∨ p.st = .released → Replies (.protActivate q t) q 0xC002 .ok (fun u =>
          onGrp t (fun p => { p with st := .claiming, gapped := false }) (raiseClaim t u)) s)
      ∧ (p.st = .active → p.peerState = 2 → Replies (.protSwitch q (some t)) q 0xC003 .ok (dropHold t .released true) s)
      ∧ (p.st = .active → p.audit = none → Waits (.protAuditNow q t) q 0xC004 (auditStart t (some q)) s
        ∧ ((auditStart t (some q) s).grp t).audit = some { sfcA := s.clk.sfc + 16, mirrorSeq := s.prot.mirTx, cmd := some q })
      ∧ Replies (.protStatus q t) q 0xC005 (.vals [.rcd 64 (s.protWord t)]) id s
      ∧ (let old := s.paramN 0x3036 t
        let freed := fun (new : Nat) (u : State) => if old < 8 ∧ old ≠ new ∧ (s.laneCh (8 * t + old)).enabled = false
          then lanesTo (8 * t + old) .off u else u
        Replies (.spareSet q t 8) q 0xC006 .ok (fun u => setParam 0x3036 t 8 (freed 8 u)) s
        ∧ (c < 8 → s.populated (8 * t + c) = false →
          ((s.laneCh (8 * t + c)).ladder = none → Replies (.spareSet q t c) q 0xC006 .ok (fun u =>
            lanesTo (8 * t + c) .standby (setParam 0x3036 t c (freed c u))) s)
          ∧ (∀ l, (s.laneCh (8 * t + c)).ladder = some l → Replies (.spareSet q t c) q 0xC006 .ok (fun u =>
            lanesTo (8 * t + c) .standby (ladderFail (8 * t + c) l (setParam 0x3036 t c (freed c u)))) s))))
    ∧ (∀ w, lanesTo g w s = onLaneCh g (fun x => { x with
        enabled := false, txGoal := w, rxGoal := if s.standbyTree (g / 8) then .active else w }) s)
    ∧ (∀ b, (spareChannel g c b s).param 0x3036 (g / 8) = 8)
    ∧ (g < 512 → s.idleSpare (g / 8) = some c → c ≠ g % 8 → Replies (.channelSpare q g) q 0xC007 .ok (spareChannel g c true) s)
    ∧ Replies (.stackStatus q) q 0xC008 (.vals [.u 8 s.opt.unitId, .u 8 s.stackRole, .u 8 s.members, .u 8 s.masters
        , .u 64 ((s.prot.links.filter fun e => e.2.accepted).foldl (fun a e => a ||| 2 ^ e.1) 0), .u 48 s.stackId, .u 8 s.timeSteps]) id s

/-- O55: The claim bus, heartbeats, mirroring, audits, drills and promotion (derived; R73, R74, R442, R444, R445,
R447, R448, R454, R455, R458, R459, R465). Choices of the model it rests on: log 61, log 62, log 63, log 89, log 108.
-/
def Obligations.ClaimsHeartbeatsAndPromotion : Prop :=
  ∀ (s : State) (t link seq ver ty sfc dg g : Nat) (stuck up : Bool) (r : RoundResult) (rs : List RoundResult) (cs : Tab Nat) (m : Heartbeat) (x : ProtGrp),
    (Acts s 172 →
      exec (.claimRoundEnd rs) s = .next (roundEnd rs s)
      ∧ (s.prot.busFault = true → s.prot.roundSeen = false → roundEnd rs s =
        ((s.prot.grp.filter fun e => e.2.held || e.2.raised).map (·.1)).foldl (fun s k => bump .roundsVoid k s) s)
      ∧ (s.grp r.group = x → x.raised = true → x.st = .claiming →
        (r.neverStopped = true → r.peerSilent = true → ((roundOne r s).grp r.group).st = .promoting
          ∧ ((roundOne r s).grp r.group).held = true ∧ ((roundOne r s).grp r.group).wonAt = s.clk.now)
        ∧ (r.neverStopped = false → x.gapped = false → ((roundOne r s).grp r.group).st = .ready
          ∧ ((roundOne r s).grp r.group).held = false ∧ ((roundOne r s).grp r.group).raised = false
          ∧ ((roundOne r s).grp r.group).barred = true))
      ∧ (s.prot.busFault = false → r.group < 64 →
        let v := roundOne r { s with prot := { s.prot with roundSeen := true } }
        (∀ k ∈ Tab.keys v.prot.grp, (v.grp k).wanted = false) → exec (.claimRoundEnd [r]) s = .next v)
      ∧ (s.prot.busFault = true → exec (.claimBusFault stuck) s = .next s)
      ∧ (s.prot.busFault = false → exec (.claimBusFault stuck) s = .next (raiseFault 172 9 (if stuck then 2 else 1)
        (bump .claimBusFault 0 { s with prot := { s.prot with busFault := true } })))
      ∧ exec .claimBusFaultClear s = .next { s with prot := { s.prot with busFault := false } })
    ∧ (Acts s (ixrBlk link) →
      exec (.heartbeatReceive { m with link := link }) s = .next (hbReceive { m with link := link } s)
      ∧ (s.stackRole = 0 → hbReceive { m with link := link } s = (let z := ixrArrive link 1 m.seq s
        if z.1 then bump .hbGap link z.2 else z.2))
      ∧ (ver ≠ 1 ∨ ty = 0 ∨ 6 < ty → exec (.ixrardoBadType link ver ty) s = .next (bump .ixrBadType link s))
      ∧ (s.paramN 0x1500 link ≠ 4 → exec (.ixrardoLinkChange link up) s = .next s)
      ∧ (s.paramN 0x1500 link = 4 → exec (.ixrardoLinkChange link false) s = .next { s with
          lane := { s.lane with ixr := Tab.set s.lane.ixr link { up := false } }
          prot := { s.prot with links := Tab.erase s.prot.links link } })
      ∧ (s.ixrLocked link = false → exec (.ixrardoLinkChange link true) s = .next s)
      ∧ (s.paramN 0x1500 link = 4 → s.ixrLocked link = true → exec (.ixrardoLinkChange link true) s = .next (cascLinkUp { s with
          lane := { s.lane with ixr := Tab.set s.lane.ixr link { up := true } } })))
    ∧ (Acts s 104 →
      (let z := ixrArrive link 6 seq s
      let w := { z.2 with
        prot := { z.2.prot with mirRx := some (seq % 65536) } }
      (exec (.mirrorReceive link seq []) s = .next (if z.1 then
        (Tab.keys w.prot.grp).foldl (fun s k => toSync k s) (bump .mirrorGap 0 w) else w))
      ∧ (∀ ms, z.1 = false → exec (.mirrorReceive link seq ms) s = .next (ms.foldl (fun s r => mirrorOne r s) w)))
      ∧ (s.clk.now < s.prot.auditAt → exec .auditInterval s = .next s)
      ∧ (s.prot.auditAt ≤ s.clk.now → exec .auditInterval s = .next (auditAll { s with
          prot := { s.prot with auditAt := s.clk.now + secT (s.paramN 0xC031 0) } }))
      ∧ (s.prot.grp = [(t, x)] → x.st = .active → auditAll s = auditStart t (x.audit.bind (·.cmd)) s)
      ∧ (t < 64 → s.grp t = x → x.st = .sync ∨ x.st = .ready →
        let z := (ixrArrive link 5 seq (onGrp t (fun p => { p with peerDigest := some dg }) s)).2
        (z.grp t).st = x.st → exec (.auditReceive link seq t false sfc g dg cs) s = .next
          (onGrp t (fun p => { p with audit := some { sfcA := sfc, mirrorSeq := g } }) z))
      ∧ ((s.grp t).st = .promoting → (s.grp t).wonAt + usT 20 + s.clk.ltb % 311040 ≤ s.clk.now → s.prot.heardM + 2 ≤ s.clk.sfc →
        exec (.promotion t) s = .next (promote t s) ∧ ((promote t s).grp t).st = .active
          ∧ ((promote t s).grp t).activeAt = s.clk.now)
      ∧ ((s.grp t).st ≠ .promoting ∨ s.clk.sfc < s.prot.heardM + 2 → exec (.promotion t) s = .next s)
      ∧ ((s.grp t).settleEnd ≤ s.clk.sfc → exec (.protSettleEnd t) s = .next (onGrp t (fun p => { p with settleEnd := 0 }) s))
      ∧ (s.clk.sfc < (s.grp t).settleEnd → exec (.protSettleEnd t) s = .next s)
      ∧ (s.due (s.grp t).drillUntil = true → exec (.drillWatchEnd t) s = .next (onGrp t (fun p => { p with drillUntil := none }) s))
      ∧ (s.due (s.grp t).drillUntil = false → exec (.drillWatchEnd t) s = .next s))

/-- O56: What a completion and an event write, and how a command is turned away before its own checks (derived; R471,
R482, R484, R486, R487, R523, R536). Choices of the model it rests on: log 74, log 75. -/
def Obligations.CompletionsEventsAndRefusals : Prop :=
  ∀ (s : State) (q : Req) (op code : Nat) (r : Reply) (e : InProg) (k : KlPort) (pl : List RVal) (body : State → State × Option Reply),
    (q.port = 0 → s.host.port0 = k → findProg k.inProg q.tag op = some e →
      (k.enable = true → e.discard = false → e.irq = false → Fits q r →
        let c : Cpl := { tag := e.tag, op := e.op, code := r.code, phase := k.cplPhase, len := (pack r.res).length
                               , detail := r.detail, result := pack r.res }
        (complete q op r s).host.port0 = { k with
          inProg := dropProg k.inProg q.tag op, cpl := k.cpl ++ [c], cplTail := (k.cplTail + 1) % ringLen k.cplSize
          cplPhase := if (k.cplTail + 1) % ringLen k.cplSize = 0 then !k.cplPhase else k.cplPhase })
      ∧ (k.enable = true → e.discard = false → e.irq = false → ¬ Fits q r →
        ∃ c, (complete q op r s).host.port0.cpl = k.cpl ++ [c] ∧ c.code = .shortBuf ∧ c.result = [] ∧ c.len = (pack r.res).length
          ∧ c.tag = e.tag)
      ∧ (e.discard = true → (complete q op r s).host.port0 = { k with inProg := dropProg k.inProg q.tag op }))
    ∧ (s.ports = [0] → s.host.port0 = k → k.evtIrq.entries ≠ 1 → k.evtIrq.holdoffUs ≠ 0 →
      (k.enable = true → ringFull k.evtSize k.evtHead k.evtTail = false → ∃ v,
        (event code pl s).host.port0.evt = k.evt ++ [v] ∧ v.code = code ∧ v.phase = k.evtPhase ∧ v.lost = k.lostFlag
          ∧ v.ltb = s.ltbNow ∧ v.payload = pack pl ∧ (event code pl s).host.port0.lostFlag = false
          ∧ (event code pl s).host.port0.evtTail = (k.evtTail + 1) % ringLen k.evtSize)
      ∧ (k.enable = false ∨ ringFull k.evtSize k.evtHead k.evtTail = true →
        (event code pl s).host.port0 = { k with evtLost := min (k.evtLost + 1) (2 ^ 32 - 1), lostFlag := true }))
    ∧ (s.undefinedBlk 104 = true → kilak q op body s = .fault (.blockUndefined 104))
    ∧ (s.undefinedBlk 104 = false → s.undefinedBlk 105 = true → kilak q op body s = .fault (.blockUndefined 105))
    ∧ (s.undefinedBlk 104 = false → s.undefinedBlk 105 = false →
      (s.serves q op = false → kilak q op body s = .next s)
      ∧ (s.serves q op = true → q.port = 1 → s.opt.cur.port1Write = 0 → readOnlyOps.contains op = false →
        kilak q op body s = .next (complete q op (.err .denied) (openCmd q op s)))
      ∧ (s.serves q op = true → q.port ≠ 1 → s.host.romMode = true → romOps op = false →
        kilak q op body s = .next (complete q op (.err .badState) (openCmd q op s))))
    ∧ (Served s q op → (body (openCmd q op s)).2 = some r → ¬ Fits q r →
      kilak q op body s = .next (complete q op r (openCmd q op s)))

/-- O57: ProtStatus answers the word of R468 field by field, and DEV_STATUS reads the layout of R478 (stated; R468,
R478). -/
def Obligations.ProtStatusAndDevStatusWords : Prop :=
  ∀ (s : State) (q : Req) (t p : Nat),
    (t < 64 → Replies (.protStatus q t) q 0xC005 (.vals [.rcd 64 (s.protWord t)]) id s)
    ∧ bits (s.protWord t) 63 32 = (s.grp t).claim % 2 ^ 32
    ∧ bits (s.protWord t) 31 29 = (match (s.grp t).st with
        | .off => 0
        | .sync => 1
        | .ready => 2
        | .claiming => 3
        | .promoting => 4
        | .active => 5
        | .released => 6)
    ∧ bit (s.protWord t) 28 = (s.grp t).held ∧ bit (s.protWord t) 27 = s.peerHeard
    ∧ bits (s.protWord t) 26 25 = (s.grp t).peerState % 4 ∧ bit (s.protWord t) 24 = s.prot.busFault
    ∧ bit (s.protWord t) 23 = (s.grp t).auditOk ∧ bit (s.protWord t) 22 = (s.grp t).digestOk
    ∧ bits (s.protWord t) 21 0 = (s.grp t).epochSeen % 2 ^ 22
    ∧ s.protWord t < 2 ^ 64 ∧ State.reset.protWord t = 0
    ∧ (s.bar0 p 0x20 = some (s.devStatus p)
      ∧ bit (s.devStatus p) 31 = s.host.bexedReady ∧ bit (s.devStatus p) 30 = s.ltbSet ∧ bit (s.devStatus p) 29 = s.classF
      ∧ bits (s.devStatus p) 28 26 = s.sagStage % 8 ∧ bits (s.devStatus p) 25 23 = s.opt.unitId % 8
      ∧ bit (s.devStatus p) 22 = decide (s.opt.copy = 1) ∧ bit (s.devStatus p) 21 = decide (s.opt.copy = 2)
      ∧ bits (s.devStatus p) 20 20 = s.opt.cur.pcieMode % 2 ∧ bits (s.devStatus p) 19 19 = p % 2
      ∧ bits (s.devStatus p) 18 0 = 0 ∧ s.devStatus p < 2 ^ 32 ∧ State.reset.devStatus 0 = 0)

/-- O58: The bin of a sample, no sample from stage S1 upward, and HistogramClear (stated; R554). -/
def Obligations.HistogramBinOfASample : Prop :=
  ∀ (s : State) (q : Req) (v sh e m id u : Nat) (src : HistSrc) (x : HistUnit),
    (v / 2 ^ sh < 8 → histBin v sh = v / 2 ^ sh)
    ∧ (3 ≤ e → m < 4 → (4 + m) * 2 ^ (e - 2) ≤ v / 2 ^ sh → v / 2 ^ sh < (5 + m) * 2 ^ (e - 2) →
      histBin v sh = min 63 (8 + 4 * (e - 3) + m))
    ∧ (2 ^ 17 ≤ v / 2 ^ sh → histBin v sh = 63)
    ∧ histBin v sh ≤ 63
    ∧ (s.sagStage ≠ 0 → histSample src v id s = s)
    ∧ (s.sagStage = 0 → s.mon.hist = [(u, x)] → x.src = src →
      ∃ y, (histSample src v id s).mon.hist = [(u, y)] ∧ y.src = src ∧ y.shift = x.shift
        ∧ y.bins = Tab.upd x.bins (histBin v x.shift) 0 (fun n => (n + 1) % 2 ^ 64))
    ∧ (Tab.get? s.mon.hist u = some x → Replies (.histogramClear q u) q 0xE009 .ok (fun w => { w with
        mon := { w.mon with hist := Tab.set w.mon.hist u { src := x.src, shift := x.shift } } }) s)

/-- O59: ProtEnable is refused with LIMIT in R440's three cases, and a protected tree's limits cannot be broken
(stated; R440). -/
def Obligations.ProtEnableLimits : Prop :=
  ∀ (s : State) (q : Req) (k g : Nat) (v : Int),
    (k < 64 → s.stackRole = 0 ∨ s.paramN 0x3037 k < 32 ∨ (∃ c, c < 8 ∧ s.paramN 0x3020 (8 * k + c) < 250000) →
      Replies (.protEnable q k) q 0xC000 (.err .limit) id s)
    ∧ (g < 512 → s.param 0xC010 (g / 8) = 1 → v < 250000 →
      Replies (.paramSet q 0x3020 g 1 [v]) q 0x0006 { code := .limit, detail := g } id s)
    ∧ (k < 64 → s.param 0xC010 k = 1 → v < 32 →
      Replies (.paramSet q 0x3037 k 1 [v]) q 0x0006 { code := .limit, detail := k } id s)

/-- O60: What reset leaves where the spec gives the value: status words, rings, the time base, the stages (derived;
R393, R477, R478, R479, R482, R495, R507, R529). Choices of the model it rests on: log 1. -/
def Obligations.ResetValuesOfTheRegisters : Prop :=
  State.reset.bar0 0 0x20 = some 0 ∧ State.reset.bar0 0 0x30 = some (2 ^ 31 + 31)
  ∧ State.reset.bar0 0 0x40 = some 0 ∧ State.reset.host.scratch = 0
  ∧ (∀ p, (State.reset.host.port p).enable = false ∧ (State.reset.host.port p).cmdErr = false
    ∧ (State.reset.host.port p).cfgErr = false ∧ (State.reset.host.port p).headErr = false
    ∧ (State.reset.host.port p).cmdTail = 0 ∧ (State.reset.host.port p).cmdHead = 0
    ∧ (State.reset.host.port p).cplHead = 0 ∧ (State.reset.host.port p).cplTail = 0
    ∧ (State.reset.host.port p).evtHead = 0 ∧ (State.reset.host.port p).evtTail = 0
    ∧ (State.reset.host.port p).cmdSize = 0 ∧ (State.reset.host.port p).inProg = [])
  ∧ (∀ inject r, (Tab.getD (State.reset.host.rings inject) r {}).enable = false)
  ∧ State.reset.ltbSet = false ∧ State.reset.clk.ltb = 0 ∧ State.reset.classF = false
  ∧ State.reset.sagStage = 0 ∧ State.reset.pwr.guard = 15 ∧ State.reset.pending = []
end

