-- ==== Sys2Proof/Laws/Fields.lean ====
section
/-! SUPPORT. A word built by `fields` holds each field at its place. -/

namespace Sys2Proof.Machine

/-- The bits a list of fields takes. -/
def widths (l : List (Nat × Nat)) : Nat := (l.map (·.1)).sum

theorem fields_foldl (l : List (Nat × Nat)) (a : Nat) :
    l.foldl (fun a f => a * 2 ^ f.1 + f.2 % 2 ^ f.1) a = a * 2 ^ widths l + fields l := by
  induction l generalizing a with
  | nil => simp [widths, fields]
  | cons f l ih =>
    simp only [List.foldl_cons, fields]
    rw [ih, ih (0 * 2 ^ f.1 + f.2 % 2 ^ f.1)]
    simp only [widths, List.map_cons, List.sum_cons, pow_add]
    ring

theorem fields_cons (f : Nat × Nat) (l : List (Nat × Nat)) :
    fields (f :: l) = f.2 % 2 ^ f.1 * 2 ^ widths l + fields l := by
  have := fields_foldl l (0 * 2 ^ f.1 + f.2 % 2 ^ f.1)
  simpa [fields] using this

theorem fields_lt (l : List (Nat × Nat)) : fields l < 2 ^ widths l := by
  induction l with
  | nil => simp [fields, widths]
  | cons f l ih =>
    rw [fields_cons]
    have h : f.2 % 2 ^ f.1 + 1 ≤ 2 ^ f.1 := Nat.mod_lt _ (by positivity)
    have : 2 ^ widths (f :: l) = 2 ^ f.1 * 2 ^ widths l := by simp [widths, pow_add]
    nlinarith [Nat.mul_le_mul_right (2 ^ widths l) h]

theorem fields_append (a b : List (Nat × Nat)) : fields (a ++ b) = fields a * 2 ^ widths b + fields b := by
  have h := fields_foldl b (fields a)
  rw [← h]
  simp [fields]

/-- A field between what stands above and below it. -/
theorem fields_at (a : List (Nat × Nat)) (w v : Nat) (b : List (Nat × Nat)) :
    fields (a ++ (w, v) :: b) / 2 ^ widths b % 2 ^ w = v % 2 ^ w := by
  rw [fields_append, fields_cons]
  have hb := fields_lt b
  have e : fields a * 2 ^ widths ((w, v) :: b) + (v % 2 ^ w * 2 ^ widths b + fields b)
      = fields b + 2 ^ widths b * (v % 2 ^ w + 2 ^ w * fields a) := by
    simp [widths, pow_add]
    ring
  rw [e, Nat.add_mul_div_left _ _ (by positivity), Nat.div_eq_of_lt hb, Nat.zero_add, Nat.add_mul_mod_self_left,
    Nat.mod_mod]

end Sys2Proof.Machine
end

