-- ==== Sys2Proof/Laws/Frame.lean ====
section
/-! SUPPORT. The frame every operation below the clocks and the power state keeps: the queue, the clock counters and the
power state are as before. -/

namespace Sys2Proof.Machine

/-- The queue, the clocks and the power state of t are those of s. -/
structure Frame (s t : State) : Prop where
  pending : t.pending = s.pending
  clk : t.clk = s.clk
  pwr : t.pwr = s.pwr

theorem Frame.rfl' (s : State) : Frame s s := ⟨rfl, rfl, rfl⟩

theorem Frame.trans {s u t : State} (h : Frame s u) (k : Frame u t) : Frame s t :=
  ⟨k.1.trans h.1, k.2.trans h.2, k.3.trans h.3⟩

theorem Frame.mk' {s u : State} {a b c d e f g i j k l m n o p q r w x y z a1 a2} (h : Frame s u) :
    Frame s (State.mk u.pending a u.clk b c u.pwr d e f g i j k l m n o p q r w x y z a1 a2) := ⟨h.1, h.2, h.3⟩

theorem Frame.foldl {α : Type} {s u : State} {f : State → α → State} {l : List α}
    (hf : ∀ u x, Frame s u → Frame s (f u x)) (h : Frame s u) : Frame s (l.foldl f u) := by
  induction l generalizing u with
  | nil => exact h
  | cons a l ih => exact ih (hf _ _ h)

theorem Frame.ite {s a b : State} {c : Prop} [Decidable c] (ha : Frame s a) (hb : Frame s b) :
    Frame s (if c then a else b) := by split <;> assumption

theorem Frame.ite1 {α : Type} {s : State} {a b : State × α} {c : Prop} [Decidable c] (ha : Frame s a.1)
    (hb : Frame s b.1) : Frame s (if c then a else b).1 := by split <;> assumption

theorem Frame.ite2 {α : Type} {s : State} {a b : α × State} {c : Prop} [Decidable c] (ha : Frame s a.2)
    (hb : Frame s b.2) : Frame s (if c then a else b).2 := by split <;> assumption

theorem Frame.mk1 {α : Type} {s u : State} {a : α} (h : Frame s u) : Frame s (u, a).1 := h

theorem Frame.mk2 {α : Type} {s u : State} {a : α} (h : Frame s u) : Frame s (a, u).2 := h

theorem Frame.ofEq1 {α : Type} {s t : State} {v : State × α} {a : α} (e : v = (t, a)) (h : Frame s v.1) : Frame s t := by
  subst e; exact h

theorem Frame.ofEq2 {α : Type} {s t : State} {v : α × State} {a : α} (e : v = (a, t)) (h : Frame s v.2) : Frame s t := by
  subst e; exact h

theorem Frame.ofEq22 {α β : Type} {s t : State} {v : α × β × State} {a : α} {b : β} (e : v = (a, b, t))
    (h : Frame s v.2.2) : Frame s t := by subst e; exact h

/-! ### Commands -/

/-- Whatever state the outcome goes on in satisfies R. -/
def Ran (R : State → Prop) (o : Host.Outcome State Fault Refusal) : Prop := ∀ t, o = .next t → R t

/-- R does not look at the host interface or at Ampoule. -/
structure Closed (R : State → Prop) : Prop where
  host : ∀ u h, R u → R { u with host := h }
  amp : ∀ u a, R u → R { u with amp := a }

theorem Frame.closed (s : State) : Closed (Frame s) := ⟨fun _ _ h => Frame.mk' h, fun _ _ h => Frame.mk' h⟩

theorem Ran.next {R : State → Prop} {u : State} (h : R u) : Ran R (.next u) := fun _ e => by cases e; exact h

theorem Ran.fault {R : State → Prop} {f} : Ran R (.fault f) := fun _ e => by cases e

theorem Frame.iteO {s : State} {a b : Host.Outcome State Fault Refusal} {c : Prop} [Decidable c] (ha : Ran (Frame s) a)
    (hb : Ran (Frame s) b) : Ran (Frame s) (if c then a else b) := by split <;> assumption

theorem Ran.guardBlks {R : State → Prop} {bs o} {u : State} (h : Ran R (o u)) : Ran R (guardBlks bs o u) := by
  unfold Machine.guardBlks
  split
  · exact Ran.fault
  · exact h

theorem island_ran {R : State → Prop} (_ : Closed R) {b f} {u : State} (h : R u) (hf : ∀ u, R u → R (f u)) :
    Ran R (island b f u) := by
  unfold island
  split
  · exact Ran.fault
  · split
    · exact Ran.next (hf u h)
    · exact Ran.next h

theorem openCmd_closed {R : State → Prop} (c : Closed R) {q op} {u : State} (h : R u) : R (openCmd q op u) := by
  unfold openCmd
  dsimp only
  split
  · exact h
  · exact c.host _ _ h

theorem complete_closed {R : State → Prop} (c : Closed R) {q op r} {u : State} (h : R u) : R (complete q op r u) :=
  c.host _ _ h

theorem kilak_ran {R : State → Prop} (c : Closed R) {q op body} {u : State} (h : R u)
    (hb : ∀ u, R u → R (body u).1) : Ran R (kilak q op body u) := by
  unfold kilak
  have h0 : R (openCmd q op u) := openCmd_closed c h
  split
  · exact Ran.fault
  · split
    · exact Ran.fault
    · split
      · exact Ran.next h
      · dsimp only
        split
        · exact Ran.next (complete_closed c h0)
        · split
          · exact Ran.next (complete_closed c h0)
          · have h1 := hb _ h0
            split
            · rename_i e
              rw [e] at h1
              exact Ran.next h1
            · rename_i e
              rw [e] at h1
              refine Ran.next (complete_closed c ?_)
              split
              · exact h0
              · exact h1

end Sys2Proof.Machine
end

