-- ==== Sys2Proof/Laws/FrameOps.lean ====
section
/-! SUPPORT. What each operation of Machine/Ops.lean leaves alone. -/

namespace Sys2Proof.Machine

theorem State.drawn_frame {s u0 : State} (k0 : Frame s u0) : Frame s (State.drawn u0) := by
  unfold State.drawn
  exact Frame.mk' k0

theorem complete_frame {s u3 : State} {a0} {a1} {a2} (k3 : Frame s u3) : Frame s (complete a0 a1 a2 u3) := by
  unfold complete
  extract_lets +onlyGivenNames -merge -useContext x0
  clear_value x0
  exact Frame.mk' k3

theorem completeOpt_frame {s u3 : State} {a0} {a1} {a2} (k3 : Frame s u3) : Frame s (completeOpt a0 a1 a2 u3) := by
  unfold completeOpt
  split
  · exact complete_frame k3
  · exact k3

theorem bumpBy_frame {s u3 : State} {a0} {a1} {a2} (k3 : Frame s u3) : Frame s (bumpBy a0 a1 a2 u3) := by
  unfold bumpBy
  exact Frame.mk' k3

theorem bump_frame {s u2 : State} {a0} {a1} (k2 : Frame s u2) : Frame s (bump a0 a1 u2) := by
  unfold bump
  exact bumpBy_frame k2

theorem event_frame {s u2 : State} {a0} {a1} (k2 : Frame s u2) : Frame s (event a0 a1 u2) := by
  unfold event
  exact Frame.mk' k2

theorem deny_frame {s u1 : State} {a0} (k1 : Frame s u1) : Frame s (deny a0 u1).1 := by
  unfold deny
  exact Frame.mk1 k1

theorem doneWith_frame {s u1 : State} {a0} (k1 : Frame s u1) : Frame s (doneWith a0 u1).1 := by
  unfold doneWith
  exact Frame.mk1 k1

theorem answer_frame {s u1 : State} {a0} (k1 : Frame s u1) : Frame s (answer a0 u1).1 := by
  unfold answer
  exact Frame.mk1 k1

theorem setParam_frame {s u3 : State} {a0} {a1} {a2} (k3 : Frame s u3) : Frame s (setParam a0 a1 a2 u3) := by
  unfold setParam
  exact Frame.mk' k3

theorem sample_frame {s u1 : State} {a0} (k1 : Frame s u1) : Frame s (sample a0 u1) := by
  unfold sample
  refine Frame.ite ?_ ?_
  · extract_lets +onlyGivenNames -merge -useContext x0
    have h0 : Frame s x0 := State.drawn_frame k1
    clear_value x0
    refine Frame.ite ?_ ?_
    · extract_lets +onlyGivenNames -merge -useContext x1
      clear_value x1
      extract_lets +onlyGivenNames -merge -useContext x2
      clear_value x2
      extract_lets +onlyGivenNames -merge -useContext x3
      clear_value x3
      extract_lets +onlyGivenNames -merge -useContext x4
      clear_value x4
      extract_lets +onlyGivenNames -merge -useContext _ x5
      have h5 : Frame s x5 := Frame.mk' h0
      clear_value x5
      refine Frame.ite ?_ ?_
      · exact event_frame h5
      exact h5
    exact h0
  exact k1

theorem recordFaults_frame {s u2 : State} {a0} {a1} (k2 : Frame s u2) : Frame s (recordFaults a0 a1 u2) := by
  unfold recordFaults
  extract_lets +onlyGivenNames -merge -useContext x0
  clear_value x0
  extract_lets +onlyGivenNames -merge -useContext x1
  clear_value x1
  extract_lets +onlyGivenNames -merge -useContext x2
  clear_value x2
  extract_lets +onlyGivenNames -merge -useContext x3
  clear_value x3
  extract_lets +onlyGivenNames -merge -useContext x4
  clear_value x4
  extract_lets +onlyGivenNames -merge -useContext x5
  clear_value x5
  extract_lets +onlyGivenNames -merge -useContext x6
  have h6 : Frame s x6 := Frame.mk' k2
  clear_value x6
  refine Frame.foldl (fun u7 _ k7 => ?_) ?_
  · exact sample_frame k7
  exact h6

theorem raiseFault_frame {s u3 : State} {a0} {a1} {a2} (k3 : Frame s u3) : Frame s (raiseFault a0 a1 a2 u3) := by
  unfold raiseFault
  exact recordFaults_frame k3

theorem waits_frame {s u0 : State} (k0 : Frame s u0) : Frame s (waits u0).1 := by
  unfold waits
  exact Frame.mk1 k0

theorem clearCtr_frame {s u2 : State} {a0} {a1} (k2 : Frame s u2) : Frame s (clearCtr a0 a1 u2) := by
  unfold clearCtr
  exact Frame.mk' k2

theorem done_frame {s u0 : State} (k0 : Frame s u0) : Frame s (done u0).1 := by
  unfold done
  exact Frame.mk1 k0

theorem denyAt_frame {s u3 : State} {a0} {a1} {a2} (k3 : Frame s u3) : Frame s (denyAt a0 a1 a2 u3).1 := by
  unfold denyAt
  exact Frame.mk1 k3

theorem openCmd_frame {s u2 : State} {a0} {a1} (k2 : Frame s u2) : Frame s (openCmd a0 a1 u2) := by
  unfold openCmd
  extract_lets +onlyGivenNames -merge -useContext x0
  clear_value x0
  split
  · exact k2
  · exact Frame.mk' k2

end Sys2Proof.Machine
end

