-- ==== Sys2Proof/Laws/FrameHostIf.lean ====
section
/-! SUPPORT. What each operation of Machine/HostIf.lean leaves alone. -/

namespace Sys2Proof.Machine

theorem ampDoorbell_frame {s u2 : State} {a0} {a1} (k2 : Frame s u2) : Frame s (ampDoorbell a0 a1 u2) := by
  unfold ampDoorbell
  extract_lets +onlyGivenNames -merge -useContext x0
  clear_value x0
  extract_lets +onlyGivenNames -merge -useContext x1
  clear_value x1
  extract_lets +onlyGivenNames -merge -useContext x2
  clear_value x2
  extract_lets +onlyGivenNames -merge -useContext x3
  clear_value x3
  exact Frame.mk' k2

theorem fetchCmd_frame {s u2 : State} {a0} {a1} (k2 : Frame s u2) : Frame s (fetchCmd a0 a1 u2) := by
  unfold fetchCmd
  refine Frame.ite ?_ ?_
  · exact k2
  extract_lets +onlyGivenNames -merge -useContext x0
  clear_value x0
  extract_lets +onlyGivenNames -merge -useContext x1
  clear_value x1
  extract_lets +onlyGivenNames -merge -useContext x2
  have h2 : Frame s x2 := Frame.mk' k2
  clear_value x2
  extract_lets +onlyGivenNames -merge -useContext x3
  clear_value x3
  refine Frame.ite ?_ ?_
  · exact complete_frame h2
  refine Frame.ite ?_ ?_
  · exact complete_frame h2
  refine Frame.ite ?_ ?_
  · exact complete_frame h2
  exact h2

theorem ringDrop_frame {s u2 : State} {a0} {a1} (k2 : Frame s u2) : Frame s (ringDrop a0 a1 u2) := by
  unfold ringDrop
  extract_lets +onlyGivenNames -merge -useContext x0
  clear_value x0
  exact Frame.mk' k2

theorem holdoffExpiry_frame {s u2 : State} {a0} {a1} (k2 : Frame s u2) : Frame s (holdoffExpiry a0 a1 u2) := by
  unfold holdoffExpiry
  extract_lets +onlyGivenNames -merge -useContext x0
  clear_value x0
  split
  · extract_lets +onlyGivenNames -merge -useContext x1
    clear_value x1
    refine Frame.ite ?_ ?_
    · exact Frame.mk' k2
    exact k2
  · extract_lets +onlyGivenNames -merge -useContext x2
    clear_value x2
    refine Frame.ite ?_ ?_
    · exact Frame.mk' k2
    exact k2
  · extract_lets +onlyGivenNames -merge -useContext x3
    clear_value x3
    refine Frame.ite ?_ ?_
    · extract_lets +onlyGivenNames -merge -useContext _ x4
      clear_value x4
      exact Frame.mk' k2
    exact k2
  · extract_lets +onlyGivenNames -merge -useContext x5
    clear_value x5
    refine Frame.ite ?_ ?_
    · extract_lets +onlyGivenNames -merge -useContext _ x6
      clear_value x6
      exact Frame.mk' k2
    exact k2
  · exact k2

theorem onPort_frame {s u2 : State} {a0} {a1} (k2 : Frame s u2) : Frame s (onPort a0 a1 u2) := by
  unfold onPort
  exact Frame.mk' k2

theorem onWindow_frame {s u2 : State} {a0} {a1} (k2 : Frame s u2) : Frame s (onWindow a0 a1 u2) := by
  unfold onWindow
  exact Frame.mk' k2

theorem regAccess_ran {R : State → Prop} (c : Closed R) {p f} {u : State} (h : R u) (hf : ∀ u, R u → R (f u)) :
    Ran R (regAccess p f u) := by
  unfold regAccess
  refine island_ran c h fun u h => ?_
  split
  · exact hf u h
  · exact h

theorem windowAccess_ran {R : State → Prop} (_ : Closed R) {b f} {u : State} (h : R u) (hf : ∀ u, R u → R (f u)) :
    Ran R (windowAccess b f u) := by
  unfold windowAccess
  split
  · exact Ran.next (hf u h)
  · exact Ran.next h

theorem execAmpCmdDoorbell_frame {s u2 : State} {a0} {a1} (k2 : Frame s u2) : Ran (Frame s) (execAmpCmdDoorbell a0 a1 u2) := by
  unfold execAmpCmdDoorbell
  refine regAccess_ran (Frame.closed _) ?_ fun u0 k0 => ?_
  · exact k2
  exact ampDoorbell_frame k0

theorem execBar0BadAccess_frame {s u1 : State} {a0} (k1 : Frame s u1) : Ran (Frame s) (execBar0BadAccess a0 u1) := by
  unfold execBar0BadAccess
  refine regAccess_ran (Frame.closed _) ?_ fun u0 k0 => ?_
  · exact k1
  refine Frame.ite ?_ ?_
  · exact bump_frame k0
  exact k0

theorem execFlrPf0_frame {s u1 : State} {a0} (k1 : Frame s u1) : Ran (Frame s) (execFlrPf0 a0 u1) := by
  unfold execFlrPf0
  refine regAccess_ran (Frame.closed _) ?_ fun u0 k0 => ?_
  · exact k1
  exact Frame.mk' k0

theorem execFlrPf2_frame {s u1 : State} {a0} (k1 : Frame s u1) : Ran (Frame s) (execFlrPf2 a0 u1) := by
  unfold execFlrPf2
  refine regAccess_ran (Frame.closed _) ?_ fun u0 k0 => ?_
  · exact k1
  exact Frame.mk' k0

theorem execIrqHoldoffExpiry_frame {s u2 : State} {a0} {a1} (k2 : Frame s u2) : Ran (Frame s) (execIrqHoldoffExpiry a0 a1 u2) := by
  unfold execIrqHoldoffExpiry
  refine island_ran (Frame.closed _) ?_ fun u0 k0 => ?_
  · exact k2
  exact holdoffExpiry_frame k0

theorem execKlCmdDoorbell_frame {s u2 : State} {a0} {a1} (k2 : Frame s u2) : Ran (Frame s) (execKlCmdDoorbell a0 a1 u2) := by
  unfold execKlCmdDoorbell
  refine regAccess_ran (Frame.closed _) ?_ fun u0 k0 => ?_
  · exact k2
  exact onPort_frame k0

theorem execKlCommandFetch_frame {s u2 : State} {a0} {a1} (k2 : Frame s u2) : Ran (Frame s) (execKlCommandFetch a0 a1 u2) := by
  unfold execKlCommandFetch
  refine island_ran (Frame.closed _) ?_ fun u0 k0 => ?_
  · exact k2
  exact fetchCmd_frame k0

theorem execKlCplHeadWrite_frame {s u2 : State} {a0} {a1} (k2 : Frame s u2) : Ran (Frame s) (execKlCplHeadWrite a0 a1 u2) := by
  unfold execKlCplHeadWrite
  refine regAccess_ran (Frame.closed _) ?_ fun u0 k0 => ?_
  · exact k2
  exact onPort_frame k0

theorem execKlEvtHeadWrite_frame {s u2 : State} {a0} {a1} (k2 : Frame s u2) : Ran (Frame s) (execKlEvtHeadWrite a0 a1 u2) := by
  unfold execKlEvtHeadWrite
  refine regAccess_ran (Frame.closed _) ?_ fun u0 k0 => ?_
  · exact k2
  exact onPort_frame k0

theorem execKlEvtLostRead_frame {s u2 : State} {a0} {a1} (k2 : Frame s u2) : Ran (Frame s) (execKlEvtLostRead a0 a1 u2) := by
  unfold execKlEvtLostRead
  refine regAccess_ran (Frame.closed _) ?_ fun u0 k0 => ?_
  · exact k2
  extract_lets +onlyGivenNames -merge -useContext x1
  clear_value x1
  exact Frame.mk' k0

theorem execKlRingDisable_frame {s u1 : State} {a0} (k1 : Frame s u1) : Ran (Frame s) (execKlRingDisable a0 u1) := by
  unfold execKlRingDisable
  refine regAccess_ran (Frame.closed _) ?_ fun u0 k0 => ?_
  · exact k1
  exact onPort_frame k0

theorem execKlRingEnable_frame {s u1 : State} {a0} (k1 : Frame s u1) : Ran (Frame s) (execKlRingEnable a0 u1) := by
  unfold execKlRingEnable
  refine regAccess_ran (Frame.closed _) ?_ fun u0 k0 => ?_
  · exact k1
  exact onPort_frame k0

theorem execPf1RingEnable_frame {s u5 : State} {a0} {a1} {a2} {a3} {a4} (k5 : Frame s u5) : Ran (Frame s) (execPf1RingEnable a0 a1 a2 a3 a4 u5) := by
  unfold execPf1RingEnable
  refine regAccess_ran (Frame.closed _) ?_ fun u0 k0 => ?_
  · exact k5
  refine Frame.ite ?_ ?_
  · extract_lets +onlyGivenNames -merge -useContext x1
    clear_value x1
    exact Frame.mk' k0
  exact k0

theorem execPuntRingDoorbell_frame {s u2 : State} {a0} {a1} (k2 : Frame s u2) : Ran (Frame s) (execPuntRingDoorbell a0 a1 u2) := by
  unfold execPuntRingDoorbell
  refine regAccess_ran (Frame.closed _) ?_ fun u0 k0 => ?_
  · exact k2
  extract_lets +onlyGivenNames -merge -useContext x1
  clear_value x1
  refine Frame.ite ?_ ?_
  · exact Frame.mk' k0
  exact k0

theorem execRingDropsRead_frame {s u3 : State} {a0} {a1} {a2} (k3 : Frame s u3) : Ran (Frame s) (execRingDropsRead a0 a1 a2 u3) := by
  unfold execRingDropsRead
  refine regAccess_ran (Frame.closed _) ?_ fun u0 k0 => ?_
  · exact k3
  extract_lets +onlyGivenNames -merge -useContext x1
  clear_value x1
  exact Frame.mk' k0

end Sys2Proof.Machine
end

