-- ==== Sys2Proof/Laws/FrameMonBase.lean ====
section
/-! SUPPORT. What each operation of Machine/MonBase.lean leaves alone. -/

namespace Sys2Proof.Machine

theorem onBalance_frame {s u3 : State} {a0} {a1} {a2} (k3 : Frame s u3) : Frame s (onBalance a0 a1 a2 u3) := by
  unfold onBalance
  exact Frame.mk' k3

theorem ledEnd_frame {s u3 : State} {a0} {a1} {a2} (k3 : Frame s u3) : Frame s (ledEnd a0 a1 a2 u3) := by
  unfold ledEnd
  exact onBalance_frame k3

theorem ledCreate_frame {s u3 : State} {a0} {a1} {a2} (k3 : Frame s u3) : Frame s (ledCreate a0 a1 a2 u3) := by
  unfold ledCreate
  exact onBalance_frame k3

theorem onuBytesOut_frame {s u3 : State} {a0} {a1} {a2} (k3 : Frame s u3) : Frame s (onuBytesOut a0 a1 a2 u3) := by
  unfold onuBytesOut
  exact ledEnd_frame k3

theorem onuBytesIn_frame {s u3 : State} {a0} {a1} {a2} (k3 : Frame s u3) : Frame s (onuBytesIn a0 a1 a2 u3) := by
  unfold onuBytesIn
  exact ledCreate_frame k3

theorem bindUnit_frame {s u3 : State} {a0} {a1} {a2} (k3 : Frame s u3) : Frame s (bindUnit a0 a1 a2 u3) := by
  unfold bindUnit
  exact Frame.mk' k3

theorem histSample_frame {s u3 : State} {a0} {a1} {a2} (k3 : Frame s u3) : Frame s (histSample a0 a1 a2 u3) := by
  unfold histSample
  refine Frame.ite ?_ ?_
  · exact k3
  exact Frame.mk' k3

theorem bwCount_frame {s u2 : State} {a0} {a1} (k2 : Frame s u2) : Frame s (bwCount a0 a1 u2) := by
  unfold bwCount
  exact Frame.mk' k2

theorem ledTokens_frame {s u4 : State} {a0} {a1} {a2} {a3} (k4 : Frame s u4) : Frame s (ledTokens a0 a1 a2 a3 u4) := by
  unfold ledTokens
  exact ledEnd_frame (ledCreate_frame k4)

theorem ledBucket_frame {s u2 : State} {a0} {a1} (k2 : Frame s u2) : Frame s (ledBucket a0 a1 u2) := by
  unfold ledBucket
  exact onBalance_frame k2

theorem ledGrants_frame {s u3 : State} {a0} {a1} {a2} (k3 : Frame s u3) : Frame s (ledGrants a0 a1 a2 u3) := by
  unfold ledGrants
  exact Frame.mk' k3

theorem ledGrant_frame {s u3 : State} {a0} {a1} {a2} (k3 : Frame s u3) : Frame s (ledGrant a0 a1 a2 u3) := by
  unfold ledGrant
  exact ledGrants_frame k3

theorem ledGrantEnd_frame {s u3 : State} {a0} {a1} {a2} (k3 : Frame s u3) : Frame s (ledGrantEnd a0 a1 a2 u3) := by
  unfold ledGrantEnd
  exact ledGrants_frame k3

theorem ledGrantsRead_frame {s u2 : State} {a0} {a1} (k2 : Frame s u2) : Frame s (ledGrantsRead a0 a1 u2) := by
  unfold ledGrantsRead
  exact Frame.mk' k2

end Sys2Proof.Machine
end

