-- ==== Sys2Proof/Laws/FrameTimeBase.lean ====
section
/-! SUPPORT. What each operation of Machine/TimeBase.lean leaves alone. -/

namespace Sys2Proof.Machine

theorem todUpdate_frame {s u1 : State} {a0} (k1 : Frame s u1) : Frame s (todUpdate a0 u1) := by
  unfold todUpdate
  refine Frame.ite ?_ ?_
  · exact k1
  exact event_frame (Frame.mk' k1)

theorem ampLog_frame {s u2 : State} {a0} {a1} (k2 : Frame s u2) : Frame s (ampLog a0 a1 u2) := by
  unfold ampLog
  refine Frame.ite ?_ ?_
  · exact Frame.mk' k2
  exact k2

theorem onDom_frame {s u2 : State} {a0} {a1} (k2 : Frame s u2) : Frame s (onDom a0 a1 u2) := by
  unfold onDom
  exact Frame.mk' k2

theorem tapCredit_frame {s u4 : State} {a0} {a1} {a2} {a3} (k4 : Frame s u4) : Frame s (tapCredit a0 a1 a2 a3 u4) := by
  unfold tapCredit
  extract_lets +onlyGivenNames -merge -useContext x0
  clear_value x0
  extract_lets +onlyGivenNames -merge -useContext x1
  clear_value x1
  extract_lets +onlyGivenNames -merge -useContext x2
  clear_value x2
  exact Frame.mk' k4

end Sys2Proof.Machine
end

