-- ==== Sys2Proof/Laws/FramePloamBase.lean ====
section
/-! SUPPORT. What each operation of Machine/PloamBase.lean leaves alone. -/

namespace Sys2Proof.Machine

theorem onOnu_frame {s u2 : State} {a0} {a1} (k2 : Frame s u2) : Frame s (onOnu a0 a1 u2) := by
  unfold onOnu
  exact Frame.mk' k2

theorem plQueue_frame {s u1 : State} {a0} (k1 : Frame s u1) : Frame s (plQueue a0 u1) := by
  unfold plQueue
  exact Frame.mk' k1

theorem plSend_frame {s u2 : State} {a0} {a1} (k2 : Frame s u2) : Frame s (plSend a0 a1 u2) := by
  unfold plSend
  split
  · exact plQueue_frame k2
  · exact k2

theorem plAnswered_frame {s u1 : State} {a0} (k1 : Frame s u1) : Frame s (plAnswered a0 u1) := by
  unfold plAnswered
  exact onOnu_frame k1

theorem sbSend_frame {s u4 : State} {a0} {a1} {a2} {a3} (k4 : Frame s u4) : Frame s (sbSend a0 a1 a2 a3 u4) := by
  unfold sbSend
  extract_lets +onlyGivenNames -merge -useContext x0
  clear_value x0
  extract_lets +onlyGivenNames -merge -useContext x1
  clear_value x1
  exact Frame.mk' k4

theorem plBroadcast_frame {s u3 : State} {a0} {a1} {a2} (k3 : Frame s u3) : Frame s (plBroadcast a0 a1 a2 u3) := by
  unfold plBroadcast
  exact plQueue_frame k3

end Sys2Proof.Machine
end

