-- ==== Sys2Proof/Laws/FrameCipBase.lean ====
section
/-! SUPPORT. What each operation of Machine/CipBase.lean leaves alone. -/

namespace Sys2Proof.Machine

theorem onKeyOnu_frame {s u2 : State} {a0} {a1} (k2 : Frame s u2) : Frame s (onKeyOnu a0 a1 u2) := by
  unfold onKeyOnu
  exact Frame.mk' k2

theorem setKey_frame {s u4 : State} {a0} {a1} {a2} {a3} (k4 : Frame s u4) : Frame s (setKey a0 a1 a2 a3 u4) := by
  unfold setKey
  exact Frame.mk' k4

theorem tryExchange_frame {s u1 : State} {a0} (k1 : Frame s u1) : Frame s (tryExchange a0 u1) := by
  unfold tryExchange
  extract_lets +onlyGivenNames -merge -useContext x0
  clear_value x0
  refine Frame.ite ?_ ?_
  · exact k1
  split
  · extract_lets +onlyGivenNames -merge -useContext x1
    clear_value x1
    exact plSend_frame (onKeyOnu_frame (setKey_frame (setKey_frame k1)))
  · exact k1

theorem dueExchange_frame {s u1 : State} {a0} (k1 : Frame s u1) : Frame s (dueExchange a0 u1) := by
  unfold dueExchange
  exact tryExchange_frame (onKeyOnu_frame k1)

theorem startKeyExchange_frame {s u1 : State} {a0} (k1 : Frame s u1) : Frame s (startKeyExchange a0 u1) := by
  unfold startKeyExchange
  extract_lets +onlyGivenNames -merge -useContext x0
  clear_value x0
  exact dueExchange_frame (onKeyOnu_frame k1)

theorem dropKeys_frame {s u1 : State} {a0} (k1 : Frame s u1) : Frame s (dropKeys a0 u1) := by
  unfold dropKeys
  extract_lets +onlyGivenNames -merge -useContext x0
  have h0 : Frame s x0 := by
    refine Frame.foldl (fun u1 _ k1 => ?_) ?_
    · exact setKey_frame (setKey_frame k1)
    exact k1
  clear_value x0
  exact Frame.mk' h0

theorem keyFail_frame {s u1 : State} {a0} (k1 : Frame s u1) : Frame s (keyFail a0 u1) := by
  unfold keyFail
  split
  · exact k1
  · extract_lets +onlyGivenNames -merge -useContext x0
    have h0 : ∀ a u, Frame s u → Frame s (x0 a u) := by
      intro _ u0 k0
      refine Frame.ite ?_ ?_
      · exact setKey_frame k0
      exact k0
    clear_value x0
    exact bump_frame (onKeyOnu_frame (h0 _ _ (h0 _ _ k1)))

theorem keyControlAnswered_frame {s u4 : State} {a0} {a1} {a2} {a3} (k4 : Frame s u4) : Frame s (keyControlAnswered a0 a1 a2 a3 u4) := by
  unfold keyControlAnswered
  refine Frame.ite ?_ ?_
  · exact k4
  split
  · refine Frame.ite ?_ ?_
    · exact keyFail_frame k4
    exact k4
  · exact k4

theorem setBcast_frame {s u3 : State} {a0} {a1} {a2} (k3 : Frame s u3) : Frame s (setBcast a0 a1 a2 u3) := by
  unfold setBcast
  exact Frame.mk' k3

theorem bcastExhaust_frame {s u2 : State} {a0} {a1} (k2 : Frame s u2) : Frame s (bcastExhaust a0 a1 u2) := by
  unfold bcastExhaust
  exact event_frame (bump_frame (setBcast_frame k2))

theorem bcastSwitch_frame {s u2 : State} {a0} {a1} (k2 : Frame s u2) : Frame s (bcastSwitch a0 a1 u2) := by
  unfold bcastSwitch
  extract_lets +onlyGivenNames -merge -useContext x0
  clear_value x0
  extract_lets +onlyGivenNames -merge -useContext x1
  have h1 : Frame s x1 := by
    refine Frame.ite ?_ ?_
    · exact setBcast_frame k2
    exact k2
  clear_value x1
  exact setBcast_frame h1

theorem bcastTick_frame {s u3 : State} {a0} {a1} {a2} (k3 : Frame s u3) : Frame s (bcastTick a0 a1 a2 u3) := by
  unfold bcastTick
  extract_lets +onlyGivenNames -merge -useContext x0
  clear_value x0
  split
  · exact setBcast_frame k3
  · refine Frame.ite ?_ ?_
    · exact bcastSwitch_frame k3
    exact k3
  · exact k3

theorem drawXts_frame {s u1 : State} {a0} (k1 : Frame s u1) : Frame s (drawXts a0 u1) := by
  unfold drawXts
  refine Frame.ite ?_ ?_
  · exact Frame.mk' k1
  exact Frame.mk' k1

theorem dropChan_frame {s u2 : State} {a0} {a1} (k2 : Frame s u2) : Frame s (dropChan a0 a1 u2) := by
  unfold dropChan
  exact bump_frame k2

theorem dropOnu_frame {s u4 : State} {a0} {a1} {a2} {a3} (k4 : Frame s u4) : Frame s (dropOnu a0 a1 a2 a3 u4) := by
  unfold dropOnu
  exact bump_frame (onuBytesOut_frame k4)

theorem keySwitch_frame {s u3 : State} {a0} {a1} {a2} (k3 : Frame s u3) : Frame s (keySwitch a0 a1 a2 u3) := by
  unfold keySwitch
  extract_lets +onlyGivenNames -merge -useContext x0
  clear_value x0
  extract_lets +onlyGivenNames -merge -useContext x1
  have h1 : Frame s x1 := by
    refine Frame.ite ?_ ?_
    · exact setKey_frame k3
    exact k3
  clear_value x1
  exact bump_frame (setKey_frame h1)

theorem keyTick_frame {s u4 : State} {a0} {a1} {a2} {a3} (k4 : Frame s u4) : Frame s (keyTick a0 a1 a2 a3 u4) := by
  unfold keyTick
  extract_lets +onlyGivenNames -merge -useContext x0
  clear_value x0
  split
  · exact setKey_frame k4
  · refine Frame.ite ?_ ?_
    · exact k4
    refine Frame.ite ?_ ?_
    · exact setKey_frame k4
    refine Frame.ite ?_ ?_
    · exact keySwitch_frame k4
    exact k4
  · exact k4

theorem keyBoundary_frame {s u1 : State} {a0} (k1 : Frame s u1) : Frame s (keyBoundary a0 u1) := by
  unfold keyBoundary
  extract_lets +onlyGivenNames -merge -useContext x0
  have h0 : Frame s x0 := by
    refine Frame.foldl (fun u1 _ k1 => ?_) ?_
    · exact keyTick_frame k1
    exact k1
  clear_value x0
  extract_lets +onlyGivenNames -merge -useContext x2
  have h2 : Frame s x2 := by
    refine Frame.foldl (fun u3 _ k3 => ?_) ?_
    · exact bcastTick_frame k3
    exact h0
  clear_value x2
  refine Frame.foldl (fun u4 _ k4 => ?_) ?_
  · exact tryExchange_frame k4
  exact h2

theorem keyExhaust_frame {s u3 : State} {a0} {a1} {a2} (k3 : Frame s u3) : Frame s (keyExhaust a0 a1 a2 u3) := by
  unfold keyExhaust
  extract_lets +onlyGivenNames -merge -useContext x0
  clear_value x0
  exact dueExchange_frame (bump_frame (setKey_frame k3))

theorem sealUnicast_frame {s u5 : State} {a0} {a1} {a2} {a3} {a4} (k5 : Frame s u5) : Frame s (sealUnicast a0 a1 a2 a3 a4 u5).2 := by
  unfold sealUnicast
  refine Frame.ite2 ?_ ?_
  · exact Frame.mk2 k5
  refine Frame.ite2 ?_ ?_
  · exact Frame.mk2 k5
  split
  · extract_lets +onlyGivenNames -merge -useContext x10
    clear_value x10
    exact Frame.mk2 k5
  · extract_lets +onlyGivenNames -merge -useContext x11
    clear_value x11
    refine Frame.ite2 ?_ ?_
    · exact Frame.mk2 (setKey_frame k5)
    split
    · extract_lets +onlyGivenNames -merge -useContext x12
      clear_value x12
      exact Frame.mk2 (setKey_frame k5)
    · exact Frame.mk2 (keyExhaust_frame k5)

theorem sealBcast_frame {s u4 : State} {a0} {a1} {a2} {a3} (k4 : Frame s u4) : Frame s (sealBcast a0 a1 a2 a3 u4).2 := by
  unfold sealBcast
  refine Frame.ite2 ?_ ?_
  · exact Frame.mk2 k4
  split
  · extract_lets +onlyGivenNames -merge -useContext x10
    clear_value x10
    exact Frame.mk2 k4
  · extract_lets +onlyGivenNames -merge -useContext x11
    clear_value x11
    split
    · exact Frame.mk2 (setBcast_frame k4)
    · exact Frame.mk2 (bcastExhaust_frame k4)

theorem drawnKe_frame {s u0 : State} (k0 : Frame s u0) : Frame s (drawnKe u0) := by
  unfold drawnKe
  exact Frame.mk' k0

theorem keyInstall_frame {s u3 : State} {a0} {a1} {a2} (k3 : Frame s u3) : Frame s (keyInstall a0 a1 a2 u3) := by
  unfold keyInstall
  extract_lets +onlyGivenNames -merge -useContext x0
  clear_value x0
  extract_lets +onlyGivenNames -merge -useContext x1
  clear_value x1
  exact bump_frame (onKeyOnu_frame (setKey_frame (setKey_frame k3)))

theorem keQueue_frame {s u1 : State} {a0} (k1 : Frame s u1) : Frame s (keQueue a0 u1) := by
  unfold keQueue
  exact Frame.mk' k1

theorem onCu_frame {s u2 : State} {a0} {a1} (k2 : Frame s u2) : Frame s (onCu a0 a1 u2) := by
  unfold onCu
  exact Frame.mk' k2

theorem cu3Ran_frame {s u1 : State} {a0} (k1 : Frame s u1) : Frame s (cu3Ran a0 u1) := by
  unfold cu3Ran
  exact onCu_frame k1

end Sys2Proof.Machine
end

