-- ==== Sys2Proof/Laws/FrameProtBase.lean ====
section
/-! SUPPORT. What each operation of Machine/ProtBase.lean leaves alone. -/

namespace Sys2Proof.Machine

theorem onGrp_frame {s u2 : State} {a0} {a1} (k2 : Frame s u2) : Frame s (onGrp a0 a1 u2) := by
  unfold onGrp
  exact Frame.mk' k2

theorem protLog_frame {s u1 : State} {a0} (k1 : Frame s u1) : Frame s (protLog a0 u1) := by
  unfold protLog
  exact ampLog_frame k1

theorem darken_frame {s u1 : State} {a0} (k1 : Frame s u1) : Frame s (darken a0 u1) := by
  unfold darken
  refine Frame.foldl (fun u0 _ k0 => ?_) ?_
  · extract_lets +onlyGivenNames -merge -useContext x1
    clear_value x1
    refine Frame.ite ?_ ?_
    · exact k0
    exact sbSend_frame (Frame.mk' k0)
  exact k1

theorem listen_frame {s u1 : State} {a0} (k1 : Frame s u1) : Frame s (listen a0 u1) := by
  unfold listen
  refine Frame.foldl (fun u10 _ k10 => ?_) ?_
  · extract_lets +onlyGivenNames -merge -useContext x11
    clear_value x11
    exact Frame.mk' k10
  exact k1

theorem dropHold_frame {s u3 : State} {a0} {a1} {a2} (k3 : Frame s u3) : Frame s (dropHold a0 a1 a2 u3) := by
  unfold dropHold
  extract_lets +onlyGivenNames -merge -useContext x10
  have h10 : Frame s x10 := listen_frame (darken_frame (onGrp_frame k3))
  clear_value x10
  refine Frame.ite ?_ ?_
  · exact protLog_frame h10
  exact h10

theorem withdrawClaims_frame {s u0 : State} (k0 : Frame s u0) : Frame s (withdrawClaims u0) := by
  unfold withdrawClaims
  refine Frame.foldl (fun u0 _ k0 => ?_) ?_
  · split
    · exact dropHold_frame k0
    · exact dropHold_frame k0
    · exact dropHold_frame k0
    · exact onGrp_frame k0
  exact k0

theorem ixrArrive_frame {s u3 : State} {a0} {a1} {a2} (k3 : Frame s u3) : Frame s (ixrArrive a0 a1 a2 u3).2 := by
  unfold ixrArrive
  extract_lets +onlyGivenNames -merge -useContext x0
  clear_value x0
  extract_lets +onlyGivenNames -merge -useContext x1
  clear_value x1
  extract_lets +onlyGivenNames -merge -useContext x2
  clear_value x2
  extract_lets +onlyGivenNames -merge -useContext _ x3
  have h3 : Frame s x3 := Frame.mk' k3
  clear_value x3
  refine Frame.mk2 ?_
  refine Frame.ite ?_ ?_
  · exact bump_frame h3
  exact h3

theorem ixrSeq_frame {s u3 : State} {a0} {a1} {a2} (k3 : Frame s u3) : Frame s (ixrSeq a0 a1 a2 u3).2 := by
  unfold ixrSeq
  extract_lets +onlyGivenNames -merge -useContext x10
  clear_value x10
  extract_lets +onlyGivenNames -merge -useContext x11
  clear_value x11
  extract_lets +onlyGivenNames -merge -useContext x12
  clear_value x12
  extract_lets +onlyGivenNames -merge -useContext x13
  clear_value x13
  exact Frame.mk2 (Frame.mk' k3)

end Sys2Proof.Machine
end

