-- ==== Sys2Proof/Laws/FramePoolBase.lean ====
section
/-! SUPPORT. What each operation of Machine/PoolBase.lean leaves alone. -/

namespace Sys2Proof.Machine

theorem onPool_frame {s u1 : State} {a0} (k1 : Frame s u1) : Frame s (onPool a0 u1) := by
  unfold onPool
  exact Frame.mk' k1

theorem allocCell_frame {s u3 : State} {a0} {a1} {a2} (k3 : Frame s u3) : Frame s (allocCell a0 a1 a2 u3).2 := by
  unfold allocCell
  refine Frame.ite2 ?_ ?_
  · exact Frame.mk2 k3
  split
  · exact Frame.mk2 (bumpBy_frame k3)
  · extract_lets +onlyGivenNames -merge -useContext x0
    clear_value x0
    extract_lets +onlyGivenNames -merge -useContext x1
    have h1 : Frame s x1 := onPool_frame k3
    clear_value x1
    extract_lets +onlyGivenNames -merge -useContext x2
    have h2 : Frame s x2 := by
      refine Frame.ite ?_ ?_
      · exact bump_frame h1
      exact h1
    clear_value x2
    exact Frame.mk2 (ledCreate_frame (bump_frame (bumpBy_frame h2)))

theorem freeCells_frame {s u1 : State} {a0} (k1 : Frame s u1) : Frame s (freeCells a0 u1) := by
  unfold freeCells
  exact onPool_frame k1

theorem allocCells_frame {s u : State} {r st n acc} (k : Frame s u) : Frame s (allocCells r st n acc u).2 := by
  induction n generalizing u acc with
  | zero => exact k
  | succ n ih =>
    have ha : Frame s (allocCell r acc.length st u).2 := allocCell_frame k
    unfold allocCells
    split
    · exact ih (Frame.ofEq2 (by assumption) ha)
    · exact freeCells_frame (Frame.ofEq2 (by assumption) ha)

theorem allocChain_frame {s u5 : State} {a0} {a1} {a2} {a3} {a4} (k5 : Frame s u5) : Frame s (allocChain a0 a1 a2 a3 a4 u5).2 := by
  unfold allocChain
  split
  · exact Frame.mk2 (Frame.ofEq2 (by assumption) (allocCells_frame k5))
  · extract_lets +onlyGivenNames -merge -useContext x0
    clear_value x0
    exact Frame.mk2 (onPool_frame (Frame.ofEq2 (by assumption) (allocCells_frame k5)))

theorem freeChain_frame {s u1 : State} {a0} (k1 : Frame s u1) : Frame s (freeChain a0 u1) := by
  unfold freeChain
  split
  · exact k1
  · exact freeCells_frame (onPool_frame k1)

theorem countSource_frame {s u4 : State} {a0} {a1} {a2} {a3} (k4 : Frame s u4) : Frame s (countSource a0 a1 a2 a3 u4) := by
  unfold countSource
  refine Frame.ite ?_ ?_
  · exact bump_frame k4
  refine Frame.ite ?_ ?_
  · exact bump_frame k4
  exact bump_frame k4

theorem handOver_frame {s u3 : State} {a0} {a1} {a2} (k3 : Frame s u3) : Frame s (handOver a0 a1 a2 u3) := by
  unfold handOver
  split
  · exact k3
  · exact onPool_frame k3

theorem onChain_frame {s u2 : State} {a0} {a1} (k2 : Frame s u2) : Frame s (onChain a0 a1 u2) := by
  unfold onChain
  exact onPool_frame k2

theorem onQueue_frame {s u2 : State} {a0} {a1} (k2 : Frame s u2) : Frame s (onQueue a0 a1 u2) := by
  unfold onQueue
  exact Frame.mk' k2

theorem refill_frame {s u1 : State} {a0} (k1 : Frame s u1) : Frame s (refill a0 u1) := by
  unfold refill
  split
  · exact k1
  · refine Frame.ite ?_ ?_
    · exact k1
    exact onQueue_frame (onPool_frame k1)

theorem onPage_frame {s u2 : State} {a0} {a1} (k2 : Frame s u2) : Frame s (onPage a0 a1 u2) := by
  unfold onPage
  exact onPool_frame k2

theorem startWrites_frame {s u1 : State} {a0} (k1 : Frame s u1) : Frame s (startWrites a0 u1) := by
  unfold startWrites
  refine Frame.ite ?_ ?_
  · exact k1
  extract_lets +onlyGivenNames -merge -useContext x10
  clear_value x10
  exact onQueue_frame (onPool_frame k1)

theorem closePage_frame {s u1 : State} {a0} (k1 : Frame s u1) : Frame s (closePage a0 u1) := by
  unfold closePage
  exact startWrites_frame (onQueue_frame k1)

theorem openPage_frame {s u1 : State} {a0} (k1 : Frame s u1) : Frame s (openPage a0 u1).2 := by
  unfold openPage
  split
  · exact Frame.mk2 k1
  · split
    · exact Frame.mk2 k1
    · split
      · exact Frame.mk2 k1
      · extract_lets +onlyGivenNames -merge -useContext x0
        clear_value x0
        extract_lets +onlyGivenNames -merge -useContext x1
        have h1 : Frame s x1 := by
          unfold x1
          split
          · exact onPage_frame k1
          · exact k1
        clear_value x1
        exact Frame.mk2 (onQueue_frame (onPool_frame h1))

theorem stageCells_frame {s u : State} {key cell pkt n first} (k : Frame s u) :
    Frame s (stageCells key cell pkt n first u) := by
  induction n generalizing u first with
  | zero => exact k
  | succ n ih =>
    have ho : Frame s (openPage key u).2 := openPage_frame k
    unfold stageCells
    split
    · exact Frame.ofEq2 (by assumption) ho
    · refine ih ?_
      split
      · exact Frame.ite (closePage_frame (onQueue_frame (onPage_frame (Frame.ofEq2 (by assumption) ho))))
          (onQueue_frame (onPage_frame (Frame.ofEq2 (by assumption) ho)))
      · exact onQueue_frame (onPage_frame (Frame.ofEq2 (by assumption) ho))

theorem dropBytes_frame {s u2 : State} {a0} {a1} (k2 : Frame s u2) : Frame s (dropBytes a0 a1 u2) := by
  unfold dropBytes
  extract_lets +onlyGivenNames -merge -useContext x0
  have h0 : Frame s x0 := by
    refine Frame.ite ?_ ?_
    · exact onuBytesOut_frame k2
    exact k2
  clear_value x0
  split
  · exact onuBytesOut_frame h0
  · exact h0

theorem dropChain_frame {s u4 : State} {a0} {a1} {a2} {a3} (k4 : Frame s u4) : Frame s (dropChain a0 a1 a2 a3 u4) := by
  unfold dropChain
  split
  · exact k4
  · exact bump_frame (dropBytes_frame (freeChain_frame k4))

theorem eccDrop_frame {s u1 : State} {a0} (k1 : Frame s u1) : Frame s (eccDrop a0 u1) := by
  unfold eccDrop
  split
  · refine Frame.ite ?_ ?_
    · exact dropChain_frame k1
    exact dropChain_frame k1
  · exact k1

theorem enqueue_frame {s u2 : State} {a0} {a1} (k2 : Frame s u2) : Frame s (enqueue a0 a1 u2) := by
  unfold enqueue
  split
  · split
    · exact onQueue_frame k2
    · exact bumpBy_frame (dropChain_frame k2)
    · refine Frame.ite ?_ ?_
      · exact eccDrop_frame k2
      extract_lets +onlyGivenNames -merge -useContext x10
      have h10 : Frame s x10 := by
        unfold x10
        refine Frame.ite ?_ ?_
        · exact k2
        exact bump_frame (onQueue_frame k2)
      clear_value x10
      extract_lets +onlyGivenNames -merge -useContext x11
      clear_value x11
      extract_lets +onlyGivenNames -merge -useContext x12
      clear_value x12
      extract_lets +onlyGivenNames -merge -useContext x13
      have h13 : Frame s x13 := onChain_frame (onPool_frame h10)
      clear_value x13
      exact refill_frame (stageCells_frame (handOver_frame h13))
  · exact k2

theorem dropSource_frame {s u2 : State} {a0} {a1} (k2 : Frame s u2) : Frame s (dropSource a0 a1 u2) := by
  unfold dropSource
  split
  · exact k2
  · exact countSource_frame (dropBytes_frame (freeChain_frame k2))

theorem freePagesOf_frame {s u1 : State} {a0} (k1 : Frame s u1) : Frame s (freePagesOf a0 u1) := by
  unfold freePagesOf
  exact onPool_frame k1

theorem cellFree_frame {s u1 : State} {a0} (k1 : Frame s u1) : Frame s (cellFree a0 u1) := by
  unfold cellFree
  split
  · exact raiseFault_frame k1
  · refine Frame.ite ?_ ?_
    · exact ledEnd_frame (bump_frame (onPool_frame k1))
    exact k1

theorem freeStaged_frame {s u : State} {page n l} (k : Frame s u) : Frame s (freeStaged page n u l).1 := by
  induction n generalizing u l with
  | zero => unfold freeStaged; exact k
  | succ n ih =>
    cases l with
    | nil => unfold freeStaged; exact k
    | cons e l =>
      obtain ⟨p, cell, m⟩ := e
      unfold freeStaged
      dsimp only
      split
      · exact k
      · split
        · exact ih k
        · split
          · exact ih (freeCells_frame (onPool_frame k))
          · exact ih (onPool_frame (freeCells_frame (onPool_frame k)))

theorem settleMode_frame {s u1 : State} {a0} (k1 : Frame s u1) : Frame s (settleMode a0 u1) := by
  unfold settleMode
  exact onQueue_frame k1

theorem dropDeep_frame {s u3 : State} {a0} {a1} {a2 : DeepPkt → State → State} (hf : ∀ p u, Frame s u → Frame s (a2 p u))
    (k3 : Frame s u3) : Frame s (dropDeep a0 a1 a2 u3) := by
  unfold dropDeep
  split
  · exact k3
  · refine onQueue_frame (Frame.foldl (fun u _ k => onPage_frame k) (Frame.foldl (fun u p k => hf p u k) k3))

theorem endDeep_frame {s u4 : State} {a0} {a1} {a2} {a3} (k4 : Frame s u4) : Frame s (endDeep a0 a1 a2 a3 u4) := by
  unfold endDeep
  refine Frame.ite ?_ ?_
  · exact k4
  exact bump_frame (dropBytes_frame k4)

theorem leaveOrders_frame {s u1 : State} {a0} (k1 : Frame s u1) : Frame s (leaveOrders a0 u1) := by
  unfold leaveOrders
  exact onPool_frame k1

theorem writeHdr_frame {s u2 : State} {a0} {a1} (k2 : Frame s u2) : Frame s (writeHdr a0 a1 u2) := by
  unfold writeHdr
  extract_lets +onlyGivenNames -merge -useContext x10
  clear_value x10
  extract_lets +onlyGivenNames -merge -useContext x11
  clear_value x11
  exact onChain_frame k2

end Sys2Proof.Machine
end

