-- ==== Sys2Proof/Laws/FrameSchedBase.lean ====
section
/-! SUPPORT. What each operation of Machine/SchedBase.lean leaves alone. -/

namespace Sys2Proof.Machine

theorem onVert_frame {s u2 : State} {a0} {a1} (k2 : Frame s u2) : Frame s (onVert a0 a1 u2) := by
  unfold onVert
  split
  · exact Frame.mk' k2
  · exact k2

theorem attach_frame {s u2 : State} {a0} {a1} (k2 : Frame s u2) : Frame s (attach a0 a1 u2) := by
  unfold attach
  exact onVert_frame k2

theorem detach_frame {s u2 : State} {a0} {a1} (k2 : Frame s u2) : Frame s (detach a0 a1 u2) := by
  unfold detach
  exact onVert_frame k2

theorem onDeficit_frame {s u2 : State} {a0} {a1} (k2 : Frame s u2) : Frame s (onDeficit a0 a1 u2) := by
  unfold onDeficit
  refine Frame.ite ?_ ?_
  · exact onQueue_frame k2
  exact onVert_frame k2

theorem rejoin_frame {s u1 : State} {a0} (k1 : Frame s u1) : Frame s (rejoin a0 u1) := by
  unfold rejoin
  refine Frame.ite ?_ ?_
  · exact k1
  exact Frame.mk' k1

theorem settleEmpty_frame {s u2 : State} {a0} {a1} (k2 : Frame s u2) : Frame s (settleEmpty a0 a1 u2) := by
  unfold settleEmpty
  split
  · exact k2
  · refine Frame.ite ?_ ?_
    · exact k2
    extract_lets +onlyGivenNames -merge -useContext x10
    have h10 : Frame s x10 := onDeficit_frame k2
    clear_value x10
    split
    · refine Frame.ite ?_ ?_
      · exact rejoin_frame h10
      exact settleEmpty_frame h10
    · exact h10

theorem moveNode_frame {s u4 : State} {a0} {a1} {a2} {a3} (k4 : Frame s u4) : Frame s (moveNode a0 a1 a2 a3 u4) := by
  unfold moveNode
  split
  · exact k4
  · extract_lets +onlyGivenNames -merge -useContext x10
    clear_value x10
    extract_lets +onlyGivenNames -merge -useContext x11
    have h11 : Frame s x11 := detach_frame k4
    clear_value x11
    extract_lets +onlyGivenNames -merge -useContext x12
    have h12 : Frame s x12 := by
      unfold x12
      refine Frame.ite ?_ ?_
      · exact onQueue_frame h11
      exact onVert_frame h11
    clear_value x12
    exact settleEmpty_frame (attach_frame h12)

theorem rebindQueues_frame {s u2 : State} {a0} {a1} (k2 : Frame s u2) : Frame s (rebindQueues a0 a1 u2) := by
  unfold rebindQueues
  extract_lets +onlyGivenNames -merge -useContext x0
  clear_value x0
  extract_lets +onlyGivenNames -merge -useContext x1
  have h1 : Frame s x1 := by
    refine Frame.foldl (fun u2 _ k2 => ?_) ?_
    · split
      · exact k2
      · refine Frame.ite ?_ ?_
        · exact k2
        extract_lets +onlyGivenNames -merge -useContext x3
        clear_value x3
        split
        · exact moveNode_frame k2
        · exact k2
    exact k2
  clear_value x1
  extract_lets +onlyGivenNames -merge -useContext x4
  clear_value x4
  extract_lets +onlyGivenNames -merge -useContext x5
  clear_value x5
  extract_lets +onlyGivenNames -merge -useContext x6
  clear_value x6
  exact Frame.mk' h1

theorem cutTokens_frame {s u2 : State} {a0} {a1} (k2 : Frame s u2) : Frame s (cutTokens a0 a1 u2) := by
  unfold cutTokens
  extract_lets +onlyGivenNames -merge -useContext x10
  clear_value x10
  exact bumpBy_frame (Frame.mk' k2)

theorem chargeBucket_frame {s u6 : State} {a0} {a1} {a2} {a3} {a4} {a5} (k6 : Frame s u6) : Frame s (chargeBucket a0 a1 a2 a3 a4 a5 u6).2 := by
  unfold chargeBucket
  split
  · extract_lets +onlyGivenNames -merge -useContext x10
    clear_value x10
    exact Frame.mk2 (cutTokens_frame (ledTokens_frame k6))

theorem chargeNode_frame {s u2 : State} {a0} {a1} (k2 : Frame s u2) : Frame s (chargeNode a0 a1 u2) := by
  unfold chargeNode
  split
  · exact k2
  · extract_lets +onlyGivenNames -merge -useContext x0
    clear_value x0
    extract_lets +onlyGivenNames -merge -useContext x1
    clear_value x1
    split
    · exact k2
    · split
      · split
        · refine Frame.ite ?_ ?_
          · refine bumpBy_frame ?_
            refine bump_frame ?_
            refine onQueue_frame ?_
            refine Frame.ofEq2 (by assumption) ?_
            refine Frame.ite2 ?_ ?_
            · refine Frame.mk2 ?_
              refine Frame.ofEq2 (by assumption) ?_
              refine Frame.ite2 ?_ ?_
              · exact Frame.mk2 k2
              exact chargeBucket_frame k2
            refine chargeBucket_frame ?_
            refine Frame.ofEq2 (by assumption) ?_
            refine Frame.ite2 ?_ ?_
            · exact Frame.mk2 k2
            exact chargeBucket_frame k2
          refine bumpBy_frame ?_
          refine onVert_frame ?_
          refine Frame.ofEq2 (by assumption) ?_
          refine Frame.ite2 ?_ ?_
          · refine Frame.mk2 ?_
            refine Frame.ofEq2 (by assumption) ?_
            refine Frame.ite2 ?_ ?_
            · exact Frame.mk2 k2
            exact chargeBucket_frame k2
          refine chargeBucket_frame ?_
          refine Frame.ofEq2 (by assumption) ?_
          refine Frame.ite2 ?_ ?_
          · exact Frame.mk2 k2
          exact chargeBucket_frame k2

theorem ptrNext_frame {s u3 : State} {a0} {a1} {a2} (k3 : Frame s u3) : Frame s (ptrNext a0 a1 a2 u3) := by
  unfold ptrNext
  exact onVert_frame k3

theorem drrPick_frame {s u : State} {v prio ring ok n} (k : Frame s u) : Frame s (drrPick v prio ring ok n u).2 := by
  induction n generalizing u with
  | zero => exact k
  | succ n ih =>
    unfold drrPick
    extract_lets +onlyGivenNames p
    split
    · exact k
    · refine Frame.ite2 (ih (ptrNext_frame k)) ?_
      extract_lets +onlyGivenNames w x
      have hx : Frame s x := Frame.ite k (onVert_frame (onDeficit_frame k))
      clear_value x
      exact Frame.ite2 hx (ih (ptrNext_frame hx))

theorem chooseChild_frame {s u1 : State} {a0} (k1 : Frame s u1) : Frame s (chooseChild a0 u1).2 := by
  unfold chooseChild
  split
  · exact Frame.mk2 k1
  · extract_lets +onlyGivenNames -merge -useContext x0
    clear_value x0
    extract_lets +onlyGivenNames -merge -useContext x1
    clear_value x1
    extract_lets +onlyGivenNames -merge -useContext x2
    clear_value x2
    split
    · exact Frame.mk2 k1
    · exact drrPick_frame k1

theorem settleDeficit_frame {s u2 : State} {a0} {a1} (k2 : Frame s u2) : Frame s (settleDeficit a0 a1 u2) := by
  unfold settleDeficit
  split
  · exact k2
  · extract_lets +onlyGivenNames -merge -useContext x0
    clear_value x0
    extract_lets +onlyGivenNames -merge -useContext x1
    have h1 : Frame s x1 := onDeficit_frame k2
    clear_value x1
    extract_lets +onlyGivenNames -merge -useContext x2
    have h2 : Frame s x2 := by
      refine Frame.ite ?_ ?_
      · exact onDeficit_frame h1
      exact h1
    clear_value x2
    extract_lets +onlyGivenNames -merge -useContext x3
    clear_value x3
    refine Frame.ite ?_ ?_
    · exact ptrNext_frame h2
    exact h2

theorem walkDown_frame {s u : State} {n v} (k : Frame s u) : Frame s (walkDown n v u).2 := by
  induction n generalizing u v with
  | zero => exact k
  | succ n ih =>
    have hc : Frame s (chooseChild v u).2 := chooseChild_frame k
    unfold walkDown
    split
    · exact Frame.ofEq2 (by assumption) hc
    · rename_i e
      have h := Frame.ofEq2 e hc
      split
      · exact h
      · split
        · rename_i e2
          exact Frame.ofEq2 e2 (ih h)
        · rename_i e2
          exact Frame.ofEq2 e2 (ih h)

theorem emptyQueue_frame {s u4 : State} {a0} {a1} {a2} {a3} (k4 : Frame s u4) : Frame s (emptyQueue a0 a1 a2 a3 u4).2 := by
  unfold emptyQueue
  split
  · exact Frame.mk2 k4
  · extract_lets +onlyGivenNames -merge -useContext x10
    clear_value x10
    extract_lets +onlyGivenNames -merge -useContext x11
    clear_value x11
    extract_lets +onlyGivenNames -merge -useContext x12
    have h12 : Frame s x12 := by
      unfold x12
      refine Frame.foldl (fun u13 _ k13 => ?_) ?_
      · exact dropChain_frame k13
      exact k4
    clear_value x12
    extract_lets +onlyGivenNames -merge -useContext x14
    have h14 : Frame s x14 := by
      unfold x14
      refine Frame.foldl (fun u15 _ k15 => ?_) ?_
      · exact freeChain_frame k15
      exact h12
    clear_value x14
    extract_lets +onlyGivenNames -merge -useContext x16
    have h16 : Frame s x16 := by
      unfold x16
      refine Frame.foldl (fun u17 _ k17 => ?_) ?_
      · exact endDeep_frame k17
      exact h14
    clear_value x16
    exact Frame.mk2 (settleEmpty_frame (leaveOrders_frame (onQueue_frame (freePagesOf_frame h16))))

theorem ledRebase_frame {s u5 : State} {a0} {a1} {a2} {a3} {a4} (k5 : Frame s u5) : Frame s (ledRebase a0 a1 a2 a3 a4 u5) := by
  unfold ledRebase
  refine Frame.ite ?_ ?_
  · exact k5
  split
  · exact cutTokens_frame (ledTokens_frame k5)

theorem readNode_frame {s u1 : State} {a0} (k1 : Frame s u1) : Frame s (readNode a0 u1) := by
  unfold readNode
  split
  · exact k1
  · extract_lets +onlyGivenNames -merge -useContext x10
    clear_value x10
    extract_lets +onlyGivenNames -merge -useContext x11
    clear_value x11
    extract_lets +onlyGivenNames -merge -useContext x12
    have h12 : ∀ b0 b1 v, Frame s v → Frame s (x12 b0 b1 v) := by
      intro b0 b1 v kv12
      unfold x12
      exact ledRebase_frame (ledRebase_frame kv12)
    clear_value x12
    refine Frame.ite ?_ ?_
    · split
      · exact k1
      · exact onQueue_frame (h12 _ _ _ k1)
    split
    · exact k1
    · exact onVert_frame (h12 _ _ _ k1)

end Sys2Proof.Machine
end

