-- ==== Sys2Proof/Laws/FrameEmBase.lean ====
section
/-! SUPPORT. What each operation of Machine/EmBase.lean leaves alone. -/

namespace Sys2Proof.Machine

theorem onEm_frame {s u1 : State} {a0} (k1 : Frame s u1) : Frame s (onEm a0 u1) := by
  unfold onEm
  exact Frame.mk' k1

theorem onOwner_frame {s u2 : State} {a0} {a1} (k2 : Frame s u2) : Frame s (onOwner a0 a1 u2) := by
  unfold onOwner
  exact onEm_frame k2

theorem emWrite_frame {s u1 : State} {a0} (k1 : Frame s u1) : Frame s (emWrite a0 u1) := by
  unfold emWrite
  exact onEm_frame k1

theorem emPut_frame {s u2 : State} {a0} {a1} (k2 : Frame s u2) : Frame s (emPut a0 a1 u2) := by
  unfold emPut
  exact emWrite_frame (onEm_frame k2)

theorem emInval_frame {s u2 : State} {a0} {a1} (k2 : Frame s u2) : Frame s (emInval a0 a1 u2) := by
  unfold emInval
  exact emWrite_frame (onEm_frame k2)

theorem emPromote_frame {s u1 : State} {a0} (k1 : Frame s u1) : Frame s (emPromote a0 u1) := by
  unfold emPromote
  refine Frame.ite ?_ ?_
  · exact k1
  extract_lets +onlyGivenNames -merge -useContext x0
  clear_value x0
  split
  · exact k1
  · split
    · exact bump_frame (emInval_frame (emPut_frame k1))
    · exact k1

theorem wayFreed_frame {s u1 : State} {a0} (k1 : Frame s u1) : Frame s (wayFreed a0 u1) := by
  unfold wayFreed
  refine Frame.ite ?_ ?_
  · exact k1
  refine Frame.ite ?_ ?_
  · exact emPromote_frame k1
  extract_lets +onlyGivenNames -merge -useContext x0
  clear_value x0
  refine Frame.ite ?_ ?_
  · exact bump_frame (onEm_frame k1)
  exact k1

theorem emDelete_frame {s u1 : State} {a0} (k1 : Frame s u1) : Frame s (emDelete a0 u1) := by
  unfold emDelete
  split
  · exact k1
  · extract_lets +onlyGivenNames -merge -useContext x0
    have h0 : Frame s x0 := by
      refine Frame.ite ?_ ?_
      · exact onOwner_frame k1
      exact k1
    clear_value x0
    exact wayFreed_frame (emInval_frame h0)

theorem deleteAll_frame {s u2 : State} {a0} {a1} (k2 : Frame s u2) : Frame s (deleteAll a0 a1 u2).2 := by
  unfold deleteAll
  split
  · exact Frame.mk2 k2
  · split
    · exact Frame.mk2 k2
    · split
      · exact Frame.mk2 (Frame.ofEq2 (by assumption) (deleteAll_frame (emDelete_frame k2)))

theorem forgetLearned_frame {s u1 : State} {a0} (k1 : Frame s u1) : Frame s (forgetLearned a0 u1) := by
  unfold forgetLearned
  exact deleteAll_frame k1

theorem emLookup_frame {s u3 : State} {a0} {a1} {a2} (k3 : Frame s u3) : Frame s (emLookup a0 a1 a2 u3).2 := by
  unfold emLookup
  extract_lets +onlyGivenNames -merge -useContext x0
  have h0 : Frame s x0 := bump_frame k3
  clear_value x0
  split
  · extract_lets +onlyGivenNames -merge -useContext x1
    clear_value x1
    exact Frame.mk2 (bump_frame (onEm_frame h0))
  · extract_lets +onlyGivenNames -merge -useContext x2
    have h2 : Frame s x2 := by
      refine Frame.ite ?_ ?_
      · exact bump_frame h0
      exact h0
    clear_value x2
    exact Frame.mk2 (bump_frame h2)

theorem runDeferred_frame {s u0 : State} (k0 : Frame s u0) : Frame s (runDeferred u0) := by
  unfold runDeferred
  refine Frame.ite ?_ ?_
  · extract_lets +onlyGivenNames -merge -useContext x0
    clear_value x0
    refine Frame.foldl (fun u1 _ k1 => ?_) ?_
    · exact emPromote_frame k1
    exact onEm_frame k0
  exact k0

theorem closeWalk_frame {s u1 : State} {a0} (k1 : Frame s u1) : Frame s (closeWalk a0 u1) := by
  unfold closeWalk
  exact runDeferred_frame (onEm_frame k1)

theorem emPlace_frame {s u1 : State} {a0} (k1 : Frame s u1) : Frame s (emPlace a0 u1).2 := by
  unfold emPlace
  extract_lets +onlyGivenNames -merge -useContext x0
  clear_value x0
  split
  · exact Frame.mk2 (emPut_frame k1)
  · split
    · exact Frame.mk2 k1
    · extract_lets +onlyGivenNames -merge -useContext x1
      clear_value x1
      split
      · split
        · exact Frame.mk2 (emPut_frame (bump_frame (emInval_frame (emPut_frame k1))))
        · exact Frame.mk2 (emPut_frame k1)
      · exact Frame.mk2 (emPut_frame k1)

theorem emSettle_frame {s u0 : State} (k0 : Frame s u0) : Frame s (emSettle u0) := by
  unfold emSettle
  extract_lets +onlyGivenNames -merge -useContext x0
  clear_value x0
  extract_lets +onlyGivenNames -merge -useContext x1
  have h1 : Frame s x1 := onEm_frame k0
  clear_value x1
  refine Frame.foldl (fun u2 _ k2 => ?_) ?_
  · exact complete_frame k2
  exact h1

end Sys2Proof.Machine
end

