-- ==== Sys2Proof/Laws/FrameHooksA.lean ====
section
/-! SUPPORT. What each operation of Machine/HooksA.lean leaves alone. -/

namespace Sys2Proof.Machine

theorem dropTx_frame {s u2 : State} {a0} {a1} (k2 : Frame s u2) : Frame s (dropTx a0 a1 u2) := by
  unfold dropTx
  extract_lets +onlyGivenNames -merge -useContext x10
  have h10 : Frame s x10 := by
    unfold x10
    split
    · exact onuBytesOut_frame k2
    · exact k2
  clear_value x10
  exact countSource_frame h10

theorem handleTaken_frame {s u2 : State} {a0} {a1} (k2 : Frame s u2) : Frame s (handleTaken a0 a1 u2) := by
  unfold handleTaken
  refine Frame.ite ?_ ?_
  · exact k2
  exact Frame.mk' k2

theorem newContext_frame {s u2 : State} {a0} {a1} (k2 : Frame s u2) : Frame s (newContext a0 a1 u2) := by
  unfold newContext
  extract_lets +onlyGivenNames -merge -useContext x10
  clear_value x10
  extract_lets +onlyGivenNames -merge -useContext x11
  clear_value x11
  extract_lets +onlyGivenNames -merge -useContext x12
  clear_value x12
  extract_lets +onlyGivenNames -merge -useContext x13
  have h13 : Frame s x13 := Frame.mk' k2
  clear_value x13
  extract_lets +onlyGivenNames -merge -useContext x14
  have h14 : Frame s x14 := by
    unfold x14
    refine Frame.foldl (fun u15 _ k15 => ?_) ?_
    · exact clearCtr_frame k15
    exact h13
  clear_value x14
  extract_lets +onlyGivenNames -merge -useContext x16
  have h16 : Frame s x16 := by
    unfold x16
    refine Frame.foldl (fun u17 _ k17 => ?_) ?_
    · exact clearCtr_frame k17
    exact h14
  clear_value x16
  refine Frame.ite ?_ ?_
  · exact h16
  exact handleTaken_frame (Frame.mk' h16)

theorem portDownFlush_frame {s u1 : State} {a0} (k1 : Frame s u1) : Frame s (portDownFlush a0 u1) := by
  unfold portDownFlush
  extract_lets +onlyGivenNames -merge -useContext x0
  clear_value x0
  extract_lets +onlyGivenNames -merge -useContext x1
  have h1 : Frame s x1 := by
    refine Frame.foldl (fun u2 _ k2 => ?_) ?_
    · exact bump_frame (dropTx_frame k2)
    exact k1
  clear_value x1
  exact Frame.mk' h1

theorem setRssi_frame {s u3 : State} {a0} {a1} {a2} (k3 : Frame s u3) : Frame s (setRssi a0 a1 a2 u3) := by
  unfold setRssi
  exact Frame.mk' k3

end Sys2Proof.Machine
end

