-- ==== Sys2Proof/Laws/FrameLag.lean ====
section
/-! SUPPORT. What each operation of Machine/Lag.lean leaves alone. -/

namespace Sys2Proof.Machine

theorem onLag_frame {s u2 : State} {a0} {a1} (k2 : Frame s u2) : Frame s (onLag a0 a1 u2) := by
  unfold onLag
  exact Frame.mk' k2

theorem dropAssignedQueue_frame {s u3 : State} {a0} {a1} {a2} (k3 : Frame s u3) : Frame s (dropAssignedQueue a0 a1 a2 u3) := by
  unfold dropAssignedQueue
  split
  · exact k3
  · extract_lets +onlyGivenNames -merge -useContext x10
    clear_value x10
    extract_lets +onlyGivenNames -merge -useContext x11
    have h11 : ∀ b0 v, Frame s v → Frame s (x11 b0 v) := by
      intro b0 v kv11
      unfold x11
      exact bump_frame (countSource_frame (dropBytes_frame kv11))
    clear_value x11
    extract_lets +onlyGivenNames -merge -useContext x12
    clear_value x12
    extract_lets +onlyGivenNames -merge -useContext x13
    have h13 : Frame s x13 := onQueue_frame k3
    clear_value x13
    extract_lets +onlyGivenNames -merge -useContext x14
    have h14 : Frame s x14 := by
      unfold x14
      refine Frame.foldl (fun u15 _ k15 => ?_) ?_
      · exact bump_frame (dropSource_frame k15)
      exact h13
    clear_value x14
    extract_lets +onlyGivenNames -merge -useContext x16
    have h16 : Frame s x16 := by
      unfold x16
      refine dropDeep_frame ?_ ?_
      · intro b170 u17 k17
        exact h11 _ _ k17
      exact h14
    clear_value x16
    exact settleEmpty_frame (refill_frame h16)

theorem dropAssigned_frame {s u2 : State} {a0} {a1} (k2 : Frame s u2) : Frame s (dropAssigned a0 a1 u2) := by
  unfold dropAssigned
  extract_lets +onlyGivenNames -merge -useContext x10
  clear_value x10
  extract_lets +onlyGivenNames -merge -useContext x11
  clear_value x11
  extract_lets +onlyGivenNames -merge -useContext x12
  clear_value x12
  extract_lets +onlyGivenNames -merge -useContext x13
  have h13 : Frame s x13 := by
    unfold x13
    refine Frame.foldl (fun u14 _ k14 => ?_) ?_
    · exact bump_frame (dropSource_frame k14)
    exact Frame.mk' k2
  clear_value x13
  refine rejoin_frame ?_
  refine Frame.foldl (fun u15 _ k15 => ?_) ?_
  · exact dropAssignedQueue_frame k15
  exact h13

theorem lagDown_frame {s u2 : State} {a0} {a1} (k2 : Frame s u2) : Frame s (lagDown a0 a1 u2) := by
  unfold lagDown
  split
  · exact k2
  · refine Frame.ite ?_ ?_
    · exact k2
    split
    · exact bumpBy_frame (dropAssigned_frame (onLag_frame k2))

theorem lagUp_frame {s u2 : State} {a0} {a1} (k2 : Frame s u2) : Frame s (lagUp a0 a1 u2) := by
  unfold lagUp
  split
  · exact k2
  · refine Frame.ite ?_ ?_
    · exact k2
    split
    · exact bumpBy_frame (onLag_frame k2)

theorem lagMemberSet_frame {s u2 : State} {a0} {a1} (k2 : Frame s u2) : Frame s (lagMemberSet a0 a1 u2).1 := by
  unfold lagMemberSet
  split
  · exact deny_frame k2
  · refine Frame.ite1 ?_ ?_
    · exact deny_frame k2
    extract_lets +onlyGivenNames -merge -useContext x0
    clear_value x0
    extract_lets +onlyGivenNames -merge -useContext x1
    have h1 : Frame s x1 := by
      refine Frame.foldl (fun u2 _ k2 => ?_) ?_
      · exact lagDown_frame k2
      exact k2
    clear_value x1
    extract_lets +onlyGivenNames -merge -useContext x3
    clear_value x3
    refine Frame.ite1 ?_ ?_
    · exact done_frame (onLag_frame h1)
    extract_lets +onlyGivenNames -merge -useContext x4
    have h4 : Frame s x4 := onLag_frame h1
    clear_value x4
    refine done_frame ?_
    refine Frame.foldl (fun u5 _ k5 => ?_) ?_
    · exact lagUp_frame k5
    exact h4

theorem reorderTimeout_frame {s u1 : State} {a0} (k1 : Frame s u1) : Frame s (reorderTimeout a0 u1) := by
  unfold reorderTimeout
  split
  · exact k1
  · extract_lets +onlyGivenNames -merge -useContext x0
    clear_value x0
    split
    · exact k1
    · extract_lets +onlyGivenNames -merge -useContext x1
      clear_value x1
      extract_lets +onlyGivenNames -merge -useContext x2
      have h2 : Frame s x2 := by
        unfold x2
        split
        · exact onLag_frame k1
        · exact k1
      clear_value x2
      exact bump_frame (onLag_frame h2)

theorem execClassStats_frame {s u3 : State} {a0} {a1} {a2} (k3 : Frame s u3) : Ran (Frame s) (execClassStats a0 a1 a2 u3) := by
  unfold execClassStats
  refine kilak_ran (Frame.closed _) ?_ fun u10 k10 => ?_
  · exact k3
  extract_lets +onlyGivenNames -merge -useContext x11
  clear_value x11
  refine Frame.ite1 ?_ ?_
  · exact deny_frame k10
  split
  · exact doneWith_frame k10
  · exact doneWith_frame k10
  · exact doneWith_frame k10
  · exact doneWith_frame k10
  · exact deny_frame k10

theorem execLagCreate_frame {s u3 : State} {a0} {a1} {a2} (k3 : Frame s u3) : Ran (Frame s) (execLagCreate a0 a1 a2 u3) := by
  unfold execLagCreate
  refine kilak_ran (Frame.closed _) ?_ fun u0 k0 => ?_
  · exact k3
  refine Frame.ite1 ?_ ?_
  · exact deny_frame k0
  exact done_frame (Frame.mk' k0)

theorem execLagDestroy_frame {s u2 : State} {a0} {a1} (k2 : Frame s u2) : Ran (Frame s) (execLagDestroy a0 a1 u2) := by
  unfold execLagDestroy
  refine kilak_ran (Frame.closed _) ?_ fun u0 k0 => ?_
  · exact k2
  split
  · exact deny_frame k0
  · refine Frame.ite1 ?_ ?_
    · exact deny_frame k0
    exact done_frame (Frame.mk' k0)

theorem execLagMemberDown_frame {s u2 : State} {a0} {a1} (k2 : Frame s u2) : Ran (Frame s) (execLagMemberDown a0 a1 u2) := by
  unfold execLagMemberDown
  refine island_ran (Frame.closed _) ?_ fun u0 k0 => ?_
  · exact k2
  exact lagDown_frame k0

theorem execLagMemberSet_frame {s u3 : State} {a0} {a1} {a2} (k3 : Frame s u3) : Ran (Frame s) (execLagMemberSet a0 a1 a2 u3) := by
  unfold execLagMemberSet
  refine kilak_ran (Frame.closed _) ?_ fun u0 k0 => ?_
  · exact k3
  exact lagMemberSet_frame k0

theorem execLagMemberUp_frame {s u2 : State} {a0} {a1} (k2 : Frame s u2) : Ran (Frame s) (execLagMemberUp a0 a1 u2) := by
  unfold execLagMemberUp
  refine island_ran (Frame.closed _) ?_ fun u0 k0 => ?_
  · exact k2
  exact lagUp_frame k0

theorem execLagReorderTimeout_frame {s u1 : State} {a0} (k1 : Frame s u1) : Ran (Frame s) (execLagReorderTimeout a0 u1) := by
  unfold execLagReorderTimeout
  refine island_ran (Frame.closed _) ?_ fun u0 k0 => ?_
  · exact k1
  exact reorderTimeout_frame k0

theorem execLagStatus_frame {s u2 : State} {a0} {a1} (k2 : Frame s u2) : Ran (Frame s) (execLagStatus a0 a1 u2) := by
  unfold execLagStatus
  refine kilak_ran (Frame.closed _) ?_ fun u0 k0 => ?_
  · exact k2
  split
  · exact deny_frame k0
  · exact doneWith_frame k0

end Sys2Proof.Machine
end

