-- ==== Sys2Proof/Laws/FramePool.lean ====
section
/-! SUPPORT. What each operation of Machine/Pool.lean leaves alone. -/

namespace Sys2Proof.Machine

theorem arriveAt_frame {s u3 : State} {a0} {a1} {a2} (k3 : Frame s u3) : Frame s (arriveAt a0 a1 a2 u3) := by
  unfold arriveAt
  split
  · exact dropChain_frame k3
  · extract_lets +onlyGivenNames -merge -useContext x10
    have h10 : Frame s x10 := by
      unfold x10
      split
      · split
        · refine Frame.ite ?_ ?_
          · exact k3
          exact onuBytesIn_frame (onChain_frame k3)
        · exact k3
      · exact k3
    clear_value x10
    extract_lets +onlyGivenNames -merge -useContext x11
    clear_value x11
    refine Frame.ite ?_ ?_
    · exact enqueue_frame h10
    exact bump_frame (dropChain_frame h10)

theorem arriveLag_frame {s u3 : State} {a0} {a1} {a2} (k3 : Frame s u3) : Frame s (arriveLag a0 a1 a2 u3) := by
  unfold arriveLag
  split
  · exact dropSource_frame k3
  · split
    · exact bump_frame (dropSource_frame k3)
    · split
      · exact dropChain_frame k3
      · extract_lets +onlyGivenNames -merge -useContext x10
        have h10 : Frame s x10 := onLag_frame k3
        clear_value x10
        exact arriveAt_frame (writeHdr_frame h10)

theorem deepLost_frame {s u3 : State} {a0} {a1} {a2} (k3 : Frame s u3) : Frame s (deepLost a0 a1 a2 u3) := by
  unfold deepLost
  refine Frame.ite ?_ ?_
  · exact k3
  refine bump_frame ?_
  refine Frame.ite ?_ ?_
  · exact k3
  exact dropBytes_frame k3

theorem descriptorArrival_frame {s u1 : State} {a0} (k1 : Frame s u1) : Frame s (descriptorArrival a0 u1) := by
  unfold descriptorArrival
  split
  · exact k1
  · extract_lets +onlyGivenNames -merge -useContext _ x0
    have h0 : Frame s x0 := Frame.mk' k1
    clear_value x0
    extract_lets +onlyGivenNames -merge -useContext x1
    have h1 : Frame s x1 := handOver_frame h0
    clear_value x1
    split
    · refine Frame.ite ?_ ?_
      · exact arriveLag_frame h1
      exact arriveAt_frame h1
    · exact arriveAt_frame h1

theorem descriptorLost_frame {s u1 : State} {a0} (k1 : Frame s u1) : Frame s (descriptorLost a0 u1) := by
  unfold descriptorLost
  split
  · exact k1
  · exact dropChain_frame (Frame.mk' k1)

theorem flushTimeout_frame {s u1 : State} {a0} (k1 : Frame s u1) : Frame s (flushTimeout a0 u1) := by
  unfold flushTimeout
  split
  · exact k1
  · split
    · refine Frame.ite ?_ ?_
      · exact closePage_frame k1
      exact k1
    · exact k1

theorem readBack_frame {s u2 : State} {a0} {a1} (k2 : Frame s u2) : Frame s (readBack a0 a1 u2) := by
  unfold readBack
  extract_lets +onlyGivenNames -merge -useContext x10
  clear_value x10
  split
  · exact bump_frame (dropBytes_frame (Frame.ofEq2 (by assumption) (allocChain_frame k2)))
  · extract_lets +onlyGivenNames -merge -useContext x11
    clear_value x11
    exact onQueue_frame (handOver_frame (onChain_frame (Frame.ofEq2 (by assumption) (allocChain_frame k2))))

theorem leaveRead_frame {s u1 : State} {a0} (k1 : Frame s u1) : Frame s (leaveRead a0 u1) := by
  unfold leaveRead
  exact onPool_frame k1

theorem pageReadDone_frame {s u3 : State} {a0} {a1} {a2} (k3 : Frame s u3) : Frame s (pageReadDone a0 a1 a2 u3) := by
  unfold pageReadDone
  split
  · exact k3
  · split
    · exact k3
    · refine Frame.ite ?_ ?_
      · exact k3
      split
      · exact k3
      · extract_lets +onlyGivenNames -merge -useContext x10
        clear_value x10
        extract_lets +onlyGivenNames -merge -useContext x11
        have h11 : ∀ v, Frame s v → Frame s (x11 v) := by
          intro v kv11
          unfold x11
          exact raiseFault_frame kv11
        clear_value x11
        refine Frame.ite ?_ ?_
        · extract_lets +onlyGivenNames -merge -useContext x12
          clear_value x12
          extract_lets +onlyGivenNames -merge -useContext x13
          clear_value x13
          extract_lets +onlyGivenNames -merge -useContext x14
          have h14 : Frame s x14 := by
            unfold x14
            refine Frame.foldl (fun u15 _ k15 => ?_) ?_
            · exact deepLost_frame k15
            exact leaveRead_frame (h11 _ k3)
          clear_value x14
          exact settleMode_frame (onQueue_frame (freePagesOf_frame h14))
        extract_lets +onlyGivenNames -merge -useContext x16
        clear_value x16
        split
        · split
          · extract_lets +onlyGivenNames -merge -useContext x17
            clear_value x17
            extract_lets +onlyGivenNames -merge -useContext x18
            clear_value x18
            extract_lets +onlyGivenNames -merge -useContext x19
            have h19 : Frame s x19 := by
              unfold x19
              refine leaveRead_frame ?_
              refine Frame.ite ?_ ?_
              · exact h11 _ k3
              exact k3
            clear_value x19
            extract_lets +onlyGivenNames -merge -useContext x20
            have h20 : Frame s x20 := bump_frame (freePagesOf_frame (onQueue_frame h19))
            clear_value x20
            extract_lets +onlyGivenNames -merge -useContext x21
            have h21 : Frame s x21 := by
              unfold x21
              refine Frame.foldl (fun u22 _ k22 => ?_) ?_
              · refine Frame.ite ?_ ?_
                · exact k22
                refine Frame.ite ?_ ?_
                · exact deepLost_frame k22
                exact readBack_frame k22
              exact h20
            clear_value x21
            exact refill_frame (settleMode_frame h21)

theorem writeSpoils_frame {s u3 : State} {a0} {a1} {a2} (k3 : Frame s u3) : Frame s (writeSpoils a0 a1 a2 u3) := by
  unfold writeSpoils
  extract_lets +onlyGivenNames -merge -useContext x10
  clear_value x10
  refine dropDeep_frame ?_ ?_
  · intro b110 u11 k11
    exact endDeep_frame k11
  exact k3

theorem pageWriteDone_frame {s u1 : State} {a0} (k1 : Frame s u1) : Frame s (pageWriteDone a0 u1) := by
  unfold pageWriteDone
  split
  · exact k1
  · split
    · exact k1
    · extract_lets +onlyGivenNames -merge -useContext x10
      have h10 : Frame s x10 := onPool_frame (writeSpoils_frame k1)
      clear_value x10
      extract_lets +onlyGivenNames -merge -useContext x11
      clear_value x11
      split
      · extract_lets +onlyGivenNames -merge -useContext x12
        have h12 : Frame s x12 := onPage_frame (onQueue_frame (Frame.ofEq1 (by assumption) (freeStaged_frame h10)))
        clear_value x12
        extract_lets +onlyGivenNames -merge -useContext x13
        clear_value x13
        extract_lets +onlyGivenNames -merge -useContext x14
        have h14 : Frame s x14 := bump_frame h12
        clear_value x14
        refine refill_frame ?_
        refine startWrites_frame ?_
        refine Frame.ite ?_ ?_
        · exact bump_frame h14
        exact h14

theorem execCellFree_frame {s u1 : State} {a0} (k1 : Frame s u1) : Ran (Frame s) (execCellFree a0 u1) := by
  unfold execCellFree
  refine Frame.iteO ?_ ?_
  · exact Ran.next k1
  refine island_ran (Frame.closed _) ?_ fun u0 k0 => ?_
  · exact k1
  exact cellFree_frame k0

theorem execDbufFlushTimeout_frame {s u1 : State} {a0} (k1 : Frame s u1) : Ran (Frame s) (execDbufFlushTimeout a0 u1) := by
  unfold execDbufFlushTimeout
  refine island_ran (Frame.closed _) ?_ fun u0 k0 => ?_
  · exact k1
  exact flushTimeout_frame k0

theorem execDbufPageRead_frame {s u2 : State} {a0} {a1} (k2 : Frame s u2) : Ran (Frame s) (execDbufPageRead a0 a1 u2) := by
  unfold execDbufPageRead
  refine kilak_ran (Frame.closed _) ?_ fun u0 k0 => ?_
  · exact k2
  refine Frame.ite1 ?_ ?_
  · exact deny_frame k0
  exact doneWith_frame k0

theorem execDbufPageReadDone_frame {s u3 : State} {a0} {a1} {a2} (k3 : Frame s u3) : Ran (Frame s) (execDbufPageReadDone a0 a1 a2 u3) := by
  unfold execDbufPageReadDone
  refine island_ran (Frame.closed _) ?_ fun u0 k0 => ?_
  · exact k3
  exact pageReadDone_frame k0

theorem execDbufPageWriteDone_frame {s u1 : State} {a0} (k1 : Frame s u1) : Ran (Frame s) (execDbufPageWriteDone a0 u1) := by
  unfold execDbufPageWriteDone
  refine island_ran (Frame.closed _) ?_ fun u0 k0 => ?_
  · exact k1
  exact pageWriteDone_frame k0

theorem execDbufProfileSet_frame {s u3 : State} {a0} {a1} {a2} (k3 : Frame s u3) : Ran (Frame s) (execDbufProfileSet a0 a1 a2 u3) := by
  unfold execDbufProfileSet
  refine kilak_ran (Frame.closed _) ?_ fun u10 k10 => ?_
  · exact k3
  refine Frame.ite1 ?_ ?_
  · exact deny_frame k10
  extract_lets +onlyGivenNames -merge -useContext x11
  have h11 : Frame s x11 := onPool_frame k10
  clear_value x11
  refine done_frame ?_
  refine Frame.foldl (fun u12 _ k12 => ?_) ?_
  · exact refill_frame k12
  exact h11

theorem execDbufStatus_frame {s u2 : State} {a0} {a1} (k2 : Frame s u2) : Ran (Frame s) (execDbufStatus a0 a1 u2) := by
  unfold execDbufStatus
  refine kilak_ran (Frame.closed _) ?_ fun u0 k0 => ?_
  · exact k2
  refine Frame.ite1 ?_ ?_
  · exact deny_frame k0
  exact doneWith_frame (State.drawn_frame (State.drawn_frame k0))

theorem execDescriptorArrival_frame {s u1 : State} {a0} (k1 : Frame s u1) : Ran (Frame s) (execDescriptorArrival a0 u1) := by
  unfold execDescriptorArrival
  extract_lets +onlyGivenNames -merge -useContext x0
  clear_value x0
  refine Frame.iteO ?_ ?_
  · exact Ran.fault
  refine Frame.iteO ?_ ?_
  · exact Ran.next (descriptorArrival_frame k1)
  exact Ran.next (descriptorLost_frame k1)

theorem execPoolCellRead_frame {s u2 : State} {a0} {a1} (k2 : Frame s u2) : Ran (Frame s) (execPoolCellRead a0 a1 u2) := by
  unfold execPoolCellRead
  refine kilak_ran (Frame.closed _) ?_ fun u0 k0 => ?_
  · exact k2
  refine Frame.ite1 ?_ ?_
  · exact deny_frame k0
  extract_lets +onlyGivenNames -merge -useContext x1
  clear_value x1
  split
  · refine Frame.ite1 ?_ ?_
    · exact doneWith_frame k0
    exact doneWith_frame k0
  · exact doneWith_frame k0

theorem execPoolQuotaSet_frame {s u4 : State} {a0} {a1} {a2} {a3} (k4 : Frame s u4) : Ran (Frame s) (execPoolQuotaSet a0 a1 a2 a3 u4) := by
  unfold execPoolQuotaSet
  refine kilak_ran (Frame.closed _) ?_ fun u0 k0 => ?_
  · exact k4
  extract_lets +onlyGivenNames -merge -useContext x1
  clear_value x1
  refine Frame.ite1 ?_ ?_
  · exact deny_frame k0
  exact done_frame (setParam_frame (setParam_frame k0))

theorem execPoolStatus_frame {s u1 : State} {a0} (k1 : Frame s u1) : Ran (Frame s) (execPoolStatus a0 u1) := by
  unfold execPoolStatus
  refine kilak_ran (Frame.closed _) ?_ fun u0 k0 => ?_
  · exact k1
  extract_lets +onlyGivenNames -merge -useContext x1
  clear_value x1
  exact doneWith_frame k0

theorem execQueueBufferStatus_frame {s u2 : State} {a0} {a1} (k2 : Frame s u2) : Ran (Frame s) (execQueueBufferStatus a0 a1 u2) := by
  unfold execQueueBufferStatus
  refine kilak_ran (Frame.closed _) ?_ fun u0 k0 => ?_
  · exact k2
  split
  · exact deny_frame k0
  · extract_lets +onlyGivenNames -merge -useContext x1
    clear_value x1
    exact doneWith_frame k0

end Sys2Proof.Machine
end

