-- ==== Sys2Proof/Laws/FrameMapBase.lean ====
section
/-! SUPPORT. What each operation of Machine/MapBase.lean leaves alone. -/

namespace Sys2Proof.Machine

theorem withdrawQuiet_frame {s u1 : State} {a0} (k1 : Frame s u1) : Frame s (withdrawQuiet a0 u1) := by
  unfold withdrawQuiet
  exact Frame.mk' k1

theorem onAlloc_frame {s u2 : State} {a0} {a1} (k2 : Frame s u2) : Frame s (onAlloc a0 a1 u2) := by
  unfold onAlloc
  exact Frame.mk' k2

theorem allocAnswered_frame {s u3 : State} {a0} {a1} {a2} (k3 : Frame s u3) : Frame s (allocAnswered a0 a1 a2 u3) := by
  unfold allocAnswered
  refine Frame.ite ?_ ?_
  · exact onAlloc_frame k3
  exact k3

theorem dropWindowReq_frame {s u1 : State} {a0} (k1 : Frame s u1) : Frame s (dropWindowReq a0 u1) := by
  unfold dropWindowReq
  exact Frame.mk' k1

theorem onMap_frame {s u2 : State} {a0} {a1} (k2 : Frame s u2) : Frame s (onMap a0 a1 u2) := by
  unfold onMap
  exact Frame.mk' k2

theorem cancelGrants_frame {s u1 : State} {a0} (k1 : Frame s u1) : Frame s (cancelGrants a0 u1) := by
  unfold cancelGrants
  refine Frame.foldl (fun u10 _ k10 => ?_) ?_
  · extract_lets +onlyGivenNames -merge -useContext x11
    clear_value x11
    refine Frame.ite ?_ ?_
    · exact k10
    extract_lets +onlyGivenNames -merge -useContext x12
    have h12 : Frame s x12 := onMap_frame k10
    clear_value x12
    extract_lets +onlyGivenNames -merge -useContext x13
    have h13 : Frame s x13 := bumpBy_frame (bumpBy_frame h12)
    clear_value x13
    exact ledGrantEnd_frame h13
  exact k1

theorem endDefaultAlloc_frame {s u1 : State} {a0} (k1 : Frame s u1) : Frame s (endDefaultAlloc a0 u1) := by
  unfold endDefaultAlloc
  exact Frame.mk' k1

theorem requestWindow_frame {s u4 : State} {a0} {a1} {a2} {a3} (k4 : Frame s u4) : Frame s (requestWindow a0 a1 a2 a3 u4) := by
  unfold requestWindow
  exact Frame.mk' k4

theorem requestQuiet_frame {s u5 : State} {a0} {a1} {a2} {a3} {a4} (k5 : Frame s u5) : Frame s (requestQuiet a0 a1 a2 a3 a4 u5) := by
  unfold requestQuiet
  exact Frame.mk' k5

theorem takeReport_frame {s u3 : State} {a0} {a1} {a2} (k3 : Frame s u3) : Frame s (takeReport a0 a1 a2 u3) := by
  unfold takeReport
  exact onAlloc_frame k3

theorem makeDefaultAlloc_frame {s u1 : State} {a0} (k1 : Frame s u1) : Frame s (makeDefaultAlloc a0 u1) := by
  unfold makeDefaultAlloc
  split
  · exact Frame.mk' k1
  · exact k1

theorem marverTrouble_frame {s u1 : State} {a0} (k1 : Frame s u1) : Frame s (marverTrouble a0 u1) := by
  unfold marverTrouble
  exact Frame.mk' k1

theorem dropCredit_frame {s u1 : State} {a0} (k1 : Frame s u1) : Frame s (dropCredit a0 u1) := by
  unfold dropCredit
  split
  · exact k1
  · exact onAlloc_frame (ledTokens_frame (ledTokens_frame k1))

end Sys2Proof.Machine
end

