-- ==== Sys2Proof/Laws/FrameOnuBase.lean ====
section
/-! SUPPORT. What each operation of Machine/OnuBase.lean leaves alone. -/

namespace Sys2Proof.Machine

theorem dropRetune_frame {s u1 : State} {a0} (k1 : Frame s u1) : Frame s (dropRetune a0 u1) := by
  unfold dropRetune
  exact onOnu_frame (Frame.mk' k1)

theorem abandonTune_frame {s u1 : State} {a0} (k1 : Frame s u1) : Frame s (abandonTune a0 u1) := by
  unfold abandonTune
  split
  · exact completeOpt_frame (onOnu_frame (dropRetune_frame (withdrawQuiet_frame k1)))
  · exact k1

theorem ladderFailed_frame {s u1 : State} {a0} (k1 : Frame s u1) : Frame s (ladderFailed a0 u1) := by
  unfold ladderFailed
  exact bump_frame (onOnu_frame k1)

theorem ladderStep_frame {s u1 : State} {a0} (k1 : Frame s u1) : Frame s (ladderStep a0 u1) := by
  unfold ladderStep
  split
  · exact k1
  · refine Frame.ite ?_ ?_
    · exact plSend_frame (onOnu_frame k1)
    exact k1

theorem standingSpare_frame {s u2 : State} {a0} {a1} (k2 : Frame s u2) : Frame s (standingSpare a0 a1 u2) := by
  unfold standingSpare
  split
  · exact k2
  · extract_lets +onlyGivenNames -merge -useContext x10
    clear_value x10
    refine Frame.ite ?_ ?_
    · extract_lets +onlyGivenNames -merge -useContext x11
      clear_value x11
      extract_lets +onlyGivenNames -merge -useContext x12
      clear_value x12
      refine Frame.ite ?_ ?_
      · exact k2
      exact plSend_frame (onOnu_frame k2)
    exact k2

theorem sdbStart_frame {s u : State} {a0} (k : Frame s u) : Frame s (sdbStart a0 u) := by
  unfold sdbStart
  split
  · exact k
  · exact Frame.mk' k

theorem enterOperation_frame {s u1 : State} {a0} (k1 : Frame s u1) : Frame s (enterOperation a0 u1) := by
  unfold enterOperation
  split
  · exact k1
  · extract_lets +onlyGivenNames -merge -useContext x0
    have h0 : Frame s x0 := startKeyExchange_frame (sdbStart_frame (onOnu_frame k1))
    clear_value x0
    extract_lets +onlyGivenNames -merge -useContext x1
    have h1 : Frame s x1 := by
      refine Frame.ite ?_ ?_
      · exact plSend_frame h0
      exact h0
    clear_value x1
    exact standingSpare_frame (ladderStep_frame h1)

theorem plForget_frame {s u1 : State} {a0} (k1 : Frame s u1) : Frame s (plForget a0 u1) := by
  unfold plForget
  exact onOnu_frame (Frame.mk' k1)

theorem quarantineId_frame {s u1 : State} {a0} (k1 : Frame s u1) : Frame s (quarantineId a0 u1) := by
  unfold quarantineId
  split
  · split
    · exact Frame.mk' k1
    · exact k1
  · exact k1

theorem retireOnu_frame {s u1 : State} {a0} (k1 : Frame s u1) : Frame s (retireOnu a0 u1) := by
  unfold retireOnu
  extract_lets +onlyGivenNames -merge -useContext x0
  have h0 : Frame s x0 := quarantineId_frame (abandonTune_frame k1)
  clear_value x0
  extract_lets +onlyGivenNames -merge -useContext x1
  have h1 : Frame s x1 := plForget_frame (dropWindowReq_frame h0)
  clear_value x1
  extract_lets +onlyGivenNames -merge -useContext x2
  have h2 : Frame s x2 := forgetLearned_frame (dropKeys_frame (endDefaultAlloc_frame (cancelGrants_frame h1)))
  clear_value x2
  exact onOnu_frame h2

theorem releaseOnu_frame {s u1 : State} {a0} (k1 : Frame s u1) : Frame s (releaseOnu a0 u1) := by
  unfold releaseOnu
  exact onOnu_frame (retireOnu_frame k1)

theorem releaseFor_frame {s u2 : State} {a0} {a1} (k2 : Frame s u2) : Frame s (releaseFor a0 a1 u2) := by
  unfold releaseFor
  exact releaseOnu_frame (onOnu_frame k2)

theorem askRanging_frame {s u1 : State} {a0} (k1 : Frame s u1) : Frame s (askRanging a0 u1) := by
  unfold askRanging
  split
  · exact onOnu_frame (requestWindow_frame k1)
  · exact k1

theorem rangingMissed_frame {s u1 : State} {a0} (k1 : Frame s u1) : Frame s (rangingMissed a0 u1) := by
  unfold rangingMissed
  split
  · exact k1
  · refine Frame.ite ?_ ?_
    · exact askRanging_frame (onOnu_frame k1)
    exact releaseFor_frame (bump_frame k1)

theorem confirmMiss_frame {s u1 : State} {a0} (k1 : Frame s u1) : Frame s (confirmMiss a0 u1) := by
  unfold confirmMiss
  split
  · exact k1
  · extract_lets +onlyGivenNames -merge -useContext x0
    have h0 : Frame s x0 := rangingMissed_frame (plAnswered_frame (bump_frame k1))
    clear_value x0
    refine Frame.ite ?_ ?_
    · exact todUpdate_frame h0
    exact h0

theorem backToOperation_frame {s u1 : State} {a0} (k1 : Frame s u1) : Frame s (backToOperation a0 u1) := by
  unfold backToOperation
  exact standingSpare_frame (ladderStep_frame (startKeyExchange_frame (sdbStart_frame (onOnu_frame k1))))

theorem dropRateStep_frame {s u1 : State} {a0} (k1 : Frame s u1) : Frame s (dropRateStep a0 u1) := by
  unfold dropRateStep
  extract_lets +onlyGivenNames -merge -useContext x10
  clear_value x10
  exact onOnu_frame (Frame.mk' k1)

theorem ladderAbandon_frame {s u1 : State} {a0} (k1 : Frame s u1) : Frame s (ladderAbandon a0 u1) := by
  unfold ladderAbandon
  exact onOnu_frame (dropRateStep_frame k1)

theorem startRetune_frame {s u5 : State} {a0} {a1} {a2} {a3} {a4} (k5 : Frame s u5) : Frame s (startRetune a0 a1 a2 a3 a4 u5) := by
  unfold startRetune
  split
  · exact k5
  · extract_lets +onlyGivenNames -merge -useContext x10
    clear_value x10
    extract_lets +onlyGivenNames -merge -useContext x11
    clear_value x11
    extract_lets +onlyGivenNames -merge -useContext x12
    have h12 : Frame s x12 := onOnu_frame (ladderAbandon_frame k5)
    clear_value x12
    extract_lets +onlyGivenNames -merge -useContext x13
    have h13 : Frame s x13 := requestQuiet_frame h12
    clear_value x13
    extract_lets +onlyGivenNames -merge -useContext x14
    have h14 : Frame s x14 := plSend_frame h13
    clear_value x14
    refine Frame.ite ?_ ?_
    · exact plSend_frame h14
    exact h14

theorem tuneArrived_frame {s u1 : State} {a0} (k1 : Frame s u1) : Frame s (tuneArrived a0 u1) := by
  unfold tuneArrived
  split
  · exact k1
  · split
    · exact k1
    · extract_lets +onlyGivenNames -merge -useContext x10
      have h10 : Frame s x10 := onOnu_frame k1
      clear_value x10
      exact todUpdate_frame (backToOperation_frame (rebindQueues_frame (bump_frame (completeOpt_frame (dropRetune_frame (withdrawQuiet_frame h10))))))

theorem enterRegistering_frame {s u1 : State} {a0} (k1 : Frame s u1) : Frame s (enterRegistering a0 u1) := by
  unfold enterRegistering
  exact plSend_frame (onOnu_frame k1)

theorem vacate_frame {s u1 : State} {a0} (k1 : Frame s u1) : Frame s (vacate a0 u1) := by
  unfold vacate
  split
  · refine Frame.ite ?_ ?_
    · exact onOnu_frame k1
    exact Frame.mk' k1
  · exact k1

theorem enterDiscovered_frame {s u1 : State} {a0} (k1 : Frame s u1) : Frame s (enterDiscovered a0 u1) := by
  unfold enterDiscovered
  split
  · exact k1
  · split
    · exact vacate_frame (bump_frame k1)
    · extract_lets +onlyGivenNames -merge -useContext x10
      clear_value x10
      extract_lets +onlyGivenNames -merge -useContext x11
      have h11 : Frame s x11 := onOnu_frame (Frame.mk' k1)
      clear_value x11
      exact askRanging_frame (makeDefaultAlloc_frame (plBroadcast_frame h11))

theorem enterExtending_frame {s u1 : State} {a0} (k1 : Frame s u1) : Frame s (enterExtending a0 u1) := by
  unfold enterExtending
  exact plSend_frame (onOnu_frame k1)

theorem sendEqd_frame {s u3 : State} {a0} {a1} {a2} (k3 : Frame s u3) : Frame s (sendEqd a0 a1 a2 u3) := by
  unfold sendEqd
  exact plSend_frame (onOnu_frame k3)

theorem ladderInterrupted_frame {s u1 : State} {a0} (k1 : Frame s u1) : Frame s (ladderInterrupted a0 u1) := by
  unfold ladderInterrupted
  split
  · refine Frame.ite ?_ ?_
    · exact ladderFailed_frame (dropRateStep_frame k1)
    exact k1
  · exact k1

theorem reRange_frame {s u2 : State} {a0} {a1} (k2 : Frame s u2) : Frame s (reRange a0 a1 u2) := by
  unfold reRange
  split
  · exact k2
  · refine Frame.ite ?_ ?_
    · exact sendEqd_frame (onOnu_frame (ladderInterrupted_frame k2))
    exact k2

theorem tuneWindow_frame {s u3 : State} {a0} {a1} {a2} (k3 : Frame s u3) : Frame s (tuneWindow a0 a1 a2 u3) := by
  unfold tuneWindow
  exact onOnu_frame (requestWindow_frame k3)

theorem spareForget_frame {s u1 : State} {a0} (k1 : Frame s u1) : Frame s (spareForget a0 u1) := by
  unfold spareForget
  exact Frame.mk' k1

theorem tuneBack_frame {s u2 : State} {a0} {a1} (k2 : Frame s u2) : Frame s (tuneBack a0 a1 u2) := by
  unfold tuneBack
  split
  · exact k2
  · extract_lets +onlyGivenNames -merge -useContext x10
    have h10 : Frame s x10 := completeOpt_frame (dropRetune_frame (withdrawQuiet_frame (spareForget_frame k2)))
    clear_value x10
    extract_lets +onlyGivenNames -merge -useContext x11
    have h11 : Frame s x11 := onOnu_frame h10
    clear_value x11
    refine Frame.ite ?_ ?_
    · exact backToOperation_frame h11
    exact onOnu_frame h11

theorem tuneEnded_frame {s u3 : State} {a0} {a1} {a2} (k3 : Frame s u3) : Frame s (tuneEnded a0 a1 a2 u3) := by
  unfold tuneEnded
  split
  · exact k3
  · exact tuneBack_frame (bump_frame k3)

theorem balanceYield_frame {s u1 : State} {a0} (k1 : Frame s u1) : Frame s (balanceYield a0 u1) := by
  unfold balanceYield
  split
  · exact k1
  · split
    · exact k1
    · refine Frame.ite ?_ ?_
      · exact bumpBy_frame (onOnu_frame (dropRetune_frame (withdrawQuiet_frame k1)))
      exact k1

theorem extDeclined_frame {s u1 : State} {a0} (k1 : Frame s u1) : Frame s (extDeclined a0 u1) := by
  unfold extDeclined
  exact enterOperation_frame (onOnu_frame k1)

end Sys2Proof.Machine
end

