-- ==== Sys2Proof/Laws/FrameTrib.lean ====
section
/-! SUPPORT. What each operation of Machine/Trib.lean leaves alone. -/

namespace Sys2Proof.Machine

theorem onTrib_frame {s u2 : State} {a0} {a1} (k2 : Frame s u2) : Frame s (onTrib a0 a1 u2) := by
  unfold onTrib
  exact Frame.mk' k2

theorem deliverContainer_frame {s u3 : State} {a0} {a1} {a2} (k3 : Frame s u3) : Frame s (deliverContainer a0 a1 a2 u3) := by
  unfold deliverContainer
  split
  · exact k3
  · extract_lets +onlyGivenNames -merge -useContext x0
    clear_value x0
    extract_lets +onlyGivenNames -merge -useContext x1
    clear_value x1
    extract_lets +onlyGivenNames -merge -useContext x2
    clear_value x2
    extract_lets +onlyGivenNames -merge -useContext x3
    clear_value x3
    extract_lets +onlyGivenNames -merge -useContext x4
    clear_value x4
    extract_lets +onlyGivenNames -merge -useContext x5
    clear_value x5
    extract_lets +onlyGivenNames -merge -useContext x6
    clear_value x6
    extract_lets +onlyGivenNames -merge -useContext x7
    clear_value x7
    extract_lets +onlyGivenNames -merge -useContext x9
    have h9 : Frame s x9 := onTrib_frame (Frame.mk' k3)
    clear_value x9
    extract_lets +onlyGivenNames -merge -useContext x10
    have h10 : Frame s x10 := by
      refine Frame.ite ?_ ?_
      · exact bumpBy_frame (bumpBy_frame h9)
      exact bump_frame h9
    clear_value x10
    refine Frame.ite ?_ ?_
    · exact bump_frame h10
    refine Frame.ite ?_ ?_
    · exact bump_frame h10
    exact h10

theorem alignLock_frame {s u2 : State} {a0} {a1} (k2 : Frame s u2) : Frame s (alignLock a0 a1 u2) := by
  unfold alignLock
  exact onTrib_frame (Frame.mk' k2)

theorem alignRun_frame {s u2 : State} {a0} {a1} (k2 : Frame s u2) : Frame s (alignRun a0 a1 u2) := by
  unfold alignRun
  split
  · exact k2
  · split
    · exact k2
    · extract_lets +onlyGivenNames -merge -useContext x10
      clear_value x10
      extract_lets +onlyGivenNames -merge -useContext x11
      clear_value x11
      extract_lets +onlyGivenNames -merge -useContext x12
      have h12 : ∀ v, Frame s v → Frame s (x12 v) := by
        intro v kv12
        unfold x12
        exact onTrib_frame kv12
      clear_value x12
      split
      · refine Frame.ite ?_ ?_
        · exact k2
        refine Frame.ite ?_ ?_
        · exact alignRun_frame (onTrib_frame k2)
        exact alignRun_frame (h12 _ k2)
      · refine Frame.ite ?_ ?_
        · exact k2
        refine Frame.ite ?_ ?_
        · exact alignRun_frame (onTrib_frame k2)
        exact alignRun_frame (h12 _ k2)
      · refine Frame.ite ?_ ?_
        · exact k2
        refine Frame.ite ?_ ?_
        · exact alignRun_frame (alignLock_frame k2)
        exact alignRun_frame (h12 _ k2)
      · split
        · refine Frame.ite ?_ ?_
          · exact k2
          refine Frame.ite ?_ ?_
          · exact alignRun_frame (onTrib_frame k2)
          refine Frame.ite ?_ ?_
          · exact alignRun_frame (onTrib_frame k2)
          exact alignRun_frame (bump_frame (onTrib_frame k2))
        · refine Frame.ite ?_ ?_
          · exact k2
          exact alignRun_frame (onTrib_frame (deliverContainer_frame k2))

theorem feedWrite_frame {s u3 : State} {a0} {a1} {a2} (k3 : Frame s u3) : Frame s (feedWrite a0 a1 a2 u3) := by
  unfold feedWrite
  split
  · exact k3
  · extract_lets +onlyGivenNames -merge -useContext x0
    clear_value x0
    extract_lets +onlyGivenNames -merge -useContext x1
    clear_value x1
    refine Frame.ite ?_ ?_
    · exact bump_frame k3
    extract_lets +onlyGivenNames -merge -useContext x2
    clear_value x2
    extract_lets +onlyGivenNames -merge -useContext x3
    clear_value x3
    extract_lets +onlyGivenNames -merge -useContext x4
    clear_value x4
    extract_lets +onlyGivenNames -merge -useContext x5
    clear_value x5
    extract_lets +onlyGivenNames -merge -useContext x6
    clear_value x6
    extract_lets +onlyGivenNames -merge -useContext x7
    have h7 : Frame s x7 := onTrib_frame k3
    clear_value x7
    extract_lets +onlyGivenNames -merge -useContext x8
    have h8 : Frame s x8 := by
      refine Frame.ite ?_ ?_
      · exact h7
      exact bump_frame h7
    clear_value x8
    refine Frame.ite ?_ ?_
    · exact h8
    exact bumpBy_frame h8

theorem gemDropped_frame {s u3 : State} {a0} {a1} {a2} (k3 : Frame s u3) : Frame s (gemDropped a0 a1 a2 u3) := by
  unfold gemDropped
  extract_lets +onlyGivenNames -merge -useContext x0
  have h0 : Frame s x0 := by
    unfold x0
    split
    · exact dropOnu_frame k3
    · exact dropChan_frame k3
  clear_value x0
  split
  · exact onuBytesOut_frame h0
  · exact h0

theorem onDsCh_frame {s u2 : State} {a0} {a1} (k2 : Frame s u2) : Frame s (onDsCh a0 a1 u2) := by
  unfold onDsCh
  exact Frame.mk' k2

theorem slotActivate_frame {s u3 : State} {a0} {a1} {a2} (k3 : Frame s u3) : Frame s (slotActivate a0 a1 a2 u3) := by
  unfold slotActivate
  extract_lets +onlyGivenNames -merge -useContext x0
  have h0 : Frame s x0 := onDsCh_frame k3
  clear_value x0
  refine Frame.foldl (fun u1 _ k1 => ?_) ?_
  · exact onTrib_frame k1
  exact h0

theorem moveCommit_frame {s u3 : State} {a0} {a1} {a2} (k3 : Frame s u3) : Frame s (moveCommit a0 a1 a2 u3) := by
  unfold moveCommit
  exact onDsCh_frame k3

theorem moveStep_frame {s u1 : State} {a0} (k1 : Frame s u1) : Frame s (moveStep a0 u1) := by
  unfold moveStep
  split
  · exact k1
  · extract_lets +onlyGivenNames -merge -useContext x10
    have h10 : ∀ b0 v, Frame s v → Frame s (x10 b0 v) := by
      intro b0 v kv10
      unfold x10
      exact onTrib_frame kv10
    clear_value x10
    extract_lets +onlyGivenNames -merge -useContext x11
    clear_value x11
    refine Frame.ite ?_ ?_
    · exact k1
    split
    · exact h10 _ _ (moveCommit_frame k1)
    · exact h10 _ _ (onTrib_frame k1)
    · exact h10 _ _ (moveCommit_frame k1)
    · exact complete_frame (onTrib_frame k1)

theorem slotBoundary_frame {s u2 : State} {a0} {a1} (k2 : Frame s u2) : Frame s (slotBoundary a0 a1 u2) := by
  unfold slotBoundary
  split
  · refine Frame.ite ?_ ?_
    · exact slotActivate_frame k2
    exact k2
  · exact k2

theorem sealGem_frame {s u4 : State} {a0} {a1} {a2} {a3} (k4 : Frame s u4) : Frame s (sealGem a0 a1 a2 a3 u4).2 := by
  unfold sealGem
  split
  · exact sealUnicast_frame k4
  · exact sealBcast_frame k4

theorem placed_frame {s u3 : State} {a0} {a1} {a2} (k3 : Frame s u3) : Frame s (placed a0 a1 a2 u3) := by
  unfold placed
  exact bwCount_frame (onDsCh_frame k3)

theorem sentDown_frame {s u3 : State} {a0} {a1} {a2} (k3 : Frame s u3) : Frame s (sentDown a0 a1 a2 u3) := by
  unfold sentDown
  exact Frame.mk' k3

theorem gemSent_frame {s u2 : State} {a0} {a1} (k2 : Frame s u2) : Frame s (gemSent a0 a1 u2) := by
  unfold gemSent
  extract_lets +onlyGivenNames -merge -useContext x10
  have h10 : Frame s x10 := by
    unfold x10
    split
    · extract_lets +onlyGivenNames -merge -useContext x11
      have h11 : Frame s x11 := by
        unfold x11
        refine Frame.ite ?_ ?_
        · exact k2
        exact tapCredit_frame k2
      clear_value x11
      exact sentDown_frame (onuBytesOut_frame h11)
    · exact k2
  clear_value x10
  split
  · exact onuBytesOut_frame (tapCredit_frame h10)
  · exact h10

theorem placeGems_frame {s u4 : State} {a0} {a1} {a2} {a3} (k4 : Frame s u4) : Frame s (placeGems a0 a1 a2 a3 u4).2.2 := by
  unfold placeGems
  split
  · dsimp only
    exact k4
  · extract_lets +onlyGivenNames -merge -useContext x10
    clear_value x10
    extract_lets +onlyGivenNames -merge -useContext x11
    clear_value x11
    split
    · split
      · dsimp only
        exact Frame.ofEq22 (by assumption) (placeGems_frame k4)
    · split
      · split
        · exact placeGems_frame (gemDropped_frame (Frame.ofEq2 (by assumption) (sealGem_frame k4)))
        · extract_lets +onlyGivenNames -merge -useContext x12
          have h12 : Frame s x12 := by
            unfold x12
            refine Frame.ite ?_ ?_
            · exact bump_frame (Frame.ofEq2 (by assumption) (sealGem_frame k4))
            exact Frame.ofEq2 (by assumption) (sealGem_frame k4)
          clear_value x12
          extract_lets +onlyGivenNames -merge -useContext x13
          clear_value x13
          exact placeGems_frame (gemSent_frame (bump_frame (placed_frame h12)))
      · split
        · dsimp only
          exact k4
        · extract_lets +onlyGivenNames -merge -useContext x14
          clear_value x14
          split
          · exact placeGems_frame (gemDropped_frame (Frame.ofEq2 (by assumption) (sealGem_frame k4)))
          · extract_lets +onlyGivenNames -merge -useContext x15
            clear_value x15
            extract_lets +onlyGivenNames -merge -useContext x16
            clear_value x16
            dsimp only
            exact bump_frame (placed_frame (Frame.ofEq2 (by assumption) (sealGem_frame k4)))

theorem containerOut_frame {s u2 : State} {a0} {a1} (k2 : Frame s u2) : Frame s (containerOut a0 a1 u2) := by
  unfold containerOut
  split
  · exact k2
  · extract_lets +onlyGivenNames -merge -useContext x0
    clear_value x0
    extract_lets +onlyGivenNames -merge -useContext x1
    clear_value x1
    extract_lets +onlyGivenNames -merge -useContext x2
    clear_value x2
    extract_lets +onlyGivenNames -merge -useContext x3
    clear_value x3
    extract_lets +onlyGivenNames -merge -useContext x4
    clear_value x4
    extract_lets +onlyGivenNames -merge -useContext x5
    clear_value x5
    extract_lets +onlyGivenNames -merge -useContext x6
    clear_value x6
    extract_lets +onlyGivenNames -merge -useContext x7
    clear_value x7
    extract_lets +onlyGivenNames -merge -useContext x8
    clear_value x8
    extract_lets +onlyGivenNames -merge -useContext x9
    clear_value x9
    extract_lets +onlyGivenNames -merge -useContext x10
    clear_value x10
    extract_lets +onlyGivenNames -merge -useContext x11
    clear_value x11
    extract_lets +onlyGivenNames -merge -useContext x12
    have h12 : Frame s x12 := onTrib_frame (State.drawn_frame k2)
    clear_value x12
    extract_lets +onlyGivenNames -merge -useContext x13
    have h13 : Frame s x13 := by
      refine Frame.ite ?_ ?_
      · exact bump_frame h12
      exact h12
    clear_value x13
    refine Frame.ite ?_ ?_
    · exact bump_frame h13
    refine Frame.ite ?_ ?_
    · exact bump_frame h13
    exact h13

theorem sendSegment_frame {s u3 : State} {a0} {a1} {a2} (k3 : Frame s u3) : Frame s (sendSegment a0 a1 a2 u3) := by
  unfold sendSegment
  split
  · exact k3
  · extract_lets +onlyGivenNames -merge -useContext x10
    clear_value x10
    split
    · exact placed_frame k3
    · split
      · exact dropOnu_frame (Frame.ofEq2 (by assumption) (sealUnicast_frame k3))
      · exact sentDown_frame (placed_frame (Frame.ofEq2 (by assumption) (sealUnicast_frame k3)))

theorem dsFrame_frame {s u3 : State} {a0} {a1} {a2} (k3 : Frame s u3) : Frame s (dsFrame a0 a1 a2 u3) := by
  unfold dsFrame
  extract_lets +onlyGivenNames -merge -useContext x10
  clear_value x10
  extract_lets +onlyGivenNames -merge -useContext x11
  have h11 : Frame s x11 := onDsCh_frame k3
  clear_value x11
  extract_lets +onlyGivenNames -merge -useContext x12
  have h12 : Frame s x12 := by
    unfold x12
    refine Frame.foldl (fun u13 _ k13 => ?_) ?_
    · exact containerOut_frame k13
    exact h11
  clear_value x12
  extract_lets +onlyGivenNames -merge -useContext x14
  clear_value x14
  extract_lets +onlyGivenNames -merge -useContext x15
  clear_value x15
  extract_lets +onlyGivenNames -merge -useContext x16
  have h16 : Frame s x16 := bump_frame h12
  clear_value x16
  extract_lets +onlyGivenNames -merge -useContext x17
  have h17 : Frame s x17 := by
    unfold x17
    refine Frame.ite ?_ ?_
    · exact bumpBy_frame h16
    split
    · exact bumpBy_frame (onDsCh_frame (Frame.ofEq22 (by assumption) (placeGems_frame h16)))
  clear_value x17
  refine Frame.foldl (fun u18 _ k18 => ?_) ?_
  · exact sendSegment_frame k18
  exact h17

theorem tribBytes_frame {s u3 : State} {a0} {a1} {a2} (k3 : Frame s u3) : Frame s (tribBytes a0 a1 a2 u3) := by
  unfold tribBytes
  split
  · extract_lets +onlyGivenNames -merge -useContext x10
    clear_value x10
    extract_lets +onlyGivenNames -merge -useContext x11
    have h11 : Frame s x11 := onTrib_frame k3
    clear_value x11
    refine Frame.ite ?_ ?_
    · exact h11
    exact alignRun_frame (onTrib_frame h11)
  · exact k3

theorem slotReject_frame {s u3 : State} {a0} {a1} {a2} (k3 : Frame s u3) : Frame s (slotReject a0 a1 a2 u3) := by
  unfold slotReject
  extract_lets +onlyGivenNames -merge -useContext x10
  clear_value x10
  extract_lets +onlyGivenNames -merge -useContext x11
  have h11 : Frame s x11 := completeOpt_frame (bump_frame (onDsCh_frame k3))
  clear_value x11
  split
  · exact complete_frame (onTrib_frame h11)
  · exact h11

theorem slotCheckDone_frame {s u1 : State} {a0} (k1 : Frame s u1) : Frame s (slotCheckDone a0 u1) := by
  unfold slotCheckDone
  extract_lets +onlyGivenNames -merge -useContext x10
  clear_value x10
  split
  · exact k1
  · refine Frame.ite ?_ ?_
    · exact k1
    split
    · exact completeOpt_frame (onDsCh_frame k1)
    · exact slotReject_frame k1

theorem tribReports_frame {s u3 : State} {a0} {a1} {a2} (k3 : Frame s u3) : Frame s (tribReports a0 a1 a2 u3) := by
  unfold tribReports
  refine Frame.foldl (fun u10 _ k10 => ?_) ?_
  · split
    · exact k10
    · refine Frame.ite ?_ ?_
      · exact k10
      exact event_frame (onTrib_frame k10)
  exact k3

theorem tribDefectEval_frame {s u2 : State} {a0} {a1} (k2 : Frame s u2) : Frame s (tribDefectEval a0 a1 u2) := by
  unfold tribDefectEval
  split
  · exact k2
  · extract_lets +onlyGivenNames -merge -useContext x0
    clear_value x0
    extract_lets +onlyGivenNames -merge -useContext x1
    clear_value x1
    extract_lets +onlyGivenNames -merge -useContext x2
    clear_value x2
    extract_lets +onlyGivenNames -merge -useContext x3
    clear_value x3
    extract_lets +onlyGivenNames -merge -useContext x4
    have h4 : Frame s x4 := onTrib_frame k2
    clear_value x4
    exact tribReports_frame h4

theorem tributaryCreate_frame {s u3 : State} {a0} {a1} {a2} (k3 : Frame s u3) : Frame s (tributaryCreate a0 a1 a2 u3).1 := by
  unfold tributaryCreate
  refine Frame.ite1 ?_ ?_
  · exact deny_frame k3
  refine Frame.ite1 ?_ ?_
  · exact deny_frame k3
  split
  · exact deny_frame k3
  · split
    · exact deny_frame k3
    · refine Frame.ite1 ?_ ?_
      · exact deny_frame k3
      refine Frame.ite1 ?_ ?_
      · exact deny_frame k3
      refine Frame.ite1 ?_ ?_
      · exact deny_frame k3
      extract_lets +onlyGivenNames -merge -useContext x0
      clear_value x0
      exact waits_frame (plSend_frame (Frame.mk' k3))

theorem withTrib_frame {s u : State} {a} {f : Trib → State → State × Option Reply}
    (hf : ∀ x u, Frame s u → Frame s (f x u).1) (k : Frame s u) : Frame s (withTrib a f u).1 := by
  unfold withTrib
  split
  · exact Frame.ite1 (deny_frame k) (hf _ _ k)
  · exact deny_frame k

theorem execSlotMapCheckDone_frame {s u1 : State} {a0} (k1 : Frame s u1) : Ran (Frame s) (execSlotMapCheckDone a0 u1) := by
  unfold execSlotMapCheckDone
  refine island_ran (Frame.closed _) ?_ fun u0 k0 => ?_
  · exact k1
  exact slotCheckDone_frame k0

theorem execSlotMapCommit_frame {s u2 : State} {a0} {a1} (k2 : Frame s u2) : Ran (Frame s) (execSlotMapCommit a0 a1 u2) := by
  unfold execSlotMapCommit
  refine kilak_ran (Frame.closed _) ?_ fun u0 k0 => ?_
  · exact k2
  refine Frame.ite1 ?_ ?_
  · exact deny_frame k0
  refine Frame.ite1 ?_ ?_
  · exact deny_frame k0
  exact waits_frame (onDsCh_frame k0)

theorem execSlotMapLoad_frame {s u3 : State} {a0} {a1} {a2} (k3 : Frame s u3) : Ran (Frame s) (execSlotMapLoad a0 a1 a2 u3) := by
  unfold execSlotMapLoad
  refine kilak_ran (Frame.closed _) ?_ fun u0 k0 => ?_
  · exact k3
  refine Frame.ite1 ?_ ?_
  · exact deny_frame k0
  refine Frame.ite1 ?_ ?_
  · exact Frame.mk1 (bump_frame k0)
  refine Frame.ite1 ?_ ?_
  · exact deny_frame k0
  exact done_frame (onDsCh_frame k0)

theorem execSlotMapWithdraw_frame {s u3 : State} {a0} {a1} {a2} (k3 : Frame s u3) : Ran (Frame s) (execSlotMapWithdraw a0 a1 a2 u3) := by
  unfold execSlotMapWithdraw
  refine kilak_ran (Frame.closed _) ?_ fun u0 k0 => ?_
  · exact k3
  split
  · exact deny_frame k0
  · refine Frame.ite1 ?_ ?_
    · exact deny_frame k0
    exact done_frame (completeOpt_frame (onDsCh_frame k0))

theorem execTribDefectEval_frame {s u2 : State} {a0} {a1} (k2 : Frame s u2) : Ran (Frame s) (execTribDefectEval a0 a1 u2) := by
  unfold execTribDefectEval
  refine island_ran (Frame.closed _) ?_ fun u0 k0 => ?_
  · exact k2
  exact tribDefectEval_frame k0

theorem execTribFeedWrite_frame {s u3 : State} {a0} {a1} {a2} (k3 : Frame s u3) : Ran (Frame s) (execTribFeedWrite a0 a1 a2 u3) := by
  unfold execTribFeedWrite
  refine island_ran (Frame.closed _) ?_ fun u0 k0 => ?_
  · exact k3
  exact feedWrite_frame k0

theorem execTributaryCreate_frame {s u3 : State} {a0} {a1} {a2} (k3 : Frame s u3) : Ran (Frame s) (execTributaryCreate a0 a1 a2 u3) := by
  unfold execTributaryCreate
  refine kilak_ran (Frame.closed _) ?_ fun u0 k0 => ?_
  · exact k3
  exact tributaryCreate_frame k0

theorem execTributaryDelete_frame {s u2 : State} {a0} {a1} (k2 : Frame s u2) : Ran (Frame s) (execTributaryDelete a0 a1 u2) := by
  unfold execTributaryDelete
  refine kilak_ran (Frame.closed _) ?_ fun u10 k10 => ?_
  · exact k2
  refine withTrib_frame ?_ ?_
  · intro b110 u11 k11
    extract_lets +onlyGivenNames -merge -useContext x12
    clear_value x12
    refine Frame.ite1 ?_ ?_
    · exact deny_frame k11
    extract_lets +onlyGivenNames -merge -useContext x13
    clear_value x13
    extract_lets +onlyGivenNames -merge -useContext x14
    have h14 : Frame s x14 := Frame.mk' k11
    clear_value x14
    refine done_frame ?_
    split
    · refine Frame.ite ?_ ?_
      · exact plSend_frame h14
      exact h14
    · exact h14
  exact k10

theorem execTributaryMove_frame {s u3 : State} {a0} {a1} {a2} (k3 : Frame s u3) : Ran (Frame s) (execTributaryMove a0 a1 a2 u3) := by
  unfold execTributaryMove
  refine kilak_ran (Frame.closed _) ?_ fun u10 k10 => ?_
  · exact k3
  refine withTrib_frame ?_ ?_
  · intro b110 u11 k11
    refine Frame.ite1 ?_ ?_
    · exact deny_frame k11
    refine Frame.ite1 ?_ ?_
    · exact deny_frame k11
    exact waits_frame (moveStep_frame (onTrib_frame k11))
  exact k10

theorem slotRecheck_frame {s u1 : State} {a0} (k1 : Frame s u1) : Frame s (slotRecheck a0 u1) := by
  unfold slotRecheck
  split
  · refine Frame.ite ?_ ?_
    · exact k1
    split
    · exact slotReject_frame k1
    · exact k1
  · exact k1

theorem execTributaryResize_frame {s u4 : State} {a0} {a1} {a2} {a3} (k4 : Frame s u4) : Ran (Frame s) (execTributaryResize a0 a1 a2 a3 u4) := by
  unfold execTributaryResize
  refine kilak_ran (Frame.closed _) ?_ fun u10 k10 => ?_
  · exact k4
  refine withTrib_frame ?_ ?_
  · intro b110 u11 k11
    refine Frame.ite1 ?_ ?_
    · exact done_frame (slotRecheck_frame (onTrib_frame k11))
    refine Frame.ite1 ?_ ?_
    · exact deny_frame k11
    refine Frame.ite1 ?_ ?_
    · exact deny_frame k11
    exact done_frame (onTrib_frame k11)
  exact k10

theorem execTributaryStatus_frame {s u2 : State} {a0} {a1} (k2 : Frame s u2) : Ran (Frame s) (execTributaryStatus a0 a1 u2) := by
  unfold execTributaryStatus
  refine kilak_ran (Frame.closed _) ?_ fun u0 k0 => ?_
  · exact k2
  refine withTrib_frame ?_ ?_
  · intro _ u1 k1
    exact doneWith_frame k1
  exact k0

theorem moveBoundary_frame {s u1 : State} {a0} (k1 : Frame s u1) : Frame s (moveBoundary a0 u1) := by
  unfold moveBoundary
  extract_lets +onlyGivenNames -merge -useContext x10
  clear_value x10
  extract_lets +onlyGivenNames -merge -useContext x11
  have h11 : Frame s x11 := moveStep_frame k1
  clear_value x11
  refine Frame.ite ?_ ?_
  · exact moveStep_frame h11
  exact h11

end Sys2Proof.Machine
end

