-- ==== Sys2Proof/Laws/FrameSched.lean ====
section
/-! SUPPORT. What each operation of Machine/Sched.lean leaves alone. -/

namespace Sys2Proof.Machine

theorem changeNode_frame {s u3 : State} {a0} {a1} {a2} (k3 : Frame s u3) : Frame s (changeNode a0 a1 a2 u3) := by
  unfold changeNode
  extract_lets +onlyGivenNames -merge -useContext x10
  have h10 : Frame s x10 := readNode_frame k3
  clear_value x10
  extract_lets +onlyGivenNames -merge -useContext x11
  have h11 : Frame s x11 := by
    unfold x11
    refine Frame.ite ?_ ?_
    · exact h10
    exact detach_frame h10
  clear_value x11
  extract_lets +onlyGivenNames -merge -useContext x12
  have h12 : Frame s x12 := by
    unfold x12
    refine Frame.ite ?_ ?_
    · exact onQueue_frame h11
    exact onVert_frame h11
  clear_value x12
  refine Frame.ite ?_ ?_
  · exact h12
  exact attach_frame h12

theorem tcCount_frame {s u2 : State} {a0} {a1} (k2 : Frame s u2) : Frame s (tcCount a0 a1 u2) := by
  unfold tcCount
  split
  · exact bump_frame k2
  · exact bump_frame k2
  · exact k2

theorem emit_frame {s u3 : State} {a0} {a1} {a2} (k3 : Frame s u3) : Frame s (emit a0 a1 a2 u3) := by
  unfold emit
  split
  · extract_lets +onlyGivenNames -merge -useContext x0
    have h0 : Frame s x0 := freeChain_frame k3
    clear_value x0
    refine Frame.ite ?_ ?_
    · extract_lets +onlyGivenNames -merge -useContext x1
      clear_value x1
      extract_lets +onlyGivenNames -merge -useContext x2
      have h2 : Frame s x2 := by
        unfold x2
        split
        · refine Frame.ite ?_ ?_
          · exact tcCount_frame h0
          exact h0
        · exact h0
      clear_value x2
      exact onDsCh_frame h2
    extract_lets +onlyGivenNames -merge -useContext x3
    clear_value x3
    extract_lets +onlyGivenNames -merge -useContext x4
    clear_value x4
    extract_lets +onlyGivenNames -merge -useContext x5
    clear_value x5
    exact Frame.mk' h0
  · exact k3

theorem dequeue_frame {s u2 : State} {a0} {a1} (k2 : Frame s u2) : Frame s (dequeue a0 a1 u2) := by
  unfold dequeue
  split
  · exact k2
  · split
    · exact k2
    · extract_lets +onlyGivenNames -merge -useContext x0
      clear_value x0
      extract_lets +onlyGivenNames -merge -useContext x1
      have h1 : Frame s x1 := by
        refine Frame.foldl (fun u2 _ k2 => ?_) ?_
        · exact chargeNode_frame k2
        exact k2
      clear_value x1
      extract_lets +onlyGivenNames -merge -useContext x3
      have h3 : Frame s x3 := onQueue_frame h1
      clear_value x3
      extract_lets +onlyGivenNames -merge -useContext x4
      have h4 : Frame s x4 := by
        refine Frame.ite ?_ ?_
        · exact dropChain_frame h3
        exact emit_frame h3
      clear_value x4
      extract_lets +onlyGivenNames -merge -useContext x5
      have h5 : Frame s x5 := by
        refine Frame.foldl (fun u6 _ k6 => ?_) ?_
        · exact settleDeficit_frame k6
        exact h4
      clear_value x5
      exact refill_frame h5

theorem testHead_frame {s u2 : State} {a0} {a1} (k2 : Frame s u2) : Frame s (testHead a0 a1 u2) := by
  unfold testHead
  split
  · exact k2
  · split
    · exact k2
    · split
      · exact k2
      · refine Frame.ite ?_ ?_
        · exact k2
        split
        · exact k2
        · extract_lets +onlyGivenNames -merge -useContext x10
          have h10 : Frame s x10 := onQueue_frame k2
          clear_value x10
          refine Frame.ite ?_ ?_
          · exact h10
          exact bump_frame h10
        · extract_lets +onlyGivenNames -merge -useContext x11
          have h11 : Frame s x11 := onQueue_frame k2
          clear_value x11
          extract_lets +onlyGivenNames -merge -useContext x12
          have h12 : Frame s x12 := refill_frame (bump_frame (dropChain_frame h11))
          clear_value x12
          exact testHead_frame (settleEmpty_frame h12)

theorem sendOmci_frame {s u2 : State} {a0} {a1} (k2 : Frame s u2) : Frame s (sendOmci a0 a1 u2) := by
  unfold sendOmci
  extract_lets +onlyGivenNames -merge -useContext x0
  clear_value x0
  extract_lets +onlyGivenNames -merge -useContext x1
  clear_value x1
  extract_lets +onlyGivenNames -merge -useContext x2
  clear_value x2
  exact onDsCh_frame (Frame.mk' k2)

theorem testHeads_frame {s u1 : State} {a0} (k1 : Frame s u1) : Frame s (testHeads a0 u1) := by
  unfold testHeads
  refine Frame.foldl (fun u10 _ k10 => ?_) ?_
  · exact testHead_frame k10
  exact k1

theorem dequeueWalk_frame {s u1 : State} {a0} (k1 : Frame s u1) : Frame s (dequeueWalk a0 u1) := by
  unfold dequeueWalk
  refine Frame.ite ?_ ?_
  · exact k1
  extract_lets +onlyGivenNames -merge -useContext x10
  clear_value x10
  extract_lets +onlyGivenNames -merge -useContext x11
  have h11 : Frame s x11 := Frame.mk' k1
  clear_value x11
  split
  · exact sendOmci_frame h11
  · extract_lets +onlyGivenNames -merge -useContext x12
    have h12 : Frame s x12 := by
      unfold x12
      refine testHeads_frame ?_
      refine Frame.foldl (fun u13 _ k13 => ?_) ?_
      · exact readNode_frame k13
      exact h11
    clear_value x12
    split
    · exact h12
    · refine Frame.ite ?_ ?_
      · exact h12
      split
      · exact bump_frame (Frame.ofEq2 (by assumption) (walkDown_frame h12))
      · exact rejoin_frame (dequeue_frame (Frame.ofEq2 (by assumption) (walkDown_frame h12)))

theorem tcSend_frame {s u2 : State} {a0} {a1} (k2 : Frame s u2) : Frame s (tcSend a0 a1 u2) := by
  unfold tcSend
  extract_lets +onlyGivenNames -merge -useContext x10
  clear_value x10
  extract_lets +onlyGivenNames -merge -useContext x11
  clear_value x11
  refine Frame.ite ?_ ?_
  · extract_lets +onlyGivenNames -merge -useContext x12
    clear_value x12
    extract_lets +onlyGivenNames -merge -useContext x13
    have h13 : Frame s x13 := State.drawn_frame k2
    clear_value x13
    exact Frame.mk' h13
  exact k2

theorem frameTransmit_frame {s u1 : State} {a0} (k1 : Frame s u1) : Frame s (frameTransmit a0 u1) := by
  unfold frameTransmit
  split
  · exact k1
  · extract_lets +onlyGivenNames -merge -useContext x10
    clear_value x10
    refine Frame.ite ?_ ?_
    · exact k1
    extract_lets +onlyGivenNames -merge -useContext x11
    clear_value x11
    extract_lets +onlyGivenNames -merge -useContext x12
    have h12 : Frame s x12 := Frame.mk' k1
    clear_value x12
    extract_lets +onlyGivenNames -merge -useContext x13
    have h13 : Frame s x13 := by
      unfold x13
      split
      · exact onLag_frame h12
      · exact h12
    clear_value x13
    extract_lets +onlyGivenNames -merge -useContext x14
    have h14 : Frame s x14 := bwCount_frame h13
    clear_value x14
    extract_lets +onlyGivenNames -merge -useContext x15
    have h15 : Frame s x15 := by
      unfold x15
      split
      · exact tcSend_frame (tcCount_frame (onuBytesOut_frame (tapCredit_frame h14)))
      · exact h14
    clear_value x15
    exact rejoin_frame h15

theorem onGate_frame {s u2 : State} {a0} {a1} (k2 : Frame s u2) : Frame s (onGate a0 a1 u2) := by
  unfold onGate
  exact Frame.mk' k2

theorem gateSchedule_frame {s u1 : State} {a0} (k1 : Frame s u1) : Frame s (gateSchedule a0 u1) := by
  unfold gateSchedule
  extract_lets +onlyGivenNames -merge -useContext x0
  clear_value x0
  split
  · refine Frame.ite ?_ ?_
    · exact k1
    split
    · extract_lets +onlyGivenNames -merge -useContext x1
      have h1 : Frame s x1 := onGate_frame k1
      clear_value x1
      extract_lets +onlyGivenNames -merge -useContext x2
      have h2 : Frame s x2 := by
        refine Frame.ite ?_ ?_
        · exact event_frame (bump_frame h1)
        exact h1
      clear_value x2
      exact completeOpt_frame h2
  · exact k1

theorem gateListCommit_frame {s u2 : State} {a0} {a1} (k2 : Frame s u2) : Frame s (gateListCommit a0 a1 u2).1 := by
  unfold gateListCommit
  extract_lets +onlyGivenNames -merge -useContext x0
  clear_value x0
  refine Frame.ite1 ?_ ?_
  · exact deny_frame k2
  refine Frame.ite1 ?_ ?_
  · exact deny_frame k2
  extract_lets +onlyGivenNames -merge -useContext x1
  clear_value x1
  split
  · exact denyAt_frame (bump_frame k2)
  · extract_lets +onlyGivenNames -merge -useContext x2
    have h2 : Frame s x2 := onGate_frame k2
    clear_value x2
    refine waits_frame ?_
    refine Frame.ite ?_ ?_
    · exact gateSchedule_frame h2
    exact h2

theorem retestGate_frame {s u1 : State} {a0} (k1 : Frame s u1) : Frame s (retestGate a0 u1) := by
  unfold retestGate
  extract_lets +onlyGivenNames -merge -useContext x10
  clear_value x10
  exact testHeads_frame (Frame.mk' k1)

theorem gateListStart_frame {s u1 : State} {a0} (k1 : Frame s u1) : Frame s (gateListStart a0 u1) := by
  unfold gateListStart
  extract_lets +onlyGivenNames -merge -useContext x0
  clear_value x0
  split
  · refine Frame.ite ?_ ?_
    · exact retestGate_frame (bump_frame (onGate_frame k1))
    exact k1
  · exact k1

theorem nodeMove_frame {s u4 : State} {a0} {a1} {a2} {a3} (k4 : Frame s u4) : Frame s (nodeMove a0 a1 a2 a3 u4).1 := by
  unfold nodeMove
  split
  · exact deny_frame k4
  · extract_lets +onlyGivenNames -merge -useContext x0
    clear_value x0
    refine Frame.ite1 ?_ ?_
    · exact deny_frame k4
    refine Frame.ite1 ?_ ?_
    · exact deny_frame k4
    exact done_frame (moveNode_frame k4)

theorem readPolicer_frame {s u1 : State} {a0} (k1 : Frame s u1) : Frame s (readPolicer a0 u1) := by
  unfold readPolicer
  split
  · exact k1
  · extract_lets +onlyGivenNames -merge -useContext x10
    have h10 : Frame s x10 := ledRebase_frame k1
    clear_value x10
    exact Frame.mk' h10

theorem policerSet_frame {s u3 : State} {a0} {a1} {a2} (k3 : Frame s u3) : Frame s (policerSet a0 a1 a2 u3).1 := by
  unfold policerSet
  refine Frame.ite1 ?_ ?_
  · exact deny_frame k3
  extract_lets +onlyGivenNames -merge -useContext x10
  have h10 : Frame s x10 := readPolicer_frame k3
  clear_value x10
  split
  · refine done_frame ?_
    refine Frame.mk' ?_
    refine Frame.ofEq2 (by assumption) ?_
    split
    · exact Frame.mk2 h10
    · exact Frame.mk2 (ledBucket_frame h10)

theorem queueCreate_frame {s u3 : State} {a0} {a1} {a2} (k3 : Frame s u3) : Frame s (queueCreate a0 a1 a2 u3).1 := by
  unfold queueCreate
  extract_lets +onlyGivenNames -merge -useContext x10
  clear_value x10
  refine Frame.ite1 ?_ ?_
  · exact deny_frame k3
  refine Frame.ite1 ?_ ?_
  · exact deny_frame k3
  refine Frame.ite1 ?_ ?_
  · exact deny_frame k3
  extract_lets +onlyGivenNames -merge -useContext x11
  clear_value x11
  refine Frame.ite1 ?_ ?_
  · exact deny_frame k3
  extract_lets +onlyGivenNames -merge -useContext x12
  clear_value x12
  extract_lets +onlyGivenNames -merge -useContext x13
  clear_value x13
  extract_lets +onlyGivenNames -merge -useContext x14
  have h14 : Frame s x14 := State.drawn_frame k3
  clear_value x14
  extract_lets +onlyGivenNames -merge -useContext x15
  have h15 : Frame s x15 := ledBucket_frame (ledBucket_frame h14)
  clear_value x15
  exact done_frame (attach_frame (Frame.mk' h15))

theorem queueDelete_frame {s u1 : State} {a0} (k1 : Frame s u1) : Frame s (queueDelete a0 u1).1 := by
  unfold queueDelete
  split
  · exact deny_frame k1
  · refine Frame.ite1 ?_ ?_
    · exact deny_frame k1
    split
    · extract_lets +onlyGivenNames -merge -useContext x0
      have h0 : Frame s x0 := detach_frame (Frame.ofEq2 (by assumption) (emptyQueue_frame k1))
      clear_value x0
      exact doneWith_frame (Frame.mk' h0)

theorem queueModify_frame {s u2 : State} {a0} {a1} (k2 : Frame s u2) : Frame s (queueModify a0 a1 u2).1 := by
  unfold queueModify
  split
  · exact deny_frame k2
  · extract_lets +onlyGivenNames -merge -useContext x0
    clear_value x0
    refine Frame.ite1 ?_ ?_
    · exact deny_frame k2
    refine Frame.ite1 ?_ ?_
    · exact deny_frame k2
    exact done_frame (changeNode_frame k2)

theorem sampleQueue_frame {s u1 : State} {a0} (k1 : Frame s u1) : Frame s (sampleQueue a0 u1) := by
  unfold sampleQueue
  split
  · exact k1
  · extract_lets +onlyGivenNames -merge -useContext x0
    clear_value x0
    extract_lets +onlyGivenNames -merge -useContext x1
    clear_value x1
    exact histSample_frame (histSample_frame (onQueue_frame k1))

theorem queueSample_frame {s u1 : State} {a0} (k1 : Frame s u1) : Frame s (queueSample a0 u1) := by
  unfold queueSample
  refine Frame.foldl (fun u0 _ k0 => ?_) ?_
  · exact sampleQueue_frame k0
  exact k1

theorem vertexCreate_frame {s u2 : State} {a0} {a1} (k2 : Frame s u2) : Frame s (vertexCreate a0 a1 u2).1 := by
  unfold vertexCreate
  refine Frame.ite1 ?_ ?_
  · exact deny_frame k2
  extract_lets +onlyGivenNames -merge -useContext x10
  clear_value x10
  refine Frame.ite1 ?_ ?_
  · exact deny_frame k2
  extract_lets +onlyGivenNames -merge -useContext x11
  clear_value x11
  extract_lets +onlyGivenNames -merge -useContext x12
  have h12 : Frame s x12 := ledBucket_frame (ledBucket_frame k2)
  clear_value x12
  exact doneWith_frame (attach_frame (Frame.mk' h12))

theorem vertexModify_frame {s u2 : State} {a0} {a1} (k2 : Frame s u2) : Frame s (vertexModify a0 a1 u2).1 := by
  unfold vertexModify
  split
  · exact deny_frame k2
  · refine Frame.ite1 ?_ ?_
    · refine Frame.ite1 ?_ ?_
      · exact deny_frame k2
      refine Frame.ite1 ?_ ?_
      · exact deny_frame k2
      exact done_frame (onVert_frame (changeNode_frame k2))
    extract_lets +onlyGivenNames -merge -useContext x10
    clear_value x10
    refine Frame.ite1 ?_ ?_
    · exact deny_frame k2
    exact done_frame (changeNode_frame k2)

theorem execDequeueWalk_frame {s u1 : State} {a0} (k1 : Frame s u1) : Ran (Frame s) (execDequeueWalk a0 u1) := by
  unfold execDequeueWalk
  refine Frame.iteO ?_ ?_
  · exact Ran.next k1
  refine island_ran (Frame.closed _) ?_ fun u0 k0 => ?_
  · exact k1
  exact dequeueWalk_frame k0

theorem execGateListCommit_frame {s u2 : State} {a0} {a1} (k2 : Frame s u2) : Ran (Frame s) (execGateListCommit a0 a1 u2) := by
  unfold execGateListCommit
  refine kilak_ran (Frame.closed _) ?_ fun u0 k0 => ?_
  · exact k2
  exact gateListCommit_frame k0

theorem execGateListLoad_frame {s u3 : State} {a0} {a1} {a2} (k3 : Frame s u3) : Ran (Frame s) (execGateListLoad a0 a1 a2 u3) := by
  unfold execGateListLoad
  refine kilak_ran (Frame.closed _) ?_ fun u0 k0 => ?_
  · exact k3
  refine Frame.ite1 ?_ ?_
  · exact deny_frame k0
  refine Frame.ite1 ?_ ?_
  · exact Frame.mk1 (bump_frame k0)
  extract_lets +onlyGivenNames -merge -useContext x1
  clear_value x1
  extract_lets +onlyGivenNames -merge -useContext x2
  clear_value x2
  extract_lets +onlyGivenNames -merge -useContext x3
  clear_value x3
  exact done_frame (onGate_frame k0)

theorem execGateListStart_frame {s u1 : State} {a0} (k1 : Frame s u1) : Ran (Frame s) (execGateListStart a0 u1) := by
  unfold execGateListStart
  refine island_ran (Frame.closed _) ?_ fun u0 k0 => ?_
  · exact k1
  exact gateListStart_frame k0

theorem execGateListWithdraw_frame {s u3 : State} {a0} {a1} {a2} (k3 : Frame s u3) : Ran (Frame s) (execGateListWithdraw a0 a1 a2 u3) := by
  unfold execGateListWithdraw
  refine kilak_ran (Frame.closed _) ?_ fun u0 k0 => ?_
  · exact k3
  split
  · exact deny_frame k0
  · refine Frame.ite1 ?_ ?_
    · exact deny_frame k0
    exact done_frame (completeOpt_frame (onGate_frame k0))

theorem execGateStatus_frame {s u2 : State} {a0} {a1} (k2 : Frame s u2) : Ran (Frame s) (execGateStatus a0 a1 u2) := by
  unfold execGateStatus
  refine kilak_ran (Frame.closed _) ?_ fun u0 k0 => ?_
  · exact k2
  refine Frame.ite1 ?_ ?_
  · exact deny_frame k0
  extract_lets +onlyGivenNames -merge -useContext x1
  clear_value x1
  exact doneWith_frame k0

theorem execGateWindowOpen_frame {s u1 : State} {a0} (k1 : Frame s u1) : Ran (Frame s) (execGateWindowOpen a0 u1) := by
  unfold execGateWindowOpen
  refine island_ran (Frame.closed _) ?_ fun u0 k0 => ?_
  · exact k1
  refine Frame.ite ?_ ?_
  · exact retestGate_frame k0
  exact k0

theorem execLenProfileSet_frame {s u3 : State} {a0} {a1} {a2} (k3 : Frame s u3) : Ran (Frame s) (execLenProfileSet a0 a1 a2 u3) := by
  unfold execLenProfileSet
  refine kilak_ran (Frame.closed _) ?_ fun u0 k0 => ?_
  · exact k3
  refine Frame.ite1 ?_ ?_
  · exact deny_frame k0
  exact done_frame (setParam_frame k0)

theorem execPolicerSet_frame {s u4 : State} {a0} {a1} {a2} {a3} (k4 : Frame s u4) : Ran (Frame s) (execPolicerSet a0 a1 a2 a3 u4) := by
  unfold execPolicerSet
  refine kilak_ran (Frame.closed _) ?_ fun u0 k0 => ?_
  · exact k4
  exact policerSet_frame k0

theorem execPolicerStatus_frame {s u3 : State} {a0} {a1} {a2} (k3 : Frame s u3) : Ran (Frame s) (execPolicerStatus a0 a1 a2 u3) := by
  unfold execPolicerStatus
  refine kilak_ran (Frame.closed _) ?_ fun u10 k10 => ?_
  · exact k3
  refine Frame.ite1 ?_ ?_
  · exact deny_frame k10
  extract_lets +onlyGivenNames -merge -useContext x11
  have h11 : Frame s x11 := readPolicer_frame k10
  clear_value x11
  split
  · exact doneWith_frame h11
  · exact doneWith_frame h11

theorem execPortQueueSet_frame {s u4 : State} {a0} {a1} {a2} {a3} (k4 : Frame s u4) : Ran (Frame s) (execPortQueueSet a0 a1 a2 a3 u4) := by
  unfold execPortQueueSet
  refine kilak_ran (Frame.closed _) ?_ fun u0 k0 => ?_
  · exact k4
  split
  · exact deny_frame k0
  · refine Frame.ite1 ?_ ?_
    · exact deny_frame k0
    exact done_frame (setParam_frame k0)

theorem execQueueCreate_frame {s u4 : State} {a0} {a1} {a2} {a3} (k4 : Frame s u4) : Ran (Frame s) (execQueueCreate a0 a1 a2 a3 u4) := by
  unfold execQueueCreate
  refine kilak_ran (Frame.closed _) ?_ fun u0 k0 => ?_
  · exact k4
  exact queueCreate_frame k0

theorem execQueueDelete_frame {s u2 : State} {a0} {a1} (k2 : Frame s u2) : Ran (Frame s) (execQueueDelete a0 a1 u2) := by
  unfold execQueueDelete
  refine kilak_ran (Frame.closed _) ?_ fun u0 k0 => ?_
  · exact k2
  exact queueDelete_frame k0

theorem execQueueModify_frame {s u3 : State} {a0} {a1} {a2} (k3 : Frame s u3) : Ran (Frame s) (execQueueModify a0 a1 a2 u3) := by
  unfold execQueueModify
  refine kilak_ran (Frame.closed _) ?_ fun u0 k0 => ?_
  · exact k3
  exact queueModify_frame k0

theorem execQueueMove_frame {s u5 : State} {a0} {a1} {a2} {a3} {a4} (k5 : Frame s u5) : Ran (Frame s) (execQueueMove a0 a1 a2 a3 a4 u5) := by
  unfold execQueueMove
  refine kilak_ran (Frame.closed _) ?_ fun u0 k0 => ?_
  · exact k5
  refine Frame.ite1 ?_ ?_
  · exact deny_frame k0
  exact nodeMove_frame k0

theorem execQueueSample_frame {s u1 : State} {a0} (k1 : Frame s u1) : Ran (Frame s) (execQueueSample a0 u1) := by
  unfold execQueueSample
  refine island_ran (Frame.closed _) ?_ fun u0 k0 => ?_
  · exact k1
  exact queueSample_frame k0

theorem execQueueSampleBind_frame {s u4 : State} {a0} {a1} {a2} {a3} (k4 : Frame s u4) : Ran (Frame s) (execQueueSampleBind a0 a1 a2 a3 u4) := by
  unfold execQueueSampleBind
  refine kilak_ran (Frame.closed _) ?_ fun u0 k0 => ?_
  · exact k4
  refine Frame.ite1 ?_ ?_
  · exact deny_frame k0
  refine Frame.ite1 ?_ ?_
  · exact deny_frame k0
  exact done_frame (bindUnit_frame (State.drawn_frame k0))

theorem execQueueStatus_frame {s u2 : State} {a0} {a1} (k2 : Frame s u2) : Ran (Frame s) (execQueueStatus a0 a1 u2) := by
  unfold execQueueStatus
  refine kilak_ran (Frame.closed _) ?_ fun u10 k10 => ?_
  · exact k2
  extract_lets +onlyGivenNames -merge -useContext x11
  have h11 : Frame s x11 := readNode_frame k10
  clear_value x11
  split
  · exact deny_frame h11
  · exact doneWith_frame (onQueue_frame h11)

theorem execSchedStats_frame {s u3 : State} {a0} {a1} {a2} (k3 : Frame s u3) : Ran (Frame s) (execSchedStats a0 a1 a2 u3) := by
  unfold execSchedStats
  refine kilak_ran (Frame.closed _) ?_ fun u0 k0 => ?_
  · exact k3
  extract_lets +onlyGivenNames -merge -useContext x1
  clear_value x1
  split
  · exact doneWith_frame k0
  · exact doneWith_frame k0
  · exact doneWith_frame k0
  · exact doneWith_frame k0
  · exact deny_frame k0

theorem execUplinkFrameTransmit_frame {s u1 : State} {a0} (k1 : Frame s u1) : Ran (Frame s) (execUplinkFrameTransmit a0 u1) := by
  unfold execUplinkFrameTransmit
  refine Frame.iteO ?_ ?_
  · exact Ran.next k1
  refine island_ran (Frame.closed _) ?_ fun u0 k0 => ?_
  · exact k1
  exact frameTransmit_frame k0

theorem execVertexCreate_frame {s u3 : State} {a0} {a1} {a2} (k3 : Frame s u3) : Ran (Frame s) (execVertexCreate a0 a1 a2 u3) := by
  unfold execVertexCreate
  refine kilak_ran (Frame.closed _) ?_ fun u0 k0 => ?_
  · exact k3
  exact vertexCreate_frame k0

theorem execVertexDelete_frame {s u2 : State} {a0} {a1} (k2 : Frame s u2) : Ran (Frame s) (execVertexDelete a0 a1 u2) := by
  unfold execVertexDelete
  refine kilak_ran (Frame.closed _) ?_ fun u0 k0 => ?_
  · exact k2
  refine Frame.ite1 ?_ ?_
  · exact deny_frame k0
  split
  · exact deny_frame k0
  · refine Frame.ite1 ?_ ?_
    · exact deny_frame k0
    extract_lets +onlyGivenNames -merge -useContext x1
    have h1 : Frame s x1 := detach_frame k0
    clear_value x1
    exact done_frame (Frame.mk' h1)

theorem execVertexModify_frame {s u3 : State} {a0} {a1} {a2} (k3 : Frame s u3) : Ran (Frame s) (execVertexModify a0 a1 a2 u3) := by
  unfold execVertexModify
  refine kilak_ran (Frame.closed _) ?_ fun u0 k0 => ?_
  · exact k3
  exact vertexModify_frame k0

theorem execVertexMove_frame {s u5 : State} {a0} {a1} {a2} {a3} {a4} (k5 : Frame s u5) : Ran (Frame s) (execVertexMove a0 a1 a2 a3 a4 u5) := by
  unfold execVertexMove
  refine kilak_ran (Frame.closed _) ?_ fun u0 k0 => ?_
  · exact k5
  exact nodeMove_frame k0

theorem execVertexStatus_frame {s u2 : State} {a0} {a1} (k2 : Frame s u2) : Ran (Frame s) (execVertexStatus a0 a1 u2) := by
  unfold execVertexStatus
  refine kilak_ran (Frame.closed _) ?_ fun u10 k10 => ?_
  · exact k2
  extract_lets +onlyGivenNames -merge -useContext x11
  have h11 : Frame s x11 := readNode_frame k10
  clear_value x11
  split
  · exact deny_frame h11
  · exact doneWith_frame h11

end Sys2Proof.Machine
end

