-- ==== Sys2Proof/Laws/FrameIngressBase.lean ====
section
/-! SUPPORT. What each operation of Machine/IngressBase.lean leaves alone. -/

namespace Sys2Proof.Machine

theorem onCls_frame {s u1 : State} {a0} (k1 : Frame s u1) : Frame s (onCls a0 u1) := by
  unfold onCls
  exact Frame.mk' k1

theorem onFacet_frame {s u2 : State} {a0} {a1} (k2 : Frame s u2) : Frame s (onFacet a0 a1 u2) := by
  unfold onFacet
  exact onCls_frame k2

theorem onInFlight_frame {s u3 : State} {a0} {a1} {a2} (k3 : Frame s u3) : Frame s (onInFlight a0 a1 a2 u3) := by
  unfold onInFlight
  exact onFacet_frame k3

theorem endPkt_frame {s u1 : State} {a0} (k1 : Frame s u1) : Frame s (endPkt a0 u1) := by
  unfold endPkt
  extract_lets +onlyGivenNames -merge -useContext x0
  clear_value x0
  extract_lets +onlyGivenNames -merge -useContext x1
  have h1 : Frame s x1 := by
    unfold x1
    split
    · exact freeChain_frame k1
    · exact k1
  clear_value x1
  refine Frame.ite ?_ ?_
  · exact onuBytesOut_frame h1
  exact h1

theorem dropPkt_frame {s u2 : State} {a0} {a1} (k2 : Frame s u2) : Frame s (dropPkt a0 a1 u2) := by
  unfold dropPkt
  exact countSource_frame (endPkt_frame k2)

theorem feedTrib_frame {s u2 : State} {a0} {a1} (k2 : Frame s u2) : Frame s (feedTrib a0 a1 u2) := by
  unfold feedTrib
  extract_lets +onlyGivenNames -merge -useContext x0
  clear_value x0
  extract_lets +onlyGivenNames -merge -useContext x1
  clear_value x1
  split
  · exact dropPkt_frame k2
  · refine Frame.ite ?_ ?_
    · exact dropPkt_frame k2
    extract_lets +onlyGivenNames -merge -useContext x2
    clear_value x2
    refine feedWrite_frame ?_
    refine Frame.ite ?_ ?_
    · exact dropPkt_frame k2
    exact endPkt_frame k2

theorem countHit_frame {s u3 : State} {a0} {a1} {a2} (k3 : Frame s u3) : Frame s (countHit a0 a1 a2 u3) := by
  unfold countHit
  exact onFacet_frame k3

theorem toXbar_frame {s u2 : State} {a0} {a1} (k2 : Frame s u2) : Frame s (toXbar a0 a1 u2) := by
  unfold toXbar
  exact onCls_frame k2

theorem toQueue_frame {s u5 : State} {a0} {a1} {a2} {a3} {a4} (k5 : Frame s u5) : Frame s (toQueue a0 a1 a2 a3 a4 u5) := by
  unfold toQueue
  split
  · extract_lets +onlyGivenNames -merge -useContext x10
    clear_value x10
    exact toXbar_frame (writeHdr_frame k5)
  · exact bump_frame (endPkt_frame k5)

theorem police_frame {s u3 : State} {a0} {a1} {a2} (k3 : Frame s u3) : Frame s (police a0 a1 a2 u3).2 := by
  unfold police
  refine Frame.ite2 ?_ ?_
  · exact Frame.mk2 k3
  extract_lets +onlyGivenNames -merge -useContext x10
  clear_value x10
  split
  · exact Frame.mk2 (bump_frame k3)
  · refine Frame.ite2 ?_ ?_
    · exact Frame.mk2 (bump_frame k3)
    extract_lets +onlyGivenNames -merge -useContext x11
    clear_value x11
    split
    · extract_lets +onlyGivenNames -merge -useContext x12
      clear_value x12
      extract_lets +onlyGivenNames -merge -useContext x13
      clear_value x13
      extract_lets +onlyGivenNames -merge -useContext x14
      clear_value x14
      extract_lets +onlyGivenNames -merge -useContext x15
      have h15 : Frame s x15 := Frame.mk' k3
      clear_value x15
      extract_lets +onlyGivenNames -merge -useContext x16
      have h16 : Frame s x16 := cutTokens_frame (ledTokens_frame h15)
      clear_value x16
      refine Frame.ite2 ?_ ?_
      · exact Frame.mk2 (bumpBy_frame (bump_frame h16))
      exact Frame.mk2 (bumpBy_frame (bump_frame h16))

theorem toGroup_frame {s u3 : State} {a0} {a1} {a2} (k3 : Frame s u3) : Frame s (toGroup a0 a1 a2 u3) := by
  unfold toGroup
  split
  · extract_lets +onlyGivenNames -merge -useContext x10
    clear_value x10
    refine Frame.ite ?_ ?_
    · exact bump_frame (dropPkt_frame k3)
    refine Frame.ite ?_ ?_
    · exact toXbar_frame k3
    split
    · exact bump_frame (dropPkt_frame k3)
    · split
      · exact toXbar_frame (writeHdr_frame k3)
      · exact bump_frame (endPkt_frame k3)
  · exact dropPkt_frame k3

theorem puntPkt_frame {s u3 : State} {a0} {a1} {a2} (k3 : Frame s u3) : Frame s (puntPkt a0 a1 a2 u3) := by
  unfold puntPkt
  extract_lets +onlyGivenNames -merge -useContext x0
  clear_value x0
  extract_lets +onlyGivenNames -merge -useContext x1
  have h1 : Frame s x1 := by
    unfold x1
    split
    · exact handOver_frame k3
    · exact k3
  clear_value x1
  exact Frame.mk' h1

theorem mirrorCopy_frame {s u3 : State} {a0} {a1} {a2} (k3 : Frame s u3) : Frame s (mirrorCopy a0 a1 a2 u3) := by
  unfold mirrorCopy
  refine Frame.ite ?_ ?_
  · exact k3
  extract_lets +onlyGivenNames -merge -useContext x10
  clear_value x10
  extract_lets +onlyGivenNames -merge -useContext x11
  clear_value x11
  split
  · exact onCls_frame (freeChain_frame (Frame.ofEq2 (by assumption) (allocChain_frame k3)))
  · exact bump_frame (Frame.ofEq2 (by assumption) (allocChain_frame k3))

theorem conclude_frame {s u3 : State} {a0} {a1} {a2} (k3 : Frame s u3) : Frame s (conclude a0 a1 a2 u3) := by
  unfold conclude
  split
  · exact dropPkt_frame k3
  · exact puntPkt_frame k3
  · split
    · exact bump_frame (endPkt_frame (Frame.ofEq2 (by assumption) (police_frame (countHit_frame k3))))
    · extract_lets +onlyGivenNames -merge -useContext x10
      have h10 : Frame s x10 := mirrorCopy_frame (Frame.ofEq2 (by assumption) (police_frame (countHit_frame k3)))
      clear_value x10
      refine Frame.ite ?_ ?_
      · exact feedTrib_frame h10
      refine Frame.ite ?_ ?_
      · exact toGroup_frame h10
      exact toQueue_frame h10

theorem recordFrag_frame {s u3 : State} {a0} {a1} {a2} (k3 : Frame s u3) : Frame s (recordFrag a0 a1 a2 u3) := by
  unfold recordFrag
  extract_lets +onlyGivenNames -merge -useContext x0
  clear_value x0
  extract_lets +onlyGivenNames -merge -useContext x1
  clear_value x1
  extract_lets +onlyGivenNames -merge -useContext x2
  have h2 : Frame s x2 := bump_frame k3
  clear_value x2
  extract_lets +onlyGivenNames -merge -useContext x3
  have h3 : ∀ a u, Frame s u → Frame s (x3 a u) := by
    intro _ u3 k3
    exact onCls_frame k3
  clear_value x3
  refine Frame.ite ?_ ?_
  · exact h3 _ _ (bump_frame h2)
  refine Frame.ite ?_ ?_
  · exact h3 _ _ (bump_frame h2)
  exact h3 _ _ h2

theorem releaseFrag_frame {s u3 : State} {a0} {a1} {a2} (k3 : Frame s u3) : Frame s (releaseFrag a0 a1 a2 u3) := by
  unfold releaseFrag
  extract_lets +onlyGivenNames -merge -useContext x0
  clear_value x0
  extract_lets +onlyGivenNames -merge -useContext x1
  have h1 : Frame s x1 := by
    unfold x1
    split
    · exact handOver_frame k3
    · exact k3
  clear_value x1
  exact conclude_frame h1

theorem releaseHeld_frame {s u3 : State} {a0} {a1} {a2} (k3 : Frame s u3) : Frame s (releaseHeld a0 a1 a2 u3) := by
  unfold releaseHeld
  extract_lets +onlyGivenNames -merge -useContext x0
  clear_value x0
  extract_lets +onlyGivenNames -merge -useContext x1
  have h1 : Frame s x1 := onCls_frame k3
  clear_value x1
  refine Frame.foldl (fun u2 _ k2 => ?_) ?_
  · exact releaseFrag_frame k2
  exact h1

theorem finish_frame {s u4 : State} {a0} {a1} {a2} {a3} (k4 : Frame s u4) : Frame s (finish a0 a1 a2 a3 u4) := by
  unfold finish
  extract_lets +onlyGivenNames -merge -useContext x0
  clear_value x0
  extract_lets +onlyGivenNames -merge -useContext x1
  have h1 : Frame s x1 := onInFlight_frame k4
  clear_value x1
  refine Frame.ite ?_ ?_
  · exact releaseHeld_frame (conclude_frame (recordFrag_frame h1))
  exact conclude_frame h1

theorem recirc_frame {s u4 : State} {a0} {a1} {a2} {a3} (k4 : Frame s u4) : Frame s (recirc a0 a1 a2 a3 u4) := by
  unfold recirc
  refine Frame.ite ?_ ?_
  · exact bump_frame (dropPkt_frame (onInFlight_frame k4))
  refine Frame.ite ?_ ?_
  · exact finish_frame k4
  extract_lets +onlyGivenNames -merge -useContext x10
  clear_value x10
  extract_lets +onlyGivenNames -merge -useContext x11
  clear_value x11
  extract_lets +onlyGivenNames -merge -useContext x12
  clear_value x12
  extract_lets +onlyGivenNames -merge -useContext x13
  have h13 : Frame s x13 := by
    unfold x13
    split
    · exact onChain_frame k4
    · exact k4
  clear_value x13
  exact onCls_frame h13

theorem destLookup_frame {s u5 : State} {a0} {a1} {a2} {a3} {a4} (k5 : Frame s u5) : Frame s (destLookup a0 a1 a2 a3 a4 u5).2 := by
  unfold destLookup
  refine Frame.ite2 ?_ ?_
  · exact Frame.mk2 k5
  split
  · exact emLookup_frame k5
  · exact Frame.mk2 (bump_frame k5)

theorem notify_frame {s u2 : State} {a0} {a1} (k2 : Frame s u2) : Frame s (notify a0 a1 u2) := by
  unfold notify
  extract_lets +onlyGivenNames -merge -useContext x0
  clear_value x0
  refine Frame.ite ?_ ?_
  · exact k2
  extract_lets +onlyGivenNames -merge -useContext x1
  clear_value x1
  extract_lets +onlyGivenNames -merge -useContext x2
  have h2 : Frame s x2 := onEm_frame k2
  clear_value x2
  extract_lets +onlyGivenNames -merge -useContext x3
  clear_value x3
  refine Frame.ite ?_ ?_
  · exact bump_frame h2
  exact onEm_frame h2

theorem sourceLookup_frame {s u4 : State} {a0} {a1} {a2} {a3} (k4 : Frame s u4) : Frame s (sourceLookup a0 a1 a2 a3 u4).2 := by
  unfold sourceLookup
  refine Frame.ite2 ?_ ?_
  · exact Frame.mk2 (bump_frame k4)
  extract_lets +onlyGivenNames -merge -useContext x0
  clear_value x0
  extract_lets +onlyGivenNames -merge -useContext x1
  clear_value x1
  split
  refine Frame.ite2 ?_ ?_
  · exact Frame.mk2 (Frame.ofEq2 (by assumption) (emLookup_frame k4))
  exact Frame.mk2 (notify_frame (Frame.ofEq2 (by assumption) (emLookup_frame k4)))

theorem resolve_frame {s u4 : State} {a0} {a1} {a2} {a3} (k4 : Frame s u4) : Frame s (resolve a0 a1 a2 a3 u4).2 := by
  unfold resolve
  extract_lets +onlyGivenNames -merge -useContext x0
  clear_value x0
  extract_lets +onlyGivenNames -merge -useContext x1
  clear_value x1
  extract_lets +onlyGivenNames -merge -useContext x2
  clear_value x2
  extract_lets +onlyGivenNames -merge -useContext x3
  clear_value x3
  extract_lets +onlyGivenNames -merge -useContext x4
  clear_value x4
  split
  · split
    · extract_lets +onlyGivenNames -merge -useContext x5
      clear_value x5
      split
      · extract_lets +onlyGivenNames -merge -useContext x6
        clear_value x6
        refine Frame.mk2 ?_
        refine Frame.ofEq2 (by assumption) ?_
        refine Frame.ite2 ?_ ?_
        · exact sourceLookup_frame (Frame.ofEq2 (by assumption) (destLookup_frame k4))
        exact Frame.mk2 (Frame.ofEq2 (by assumption) (destLookup_frame k4))
      · refine Frame.ite2 ?_ ?_
        · refine Frame.mk2 ?_
          refine Frame.ofEq2 (by assumption) ?_
          refine Frame.ite2 ?_ ?_
          · exact sourceLookup_frame (Frame.ofEq2 (by assumption) (destLookup_frame k4))
          exact Frame.mk2 (Frame.ofEq2 (by assumption) (destLookup_frame k4))
        refine Frame.ite2 ?_ ?_
        · refine Frame.mk2 ?_
          refine Frame.ofEq2 (by assumption) ?_
          refine Frame.ite2 ?_ ?_
          · exact sourceLookup_frame (Frame.ofEq2 (by assumption) (destLookup_frame k4))
          exact Frame.mk2 (Frame.ofEq2 (by assumption) (destLookup_frame k4))
        refine Frame.mk2 ?_
        refine Frame.ofEq2 (by assumption) ?_
        refine Frame.ite2 ?_ ?_
        · exact sourceLookup_frame (Frame.ofEq2 (by assumption) (destLookup_frame k4))
        exact Frame.mk2 (Frame.ofEq2 (by assumption) (destLookup_frame k4))

theorem forward_frame {s u4 : State} {a0} {a1} {a2} {a3} (k4 : Frame s u4) : Frame s (forward a0 a1 a2 a3 u4) := by
  unfold forward
  split
  · refine finish_frame ?_
    refine Frame.ite ?_ ?_
    · exact countHit_frame (Frame.ofEq2 (by assumption) (resolve_frame k4))
    exact Frame.ofEq2 (by assumption) (resolve_frame k4)

theorem takeIn_frame {s u2 : State} {a0} {a1} (k2 : Frame s u2) : Frame s (takeIn a0 a1 u2).2 := by
  unfold takeIn
  split
  · exact Frame.mk2 (onChain_frame k2)
  · refine Frame.ite2 ?_ ?_
    · exact Frame.mk2 (dropPkt_frame k2)
    extract_lets +onlyGivenNames -merge -useContext x10
    clear_value x10
    extract_lets +onlyGivenNames -merge -useContext x11
    clear_value x11
    extract_lets +onlyGivenNames -merge -useContext x12
    clear_value x12
    split
    · exact Frame.mk2 (onChain_frame (Frame.ofEq2 (by assumption) (allocChain_frame k2)))
    · extract_lets +onlyGivenNames -merge -useContext x13
      have h13 : Frame s x13 := by
        unfold x13
        refine Frame.ite ?_ ?_
        · exact onuBytesOut_frame (Frame.ofEq2 (by assumption) (allocChain_frame k2))
        exact Frame.ofEq2 (by assumption) (allocChain_frame k2)
      clear_value x13
      exact Frame.mk2 (bump_frame h13)

theorem puntGone_frame {s u1 : State} {a0} (k1 : Frame s u1) : Frame s (puntGone a0 u1) := by
  unfold puntGone
  extract_lets +onlyGivenNames -merge -useContext x0
  clear_value x0
  extract_lets +onlyGivenNames -merge -useContext x1
  have h1 : Frame s x1 := by
    unfold x1
    split
    · exact freeChain_frame k1
    · exact k1
  clear_value x1
  split
  · exact onuBytesOut_frame h1
  · exact h1

end Sys2Proof.Machine
end

