-- ==== Sys2Proof/Laws/FrameCascade.lean ====
section
/-! SUPPORT. What each operation of Machine/Cascade.lean leaves alone. -/

namespace Sys2Proof.Machine

theorem applyWinner_frame {s u3 : State} {a0} {a1} {a2} (k3 : Frame s u3) : Frame s (applyWinner a0 a1 a2 u3) := by
  unfold applyWinner
  extract_lets +onlyGivenNames -merge -useContext x0
  clear_value x0
  split
  · exact forward_frame k3
  · exact forward_frame k3
  · exact recirc_frame k3
  · exact finish_frame k3

theorem onCasc_frame {s u1 : State} {a0} (k1 : Frame s u1) : Frame s (onCasc a0 u1) := by
  unfold onCasc
  exact onCls_frame k1

theorem trainSlice_frame {s u1 : State} {a0} (k1 : Frame s u1) : Frame s (trainSlice a0 u1) := by
  unfold trainSlice
  exact onCasc_frame k1

theorem trainAll_frame {s u0 : State} (k0 : Frame s u0) : Frame s (trainAll u0) := by
  unfold trainAll
  refine Frame.foldl (fun u10 _ k10 => ?_) ?_
  · exact trainSlice_frame k10
  exact onCasc_frame k0

theorem cascBad_frame {s u0 : State} (k0 : Frame s u0) : Frame s (cascBad u0) := by
  unfold cascBad
  extract_lets +onlyGivenNames -merge -useContext x10
  clear_value x10
  refine Frame.ite ?_ ?_
  · exact trainAll_frame k0
  exact onCasc_frame k0

theorem cascLinkUp_frame {s u0 : State} (k0 : Frame s u0) : Frame s (cascLinkUp u0) := by
  unfold cascLinkUp
  refine Frame.ite ?_ ?_
  · exact trainAll_frame k0
  exact k0

theorem keyUnsent_frame {s u1 : State} {a0} (k1 : Frame s u1) : Frame s (keyUnsent a0 u1) := by
  unfold keyUnsent
  exact onCasc_frame k1

theorem closeKeys_frame {s u1 : State} {a0} (k1 : Frame s u1) : Frame s (closeKeys a0 u1) := by
  unfold closeKeys
  split
  · exact k1
  · extract_lets +onlyGivenNames -merge -useContext x10
    have h10 : Frame s x10 := onCasc_frame k1
    clear_value x10
    split
    · refine Frame.ite ?_ ?_
      · exact onCasc_frame (ixrSeq_frame h10)
      refine Frame.foldl (fun u11 _ k11 => ?_) ?_
      · exact keyUnsent_frame k11
      exact h10
    · refine Frame.foldl (fun u12 _ k12 => ?_) ?_
      · exact keyUnsent_frame k12
      exact h10

theorem sendKey_frame {s u1 : State} {a0} (k1 : Frame s u1) : Frame s (sendKey a0 u1) := by
  unfold sendKey
  extract_lets +onlyGivenNames -merge -useContext x0
  clear_value x0
  extract_lets +onlyGivenNames -merge -useContext x1
  have h1 : Frame s x1 := by
    refine Frame.ite ?_ ?_
    · exact closeKeys_frame k1
    exact k1
  clear_value x1
  exact onCasc_frame h1

theorem incomplete_frame {s u4 : State} {a0} {a1} {a2} {a3} (k4 : Frame s u4) : Frame s (incomplete a0 a1 a2 a3 u4) := by
  unfold incomplete
  extract_lets +onlyGivenNames -merge -useContext x0
  have h0 : Frame s x0 := onInFlight_frame k4
  clear_value x0
  split
  · exact dropPkt_frame h0
  · exact puntPkt_frame h0
  · exact forward_frame k4

theorem searchIncomplete_frame {s u3 : State} {a0} {a1} {a2} (k3 : Frame s u3) : Frame s (searchIncomplete a0 a1 a2 u3) := by
  unfold searchIncomplete
  exact incomplete_frame (bump_frame k3)

theorem cascade_frame {s u6 : State} {a0} {a1} {a2} {a3} {a4} {a5} (k6 : Frame s u6) : Frame s (cascade a0 a1 a2 a3 a4 a5 u6) := by
  unfold cascade
  extract_lets +onlyGivenNames -merge -useContext x0
  clear_value x0
  refine Frame.ite ?_ ?_
  · exact forward_frame k6
  extract_lets +onlyGivenNames -merge -useContext x1
  have h1 : Frame s x1 := bump_frame k6
  clear_value x1
  extract_lets +onlyGivenNames -merge -useContext x2
  clear_value x2
  refine Frame.ite ?_ ?_
  · exact searchIncomplete_frame h1
  extract_lets +onlyGivenNames -merge -useContext x3
  clear_value x3
  extract_lets +onlyGivenNames -merge -useContext x4
  clear_value x4
  split
  · extract_lets +onlyGivenNames -merge -useContext x5
    clear_value x5
    exact sendKey_frame (onCasc_frame h1)

theorem cascadeEnable_frame {s u3 : State} {a0} {a1} {a2} (k3 : Frame s u3) : Frame s (cascadeEnable a0 a1 a2 u3).1 := by
  unfold cascadeEnable
  refine Frame.ite1 ?_ ?_
  · exact deny_frame k3
  refine Frame.ite1 ?_ ?_
  · exact deny_frame k3
  refine Frame.ite1 ?_ ?_
  · exact deny_frame k3
  extract_lets +onlyGivenNames -merge -useContext x0
  have h0 : Frame s x0 := setParam_frame (setParam_frame k3)
  clear_value x0
  extract_lets +onlyGivenNames -merge -useContext x1
  have h1 : Frame s x1 := by
    refine Frame.foldl (fun u2 _ k2 => ?_) ?_
    · exact setParam_frame k2
    exact h0
  clear_value x1
  refine done_frame ?_
  refine Frame.ite ?_ ?_
  · exact trainAll_frame h1
  exact onCasc_frame h1

theorem pruneOwn_frame {s u0 : State} (k0 : Frame s u0) : Frame s (pruneOwn u0) := by
  unfold pruneOwn
  exact onCasc_frame k0

theorem takeKey_frame {s u2 : State} {a0} {a1} (k2 : Frame s u2) : Frame s (takeKey a0 a1 u2) := by
  unfold takeKey
  extract_lets +onlyGivenNames -merge -useContext x10
  have h10 : Frame s x10 := by
    unfold x10
    refine Frame.ite ?_ ?_
    · exact sendKey_frame k2
    exact k2
  clear_value x10
  split
  · extract_lets +onlyGivenNames -merge -useContext x11
    clear_value x11
    exact onCasc_frame h10

theorem cascadeKey_frame {s u4 : State} {a0} {a1} {a2} {a3} (k4 : Frame s u4) : Frame s (cascadeKey a0 a1 a2 a3 u4) := by
  unfold cascadeKey
  extract_lets +onlyGivenNames -merge -useContext x10
  have h10 : Frame s x10 := ixrArrive_frame k4
  clear_value x10
  refine Frame.ite ?_ ?_
  · exact h10
  refine Frame.foldl (fun u11 _ k11 => ?_) ?_
  · exact takeKey_frame k11
  exact pruneOwn_frame h10

theorem dropWait_frame {s u2 : State} {a0} {a1} (k2 : Frame s u2) : Frame s (dropWait a0 a1 u2) := by
  unfold dropWait
  exact onCasc_frame k2

theorem takeResult_frame {s u6 : State} {a0} {a1} {a2} {a3} {a4} {a5} (k6 : Frame s u6) : Frame s (takeResult a0 a1 a2 a3 a4 a5 u6) := by
  unfold takeResult
  extract_lets +onlyGivenNames -merge -useContext x0
  clear_value x0
  extract_lets +onlyGivenNames -merge -useContext x1
  have h1 : Frame s x1 := dropWait_frame k6
  clear_value x1
  refine Frame.ite ?_ ?_
  · exact applyWinner_frame h1
  exact incomplete_frame (cascBad_frame (bump_frame h1))

theorem closeResults_frame {s u1 : State} {a0} (k1 : Frame s u1) : Frame s (closeResults a0 u1) := by
  unfold closeResults
  split
  · exact k1
  · extract_lets +onlyGivenNames -merge -useContext x0
    have h0 : Frame s x0 := onCasc_frame k1
    clear_value x0
    split
    · refine Frame.ite ?_ ?_
      · exact onCasc_frame (ixrSeq_frame h0)
      exact h0
    · exact h0

theorem sendResult_frame {s u1 : State} {a0} (k1 : Frame s u1) : Frame s (sendResult a0 u1) := by
  unfold sendResult
  extract_lets +onlyGivenNames -merge -useContext x0
  clear_value x0
  extract_lets +onlyGivenNames -merge -useContext x1
  have h1 : Frame s x1 := by
    refine Frame.ite ?_ ?_
    · exact closeResults_frame k1
    exact k1
  clear_value x1
  exact onCasc_frame h1

theorem takeRecord_frame {s u1 : State} {a0} (k1 : Frame s u1) : Frame s (takeRecord a0 u1) := by
  unfold takeRecord
  refine Frame.ite ?_ ?_
  · split
    · extract_lets +onlyGivenNames -merge -useContext x10
      clear_value x10
      refine Frame.ite ?_ ?_
      · exact bump_frame (onCasc_frame k1)
      exact k1
    · split
      · exact takeResult_frame k1
      · exact onCasc_frame k1
  extract_lets +onlyGivenNames -merge -useContext x11
  have h11 : Frame s x11 := pruneOwn_frame k1
  clear_value x11
  split
  · refine Frame.ite ?_ ?_
    · exact h11
    exact sendResult_frame h11
  · exact sendResult_frame h11

theorem cascadeResult_frame {s u3 : State} {a0} {a1} {a2} (k3 : Frame s u3) : Frame s (cascadeResult a0 a1 a2 u3) := by
  unfold cascadeResult
  extract_lets +onlyGivenNames -merge -useContext x10
  have h10 : Frame s x10 := ixrArrive_frame k3
  clear_value x10
  refine Frame.ite ?_ ?_
  · exact h10
  refine Frame.foldl (fun u11 _ k11 => ?_) ?_
  · exact takeRecord_frame k11
  exact h10

theorem cascadeTimeout_frame {s u2 : State} {a0} {a1} (k2 : Frame s u2) : Frame s (cascadeTimeout a0 a1 u2) := by
  unfold cascadeTimeout
  split
  · exact k2
  · refine Frame.ite ?_ ?_
    · extract_lets +onlyGivenNames -merge -useContext x10
      have h10 : Frame s x10 := onCasc_frame (dropWait_frame k2)
      clear_value x10
      exact incomplete_frame (cascBad_frame (bump_frame h10))
    exact k2

theorem headSymbol_frame {s u4 : State} {a0} {a1} {a2} {a3} (k4 : Frame s u4) : Frame s (headSymbol a0 a1 a2 a3 u4) := by
  unfold headSymbol
  extract_lets +onlyGivenNames -merge -useContext x0
  clear_value x0
  extract_lets +onlyGivenNames -merge -useContext x1
  clear_value x1
  refine Frame.ite ?_ ?_
  · exact searchIncomplete_frame (dropWait_frame k4)
  refine Frame.ite ?_ ?_
  · exact forward_frame (dropWait_frame k4)
  refine Frame.ite ?_ ?_
  · exact applyWinner_frame (dropWait_frame k4)
  split
  · exact takeResult_frame k4
  · extract_lets +onlyGivenNames -merge -useContext x2
    clear_value x2
    exact onCasc_frame k4

theorem tailSymbol_frame {s u3 : State} {a0} {a1} {a2} (k3 : Frame s u3) : Frame s (tailSymbol a0 a1 a2 u3) := by
  unfold tailSymbol
  extract_lets +onlyGivenNames -merge -useContext x0
  clear_value x0
  extract_lets +onlyGivenNames -merge -useContext x1
  clear_value x1
  extract_lets +onlyGivenNames -merge -useContext x2
  clear_value x2
  extract_lets +onlyGivenNames -merge -useContext x3
  clear_value x3
  extract_lets +onlyGivenNames -merge -useContext x4
  clear_value x4
  extract_lets +onlyGivenNames -merge -useContext x5
  clear_value x5
  extract_lets +onlyGivenNames -merge -useContext x6
  clear_value x6
  extract_lets +onlyGivenNames -merge -useContext x7
  have h7 : Frame s x7 := onCasc_frame k3
  clear_value x7
  split
  · refine Frame.ite ?_ ?_
    · exact sendResult_frame h7
    exact h7
  · exact h7

theorem matchSymbol_frame {s u3 : State} {a0} {a1} {a2} (k3 : Frame s u3) : Frame s (matchSymbol a0 a1 a2 u3) := by
  unfold matchSymbol
  refine Frame.ite ?_ ?_
  · exact k3
  refine Frame.ite ?_ ?_
  · split
    · exact headSymbol_frame k3
    · exact k3
  exact tailSymbol_frame k3

theorem trainingEnd_frame {s u2 : State} {a0} {a1} (k2 : Frame s u2) : Frame s (trainingEnd a0 a1 u2) := by
  unfold trainingEnd
  split
  · exact k2
  · refine Frame.ite ?_ ?_
    · exact k2
    extract_lets +onlyGivenNames -merge -useContext x10
    clear_value x10
    extract_lets +onlyGivenNames -merge -useContext x11
    clear_value x11
    extract_lets +onlyGivenNames -merge -useContext x12
    have h12 : Frame s x12 := onCasc_frame k2
    clear_value x12
    refine Frame.ite ?_ ?_
    · exact onCasc_frame h12
    exact onCasc_frame h12

theorem execCascadeEnable_frame {s u4 : State} {a0} {a1} {a2} {a3} (k4 : Frame s u4) : Ran (Frame s) (execCascadeEnable a0 a1 a2 a3 u4) := by
  unfold execCascadeEnable
  refine kilak_ran (Frame.closed _) ?_ fun u0 k0 => ?_
  · exact k4
  exact cascadeEnable_frame k0

theorem execCascadeFrameClose_frame {s u2 : State} {a0} {a1} (k2 : Frame s u2) : Ran (Frame s) (execCascadeFrameClose a0 a1 u2) := by
  unfold execCascadeFrameClose
  refine Ran.guardBlks ?_
  refine Ran.next ?_
  refine Frame.ite ?_ ?_
  · exact closeResults_frame k2
  exact closeKeys_frame k2

theorem execCascadeKeyReceive_frame {s u4 : State} {a0} {a1} {a2} {a3} (k4 : Frame s u4) : Ran (Frame s) (execCascadeKeyReceive a0 a1 a2 a3 u4) := by
  unfold execCascadeKeyReceive
  refine island_ran (Frame.closed _) ?_ fun u0 k0 => ?_
  · exact k4
  exact cascadeKey_frame k0

theorem execCascadeResultReceive_frame {s u3 : State} {a0} {a1} {a2} (k3 : Frame s u3) : Ran (Frame s) (execCascadeResultReceive a0 a1 a2 u3) := by
  unfold execCascadeResultReceive
  refine island_ran (Frame.closed _) ?_ fun u0 k0 => ?_
  · exact k3
  exact cascadeResult_frame k0

theorem execCascadeTimeout_frame {s u2 : State} {a0} {a1} (k2 : Frame s u2) : Ran (Frame s) (execCascadeTimeout a0 a1 u2) := by
  unfold execCascadeTimeout
  exact Ran.guardBlks (Ran.next (cascadeTimeout_frame k2))

theorem execMatchSymbol_frame {s u3 : State} {a0} {a1} {a2} (k3 : Frame s u3) : Ran (Frame s) (execMatchSymbol a0 a1 a2 u3) := by
  unfold execMatchSymbol
  exact Ran.guardBlks (Ran.next (matchSymbol_frame k3))

theorem execMatchTrainingEnd_frame {s u2 : State} {a0} {a1} (k2 : Frame s u2) : Ran (Frame s) (execMatchTrainingEnd a0 a1 u2) := by
  unfold execMatchTrainingEnd
  exact Ran.guardBlks (Ran.next (trainingEnd_frame k2))

end Sys2Proof.Machine
end

