-- ==== Sys2Proof/Laws/FrameMaps.lean ====
section
/-! SUPPORT. What each operation of Machine/Maps.lean leaves alone. -/

namespace Sys2Proof.Machine

theorem fixedCopied_frame {s u2 : State} {a0} {a1} (k2 : Frame s u2) : Frame s (fixedCopied a0 a1 u2) := by
  unfold fixedCopied
  split
  · refine Frame.ite ?_ ?_
    · exact onMap_frame k2
    exact k2
  · exact k2

theorem fixedActivate_frame {s u2 : State} {a0} {a1} (k2 : Frame s u2) : Frame s (fixedActivate a0 a1 u2) := by
  unfold fixedActivate
  extract_lets +onlyGivenNames -merge -useContext x10
  have h10 : Frame s x10 := fixedCopied_frame k2
  clear_value x10
  split
  · refine Frame.ite ?_ ?_
    · exact onMap_frame h10
    exact h10
  · exact h10

theorem windowAgain_frame {s u2 : State} {a0} {a1} (k2 : Frame s u2) : Frame s (windowAgain a0 a1 u2) := by
  unfold windowAgain
  split
  · exact requestWindow_frame k2
  · split
    · exact k2
    · exact Frame.ite (askRanging_frame (onOnu_frame k2)) (Frame.ite (requestWindow_frame k2) k2)
  · exact k2

theorem grantReturned_frame {s u3 : State} {a0} {a1} {a2} (k3 : Frame s u3) : Frame s (grantReturned a0 a1 a2 u3) := by
  unfold grantReturned
  extract_lets +onlyGivenNames -merge -useContext x10
  have h10 : Frame s x10 := ledGrantEnd_frame (bump_frame k3)
  clear_value x10
  refine Frame.ite ?_ ?_
  · exact h10
  exact bump_frame h10

theorem setGranted_frame {s u2 : State} {a0} {a1} (k2 : Frame s u2) : Frame s (setGranted a0 a1 u2) := by
  unfold setGranted
  exact Frame.mk' k2

theorem execEntry_frame {s u3 : State} {a0} {a1} {a2} (k3 : Frame s u3) : Frame s (execEntry a0 a1 a2 u3) := by
  unfold execEntry
  refine Frame.ite ?_ ?_
  · exact bumpBy_frame k3
  extract_lets +onlyGivenNames -merge -useContext x10
  have h10 : Frame s x10 := ledGrantEnd_frame (bump_frame (bumpBy_frame k3))
  clear_value x10
  extract_lets +onlyGivenNames -merge -useContext x11
  have h11 : Frame s x11 := by
    unfold x11
    refine Frame.ite ?_ ?_
    · exact h10
    exact bumpBy_frame h10
  clear_value x11
  refine Frame.ite ?_ ?_
  · exact h11
  extract_lets +onlyGivenNames -merge -useContext x12
  have h12 : Frame s x12 := bumpBy_frame (bump_frame h11)
  clear_value x12
  extract_lets +onlyGivenNames -merge -useContext x13
  have h13 : Frame s x13 := by
    unfold x13
    refine Frame.ite ?_ ?_
    · exact bump_frame h12
    exact h12
  clear_value x13
  extract_lets +onlyGivenNames -merge -useContext x14
  have h14 : Frame s x14 := by
    unfold x14
    refine Frame.ite ?_ ?_
    · exact h13
    exact setGranted_frame h13
  clear_value x14
  extract_lets +onlyGivenNames -merge -useContext x15
  clear_value x15
  extract_lets +onlyGivenNames -merge -useContext x16
  have h16 : Frame s x16 := Frame.mk' h14
  clear_value x16
  split
  · split
    · refine Frame.ite ?_ ?_
      · exact h16
      extract_lets +onlyGivenNames -merge -useContext x17
      clear_value x17
      exact histSample_frame (histSample_frame (onAlloc_frame h16))
    · exact h16
  · exact h16

theorem noReset_frame {s u2 : State} {a0} {a1} (k2 : Frame s u2) : Frame s (noReset a0 a1 u2) := by
  unfold noReset
  exact onMap_frame k2

theorem sendBurst_frame {s u2 : State} {a0} {a1} (k2 : Frame s u2) : Frame s (sendBurst a0 a1 u2) := by
  unfold sendBurst
  extract_lets +onlyGivenNames -merge -useContext x10
  clear_value x10
  extract_lets +onlyGivenNames -merge -useContext x11
  clear_value x11
  extract_lets +onlyGivenNames -merge -useContext x12
  clear_value x12
  extract_lets +onlyGivenNames -merge -useContext x13
  clear_value x13
  extract_lets +onlyGivenNames -merge -useContext x14
  clear_value x14
  extract_lets +onlyGivenNames -merge -useContext x15
  clear_value x15
  extract_lets +onlyGivenNames -merge -useContext x16
  clear_value x16
  split
  · refine Frame.ite ?_ ?_
    · exact bump_frame (noReset_frame k2)
    exact Frame.mk' k2
  · exact bump_frame (noReset_frame k2)

theorem runEntries_frame {s u3 : State} {a0} {a1} {a2} (k3 : Frame s u3) : Frame s (runEntries a0 a1 a2 u3) := by
  unfold runEntries
  extract_lets +onlyGivenNames -merge -useContext x10
  clear_value x10
  extract_lets +onlyGivenNames -merge -useContext x11
  clear_value x11
  extract_lets +onlyGivenNames -merge -useContext x12
  have h12 : Frame s x12 := by
    unfold x12
    refine Frame.foldl (fun u13 _ k13 => ?_) ?_
    · refine Frame.ite ?_ ?_
      · exact grantReturned_frame k13
      exact execEntry_frame k13
    exact k3
  clear_value x12
  extract_lets +onlyGivenNames -merge -useContext x14
  clear_value x14
  extract_lets +onlyGivenNames -merge -useContext x15
  have h15 : Frame s x15 := onMap_frame h12
  clear_value x15
  refine Frame.ite ?_ ?_
  · refine Frame.foldl (fun u16 _ k16 => ?_) ?_
    · refine Frame.ite ?_ ?_
      · exact k16
      exact sendBurst_frame k16
    exact h15
  refine Frame.foldl (fun u17 _ k17 => ?_) ?_
  · exact noReset_frame k17
  exact h15

theorem returnStandby_frame {s u1 : State} {a0} (k1 : Frame s u1) : Frame s (returnStandby a0 u1) := by
  unfold returnStandby
  extract_lets +onlyGivenNames -merge -useContext x0
  clear_value x0
  refine Frame.foldl (fun u1 _ k1 => ?_) ?_
  · exact grantReturned_frame k1
  exact k1

theorem grantsCreatedN_frame {s u3 : State} {a0} {a1} {a2} (k3 : Frame s u3) : Frame s (grantsCreatedN a0 a1 a2 u3) := by
  unfold grantsCreatedN
  exact ledGrant_frame (bumpBy_frame k3)

theorem replayPage_frame {s u5 : State} {a0} {a1} {a2} {a3} {a4} (k5 : Frame s u5) : Frame s (replayPage a0 a1 a2 a3 a4 u5) := by
  unfold replayPage
  extract_lets +onlyGivenNames -merge -useContext x10
  clear_value x10
  extract_lets +onlyGivenNames -merge -useContext x11
  clear_value x11
  extract_lets +onlyGivenNames -merge -useContext x12
  have h12 : Frame s x12 := grantsCreatedN_frame k5
  clear_value x12
  extract_lets +onlyGivenNames -merge -useContext x13
  clear_value x13
  extract_lets +onlyGivenNames -merge -useContext x14
  have h14 : Frame s x14 := runEntries_frame h12
  clear_value x14
  refine Frame.ite ?_ ?_
  · refine Frame.foldl (fun u15 _ k15 => ?_) ?_
    · exact windowAgain_frame k15
    exact h14
  exact h14

theorem mapSwap_frame {s u2 : State} {a0} {a1} (k2 : Frame s u2) : Frame s (mapSwap a0 a1 u2) := by
  unfold mapSwap
  extract_lets +onlyGivenNames -merge -useContext x10
  clear_value x10
  extract_lets +onlyGivenNames -merge -useContext x11
  have h11 : ∀ v, Frame s v → Frame s (x11 v) := by
    intro v kv11
    unfold x11
    exact onMap_frame kv11
  clear_value x11
  extract_lets +onlyGivenNames -merge -useContext x12
  have h12 : ∀ v, Frame s v → Frame s (x12 v) := by
    intro v kv12
    unfold x12
    extract_lets +onlyGivenNames -merge -useContext x13
    clear_value x13
    extract_lets +onlyGivenNames -merge -useContext x14
    clear_value x14
    extract_lets +onlyGivenNames -merge -useContext x15
    have h15 : Frame s x15 := bump_frame (onMap_frame kv12)
    clear_value x15
    extract_lets +onlyGivenNames -merge -useContext x16
    have h16 : Frame s x16 := by
      unfold x16
      refine Frame.ite ?_ ?_
      · exact event_frame (bump_frame h15)
      exact h15
    clear_value x16
    exact replayPage_frame h16
  clear_value x12
  split
  · exact h12 _ (onMap_frame (bump_frame k2))
  · split
    · refine Frame.ite ?_ ?_
      · extract_lets +onlyGivenNames -merge -useContext x17
        have h17 : Frame s x17 := bump_frame (h11 _ k2)
        clear_value x17
        extract_lets +onlyGivenNames -merge -useContext x18
        have h18 : Frame s x18 := onMap_frame h17
        clear_value x18
        exact runEntries_frame h18
      refine Frame.ite ?_ ?_
      · extract_lets +onlyGivenNames -merge -useContext x19
        have h19 : Frame s x19 := bump_frame (bump_frame (h11 _ k2))
        clear_value x19
        exact replayPage_frame (onMap_frame h19)
      extract_lets +onlyGivenNames -merge -useContext x20
      have h20 : Frame s x20 := returnStandby_frame (bump_frame k2)
      clear_value x20
      exact h12 _ (onMap_frame h20)
    · extract_lets +onlyGivenNames -merge -useContext x21
      have h21 : Frame s x21 := by
        unfold x21
        refine Frame.ite ?_ ?_
        · refine Frame.foldl (fun u22 _ k22 => ?_) ?_
          · exact windowAgain_frame k22
          exact returnStandby_frame k2
        exact k2
      clear_value x21
      exact h12 _ (onMap_frame h21)
    · extract_lets +onlyGivenNames -merge -useContext x23
      have h23 : Frame s x23 := by
        unfold x23
        refine Frame.ite ?_ ?_
        · exact returnStandby_frame k2
        exact k2
      clear_value x23
      exact h12 _ (bump_frame (onMap_frame h23))

theorem mapBoundary_frame {s u2 : State} {a0} {a1} (k2 : Frame s u2) : Frame s (mapBoundary a0 a1 u2) := by
  unfold mapBoundary
  exact ledGrantsRead_frame (mapSwap_frame k2)

theorem pageCheckDone_frame {s u1 : State} {a0} (k1 : Frame s u1) : Frame s (pageCheckDone a0 u1) := by
  unfold pageCheckDone
  extract_lets +onlyGivenNames -merge -useContext x0
  clear_value x0
  split
  · exact k1
  · refine Frame.ite ?_ ?_
    · exact k1
    split
    · exact onMap_frame k1
    · extract_lets +onlyGivenNames -merge -useContext x1
      have h1 : Frame s x1 := onMap_frame k1
      clear_value x1
      exact marverTrouble_frame (event_frame (bump_frame h1))

theorem execFixedPatternLoad_frame {s u4 : State} {a0} {a1} {a2} {a3} (k4 : Frame s u4) : Ran (Frame s) (execFixedPatternLoad a0 a1 a2 a3 u4) := by
  unfold execFixedPatternLoad
  refine kilak_ran (Frame.closed _) ?_ fun u0 k0 => ?_
  · exact k4
  extract_lets +onlyGivenNames -merge -useContext x1
  clear_value x1
  refine Frame.ite1 ?_ ?_
  · exact deny_frame k0
  refine Frame.ite1 ?_ ?_
  · exact deny_frame k0
  refine Frame.ite1 ?_ ?_
  · exact deny_frame k0
  refine Frame.ite1 ?_ ?_
  · exact deny_frame k0
  exact done_frame (onMap_frame k0)

theorem execFixedPatternRead_frame {s u3 : State} {a0} {a1} {a2} (k3 : Frame s u3) : Ran (Frame s) (execFixedPatternRead a0 a1 a2 u3) := by
  unfold execFixedPatternRead
  refine kilak_ran (Frame.closed _) ?_ fun u0 k0 => ?_
  · exact k3
  extract_lets +onlyGivenNames -merge -useContext x1
  clear_value x1
  split
  · exact doneWith_frame k0
  · exact doneWith_frame k0

theorem execMapBudgetSet_frame {s u3 : State} {a0} {a1} {a2} (k3 : Frame s u3) : Ran (Frame s) (execMapBudgetSet a0 a1 a2 u3) := by
  unfold execMapBudgetSet
  refine kilak_ran (Frame.closed _) ?_ fun u0 k0 => ?_
  · exact k3
  refine Frame.ite1 ?_ ?_
  · exact deny_frame k0
  refine Frame.ite1 ?_ ?_
  · exact deny_frame k0
  extract_lets +onlyGivenNames -merge -useContext x1
  clear_value x1
  extract_lets +onlyGivenNames -merge -useContext x2
  clear_value x2
  refine Frame.ite1 ?_ ?_
  · exact deny_frame k0
  exact done_frame (setParam_frame k0)

theorem execMapPageCheckDone_frame {s u1 : State} {a0} (k1 : Frame s u1) : Ran (Frame s) (execMapPageCheckDone a0 u1) := by
  unfold execMapPageCheckDone
  refine island_ran (Frame.closed _) ?_ fun u0 k0 => ?_
  · exact k1
  exact pageCheckDone_frame k0

theorem execMapPageRead_frame {s u4 : State} {a0} {a1} {a2} {a3} (k4 : Frame s u4) : Ran (Frame s) (execMapPageRead a0 a1 a2 a3 u4) := by
  unfold execMapPageRead
  refine kilak_ran (Frame.closed _) ?_ fun u0 k0 => ?_
  · exact k4
  extract_lets +onlyGivenNames -merge -useContext x1
  clear_value x1
  refine Frame.ite1 ?_ ?_
  · exact deny_frame k0
  refine Frame.ite1 ?_ ?_
  · exact deny_frame k0
  exact doneWith_frame k0

theorem execMapStats_frame {s u2 : State} {a0} {a1} (k2 : Frame s u2) : Ran (Frame s) (execMapStats a0 a1 u2) := by
  unfold execMapStats
  refine kilak_ran (Frame.closed _) ?_ fun u0 k0 => ?_
  · exact k2
  refine Frame.ite1 ?_ ?_
  · exact deny_frame k0
  exact doneWith_frame k0

theorem execOnuGrantStats_frame {s u2 : State} {a0} {a1} (k2 : Frame s u2) : Ran (Frame s) (execOnuGrantStats a0 a1 u2) := by
  unfold execOnuGrantStats
  refine kilak_ran (Frame.closed _) ?_ fun u0 k0 => ?_
  · exact k2
  refine Frame.ite1 ?_ ?_
  · exact deny_frame k0
  exact doneWith_frame k0

end Sys2Proof.Machine
end

