-- ==== Sys2Proof/Laws/FrameCompile.lean ====
section
/-! SUPPORT. What each operation of Machine/Compile.lean leaves alone. -/

namespace Sys2Proof.Machine

theorem allocCreate_frame {s u3 : State} {a0} {a1} {a2} (k3 : Frame s u3) : Frame s (allocCreate a0 a1 a2 u3).1 := by
  unfold allocCreate
  split
  · exact deny_frame k3
  · refine Frame.ite1 ?_ ?_
    · exact deny_frame k3
    refine Frame.ite1 ?_ ?_
    · exact deny_frame k3
    refine Frame.ite1 ?_ ?_
    · exact deny_frame k3
    split
    · exact deny_frame k3
    · refine Frame.ite1 ?_ ?_
      · exact deny_frame k3
      extract_lets +onlyGivenNames -merge -useContext _ x0
      have h0 : Frame s x0 := Frame.mk' k3
      clear_value x0
      exact doneWith_frame (plSend_frame h0)

theorem destroyDone_frame {s u0 : State} (k0 : Frame s u0) : Frame s (destroyDone u0) := by
  unfold destroyDone
  refine Frame.foldl (fun u10 _ k10 => ?_) ?_
  · split
    · exact k10
    · extract_lets +onlyGivenNames -merge -useContext x11
      clear_value x11
      refine Frame.ite ?_ ?_
      · extract_lets +onlyGivenNames -merge -useContext x12
        have h12 : Frame s x12 := dropCredit_frame k10
        clear_value x12
        exact complete_frame (Frame.mk' h12)
      exact k10
  exact k0

theorem planWindows_frame {s u1 : State} {a0} (k1 : Frame s u1) : Frame s (planWindows a0 u1) := by
  unfold planWindows
  refine Frame.foldl (fun u0 _ k0 => ?_) ?_
  · extract_lets +onlyGivenNames -merge -useContext x1
    clear_value x1
    extract_lets +onlyGivenNames -merge -useContext x2
    clear_value x2
    extract_lets +onlyGivenNames -merge -useContext x3
    clear_value x3
    split
    · exact Frame.mk' k0
    · exact bump_frame (Frame.mk' k0)
  exact Frame.mk' k1

theorem onCore_frame {s u2 : State} {a0} {a1} (k2 : Frame s u2) : Frame s (onCore a0 a1 u2) := by
  unfold onCore
  exact Frame.mk' k2

theorem marverRevert_frame {s u1 : State} {a0} (k1 : Frame s u1) : Frame s (marverRevert a0 u1) := by
  unfold marverRevert
  exact event_frame (bump_frame (onCore_frame k1))

theorem coreSnapshot_frame {s u2 : State} {a0} {a1} (k2 : Frame s u2) : Frame s (coreSnapshot a0 a1 u2) := by
  unfold coreSnapshot
  extract_lets +onlyGivenNames -merge -useContext x0
  clear_value x0
  refine Frame.ite ?_ ?_
  · exact marverRevert_frame k2
  split
  · exact k2
  · refine Frame.ite k2 ?_
    split
    · exact onCore_frame k2
    · exact onCore_frame k2

theorem dropOldPlans_frame {s u1 : State} {a0} (k1 : Frame s u1) : Frame s (dropOldPlans a0 u1) := by
  unfold dropOldPlans
  extract_lets +onlyGivenNames -merge -useContext x0
  clear_value x0
  exact Frame.mk' k1

theorem creditSnapshot_frame {s u3 : State} {a0} {a1} {a2} (k3 : Frame s u3) : Frame s (creditSnapshot a0 a1 a2 u3) := by
  unfold creditSnapshot
  split
  · extract_lets +onlyGivenNames -merge -useContext x10
    have h10 : Frame s x10 := ledTokens_frame (ledTokens_frame (onAlloc_frame k3))
    clear_value x10
    refine Frame.ite ?_ ?_
    · exact h10
    exact bumpBy_frame h10

theorem snapshot_frame {s u1 : State} {a0} (k1 : Frame s u1) : Frame s (snapshot a0 u1) := by
  unfold snapshot
  extract_lets +onlyGivenNames -merge -useContext x10
  have h10 : Frame s x10 := by
    unfold x10
    refine Frame.foldl (fun u11 _ k11 => ?_) ?_
    · exact coreSnapshot_frame k11
    exact k1
  clear_value x10
  extract_lets +onlyGivenNames -merge -useContext x12
  have h12 : Frame s x12 := by
    unfold x12
    refine Frame.foldl (fun u13 _ k13 => ?_) ?_
    · split
      · exact k13
      · refine Frame.ite ?_ ?_
        · exact creditSnapshot_frame k13
        exact k13
    exact h10
  clear_value x12
  extract_lets +onlyGivenNames -merge -useContext x14
  have h14 : Frame s x14 := planWindows_frame (dropOldPlans_frame h12)
  clear_value x14
  exact Frame.mk' h14

theorem chargeEntry_frame {s u4 : State} {a0} {a1} {a2} {a3} (k4 : Frame s u4) : Frame s (chargeEntry a0 a1 a2 a3 u4) := by
  unfold chargeEntry
  extract_lets +onlyGivenNames -merge -useContext x10
  have h10 : Frame s x10 := onAlloc_frame k4
  clear_value x10
  extract_lets +onlyGivenNames -merge -useContext x11
  clear_value x11
  extract_lets +onlyGivenNames -merge -useContext x12
  have h12 : Frame s x12 := onOnu_frame (Frame.mk' h10)
  clear_value x12
  extract_lets +onlyGivenNames -merge -useContext x13
  clear_value x13
  extract_lets +onlyGivenNames -merge -useContext x14
  clear_value x14
  extract_lets +onlyGivenNames -merge -useContext x15
  have h15 : Frame s x15 := by
    unfold x15
    refine Frame.ite ?_ ?_
    · exact Frame.mk' h12
    exact h12
  clear_value x15
  refine Frame.ite ?_ ?_
  · exact Frame.mk' h15
  exact h15

theorem chargePart_frame {s u4 : State} {a0} {a1} {a2} {a3} (k4 : Frame s u4) : Frame s (chargePart a0 a1 a2 a3 u4) := by
  unfold chargePart
  extract_lets +onlyGivenNames -merge -useContext x10
  clear_value x10
  refine Frame.ite ?_ ?_
  · exact k4
  extract_lets +onlyGivenNames -merge -useContext x11
  have h11 : Frame s x11 := ledTokens_frame (ledTokens_frame k4)
  clear_value x11
  exact chargeEntry_frame (onAlloc_frame h11)

theorem cleanPage_frame {s u : State} {g target n es} (k : Frame s u) : Frame s (cleanPage g target n es u).2 := by
  induction n generalizing u es with
  | zero => exact k
  | succ n ih =>
    unfold cleanPage
    split
    · exact k
    · split
      · exact k
      · exact ih (event_frame (bump_frame k))

theorem compileCost_frame {s u2 : State} {a0} {a1} (k2 : Frame s u2) : Frame s (compileCost a0 a1 u2) := by
  unfold compileCost
  extract_lets +onlyGivenNames -merge -useContext x0
  clear_value x0
  extract_lets +onlyGivenNames -merge -useContext x1
  clear_value x1
  extract_lets +onlyGivenNames -merge -useContext x2
  have h2 : Frame s x2 := State.drawn_frame k2
  clear_value x2
  exact Frame.mk' h2

theorem hintCollect_frame {s u4 : State} {a0} {a1} {a2} {a3} (k4 : Frame s u4) : Frame s (hintCollect a0 a1 a2 a3 u4) := by
  unfold hintCollect
  extract_lets +onlyGivenNames -merge -useContext x0
  clear_value x0
  extract_lets +onlyGivenNames -merge -useContext x1
  clear_value x1
  extract_lets +onlyGivenNames -merge -useContext x2
  clear_value x2
  exact Frame.mk' k4

theorem compilePage_frame {s u1 : State} {a0} (k1 : Frame s u1) : Frame s (compilePage a0 u1) := by
  unfold compilePage
  extract_lets +onlyGivenNames -merge -useContext x10
  clear_value x10
  extract_lets +onlyGivenNames -merge -useContext x11
  clear_value x11
  extract_lets +onlyGivenNames -merge -useContext x12
  clear_value x12
  extract_lets +onlyGivenNames -merge -useContext x13
  clear_value x13
  extract_lets +onlyGivenNames -merge -useContext x14
  clear_value x14
  extract_lets +onlyGivenNames -merge -useContext x15
  clear_value x15
  extract_lets +onlyGivenNames -merge -useContext x16
  clear_value x16
  extract_lets +onlyGivenNames -merge -useContext x17
  clear_value x17
  extract_lets +onlyGivenNames -merge -useContext x18
  clear_value x18
  extract_lets +onlyGivenNames -merge -useContext x19
  have h19 : Frame s x19 := onMap_frame k1
  clear_value x19
  extract_lets +onlyGivenNames -merge -useContext x20
  clear_value x20
  extract_lets +onlyGivenNames -merge -useContext x21
  clear_value x21
  extract_lets +onlyGivenNames -merge -useContext x22
  clear_value x22
  split
  · extract_lets +onlyGivenNames -merge -useContext x23
    clear_value x23
    extract_lets +onlyGivenNames -merge -useContext x24
    clear_value x24
    extract_lets +onlyGivenNames -merge -useContext x25
    clear_value x25
    extract_lets +onlyGivenNames -merge -useContext x26
    clear_value x26
    split
    · exact event_frame (bump_frame (onMap_frame h19))
    · extract_lets +onlyGivenNames -merge -useContext x27
      clear_value x27
      extract_lets +onlyGivenNames -merge -useContext x28
      clear_value x28
      extract_lets +onlyGivenNames -merge -useContext x29
      clear_value x29
      split
      · refine Frame.ite ?_ ?_
        · exact marverTrouble_frame (bump_frame (onMap_frame (Frame.ofEq2 (by assumption) (cleanPage_frame h19))))
        extract_lets +onlyGivenNames -merge -useContext x30
        have h30 : Frame s x30 := onMap_frame (Frame.ofEq2 (by assumption) (cleanPage_frame h19))
        clear_value x30
        extract_lets +onlyGivenNames -merge -useContext x31
        clear_value x31
        extract_lets +onlyGivenNames -merge -useContext x32
        have h32 : Frame s x32 := grantsCreatedN_frame (bump_frame h30)
        clear_value x32
        extract_lets +onlyGivenNames -merge -useContext x33
        clear_value x33
        extract_lets +onlyGivenNames -merge -useContext x34
        have h34 : Frame s x34 := bumpBy_frame (bumpBy_frame (bumpBy_frame h32))
        clear_value x34
        extract_lets +onlyGivenNames -merge -useContext x35
        have h35 : Frame s x35 := by
          unfold x35
          refine Frame.foldl (fun u36 _ k36 => ?_) ?_
          · exact bumpBy_frame (bumpBy_frame k36)
          exact h34
        clear_value x35
        extract_lets +onlyGivenNames -merge -useContext x37
        have h37 : Frame s x37 := by
          unfold x37
          refine Frame.foldl (fun u38 _ k38 => ?_) ?_
          · exact chargePart_frame k38
          exact h35
        clear_value x37
        extract_lets +onlyGivenNames -merge -useContext x39
        have h39 : Frame s x39 := by
          unfold x39
          refine Frame.foldl (fun u40 _ k40 => ?_) ?_
          · exact chargeEntry_frame k40
          exact h37
        clear_value x39
        exact compileCost_frame (hintCollect_frame h39)

theorem hintPublish_frame {s u1 : State} {a0} (k1 : Frame s u1) : Frame s (hintPublish a0 u1) := by
  unfold hintPublish
  refine Frame.ite ?_ ?_
  · exact k1
  extract_lets +onlyGivenNames -merge -useContext x0
  clear_value x0
  extract_lets +onlyGivenNames -merge -useContext _ x1
  clear_value x1
  exact Frame.mk' k1

theorem marverTrap_frame {s u2 : State} {a0} {a1} (k2 : Frame s u2) : Frame s (marverTrap a0 a1 u2) := by
  unfold marverTrap
  extract_lets +onlyGivenNames -merge -useContext x10
  have h10 : Frame s x10 := raiseFault_frame (bump_frame k2)
  clear_value x10
  extract_lets +onlyGivenNames -merge -useContext x11
  have h11 : Frame s x11 := by
    unfold x11
    refine Frame.ite ?_ ?_
    · exact marverRevert_frame h10
    exact h10
  clear_value x11
  extract_lets +onlyGivenNames -merge -useContext x12
  have h12 : Frame s x12 := onCore_frame (State.drawn_frame h11)
  clear_value x12
  refine Frame.foldl (fun u13 _ k13 => ?_) ?_
  · exact onAlloc_frame (dropCredit_frame k13)
  exact h12

theorem withAlloc_frame {s u : State} {a} {f : Alloc → State → State × Option Reply}
    (hf : ∀ x u, Frame s u → Frame s (f x u).1) (k : Frame s u) : Frame s (withAlloc a f u).1 := by
  unfold withAlloc
  split
  · exact hf _ _ k
  · exact deny_frame k

theorem execAllocCreate_frame {s u4 : State} {a0} {a1} {a2} {a3} (k4 : Frame s u4) : Ran (Frame s) (execAllocCreate a0 a1 a2 a3 u4) := by
  unfold execAllocCreate
  refine kilak_ran (Frame.closed _) ?_ fun u0 k0 => ?_
  · exact k4
  exact allocCreate_frame k0

theorem execAllocDestroy_frame {s u2 : State} {a0} {a1} (k2 : Frame s u2) : Ran (Frame s) (execAllocDestroy a0 a1 u2) := by
  unfold execAllocDestroy
  refine kilak_ran (Frame.closed _) ?_ fun u0 k0 => ?_
  · exact k2
  refine withAlloc_frame ?_ ?_
  · intro _ u1 k1
    refine Frame.ite1 ?_ ?_
    · exact deny_frame k1
    exact waits_frame (plSend_frame (onAlloc_frame k1))
  exact k0

theorem execAllocModify_frame {s u3 : State} {a0} {a1} {a2} (k3 : Frame s u3) : Ran (Frame s) (execAllocModify a0 a1 a2 u3) := by
  unfold execAllocModify
  refine kilak_ran (Frame.closed _) ?_ fun u0 k0 => ?_
  · exact k3
  refine withAlloc_frame ?_ ?_
  · intro _ u1 k1
    refine Frame.ite1 ?_ ?_
    · exact deny_frame k1
    refine Frame.ite1 ?_ ?_
    · exact deny_frame k1
    exact done_frame (onAlloc_frame k1)
  exact k0

theorem execAllocStatus_frame {s u2 : State} {a0} {a1} (k2 : Frame s u2) : Ran (Frame s) (execAllocStatus a0 a1 u2) := by
  unfold execAllocStatus
  refine kilak_ran (Frame.closed _) ?_ fun u0 k0 => ?_
  · exact k2
  refine withAlloc_frame ?_ ?_
  · intro _ u1 k1
    exact doneWith_frame k1
  exact k0

theorem execBufferReportArrival_frame {s u3 : State} {a0} {a1} {a2} (k3 : Frame s u3) : Ran (Frame s) (execBufferReportArrival a0 a1 a2 u3) := by
  unfold execBufferReportArrival
  split
  · exact Ran.next k3
  · refine island_ran (Frame.closed _) ?_ fun u0 k0 => ?_
    · exact k3
    exact takeReport_frame k0

theorem execCompileDeadline_frame {s u1 : State} {a0} (k1 : Frame s u1) : Ran (Frame s) (execCompileDeadline a0 u1) := by
  unfold execCompileDeadline
  refine island_ran (Frame.closed _) ?_ fun u0 k0 => ?_
  · exact k1
  extract_lets +onlyGivenNames -merge -useContext x1
  clear_value x1
  refine Frame.ite ?_ ?_
  · exact marverTrouble_frame (bump_frame (onMap_frame k0))
  exact k0

theorem execGrantLatencyBind_frame {s u4 : State} {a0} {a1} {a2} {a3} (k4 : Frame s u4) : Ran (Frame s) (execGrantLatencyBind a0 a1 a2 a3 u4) := by
  unfold execGrantLatencyBind
  refine kilak_ran (Frame.closed _) ?_ fun u0 k0 => ?_
  · exact k4
  refine Frame.ite1 ?_ ?_
  · exact deny_frame k0
  refine Frame.ite1 ?_ ?_
  · exact deny_frame k0
  exact done_frame (bindUnit_frame k0)

theorem execHintPublish_frame {s u1 : State} {a0} (k1 : Frame s u1) : Ran (Frame s) (execHintPublish a0 u1) := by
  unfold execHintPublish
  refine island_ran (Frame.closed _) ?_ fun u0 k0 => ?_
  · exact k1
  refine Frame.foldl (fun u1 _ k1 => ?_) ?_
  · exact hintPublish_frame k1
  exact k0

theorem execMapCommit_frame {s u1 : State} {a0} (k1 : Frame s u1) : Ran (Frame s) (execMapCommit a0 u1) := by
  unfold execMapCommit
  refine island_ran (Frame.closed _) ?_ fun u10 k10 => ?_
  · exact k1
  extract_lets +onlyGivenNames -merge -useContext x11
  clear_value x11
  refine Frame.ite ?_ ?_
  · refine Frame.ite ?_ ?_
    · exact compilePage_frame k10
    exact bump_frame (onMap_frame k10)
  exact k10

theorem execMapHints_frame {s u2 : State} {a0} {a1} (k2 : Frame s u2) : Ran (Frame s) (execMapHints a0 a1 u2) := by
  unfold execMapHints
  refine kilak_ran (Frame.closed _) ?_ fun u0 k0 => ?_
  · exact k2
  refine Frame.ite1 ?_ ?_
  · exact deny_frame k0
  extract_lets +onlyGivenNames -merge -useContext x1
  clear_value x1
  exact doneWith_frame k0

theorem execMapPolicyGet_frame {s u2 : State} {a0} {a1} (k2 : Frame s u2) : Ran (Frame s) (execMapPolicyGet a0 a1 u2) := by
  unfold execMapPolicyGet
  refine kilak_ran (Frame.closed _) ?_ fun u0 k0 => ?_
  · exact k2
  split
  · exact deny_frame k0
  · exact doneWith_frame k0

theorem execMapPolicySet_frame {s u3 : State} {a0} {a1} {a2} (k3 : Frame s u3) : Ran (Frame s) (execMapPolicySet a0 a1 a2 u3) := by
  unfold execMapPolicySet
  refine kilak_ran (Frame.closed _) ?_ fun u0 k0 => ?_
  · exact k3
  split
  · exact deny_frame k0
  · refine Frame.ite1 ?_ ?_
    · exact deny_frame k0
    refine Frame.ite1 ?_ ?_
    · exact deny_frame k0
    exact done_frame (Frame.mk' k0)

theorem execMarverCoreTrap_frame {s u2 : State} {a0} {a1} (k2 : Frame s u2) : Ran (Frame s) (execMarverCoreTrap a0 a1 u2) := by
  unfold execMarverCoreTrap
  refine island_ran (Frame.closed _) ?_ fun u0 k0 => ?_
  · exact k2
  exact marverTrap_frame k0

theorem execMarverImageActivate_frame {s u2 : State} {a0} {a1} (k2 : Frame s u2) : Ran (Frame s) (execMarverImageActivate a0 a1 u2) := by
  unfold execMarverImageActivate
  refine kilak_ran (Frame.closed _) ?_ fun u0 k0 => ?_
  · exact k2
  refine Frame.ite1 ?_ ?_
  · exact deny_frame k0
  refine Frame.ite1 ?_ ?_
  · exact deny_frame k0
  refine done_frame ?_
  refine Frame.foldl (fun u1 _ k1 => ?_) ?_
  · exact onCore_frame k1
  exact k0

theorem execMarverImageLoad_frame {s u2 : State} {a0} {a1} (k2 : Frame s u2) : Ran (Frame s) (execMarverImageLoad a0 a1 u2) := by
  unfold execMarverImageLoad
  refine kilak_ran (Frame.closed _) ?_ fun u10 k10 => ?_
  · exact k2
  refine Frame.ite1 ?_ ?_
  · exact deny_frame k10
  refine Frame.ite1 ?_ ?_
  · exact deny_frame k10
  exact waits_frame (keQueue_frame k10)

theorem execMarverStatus_frame {s u2 : State} {a0} {a1} (k2 : Frame s u2) : Ran (Frame s) (execMarverStatus a0 a1 u2) := by
  unfold execMarverStatus
  refine kilak_ran (Frame.closed _) ?_ fun u0 k0 => ?_
  · exact k2
  refine Frame.ite1 ?_ ?_
  · exact deny_frame k0
  extract_lets +onlyGivenNames -merge -useContext x1
  clear_value x1
  exact doneWith_frame (Frame.mk' k0)

theorem execMarverWatchEnd_frame {s u1 : State} {a0} (k1 : Frame s u1) : Ran (Frame s) (execMarverWatchEnd a0 u1) := by
  unfold execMarverWatchEnd
  refine island_ran (Frame.closed _) ?_ fun u0 k0 => ?_
  · exact k1
  split
  · refine Frame.ite ?_ ?_
    · exact onCore_frame k0
    exact k0
  · exact k0

theorem setStandby_frame {s u1 : State} {a0} (k1 : Frame s u1) : Frame s (setStandby a0 u1) := by
  unfold setStandby
  refine Frame.foldl (fun u10 _ k10 => ?_) ?_
  · exact onCore_frame k10
  exact k1

theorem imageDone_frame {s u3 : State} {a0} {a1} {a2} (k3 : Frame s u3) : Frame s (imageDone a0 a1 a2 u3) := by
  unfold imageDone
  extract_lets +onlyGivenNames -merge -useContext x10
  have h10 : Frame s x10 := bump_frame k3
  clear_value x10
  extract_lets +onlyGivenNames -merge -useContext x11
  have h11 : ∀ v, Frame s v → Frame s (x11 v) := by
    intro v kv11
    unfold x11
    exact complete_frame kv11
  clear_value x11
  refine Frame.ite ?_ ?_
  · extract_lets +onlyGivenNames -merge -useContext x12
    have h12 : Frame s x12 := bump_frame h10
    clear_value x12
    refine complete_frame ?_
    split
    · exact Frame.mk' h12
    · exact setStandby_frame h12
    · exact h12
  split
  · exact h11 _ (Frame.mk' h10)
  · refine Frame.ite ?_ ?_
    · exact complete_frame h10
    exact h11 _ (setStandby_frame h10)
  · exact h11 _ (Frame.mk' h10)

end Sys2Proof.Machine
end

