-- ==== Sys2Proof/Laws/FrameLanes.lean ====
section
/-! SUPPORT. What each operation of Machine/Lanes.lean leaves alone. -/

namespace Sys2Proof.Machine

theorem onLaneCh_frame {s u2 : State} {a0} {a1} (k2 : Frame s u2) : Frame s (onLaneCh a0 a1 u2) := by
  unfold onLaneCh
  exact Frame.mk' k2

theorem ladderFail_frame {s u2 : State} {a0} {a1} (k2 : Frame s u2) : Frame s (ladderFail a0 a1 u2) := by
  unfold ladderFail
  exact complete_frame (onLaneCh_frame k2)

theorem channelDisable_frame {s u1 : State} {a0} (k1 : Frame s u1) : Frame s (channelDisable a0 u1).1 := by
  unfold channelDisable
  refine Frame.ite1 ?_ ?_
  · exact deny_frame k1
  refine Frame.ite1 ?_ ?_
  · exact deny_frame k1
  extract_lets +onlyGivenNames -merge -useContext x0
  have h0 : Frame s x0 := by
    unfold x0
    split
    · exact ladderFail_frame k1
    · exact k1
  clear_value x0
  exact done_frame (onLaneCh_frame h0)

theorem onLink_frame {s u2 : State} {a0} {a1} (k2 : Frame s u2) : Frame s (onLink a0 a1 u2) := by
  unfold onLink
  exact Frame.mk' k2

theorem sendEcho_frame {s u1 : State} {a0} (k1 : Frame s u1) : Frame s (sendEcho a0 u1) := by
  unfold sendEcho
  extract_lets +onlyGivenNames -merge -useContext x10
  clear_value x10
  exact onLink_frame (sbSend_frame k1)

theorem calibrateP1_frame {s u1 : State} {a0} (k1 : Frame s u1) : Frame s (calibrateP1 a0 u1) := by
  unfold calibrateP1
  extract_lets +onlyGivenNames -merge -useContext x10
  clear_value x10
  refine Frame.ite ?_ ?_
  · exact sendEcho_frame k1
  exact k1

theorem onBus_frame {s u2 : State} {a0} {a1} (k2 : Frame s u2) : Frame s (onBus a0 a1 u2) := by
  unfold onBus
  exact Frame.mk' k2

theorem getPid_frame {s u1 : State} {a0} (k1 : Frame s u1) : Frame s (getPid a0 u1) := by
  unfold getPid
  refine Frame.ite ?_ ?_
  · exact onBus_frame k1
  exact k1

theorem rungStart_frame {s u2 : State} {a0} {a1} (k2 : Frame s u2) : Frame s (rungStart a0 a1 u2) := by
  unfold rungStart
  split
  · exact onLaneCh_frame k2
  · exact calibrateP1_frame (getPid_frame (onLaneCh_frame k2))
  · refine Frame.ite ?_ ?_
    · exact sbSend_frame (onLaneCh_frame k2)
    exact k2
  · exact onLaneCh_frame k2
  · exact k2

theorem rungEnter_frame {s u3 : State} {a0} {a1} {a2} (k3 : Frame s u3) : Frame s (rungEnter a0 a1 a2 u3) := by
  unfold rungEnter
  exact rungStart_frame (onLaneCh_frame k3)

theorem channelEnable_frame {s u2 : State} {a0} {a1} (k2 : Frame s u2) : Frame s (channelEnable a0 a1 u2).1 := by
  unfold channelEnable
  extract_lets +onlyGivenNames -merge -useContext x0
  clear_value x0
  refine Frame.ite1 ?_ ?_
  · exact deny_frame k2
  refine Frame.ite1 ?_ ?_
  · exact deny_frame k2
  refine Frame.ite1 ?_ ?_
  · exact deny_frame k2
  refine Frame.ite1 ?_ ?_
  · exact done_frame k2
  extract_lets +onlyGivenNames -merge -useContext x1
  have h1 : Frame s x1 := rungEnter_frame k2
  clear_value x1
  extract_lets +onlyGivenNames -merge -useContext x2
  clear_value x2
  refine waits_frame ?_
  refine Frame.ite ?_ ?_
  · exact rungEnter_frame h1
  exact h1

theorem i3cDone_frame {s u3 : State} {a0} {a1} {a2} (k3 : Frame s u3) : Frame s (i3cDone a0 a1 a2 u3) := by
  unfold i3cDone
  split
  · exact k3
  · extract_lets +onlyGivenNames -merge -useContext x0
    have h0 : ∀ u, Frame s u → Frame s (x0 u) := by
      intro u0 k0
      exact onBus_frame k0
    clear_value x0
    refine Frame.ite ?_ ?_
    · split
      · exact complete_frame (h0 _ k3)
      · exact complete_frame (h0 _ k3)
      · exact h0 _ (onLaneCh_frame k3)
    refine Frame.ite ?_ ?_
    · exact onBus_frame k3
    extract_lets +onlyGivenNames -merge -useContext x1
    have h1 : Frame s x1 := bump_frame (h0 _ k3)
    clear_value x1
    split
    · exact complete_frame h1
    · exact h1

theorem i3cPoll_frame {s u1 : State} {a0} (k1 : Frame s u1) : Frame s (i3cPoll a0 u1) := by
  unfold i3cPoll
  extract_lets +onlyGivenNames -merge -useContext x10
  clear_value x10
  refine Frame.ite ?_ ?_
  · exact onBus_frame (onLaneCh_frame k1)
  exact k1

theorem laneTransition_frame {s u2 : State} {a0} {a1} (k2 : Frame s u2) : Frame s (laneTransition a0 a1 u2) := by
  unfold laneTransition
  exact onLaneCh_frame k2

theorem moduleXfer_frame {s u6 : State} {a0} {a1} {a2} {a3} {a4} {a5} (k6 : Frame s u6) : Frame s (moduleXfer a0 a1 a2 a3 a4 a5 u6).1 := by
  unfold moduleXfer
  refine Frame.ite1 ?_ ?_
  · exact deny_frame k6
  refine Frame.ite1 ?_ ?_
  · exact deny_frame k6
  exact waits_frame (onBus_frame k6)

theorem phaseLoad_frame {s u2 : State} {a0} {a1} (k2 : Frame s u2) : Frame s (phaseLoad a0 a1 u2) := by
  unfold phaseLoad
  extract_lets +onlyGivenNames -merge -useContext x0
  clear_value x0
  extract_lets +onlyGivenNames -merge -useContext x1
  clear_value x1
  extract_lets +onlyGivenNames -merge -useContext x2
  clear_value x2
  exact Frame.mk' k2

theorem rungSuccess_frame {s u1 : State} {a0} (k1 : Frame s u1) : Frame s (rungSuccess a0 u1) := by
  unfold rungSuccess
  split
  · exact k1
  · refine Frame.ite ?_ ?_
    · exact k1
    refine Frame.ite ?_ ?_
    · exact rungEnter_frame k1
    exact complete_frame (onLaneCh_frame k1)

theorem rungTimeoutAct_frame {s u1 : State} {a0} (k1 : Frame s u1) : Frame s (rungTimeoutAct a0 u1) := by
  unfold rungTimeoutAct
  split
  · exact k1
  · refine Frame.ite ?_ ?_
    · exact bump_frame (ladderFail_frame k1)
    exact k1

theorem sbFrame_frame {s u2 : State} {a0} {a1} (k2 : Frame s u2) : Frame s (sbFrame a0 a1 u2) := by
  unfold sbFrame
  extract_lets +onlyGivenNames -merge -useContext x10
  clear_value x10
  extract_lets +onlyGivenNames -merge -useContext x11
  clear_value x11
  extract_lets +onlyGivenNames -merge -useContext x12
  clear_value x12
  extract_lets +onlyGivenNames -merge -useContext x13
  have h13 : Frame s x13 := onLink_frame k2
  clear_value x13
  extract_lets +onlyGivenNames -merge -useContext x14
  have h14 : Frame s x14 := by
    unfold x14
    refine Frame.ite ?_ ?_
    · exact bump_frame h13
    exact h13
  clear_value x14
  extract_lets +onlyGivenNames -merge -useContext x15
  have h15 : Frame s x15 := by
    unfold x15
    refine Frame.ite ?_ ?_
    · exact bump_frame h14
    exact h14
  clear_value x15
  refine Frame.ite ?_ ?_
  · exact calibrateP1_frame h15
  exact h15

theorem sbEvent_ran {R : State → Prop} (c : Closed R) {l f} {u : State} (h : R u) (hf : ∀ u, R u → R (f u)) :
    Ran R (sbEvent l f u) := by
  unfold sbEvent
  refine island_ran c h fun u h => ?_
  split
  · exact hf u h
  · exact h

theorem execChannelDisable_frame {s u2 : State} {a0} {a1} (k2 : Frame s u2) : Ran (Frame s) (execChannelDisable a0 a1 u2) := by
  unfold execChannelDisable
  refine kilak_ran (Frame.closed _) ?_ fun u0 k0 => ?_
  · exact k2
  exact channelDisable_frame k0

theorem execChannelEnable_frame {s u2 : State} {a0} {a1} (k2 : Frame s u2) : Ran (Frame s) (execChannelEnable a0 a1 u2) := by
  unfold execChannelEnable
  refine kilak_ran (Frame.closed _) ?_ fun u0 k0 => ?_
  · exact k2
  exact channelEnable_frame k0

theorem execEcho_frame {s u4 : State} {a0} {a1} {a2} {a3} (k4 : Frame s u4) : Ran (Frame s) (execEcho a0 a1 a2 a3 u4) := by
  unfold execEcho
  refine sbEvent_ran (Frame.closed _) ?_ fun u0 k0 => ?_
  · exact k4
  exact onLink_frame k0

theorem execI3cInBandInterrupt_frame {s u2 : State} {a0} {a1} (k2 : Frame s u2) : Ran (Frame s) (execI3cInBandInterrupt a0 a1 u2) := by
  unfold execI3cInBandInterrupt
  refine island_ran (Frame.closed _) ?_ fun u0 k0 => ?_
  · exact k2
  refine Frame.ite ?_ ?_
  · exact onLaneCh_frame k0
  exact k0

theorem execI3cPoll_frame {s u1 : State} {a0} (k1 : Frame s u1) : Ran (Frame s) (execI3cPoll a0 u1) := by
  unfold execI3cPoll
  refine island_ran (Frame.closed _) ?_ fun u0 k0 => ?_
  · exact k1
  exact i3cPoll_frame k0

theorem execI3cTransferDone_frame {s u3 : State} {a0} {a1} {a2} (k3 : Frame s u3) : Ran (Frame s) (execI3cTransferDone a0 a1 a2 u3) := by
  unfold execI3cTransferDone
  refine island_ran (Frame.closed _) ?_ fun u0 k0 => ?_
  · exact k3
  exact i3cDone_frame k0

theorem execLadderRungSuccess_frame {s u1 : State} {a0} (k1 : Frame s u1) : Ran (Frame s) (execLadderRungSuccess a0 u1) := by
  unfold execLadderRungSuccess
  refine island_ran (Frame.closed _) ?_ fun u0 k0 => ?_
  · exact k1
  exact rungSuccess_frame k0

theorem execLadderRungTimeout_frame {s u1 : State} {a0} (k1 : Frame s u1) : Ran (Frame s) (execLadderRungTimeout a0 u1) := by
  unfold execLadderRungTimeout
  refine island_ran (Frame.closed _) ?_ fun u0 k0 => ?_
  · exact k1
  exact rungTimeoutAct_frame k0

theorem execLaneTransitionDone_frame {s u2 : State} {a0} {a1} (k2 : Frame s u2) : Ran (Frame s) (execLaneTransitionDone a0 a1 u2) := by
  unfold execLaneTransitionDone
  refine island_ran (Frame.closed _) ?_ fun u0 k0 => ?_
  · exact k2
  exact laneTransition_frame k0

theorem execLate_frame {s u2 : State} {a0} {a1} (k2 : Frame s u2) : Ran (Frame s) (execLate a0 a1 u2) := by
  unfold execLate
  refine sbEvent_ran (Frame.closed _) ?_ fun u0 k0 => ?_
  · exact k2
  refine Frame.ite ?_ ?_
  · exact bump_frame k0
  exact k0

theorem modPresent_frame {s u3 : State} {a0} {a1} {a2} (k3 : Frame s u3) : Frame s (modPresent a0 a1 a2 u3) := by
  unfold modPresent
  extract_lets +onlyGivenNames -merge -useContext x10
  clear_value x10
  extract_lets +onlyGivenNames -merge -useContext x11
  have h11 : Frame s x11 := onLaneCh_frame k3
  clear_value x11
  refine Frame.ite ?_ ?_
  · exact getPid_frame h11
  exact h11

theorem execModPresent_frame {s u4 : State} {a0} {a1} {a2} {a3} (k4 : Frame s u4) : Ran (Frame s) (execModPresent a0 a1 a2 a3 u4) := by
  unfold execModPresent
  refine sbEvent_ran (Frame.closed _) ?_ fun u10 k10 => ?_
  · exact k4
  exact modPresent_frame k10

theorem execModuleRead_frame {s u4 : State} {a0} {a1} {a2} {a3} (k4 : Frame s u4) : Ran (Frame s) (execModuleRead a0 a1 a2 a3 u4) := by
  unfold execModuleRead
  refine kilak_ran (Frame.closed _) ?_ fun u0 k0 => ?_
  · exact k4
  exact moduleXfer_frame k0

theorem execModuleWrite_frame {s u4 : State} {a0} {a1} {a2} {a3} (k4 : Frame s u4) : Ran (Frame s) (execModuleWrite a0 a1 a2 a3 u4) := by
  unfold execModuleWrite
  refine kilak_ran (Frame.closed _) ?_ fun u0 k0 => ?_
  · exact k4
  exact moduleXfer_frame k0

theorem execPhaseMemoryLoad_frame {s u2 : State} {a0} {a1} (k2 : Frame s u2) : Ran (Frame s) (execPhaseMemoryLoad a0 a1 u2) := by
  unfold execPhaseMemoryLoad
  refine island_ran (Frame.closed _) ?_ fun u0 k0 => ?_
  · exact k2
  exact phaseLoad_frame k0

theorem execPhaseMemoryRead_frame {s u3 : State} {a0} {a1} {a2} (k3 : Frame s u3) : Ran (Frame s) (execPhaseMemoryRead a0 a1 a2 u3) := by
  unfold execPhaseMemoryRead
  refine kilak_ran (Frame.closed _) ?_ fun u0 k0 => ?_
  · exact k3
  refine Frame.ite1 ?_ ?_
  · exact deny_frame k0
  refine Frame.ite1 ?_ ?_
  · exact deny_frame k0
  exact doneWith_frame k0

theorem execPortAdminStateChange_frame {s u2 : State} {a0} {a1} (k2 : Frame s u2) : Ran (Frame s) (execPortAdminStateChange a0 a1 u2) := by
  unfold execPortAdminStateChange
  refine island_ran (Frame.closed _) ?_ fun u0 k0 => ?_
  · exact k2
  refine Frame.ite ?_ ?_
  · exact k0
  extract_lets +onlyGivenNames -merge -useContext x1
  clear_value x1
  extract_lets +onlyGivenNames -merge -useContext x2
  clear_value x2
  extract_lets +onlyGivenNames -merge -useContext x3
  clear_value x3
  extract_lets +onlyGivenNames -merge -useContext _ x4
  have h4 : Frame s x4 := Frame.mk' k0
  clear_value x4
  refine Frame.ite ?_ ?_
  · exact h4
  exact portDownFlush_frame h4

theorem execRssiResult_frame {s u4 : State} {a0} {a1} {a2} {a3} (k4 : Frame s u4) : Ran (Frame s) (execRssiResult a0 a1 a2 a3 u4) := by
  unfold execRssiResult
  refine sbEvent_ran (Frame.closed _) ?_ fun u0 k0 => ?_
  · exact k4
  exact setRssi_frame k0

theorem execSblBadEvent_frame {s u2 : State} {a0} {a1} (k2 : Frame s u2) : Ran (Frame s) (execSblBadEvent a0 a1 u2) := by
  unfold execSblBadEvent
  refine sbEvent_ran (Frame.closed _) ?_ fun u0 k0 => ?_
  · exact k2
  refine Frame.ite ?_ ?_
  · exact k0
  exact bump_frame k0

theorem execSidebandCalibration_frame {s u1 : State} {a0} (k1 : Frame s u1) : Ran (Frame s) (execSidebandCalibration a0 u1) := by
  unfold execSidebandCalibration
  refine sbEvent_ran (Frame.closed _) ?_ fun u10 k10 => ?_
  · exact k1
  split
  · refine Frame.ite ?_ ?_
    · exact sendEcho_frame k10
    exact k10
  · exact sendEcho_frame k10

theorem execSidebandFrameReceive_frame {s u2 : State} {a0} {a1} (k2 : Frame s u2) : Ran (Frame s) (execSidebandFrameReceive a0 a1 u2) := by
  unfold execSidebandFrameReceive
  refine island_ran (Frame.closed _) ?_ fun u0 k0 => ?_
  · exact k2
  exact sbFrame_frame k0

theorem execSigDetect_frame {s u3 : State} {a0} {a1} {a2} (k3 : Frame s u3) : Ran (Frame s) (execSigDetect a0 a1 a2 u3) := by
  unfold execSigDetect
  refine sbEvent_ran (Frame.closed _) ?_ fun u0 k0 => ?_
  · exact k3
  exact onLaneCh_frame k0

theorem execTxFault_frame {s u3 : State} {a0} {a1} {a2} (k3 : Frame s u3) : Ran (Frame s) (execTxFault a0 a1 a2 u3) := by
  unfold execTxFault
  refine sbEvent_ran (Frame.closed _) ?_ fun u0 k0 => ?_
  · exact k3
  exact onLaneCh_frame k0

theorem blockLock_frame {s u3 : State} {a0} {a1} {a2} (k3 : Frame s u3) : Frame s (blockLock a0 a1 a2 u3) := by
  unfold blockLock
  split
  · exact bumpBy_frame (Frame.mk' k3)

end Sys2Proof.Machine
end

