-- ==== Sys2Proof/Laws/FrameOnu.lean ====
section
/-! SUPPORT. What each operation of Machine/Onu.lean leaves alone. -/

namespace Sys2Proof.Machine

theorem tribAnswer_frame {s u3 : State} {a0} {a1} {a2} (k3 : Frame s u3) : Frame s (tribAnswer a0 a1 a2 u3) := by
  unfold tribAnswer
  split
  · exact k3
  · refine Frame.ite ?_ ?_
    · split
      · refine Frame.ite ?_ ?_
        · exact complete_frame (Frame.mk' k3)
        exact complete_frame (Frame.mk' k3)
      · exact k3
    exact k3

theorem acknowledged_frame {s u4 : State} {a0} {a1} {a2} {a3} (k4 : Frame s u4) : Frame s (acknowledged a0 a1 a2 a3 u4) := by
  unfold acknowledged
  split
  · refine Frame.ite ?_ ?_
    · refine Frame.ite ?_ ?_
      · exact onOnu_frame k4
      exact confirmMiss_frame k4
    exact k4
  · refine Frame.ite ?_ ?_
    · exact onOnu_frame k4
    exact k4
  · refine Frame.ite ?_ ?_
    · exact extDeclined_frame k4
    exact k4
  · refine Frame.ite ?_ ?_
    · exact k4
    refine Frame.ite ?_ ?_
    · exact onOnu_frame k4
    exact ladderFailed_frame k4
  · exact tribAnswer_frame k4
  · exact allocAnswered_frame k4
  · exact keyControlAnswered_frame k4
  · exact k4

theorem fromOnu_frame {s u : State} {hd} {f : Nat → Onu → State → State} (hf : ∀ h o u, Frame s u → Frame s (f h o u))
    (k : Frame s u) : Frame s (fromOnu hd f u) := by
  unfold fromOnu
  split
  · exact bump_frame k
  · split
    · exact bump_frame k
    · exact hf _ _ _ k

theorem carryAnswered_frame {s u1 : State} {a0} (k1 : Frame s u1) : Frame s (carryAnswered a0 u1) := by
  unfold carryAnswered
  exact onOnu_frame k1

theorem acknowledgement_frame {s u2 : State} {a0} {a1} (k2 : Frame s u2) : Frame s (acknowledgement a0 a1 u2) := by
  unfold acknowledgement
  refine fromOnu_frame ?_ ?_
  · intro b100 b101 u10 k10
    split
    · refine Frame.ite ?_ ?_
      · exact acknowledged_frame (plAnswered_frame k10)
      refine Frame.ite ?_ ?_
      · exact carryAnswered_frame k10
      exact bump_frame k10
    · refine Frame.ite ?_ ?_
      · exact carryAnswered_frame k10
      exact bump_frame k10
  exact k2

theorem unanswered_frame {s u3 : State} {a0} {a1} {a2} (k3 : Frame s u3) : Frame s (unanswered a0 a1 a2 u3) := by
  unfold unanswered
  split
  · refine Frame.ite ?_ ?_
    · exact confirmMiss_frame k3
    exact k3
  · exact releaseFor_frame (bump_frame k3)
  · exact tribAnswer_frame k3
  · exact allocAnswered_frame k3
  · exact keyControlAnswered_frame k3
  · exact k3

theorem carryTimeout_frame {s u1 : State} {a0} (k1 : Frame s u1) : Frame s (carryTimeout a0 u1) := by
  unfold carryTimeout
  split
  · exact k1
  · split
    · exact k1
    · refine Frame.ite ?_ ?_
      · exact k1
      refine Frame.ite ?_ ?_
      · extract_lets +onlyGivenNames -merge -useContext x10
        clear_value x10
        exact carryAnswered_frame (Frame.mk' k1)
      exact bump_frame (carryAnswered_frame k1)

theorem answerTimeout_frame {s u1 : State} {a0} (k1 : Frame s u1) : Frame s (answerTimeout a0 u1) := by
  unfold answerTimeout
  extract_lets +onlyGivenNames -merge -useContext x10
  have h10 : Frame s x10 := carryTimeout_frame k1
  clear_value x10
  split
  · exact h10
  · split
    · exact h10
    · refine Frame.ite ?_ ?_
      · exact h10
      refine Frame.ite ?_ ?_
      · extract_lets +onlyGivenNames -merge -useContext x11
        clear_value x11
        exact plAnswered_frame (Frame.mk' h10)
      exact unanswered_frame (bump_frame (plAnswered_frame h10))

theorem balanceMoves_frame {s u : State} {tree n loads} (k : Frame s u) : Frame s (balanceMoves tree n loads u) := by
  induction n generalizing u loads with
  | zero => exact k
  | succ n ih =>
    unfold balanceMoves
    split
    · refine Frame.ite k ?_
      dsimp only
      split
      · exact k
      · exact ih (bump_frame (startRetune_frame k))
    · exact k

theorem balanceInterval_frame {s u1 : State} {a0} (k1 : Frame s u1) : Frame s (balanceInterval a0 u1) := by
  unfold balanceInterval
  refine Frame.ite ?_ ?_
  · exact k1
  extract_lets +onlyGivenNames -merge -useContext x0
  clear_value x0
  extract_lets +onlyGivenNames -merge -useContext x1
  have h1 : Frame s x1 := by
    refine Frame.ite ?_ ?_
    · exact balanceMoves_frame k1
    exact k1
  clear_value x1
  exact Frame.mk' h1

theorem sendDisable_frame {s u2 : State} {a0} {a1} (k2 : Frame s u2) : Frame s (sendDisable a0 a1 u2) := by
  unfold sendDisable
  split
  · exact plBroadcast_frame k2
  · exact k2

theorem disableOnu_frame {s u1 : State} {a0} (k1 : Frame s u1) : Frame s (disableOnu a0 u1) := by
  unfold disableOnu
  exact onOnu_frame (sendDisable_frame (retireOnu_frame k1))

theorem extCapability_frame {s u2 : State} {a0} {a1} (k2 : Frame s u2) : Frame s (extCapability a0 a1 u2) := by
  unfold extCapability
  refine fromOnu_frame ?_ ?_
  · intro _ _ u0 k0
    refine Frame.ite ?_ ?_
    · exact enterOperation_frame (onOnu_frame (plAnswered_frame k0))
    exact bump_frame k0
  exact k2

theorem ladderTrialEnd_frame {s u1 : State} {a0} (k1 : Frame s u1) : Frame s (ladderTrialEnd a0 u1) := by
  unfold ladderTrialEnd
  split
  · exact k1
  · extract_lets +onlyGivenNames -merge -useContext x0
    clear_value x0
    refine Frame.ite ?_ ?_
    · exact k1
    refine Frame.ite ?_ ?_
    · refine Frame.ite ?_ ?_
      · exact ladderStep_frame (onOnu_frame k1)
      exact ladderFailed_frame k1
    refine Frame.ite ?_ ?_
    · exact ladderFailed_frame k1
    exact k1

theorem onuCreate_frame {s u3 : State} {a0} {a1} {a2} (k3 : Frame s u3) : Frame s (onuCreate a0 a1 a2 u3).1 := by
  unfold onuCreate
  refine Frame.ite1 ?_ ?_
  · exact deny_frame k3
  refine Frame.ite1 ?_ ?_
  · exact deny_frame k3
  refine Frame.ite1 ?_ ?_
  · exact deny_frame k3
  split
  · exact deny_frame k3
  · exact doneWith_frame (newContext_frame k3)

theorem outTimeout_frame {s u3 : State} {a0} {a1} {a2} (k2 : ∀ y u, Frame s u → Frame s (a2 y u)) (k3 : Frame s u3) : Frame s (outTimeout a0 a1 a2 u3) := by
  unfold outTimeout
  split
  · exact k3
  · split
    · refine Frame.ite ?_ ?_
      · exact k2 _ _ (bump_frame (plAnswered_frame k3))
      exact k3
    · exact k3

theorem rangingBurst_frame {s u3 : State} {a0} {a1} {a2} (k3 : Frame s u3) : Frame s (rangingBurst a0 a1 a2 u3) := by
  unfold rangingBurst
  split
  · exact k3
  · extract_lets +onlyGivenNames -merge -useContext x10
    clear_value x10
    split
    · refine Frame.ite ?_ ?_
      · exact k3
      refine Frame.ite ?_ ?_
      · exact sendEqd_frame k3
      exact releaseFor_frame k3
    · split
      · refine Frame.ite ?_ ?_
        · exact plSend_frame (onOnu_frame k3)
        exact k3
      · exact k3
    · refine Frame.ite ?_ ?_
      · exact plSend_frame (onOnu_frame k3)
      exact k3
    · refine Frame.ite ?_ ?_
      · exact plSend_frame (onOnu_frame k3)
      exact k3
    · exact k3

theorem registration_frame {s u2 : State} {a0} {a1} (k2 : Frame s u2) : Frame s (registration a0 a1 u2) := by
  unfold registration
  refine fromOnu_frame ?_ ?_
  · intro _ _ u0 k0
    refine Frame.ite ?_ ?_
    · extract_lets +onlyGivenNames -merge -useContext x1
      have h1 : Frame s x1 := onOnu_frame (plAnswered_frame k0)
      clear_value x1
      extract_lets +onlyGivenNames -merge -useContext x2
      have h2 : Frame s x2 := event_frame h1
      clear_value x2
      refine Frame.ite ?_ ?_
      · exact enterExtending_frame h2
      exact h2
    exact bump_frame k0
  exact k2

theorem tuningResponse_frame {s u2 : State} {a0} {a1} (k2 : Frame s u2) : Frame s (tuningResponse a0 a1 u2) := by
  unfold tuningResponse
  refine fromOnu_frame ?_ ?_
  · intro b100 b101 u10 k10
    split
    · refine Frame.ite ?_ ?_
      · exact onOnu_frame k10
      exact bump_frame k10
    · refine Frame.ite ?_ ?_
      · exact bump_frame k10
      refine Frame.ite ?_ ?_
      · refine Frame.ite ?_ ?_
        · exact k10
        refine Frame.ite ?_ ?_
        · exact bump_frame k10
        refine Frame.ite ?_ ?_
        · exact plAnswered_frame (onOnu_frame k10)
        exact tuneEnded_frame k10
      refine Frame.ite ?_ ?_
      · exact onOnu_frame k10
      exact bump_frame k10
  exact k2

theorem serialNumberOnu_frame {s u3 : State} {a0} {a1} {a2} (k3 : Frame s u3) : Frame s (serialNumberOnu a0 a1 a2 u3) := by
  unfold serialNumberOnu
  refine Frame.ite ?_ ?_
  · exact bump_frame k3
  split
  · exact bump_frame k3
  · refine Frame.ite ?_ ?_
    · exact k3
    extract_lets +onlyGivenNames -merge -useContext x10
    clear_value x10
    extract_lets +onlyGivenNames -merge -useContext x11
    clear_value x11
    extract_lets +onlyGivenNames -merge -useContext x12
    have h12 : Frame s x12 := Frame.mk' k3
    clear_value x12
    split
    · extract_lets +onlyGivenNames -merge -useContext x13
      have h13 : Frame s x13 := event_frame h12
      clear_value x13
      refine Frame.ite ?_ ?_
      · exact h13
      split
      · exact h13
      · exact enterDiscovered_frame (bump_frame (newContext_frame h13))
    · refine Frame.ite ?_ ?_
      · refine Frame.ite ?_ ?_
        · exact bump_frame h12
        exact event_frame (bump_frame h12)
      split
      · exact enterDiscovered_frame (bump_frame (onOnu_frame h12))
      · exact plBroadcast_frame (bump_frame h12)
      · exact bump_frame h12
      · exact bump_frame h12
      · exact bump_frame h12
      · exact enterDiscovered_frame (onOnu_frame (retireOnu_frame h12))

theorem unsupported_frame {s u1 : State} {a0} (k1 : Frame s u1) : Frame s (unsupported a0 u1) := by
  unfold unsupported
  refine Frame.ite ?_ ?_
  · exact bump_frame k1
  refine Frame.ite ?_ ?_
  · exact bump_frame k1
  exact bump_frame k1

theorem snWindow_frame {s u1 : State} {a0} (k1 : Frame s u1) : Frame s (snWindow a0 u1) := by
  unfold snWindow
  refine Frame.ite ?_ ?_
  · extract_lets +onlyGivenNames -merge -useContext _ x0
    have h0 : Frame s x0 := Frame.mk' k1
    clear_value x0
    exact bump_frame (requestWindow_frame h0)
  exact k1

theorem withOnu_frame {s u : State} {a} {f : Onu → State → State × Option Reply}
    (hf : ∀ x u, Frame s u → Frame s (f x u).1) (k : Frame s u) : Frame s (withOnu a f u).1 := by
  unfold withOnu
  split
  · exact hf _ _ k
  · exact deny_frame k

theorem usPloam_ran {R : State → Prop} (c : Closed R) {i f} {u : State} (h : R u) (hf : ∀ u, R u → R (f u)) :
    Ran R (usPloam i f u) := by
  unfold usPloam
  refine island_ran c h fun u h => ?_
  split
  · split
    · exact c.host _ _ h
    · exact h
  · exact hf u h

theorem execAcknowledgement_frame {s u2 : State} {a0} {a1} (k2 : Frame s u2) : Ran (Frame s) (execAcknowledgement a0 a1 u2) := by
  unfold execAcknowledgement
  refine usPloam_ran (Frame.closed _) ?_ fun u0 k0 => ?_
  · exact k2
  exact acknowledgement_frame k0

theorem execAuthTimeout_frame {s u1 : State} {a0} (k1 : Frame s u1) : Ran (Frame s) (execAuthTimeout a0 u1) := by
  unfold execAuthTimeout
  refine island_ran (Frame.closed _) ?_ fun u0 k0 => ?_
  · exact k1
  split
  · refine Frame.ite ?_ ?_
    · exact releaseFor_frame (bump_frame k0)
    exact k0
  · exact k0

theorem execBalanceInterval_frame {s u1 : State} {a0} (k1 : Frame s u1) : Ran (Frame s) (execBalanceInterval a0 u1) := by
  unfold execBalanceInterval
  refine island_ran (Frame.closed _) ?_ fun u0 k0 => ?_
  · exact k1
  exact balanceInterval_frame k0

theorem execExtCapability_frame {s u2 : State} {a0} {a1} (k2 : Frame s u2) : Ran (Frame s) (execExtCapability a0 a1 u2) := by
  unfold execExtCapability
  refine usPloam_ran (Frame.closed _) ?_ fun u0 k0 => ?_
  · exact k2
  exact extCapability_frame k0

theorem execExtendingTimeout_frame {s u1 : State} {a0} (k1 : Frame s u1) : Ran (Frame s) (execExtendingTimeout a0 u1) := by
  unfold execExtendingTimeout
  refine island_ran (Frame.closed _) ?_ fun u0 k0 => ?_
  · exact k1
  refine outTimeout_frame ?_ ?_
  · intro _ u1 k1
    exact enterOperation_frame (onOnu_frame k1)
  exact k0

theorem execLadderAckTimeout_frame {s u1 : State} {a0} (k1 : Frame s u1) : Ran (Frame s) (execLadderAckTimeout a0 u1) := by
  unfold execLadderAckTimeout
  refine island_ran (Frame.closed _) ?_ fun u0 k0 => ?_
  · exact k1
  refine outTimeout_frame ?_ ?_
  · intro _ u1 k1
    exact ladderFailed_frame k1
  exact k0

theorem execLadderRetry_frame {s u1 : State} {a0} (k1 : Frame s u1) : Ran (Frame s) (execLadderRetry a0 u1) := by
  unfold execLadderRetry
  refine island_ran (Frame.closed _) ?_ fun u0 k0 => ?_
  · exact k1
  split
  · exact k0
  · refine Frame.ite ?_ ?_
    · exact ladderStep_frame (onOnu_frame k0)
    exact k0

theorem execLadderTrialEnd_frame {s u1 : State} {a0} (k1 : Frame s u1) : Ran (Frame s) (execLadderTrialEnd a0 u1) := by
  unfold execLadderTrialEnd
  refine island_ran (Frame.closed _) ?_ fun u0 k0 => ?_
  · exact k1
  exact ladderTrialEnd_frame k0

theorem execLostTimeout_frame {s u1 : State} {a0} (k1 : Frame s u1) : Ran (Frame s) (execLostTimeout a0 u1) := by
  unfold execLostTimeout
  refine island_ran (Frame.closed _) ?_ fun u0 k0 => ?_
  · exact k1
  split
  · refine Frame.ite ?_ ?_
    · exact releaseFor_frame k0
    exact k0
  · exact k0

theorem execOnuAccept_frame {s u2 : State} {a0} {a1} (k2 : Frame s u2) : Ran (Frame s) (execOnuAccept a0 a1 u2) := by
  unfold execOnuAccept
  refine kilak_ran (Frame.closed _) ?_ fun u0 k0 => ?_
  · exact k2
  refine withOnu_frame ?_ ?_
  · intro _ u1 k1
    refine Frame.ite1 ?_ ?_
    · exact done_frame (enterExtending_frame k1)
    exact deny_frame k1
  exact k0

theorem execOnuCreate_frame {s u4 : State} {a0} {a1} {a2} {a3} (k4 : Frame s u4) : Ran (Frame s) (execOnuCreate a0 a1 a2 a3 u4) := by
  unfold execOnuCreate
  refine kilak_ran (Frame.closed _) ?_ fun u0 k0 => ?_
  · exact k4
  exact onuCreate_frame k0

theorem execOnuDeactivate_frame {s u2 : State} {a0} {a1} (k2 : Frame s u2) : Ran (Frame s) (execOnuDeactivate a0 a1 u2) := by
  unfold execOnuDeactivate
  refine kilak_ran (Frame.closed _) ?_ fun u10 k10 => ?_
  · exact k2
  refine withOnu_frame ?_ ?_
  · intro b110 u11 k11
    extract_lets +onlyGivenNames -merge -useContext x12
    clear_value x12
    refine Frame.ite1 ?_ ?_
    · extract_lets +onlyGivenNames -merge -useContext x13
      have h13 : Frame s x13 := by
        unfold x13
        refine Frame.ite ?_ ?_
        · exact releaseOnu_frame k11
        exact onOnu_frame k11
      clear_value x13
      extract_lets +onlyGivenNames -merge -useContext x14
      have h14 : Frame s x14 := onOnu_frame h13
      clear_value x14
      refine done_frame ?_
      split
      · exact plBroadcast_frame h14
      · exact h14
    exact deny_frame k11
  exact k10

theorem execOnuDestroy_frame {s u2 : State} {a0} {a1} (k2 : Frame s u2) : Ran (Frame s) (execOnuDestroy a0 a1 u2) := by
  unfold execOnuDestroy
  refine kilak_ran (Frame.closed _) ?_ fun u0 k0 => ?_
  · exact k2
  split
  · exact done_frame k0
  · exact done_frame (Frame.mk' k0)
  · exact done_frame (Frame.mk' k0)
  · exact deny_frame k0

theorem execOnuDisable_frame {s u2 : State} {a0} {a1} (k2 : Frame s u2) : Ran (Frame s) (execOnuDisable a0 a1 u2) := by
  unfold execOnuDisable
  refine kilak_ran (Frame.closed _) ?_ fun u10 k10 => ?_
  · exact k2
  refine withOnu_frame ?_ ?_
  · intro b110 u11 k11
    refine Frame.ite1 ?_ ?_
    · exact deny_frame k11
    refine Frame.ite1 ?_ ?_
    · exact done_frame (sendDisable_frame k11)
    exact done_frame (disableOnu_frame k11)
  exact k10

theorem execOnuEnable_frame {s u2 : State} {a0} {a1} (k2 : Frame s u2) : Ran (Frame s) (execOnuEnable a0 a1 u2) := by
  unfold execOnuEnable
  refine kilak_ran (Frame.closed _) ?_ fun u0 k0 => ?_
  · exact k2
  refine withOnu_frame ?_ ?_
  · intro _ u1 k1
    refine Frame.ite1 ?_ ?_
    · exact done_frame (onOnu_frame (sendDisable_frame k1))
    exact deny_frame k1
  exact k0

theorem execOnuEnableAll_frame {s u2 : State} {a0} {a1} (k2 : Frame s u2) : Ran (Frame s) (execOnuEnableAll a0 a1 u2) := by
  unfold execOnuEnableAll
  refine kilak_ran (Frame.closed _) ?_ fun u0 k0 => ?_
  · exact k2
  refine Frame.ite1 ?_ ?_
  · exact deny_frame k0
  refine done_frame ?_
  refine Frame.foldl (fun u1 _ k1 => ?_) ?_
  · exact plBroadcast_frame k1
  exact k0

theorem execOnuIdQuarantineEnd_frame {s u2 : State} {a0} {a1} (k2 : Frame s u2) : Ran (Frame s) (execOnuIdQuarantineEnd a0 a1 u2) := by
  unfold execOnuIdQuarantineEnd
  refine island_ran (Frame.closed _) ?_ fun u0 k0 => ?_
  · exact k2
  split
  · exact k0
  · refine Frame.ite ?_ ?_
    · exact k0
    extract_lets +onlyGivenNames -merge -useContext _ x1
    have h1 : Frame s x1 := Frame.mk' k0
    clear_value x1
    refine Frame.foldl (fun u2 _ k2 => ?_) ?_
    · exact vacate_frame k2
    exact h1

theorem execOnuLadderRestart_frame {s u2 : State} {a0} {a1} (k2 : Frame s u2) : Ran (Frame s) (execOnuLadderRestart a0 a1 u2) := by
  unfold execOnuLadderRestart
  refine kilak_ran (Frame.closed _) ?_ fun u0 k0 => ?_
  · exact k2
  refine withOnu_frame ?_ ?_
  · intro _ u1 k1
    refine Frame.ite1 ?_ ?_
    · exact deny_frame k1
    refine Frame.ite1 ?_ ?_
    · exact deny_frame k1
    exact done_frame (ladderStep_frame (onOnu_frame k1))
  exact k0

theorem execOnuPin_frame {s u3 : State} {a0} {a1} {a2} (k3 : Frame s u3) : Ran (Frame s) (execOnuPin a0 a1 a2 u3) := by
  unfold execOnuPin
  refine kilak_ran (Frame.closed _) ?_ fun u0 k0 => ?_
  · exact k3
  refine withOnu_frame ?_ ?_
  · intro _ u1 k1
    exact done_frame (onOnu_frame k1)
  exact k0

theorem execOnuRangeRead_frame {s u2 : State} {a0} {a1} (k2 : Frame s u2) : Ran (Frame s) (execOnuRangeRead a0 a1 u2) := by
  unfold execOnuRangeRead
  refine kilak_ran (Frame.closed _) ?_ fun u0 k0 => ?_
  · exact k2
  refine withOnu_frame ?_ ?_
  · intro _ u1 k1
    exact doneWith_frame k1
  exact k0

theorem execOnuReject_frame {s u2 : State} {a0} {a1} (k2 : Frame s u2) : Ran (Frame s) (execOnuReject a0 a1 u2) := by
  unfold execOnuReject
  refine kilak_ran (Frame.closed _) ?_ fun u0 k0 => ?_
  · exact k2
  refine withOnu_frame ?_ ?_
  · intro _ u1 k1
    refine Frame.ite1 ?_ ?_
    · exact done_frame (disableOnu_frame k1)
    exact deny_frame k1
  exact k0

theorem execOnuRetune_frame {s u3 : State} {a0} {a1} {a2} (k3 : Frame s u3) : Ran (Frame s) (execOnuRetune a0 a1 a2 u3) := by
  unfold execOnuRetune
  refine kilak_ran (Frame.closed _) ?_ fun u10 k10 => ?_
  · exact k3
  split
  · exact deny_frame k10
  · exact waits_frame (startRetune_frame (balanceYield_frame k10))

theorem execOnuStatus_frame {s u2 : State} {a0} {a1} (k2 : Frame s u2) : Ran (Frame s) (execOnuStatus a0 a1 u2) := by
  unfold execOnuStatus
  refine kilak_ran (Frame.closed _) ?_ fun u0 k0 => ?_
  · exact k2
  refine withOnu_frame ?_ ?_
  · intro _ u1 k1
    exact doneWith_frame k1
  exact k0

theorem execPloamAnswerTimeout_frame {s u1 : State} {a0} (k1 : Frame s u1) : Ran (Frame s) (execPloamAnswerTimeout a0 u1) := by
  unfold execPloamAnswerTimeout
  refine island_ran (Frame.closed _) ?_ fun u0 k0 => ?_
  · exact k1
  exact answerTimeout_frame k0

theorem execPloamUnsupported_frame {s u1 : State} {a0} (k1 : Frame s u1) : Ran (Frame s) (execPloamUnsupported a0 u1) := by
  unfold execPloamUnsupported
  refine usPloam_ran (Frame.closed _) ?_ fun u0 k0 => ?_
  · exact k1
  exact unsupported_frame k0

theorem execRangingBurst_frame {s u3 : State} {a0} {a1} {a2} (k3 : Frame s u3) : Ran (Frame s) (execRangingBurst a0 a1 a2 u3) := by
  unfold execRangingBurst
  refine island_ran (Frame.closed _) ?_ fun u0 k0 => ?_
  · exact k3
  exact rangingBurst_frame k0

theorem execRangingWindowEnd_frame {s u1 : State} {a0} (k1 : Frame s u1) : Ran (Frame s) (execRangingWindowEnd a0 u1) := by
  unfold execRangingWindowEnd
  refine island_ran (Frame.closed _) ?_ fun u0 k0 => ?_
  · exact k1
  split
  · exact k0
  · refine Frame.ite ?_ ?_
    · exact rangingMissed_frame (bump_frame k0)
    exact k0

theorem execRegistration_frame {s u2 : State} {a0} {a1} (k2 : Frame s u2) : Ran (Frame s) (execRegistration a0 a1 u2) := by
  unfold execRegistration
  refine usPloam_ran (Frame.closed _) ?_ fun u0 k0 => ?_
  · exact k2
  exact registration_frame k0

theorem execSerialNumberOnu_frame {s u3 : State} {a0} {a1} {a2} (k3 : Frame s u3) : Ran (Frame s) (execSerialNumberOnu a0 a1 a2 u3) := by
  unfold execSerialNumberOnu
  refine usPloam_ran (Frame.closed _) ?_ fun u0 k0 => ?_
  · exact k3
  exact serialNumberOnu_frame k0

theorem execSerialNumberWindow_frame {s u1 : State} {a0} (k1 : Frame s u1) : Ran (Frame s) (execSerialNumberWindow a0 u1) := by
  unfold execSerialNumberWindow
  refine island_ran (Frame.closed _) ?_ fun u0 k0 => ?_
  · exact k1
  exact snWindow_frame k0

theorem execSleepRequest_frame {s u1 : State} {a0} (k1 : Frame s u1) : Ran (Frame s) (execSleepRequest a0 u1) := by
  unfold execSleepRequest
  refine usPloam_ran (Frame.closed _) ?_ fun u0 k0 => ?_
  · exact k1
  exact unsupported_frame k0

theorem execSnWindowEnd_frame {s u3 : State} {a0} {a1} {a2} (k3 : Frame s u3) : Ran (Frame s) (execSnWindowEnd a0 a1 a2 u3) := by
  unfold execSnWindowEnd
  refine island_ran (Frame.closed _) ?_ fun u0 k0 => ?_
  · exact k3
  split
  · exact k0
  · extract_lets +onlyGivenNames -merge -useContext _ x1
    have h1 : Frame s x1 := Frame.mk' k0
    clear_value x1
    refine Frame.ite ?_ ?_
    · exact bump_frame h1
    exact h1

theorem spareTimeout_frame {s u3 : State} {a0} {a1} {a2} (k3 : Frame s u3) : Frame s (spareTimeout a0 a1 a2 u3) := by
  unfold spareTimeout
  split
  · exact k3
  · refine Frame.ite ?_ ?_
    · exact k3
    refine Frame.ite ?_ ?_
    · extract_lets +onlyGivenNames -merge -useContext x10
      clear_value x10
      extract_lets +onlyGivenNames -merge -useContext x11
      have h11 : Frame s x11 := Frame.mk' k3
      clear_value x11
      exact requestWindow_frame (onOnu_frame h11)
    extract_lets +onlyGivenNames -merge -useContext x12
    have h12 : Frame s x12 := bump_frame (dropWindowReq_frame (spareForget_frame k3))
    clear_value x12
    refine Frame.ite ?_ ?_
    · exact h12
    exact onOnu_frame h12

theorem execTuneArrivalTimeout_frame {s u2 : State} {a0} {a1} (k2 : Frame s u2) : Ran (Frame s) (execTuneArrivalTimeout a0 a1 u2) := by
  unfold execTuneArrivalTimeout
  refine island_ran (Frame.closed _) ?_ fun u10 k10 => ?_
  · exact k2
  split
  · exact k10
  · split
    · exact spareTimeout_frame k10
    · split
      · refine Frame.ite ?_ ?_
        · exact k10
        exact tuneBack_frame k10
      · refine Frame.ite ?_ ?_
        · exact k10
        refine Frame.ite ?_ ?_
        · exact tuneWindow_frame k10
        exact bump_frame (onOnu_frame k10)

theorem execTuningResponse_frame {s u2 : State} {a0} {a1} (k2 : Frame s u2) : Ran (Frame s) (execTuningResponse a0 a1 u2) := by
  unfold execTuningResponse
  refine usPloam_ran (Frame.closed _) ?_ fun u0 k0 => ?_
  · exact k2
  exact tuningResponse_frame k0

theorem tuningTimeout_frame {s u1 : State} {a0} (k1 : Frame s u1) : Frame s (tuningTimeout a0 u1) := by
  unfold tuningTimeout
  split
  · exact k1
  · split
    · refine Frame.ite ?_ ?_
      · refine tuneEnded_frame ?_
        refine Frame.ite ?_ ?_
        · exact bump_frame k1
        exact k1
      exact k1
    · exact k1

theorem execTuningResponseTimeout_frame {s u1 : State} {a0} (k1 : Frame s u1) : Ran (Frame s) (execTuningResponseTimeout a0 u1) := by
  unfold execTuningResponseTimeout
  refine island_ran (Frame.closed _) ?_ fun u10 k10 => ?_
  · exact k1
  exact tuningTimeout_frame k10

end Sys2Proof.Machine
end

