-- ==== Sys2Proof/Laws/FrameProt.lean ====
section
/-! SUPPORT. What each operation of Machine/Prot.lean leaves alone. -/

namespace Sys2Proof.Machine

theorem abandonSpare_frame {s u1 : State} {a0} (k1 : Frame s u1) : Frame s (abandonSpare a0 u1) := by
  unfold abandonSpare
  extract_lets +onlyGivenNames -merge -useContext x10
  clear_value x10
  extract_lets +onlyGivenNames -merge -useContext x11
  have h11 : Frame s x11 := by
    unfold x11
    refine Frame.foldl (fun u12 _ k12 => ?_) ?_
    · exact onOnu_frame (abandonTune_frame k12)
    exact k1
  clear_value x11
  extract_lets +onlyGivenNames -merge -useContext x13
  clear_value x13
  refine Frame.foldl (fun u14 _ k14 => ?_) ?_
  · exact spareForget_frame k14
  exact h11

theorem toSync_frame {s u1 : State} {a0} (k1 : Frame s u1) : Frame s (toSync a0 u1) := by
  unfold toSync
  exact onGrp_frame k1

theorem auditSend_frame {s u1 : State} {a0} (k1 : Frame s u1) : Frame s (auditSend a0 u1) := by
  unfold auditSend
  split
  · exact k1
  · extract_lets +onlyGivenNames -merge -useContext x10
    have h10 : Frame s x10 := ixrSeq_frame k1
    clear_value x10
    exact Frame.mk' h10

theorem auditCompare_frame {s u4 : State} {a0} {a1} {a2} {a3} (k4 : Frame s u4) : Frame s (auditCompare a0 a1 a2 a3 u4) := by
  unfold auditCompare
  extract_lets +onlyGivenNames -merge -useContext x0
  clear_value x0
  extract_lets +onlyGivenNames -merge -useContext x1
  have h1 : Frame s x1 := onGrp_frame k4
  clear_value x1
  refine Frame.ite ?_ ?_
  · extract_lets +onlyGivenNames -merge -useContext x2
    have h2 : Frame s x2 := auditSend_frame h1
    clear_value x2
    extract_lets +onlyGivenNames -merge -useContext x3
    have h3 : Frame s x3 := completeOpt_frame h2
    clear_value x3
    refine Frame.ite ?_ ?_
    · exact h3
    exact event_frame (bump_frame h3)
  refine Frame.ite ?_ ?_
  · exact onGrp_frame h1
  exact toSync_frame (event_frame (bump_frame h1))

theorem auditReceive_frame {s u7 : State} {a0} {a1} {a2} {a3} {a4} {a5} {a6} (k7 : Frame s u7) : Frame s (auditReceive a0 a1 a2 a3 a4 a5 a6 u7) := by
  unfold auditReceive
  split
  · extract_lets +onlyGivenNames -merge -useContext x0
    clear_value x0
    refine Frame.ite ?_ ?_
    · split
      · split
        · refine Frame.ite ?_ ?_
          · exact auditCompare_frame (Frame.ofEq2 (by assumption) (ixrArrive_frame k7))
          exact Frame.ofEq2 (by assumption) (ixrArrive_frame k7)
        · exact Frame.ofEq2 (by assumption) (ixrArrive_frame k7)
      · exact Frame.ofEq2 (by assumption) (ixrArrive_frame k7)
    refine Frame.ite ?_ ?_
    · exact Frame.ofEq2 (by assumption) (ixrArrive_frame k7)
    exact onGrp_frame (Frame.ofEq2 (by assumption) (ixrArrive_frame k7))

theorem auditScan_frame {s u1 : State} {a0} (k1 : Frame s u1) : Frame s (auditScan a0 u1) := by
  unfold auditScan
  split
  · exact k1
  · refine Frame.ite ?_ ?_
    · exact k1
    extract_lets +onlyGivenNames -merge -useContext x10
    clear_value x10
    extract_lets +onlyGivenNames -merge -useContext x11
    have h11 : Frame s x11 := cu3Ran_frame (onGrp_frame k1)
    clear_value x11
    refine Frame.ite ?_ ?_
    · exact h11
    exact auditSend_frame h11

theorem auditStart_frame {s u2 : State} {a0} {a1} (k2 : Frame s u2) : Frame s (auditStart a0 a1 u2) := by
  unfold auditStart
  extract_lets +onlyGivenNames -merge -useContext x0
  clear_value x0
  exact auditSend_frame (onGrp_frame k2)

theorem hbSend_frame {s u0 : State} (k0 : Frame s u0) : Frame s (hbSend u0) := by
  unfold hbSend
  refine Frame.ite ?_ ?_
  · exact Frame.mk' k0
  extract_lets +onlyGivenNames -merge -useContext x0
  clear_value x0
  extract_lets +onlyGivenNames -merge -useContext x1
  clear_value x1
  extract_lets +onlyGivenNames -merge -useContext x2
  clear_value x2
  extract_lets +onlyGivenNames -merge -useContext x3
  have h3 : Frame s x3 := by
    refine Frame.foldl (fun u4 _ k4 => ?_) ?_
    · exact ixrSeq_frame k4
    exact k0
  clear_value x3
  exact Frame.mk' h3

theorem lanesTo_frame {s u2 : State} {a0} {a1} (k2 : Frame s u2) : Frame s (lanesTo a0 a1 u2) := by
  unfold lanesTo
  exact onLaneCh_frame k2

theorem drainBoundary_frame {s u0 : State} (k0 : Frame s u0) : Frame s (drainBoundary u0) := by
  unfold drainBoundary
  refine Frame.foldl (fun u10 _ k10 => ?_) ?_
  · refine Frame.ite ?_ ?_
    · exact k10
    exact lanesTo_frame (Frame.mk' k10)
  exact k0

theorem mirrorSend_frame {s u1 : State} {a0} (k1 : Frame s u1) : Frame s (mirrorSend a0 u1) := by
  unfold mirrorSend
  split
  · exact k1
  · split
    · exact Frame.mk' (Frame.ofEq2 (by assumption) (ixrSeq_frame k1))

theorem mirrorGroup_frame {s u1 : State} {a0} (k1 : Frame s u1) : Frame s (mirrorGroup a0 u1) := by
  unfold mirrorGroup
  extract_lets +onlyGivenNames -merge -useContext x0
  clear_value x0
  refine Frame.ite ?_ ?_
  · exact k1
  extract_lets +onlyGivenNames -merge -useContext x1
  clear_value x1
  extract_lets +onlyGivenNames -merge -useContext x2
  clear_value x2
  extract_lets +onlyGivenNames -merge -useContext x3
  clear_value x3
  extract_lets +onlyGivenNames -merge -useContext x4
  clear_value x4
  extract_lets +onlyGivenNames -merge -useContext x5
  have h5 : Frame s x5 := onGrp_frame k1
  clear_value x5
  refine Frame.ite ?_ ?_
  · exact mirrorSend_frame h5
  refine Frame.ite ?_ ?_
  · exact h5
  exact mirrorSend_frame h5

theorem raiseClaim_frame {s u1 : State} {a0} (k1 : Frame s u1) : Frame s (raiseClaim a0 u1) := by
  unfold raiseClaim
  exact onGrp_frame k1

theorem startClaim_frame {s u1 : State} {a0} (k1 : Frame s u1) : Frame s (startClaim a0 u1) := by
  unfold startClaim
  exact onGrp_frame (raiseClaim_frame k1)

theorem hbEval_frame {s u1 : State} {a0} (k1 : Frame s u1) : Frame s (hbEval a0 u1) := by
  unfold hbEval
  extract_lets +onlyGivenNames -merge -useContext x0
  clear_value x0
  split
  · refine Frame.ite ?_ ?_
    · exact startClaim_frame k1
    exact k1
  · refine Frame.ite ?_ ?_
    · exact onGrp_frame k1
    refine Frame.ite ?_ ?_
    · exact k1
    exact onGrp_frame (raiseClaim_frame k1)
  · exact k1

theorem protBoundary_frame {s u0 : State} (k0 : Frame s u0) : Frame s (protBoundary u0) := by
  unfold protBoundary
  extract_lets +onlyGivenNames -merge -useContext _ x0
  have h0 : Frame s x0 := Frame.mk' k0
  clear_value x0
  extract_lets +onlyGivenNames -merge -useContext x1
  have h1 : Frame s x1 := by
    refine Frame.foldl (fun u2 _ k2 => ?_) ?_
    · exact hbEval_frame k2
    exact h0
  clear_value x1
  extract_lets +onlyGivenNames -merge -useContext x3
  have h3 : Frame s x3 := by
    refine Frame.foldl (fun u4 _ k4 => ?_) ?_
    · exact auditScan_frame k4
    exact h1
  clear_value x3
  extract_lets +onlyGivenNames -merge -useContext x5
  have h5 : Frame s x5 := by
    refine Frame.foldl (fun u6 _ k6 => ?_) ?_
    · exact mirrorGroup_frame k6
    exact h3
  clear_value x5
  exact hbSend_frame (drainBoundary_frame h5)

theorem releaseGroup_frame {s u1 : State} {a0} (k1 : Frame s u1) : Frame s (releaseGroup a0 u1) := by
  unfold releaseGroup
  exact dropHold_frame k1

theorem protFail_frame {s u2 : State} {a0} {a1} (k2 : Frame s u2) : Frame s (protFail a0 a1 u2) := by
  unfold protFail
  extract_lets +onlyGivenNames -merge -useContext x0
  clear_value x0
  refine Frame.ite ?_ ?_
  · exact k2
  refine Frame.ite ?_ ?_
  · exact releaseGroup_frame (event_frame k2)
  refine Frame.ite ?_ ?_
  · exact releaseGroup_frame k2
  exact k2

theorem spareOnu_frame {s u5 : State} {a0} {a1} {a2} {a3} {a4} (k5 : Frame s u5) : Frame s (spareOnu a0 a1 a2 a3 a4 u5) := by
  unfold spareOnu
  extract_lets +onlyGivenNames -merge -useContext x10
  have h10 : Frame s x10 := spareForget_frame k5
  clear_value x10
  extract_lets +onlyGivenNames -merge -useContext x11
  clear_value x11
  extract_lets +onlyGivenNames -merge -useContext x12
  have h12 : Frame s x12 := Frame.mk' h10
  clear_value x12
  refine Frame.ite ?_ ?_
  · refine Frame.ite ?_ ?_
    · exact startRetune_frame h12
    exact h12
  refine Frame.ite ?_ ?_
  · exact h12
  exact requestWindow_frame (onOnu_frame (Frame.mk' h12))

theorem spareChannel_frame {s u3 : State} {a0} {a1} {a2} (k3 : Frame s u3) : Frame s (spareChannel a0 a1 a2 u3) := by
  unfold spareChannel
  extract_lets +onlyGivenNames -merge -useContext x10
  clear_value x10
  extract_lets +onlyGivenNames -merge -useContext x11
  clear_value x11
  extract_lets +onlyGivenNames -merge -useContext x12
  clear_value x12
  extract_lets +onlyGivenNames -merge -useContext x13
  have h13 : Frame s x13 := setParam_frame (setParam_frame k3)
  clear_value x13
  extract_lets +onlyGivenNames -merge -useContext x14
  clear_value x14
  extract_lets +onlyGivenNames -merge -useContext x15
  have h15 : Frame s x15 := onDsCh_frame h13
  clear_value x15
  extract_lets +onlyGivenNames -merge -useContext x16
  have h16 : Frame s x16 := onDsCh_frame h15
  clear_value x16
  extract_lets +onlyGivenNames -merge -useContext x17
  have h17 : Frame s x17 := by
    unfold x17
    refine Frame.foldl (fun u18 _ k18 => ?_) ?_
    · exact onTrib_frame k18
    exact h16
  clear_value x17
  extract_lets +onlyGivenNames -merge -useContext x19
  have h19 : Frame s x19 := onMap_frame h17
  clear_value x19
  extract_lets +onlyGivenNames -merge -useContext x20
  have h20 : Frame s x20 := by
    unfold x20
    refine Frame.foldl (fun u21 _ k21 => ?_) ?_
    · exact setBcast_frame k21
    exact h19
  clear_value x20
  extract_lets +onlyGivenNames -merge -useContext x22
  have h22 : Frame s x22 := onLaneCh_frame h20
  clear_value x22
  extract_lets +onlyGivenNames -merge -useContext x23
  have h23 : Frame s x23 := by
    unfold x23
    refine Frame.ite ?_ ?_
    · exact sbSend_frame h22
    exact h22
  clear_value x23
  extract_lets +onlyGivenNames -merge -useContext x24
  have h24 : Frame s x24 := by
    unfold x24
    refine Frame.foldl (fun u25 _ k25 => ?_) ?_
    · refine Frame.ite ?_ ?_
      · exact plQueue_frame k25
      exact k25
    exact h23
  clear_value x24
  extract_lets +onlyGivenNames -merge -useContext x26
  have h26 : Frame s x26 := by
    unfold x26
    refine Frame.foldl (fun u27 _ k27 => ?_) ?_
    · exact spareOnu_frame k27
    exact h24
  clear_value x26
  extract_lets +onlyGivenNames -merge -useContext x28
  clear_value x28
  extract_lets +onlyGivenNames -merge -useContext x29
  have h29 : Frame s x29 := by
    unfold x29
    refine Frame.ite ?_ ?_
    · exact Frame.mk' h26
    exact lanesTo_frame h26
  clear_value x29
  exact event_frame (bump_frame (setParam_frame h29))

theorem peerState_frame {s u3 : State} {a0} {a1} {a2} (k3 : Frame s u3) : Frame s (peerState a0 a1 a2 u3) := by
  unfold peerState
  extract_lets +onlyGivenNames -merge -useContext x0
  clear_value x0
  refine Frame.ite ?_ ?_
  · exact k3
  extract_lets +onlyGivenNames -merge -useContext x1
  have h1 : Frame s x1 := onGrp_frame k3
  clear_value x1
  refine Frame.ite ?_ ?_
  · exact h1
  split
  · exact onGrp_frame h1
  · exact onGrp_frame h1
  · exact h1

theorem hbReceive_frame {s u1 : State} {a0} (k1 : Frame s u1) : Frame s (hbReceive a0 u1) := by
  unfold hbReceive
  split
  · extract_lets +onlyGivenNames -merge -useContext x0
    have h0 : Frame s x0 := by
      refine Frame.ite ?_ ?_
      · exact bump_frame (Frame.ofEq2 (by assumption) (ixrArrive_frame k1))
      exact Frame.ofEq2 (by assumption) (ixrArrive_frame k1)
    clear_value x0
    refine Frame.ite ?_ ?_
    · exact h0
    extract_lets +onlyGivenNames -merge -useContext x1
    clear_value x1
    extract_lets +onlyGivenNames -merge -useContext x2
    clear_value x2
    refine Frame.ite ?_ ?_
    · extract_lets +onlyGivenNames -merge -useContext x3
      clear_value x3
      extract_lets +onlyGivenNames -merge -useContext _ x4
      have h4 : Frame s x4 := Frame.mk' h0
      clear_value x4
      refine Frame.ite ?_ ?_
      · exact h4
      exact event_frame (bump_frame h4)
    extract_lets +onlyGivenNames -merge -useContext x5
    clear_value x5
    extract_lets +onlyGivenNames -merge -useContext _ x6
    have h6 : Frame s x6 := Frame.mk' h0
    clear_value x6
    extract_lets +onlyGivenNames -merge -useContext x7
    clear_value x7
    extract_lets +onlyGivenNames -merge -useContext _ x8
    have h8 : Frame s x8 := by
      refine Frame.ite ?_ ?_
      · exact event_frame (Frame.mk' h6)
      exact h6
    clear_value x8
    refine Frame.ite ?_ ?_
    · extract_lets +onlyGivenNames -merge -useContext _ x9
      have h9 : Frame s x9 := Frame.mk' h8
      clear_value x9
      refine Frame.foldl (fun u10 _ k10 => ?_) ?_
      · exact peerState_frame k10
      exact h9
    exact h8

theorem ixrLink_frame {s u2 : State} {a0} {a1} (k2 : Frame s u2) : Frame s (ixrLink a0 a1 u2) := by
  unfold ixrLink
  refine Frame.ite ?_ ?_
  · exact k2
  extract_lets +onlyGivenNames -merge -useContext _ x0
  have h0 : Frame s x0 := Frame.mk' k2
  clear_value x0
  refine Frame.ite ?_ ?_
  · exact cascLinkUp_frame h0
  exact Frame.mk' h0

theorem mirrorApply_frame {s u1 : State} {a0} (k1 : Frame s u1) : Frame s (mirrorApply a0 u1) := by
  unfold mirrorApply
  split
  · extract_lets +onlyGivenNames -merge -useContext x10
    clear_value x10
    extract_lets +onlyGivenNames -merge -useContext x11
    clear_value x11
    extract_lets +onlyGivenNames -merge -useContext x12
    have h12 : Frame s x12 := Frame.mk' k1
    clear_value x12
    refine Frame.ite ?_ ?_
    · exact Frame.mk' h12
    extract_lets +onlyGivenNames -merge -useContext x13
    clear_value x13
    extract_lets +onlyGivenNames -merge -useContext x14
    clear_value x14
    extract_lets +onlyGivenNames -merge -useContext x15
    clear_value x15
    exact handleTaken_frame (Frame.mk' h12)
  · exact onOnu_frame k1
  · extract_lets +onlyGivenNames -merge -useContext x16
    clear_value x16
    extract_lets +onlyGivenNames -merge -useContext x17
    clear_value x17
    extract_lets +onlyGivenNames -merge -useContext x18
    have h18 : Frame s x18 := dropCredit_frame k1
    clear_value x18
    extract_lets +onlyGivenNames -merge -useContext x19
    clear_value x19
    exact Frame.mk' h18
  · extract_lets +onlyGivenNames -merge -useContext x20
    have h20 : Frame s x20 := onMap_frame k1
    clear_value x20
    exact onMap_frame h20
  · extract_lets +onlyGivenNames -merge -useContext x21
    clear_value x21
    exact onMap_frame k1
  · extract_lets +onlyGivenNames -merge -useContext x22
    have h22 : Frame s x22 := onDsCh_frame k1
    clear_value x22
    refine Frame.foldl (fun u23 _ k23 => ?_) ?_
    · extract_lets +onlyGivenNames -merge -useContext x24
      clear_value x24
      exact Frame.mk' k23
    exact h22
  · exact Frame.mk' k1
  · exact Frame.mk' k1
  · extract_lets +onlyGivenNames -merge -useContext x25
    clear_value x25
    extract_lets +onlyGivenNames -merge -useContext x26
    have h26 : Frame s x26 := onGrp_frame k1
    clear_value x26
    refine Frame.ite ?_ ?_
    · exact h26
    exact toSync_frame h26
  · exact onGrp_frame k1
  · exact protLog_frame (onGrp_frame k1)

theorem mirrorOne_frame {s u1 : State} {a0} (k1 : Frame s u1) : Frame s (mirrorOne a0 u1) := by
  unfold mirrorOne
  extract_lets +onlyGivenNames -merge -useContext x0
  clear_value x0
  refine Frame.ite ?_ ?_
  · exact k1
  refine Frame.ite ?_ ?_
  · exact toSync_frame (bump_frame k1)
  exact mirrorApply_frame k1

theorem mirrorReceive_frame {s u3 : State} {a0} {a1} {a2} (k3 : Frame s u3) : Frame s (mirrorReceive a0 a1 a2 u3) := by
  unfold mirrorReceive
  split
  · extract_lets +onlyGivenNames -merge -useContext _ x0
    have h0 : Frame s x0 := Frame.mk' (Frame.ofEq2 (by assumption) (ixrArrive_frame k3))
    clear_value x0
    extract_lets +onlyGivenNames -merge -useContext x1
    have h1 : Frame s x1 := by
      refine Frame.ite ?_ ?_
      · refine Frame.foldl (fun u2 _ k2 => ?_) ?_
        · exact toSync_frame k2
        exact bump_frame h0
      exact h0
    clear_value x1
    refine Frame.foldl (fun u3 _ k3 => ?_) ?_
    · exact mirrorOne_frame k3
    exact h1

theorem promoteKeys_frame {s u1 : State} {a0} (k1 : Frame s u1) : Frame s (promoteKeys a0 u1) := by
  unfold promoteKeys
  extract_lets +onlyGivenNames -merge -useContext x10
  clear_value x10
  extract_lets +onlyGivenNames -merge -useContext x11
  clear_value x11
  extract_lets +onlyGivenNames -merge -useContext x12
  clear_value x12
  extract_lets +onlyGivenNames -merge -useContext x13
  clear_value x13
  extract_lets +onlyGivenNames -merge -useContext x14
  clear_value x14
  extract_lets +onlyGivenNames -merge -useContext x15
  have h15 : Frame s x15 := Frame.mk' k1
  clear_value x15
  extract_lets +onlyGivenNames -merge -useContext x16
  clear_value x16
  extract_lets +onlyGivenNames -merge -useContext x17
  have h17 : Frame s x17 := by
    unfold x17
    refine Frame.foldl (fun u18 _ k18 => ?_) ?_
    · exact onKeyOnu_frame k18
    exact h15
  clear_value x17
  extract_lets +onlyGivenNames -merge -useContext x19
  have h19 : ∀ v b1, Frame s v → Frame s (x19 v b1) := by
    intro v b1 kv19
    unfold x19
    exact setKey_frame kv19
  clear_value x19
  extract_lets +onlyGivenNames -merge -useContext x20
  have h20 : Frame s x20 := by
    unfold x20
    refine Frame.foldl (fun u21 _ k21 => ?_) ?_
    · refine Frame.foldl (fun u22 _ k22 => ?_) ?_
      · exact h19 _ _ k22
      exact k21
    exact h17
  clear_value x20
  extract_lets +onlyGivenNames -merge -useContext x23
  have h23 : ∀ v b1, Frame s v → Frame s (x23 v b1) := by
    intro v b1 kv23
    unfold x23
    extract_lets +onlyGivenNames -merge -useContext x24
    clear_value x24
    refine Frame.ite ?_ ?_
    · exact bcastExhaust_frame kv23
    exact setBcast_frame kv23
  clear_value x23
  extract_lets +onlyGivenNames -merge -useContext x25
  have h25 : Frame s x25 := by
    unfold x25
    refine Frame.foldl (fun u26 _ k26 => ?_) ?_
    · exact h23 _ _ k26
    exact h20
  clear_value x25
  refine Frame.foldl (fun u27 _ k27 => ?_) ?_
  · refine Frame.ite ?_ ?_
    · exact k27
    exact dueExchange_frame (onKeyOnu_frame k27)
  exact h25

theorem promote_frame {s u1 : State} {a0} (k1 : Frame s u1) : Frame s (promote a0 u1) := by
  unfold promote
  extract_lets +onlyGivenNames -merge -useContext x10
  clear_value x10
  extract_lets +onlyGivenNames -merge -useContext x11
  have h11 : Frame s x11 := onGrp_frame k1
  clear_value x11
  extract_lets +onlyGivenNames -merge -useContext x12
  have h12 : Frame s x12 := by
    unfold x12
    refine Frame.foldl (fun u13 _ k13 => ?_) ?_
    · extract_lets +onlyGivenNames -merge -useContext x14
      clear_value x14
      refine Frame.ite ?_ ?_
      · exact Frame.mk' k13
      exact k13
    exact h11
  clear_value x12
  extract_lets +onlyGivenNames -merge -useContext x15
  have h15 : Frame s x15 := promoteKeys_frame h12
  clear_value x15
  extract_lets +onlyGivenNames -merge -useContext x16
  have h16 : Frame s x16 := by
    unfold x16
    refine Frame.foldl (fun u17 _ k17 => ?_) ?_
    · refine Frame.ite ?_ ?_
      · exact k17
      extract_lets +onlyGivenNames -merge -useContext x18
      have h18 : Frame s x18 := bump_frame (onMap_frame k17)
      clear_value x18
      exact ledGrantsRead_frame (replayPage_frame h18)
    exact h15
  clear_value x16
  extract_lets +onlyGivenNames -merge -useContext x19
  have h19 : Frame s x19 := by
    unfold x19
    refine Frame.foldl (fun u20 _ k20 => ?_) ?_
    · exact onAlloc_frame (dropCredit_frame k20)
    exact h16
  clear_value x19
  extract_lets +onlyGivenNames -merge -useContext x21
  have h21 : Frame s x21 := onCore_frame h19
  clear_value x21
  exact event_frame (bump_frame (protLog_frame h21))

theorem roundOne_frame {s u1 : State} {a0} (k1 : Frame s u1) : Frame s (roundOne a0 u1) := by
  unfold roundOne
  extract_lets +onlyGivenNames -merge -useContext x0
  clear_value x0
  extract_lets +onlyGivenNames -merge -useContext x1
  clear_value x1
  extract_lets +onlyGivenNames -merge -useContext x2
  have h2 : Frame s x2 := onGrp_frame k1
  clear_value x2
  refine Frame.ite ?_ ?_
  · exact h2
  refine Frame.ite ?_ ?_
  · extract_lets +onlyGivenNames -merge -useContext x3
    have h3 : Frame s x3 := bump_frame (onGrp_frame h2)
    clear_value x3
    refine Frame.ite ?_ ?_
    · refine Frame.foldl (fun u4 _ k4 => ?_) ?_
      · refine Frame.ite ?_ ?_
        · exact sbSend_frame k4
        exact k4
      exact onGrp_frame h3
    exact h3
  extract_lets +onlyGivenNames -merge -useContext x5
  have h5 : Frame s x5 := bump_frame (onGrp_frame h2)
  clear_value x5
  split
  · exact onGrp_frame h5
  · exact dropHold_frame h5
  · exact dropHold_frame h5
  · exact h5

theorem roundEnd_frame {s u1 : State} {a0} (k1 : Frame s u1) : Frame s (roundEnd a0 u1) := by
  unfold roundEnd
  extract_lets +onlyGivenNames -merge -useContext x0
  clear_value x0
  extract_lets +onlyGivenNames -merge -useContext _ x1
  have h1 : Frame s x1 := by
    refine Frame.ite ?_ ?_
    · refine Frame.foldl (fun u2 _ k2 => ?_) ?_
      · exact bump_frame k2
      exact k1
    refine Frame.foldl (fun u3 _ k3 => ?_) ?_
    · exact roundOne_frame k3
    exact Frame.mk' k1
  clear_value x1
  refine Frame.ite ?_ ?_
  · refine Frame.foldl (fun u4 _ k4 => ?_) ?_
    · refine Frame.ite ?_ ?_
      · exact raiseClaim_frame k4
      exact k4
    exact h1
  exact h1

theorem auditAll_frame {s u0 : State} (k0 : Frame s u0) : Frame s (auditAll u0) := by
  unfold auditAll
  refine Frame.foldl (fun u2 _ k2 => ?_) ?_
  · refine Frame.ite ?_ ?_
    · exact auditStart_frame k2
    exact k2
  exact k0

theorem execAuditInterval_frame {s u0 : State} (k0 : Frame s u0) : Ran (Frame s) (execAuditInterval u0) := by
  unfold execAuditInterval
  refine island_ran (Frame.closed _) ?_ fun u0 k0 => ?_
  · exact k0
  refine Frame.ite ?_ ?_
  · exact k0
  exact auditAll_frame (Frame.mk' k0)

theorem execAuditReceive_frame {s u8 : State} {a0} {a1} {a2} {a3} {a4} {a5} {a6} {a7} (k8 : Frame s u8) : Ran (Frame s) (execAuditReceive a0 a1 a2 a3 a4 a5 a6 a7 u8) := by
  unfold execAuditReceive
  refine island_ran (Frame.closed _) ?_ fun u0 k0 => ?_
  · exact k8
  refine auditReceive_frame ?_
  refine Frame.ite ?_ ?_
  · exact onGrp_frame k0
  exact k0

theorem execChannelSpare_frame {s u2 : State} {a0} {a1} (k2 : Frame s u2) : Ran (Frame s) (execChannelSpare a0 a1 u2) := by
  unfold execChannelSpare
  refine kilak_ran (Frame.closed _) ?_ fun u0 k0 => ?_
  · exact k2
  refine Frame.ite1 ?_ ?_
  · exact deny_frame k0
  split
  · refine Frame.ite1 ?_ ?_
    · exact deny_frame k0
    exact done_frame (spareChannel_frame k0)
  · exact deny_frame k0

theorem execClaimBusFault_frame {s u1 : State} {a0} (k1 : Frame s u1) : Ran (Frame s) (execClaimBusFault a0 u1) := by
  unfold execClaimBusFault
  refine island_ran (Frame.closed _) ?_ fun u0 k0 => ?_
  · exact k1
  refine Frame.ite ?_ ?_
  · exact k0
  exact raiseFault_frame (bump_frame (Frame.mk' k0))

theorem execClaimBusFaultClear_frame {s u0 : State} (k0 : Frame s u0) : Ran (Frame s) (execClaimBusFaultClear u0) := by
  unfold execClaimBusFaultClear
  refine island_ran (Frame.closed _) ?_ fun u0 k0 => ?_
  · exact k0
  exact Frame.mk' k0

theorem execClaimRoundEnd_frame {s u1 : State} {a0} (k1 : Frame s u1) : Ran (Frame s) (execClaimRoundEnd a0 u1) := by
  unfold execClaimRoundEnd
  refine island_ran (Frame.closed _) ?_ fun u0 k0 => ?_
  · exact k1
  exact roundEnd_frame k0

theorem execDrillWatchEnd_frame {s u1 : State} {a0} (k1 : Frame s u1) : Ran (Frame s) (execDrillWatchEnd a0 u1) := by
  unfold execDrillWatchEnd
  refine island_ran (Frame.closed _) ?_ fun u0 k0 => ?_
  · exact k1
  refine Frame.ite ?_ ?_
  · exact onGrp_frame k0
  exact k0

theorem execHeartbeatReceive_frame {s u1 : State} {a0} (k1 : Frame s u1) : Ran (Frame s) (execHeartbeatReceive a0 u1) := by
  unfold execHeartbeatReceive
  refine island_ran (Frame.closed _) ?_ fun u0 k0 => ?_
  · exact k1
  exact hbReceive_frame k0

theorem execIxrardoBadType_frame {s u3 : State} {a0} {a1} {a2} (k3 : Frame s u3) : Ran (Frame s) (execIxrardoBadType a0 a1 a2 u3) := by
  unfold execIxrardoBadType
  refine island_ran (Frame.closed _) ?_ fun u0 k0 => ?_
  · exact k3
  refine Frame.ite ?_ ?_
  · exact k0
  exact bump_frame k0

theorem execIxrardoLinkChange_frame {s u2 : State} {a0} {a1} (k2 : Frame s u2) : Ran (Frame s) (execIxrardoLinkChange a0 a1 u2) := by
  unfold execIxrardoLinkChange
  refine island_ran (Frame.closed _) ?_ fun u10 k10 => ?_
  · exact k2
  refine Frame.ite ?_ ?_
  · exact k10
  exact ixrLink_frame k10

theorem execMirrorReceive_frame {s u3 : State} {a0} {a1} {a2} (k3 : Frame s u3) : Ran (Frame s) (execMirrorReceive a0 a1 a2 u3) := by
  unfold execMirrorReceive
  refine island_ran (Frame.closed _) ?_ fun u0 k0 => ?_
  · exact k3
  exact mirrorReceive_frame k0

theorem execPromotion_frame {s u1 : State} {a0} (k1 : Frame s u1) : Ran (Frame s) (execPromotion a0 u1) := by
  unfold execPromotion
  refine island_ran (Frame.closed _) ?_ fun u0 k0 => ?_
  · exact k1
  extract_lets +onlyGivenNames -merge -useContext x1
  clear_value x1
  refine Frame.ite ?_ ?_
  · exact promote_frame k0
  exact k0

theorem execProtActivate_frame {s u2 : State} {a0} {a1} (k2 : Frame s u2) : Ran (Frame s) (execProtActivate a0 a1 u2) := by
  unfold execProtActivate
  refine kilak_ran (Frame.closed _) ?_ fun u0 k0 => ?_
  · exact k2
  extract_lets +onlyGivenNames -merge -useContext x1
  clear_value x1
  refine Frame.ite1 ?_ ?_
  · exact deny_frame k0
  refine Frame.ite1 ?_ ?_
  · exact deny_frame k0
  refine Frame.ite1 ?_ ?_
  · exact done_frame (startClaim_frame k0)
  exact done_frame k0

theorem execProtAuditNow_frame {s u2 : State} {a0} {a1} (k2 : Frame s u2) : Ran (Frame s) (execProtAuditNow a0 a1 u2) := by
  unfold execProtAuditNow
  refine kilak_ran (Frame.closed _) ?_ fun u0 k0 => ?_
  · exact k2
  extract_lets +onlyGivenNames -merge -useContext x1
  clear_value x1
  refine Frame.ite1 ?_ ?_
  · exact deny_frame k0
  refine Frame.ite1 ?_ ?_
  · exact deny_frame k0
  refine Frame.ite1 ?_ ?_
  · exact deny_frame k0
  exact waits_frame (auditStart_frame k0)

theorem execProtDisable_frame {s u2 : State} {a0} {a1} (k2 : Frame s u2) : Ran (Frame s) (execProtDisable a0 a1 u2) := by
  unfold execProtDisable
  refine kilak_ran (Frame.closed _) ?_ fun u0 k0 => ?_
  · exact k2
  extract_lets +onlyGivenNames -merge -useContext x1
  clear_value x1
  refine Frame.ite1 ?_ ?_
  · exact deny_frame k0
  refine Frame.ite1 ?_ ?_
  · exact deny_frame k0
  exact done_frame (setParam_frame (onGrp_frame k0))

theorem execProtEnable_frame {s u2 : State} {a0} {a1} (k2 : Frame s u2) : Ran (Frame s) (execProtEnable a0 a1 u2) := by
  unfold execProtEnable
  refine kilak_ran (Frame.closed _) ?_ fun u10 k10 => ?_
  · exact k2
  refine Frame.ite1 ?_ ?_
  · exact deny_frame k10
  refine Frame.ite1 ?_ ?_
  · exact deny_frame k10
  refine Frame.ite1 ?_ ?_
  · exact deny_frame k10
  refine Frame.ite1 ?_ ?_
  · exact done_frame k10
  exact done_frame (listen_frame (darken_frame (setParam_frame (onGrp_frame k10))))

theorem execProtSettleEnd_frame {s u1 : State} {a0} (k1 : Frame s u1) : Ran (Frame s) (execProtSettleEnd a0 u1) := by
  unfold execProtSettleEnd
  refine island_ran (Frame.closed _) ?_ fun u0 k0 => ?_
  · exact k1
  refine Frame.ite ?_ ?_
  · exact onGrp_frame k0
  exact k0

theorem execProtStatus_frame {s u2 : State} {a0} {a1} (k2 : Frame s u2) : Ran (Frame s) (execProtStatus a0 a1 u2) := by
  unfold execProtStatus
  refine kilak_ran (Frame.closed _) ?_ fun u0 k0 => ?_
  · exact k2
  refine Frame.ite1 ?_ ?_
  · exact deny_frame k0
  exact doneWith_frame k0

theorem execProtSwitch_frame {s u2 : State} {a0} {a1} (k2 : Frame s u2) : Ran (Frame s) (execProtSwitch a0 a1 u2) := by
  unfold execProtSwitch
  refine kilak_ran (Frame.closed _) ?_ fun u0 k0 => ?_
  · exact k2
  extract_lets +onlyGivenNames -merge -useContext x1
  clear_value x1
  refine Frame.ite1 ?_ ?_
  · exact deny_frame k0
  refine Frame.ite1 ?_ ?_
  · exact deny_frame k0
  refine Frame.ite1 ?_ ?_
  · exact deny_frame k0
  refine done_frame ?_
  refine Frame.foldl (fun u2 _ k2 => ?_) ?_
  · exact releaseGroup_frame k2
  exact k0

theorem execSpareSet_frame {s u3 : State} {a0} {a1} {a2} (k3 : Frame s u3) : Ran (Frame s) (execSpareSet a0 a1 a2 u3) := by
  unfold execSpareSet
  refine kilak_ran (Frame.closed _) ?_ fun u10 k10 => ?_
  · exact k3
  refine Frame.ite1 ?_ ?_
  · exact deny_frame k10
  refine Frame.ite1 ?_ ?_
  · exact deny_frame k10
  extract_lets +onlyGivenNames -merge -useContext x11
  clear_value x11
  extract_lets +onlyGivenNames -merge -useContext x12
  have h12 : Frame s x12 := by
    unfold x12
    refine Frame.ite ?_ ?_
    · exact lanesTo_frame k10
    exact k10
  clear_value x12
  extract_lets +onlyGivenNames -merge -useContext x13
  have h13 : Frame s x13 := setParam_frame h12
  clear_value x13
  refine Frame.ite1 ?_ ?_
  · exact done_frame h13
  extract_lets +onlyGivenNames -merge -useContext x14
  clear_value x14
  extract_lets +onlyGivenNames -merge -useContext x15
  have h15 : Frame s x15 := by
    unfold x15
    split
    · exact ladderFail_frame h13
    · exact h13
  clear_value x15
  exact done_frame (lanesTo_frame h15)

theorem execStackStatus_frame {s u1 : State} {a0} (k1 : Frame s u1) : Ran (Frame s) (execStackStatus a0 u1) := by
  unfold execStackStatus
  refine kilak_ran (Frame.closed _) ?_ fun u0 k0 => ?_
  · exact k1
  extract_lets +onlyGivenNames -merge -useContext x1
  clear_value x1
  exact doneWith_frame k0

theorem execUplinkBlockLock_frame {s u3 : State} {a0} {a1} {a2} (k3 : Frame s u3) : Ran (Frame s) (execUplinkBlockLock a0 a1 a2 u3) := by
  unfold execUplinkBlockLock
  refine island_ran (Frame.closed _) ?_ fun u10 k10 => ?_
  · exact k3
  extract_lets +onlyGivenNames -merge -useContext x11
  have h11 : Frame s x11 := blockLock_frame k10
  clear_value x11
  refine Frame.ite ?_ ?_
  · exact ixrLink_frame h11
  exact h11

end Sys2Proof.Machine
end

