-- ==== Sys2Proof/Laws/FrameTodBase.lean ====
section
/-! SUPPORT. What each operation of Machine/TodBase.lean leaves alone. -/

namespace Sys2Proof.Machine

theorem todMoved_frame {s u1 : State} {a0} (k1 : Frame s u1) : Frame s (todMoved a0 u1) := by
  unfold todMoved
  split
  · refine Frame.ite ?_ ?_
    · exact todUpdate_frame k1
    exact k1
  · exact k1

end Sys2Proof.Machine
end

