-- ==== Sys2Proof/Laws/FrameTime.lean ====
section
/-! SUPPORT. What each operation of Machine/Time.lean leaves alone. -/

namespace Sys2Proof.Machine

theorem timeLost_frame {s u1 : State} {a0} (k1 : Frame s u1) : Frame s (timeLost a0 u1) := by
  unfold timeLost
  exact onDom_frame k1

theorem timeSource_frame {s u5 : State} {a0} {a1} {a2} {a3} {a4} (k5 : Frame s u5) : Frame s (timeSource a0 a1 a2 a3 a4 u5) := by
  unfold timeSource
  exact onDom_frame k5

theorem bmca_frame {s u0 : State} (k0 : Frame s u0) : Frame s (bmca u0) := by
  unfold bmca
  extract_lets +onlyGivenNames -merge -useContext x0
  clear_value x0
  extract_lets +onlyGivenNames -merge -useContext x1
  clear_value x1
  extract_lets +onlyGivenNames -merge -useContext x2
  clear_value x2
  extract_lets +onlyGivenNames -merge -useContext _ x3
  have h3 : Frame s x3 := Frame.mk' k0
  clear_value x3
  refine Frame.foldl (fun u4 _ k4 => ?_) ?_
  · refine Frame.ite ?_ ?_
    · exact k4
    extract_lets +onlyGivenNames -merge -useContext x5
    clear_value x5
    extract_lets +onlyGivenNames -merge -useContext x6
    have h6 : Frame s x6 := onDom_frame k4
    clear_value x6
    extract_lets +onlyGivenNames -merge -useContext x7
    have h7 : Frame s x7 := by
      unfold x7
      split
      · exact timeSource_frame h6
      · exact h6
    clear_value x7
    refine Frame.ite ?_ ?_
    · exact timeLost_frame h7
    exact h7
  exact h3

theorem announceTimeout_frame {s u1 : State} {a0} (k1 : Frame s u1) : Frame s (announceTimeout a0 u1) := by
  unfold announceTimeout
  split
  · exact k1
  · refine Frame.ite ?_ ?_
    · exact k1
    extract_lets +onlyGivenNames -merge -useContext x10
    have h10 : Frame s x10 := by
      unfold x10
      refine Frame.foldl (fun u11 _ k11 => ?_) ?_
      · exact timeLost_frame k11
      exact k1
    clear_value x10
    exact bmca_frame (Frame.mk' h10)

theorem asymSet_frame {s u2 : State} {a0} {a1} (k2 : Frame s u2) : Frame s (asymSet a0 a1 u2).1 := by
  unfold asymSet
  extract_lets +onlyGivenNames -merge -useContext x0
  clear_value x0
  refine Frame.ite1 ?_ ?_
  · exact deny_frame k2
  refine Frame.ite1 ?_ ?_
  · exact deny_frame k2
  extract_lets +onlyGivenNames -merge -useContext x1
  have h1 : Frame s x1 := by
    refine Frame.foldl (fun u2 _ k2 => ?_) ?_
    · exact setParam_frame k2
    exact k2
  clear_value x1
  extract_lets +onlyGivenNames -merge -useContext x3
  clear_value x3
  refine Frame.ite1 ?_ ?_
  · exact deny_frame k2
  extract_lets +onlyGivenNames -merge -useContext x4
  have h4 : Frame s x4 := by
    refine Frame.foldl (fun u5 _ k5 => ?_) ?_
    · exact setParam_frame k5
    exact h1
  clear_value x4
  exact doneWith_frame h4

theorem dcoTo_frame {s u1 : State} {a0} (k1 : Frame s u1) : Frame s (dcoTo a0 u1) := by
  unfold dcoTo
  refine Frame.ite ?_ ?_
  · exact k1
  exact bump_frame (Frame.mk' k1)

theorem enterHoldover_frame {s u0 : State} (k0 : Frame s u0) : Frame s (enterHoldover u0) := by
  unfold enterHoldover
  extract_lets +onlyGivenNames -merge -useContext x0
  clear_value x0
  extract_lets +onlyGivenNames -merge -useContext x1
  clear_value x1
  refine bump_frame ?_
  extract_lets +onlyGivenNames -merge -useContext x2
  have h2 : Frame s x2 := State.drawn_frame k0
  clear_value x2
  exact Frame.mk' h2

theorem bothRefsLost_frame {s u0 : State} (k0 : Frame s u0) : Frame s (bothRefsLost u0) := by
  unfold bothRefsLost
  extract_lets +onlyGivenNames -merge -useContext x0
  have h0 : Frame s x0 := raiseFault_frame (dcoTo_frame k0)
  clear_value x0
  extract_lets +onlyGivenNames -merge -useContext _ x1
  have h1 : Frame s x1 := Frame.mk' h0
  clear_value x1
  refine Frame.ite ?_ ?_
  · exact enterHoldover_frame h1
  exact h1

theorem dcoUpdate_frame {s u0 : State} (k0 : Frame s u0) : Frame s (dcoUpdate u0) := by
  unfold dcoUpdate
  split
  · extract_lets +onlyGivenNames -merge -useContext x0
    clear_value x0
    extract_lets +onlyGivenNames -merge -useContext x1
    clear_value x1
    extract_lets +onlyGivenNames -merge -useContext x2
    clear_value x2
    extract_lets +onlyGivenNames -merge -useContext x3
    clear_value x3
    extract_lets +onlyGivenNames -merge -useContext x4
    clear_value x4
    extract_lets +onlyGivenNames -merge -useContext x5
    clear_value x5
    exact Frame.mk' k0
  · exact k0

theorem endSets_frame {s u2 : State} {a0} {a1} (k2 : Frame s u2) : Frame s (endSets a0 a1 u2) := by
  unfold endSets
  refine Frame.foldl (fun u0 _ k0 => ?_) ?_
  · exact complete_frame k0
  exact k2

theorem timeSample_frame {s u2 : State} {a0} {a1} (k2 : Frame s u2) : Frame s (timeSample a0 a1 u2) := by
  unfold timeSample
  extract_lets +onlyGivenNames -merge -useContext x0
  clear_value x0
  extract_lets +onlyGivenNames -merge -useContext x1
  clear_value x1
  extract_lets +onlyGivenNames -merge -useContext x2
  clear_value x2
  extract_lets +onlyGivenNames -merge -useContext x3
  clear_value x3
  extract_lets +onlyGivenNames -merge -useContext x4
  clear_value x4
  extract_lets +onlyGivenNames -merge -useContext x5
  clear_value x5
  extract_lets +onlyGivenNames -merge -useContext x6
  clear_value x6
  extract_lets +onlyGivenNames -merge -useContext x7
  clear_value x7
  extract_lets +onlyGivenNames -merge -useContext x8
  clear_value x8
  exact Frame.mk' k2

theorem onIxrPeer_frame {s u2 : State} {a0} {a1} (k2 : Frame s u2) : Frame s (onIxrPeer a0 a1 u2) := by
  unfold onIxrPeer
  exact Frame.mk' k2

theorem ixrResp_frame {s u2 : State} {a0} {a1} (k2 : Frame s u2) : Frame s (ixrResp a0 a1 u2) := by
  unfold ixrResp
  split
  · exact bump_frame k2
  · extract_lets +onlyGivenNames -merge -useContext x0
    clear_value x0
    extract_lets +onlyGivenNames -merge -useContext x1
    have h1 : Frame s x1 := onIxrPeer_frame k2
    clear_value x1
    refine Frame.foldl (fun u2 _ k2 => ?_) ?_
    · exact timeSample_frame (timeSource_frame k2)
    exact h1

theorem ixrSync_frame {s u1 : State} {a0} (k1 : Frame s u1) : Frame s (ixrSync a0 u1) := by
  unfold ixrSync
  split
  · exact k1
  · refine Frame.ite ?_ ?_
    · exact k1
    split
    · extract_lets +onlyGivenNames -merge -useContext x0
      clear_value x0
      extract_lets +onlyGivenNames -merge -useContext x1
      clear_value x1
      extract_lets +onlyGivenNames -merge -useContext x2
      have h2 : Frame s x2 := State.drawn_frame (Frame.ofEq2 (by assumption) (ixrSeq_frame k1))
      clear_value x2
      exact onIxrPeer_frame (Frame.mk' h2)

theorem ixrTime_frame {s u1 : State} {a0} (k1 : Frame s u1) : Frame s (ixrTime a0 u1) := by
  unfold ixrTime
  split
  · exact k1
  · refine Frame.ite ?_ ?_
    · exact k1
    extract_lets +onlyGivenNames -merge -useContext x0
    have h0 : Frame s x0 := by
      unfold x0
      exact ixrArrive_frame k1
    clear_value x0
    extract_lets +onlyGivenNames -merge -useContext x1
    have h1 : Frame s x1 := onIxrPeer_frame h0
    clear_value x1
    refine Frame.ite ?_ ?_
    · split
      · extract_lets +onlyGivenNames -merge -useContext x2
        clear_value x2
        extract_lets +onlyGivenNames -merge -useContext x3
        have h3 : Frame s x3 := State.drawn_frame (Frame.ofEq2 (by assumption) (ixrSeq_frame h1))
        clear_value x3
        exact Frame.mk' h3
    refine Frame.ite ?_ ?_
    · exact ixrResp_frame h1
    exact h1

theorem ixrTimeout_frame {s u2 : State} {a0} {a1} (k2 : Frame s u2) : Frame s (ixrTimeout a0 a1 u2) := by
  unfold ixrTimeout
  split
  · exact k2
  · split
    · exact k2
    · exact bump_frame (onIxrPeer_frame k2)

theorem ppsEdge_frame {s u2 : State} {a0} {a1} (k2 : Frame s u2) : Frame s (ppsEdge a0 a1 u2) := by
  unfold ppsEdge
  extract_lets +onlyGivenNames -merge -useContext x0
  clear_value x0
  exact Frame.mk' k2

theorem ppsOutEdge_frame {s u1 : State} {a0} (k1 : Frame s u1) : Frame s (ppsOutEdge a0 u1) := by
  unfold ppsOutEdge
  refine Frame.ite ?_ ?_
  · exact k1
  extract_lets +onlyGivenNames -merge -useContext x10
  clear_value x10
  extract_lets +onlyGivenNames -merge -useContext x11
  clear_value x11
  extract_lets +onlyGivenNames -merge -useContext x12
  clear_value x12
  extract_lets +onlyGivenNames -merge -useContext x13
  have h13 : Frame s x13 := State.drawn_frame k1
  clear_value x13
  exact Frame.mk' h13

theorem ptpExchange_frame {s u1 : State} {a0} (k1 : Frame s u1) : Frame s (ptpExchange a0 u1) := by
  unfold ptpExchange
  refine Frame.ite ?_ ?_
  · exact k1
  extract_lets +onlyGivenNames -merge -useContext x10
  clear_value x10
  extract_lets +onlyGivenNames -merge -useContext x11
  clear_value x11
  extract_lets +onlyGivenNames -merge -useContext x12
  clear_value x12
  extract_lets +onlyGivenNames -merge -useContext x13
  have h13 : Frame s x13 := Frame.mk' k1
  clear_value x13
  refine Frame.foldl (fun u14 _ k14 => ?_) ?_
  · exact timeSample_frame k14
  exact h13

theorem ptpOut_frame {s u2 : State} {a0} {a1} (k2 : Frame s u2) : Frame s (ptpOut a0 a1 u2) := by
  unfold ptpOut
  split
  · exact bump_frame (Frame.ofEq2 (by assumption) (allocCells_frame k2))
  · exact freeCells_frame (bump_frame (Frame.mk' (Frame.ofEq2 (by assumption) (allocCells_frame k2))))

theorem ptpReceive_frame {s u1 : State} {a0} (k1 : Frame s u1) : Frame s (ptpReceive a0 u1) := by
  unfold ptpReceive
  split
  · exact k1
  · refine Frame.ite ?_ ?_
    · exact k1
    refine Frame.ite ?_ ?_
    · exact bump_frame k1
    extract_lets +onlyGivenNames -merge -useContext x10
    have h10 : Frame s x10 := bump_frame k1
    clear_value x10
    refine Frame.ite ?_ ?_
    · exact ptpExchange_frame h10
    refine Frame.ite ?_ ?_
    · extract_lets +onlyGivenNames -merge -useContext x11
      clear_value x11
      exact bmca_frame (Frame.mk' h10)
    refine Frame.ite ?_ ?_
    · exact ptpOut_frame h10
    exact h10

theorem ptpSend_frame {s u2 : State} {a0} {a1} (k2 : Frame s u2) : Frame s (ptpSend a0 a1 u2) := by
  unfold ptpSend
  split
  · exact k2
  · extract_lets +onlyGivenNames -merge -useContext x10
    clear_value x10
    refine Frame.ite ?_ ?_
    · exact k2
    refine Frame.ite ?_ ?_
    · exact ptpOut_frame (ptpOut_frame k2)
    exact ptpOut_frame k2

theorem refLoss_frame {s u1 : State} {a0} (k1 : Frame s u1) : Frame s (refLoss a0 u1) := by
  unfold refLoss
  extract_lets +onlyGivenNames -merge -useContext x0
  clear_value x0
  refine Frame.ite ?_ ?_
  · exact k1
  extract_lets +onlyGivenNames -merge -useContext x1
  clear_value x1
  extract_lets +onlyGivenNames -merge -useContext _ _ x2
  clear_value x2
  extract_lets +onlyGivenNames -merge -useContext x3
  have h3 : Frame s x3 := Frame.mk' k1
  clear_value x3
  refine Frame.ite ?_ ?_
  · exact bothRefsLost_frame h3
  refine Frame.ite ?_ ?_
  · exact dcoTo_frame h3
  exact h3

theorem refsBack_frame {s u0 : State} (k0 : Frame s u0) : Frame s (refsBack u0) := by
  unfold refsBack
  extract_lets +onlyGivenNames -merge -useContext x0
  clear_value x0
  exact Frame.mk' k0

theorem refQualify_frame {s u : State} {b} (k : Frame s u) : Frame s (refQualify b u) := by
  unfold refQualify
  dsimp only
  exact Frame.ite (Frame.mk' k) (Frame.ite (dcoTo_frame (refsBack_frame (Frame.mk' k))) (Frame.mk' k))

theorem refReturn_frame {s u0 : State} (k0 : Frame s u0) : Frame s (refReturn u0) := by
  unfold refReturn
  extract_lets +onlyGivenNames -merge -useContext x0
  clear_value x0
  refine Frame.ite ?_ ?_
  · exact k0
  refine dcoTo_frame ?_
  refine Frame.ite ?_ ?_
  · exact refsBack_frame k0
  exact k0

theorem steerBy_frame {s u1 : State} {a0} (k1 : Frame s u1) : Frame s (steerBy a0 u1) := by
  unfold steerBy
  exact Frame.mk' k1

theorem todIn_frame {s u1 : State} {a0} (k1 : Frame s u1) : Frame s (todIn a0 u1) := by
  unfold todIn
  extract_lets +onlyGivenNames -merge -useContext x0
  clear_value x0
  extract_lets +onlyGivenNames -merge -useContext _ _ x1
  have h1 : Frame s x1 := Frame.mk' k1
  clear_value x1
  split
  · exact bump_frame h1
  · refine Frame.ite ?_ ?_
    · exact bump_frame h1
    refine Frame.ite ?_ ?_
    · exact h1
    extract_lets +onlyGivenNames -merge -useContext x2
    clear_value x2
    refine Frame.foldl (fun u3 _ k3 => ?_) ?_
    · extract_lets +onlyGivenNames -merge -useContext x4
      clear_value x4
      exact timeSample_frame (timeSource_frame k3)
    exact h1

theorem todOut_frame {s u0 : State} (k0 : Frame s u0) : Frame s (todOut u0) := by
  unfold todOut
  extract_lets +onlyGivenNames -merge -useContext x0
  clear_value x0
  refine Frame.ite ?_ ?_
  · exact k0
  extract_lets +onlyGivenNames -merge -useContext x1
  clear_value x1
  exact Frame.mk' k0

theorem todPairRead_frame {s u2 : State} {a0} {a1} (k2 : Frame s u2) : Frame s (todPairRead a0 a1 u2).1 := by
  unfold todPairRead
  split
  · exact deny_frame k2
  · refine Frame.ite1 ?_ ?_
    · exact deny_frame k2
    extract_lets +onlyGivenNames -merge -useContext x0
    clear_value x0
    exact doneWith_frame (Frame.mk' k2)

theorem wtrExpiry_frame {s u0 : State} (k0 : Frame s u0) : Frame s (wtrExpiry u0) := by
  unfold wtrExpiry
  extract_lets +onlyGivenNames -merge -useContext x0
  clear_value x0
  extract_lets +onlyGivenNames -merge -useContext x1
  clear_value x1
  split
  · refine Frame.ite ?_ ?_
    · exact bump_frame (steerBy_frame k0)
    exact k0
  · exact k0

theorem timeCmd_ran {R : State → Prop} (c : Closed R) {q op body} {u : State} (h : R u)
    (hb : ∀ u, R u → R (body u).1) : Ran R (timeCmd q op body u) := Ran.guardBlks (kilak_ran c h hb)

theorem execAnnounceReceiptTimeout_frame {s u1 : State} {a0} (k1 : Frame s u1) : Ran (Frame s) (execAnnounceReceiptTimeout a0 u1) := by
  unfold execAnnounceReceiptTimeout
  refine Ran.guardBlks ?_
  refine island_ran (Frame.closed _) ?_ fun u0 k0 => ?_
  · exact k1
  exact announceTimeout_frame k0

theorem execAsymSet_frame {s u3 : State} {a0} {a1} {a2} (k3 : Frame s u3) : Ran (Frame s) (execAsymSet a0 a1 a2 u3) := by
  unfold execAsymSet
  refine timeCmd_ran (Frame.closed _) ?_ fun u0 k0 => ?_
  · exact k3
  exact asymSet_frame k0

theorem execIxrRespTimeout_frame {s u2 : State} {a0} {a1} (k2 : Frame s u2) : Ran (Frame s) (execIxrRespTimeout a0 a1 u2) := by
  unfold execIxrRespTimeout
  refine Ran.guardBlks ?_
  refine island_ran (Frame.closed _) ?_ fun u0 k0 => ?_
  · exact k2
  exact ixrTimeout_frame k0

theorem execIxrSyncSend_frame {s u1 : State} {a0} (k1 : Frame s u1) : Ran (Frame s) (execIxrSyncSend a0 u1) := by
  unfold execIxrSyncSend
  refine Ran.guardBlks ?_
  refine island_ran (Frame.closed _) ?_ fun u0 k0 => ?_
  · exact k1
  exact ixrSync_frame k0

theorem execIxrTimeReceive_frame {s u1 : State} {a0} (k1 : Frame s u1) : Ran (Frame s) (execIxrTimeReceive a0 u1) := by
  unfold execIxrTimeReceive
  refine Ran.guardBlks ?_
  refine island_ran (Frame.closed _) ?_ fun u0 k0 => ?_
  · exact k1
  exact ixrTime_frame k0

theorem execPpsInEdge_frame {s u2 : State} {a0} {a1} (k2 : Frame s u2) : Ran (Frame s) (execPpsInEdge a0 a1 u2) := by
  unfold execPpsInEdge
  refine island_ran (Frame.closed _) ?_ fun u0 k0 => ?_
  · exact k2
  refine Frame.ite ?_ ?_
  · exact k0
  exact ppsEdge_frame k0

theorem execPpsInMiss_frame {s u1 : State} {a0} (k1 : Frame s u1) : Ran (Frame s) (execPpsInMiss a0 u1) := by
  unfold execPpsInMiss
  refine island_ran (Frame.closed _) ?_ fun u0 k0 => ?_
  · exact k1
  refine Frame.ite ?_ ?_
  · exact k0
  exact bump_frame k0

theorem execPpsInSet_frame {s u3 : State} {a0} {a1} {a2} (k3 : Frame s u3) : Ran (Frame s) (execPpsInSet a0 a1 a2 u3) := by
  unfold execPpsInSet
  refine timeCmd_ran (Frame.closed _) ?_ fun u0 k0 => ?_
  · exact k3
  refine Frame.ite1 ?_ ?_
  · exact deny_frame k0
  refine Frame.ite1 ?_ ?_
  · exact deny_frame k0
  exact done_frame (setParam_frame k0)

theorem execPpsOutEdge_frame {s u1 : State} {a0} (k1 : Frame s u1) : Ran (Frame s) (execPpsOutEdge a0 u1) := by
  unfold execPpsOutEdge
  refine island_ran (Frame.closed _) ?_ fun u0 k0 => ?_
  · exact k1
  exact ppsOutEdge_frame k0

theorem execPtpClockStatus_frame {s u1 : State} {a0} (k1 : Frame s u1) : Ran (Frame s) (execPtpClockStatus a0 u1) := by
  unfold execPtpClockStatus
  refine timeCmd_ran (Frame.closed _) ?_ fun u0 k0 => ?_
  · exact k1
  extract_lets +onlyGivenNames -merge -useContext x1
  clear_value x1
  exact doneWith_frame k0

theorem execPtpMessageReceive_frame {s u1 : State} {a0} (k1 : Frame s u1) : Ran (Frame s) (execPtpMessageReceive a0 u1) := by
  unfold execPtpMessageReceive
  refine Ran.guardBlks ?_
  refine island_ran (Frame.closed _) ?_ fun u0 k0 => ?_
  · exact k1
  exact ptpReceive_frame k0

theorem execPtpMessageSend_frame {s u2 : State} {a0} {a1} (k2 : Frame s u2) : Ran (Frame s) (execPtpMessageSend a0 a1 u2) := by
  unfold execPtpMessageSend
  refine Ran.guardBlks ?_
  refine island_ran (Frame.closed _) ?_ fun u0 k0 => ?_
  · exact k2
  exact ptpSend_frame k0

theorem execPtpPortSet_frame {s u3 : State} {a0} {a1} {a2} (k3 : Frame s u3) : Ran (Frame s) (execPtpPortSet a0 a1 a2 u3) := by
  unfold execPtpPortSet
  refine timeCmd_ran (Frame.closed _) ?_ fun u0 k0 => ?_
  · exact k3
  extract_lets +onlyGivenNames -merge -useContext x1
  clear_value x1
  refine Frame.ite1 ?_ ?_
  · exact deny_frame k0
  refine Frame.ite1 ?_ ?_
  · exact deny_frame k0
  extract_lets +onlyGivenNames -merge -useContext x2
  have h2 : Frame s x2 := by
    refine Frame.foldl (fun u3 _ k3 => ?_) ?_
    · exact setParam_frame k3
    exact k0
  clear_value x2
  extract_lets +onlyGivenNames -merge -useContext x4
  clear_value x4
  exact done_frame (bmca_frame (Frame.mk' h2))

theorem execPtpPortStatus_frame {s u2 : State} {a0} {a1} (k2 : Frame s u2) : Ran (Frame s) (execPtpPortStatus a0 a1 u2) := by
  unfold execPtpPortStatus
  refine timeCmd_ran (Frame.closed _) ?_ fun u0 k0 => ?_
  · exact k2
  split
  · exact deny_frame k0
  · exact doneWith_frame k0

theorem execPulseOutSet_frame {s u3 : State} {a0} {a1} {a2} (k3 : Frame s u3) : Ran (Frame s) (execPulseOutSet a0 a1 a2 u3) := by
  unfold execPulseOutSet
  refine timeCmd_ran (Frame.closed _) ?_ fun u0 k0 => ?_
  · exact k3
  extract_lets +onlyGivenNames -merge -useContext x1
  clear_value x1
  refine Frame.ite1 ?_ ?_
  · exact deny_frame k0
  refine Frame.ite1 ?_ ?_
  · exact deny_frame k0
  extract_lets +onlyGivenNames -merge -useContext x2
  have h2 : Frame s x2 := by
    refine Frame.foldl (fun u3 _ k3 => ?_) ?_
    · exact setParam_frame k3
    exact k0
  clear_value x2
  exact done_frame (Frame.mk' h2)

theorem execRefclkBReturn_frame {s u0 : State} (k0 : Frame s u0) : Ran (Frame s) (execRefclkBReturn u0) := by
  unfold execRefclkBReturn
  refine island_ran (Frame.closed _) ?_ fun u0 k0 => ?_
  · exact k0
  exact refReturn_frame k0

theorem execRefclkLoss_frame {s u1 : State} {a0} (k1 : Frame s u1) : Ran (Frame s) (execRefclkLoss a0 u1) := by
  unfold execRefclkLoss
  refine island_ran (Frame.closed _) ?_ fun u0 k0 => ?_
  · exact k1
  exact refLoss_frame k0

theorem execRefclkQualify_frame {s u1 : State} {a0} (k1 : Frame s u1) : Ran (Frame s) (execRefclkQualify a0 u1) := by
  unfold execRefclkQualify
  refine island_ran (Frame.closed _) ?_ fun u0 k0 => ?_
  · exact k1
  exact refQualify_frame k0

theorem execTimeParamSet_frame {s u2 : State} {a0} {a1} (k2 : Frame s u2) : Ran (Frame s) (execTimeParamSet a0 a1 u2) := by
  unfold execTimeParamSet
  refine timeCmd_ran (Frame.closed _) ?_ fun u0 k0 => ?_
  · exact k2
  refine Frame.ite1 ?_ ?_
  · exact deny_frame k0
  refine Frame.ite1 ?_ ?_
  · exact deny_frame k0
  refine done_frame ?_
  refine Frame.foldl (fun u1 _ k1 => ?_) ?_
  · exact setParam_frame k1
  exact k0

theorem execTimeSet_frame {s u3 : State} {a0} {a1} {a2} (k3 : Frame s u3) : Ran (Frame s) (execTimeSet a0 a1 a2 u3) := by
  unfold execTimeSet
  refine timeCmd_ran (Frame.closed _) ?_ fun u0 k0 => ?_
  · exact k3
  refine Frame.ite1 ?_ ?_
  · exact deny_frame k0
  refine Frame.ite1 ?_ ?_
  · exact deny_frame k0
  exact waits_frame (Frame.mk' k0)

theorem execTimeSourceLoss_frame {s u1 : State} {a0} (k1 : Frame s u1) : Ran (Frame s) (execTimeSourceLoss a0 u1) := by
  unfold execTimeSourceLoss
  refine island_ran (Frame.closed _) ?_ fun u0 k0 => ?_
  · exact k1
  extract_lets +onlyGivenNames -merge -useContext x1
  clear_value x1
  refine Frame.ite ?_ ?_
  · exact k0
  exact timeLost_frame k0

theorem execTimeSourceSet_frame {s u5 : State} {a0} {a1} {a2} {a3} {a4} (k5 : Frame s u5) : Ran (Frame s) (execTimeSourceSet a0 a1 a2 a3 a4 u5) := by
  unfold execTimeSourceSet
  refine timeCmd_ran (Frame.closed _) ?_ fun u0 k0 => ?_
  · exact k5
  extract_lets +onlyGivenNames -merge -useContext x1
  clear_value x1
  extract_lets +onlyGivenNames -merge -useContext x2
  clear_value x2
  refine Frame.ite1 ?_ ?_
  · exact deny_frame k0
  refine Frame.ite1 ?_ ?_
  · exact deny_frame k0
  extract_lets +onlyGivenNames -merge -useContext x3
  clear_value x3
  extract_lets +onlyGivenNames -merge -useContext x4
  have h4 : Frame s x4 := setParam_frame (setParam_frame k0)
  clear_value x4
  extract_lets +onlyGivenNames -merge -useContext x5
  clear_value x5
  exact done_frame (onDom_frame h4)

theorem execTimeStatus_frame {s u1 : State} {a0} (k1 : Frame s u1) : Ran (Frame s) (execTimeStatus a0 u1) := by
  unfold execTimeStatus
  refine timeCmd_ran (Frame.closed _) ?_ fun u0 k0 => ?_
  · exact k1
  extract_lets +onlyGivenNames -merge -useContext x1
  clear_value x1
  exact doneWith_frame k0

theorem execTodInMessage_frame {s u1 : State} {a0} (k1 : Frame s u1) : Ran (Frame s) (execTodInMessage a0 u1) := by
  unfold execTodInMessage
  refine island_ran (Frame.closed _) ?_ fun u0 k0 => ?_
  · exact k1
  refine Frame.ite ?_ ?_
  · exact k0
  exact todIn_frame k0

theorem execTodOutMessage_frame {s u0 : State} (k0 : Frame s u0) : Ran (Frame s) (execTodOutMessage u0) := by
  unfold execTodOutMessage
  refine island_ran (Frame.closed _) ?_ fun u0 k0 => ?_
  · exact k0
  exact todOut_frame k0

theorem execTodPairRead_frame {s u3 : State} {a0} {a1} {a2} (k3 : Frame s u3) : Ran (Frame s) (execTodPairRead a0 a1 a2 u3) := by
  unfold execTodPairRead
  refine timeCmd_ran (Frame.closed _) ?_ fun u0 k0 => ?_
  · exact k3
  exact todPairRead_frame k0

theorem execWtrExpiry_frame {s u0 : State} (k0 : Frame s u0) : Ran (Frame s) (execWtrExpiry u0) := by
  unfold execWtrExpiry
  refine island_ran (Frame.closed _) ?_ fun u0 k0 => ?_
  · exact k0
  exact wtrExpiry_frame k0

end Sys2Proof.Machine
end

