-- ==== Sys2Proof/Laws/FrameAmp.lean ====
section
/-! SUPPORT. What each operation of Machine/Amp.lean leaves alone. -/

namespace Sys2Proof.Machine

theorem ampDeny_frame {s u1 : State} {a0} (k1 : Frame s u1) : Frame s (ampDeny a0 u1).1 := by
  unfold ampDeny
  exact Frame.mk1 k1

theorem ampEnd_frame {s u1 : State} {a0} (k1 : Frame s u1) : Frame s (ampEnd a0 u1) := by
  unfold ampEnd
  exact Frame.mk' k1

theorem onAmp_frame {s u1 : State} {a0} (k1 : Frame s u1) : Frame s (onAmp a0 u1) := by
  unfold onAmp
  exact Frame.mk' k1

theorem bindingNotice_frame {s u2 : State} {a0} {a1} (k2 : Frame s u2) : Frame s (bindingNotice a0 a1 u2) := by
  unfold bindingNotice
  exact onAmp_frame k2

theorem newRun_frame {s u1 : State} {a0} (k1 : Frame s u1) : Frame s (newRun a0 u1) := by
  unfold newRun
  exact Frame.mk' (State.drawn_frame k1)

theorem sealAbort_frame {s u0 : State} (k0 : Frame s u0) : Frame s (sealAbort u0) := by
  unfold sealAbort
  exact onAmp_frame k0

theorem pinChange_frame {s u1 : State} {a0} (k1 : Frame s u1) : Frame s (pinChange a0 u1) := by
  unfold pinChange
  extract_lets +onlyGivenNames -merge -useContext x0
  have h0 : Frame s x0 := onAmp_frame k1
  clear_value x0
  refine Frame.ite ?_ ?_
  · exact sealAbort_frame h0
  exact h0

theorem burnDone_frame {s u0 : State} (k0 : Frame s u0) : Frame s (burnDone u0) := by
  unfold burnDone
  split
  · exact k0
  · extract_lets +onlyGivenNames -merge -useContext x0
    have h0 : Frame s x0 := by
      unfold x0
      split
      · exact ampEnd_frame (onAmp_frame k0)
      · exact ampEnd_frame (onAmp_frame k0)
    clear_value x0
    extract_lets +onlyGivenNames -merge -useContext x1
    clear_value x1
    refine Frame.foldl (fun u2 _ k2 => ?_) ?_
    · exact pinChange_frame k2
    exact onAmp_frame h0

theorem tapDrain_frame {s u0 : State} (k0 : Frame s u0) : Frame s (tapDrain u0) := by
  unfold tapDrain
  exact onAmp_frame k0

theorem checkpoint_frame {s u0 : State} (k0 : Frame s u0) : Frame s (checkpoint u0) := by
  unfold checkpoint
  extract_lets +onlyGivenNames -merge -useContext x0
  have h0 : Frame s x0 := tapDrain_frame k0
  clear_value x0
  exact onAmp_frame h0

theorem evidenceMinute_frame {s u0 : State} (k0 : Frame s u0) : Frame s (evidenceMinute u0) := by
  unfold evidenceMinute
  exact onAmp_frame k0

theorem readout_frame {s u2 : State} {a0} {a1} (k2 : Frame s u2) : Frame s (readout a0 a1 u2).1 := by
  unfold readout
  extract_lets +onlyGivenNames -merge -useContext x0
  clear_value x0
  exact Frame.mk1 (onAmp_frame k2)

theorem sealPin_frame {s u1 : State} {a0} (k1 : Frame s u1) : Frame s (sealPin a0 u1) := by
  unfold sealPin
  refine Frame.ite ?_ ?_
  · exact k1
  extract_lets +onlyGivenNames -merge -useContext x0
  have h0 : Frame s x0 := onAmp_frame k1
  clear_value x0
  refine Frame.ite ?_ ?_
  · exact onAmp_frame h0
  exact pinChange_frame h0

theorem ampServe_ran {R : State → Prop} (c : Closed R) {q body} {u : State} (h : R u) (hb : ∀ u, R u → R (body u).1) :
    Ran R (ampServe q body u) := by
  unfold ampServe
  split
  · exact Ran.fault
  · split
    · exact Ran.next h
    · unfold ampoule
      refine island_ran c h fun u h => ?_
      split
      · exact c.host _ _ (hb u h)
      · exact h

theorem sealBurn_ran {R : State → Prop} (c : Closed R) {q f b} {u : State} (h : R u) : Ran R (sealBurn q f b u) := by
  unfold sealBurn
  split
  · exact Ran.fault
  · split
    · exact Ran.next h
    · split
      · unfold ampoule ampDeny
        refine island_ran c h fun u h => ?_
        split
        · exact c.host _ _ h
        · exact h
      · refine island_ran c h fun u h => ?_
        split
        · exact c.amp _ _ h
        · exact h

theorem execAmpSealPinChange_frame {s u1 : State} {a0} (k1 : Frame s u1) : Ran (Frame s) (execAmpSealPinChange a0 u1) := by
  unfold execAmpSealPinChange
  refine island_ran (Frame.closed _) ?_ fun u0 k0 => ?_
  · exact k1
  exact sealPin_frame k0

theorem execAmpouleCheckpoint_frame {s u1 : State} {a0} (k1 : Frame s u1) : Ran (Frame s) (execAmpouleCheckpoint a0 u1) := by
  unfold execAmpouleCheckpoint
  refine ampServe_ran (Frame.closed _) ?_ fun u0 k0 => ?_
  · exact k1
  extract_lets +onlyGivenNames -merge -useContext x1
  have h1 : Frame s x1 := checkpoint_frame k0
  clear_value x1
  exact Frame.mk1 h1

theorem execAmpouleEvidenceRead_frame {s u3 : State} {a0} {a1} {a2} (k3 : Frame s u3) : Ran (Frame s) (execAmpouleEvidenceRead a0 a1 a2 u3) := by
  unfold execAmpouleEvidenceRead
  refine ampServe_ran (Frame.closed _) ?_ fun u0 k0 => ?_
  · exact k3
  split
  · exact Frame.mk1 k0
  · exact ampDeny_frame k0

theorem execAmpouleIdentity_frame {s u1 : State} {a0} (k1 : Frame s u1) : Ran (Frame s) (execAmpouleIdentity a0 u1) := by
  unfold execAmpouleIdentity
  refine ampServe_ran (Frame.closed _) ?_ fun u0 k0 => ?_
  · exact k1
  exact readout_frame k0

theorem execAmpouleLogAck_frame {s u2 : State} {a0} {a1} (k2 : Frame s u2) : Ran (Frame s) (execAmpouleLogAck a0 a1 u2) := by
  unfold execAmpouleLogAck
  refine ampServe_ran (Frame.closed _) ?_ fun u0 k0 => ?_
  · exact k2
  refine Frame.ite1 ?_ ?_
  · exact ampDeny_frame k0
  exact Frame.mk1 (onAmp_frame k0)

theorem execAmpouleLogRead_frame {s u3 : State} {a0} {a1} {a2} (k3 : Frame s u3) : Ran (Frame s) (execAmpouleLogRead a0 a1 a2 u3) := by
  unfold execAmpouleLogRead
  refine ampServe_ran (Frame.closed _) ?_ fun u0 k0 => ?_
  · exact k3
  refine Frame.ite1 ?_ ?_
  · exact ampDeny_frame k0
  extract_lets +onlyGivenNames -merge -useContext x1
  clear_value x1
  refine Frame.ite1 ?_ ?_
  · exact readout_frame k0
  exact ampDeny_frame k0

theorem execAmpouleMeterRead_frame {s u3 : State} {a0} {a1} {a2} (k3 : Frame s u3) : Ran (Frame s) (execAmpouleMeterRead a0 a1 a2 u3) := by
  unfold execAmpouleMeterRead
  refine ampServe_ran (Frame.closed _) ?_ fun u0 k0 => ?_
  · exact k3
  refine Frame.ite1 ?_ ?_
  · exact ampDeny_frame k0
  extract_lets +onlyGivenNames -merge -useContext x1
  clear_value x1
  exact readout_frame k0

theorem execAmpouleParamStage_frame {s u2 : State} {a0} {a1} (k2 : Frame s u2) : Ran (Frame s) (execAmpouleParamStage a0 a1 u2) := by
  unfold execAmpouleParamStage
  refine ampServe_ran (Frame.closed _) ?_ fun u0 k0 => ?_
  · exact k2
  refine Frame.ite1 ?_ ?_
  · exact ampDeny_frame k0
  refine Frame.ite1 ?_ ?_
  · exact ampDeny_frame k0
  exact Frame.mk1 (onAmp_frame k0)

theorem execAmpouleSealAbort_frame {s u1 : State} {a0} (k1 : Frame s u1) : Ran (Frame s) (execAmpouleSealAbort a0 u1) := by
  unfold execAmpouleSealAbort
  refine ampServe_ran (Frame.closed _) ?_ fun u0 k0 => ?_
  · exact k1
  refine Frame.ite1 ?_ ?_
  · exact Frame.mk1 (sealAbort_frame k0)
  exact ampDeny_frame k0

theorem execAmpouleSealCommit_frame {s u1 : State} {a0} (k1 : Frame s u1) : Ran (Frame s) (execAmpouleSealCommit a0 u1) := by
  unfold execAmpouleSealCommit
  exact sealBurn_ran (Frame.closed _) k1

theorem execAmpouleSealOpen_frame {s u1 : State} {a0} (k1 : Frame s u1) : Ran (Frame s) (execAmpouleSealOpen a0 u1) := by
  unfold execAmpouleSealOpen
  exact sealBurn_ran (Frame.closed _) k1

theorem execBindingNotice_frame {s u2 : State} {a0} {a1} (k2 : Frame s u2) : Ran (Frame s) (execBindingNotice a0 a1 u2) := by
  unfold execBindingNotice
  refine island_ran (Frame.closed _) ?_ fun u0 k0 => ?_
  · exact k2
  refine Frame.ite ?_ ?_
  · exact k0
  exact bindingNotice_frame k0

theorem execEvidenceMinute_frame {s u0 : State} (k0 : Frame s u0) : Ran (Frame s) (execEvidenceMinute u0) := by
  unfold execEvidenceMinute
  refine island_ran (Frame.closed _) ?_ fun u0 k0 => ?_
  · exact k0
  exact evidenceMinute_frame k0

theorem execSealBurnDone_frame {s u0 : State} (k0 : Frame s u0) : Ran (Frame s) (execSealBurnDone u0) := by
  unfold execSealBurnDone
  refine island_ran (Frame.closed _) ?_ fun u0 k0 => ?_
  · exact k0
  exact burnDone_frame k0

theorem execSealOpenTimeout_frame {s u0 : State} (k0 : Frame s u0) : Ran (Frame s) (execSealOpenTimeout u0) := by
  unfold execSealOpenTimeout
  refine island_ran (Frame.closed _) ?_ fun u0 k0 => ?_
  · exact k0
  refine Frame.ite ?_ ?_
  · exact sealAbort_frame k0
  exact k0

theorem execTapDrain_frame {s u0 : State} (k0 : Frame s u0) : Ran (Frame s) (execTapDrain u0) := by
  unfold execTapDrain
  refine island_ran (Frame.closed _) ?_ fun u0 k0 => ?_
  · exact k0
  exact tapDrain_frame k0

theorem execTimeGap_frame {s u0 : State} (k0 : Frame s u0) : Ran (Frame s) (execTimeGap u0) := by
  unfold execTimeGap
  refine island_ran (Frame.closed _) ?_ fun u0 k0 => ?_
  · exact k0
  exact onAmp_frame k0

theorem execTimeRecordToAmpoule_frame {s u0 : State} (k0 : Frame s u0) : Ran (Frame s) (execTimeRecordToAmpoule u0) := by
  unfold execTimeRecordToAmpoule
  refine Ran.guardBlks ?_
  refine island_ran (Frame.closed _) ?_ fun u0 k0 => ?_
  · exact k0
  refine Frame.ite ?_ ?_
  · exact onAmp_frame k0
  exact k0

end Sys2Proof.Machine
end

