-- ==== Sys2Proof/Laws/FrameBlockRst.lean ====
section
/-! SUPPORT. What each operation of Machine/BlockRst.lean leaves alone. -/

namespace Sys2Proof.Machine

theorem clearWindows_frame {s u1 : State} {a0} (k1 : Frame s u1) : Frame s (clearWindows a0 u1) := by
  unfold clearWindows
  extract_lets +onlyGivenNames -merge -useContext x0
  clear_value x0
  exact Frame.mk' k1

theorem losePages_frame {s u3 : State} {a0} {a1} {a2} (k3 : Frame s u3) : Frame s (losePages a0 a1 a2 u3) := by
  unfold losePages
  extract_lets +onlyGivenNames -merge -useContext x10
  clear_value x10
  extract_lets +onlyGivenNames -merge -useContext x11
  have h11 : ∀ b0 v, Frame s v → Frame s (x11 b0 v) := by
    intro b0 v kv11
    unfold x11
    refine Frame.ite ?_ ?_
    · exact bump_frame kv11
    exact endDeep_frame kv11
  clear_value x11
  refine freePagesOf_frame ?_
  refine Frame.foldl (fun u12 _ k12 => ?_) ?_
  · exact h11 _ _ k12
  exact k3

theorem sweepStaged_frame {s u1 : State} {a0} (k1 : Frame s u1) : Frame s (sweepStaged a0 u1) := by
  unfold sweepStaged
  exact bumpBy_frame (freeChain_frame k1)

theorem loseStack_frame {s u2 : State} {a0} {a1} (k2 : Frame s u2) : Frame s (loseStack a0 a1 u2) := by
  unfold loseStack
  extract_lets +onlyGivenNames -merge -useContext x10
  clear_value x10
  extract_lets +onlyGivenNames -merge -useContext x11
  clear_value x11
  extract_lets +onlyGivenNames -merge -useContext x12
  clear_value x12
  extract_lets +onlyGivenNames -merge -useContext x13
  clear_value x13
  extract_lets +onlyGivenNames -merge -useContext x14
  have h14 : Frame s x14 := by
    unfold x14
    refine Frame.foldl (fun u15 _ k15 => ?_) ?_
    · exact sweepStaged_frame k15
    exact losePages_frame k2
  clear_value x14
  extract_lets +onlyGivenNames -merge -useContext x16
  have h16 : Frame s x16 := by
    unfold x16
    refine Frame.foldl (fun u17 _ k17 => ?_) ?_
    · exact endDeep_frame k17
    exact h14
  clear_value x16
  refine Frame.foldl (fun u18 _ k18 => ?_) ?_
  · exact settleEmpty_frame (leaveOrders_frame (onQueue_frame k18))
  exact h16

theorem rebuildBlock_frame {s u1 : State} {a0} (k1 : Frame s u1) : Frame s (rebuildBlock a0 u1) := by
  unfold rebuildBlock
  extract_lets +onlyGivenNames -merge -useContext x10
  clear_value x10
  refine Frame.ite ?_ ?_
  · extract_lets +onlyGivenNames -merge -useContext x11
    clear_value x11
    refine Frame.ite ?_ ?_
    · exact loseStack_frame (drawXts_frame k1)
    refine Frame.ite ?_ ?_
    · exact loseStack_frame k1
    exact k1
  refine Frame.foldl (fun u12 _ k12 => ?_) ?_
  · exact dueExchange_frame k12
  exact k1

theorem clearEm_frame {s u1 : State} {a0} (k1 : Frame s u1) : Frame s (clearEm a0 u1) := by
  unfold clearEm
  exact onEm_frame k1

theorem lostPkt_frame {s u2 : State} {a0} {a1} (k2 : Frame s u2) : Frame s (lostPkt a0 a1 u2) := by
  unfold lostPkt
  exact bump_frame (endPkt_frame k2)

theorem clearRecirc_frame {s u3 : State} {a0} {a1} {a2} (k3 : Frame s u3) : Frame s (clearRecirc a0 a1 a2 u3) := by
  unfold clearRecirc
  extract_lets +onlyGivenNames -merge -useContext x10
  clear_value x10
  extract_lets +onlyGivenNames -merge -useContext x11
  clear_value x11
  refine onCls_frame ?_
  refine Frame.foldl (fun u12 _ k12 => ?_) ?_
  · exact lostPkt_frame (onInFlight_frame k12)
  exact k3

theorem clearIxr_frame {s u1 : State} {a0} (k1 : Frame s u1) : Frame s (clearIxr a0 u1) := by
  unfold clearIxr
  extract_lets +onlyGivenNames -merge -useContext x0
  clear_value x0
  exact Frame.mk' k1

theorem clearFacet_frame {s u2 : State} {a0} {a1} (k2 : Frame s u2) : Frame s (clearFacet a0 a1 u2) := by
  unfold clearFacet
  exact onFacet_frame k2

theorem endExchange_frame {s u2 : State} {a0} {a1} (k2 : Frame s u2) : Frame s (endExchange a0 a1 u2) := by
  unfold endExchange
  split
  · exact k2
  · exact Frame.ite (onKeyOnu_frame (setKey_frame k2)) k2

theorem clearKeys_frame {s u2 : State} {a0} {a1} (k2 : Frame s u2) : Frame s (clearKeys a0 a1 u2) := by
  unfold clearKeys
  refine Frame.foldl (fun u0 _ k0 => ?_) ?_
  · exact setKey_frame (setKey_frame (endExchange_frame k0))
  exact k2

theorem losePunts_frame {s u2 : State} {a0} {a1} (k2 : Frame s u2) : Frame s (losePunts a0 a1 u2) := by
  unfold losePunts
  extract_lets +onlyGivenNames -merge -useContext x10
  have h10 : Frame s x10 := by
    unfold x10
    refine Frame.foldl (fun u11 _ k11 => ?_) ?_
    · exact bump_frame (puntGone_frame k11)
    exact k2
  clear_value x10
  exact Frame.mk' h10

theorem clearEgress_frame {s u3 : State} {a0} {a1} {a2} (k3 : Frame s u3) : Frame s (clearEgress a0 a1 a2 u3) := by
  unfold clearEgress
  extract_lets +onlyGivenNames -merge -useContext x10
  clear_value x10
  extract_lets +onlyGivenNames -merge -useContext x11
  clear_value x11
  extract_lets +onlyGivenNames -merge -useContext x12
  clear_value x12
  extract_lets +onlyGivenNames -merge -useContext x13
  have h13 : Frame s x13 := by
    unfold x13
    refine Frame.foldl (fun u14 _ k14 => ?_) ?_
    · exact endDeep_frame k14
    exact k3
  clear_value x13
  extract_lets +onlyGivenNames -merge -useContext x15
  have h15 : Frame s x15 := losePunts_frame h13
  clear_value x15
  extract_lets +onlyGivenNames -merge -useContext x16
  clear_value x16
  extract_lets +onlyGivenNames -merge -useContext x17
  have h17 : Frame s x17 := Frame.mk' h15
  clear_value x17
  refine Frame.ite ?_ ?_
  · extract_lets +onlyGivenNames -merge -useContext x18
    clear_value x18
    extract_lets +onlyGivenNames -merge -useContext x19
    have h19 : ∀ b0 v, Frame s v → Frame s (x19 b0 v) := by
      intro b0 v kv19
      unfold x19
      refine bump_frame ?_
      split
      · exact onuBytesOut_frame kv19
      · exact kv19
    clear_value x19
    extract_lets +onlyGivenNames -merge -useContext x20
    have h20 : Frame s x20 := by
      unfold x20
      refine Frame.foldl (fun u21 _ k21 => ?_) ?_
      · exact h19 _ _ k21
      exact h17
    clear_value x20
    extract_lets +onlyGivenNames -merge -useContext x22
    clear_value x22
    extract_lets +onlyGivenNames -merge -useContext x23
    have h23 : Frame s x23 := Frame.mk' h20
    clear_value x23
    exact clearKeys_frame h23
  exact h17

theorem clearIngress_frame {s u3 : State} {a0} {a1} {a2} (k3 : Frame s u3) : Frame s (clearIngress a0 a1 a2 u3) := by
  unfold clearIngress
  extract_lets +onlyGivenNames -merge -useContext x10
  clear_value x10
  extract_lets +onlyGivenNames -merge -useContext x11
  clear_value x11
  extract_lets +onlyGivenNames -merge -useContext x12
  have h12 : Frame s x12 := by
    unfold x12
    refine Frame.foldl (fun u13 _ k13 => ?_) ?_
    · exact lostPkt_frame k13
    exact k3
  clear_value x12
  extract_lets +onlyGivenNames -merge -useContext x14
  clear_value x14
  extract_lets +onlyGivenNames -merge -useContext x15
  clear_value x15
  extract_lets +onlyGivenNames -merge -useContext x16
  have h16 : Frame s x16 := by
    unfold x16
    refine Frame.foldl (fun u17 _ k17 => ?_) ?_
    · exact lostPkt_frame k17
    exact h12
  clear_value x16
  extract_lets +onlyGivenNames -merge -useContext x18
  have h18 : Frame s x18 := onCls_frame h16
  clear_value x18
  refine Frame.ite ?_ ?_
  · exact h18
  extract_lets +onlyGivenNames -merge -useContext x19
  clear_value x19
  extract_lets +onlyGivenNames -merge -useContext x20
  have h20 : Frame s x20 := by
    unfold x20
    refine Frame.foldl (fun u21 _ k21 => ?_) ?_
    · exact bump_frame (onuBytesOut_frame k21)
    exact h18
  clear_value x20
  extract_lets +onlyGivenNames -merge -useContext x22
  clear_value x22
  extract_lets +onlyGivenNames -merge -useContext x23
  clear_value x23
  extract_lets +onlyGivenNames -merge -useContext x24
  have h24 : Frame s x24 := by
    unfold x24
    refine Frame.foldl (fun u25 _ k25 => ?_) ?_
    · exact bump_frame (onuBytesOut_frame k25)
    exact h20
  clear_value x24
  extract_lets +onlyGivenNames -merge -useContext x26
  clear_value x26
  exact clearKeys_frame (Frame.mk' h24)

theorem clearUplink_frame {s u2 : State} {a0} {a1} (k2 : Frame s u2) : Frame s (clearUplink a0 a1 u2) := by
  unfold clearUplink
  extract_lets +onlyGivenNames -merge -useContext x0
  clear_value x0
  extract_lets +onlyGivenNames -merge -useContext x1
  clear_value x1
  extract_lets +onlyGivenNames -merge -useContext x2
  have h2 : ∀ a u, Frame s u → Frame s (x2 a u) := by
    intro _ u2 k2
    unfold x2
    extract_lets +onlyGivenNames -merge -useContext x3
    have h3 : Frame s x3 := by
      unfold x3
      split
      · exact onuBytesOut_frame k2
      · exact k2
    clear_value x3
    exact bump_frame h3
  clear_value x2
  extract_lets +onlyGivenNames -merge -useContext x4
  have h4 : Frame s x4 := by
    refine Frame.foldl (fun u5 _ k5 => ?_) ?_
    · exact h2 _ _ k5
    exact k2
  clear_value x4
  exact Frame.mk' h4

theorem endTransfers_frame {s u1 : State} {a0} (k1 : Frame s u1) : Frame s (endTransfers a0 u1) := by
  unfold endTransfers
  refine Frame.foldl (fun u0 _ k0 => ?_) ?_
  · split
    · exact complete_frame k0
    · exact k0
  exact k1

theorem clearSideband_frame {s u1 : State} {a0} (k1 : Frame s u1) : Frame s (clearSideband a0 u1) := by
  unfold clearSideband
  extract_lets +onlyGivenNames -merge -useContext x0
  clear_value x0
  extract_lets +onlyGivenNames -merge -useContext x1
  have h1 : Frame s x1 := by
    refine Frame.foldl (fun u2 _ k2 => ?_) ?_
    · exact endTransfers_frame k2
    exact k1
  clear_value x1
  extract_lets +onlyGivenNames -merge -useContext x3
  clear_value x3
  exact Frame.mk' h1

theorem clearPon_frame {s u2 : State} {a0} {a1} (k2 : Frame s u2) : Frame s (clearPon a0 a1 u2) := by
  unfold clearPon
  extract_lets +onlyGivenNames -merge -useContext x0
  clear_value x0
  extract_lets +onlyGivenNames -merge -useContext x1
  clear_value x1
  extract_lets +onlyGivenNames -merge -useContext x2
  clear_value x2
  extract_lets +onlyGivenNames -merge -useContext x3
  clear_value x3
  extract_lets +onlyGivenNames -merge -useContext x4
  clear_value x4
  extract_lets +onlyGivenNames -merge -useContext x5
  have h5 : Frame s x5 := by
    refine Frame.foldl (fun u6 _ k6 => ?_) ?_
    · refine Frame.foldl (fun u7 _ k7 => ?_) ?_
      · exact gemDropped_frame k7
      exact k6
    exact k2
  clear_value x5
  exact Frame.mk' h5

theorem clearBanks_frame {s u1 : State} {a0} (k1 : Frame s u1) : Frame s (clearBanks a0 u1) := by
  unfold clearBanks
  extract_lets +onlyGivenNames -merge -useContext x0
  clear_value x0
  exact onPool_frame k1

theorem clearMarver_frame {s u1 : State} {a0} (k1 : Frame s u1) : Frame s (clearMarver a0 u1) := by
  unfold clearMarver
  extract_lets +onlyGivenNames -merge -useContext x0
  clear_value x0
  extract_lets +onlyGivenNames -merge -useContext x1
  clear_value x1
  extract_lets +onlyGivenNames -merge -useContext x2
  clear_value x2
  exact Frame.mk' k1

theorem clearIsland_frame {s u1 : State} {a0} (k1 : Frame s u1) : Frame s (clearIsland a0 u1) := by
  unfold clearIsland
  refine Frame.ite ?_ ?_
  · split
    · exact clearIngress_frame k1
    · exact clearEgress_frame k1
    · exact clearIngress_frame k1
    · exact clearEgress_frame k1
    · exact clearRecirc_frame k1
    · exact clearRecirc_frame k1
  refine Frame.ite ?_ ?_
  · exact clearFacet_frame k1
  refine Frame.ite ?_ ?_
  · exact clearEm_frame k1
  refine Frame.ite ?_ ?_
  · exact clearBanks_frame k1
  refine Frame.ite ?_ ?_
  · exact clearMarver_frame k1
  refine Frame.ite ?_ ?_
  · exact k1
  refine Frame.ite ?_ ?_
  · refine Frame.ite ?_ ?_
    · exact clearSideband_frame k1
    exact clearPon_frame k1
  refine Frame.ite ?_ ?_
  · exact clearUplink_frame k1
  refine Frame.ite ?_ ?_
  · exact clearIxr_frame k1
  refine Frame.ite ?_ ?_
  · exact clearUplink_frame k1
  refine Frame.ite ?_ ?_
  · exact clearIxr_frame k1
  refine Frame.ite ?_ ?_
  · exact k1
  refine Frame.ite ?_ ?_
  · exact Frame.mk' k1
  refine Frame.ite ?_ ?_
  · exact Frame.mk' k1
  refine Frame.ite ?_ ?_
  · extract_lets +onlyGivenNames -merge -useContext x0
    clear_value x0
    exact Frame.mk' k1
  refine Frame.ite ?_ ?_
  · exact Frame.mk' k1
  exact k1

theorem clearBlock_frame {s u1 : State} {a0} (k1 : Frame s u1) : Frame s (clearBlock a0 u1) := by
  unfold clearBlock
  refine Frame.foldl (fun u0 _ k0 => ?_) ?_
  · exact clearCtr_frame k0
  exact clearWindows_frame (clearIsland_frame k1)

theorem clearShared_frame {s u1 : State} {a0} (k1 : Frame s u1) : Frame s (clearShared a0 u1) := by
  unfold clearShared
  extract_lets +onlyGivenNames -merge -useContext x0
  clear_value x0
  extract_lets +onlyGivenNames -merge -useContext x1
  have h1 : Frame s x1 := by
    refine Frame.foldl (fun u2 _ k2 => ?_) ?_
    · exact lostPkt_frame k2
    exact k1
  clear_value x1
  extract_lets +onlyGivenNames -merge -useContext x3
  have h3 : Frame s x3 := onCls_frame h1
  clear_value x3
  extract_lets +onlyGivenNames -merge -useContext x4
  have h4 : Frame s x4 := onEm_frame h3
  clear_value x4
  exact Frame.mk' h4

theorem sweepChain_frame {s u2 : State} {a0} {a1} (k2 : Frame s u2) : Frame s (sweepChain a0 a1 u2) := by
  unfold sweepChain
  extract_lets +onlyGivenNames -merge -useContext x10
  clear_value x10
  exact bumpBy_frame (dropChain_frame k2)

theorem sweepBlock_frame {s u1 : State} {a0} (k1 : Frame s u1) : Frame s (sweepBlock a0 u1) := by
  unfold sweepBlock
  extract_lets +onlyGivenNames -merge -useContext x10
  clear_value x10
  extract_lets +onlyGivenNames -merge -useContext x11
  clear_value x11
  extract_lets +onlyGivenNames -merge -useContext x12
  clear_value x12
  extract_lets +onlyGivenNames -merge -useContext x13
  have h13 : Frame s x13 := by
    unfold x13
    refine Frame.foldl (fun u14 _ k14 => ?_) ?_
    · exact sweepChain_frame k14
    exact k1
  clear_value x13
  extract_lets +onlyGivenNames -merge -useContext x15
  have h15 : Frame s x15 := by
    unfold x15
    refine Frame.foldl (fun u16 _ k16 => ?_) ?_
    · exact sweepStaged_frame k16
    exact h13
  clear_value x15
  exact losePages_frame h15

theorem puntLost_frame {s u1 : State} {a0} (k1 : Frame s u1) : Frame s (puntLost a0 u1) := by
  unfold puntLost
  exact losePunts_frame k1

end Sys2Proof.Machine
end

