-- ==== Sys2Proof/Laws/FramePower.lean ====
section
/-! SUPPORT. What each operation of Machine/Power.lean leaves alone. -/

namespace Sys2Proof.Machine

theorem annAbort_frame {s u1 : State} {a0} (k1 : Frame s u1) : Frame s (annAbort a0 u1) := by
  unfold annAbort
  refine Frame.ite ?_ ?_
  · exact k1
  extract_lets +onlyGivenNames -merge -useContext x0
  clear_value x0
  extract_lets +onlyGivenNames -merge -useContext x1
  have h1 : Frame s x1 := event_frame k1
  clear_value x1
  exact completeOpt_frame (Frame.mk' h1)

theorem annWrite_frame {s u1 : State} {a0} (k1 : Frame s u1) : Frame s (annWrite a0 u1) := by
  unfold annWrite
  extract_lets +onlyGivenNames -merge -useContext x0
  clear_value x0
  extract_lets +onlyGivenNames -merge -useContext _ x1
  clear_value x1
  exact Frame.mk' k1

theorem annWaiting_frame {s u0 : State} (k0 : Frame s u0) : Frame s (annWaiting u0) := by
  unfold annWaiting
  split
  · refine Frame.ite ?_ ?_
    · exact annWrite_frame k0
    exact k0
  · exact k0

theorem interruptWrite_frame {s u0 : State} (k0 : Frame s u0) : Frame s (interruptWrite u0) := by
  unfold interruptWrite
  split
  · exact k0
  · extract_lets +onlyGivenNames -merge -useContext x0
    clear_value x0
    extract_lets +onlyGivenNames -merge -useContext x1
    clear_value x1
    extract_lets +onlyGivenNames -merge -useContext x2
    clear_value x2
    extract_lets +onlyGivenNames -merge -useContext x3
    clear_value x3
    extract_lets +onlyGivenNames -merge -useContext _ x4
    clear_value x4
    extract_lets +onlyGivenNames -merge -useContext x5
    clear_value x5
    extract_lets +onlyGivenNames -merge -useContext x6
    have h6 : Frame s x6 := State.drawn_frame k0
    clear_value x6
    exact Frame.mk' h6

theorem bootImageWrite_frame {s u4 : State} {a0} {a1} {a2} {a3} (k4 : Frame s u4) : Frame s (bootImageWrite a0 a1 a2 a3 u4).1 := by
  unfold bootImageWrite
  refine Frame.ite1 ?_ ?_
  · exact deny_frame k4
  refine Frame.ite1 ?_ ?_
  · exact deny_frame k4
  refine Frame.ite1 ?_ ?_
  · exact deny_frame k4
  exact waits_frame (keQueue_frame k4)

theorem capEvent_frame {s u2 : State} {a0} {a1} (k2 : Frame s u2) : Frame s (capEvent a0 a1 u2) := by
  unfold capEvent
  exact event_frame k2

theorem resumeWrites_frame {s u0 : State} (k0 : Frame s u0) : Frame s (resumeWrites u0) := by
  unfold resumeWrites
  exact Frame.foldl (fun _ _ k => startWrites_frame k) k0

theorem stageChanged_frame {s u2 : State} {a0} {a1} (k2 : Frame s u2) : Frame s (stageChanged a0 a1 u2) := by
  unfold stageChanged
  extract_lets +onlyGivenNames -merge -useContext x0
  clear_value x0
  refine Frame.ite ?_ ?_
  · exact k2
  extract_lets +onlyGivenNames -merge -useContext x1
  have h1 : Frame s x1 := ampLog_frame (event_frame k2)
  clear_value x1
  extract_lets +onlyGivenNames -merge -useContext _ x2
  have h2 : Frame s x2 := Frame.mk' h1
  clear_value x2
  refine Frame.ite ?_ ?_
  · exact Frame.ite (resumeWrites_frame h2) h2
  extract_lets +onlyGivenNames -merge -useContext x3
  have h3 : Frame s x3 := by
    refine Frame.foldl (fun u4 _ k4 => ?_) ?_
    · exact bump_frame k4
    exact h2
  clear_value x3
  extract_lets +onlyGivenNames -merge -useContext x5
  have h5 : Frame s x5 := annAbort_frame h3
  clear_value x5
  refine Frame.ite ?_ ?_
  · exact withdrawClaims_frame h5
  exact h5

theorem optionWrite_frame {s u2 : State} {a0} {a1} (k2 : Frame s u2) : Frame s (optionWrite a0 a1 u2).1 := by
  unfold optionWrite
  split
  · refine Frame.ite1 ?_ ?_
    · exact deny_frame k2
    exact waits_frame (Frame.mk' k2)
  · exact denyAt_frame k2

theorem storeWriteDone_frame {s u2 : State} {a0} {a1} (k2 : Frame s u2) : Frame s (storeWriteDone a0 a1 u2) := by
  unfold storeWriteDone
  split
  · exact k2
  · extract_lets +onlyGivenNames -merge -useContext x0
    clear_value x0
    extract_lets +onlyGivenNames -merge -useContext x1
    clear_value x1
    extract_lets +onlyGivenNames -merge -useContext x2
    clear_value x2
    extract_lets +onlyGivenNames -merge -useContext _ x3
    clear_value x3
    extract_lets +onlyGivenNames -merge -useContext x4
    clear_value x4
    extract_lets +onlyGivenNames -merge -useContext x5
    have h5 : Frame s x5 := Frame.mk' k2
    clear_value x5
    extract_lets +onlyGivenNames -merge -useContext x6
    clear_value x6
    extract_lets +onlyGivenNames -merge -useContext x7
    clear_value x7
    split
    · exact annWaiting_frame (complete_frame h5)
    · refine Frame.ite ?_ ?_
      · exact h5
      refine Frame.ite ?_ ?_
      · exact Frame.mk' h5
      exact annAbort_frame h5

theorem execBootImageStatus_frame {s u1 : State} {a0} (k1 : Frame s u1) : Ran (Frame s) (execBootImageStatus a0 u1) := by
  unfold execBootImageStatus
  refine kilak_ran (Frame.closed _) ?_ fun u0 k0 => ?_
  · exact k1
  exact doneWith_frame k0

theorem execBootImageWrite_frame {s u4 : State} {a0} {a1} {a2} {a3} (k4 : Frame s u4) : Ran (Frame s) (execBootImageWrite a0 a1 a2 a3 u4) := by
  unfold execBootImageWrite
  refine kilak_ran (Frame.closed _) ?_ fun u0 k0 => ?_
  · exact k4
  exact bootImageWrite_frame k0

theorem execOptionImageRead_frame {s u2 : State} {a0} {a1} (k2 : Frame s u2) : Ran (Frame s) (execOptionImageRead a0 a1 u2) := by
  unfold execOptionImageRead
  refine kilak_ran (Frame.closed _) ?_ fun u0 k0 => ?_
  · exact k2
  extract_lets +onlyGivenNames -merge -useContext x1
  clear_value x1
  exact doneWith_frame k0

theorem execOptionImageWrite_frame {s u2 : State} {a0} {a1} (k2 : Frame s u2) : Ran (Frame s) (execOptionImageWrite a0 a1 u2) := by
  unfold execOptionImageWrite
  refine kilak_ran (Frame.closed _) ?_ fun u0 k0 => ?_
  · exact k2
  exact optionWrite_frame k0

theorem execOptionStatus_frame {s u1 : State} {a0} (k1 : Frame s u1) : Ran (Frame s) (execOptionStatus a0 u1) := by
  unfold execOptionStatus
  refine kilak_ran (Frame.closed _) ?_ fun u0 k0 => ?_
  · exact k1
  exact doneWith_frame k0

theorem execOptionStoreWriteDone_frame {s u2 : State} {a0} {a1} (k2 : Frame s u2) : Ran (Frame s) (execOptionStoreWriteDone a0 a1 u2) := by
  unfold execOptionStoreWriteDone
  refine island_ran (Frame.closed _) ?_ fun u0 k0 => ?_
  · exact k2
  exact storeWriteDone_frame k0

theorem execPowerStatus_frame {s u1 : State} {a0} (k1 : Frame s u1) : Ran (Frame s) (execPowerStatus a0 u1) := by
  unfold execPowerStatus
  refine kilak_ran (Frame.closed _) ?_ fun u0 k0 => ?_
  · exact k1
  exact doneWith_frame k0

theorem execSagStatus_frame {s u1 : State} {a0} (k1 : Frame s u1) : Ran (Frame s) (execSagStatus a0 u1) := by
  unfold execSagStatus
  refine kilak_ran (Frame.closed _) ?_ fun u0 k0 => ?_
  · exact k1
  exact doneWith_frame k0

end Sys2Proof.Machine
end

