-- ==== Sys2Proof/Laws/FrameAnneal.lean ====
section
/-! SUPPORT. What each operation of Machine/Anneal.lean leaves alone. -/

namespace Sys2Proof.Machine

theorem annStart_frame {s u1 : State} {a0} (k1 : Frame s u1) : Frame s (annStart a0 u1) := by
  unfold annStart
  exact Frame.mk' k1

theorem annDue_frame {s u0 : State} (k0 : Frame s u0) : Frame s (annDue u0) := by
  unfold annDue
  refine Frame.ite ?_ ?_
  · exact k0
  refine Frame.ite ?_ ?_
  · exact Frame.mk' k0
  exact annStart_frame k0

theorem marginLow_frame {s u1 : State} {a0} (k1 : Frame s u1) : Frame s (marginLow a0 u1) := by
  unfold marginLow
  extract_lets +onlyGivenNames -merge -useContext x0
  clear_value x0
  refine Frame.foldl (fun u1 _ k1 => ?_) ?_
  · extract_lets +onlyGivenNames -merge -useContext x2
    clear_value x2
    refine Frame.ite ?_ ?_
    · exact event_frame k1
    exact k1
  exact k1

theorem raiseTarget_frame {s u2 : State} {a0} {a1} (k2 : Frame s u2) : Frame s (raiseTarget a0 a1 u2) := by
  unfold raiseTarget
  extract_lets +onlyGivenNames -merge -useContext x0
  clear_value x0
  refine Frame.ite ?_ ?_
  · exact k2
  exact Frame.mk' k2

theorem readings_frame {s u1 : State} {a0} (k1 : Frame s u1) : Frame s (readings a0 u1) := by
  unfold readings
  extract_lets +onlyGivenNames -merge -useContext x0
  clear_value x0
  exact Frame.mk' k1

theorem measureDone_frame {s u1 : State} {a0} (k1 : Frame s u1) : Frame s (measureDone a0 u1) := by
  unfold measureDone
  refine Frame.ite ?_ ?_
  · exact k1
  extract_lets +onlyGivenNames -merge -useContext x0
  clear_value x0
  extract_lets +onlyGivenNames -merge -useContext x1
  have h1 : Frame s x1 := marginLow_frame (readings_frame k1)
  clear_value x1
  extract_lets +onlyGivenNames -merge -useContext x2
  have h2 : Frame s x2 := by
    refine Frame.foldl (fun u3 _ k3 => ?_) ?_
    · exact raiseTarget_frame k3
    exact h1
  clear_value x2
  exact annWaiting_frame (Frame.mk' h2)

theorem planWritten_frame {s u0 : State} (k0 : Frame s u0) : Frame s (planWritten u0) := by
  unfold planWritten
  split
  · exact k0
  · refine Frame.ite ?_ ?_
    · exact k0
    extract_lets +onlyGivenNames -merge -useContext x0
    clear_value x0
    extract_lets +onlyGivenNames -merge -useContext x1
    clear_value x1
    extract_lets +onlyGivenNames -merge -useContext x2
    clear_value x2
    extract_lets +onlyGivenNames -merge -useContext _ x3
    have h3 : Frame s x3 := Frame.mk' k0
    clear_value x3
    extract_lets +onlyGivenNames -merge -useContext x4
    have h4 : Frame s x4 := event_frame h3
    clear_value x4
    exact completeOpt_frame h4

theorem execAnnealMeasureDone_frame {s u1 : State} {a0} (k1 : Frame s u1) : Ran (Frame s) (execAnnealMeasureDone a0 u1) := by
  unfold execAnnealMeasureDone
  refine island_ran (Frame.closed _) ?_ fun u0 k0 => ?_
  · exact k1
  exact measureDone_frame k0

theorem execAnnealPlanRead_frame {s u1 : State} {a0} (k1 : Frame s u1) : Ran (Frame s) (execAnnealPlanRead a0 u1) := by
  unfold execAnnealPlanRead
  refine kilak_ran (Frame.closed _) ?_ fun u0 k0 => ?_
  · exact k1
  exact doneWith_frame k0

theorem execAnnealPlanWritten_frame {s u0 : State} (k0 : Frame s u0) : Ran (Frame s) (execAnnealPlanWritten u0) := by
  unfold execAnnealPlanWritten
  refine island_ran (Frame.closed _) ?_ fun u0 k0 => ?_
  · exact k0
  exact planWritten_frame k0

theorem execAnnealRun_frame {s u1 : State} {a0} (k1 : Frame s u1) : Ran (Frame s) (execAnnealRun a0 u1) := by
  unfold execAnnealRun
  refine kilak_ran (Frame.closed _) ?_ fun u0 k0 => ?_
  · exact k1
  refine Frame.ite1 ?_ ?_
  · exact deny_frame k0
  refine Frame.ite1 ?_ ?_
  · exact deny_frame k0
  exact waits_frame (annStart_frame k0)

theorem execAnnealRunStart_frame {s u0 : State} (k0 : Frame s u0) : Ran (Frame s) (execAnnealRunStart u0) := by
  unfold execAnnealRunStart
  refine island_ran (Frame.closed _) ?_ fun u0 k0 => ?_
  · exact k0
  exact annDue_frame k0

theorem execAnnealStatus_frame {s u1 : State} {a0} (k1 : Frame s u1) : Ran (Frame s) (execAnnealStatus a0 u1) := by
  unfold execAnnealStatus
  refine kilak_ran (Frame.closed _) ?_ fun u0 k0 => ?_
  · exact k1
  exact doneWith_frame k0

theorem execAnnealTargetSettle_frame {s u1 : State} {a0} (k1 : Frame s u1) : Ran (Frame s) (execAnnealTargetSettle a0 u1) := by
  unfold execAnnealTargetSettle
  refine island_ran (Frame.closed _) ?_ fun u0 k0 => ?_
  · exact k1
  exact Frame.mk' k0

theorem execMonitorRead_frame {s u4 : State} {a0} {a1} {a2} {a3} (k4 : Frame s u4) : Ran (Frame s) (execMonitorRead a0 a1 a2 a3 u4) := by
  unfold execMonitorRead
  refine kilak_ran (Frame.closed _) ?_ fun u0 k0 => ?_
  · exact k4
  refine Frame.ite1 ?_ ?_
  · refine Frame.ite1 ?_ ?_
    · exact deny_frame k0
    exact doneWith_frame k0
  refine Frame.ite1 ?_ ?_
  · exact deny_frame k0
  exact doneWith_frame k0

end Sys2Proof.Machine
end

