-- ==== Sys2Proof/Laws/FrameCipher.lean ====
section
/-! SUPPORT. What each operation of Machine/Cipher.lean leaves alone. -/

namespace Sys2Proof.Machine

theorem keCrypt_frame {s u10 : State} {a0} {a1} {a2} {a3} {a4} {a5} {a6} {a7} {a8} {a9} (k10 : Frame s u10) : Frame s (keCrypt a0 a1 a2 a3 a4 a5 a6 a7 a8 a9 u10).1 := by
  unfold keCrypt
  refine Frame.ite1 ?_ ?_
  · exact deny_frame k10
  refine Frame.ite1 ?_ ?_
  · exact deny_frame k10
  exact waits_frame (keQueue_frame k10)

theorem keCryptDone_frame {s u9 : State} {a0} {a1} {a2} {a3} {a4} {a5} {a6} {a7} {a8} (k9 : Frame s u9) : Frame s (keCryptDone a0 a1 a2 a3 a4 a5 a6 a7 a8 u9) := by
  unfold keCryptDone
  extract_lets +onlyGivenNames -merge -useContext x10
  clear_value x10
  extract_lets +onlyGivenNames -merge -useContext x11
  clear_value x11
  extract_lets +onlyGivenNames -merge -useContext x12
  clear_value x12
  extract_lets +onlyGivenNames -merge -useContext x13
  clear_value x13
  extract_lets +onlyGivenNames -merge -useContext x14
  clear_value x14
  extract_lets +onlyGivenNames -merge -useContext x15
  have h15 : ∀ b0 v, Frame s v → Frame s (x15 b0 v) := by
    intro b0 v kv15
    unfold x15
    exact Frame.mk' kv15
  clear_value x15
  extract_lets +onlyGivenNames -merge -useContext x16
  have h16 : Frame s x16 := bump_frame k9
  clear_value x16
  refine Frame.ite ?_ ?_
  · exact complete_frame (h15 _ _ h16)
  refine Frame.ite ?_ ?_
  · exact complete_frame (h15 _ _ h16)
  exact complete_frame (bump_frame (h15 _ _ h16))

theorem keReportDone_frame {s u3 : State} {a0} {a1} {a2} (k3 : Frame s u3) : Frame s (keReportDone a0 a1 a2 u3) := by
  unfold keReportDone
  split
  · refine Frame.ite ?_ ?_
    · exact k3
    split
    · exact keyInstall_frame k3
    · exact keyFail_frame (bump_frame k3)
  · exact k3

theorem keUnwrapDone_frame {s u3 : State} {a0} {a1} {a2} (k3 : Frame s u3) : Frame s (keUnwrapDone a0 a1 a2 u3) := by
  unfold keUnwrapDone
  split
  · exact complete_frame (Frame.mk' k3)
  · exact complete_frame k3

theorem keJobDone_frame {s u1 : State} {a0} (k1 : Frame s u1) : Frame s (keJobDone a0 u1) := by
  unfold keJobDone
  split
  · exact keReportDone_frame k1
  · exact keUnwrapDone_frame k1
  · exact imageDone_frame k1
  · exact keCryptDone_frame k1

theorem keDone_frame {s u0 : State} (k0 : Frame s u0) : Frame s (keDone u0) := by
  unfold keDone
  extract_lets +onlyGivenNames -merge -useContext x0
  clear_value x0
  extract_lets +onlyGivenNames -merge -useContext x1
  have h1 : ∀ a u, Frame s u → Frame s (x1 a u) := by
    intro _ u1 k1
    exact Frame.mk' k1
  clear_value x1
  refine Frame.ite ?_ ?_
  · exact k0
  refine Frame.ite ?_ ?_
  · split
    · exact h1 _ _ k0
    · exact Frame.ite (Frame.mk' k0) (keJobDone_frame (h1 _ _ k0))
  extract_lets +onlyGivenNames -merge -useContext _ x2
  have h2 : Frame s x2 := Frame.mk' k0
  clear_value x2
  refine Frame.ite ?_ ?_
  · refine Frame.ite ?_ ?_
    · exact Frame.mk' h2
    exact drawnKe_frame (Frame.mk' h2)
  exact h2

theorem keGrant_frame {s u : State} (k : Frame s u) : Frame s (keGrant u) := by
  unfold keGrant
  dsimp only
  exact Frame.ite k (Frame.ite (Frame.mk' k) (Frame.ite (Frame.mk' k) (Frame.ite (Frame.mk' k) k)))

theorem keyAnswered_frame {s u4 : State} {a0} {a1} {a2} (k4 : Frame s u4) : Frame s (keyAnswered a0 a1 a2 u4) := by
  unfold keyAnswered
  exact Frame.ite (plAnswered_frame k4) k4

theorem keyReport_frame {s u4 : State} {a0} {a1} {a2} {a3} (k4 : Frame s u4) : Frame s (keyReport a0 a1 a2 a3 u4) := by
  unfold keyReport
  refine fromOnu_frame ?_ ?_
  · intro _ _ u0 k0
    split
    · exact bump_frame k0
    · refine Frame.ite ?_ ?_
      · exact bump_frame k0
      extract_lets +onlyGivenNames -merge -useContext x1
      have h1 : Frame s x1 := keyAnswered_frame k0
      clear_value x1
      extract_lets +onlyGivenNames -merge -useContext x2
      clear_value x2
      refine Frame.ite ?_ ?_
      · exact keyInstall_frame h1
      extract_lets +onlyGivenNames -merge -useContext x3
      clear_value x3
      extract_lets +onlyGivenNames -merge -useContext x4
      clear_value x4
      extract_lets +onlyGivenNames -merge -useContext x5
      clear_value x5
      extract_lets +onlyGivenNames -merge -useContext x6
      have h6 : Frame s x6 := onKeyOnu_frame h1
      clear_value x6
      split
      · refine Frame.ite ?_ ?_
        · exact h6
        exact keQueue_frame h6
      · exact h6
  exact k4

theorem keyRetire_frame {s u3 : State} {a0} {a1} {a2} (k3 : Frame s u3) : Frame s (keyRetire a0 a1 a2 u3) := by
  unfold keyRetire
  refine Frame.ite ?_ ?_
  · extract_lets +onlyGivenNames -merge -useContext x0
    clear_value x0
    refine Frame.ite ?_ ?_
    · exact setBcast_frame k3
    exact k3
  extract_lets +onlyGivenNames -merge -useContext x1
  clear_value x1
  refine Frame.ite ?_ ?_
  · exact tryExchange_frame (setKey_frame k3)
  exact k3

theorem execBroadcastKeySet_frame {s u5 : State} {a0} {a1} {a2} {a3} {a4} (k5 : Frame s u5) : Ran (Frame s) (execBroadcastKeySet a0 a1 a2 a3 a4 u5) := by
  unfold execBroadcastKeySet
  refine kilak_ran (Frame.closed _) ?_ fun u0 k0 => ?_
  · exact k5
  refine Frame.ite1 ?_ ?_
  · exact deny_frame k0
  refine Frame.ite1 ?_ ?_
  · exact deny_frame k0
  refine Frame.ite1 ?_ ?_
  · exact deny_frame k0
  exact done_frame (setBcast_frame k0)

theorem execCipherParamSet_frame {s u3 : State} {a0} {a1} {a2} (k3 : Frame s u3) : Ran (Frame s) (execCipherParamSet a0 a1 a2 u3) := by
  unfold execCipherParamSet
  refine kilak_ran (Frame.closed _) ?_ fun u0 k0 => ?_
  · exact k3
  refine Frame.ite1 ?_ ?_
  · exact deny_frame k0
  refine Frame.ite1 ?_ ?_
  · exact deny_frame k0
  refine done_frame ?_
  refine Frame.foldl (fun u1 _ k1 => ?_) ?_
  · exact setParam_frame k1
  exact k0

theorem execCipherStats_frame {s u3 : State} {a0} {a1} {a2} (k3 : Frame s u3) : Ran (Frame s) (execCipherStats a0 a1 a2 u3) := by
  unfold execCipherStats
  refine kilak_ran (Frame.closed _) ?_ fun u0 k0 => ?_
  · exact k3
  extract_lets +onlyGivenNames -merge -useContext x1
  clear_value x1
  refine Frame.ite1 ?_ ?_
  · refine Frame.ite1 ?_ ?_
    · exact deny_frame k0
    exact doneWith_frame k0
  refine Frame.ite1 ?_ ?_
  · refine Frame.ite1 ?_ ?_
    · exact deny_frame k0
    exact doneWith_frame k0
  refine Frame.ite1 ?_ ?_
  · exact doneWith_frame k0
  exact deny_frame k0

theorem execKeDecrypt_frame {s u9 : State} {a0} {a1} {a2} {a3} {a4} {a5} {a6} {a7} {a8} (k9 : Frame s u9) : Ran (Frame s) (execKeDecrypt a0 a1 a2 a3 a4 a5 a6 a7 a8 u9) := by
  unfold execKeDecrypt
  refine kilak_ran (Frame.closed _) ?_ fun u0 k0 => ?_
  · exact k9
  exact keCrypt_frame k0

theorem execKeEncrypt_frame {s u8 : State} {a0} {a1} {a2} {a3} {a4} {a5} {a6} {a7} (k8 : Frame s u8) : Ran (Frame s) (execKeEncrypt a0 a1 a2 a3 a4 a5 a6 a7 u8) := by
  unfold execKeEncrypt
  refine kilak_ran (Frame.closed _) ?_ fun u0 k0 => ?_
  · exact k8
  exact keCrypt_frame k0

theorem execKeJobDone_frame {s u0 : State} (k0 : Frame s u0) : Ran (Frame s) (execKeJobDone u0) := by
  unfold execKeJobDone
  refine island_ran (Frame.closed _) ?_ fun u0 k0 => ?_
  · exact k0
  exact keDone_frame k0

theorem execKeKeyClear_frame {s u2 : State} {a0} {a1} (k2 : Frame s u2) : Ran (Frame s) (execKeKeyClear a0 a1 u2) := by
  unfold execKeKeyClear
  refine kilak_ran (Frame.closed _) ?_ fun u0 k0 => ?_
  · exact k2
  refine Frame.ite1 ?_ ?_
  · exact deny_frame k0
  exact done_frame (Frame.mk' k0)

theorem execKeKeyLoad_frame {s u3 : State} {a0} {a1} {a2} (k3 : Frame s u3) : Ran (Frame s) (execKeKeyLoad a0 a1 a2 u3) := by
  unfold execKeKeyLoad
  refine kilak_ran (Frame.closed _) ?_ fun u0 k0 => ?_
  · exact k3
  refine Frame.ite1 ?_ ?_
  · exact deny_frame k0
  exact done_frame (Frame.mk' k0)

theorem execKeKeyUnwrap_frame {s u4 : State} {a0} {a1} {a2} {a3} (k4 : Frame s u4) : Ran (Frame s) (execKeKeyUnwrap a0 a1 a2 a3 u4) := by
  unfold execKeKeyUnwrap
  refine kilak_ran (Frame.closed _) ?_ fun u0 k0 => ?_
  · exact k4
  refine Frame.ite1 ?_ ?_
  · exact deny_frame k0
  exact waits_frame (keQueue_frame k0)

theorem execKeLockGrant_frame {s u0 : State} (k0 : Frame s u0) : Ran (Frame s) (execKeLockGrant u0) := by
  unfold execKeLockGrant
  refine island_ran (Frame.closed _) ?_ fun u0 k0 => ?_
  · exact k0
  exact keGrant_frame k0

theorem execKeStatus_frame {s u1 : State} {a0} (k1 : Frame s u1) : Ran (Frame s) (execKeStatus a0 u1) := by
  unfold execKeStatus
  refine kilak_ran (Frame.closed _) ?_ fun u0 k0 => ?_
  · exact k1
  exact doneWith_frame k0

theorem execKeyFragmentTimeout_frame {s u1 : State} {a0} (k1 : Frame s u1) : Ran (Frame s) (execKeyFragmentTimeout a0 u1) := by
  unfold execKeyFragmentTimeout
  refine island_ran (Frame.closed _) ?_ fun u0 k0 => ?_
  · exact k1
  split
  · split
    · refine Frame.ite ?_ ?_
      · exact keyFail_frame k0
      exact k0
    · exact k0
  · exact k0

theorem execKeyReport_frame {s u4 : State} {a0} {a1} {a2} {a3} (k4 : Frame s u4) : Ran (Frame s) (execKeyReport a0 a1 a2 a3 u4) := by
  unfold execKeyReport
  refine usPloam_ran (Frame.closed _) ?_ fun u0 k0 => ?_
  · exact k4
  exact keyReport_frame k0

theorem execKeyRetire_frame {s u3 : State} {a0} {a1} {a2} (k3 : Frame s u3) : Ran (Frame s) (execKeyRetire a0 a1 a2 u3) := by
  unfold execKeyRetire
  refine island_ran (Frame.closed _) ?_ fun u0 k0 => ?_
  · exact k3
  exact keyRetire_frame k0

theorem execKeyStatus_frame {s u3 : State} {a0} {a1} {a2} (k3 : Frame s u3) : Ran (Frame s) (execKeyStatus a0 a1 a2 u3) := by
  unfold execKeyStatus
  refine kilak_ran (Frame.closed _) ?_ fun u0 k0 => ?_
  · exact k3
  refine Frame.ite1 ?_ ?_
  · refine withOnu_frame ?_ ?_
    · intro _ u1 k1
      exact doneWith_frame k1
    exact k0
  refine Frame.ite1 ?_ ?_
  · exact deny_frame k0
  exact doneWith_frame k0

theorem execOnuMasterKeySet_frame {s u4 : State} {a0} {a1} {a2} {a3} (k4 : Frame s u4) : Ran (Frame s) (execOnuMasterKeySet a0 a1 a2 a3 u4) := by
  unfold execOnuMasterKeySet
  refine kilak_ran (Frame.closed _) ?_ fun u0 k0 => ?_
  · exact k4
  refine withOnu_frame ?_ ?_
  · intro _ u1 k1
    extract_lets +onlyGivenNames -merge -useContext x2
    have h2 : Frame s x2 := onKeyOnu_frame k1
    clear_value x2
    refine done_frame ?_
    refine Frame.ite ?_ ?_
    · exact dueExchange_frame h2
    exact h2
  exact k0

theorem execOnuRekey_frame {s u2 : State} {a0} {a1} (k2 : Frame s u2) : Ran (Frame s) (execOnuRekey a0 a1 u2) := by
  unfold execOnuRekey
  refine kilak_ran (Frame.closed _) ?_ fun u0 k0 => ?_
  · exact k2
  refine withOnu_frame ?_ ?_
  · intro _ u1 k1
    refine Frame.ite1 ?_ ?_
    · exact deny_frame k1
    refine Frame.ite1 ?_ ?_
    · exact deny_frame k1
    exact done_frame (dueExchange_frame k1)
  exact k0

theorem execRekeyInterval_frame {s u1 : State} {a0} (k1 : Frame s u1) : Ran (Frame s) (execRekeyInterval a0 u1) := by
  unfold execRekeyInterval
  refine island_ran (Frame.closed _) ?_ fun u0 k0 => ?_
  · exact k1
  extract_lets +onlyGivenNames -merge -useContext x1
  clear_value x1
  refine Frame.ite ?_ ?_
  · exact dueExchange_frame (onKeyOnu_frame k0)
  exact k0

theorem execRekeyRetry_frame {s u1 : State} {a0} (k1 : Frame s u1) : Ran (Frame s) (execRekeyRetry a0 u1) := by
  unfold execRekeyRetry
  refine island_ran (Frame.closed _) ?_ fun u0 k0 => ?_
  · exact k1
  extract_lets +onlyGivenNames -merge -useContext x1
  clear_value x1
  refine Frame.ite ?_ ?_
  · exact dueExchange_frame (onKeyOnu_frame k0)
  exact k0

theorem execRngFail_frame {s u0 : State} (k0 : Frame s u0) : Ran (Frame s) (execRngFail u0) := by
  unfold execRngFail
  refine island_ran (Frame.closed _) ?_ fun u0 k0 => ?_
  · exact k0
  refine Frame.ite ?_ ?_
  · exact k0
  exact raiseFault_frame (bump_frame (Frame.mk' k0))

end Sys2Proof.Machine
end

