-- ==== Sys2Proof/Laws/FrameDecrypt.lean ====
section
/-! SUPPORT. What each operation of Machine/Decrypt.lean leaves alone. -/

namespace Sys2Proof.Machine

theorem authFailed_frame {s u1 : State} {a0} (k1 : Frame s u1) : Frame s (authFailed a0 u1) := by
  unfold authFailed
  extract_lets +onlyGivenNames -merge -useContext x0
  have h0 : Frame s x0 := bump_frame k1
  clear_value x0
  extract_lets +onlyGivenNames -merge -useContext x1
  clear_value x1
  refine Frame.ite ?_ ?_
  · exact h0
  exact event_frame (onKeyOnu_frame h0)

theorem quarantine_frame {s u : State} {sl h os} (k : Frame s u) : Frame s (quarantine sl h os u).2 := by
  unfold quarantine
  dsimp only
  split
  · exact bump_frame (onuBytesOut_frame k)
  · split
    · exact bump_frame (onuBytesOut_frame k)
    · have ha : Frame s (allocChain (upPipe sl) 2 (32 + sl) (upHdr h os.length) os u).2 := allocChain_frame k
      split
      · exact bump_frame (bump_frame (Frame.ofEq2 (by assumption) ha))
      · exact bump_frame (onuBytesOut_frame (Frame.ofEq2 (by assumption) ha))

theorem onReasm_frame {s u1 : State} {a0} (k1 : Frame s u1) : Frame s (onReasm a0 u1) := by
  unfold onReasm
  exact Frame.mk' k1

theorem dropUp_frame {s u4 : State} {a0} {a1} {a2} {a3} (k4 : Frame s u4) : Frame s (dropUp a0 a1 a2 a3 u4) := by
  unfold dropUp
  extract_lets +onlyGivenNames -merge -useContext x10
  clear_value x10
  exact bump_frame (onuBytesOut_frame k4)

theorem quarFree_frame {s u2 : State} {a0} {a1} (k2 : Frame s u2) : Frame s (quarFree a0 a1 u2) := by
  unfold quarFree
  split
  · exact bump_frame (freeChain_frame k2)
  · exact k2

theorem spoilSdu_frame {s u6 : State} {a0} {a1} {a2} {a3} {a4} {a5} (k6 : Frame s u6) : Frame s (spoilSdu a0 a1 a2 a3 a4 a5 u6) := by
  unfold spoilSdu
  extract_lets +onlyGivenNames -merge -useContext x10
  clear_value x10
  extract_lets +onlyGivenNames -merge -useContext x11
  clear_value x11
  split
  · refine Frame.ite ?_ ?_
    · exact k6
    refine onReasm_frame ?_
    refine Frame.ite ?_ ?_
    · exact quarFree_frame k6
    exact dropUp_frame (quarFree_frame k6)
  · refine Frame.ite ?_ ?_
    · exact k6
    exact onReasm_frame k6

theorem onHold_frame {s u2 : State} {a0} {a1} (k2 : Frame s u2) : Frame s (onHold a0 a1 u2) := by
  unfold onHold
  exact Frame.mk' k2

theorem decryptArrive_frame {s u4 : State} {a0} {a1} {a2} {a3} (k4 : Frame s u4) : Frame s (decryptArrive a0 a1 a2 a3 u4) := by
  unfold decryptArrive
  extract_lets +onlyGivenNames -merge -useContext x10
  clear_value x10
  extract_lets +onlyGivenNames -merge -useContext x11
  clear_value x11
  split
  · extract_lets +onlyGivenNames -merge -useContext x12
    have h12 : Frame s x12 := onuBytesIn_frame k4
    clear_value x12
    exact spoilSdu_frame (dropOnu_frame h12)
  · extract_lets +onlyGivenNames -merge -useContext x13
    clear_value x13
    split
    · exact onHold_frame (onuBytesIn_frame k4)
    · extract_lets +onlyGivenNames -merge -useContext x14
      clear_value x14
      refine Frame.ite ?_ ?_
      · extract_lets +onlyGivenNames -merge -useContext x15
        have h15 : Frame s x15 := setKey_frame (onuBytesIn_frame k4)
        clear_value x15
        extract_lets +onlyGivenNames -merge -useContext x16
        have h16 : Frame s x16 := by
          unfold x16
          refine Frame.ite ?_ ?_
          · exact keySwitch_frame h15
          exact h15
        clear_value x16
        exact onHold_frame h16
      extract_lets +onlyGivenNames -merge -useContext x17
      clear_value x17
      split
      · extract_lets +onlyGivenNames -merge -useContext x18
        have h18 : Frame s x18 := setKey_frame (onuBytesIn_frame k4)
        clear_value x18
        extract_lets +onlyGivenNames -merge -useContext x19
        clear_value x19
        refine Frame.ite ?_ ?_
        · exact onHold_frame h18
        split
        · exact onHold_frame (Frame.ofEq2 (by assumption) (quarantine_frame h18))
        · exact spoilSdu_frame (Frame.ofEq2 (by assumption) (quarantine_frame h18))

theorem releaseSdu_frame {s u7 : State} {a0} {a1} {a2} {a3} {a4} {a5} {a6} (k7 : Frame s u7) : Frame s (releaseSdu a0 a1 a2 a3 a4 a5 a6 u7) := by
  unfold releaseSdu
  extract_lets +onlyGivenNames -merge -useContext x0
  clear_value x0
  extract_lets +onlyGivenNames -merge -useContext x1
  clear_value x1
  extract_lets +onlyGivenNames -merge -useContext x2
  have h2 : Frame s x2 := by
    unfold x2
    split
    · exact bump_frame (handOver_frame k7)
    · exact k7
  clear_value x2
  refine Frame.ite ?_ ?_
  · split
    · exact puntPkt_frame (Frame.ofEq2 (by assumption) (takeIn_frame h2))
    · exact Frame.ofEq2 (by assumption) (takeIn_frame h2)
  exact onCls_frame h2

theorem growChain_frame {s u3 : State} {a0} {a1} {a2} (k3 : Frame s u3) : Frame s (growChain a0 a1 a2 u3).2 := by
  unfold growChain
  split
  · exact Frame.mk2 k3
  · extract_lets +onlyGivenNames -merge -useContext x0
    clear_value x0
    extract_lets +onlyGivenNames -merge -useContext x1
    clear_value x1
    refine Frame.ite2 ?_ ?_
    · exact Frame.mk2 k3
    refine Frame.ite2 ?_ ?_
    · exact Frame.mk2 k3
    split
    · exact Frame.mk2 (Frame.ofEq2 (by assumption) (allocCells_frame k3))
    · extract_lets +onlyGivenNames -merge -useContext x2
      clear_value x2
      extract_lets +onlyGivenNames -merge -useContext _ x3
      clear_value x3
      exact Frame.mk2 (onPool_frame (Frame.ofEq2 (by assumption) (allocCells_frame k3)))

theorem gather_frame {s u2 : State} {a0} {a1} (k2 : Frame s u2) : Frame s (gather a0 a1 u2) := by
  unfold gather
  extract_lets +onlyGivenNames -merge -useContext x10
  clear_value x10
  extract_lets +onlyGivenNames -merge -useContext x11
  clear_value x11
  extract_lets +onlyGivenNames -merge -useContext x12
  clear_value x12
  extract_lets +onlyGivenNames -merge -useContext x13
  have h13 : ∀ b0 v, Frame s v → Frame s (x13 b0 v) := by
    intro b0 v kv13
    unfold x13
    exact onReasm_frame kv13
  clear_value x13
  extract_lets +onlyGivenNames -merge -useContext x14
  have h14 : ∀ b0 v, Frame s v → Frame s (x14 b0 v) := by
    intro b0 v kv14
    unfold x14
    exact onReasm_frame kv14
  clear_value x14
  extract_lets +onlyGivenNames -merge -useContext x15
  have h15 : ∀ b0 v, Frame s v → Frame s (x15 b0 v) := by
    intro b0 v kv15
    unfold x15
    split
    · exact h13 _ _ (Frame.ofEq2 (by assumption) (growChain_frame kv15))
    · exact h14 _ _ (dropUp_frame (quarFree_frame (Frame.ofEq2 (by assumption) (growChain_frame kv15))))
  clear_value x15
  split
  · exact h15 _ _ (quarFree_frame k2)
  · refine Frame.ite ?_ ?_
    · exact h13 _ _ k2
    refine Frame.ite ?_ ?_
    · exact h13 _ _ (quarFree_frame k2)
    exact h15 _ _ k2
  · refine Frame.ite ?_ ?_
    · exact h13 _ _ k2
    split
    · exact h13 _ _ (Frame.ofEq2 (by assumption) (quarantine_frame k2))
    · exact h14 _ _ (Frame.ofEq2 (by assumption) (quarantine_frame k2))

theorem releaseGood_frame {s u2 : State} {a0} {a1} (k2 : Frame s u2) : Frame s (releaseGood a0 a1 u2) := by
  unfold releaseGood
  split
  · refine Frame.ite ?_ ?_
    · exact releaseSdu_frame k2
    exact gather_frame k2
  · refine Frame.ite ?_ ?_
    · extract_lets +onlyGivenNames -merge -useContext x10
      have h10 : Frame s x10 := dropUp_frame (quarFree_frame k2)
      clear_value x10
      refine Frame.ite ?_ ?_
      · exact onReasm_frame h10
      exact h10
    extract_lets +onlyGivenNames -merge -useContext x11
    have h11 : Frame s x11 := gather_frame k2
    clear_value x11
    split
    · extract_lets +onlyGivenNames -merge -useContext x12
      have h12 : Frame s x12 := onReasm_frame h11
      clear_value x12
      refine Frame.ite ?_ ?_
      · exact h12
      exact releaseSdu_frame h12
    · exact h11

theorem releaseBad_frame {s u2 : State} {a0} {a1} (k2 : Frame s u2) : Frame s (releaseBad a0 a1 u2) := by
  unfold releaseBad
  extract_lets +onlyGivenNames -merge -useContext x10
  have h10 : Frame s x10 := spoilSdu_frame (dropOnu_frame (quarFree_frame k2))
  clear_value x10
  refine Frame.ite ?_ ?_
  · exact onReasm_frame h10
  exact h10

theorem decryptRelease_frame {s u1 : State} {a0} (k1 : Frame s u1) : Frame s (decryptRelease a0 u1) := by
  unfold decryptRelease
  split
  · exact k1
  · split
    · exact k1
    · exact releaseGood_frame (onHold_frame k1)
    · exact releaseBad_frame (onHold_frame k1)

theorem decryptVerify_frame {s u2 : State} {a0} {a1} (k2 : Frame s u2) : Frame s (decryptVerify a0 a1 u2) := by
  unfold decryptVerify
  refine Frame.ite ?_ ?_
  · exact k2
  split
  · exact k2
  · extract_lets +onlyGivenNames -merge -useContext x10
    have h10 : Frame s x10 := onHold_frame k2
    clear_value x10
    refine Frame.ite ?_ ?_
    · split
      · refine Frame.ite ?_ ?_
        · exact keySwitch_frame h10
        exact h10
      · exact h10
    exact authFailed_frame h10

theorem reasmTimeout_frame {s u3 : State} {a0} {a1} {a2} (k3 : Frame s u3) : Frame s (reasmTimeout a0 a1 a2 u3) := by
  unfold reasmTimeout
  split
  · exact k3
  · refine Frame.ite ?_ ?_
    · exact k3
    exact bump_frame (spoilSdu_frame k3)

theorem execDecryptRelease_frame {s u1 : State} {a0} (k1 : Frame s u1) : Ran (Frame s) (execDecryptRelease a0 u1) := by
  unfold execDecryptRelease
  refine island_ran (Frame.closed _) ?_ fun u0 k0 => ?_
  · exact k1
  exact decryptRelease_frame k0

theorem execDecryptVerify_frame {s u2 : State} {a0} {a1} (k2 : Frame s u2) : Ran (Frame s) (execDecryptVerify a0 a1 u2) := by
  unfold execDecryptVerify
  refine island_ran (Frame.closed _) ?_ fun u0 k0 => ?_
  · exact k2
  exact decryptVerify_frame k0

theorem execReasmTimeout_frame {s u3 : State} {a0} {a1} {a2} (k3 : Frame s u3) : Ran (Frame s) (execReasmTimeout a0 a1 a2 u3) := by
  unfold execReasmTimeout
  refine island_ran (Frame.closed _) ?_ fun u0 k0 => ?_
  · exact k3
  exact reasmTimeout_frame k0

theorem frameArrive_frame {s u4 : State} {a0} {a1} {a2} {a3} (k4 : Frame s u4) : Frame s (frameArrive a0 a1 a2 a3 u4) := by
  unfold frameArrive
  refine Frame.ite ?_ ?_
  · extract_lets +onlyGivenNames -merge -useContext x10
    clear_value x10
    extract_lets +onlyGivenNames -merge -useContext x11
    clear_value x11
    exact spoilSdu_frame (dropOnu_frame (onuBytesIn_frame (bump_frame k4)))
  exact decryptArrive_frame k4

end Sys2Proof.Machine
end

