-- ==== Sys2Proof/Laws/FrameEm.lean ====
section
/-! SUPPORT. What each operation of Machine/Em.lean leaves alone. -/

namespace Sys2Proof.Machine

theorem setAge_frame {s u4 : State} {a0} {a1} {a2} {a3} (k4 : Frame s u4) : Frame s (setAge a0 a1 a2 a3 u4) := by
  unfold setAge
  exact emWrite_frame (onEm_frame k4)

theorem agerSweep_frame {s u1 : State} {a0} (k1 : Frame s u1) : Frame s (agerSweep a0 u1) := by
  unfold agerSweep
  refine Frame.ite ?_ ?_
  · exact k1
  extract_lets +onlyGivenNames -merge -useContext x10
  have h10 : Frame s x10 := onEm_frame k1
  clear_value x10
  split
  · exact h10
  · refine Frame.ite ?_ ?_
    · exact h10
    refine Frame.ite ?_ ?_
    · exact setAge_frame h10
    refine Frame.ite ?_ ?_
    · exact setAge_frame h10
    extract_lets +onlyGivenNames -merge -useContext x11
    have h11 : Frame s x11 := setAge_frame h10
    clear_value x11
    exact onEm_frame h11

theorem meetHit_frame {s u1 : State} {a0} (k1 : Frame s u1) : Frame s (meetHit a0 u1) := by
  unfold meetHit
  extract_lets +onlyGivenNames -merge -useContext x10
  clear_value x10
  split
  · exact k1
  · exact onEm_frame (State.drawn_frame k1)

theorem conditionalInval_frame {s u2 : State} {a0} {a1} (k2 : Frame s u2) : Frame s (conditionalInval a0 a1 u2) := by
  unfold conditionalInval
  split
  · exact k2
  · refine Frame.ite ?_ ?_
    · exact k2
    extract_lets +onlyGivenNames -merge -useContext x10
    have h10 : Frame s x10 := by
      unfold x10
      refine Frame.ite ?_ ?_
      · exact meetHit_frame k2
      exact k2
    clear_value x10
    extract_lets +onlyGivenNames -merge -useContext x11
    clear_value x11
    extract_lets +onlyGivenNames -merge -useContext x12
    clear_value x12
    extract_lets +onlyGivenNames -merge -useContext x13
    have h13 : Frame s x13 := onEm_frame h10
    clear_value x13
    refine Frame.ite ?_ ?_
    · exact bump_frame (setAge_frame (emWrite_frame h13))
    exact bump_frame (emDelete_frame h13)

theorem emAwait_frame {s u3 : State} {a0} {a1} {a2} (k3 : Frame s u3) : Frame s (emAwait a0 a1 a2 u3).1 := by
  unfold emAwait
  refine Frame.ite1 ?_ ?_
  · exact doneWith_frame k3
  exact waits_frame (onEm_frame k3)

theorem learnRefused_frame {s u1 : State} {a0} (k1 : Frame s u1) : Frame s (learnRefused a0 u1) := by
  unfold learnRefused
  exact bump_frame (onEm_frame k1)

theorem learn_frame {s u1 : State} {a0} (k1 : Frame s u1) : Frame s (learn a0 u1) := by
  unfold learn
  extract_lets +onlyGivenNames -merge -useContext x10
  clear_value x10
  extract_lets +onlyGivenNames -merge -useContext x11
  clear_value x11
  split
  · extract_lets +onlyGivenNames -merge -useContext x12
    have h12 : ∀ v, Frame s v → Frame s (x12 v) := by
      intro v kv12
      unfold x12
      exact onEm_frame kv12
    clear_value x12
    split
    · refine Frame.ite ?_ ?_
      · exact learnRefused_frame k1
      extract_lets +onlyGivenNames -merge -useContext x13
      have h13 : Frame s x13 := h12 _ k1
      clear_value x13
      extract_lets +onlyGivenNames -merge -useContext x14
      clear_value x14
      split
      · exact bump_frame (onOwner_frame (Frame.ofEq2 (by assumption) (emPlace_frame h13)))
      · exact bump_frame (Frame.ofEq2 (by assumption) (emPlace_frame h13))
    · refine Frame.ite ?_ ?_
      · exact bump_frame (h12 _ k1)
      refine Frame.ite ?_ ?_
      · exact h12 _ k1
      refine Frame.ite ?_ ?_
      · exact bump_frame (h12 _ k1)
      refine Frame.ite ?_ ?_
      · exact learnRefused_frame k1
      extract_lets +onlyGivenNames -merge -useContext x15
      clear_value x15
      exact bump_frame (onOwner_frame (onOwner_frame (emPut_frame (h12 _ k1))))

theorem learnTake_frame {s u0 : State} (k0 : Frame s u0) : Frame s (learnTake u0) := by
  unfold learnTake
  split
  · exact k0
  · split
    · exact k0
    · exact learn_frame (onEm_frame k0)

theorem parityRepair_frame {s u3 : State} {a0} {a1} {a2} (k3 : Frame s u3) : Frame s (parityRepair a0 a1 a2 u3) := by
  unfold parityRepair
  extract_lets +onlyGivenNames -merge -useContext x10
  clear_value x10
  extract_lets +onlyGivenNames -merge -useContext x11
  have h11 : Frame s x11 := raiseFault_frame (bump_frame k3)
  clear_value x11
  refine Frame.ite ?_ ?_
  · split
    · exact h11
    · extract_lets +onlyGivenNames -merge -useContext x12
      have h12 : Frame s x12 := onEm_frame h11
      clear_value x12
      exact event_frame (emDelete_frame h12)
  extract_lets +onlyGivenNames -merge -useContext x13
  have h13 : Frame s x13 := onEm_frame h11
  clear_value x13
  split
  · exact emWrite_frame h13
  · exact h13

theorem refillCopy_frame {s u1 : State} {a0} (k1 : Frame s u1) : Frame s (refillCopy a0 u1) := by
  unfold refillCopy
  split
  · exact onEm_frame k1
  · exact onEm_frame k1

theorem writeApply_frame {s u1 : State} {a0} (k1 : Frame s u1) : Frame s (writeApply a0 u1) := by
  unfold writeApply
  refine Frame.ite ?_ ?_
  · exact emSettle_frame (refillCopy_frame k1)
  extract_lets +onlyGivenNames -merge -useContext x0
  clear_value x0
  split
  · exact k1
  · exact emSettle_frame (onEm_frame k1)

theorem execAgerSweep_frame {s u1 : State} {a0} (k1 : Frame s u1) : Ran (Frame s) (execAgerSweep a0 u1) := by
  unfold execAgerSweep
  refine island_ran (Frame.closed _) ?_ fun u0 k0 => ?_
  · exact k1
  exact agerSweep_frame k0

theorem execConditionalInvalidation_frame {s u2 : State} {a0} {a1} (k2 : Frame s u2) : Ran (Frame s) (execConditionalInvalidation a0 a1 u2) := by
  unfold execConditionalInvalidation
  refine island_ran (Frame.closed _) ?_ fun u0 k0 => ?_
  · exact k2
  exact conditionalInval_frame k0

theorem execLearnTake_frame {s u0 : State} (k0 : Frame s u0) : Ran (Frame s) (execLearnTake u0) := by
  unfold execLearnTake
  refine island_ran (Frame.closed _) ?_ fun u0 k0 => ?_
  · exact k0
  exact learnTake_frame k0

theorem execParityRepair_frame {s u3 : State} {a0} {a1} {a2} (k3 : Frame s u3) : Ran (Frame s) (execParityRepair a0 a1 a2 u3) := by
  unfold execParityRepair
  refine island_ran (Frame.closed _) ?_ fun u0 k0 => ?_
  · exact k3
  exact parityRepair_frame k0

theorem execTableDelete_frame {s u3 : State} {a0} {a1} {a2} (k3 : Frame s u3) : Ran (Frame s) (execTableDelete a0 a1 a2 u3) := by
  unfold execTableDelete
  refine kilak_ran (Frame.closed _) ?_ fun u0 k0 => ?_
  · exact k3
  split
  · exact emAwait_frame (emDelete_frame k0)
  · exact deny_frame k0

theorem execTableFlushByPort_frame {s u5 : State} {a0} {a1} {a2} {a3} {a4} (k5 : Frame s u5) : Ran (Frame s) (execTableFlushByPort a0 a1 a2 a3 a4 u5) := by
  unfold execTableFlushByPort
  refine kilak_ran (Frame.closed _) ?_ fun u10 k10 => ?_
  · exact k5
  refine Frame.ite1 ?_ ?_
  · exact deny_frame k10
  split
  · refine emAwait_frame ?_
    refine Frame.ite ?_ ?_
    · exact Frame.ofEq2 (by assumption) (deleteAll_frame k10)
    exact onEm_frame (Frame.ofEq2 (by assumption) (deleteAll_frame k10))

theorem execTableInsert_frame {s u2 : State} {a0} {a1} (k2 : Frame s u2) : Ran (Frame s) (execTableInsert a0 a1 u2) := by
  unfold execTableInsert
  refine kilak_ran (Frame.closed _) ?_ fun u0 k0 => ?_
  · exact k2
  refine Frame.ite1 ?_ ?_
  · exact deny_frame k0
  split
  · extract_lets +onlyGivenNames -merge -useContext x1
    have h1 : Frame s x1 := by
      refine Frame.ite ?_ ?_
      · exact onOwner_frame k0
      exact k0
    clear_value x1
    exact emAwait_frame (emPut_frame h1)
  · split
    · exact emAwait_frame (Frame.ofEq2 (by assumption) (emPlace_frame k0))
    · exact Frame.mk1 (bump_frame (Frame.ofEq2 (by assumption) (emPlace_frame k0)))

theorem execTableNext_frame {s u3 : State} {a0} {a1} {a2} (k3 : Frame s u3) : Ran (Frame s) (execTableNext a0 a1 a2 u3) := by
  unfold execTableNext
  refine kilak_ran (Frame.closed _) ?_ fun u0 k0 => ?_
  · exact k3
  split
  · exact deny_frame k0
  · refine Frame.ite1 ?_ ?_
    · exact deny_frame k0
    extract_lets +onlyGivenNames -merge -useContext x1
    clear_value x1
    extract_lets +onlyGivenNames -merge -useContext x2
    clear_value x2
    extract_lets +onlyGivenNames -merge -useContext x3
    clear_value x3
    refine Frame.ite1 ?_ ?_
    · exact Frame.mk1 (closeWalk_frame k0)
    extract_lets +onlyGivenNames -merge -useContext x4
    clear_value x4
    extract_lets +onlyGivenNames -merge -useContext x5
    clear_value x5
    exact doneWith_frame (onEm_frame k0)

theorem execTableSearch_frame {s u4 : State} {a0} {a1} {a2} {a3} (k4 : Frame s u4) : Ran (Frame s) (execTableSearch a0 a1 a2 a3 u4) := by
  unfold execTableSearch
  refine kilak_ran (Frame.closed _) ?_ fun u0 k0 => ?_
  · exact k4
  refine Frame.ite1 ?_ ?_
  · exact deny_frame k0
  split
  · exact doneWith_frame k0
  · exact deny_frame k0

theorem execTableStats_frame {s u3 : State} {a0} {a1} {a2} (k3 : Frame s u3) : Ran (Frame s) (execTableStats a0 a1 a2 u3) := by
  unfold execTableStats
  refine kilak_ran (Frame.closed _) ?_ fun u0 k0 => ?_
  · exact k3
  extract_lets +onlyGivenNames -merge -useContext x1
  clear_value x1
  extract_lets +onlyGivenNames -merge -useContext x2
  clear_value x2
  refine Frame.ite1 ?_ ?_
  · exact doneWith_frame k0
  exact doneWith_frame k0

theorem execTableWalkClose_frame {s u2 : State} {a0} {a1} (k2 : Frame s u2) : Ran (Frame s) (execTableWalkClose a0 a1 u2) := by
  unfold execTableWalkClose
  refine kilak_ran (Frame.closed _) ?_ fun u0 k0 => ?_
  · exact k2
  exact done_frame (closeWalk_frame k0)

theorem execTableWalkOpen_frame {s u3 : State} {a0} {a1} {a2} (k3 : Frame s u3) : Ran (Frame s) (execTableWalkOpen a0 a1 a2 u3) := by
  unfold execTableWalkOpen
  refine kilak_ran (Frame.closed _) ?_ fun u0 k0 => ?_
  · exact k3
  split
  · exact deny_frame k0
  · extract_lets +onlyGivenNames -merge -useContext x1
    clear_value x1
    exact doneWith_frame (onEm_frame k0)

theorem execTableWalkTimeout_frame {s u1 : State} {a0} (k1 : Frame s u1) : Ran (Frame s) (execTableWalkTimeout a0 u1) := by
  unfold execTableWalkTimeout
  refine island_ran (Frame.closed _) ?_ fun u0 k0 => ?_
  · exact k1
  split
  · refine Frame.ite ?_ ?_
    · exact closeWalk_frame k0
    exact k0
  · exact k0

theorem execTableWriteApply_frame {s u1 : State} {a0} (k1 : Frame s u1) : Ran (Frame s) (execTableWriteApply a0 u1) := by
  unfold execTableWriteApply
  refine island_ran (Frame.closed _) ?_ fun u0 k0 => ?_
  · exact k1
  exact writeApply_frame k0

end Sys2Proof.Machine
end

