-- ==== Sys2Proof/Laws/FrameFacet.lean ====
section
/-! SUPPORT. What each operation of Machine/Facet.lean leaves alone. -/

namespace Sys2Proof.Machine

theorem epochBoundary_frame {s u1 : State} {a0} (k1 : Frame s u1) : Frame s (epochBoundary a0 u1) := by
  unfold epochBoundary
  extract_lets +onlyGivenNames -merge -useContext x0
  clear_value x0
  split
  · exact k1
  · refine Frame.ite ?_ ?_
    · exact k1
    split
    · exact complete_frame (bump_frame (onFacet_frame k1))
    · exact onFacet_frame k1

theorem epochDrain_frame {s u1 : State} {a0} (k1 : Frame s u1) : Frame s (epochDrain a0 u1) := by
  unfold epochDrain
  extract_lets +onlyGivenNames -merge -useContext x0
  clear_value x0
  split
  · exact k1
  · refine Frame.ite ?_ ?_
    · exact k1
    exact complete_frame (onFacet_frame k1)

theorem facetDelete_frame {s u3 : State} {a0} {a1} {a2} (k3 : Frame s u3) : Frame s (facetDelete a0 a1 a2 u3).1 := by
  unfold facetDelete
  extract_lets +onlyGivenNames -merge -useContext x0
  clear_value x0
  split
  · exact deny_frame k3
  · extract_lets +onlyGivenNames -merge -useContext x1
    clear_value x1
    extract_lets +onlyGivenNames -merge -useContext x2
    clear_value x2
    exact done_frame (onFacet_frame k3)

theorem facetInsert_frame {s u5 : State} {a0} {a1} {a2} {a3} {a4} (k5 : Frame s u5) : Frame s (facetInsert a0 a1 a2 a3 a4 u5).1 := by
  unfold facetInsert
  refine Frame.ite1 ?_ ?_
  · exact deny_frame k5
  split
  · exact deny_frame k5
  · exact doneWith_frame (onFacet_frame k5)

theorem facetLoad_frame {s u3 : State} {a0} {a1} {a2} (k3 : Frame s u3) : Frame s (facetLoad a0 a1 a2 u3).1 := by
  unfold facetLoad
  extract_lets +onlyGivenNames -merge -useContext x10
  clear_value x10
  extract_lets +onlyGivenNames -merge -useContext x11
  clear_value x11
  extract_lets +onlyGivenNames -merge -useContext x12
  clear_value x12
  extract_lets +onlyGivenNames -merge -useContext x13
  clear_value x13
  refine Frame.ite1 ?_ ?_
  · exact deny_frame k3
  refine Frame.ite1 ?_ ?_
  · exact deny_frame k3
  refine Frame.ite1 ?_ ?_
  · exact deny_frame k3
  extract_lets +onlyGivenNames -merge -useContext x14
  clear_value x14
  extract_lets +onlyGivenNames -merge -useContext x15
  clear_value x15
  exact done_frame (onFacet_frame k3)

theorem facetWrite_frame {s u : State} {sl} {body : State → State × Option Reply}
    (hb : ∀ u, Frame s u → Frame s (body u).1) (k : Frame s u) : Frame s (facetWrite sl body u).1 := by
  unfold facetWrite
  dsimp only
  split
  · exact deny_frame k
  · split
    · exact deny_frame (bump_frame k)
    · exact hb _ k

theorem swapTimeout_frame {s u1 : State} {a0} (k1 : Frame s u1) : Frame s (swapTimeout a0 u1) := by
  unfold swapTimeout
  split
  · exact k1
  · refine Frame.ite ?_ ?_
    · exact k1
    exact complete_frame (onFacet_frame k1)

theorem throttleSample_frame {s u3 : State} {a0} {a1} {a2} (k3 : Frame s u3) : Frame s (throttleSample a0 a1 a2 u3) := by
  unfold throttleSample
  extract_lets +onlyGivenNames -merge -useContext x0
  clear_value x0
  extract_lets +onlyGivenNames -merge -useContext x1
  clear_value x1
  exact bumpBy_frame (bumpBy_frame (onFacet_frame k3))

theorem execFacetEntryDelete_frame {s u4 : State} {a0} {a1} {a2} {a3} (k4 : Frame s u4) : Ran (Frame s) (execFacetEntryDelete a0 a1 a2 a3 u4) := by
  unfold execFacetEntryDelete
  refine kilak_ran (Frame.closed _) ?_ fun u0 k0 => ?_
  · exact k4
  refine facetWrite_frame ?_ ?_
  · intro u1 k1
    exact facetDelete_frame k1
  exact k0

theorem execFacetEntryInsert_frame {s u6 : State} {a0} {a1} {a2} {a3} {a4} {a5} (k6 : Frame s u6) : Ran (Frame s) (execFacetEntryInsert a0 a1 a2 a3 a4 a5 u6) := by
  unfold execFacetEntryInsert
  refine kilak_ran (Frame.closed _) ?_ fun u0 k0 => ?_
  · exact k6
  refine facetWrite_frame ?_ ?_
  · intro u1 k1
    exact facetInsert_frame k1
  exact k0

theorem execFacetEntryRead_frame {s u4 : State} {a0} {a1} {a2} {a3} (k4 : Frame s u4) : Ran (Frame s) (execFacetEntryRead a0 a1 a2 a3 u4) := by
  unfold execFacetEntryRead
  refine kilak_ran (Frame.closed _) ?_ fun u0 k0 => ?_
  · exact k4
  refine Frame.ite1 ?_ ?_
  · exact deny_frame k0
  extract_lets +onlyGivenNames -merge -useContext x1
  clear_value x1
  extract_lets +onlyGivenNames -merge -useContext x2
  clear_value x2
  extract_lets +onlyGivenNames -merge -useContext x3
  clear_value x3
  extract_lets +onlyGivenNames -merge -useContext x4
  clear_value x4
  exact doneWith_frame k0

theorem execFacetEpochBoundary_frame {s u1 : State} {a0} (k1 : Frame s u1) : Ran (Frame s) (execFacetEpochBoundary a0 u1) := by
  unfold execFacetEpochBoundary
  refine Ran.guardBlks ?_
  refine Frame.iteO ?_ ?_
  · exact Ran.next (epochBoundary_frame k1)
  exact Ran.next k1

theorem execFacetEpochDrain_frame {s u1 : State} {a0} (k1 : Frame s u1) : Ran (Frame s) (execFacetEpochDrain a0 u1) := by
  unfold execFacetEpochDrain
  refine Ran.guardBlks ?_
  refine Frame.iteO ?_ ?_
  · exact Ran.next (epochDrain_frame k1)
  exact Ran.next k1

theorem execFacetEpochStatus_frame {s u2 : State} {a0} {a1} (k2 : Frame s u2) : Ran (Frame s) (execFacetEpochStatus a0 a1 u2) := by
  unfold execFacetEpochStatus
  refine kilak_ran (Frame.closed _) ?_ fun u0 k0 => ?_
  · exact k2
  refine Frame.ite1 ?_ ?_
  · exact deny_frame k0
  extract_lets +onlyGivenNames -merge -useContext x1
  clear_value x1
  exact doneWith_frame k0

theorem execFacetImageCommit_frame {s u2 : State} {a0} {a1} (k2 : Frame s u2) : Ran (Frame s) (execFacetImageCommit a0 a1 u2) := by
  unfold execFacetImageCommit
  refine kilak_ran (Frame.closed _) ?_ fun u0 k0 => ?_
  · exact k2
  refine Frame.ite1 ?_ ?_
  · exact deny_frame k0
  refine Frame.ite1 ?_ ?_
  · exact deny_frame k0
  refine Frame.ite1 ?_ ?_
  · exact deny_frame k0
  exact done_frame (onFacet_frame k0)

theorem execFacetImageLoad_frame {s u4 : State} {a0} {a1} {a2} {a3} (k4 : Frame s u4) : Ran (Frame s) (execFacetImageLoad a0 a1 a2 a3 u4) := by
  unfold execFacetImageLoad
  refine kilak_ran (Frame.closed _) ?_ fun u0 k0 => ?_
  · exact k4
  refine facetWrite_frame ?_ ?_
  · intro u1 k1
    exact facetLoad_frame k1
  exact k0

theorem execFacetImageSwap_frame {s u3 : State} {a0} {a1} {a2} (k3 : Frame s u3) : Ran (Frame s) (execFacetImageSwap a0 a1 a2 u3) := by
  unfold execFacetImageSwap
  refine kilak_ran (Frame.closed _) ?_ fun u0 k0 => ?_
  · exact k3
  refine Frame.ite1 ?_ ?_
  · exact deny_frame k0
  refine Frame.ite1 ?_ ?_
  · exact deny_frame k0
  exact waits_frame (onFacet_frame k0)

theorem execFacetImageWithdraw_frame {s u3 : State} {a0} {a1} {a2} (k3 : Frame s u3) : Ran (Frame s) (execFacetImageWithdraw a0 a1 a2 u3) := by
  unfold execFacetImageWithdraw
  refine kilak_ran (Frame.closed _) ?_ fun u0 k0 => ?_
  · exact k3
  refine Frame.ite1 ?_ ?_
  · exact deny_frame k0
  refine Frame.ite1 ?_ ?_
  · exact deny_frame k0
  exact done_frame (onFacet_frame k0)

theorem execFacetSwapTimeout_frame {s u1 : State} {a0} (k1 : Frame s u1) : Ran (Frame s) (execFacetSwapTimeout a0 u1) := by
  unfold execFacetSwapTimeout
  refine island_ran (Frame.closed _) ?_ fun u0 k0 => ?_
  · exact k1
  exact swapTimeout_frame k0

theorem execFacetThrottleSample_frame {s u3 : State} {a0} {a1} {a2} (k3 : Frame s u3) : Ran (Frame s) (execFacetThrottleSample a0 a1 a2 u3) := by
  unfold execFacetThrottleSample
  refine Ran.guardBlks ?_
  refine Frame.iteO ?_ ?_
  · exact Ran.next (throttleSample_frame k3)
  exact Ran.next k3

end Sys2Proof.Machine
end

