-- ==== Sys2Proof/Laws/FrameIngress.lean ====
section
/-! SUPPORT. What each operation of Machine/Ingress.lean leaves alone. -/

namespace Sys2Proof.Machine

theorem facetPass_frame {s u3 : State} {a0} {a1} {a2} (k3 : Frame s u3) : Frame s (facetPass a0 a1 a2 u3) := by
  unfold facetPass
  extract_lets +onlyGivenNames -merge -useContext x0
  clear_value x0
  extract_lets +onlyGivenNames -merge -useContext x1
  clear_value x1
  extract_lets +onlyGivenNames -merge -useContext x2
  clear_value x2
  extract_lets +onlyGivenNames -merge -useContext x3
  have h3 : Frame s x3 := by
    refine Frame.ite ?_ ?_
    · exact k3
    exact onInFlight_frame k3
  clear_value x3
  extract_lets +onlyGivenNames -merge -useContext x4
  clear_value x4
  extract_lets +onlyGivenNames -merge -useContext x5
  clear_value x5
  extract_lets +onlyGivenNames -merge -useContext x6
  clear_value x6
  extract_lets +onlyGivenNames -merge -useContext x7
  clear_value x7
  extract_lets +onlyGivenNames -merge -useContext x8
  clear_value x8
  split
  · extract_lets +onlyGivenNames -merge -useContext x9
    clear_value x9
    split
    · refine forward_frame ?_
      refine Frame.ofEq2 (by assumption) ?_
      split
      · exact Frame.mk2 h3
      · exact Frame.mk2 (bump_frame h3)
    · refine cascade_frame ?_
      refine Frame.ofEq2 (by assumption) ?_
      split
      · exact Frame.mk2 h3
      · exact Frame.mk2 (bump_frame h3)
    · refine recirc_frame ?_
      refine Frame.ofEq2 (by assumption) ?_
      split
      · exact Frame.mk2 h3
      · exact Frame.mk2 (bump_frame h3)
    · refine finish_frame ?_
      refine Frame.ofEq2 (by assumption) ?_
      split
      · exact Frame.mk2 h3
      · exact Frame.mk2 (bump_frame h3)

theorem noFirst_frame {s u2 : State} {a0} {a1} (k2 : Frame s u2) : Frame s (noFirst a0 a1 u2) := by
  unfold noFirst
  split
  · exact bump_frame (dropPkt_frame k2)
  · exact bump_frame (puntPkt_frame k2)
  · exact facetPass_frame k2

theorem laterFragment_frame {s u3 : State} {a0} {a1} {a2} (k3 : Frame s u3) : Frame s (laterFragment a0 a1 a2 u3) := by
  unfold laterFragment
  extract_lets +onlyGivenNames -merge -useContext x0
  clear_value x0
  split
  · extract_lets +onlyGivenNames -merge -useContext x1
    have h1 : Frame s x1 := onCls_frame k3
    clear_value x1
    exact conclude_frame h1
  · extract_lets +onlyGivenNames -merge -useContext x2
    clear_value x2
    refine Frame.ite ?_ ?_
    · exact noFirst_frame (bump_frame k3)
    extract_lets +onlyGivenNames -merge -useContext x3
    clear_value x3
    extract_lets +onlyGivenNames -merge -useContext x4
    have h4 : Frame s x4 := by
      unfold x4
      split
      · exact handOver_frame k3
      · exact k3
    clear_value x4
    exact bump_frame (onCls_frame h4)

theorem lengthConflict_frame {s u2 : State} {a0} {a1} (k2 : Frame s u2) : Frame s (lengthConflict a0 a1 u2) := by
  unfold lengthConflict
  extract_lets +onlyGivenNames -merge -useContext x0
  have h0 : Frame s x0 := by
    refine Frame.ite ?_ ?_
    · exact onInFlight_frame k2
    exact k2
  clear_value x0
  refine Frame.ite ?_ ?_
  · exact puntPkt_frame h0
  exact bump_frame (dropPkt_frame h0)

theorem classify_frame {s u2 : State} {a0} {a1} (k2 : Frame s u2) : Frame s (classify a0 a1 u2) := by
  unfold classify
  extract_lets +onlyGivenNames -merge -useContext x0
  clear_value x0
  refine Frame.ite ?_ ?_
  · exact lengthConflict_frame k2
  extract_lets +onlyGivenNames -merge -useContext x1
  have h1 : Frame s x1 := by
    refine Frame.ite ?_ ?_
    · exact bump_frame k2
    exact k2
  clear_value x1
  refine Frame.ite ?_ ?_
  · exact laterFragment_frame h1
  exact facetPass_frame h1

theorem fragExpiry_frame {s u2 : State} {a0} {a1} (k2 : Frame s u2) : Frame s (fragExpiry a0 a1 u2) := by
  unfold fragExpiry
  split
  · exact k2
  · refine Frame.ite ?_ ?_
    · exact onCls_frame k2
    exact k2

theorem holdTimeout_frame {s u1 : State} {a0} (k1 : Frame s u1) : Frame s (holdTimeout a0 u1) := by
  unfold holdTimeout
  extract_lets +onlyGivenNames -merge -useContext x10
  clear_value x10
  split
  · exact k1
  · extract_lets +onlyGivenNames -merge -useContext x11
    clear_value x11
    extract_lets +onlyGivenNames -merge -useContext x12
    have h12 : Frame s x12 := onCls_frame k1
    clear_value x12
    extract_lets +onlyGivenNames -merge -useContext x13
    have h13 : Frame s x13 := by
      unfold x13
      split
      · exact handOver_frame h12
      · exact h12
    clear_value x13
    exact noFirst_frame h13

theorem ingressPass_frame {s u1 : State} {a0} (k1 : Frame s u1) : Frame s (ingressPass a0 u1) := by
  unfold ingressPass
  split
  · exact classify_frame (onCls_frame k1)
  · split
    · exact classify_frame (Frame.ofEq2 (by assumption) (takeIn_frame (onCls_frame k1)))
    · exact Frame.ofEq2 (by assumption) (takeIn_frame (onCls_frame k1))
  · exact k1

theorem uplinkArrival_frame {s u3 : State} {a0} {a1} {a2} (k3 : Frame s u3) : Frame s (uplinkArrival a0 a1 a2 u3) := by
  unfold uplinkArrival
  refine Frame.ite ?_ ?_
  · exact k3
  extract_lets +onlyGivenNames -merge -useContext x10
  have h10 : Frame s x10 := bwCount_frame k3
  clear_value x10
  refine Frame.ite ?_ ?_
  · exact h10
  refine Frame.ite ?_ ?_
  · exact bump_frame (countSource_frame h10)
  extract_lets +onlyGivenNames -merge -useContext x11
  clear_value x11
  exact onCls_frame (State.drawn_frame h10)

theorem execFragEntryExpiry_frame {s u2 : State} {a0} {a1} (k2 : Frame s u2) : Ran (Frame s) (execFragEntryExpiry a0 a1 u2) := by
  unfold execFragEntryExpiry
  exact Ran.guardBlks (Ran.next (fragExpiry_frame k2))

theorem execFragHoldTimeout_frame {s u1 : State} {a0} (k1 : Frame s u1) : Ran (Frame s) (execFragHoldTimeout a0 u1) := by
  unfold execFragHoldTimeout
  exact Ran.guardBlks (Ran.next (holdTimeout_frame k1))

theorem execIngressPass_frame {s u1 : State} {a0} (k1 : Frame s u1) : Ran (Frame s) (execIngressPass a0 u1) := by
  unfold execIngressPass
  refine Ran.guardBlks ?_
  refine Frame.iteO ?_ ?_
  · exact Ran.next (ingressPass_frame k1)
  exact Ran.next k1

theorem execUplinkFrameArrival_frame {s u3 : State} {a0} {a1} {a2} (k3 : Frame s u3) : Ran (Frame s) (execUplinkFrameArrival a0 a1 a2 u3) := by
  unfold execUplinkFrameArrival
  refine island_ran (Frame.closed _) ?_ fun u0 k0 => ?_
  · exact k3
  exact uplinkArrival_frame k0

end Sys2Proof.Machine
end

