-- ==== Sys2Proof/Laws/FrameLedger.lean ====
section
/-! SUPPORT. What each operation of Machine/Ledger.lean leaves alone. -/

namespace Sys2Proof.Machine

theorem closeBalance_frame {s u3 : State} {a0} {a1} {a2} (k3 : Frame s u3) : Frame s (closeBalance a0 a1 a2 u3) := by
  unfold closeBalance
  extract_lets +onlyGivenNames -merge -useContext x10
  clear_value x10
  split
  · extract_lets +onlyGivenNames -merge -useContext x11
    clear_value x11
    extract_lets +onlyGivenNames -merge -useContext x12
    clear_value x12
    extract_lets +onlyGivenNames -merge -useContext x13
    clear_value x13
    extract_lets +onlyGivenNames -merge -useContext x14
    have h14 : Frame s x14 := onBalance_frame k3
    clear_value x14
    refine Frame.ite ?_ ?_
    · exact raiseFault_frame h14
    exact h14

theorem windowClose_frame {s u0 : State} (k0 : Frame s u0) : Frame s (windowClose u0) := by
  unfold windowClose
  extract_lets +onlyGivenNames -merge -useContext x10
  clear_value x10
  refine Frame.ite ?_ ?_
  · exact k0
  extract_lets +onlyGivenNames -merge -useContext x11
  have h11 : Frame s x11 := by
    unfold x11
    refine Frame.foldl (fun u12 _ k12 => ?_) ?_
    · exact closeBalance_frame k12
    exact k0
  clear_value x11
  exact Frame.mk' h11

end Sys2Proof.Machine
end

