-- ==== Sys2Proof/Laws/FrameMon.lean ====
section
/-! SUPPORT. What each operation of Machine/Mon.lean leaves alone. -/

namespace Sys2Proof.Machine

theorem bwEnd_frame {s u0 : State} (k0 : Frame s u0) : Frame s (bwEnd u0) := by
  unfold bwEnd
  extract_lets +onlyGivenNames -merge -useContext x0
  clear_value x0
  extract_lets +onlyGivenNames -merge -useContext x1
  clear_value x1
  extract_lets +onlyGivenNames -merge -useContext x2
  clear_value x2
  exact Frame.mk' k0

theorem containFault_frame {s u2 : State} {a0} {a1} (k2 : Frame s u2) : Frame s (containFault a0 a1 u2) := by
  unfold containFault
  extract_lets +onlyGivenNames -merge -useContext x10
  clear_value x10
  refine Frame.ite ?_ ?_
  · exact withdrawClaims_frame k2
  refine Frame.ite ?_ ?_
  · extract_lets +onlyGivenNames -merge -useContext x11
    clear_value x11
    extract_lets +onlyGivenNames -merge -useContext x12
    have h12 : Frame s x12 := Frame.mk' k2
    clear_value x12
    split
    · exact eccDrop_frame h12
    · exact h12
  refine Frame.ite ?_ ?_
  · extract_lets +onlyGivenNames -merge -useContext x13
    clear_value x13
    exact onPool_frame (State.drawn_frame k2)
  refine Frame.ite ?_ ?_
  · exact bump_frame (Frame.mk' k2)
  refine Frame.ite ?_ ?_
  · exact Frame.mk' k2
  exact k2

theorem detectFaults_frame {s u2 : State} {a0} {a1} (k2 : Frame s u2) : Frame s (detectFaults a0 a1 u2) := by
  unfold detectFaults
  extract_lets +onlyGivenNames -merge -useContext x0
  clear_value x0
  refine Frame.ite ?_ ?_
  · exact k2
  refine Frame.foldl (fun u1 _ k1 => ?_) ?_
  · exact containFault_frame k1
  exact recordFaults_frame k2

theorem faultInject_frame {s u3 : State} {a0} {a1} {a2} (k3 : Frame s u3) : Frame s (faultInject a0 a1 a2 u3) := by
  unfold faultInject
  extract_lets +onlyGivenNames -merge -useContext x0
  clear_value x0
  extract_lets +onlyGivenNames -merge -useContext x1
  clear_value x1
  extract_lets +onlyGivenNames -merge -useContext x2
  clear_value x2
  extract_lets +onlyGivenNames -merge -useContext x3
  clear_value x3
  refine Frame.ite ?_ ?_
  · exact k3
  extract_lets +onlyGivenNames -merge -useContext x4
  have h4 : Frame s x4 := by
    refine Frame.foldl (fun u5 _ k5 => ?_) ?_
    · exact containFault_frame k5
    exact recordFaults_frame k3
  clear_value x4
  refine Frame.ite ?_ ?_
  · exact withdrawClaims_frame h4
  exact h4

theorem execBwWindowEnd_frame {s u0 : State} (k0 : Frame s u0) : Ran (Frame s) (execBwWindowEnd u0) := by
  unfold execBwWindowEnd
  refine island_ran (Frame.closed _) ?_ fun u0 k0 => ?_
  · exact k0
  exact bwEnd_frame k0

theorem execBwWindowRead_frame {s u4 : State} {a0} {a1} {a2} {a3} (k4 : Frame s u4) : Ran (Frame s) (execBwWindowRead a0 a1 a2 a3 u4) := by
  unfold execBwWindowRead
  refine kilak_ran (Frame.closed _) ?_ fun u0 k0 => ?_
  · exact k4
  refine Frame.ite1 ?_ ?_
  · exact deny_frame k0
  extract_lets +onlyGivenNames -merge -useContext x1
  clear_value x1
  extract_lets +onlyGivenNames -merge -useContext x2
  clear_value x2
  extract_lets +onlyGivenNames -merge -useContext x3
  clear_value x3
  exact doneWith_frame (Frame.mk' k0)

theorem execBwWindowSet_frame {s u2 : State} {a0} {a1} (k2 : Frame s u2) : Ran (Frame s) (execBwWindowSet a0 a1 u2) := by
  unfold execBwWindowSet
  refine kilak_ran (Frame.closed _) ?_ fun u0 k0 => ?_
  · exact k2
  refine Frame.ite1 ?_ ?_
  · exact deny_frame k0
  exact done_frame (Frame.mk' k0)

theorem execFaultDetect_frame {s u2 : State} {a0} {a1} (k2 : Frame s u2) : Ran (Frame s) (execFaultDetect a0 a1 u2) := by
  unfold execFaultDetect
  refine windowAccess_ran (Frame.closed _) ?_ fun u0 k0 => ?_
  · exact k2
  exact detectFaults_frame k0

theorem execFaultFirstClear_frame {s u3 : State} {a0} {a1} {a2} (k3 : Frame s u3) : Ran (Frame s) (execFaultFirstClear a0 a1 a2 u3) := by
  unfold execFaultFirstClear
  refine windowAccess_ran (Frame.closed _) ?_ fun u0 k0 => ?_
  · exact k3
  refine detectFaults_frame ?_
  refine Frame.ite ?_ ?_
  · exact onWindow_frame k0
  exact k0

theorem execFaultInjectWrite_frame {s u3 : State} {a0} {a1} {a2} (k3 : Frame s u3) : Ran (Frame s) (execFaultInjectWrite a0 a1 a2 u3) := by
  unfold execFaultInjectWrite
  refine windowAccess_ran (Frame.closed _) ?_ fun u0 k0 => ?_
  · exact k3
  exact faultInject_frame k0

theorem execFaultMaskWrite_frame {s u3 : State} {a0} {a1} {a2} (k3 : Frame s u3) : Ran (Frame s) (execFaultMaskWrite a0 a1 a2 u3) := by
  unfold execFaultMaskWrite
  refine windowAccess_ran (Frame.closed _) ?_ fun u0 k0 => ?_
  · exact k3
  exact onWindow_frame (detectFaults_frame k0)

theorem execFaultStatusClear_frame {s u3 : State} {a0} {a1} {a2} (k3 : Frame s u3) : Ran (Frame s) (execFaultStatusClear a0 a1 a2 u3) := by
  unfold execFaultStatusClear
  refine windowAccess_ran (Frame.closed _) ?_ fun u0 k0 => ?_
  · exact k3
  exact onWindow_frame (detectFaults_frame k0)

theorem execFaultSummary_frame {s u3 : State} {a0} {a1} {a2} (k3 : Frame s u3) : Ran (Frame s) (execFaultSummary a0 a1 a2 u3) := by
  unfold execFaultSummary
  refine kilak_ran (Frame.closed _) ?_ fun u0 k0 => ?_
  · exact k3
  refine Frame.ite1 ?_ ?_
  · exact deny_frame k0
  exact doneWith_frame k0

theorem execHistogramClear_frame {s u2 : State} {a0} {a1} (k2 : Frame s u2) : Ran (Frame s) (execHistogramClear a0 a1 u2) := by
  unfold execHistogramClear
  refine kilak_ran (Frame.closed _) ?_ fun u0 k0 => ?_
  · exact k2
  split
  · exact deny_frame k0
  · exact done_frame (Frame.mk' k0)

theorem execHistogramConfig_frame {s u3 : State} {a0} {a1} {a2} (k3 : Frame s u3) : Ran (Frame s) (execHistogramConfig a0 a1 a2 u3) := by
  unfold execHistogramConfig
  refine kilak_ran (Frame.closed _) ?_ fun u0 k0 => ?_
  · exact k3
  refine Frame.ite1 ?_ ?_
  · exact deny_frame k0
  split
  · exact deny_frame k0
  · exact doneWith_frame (bindUnit_frame k0)

theorem execHistogramRead_frame {s u2 : State} {a0} {a1} (k2 : Frame s u2) : Ran (Frame s) (execHistogramRead a0 a1 u2) := by
  unfold execHistogramRead
  refine kilak_ran (Frame.closed _) ?_ fun u0 k0 => ?_
  · exact k2
  split
  · exact deny_frame k0
  · exact doneWith_frame k0

theorem execHistogramRelease_frame {s u2 : State} {a0} {a1} (k2 : Frame s u2) : Ran (Frame s) (execHistogramRelease a0 a1 u2) := by
  unfold execHistogramRelease
  refine kilak_ran (Frame.closed _) ?_ fun u0 k0 => ?_
  · exact k2
  split
  · exact deny_frame k0
  · exact done_frame (Frame.mk' k0)

theorem execLedgerAudit_frame {s u4 : State} {a0} {a1} {a2} {a3} (k4 : Frame s u4) : Ran (Frame s) (execLedgerAudit a0 a1 a2 a3 u4) := by
  unfold execLedgerAudit
  refine kilak_ran (Frame.closed _) ?_ fun u0 k0 => ?_
  · exact k4
  refine Frame.ite1 ?_ ?_
  · exact deny_frame k0
  extract_lets +onlyGivenNames -merge -useContext x1
  clear_value x1
  extract_lets +onlyGivenNames -merge -useContext x2
  clear_value x2
  extract_lets +onlyGivenNames -merge -useContext x3
  clear_value x3
  exact Frame.mk1 k0

theorem execLedgerWindowClose_frame {s u0 : State} (k0 : Frame s u0) : Ran (Frame s) (execLedgerWindowClose u0) := by
  unfold execLedgerWindowClose
  refine island_ran (Frame.closed _) ?_ fun u0 k0 => ?_
  · exact k0
  exact windowClose_frame k0

theorem execSampleConfig_frame {s u4 : State} {a0} {a1} {a2} {a3} (k4 : Frame s u4) : Ran (Frame s) (execSampleConfig a0 a1 a2 a3 u4) := by
  unfold execSampleConfig
  refine kilak_ran (Frame.closed _) ?_ fun u0 k0 => ?_
  · exact k4
  refine Frame.ite1 ?_ ?_
  · exact deny_frame k0
  refine Frame.ite1 ?_ ?_
  · exact deny_frame k0
  extract_lets +onlyGivenNames -merge -useContext x1
  clear_value x1
  exact done_frame (Frame.mk' k0)

theorem execSampleRead_frame {s u3 : State} {a0} {a1} {a2} (k3 : Frame s u3) : Ran (Frame s) (execSampleRead a0 a1 a2 u3) := by
  unfold execSampleRead
  refine kilak_ran (Frame.closed _) ?_ fun u0 k0 => ?_
  · exact k3
  refine Frame.ite1 ?_ ?_
  · exact deny_frame k0
  split
  · exact deny_frame k0
  · exact doneWith_frame k0

theorem execSampleStart_frame {s u1 : State} {a0} (k1 : Frame s u1) : Ran (Frame s) (execSampleStart a0 u1) := by
  unfold execSampleStart
  refine kilak_ran (Frame.closed _) ?_ fun u0 k0 => ?_
  · exact k1
  refine Frame.ite1 ?_ ?_
  · exact deny_frame k0
  exact done_frame (Frame.mk' k0)

theorem execSampleStop_frame {s u1 : State} {a0} (k1 : Frame s u1) : Ran (Frame s) (execSampleStop a0 u1) := by
  unfold execSampleStop
  refine kilak_ran (Frame.closed _) ?_ fun u0 k0 => ?_
  · exact k1
  refine Frame.ite1 ?_ ?_
  · exact deny_frame k0
  exact done_frame (Frame.mk' k0)

end Sys2Proof.Machine
end

