-- ==== Sys2Proof/Laws/FrameRx.lean ====
section
/-! SUPPORT. What each operation of Machine/Rx.lean leaves alone. -/

namespace Sys2Proof.Machine

theorem rxCount_frame {s u4 : State} {a0} {a1} {a2} {a3} (k4 : Frame s u4) : Frame s (rxCount a0 a1 a2 a3 u4) := by
  unfold rxCount
  exact bumpBy_frame k4

theorem seedMiss_frame {s u2 : State} {a0} {a1} (k2 : Frame s u2) : Frame s (seedMiss a0 a1 u2) := by
  unfold seedMiss
  extract_lets +onlyGivenNames -merge -useContext x0
  have h0 : Frame s x0 := bump_frame k2
  clear_value x0
  exact Frame.mk' h0

theorem onRxCh_frame {s u2 : State} {a0} {a1} (k2 : Frame s u2) : Frame s (onRxCh a0 a1 u2) := by
  unfold onRxCh
  exact Frame.mk' k2

theorem ladderBurst_frame {s u3 : State} {a0} {a1} {a2} (k3 : Frame s u3) : Frame s (ladderBurst a0 a1 a2 u3) := by
  unfold ladderBurst
  exact onOnu_frame k3

theorem confirmLost_frame {s u2 : State} {a0} {a1} (k2 : Frame s u2) : Frame s (confirmLost a0 a1 u2) := by
  unfold confirmLost
  split
  · refine Frame.ite ?_ ?_
    · exact confirmMiss_frame k2
    refine Frame.ite ?_ ?_
    · exact tuneBack_frame k2
    exact k2
  · exact k2

theorem phaseWrite_frame {s u4 : State} {a0} {a1} {a2} {a3} (k4 : Frame s u4) : Frame s (phaseWrite a0 a1 a2 a3 u4) := by
  unfold phaseWrite
  extract_lets +onlyGivenNames -merge -useContext x10
  clear_value x10
  extract_lets +onlyGivenNames -merge -useContext x11
  clear_value x11
  extract_lets +onlyGivenNames -merge -useContext x12
  clear_value x12
  extract_lets +onlyGivenNames -merge -useContext x13
  clear_value x13
  exact Frame.mk' k4

theorem onRxOnu_frame {s u3 : State} {a0} {a1} {a2} (k3 : Frame s u3) : Frame s (onRxOnu a0 a1 a2 u3) := by
  unfold onRxOnu
  exact Frame.mk' k3

theorem containerHole_frame {s u1 : State} {a0} {a1} {a2} (k1 : Frame s u1) : Frame s (containerHole a0 a1 a2 u1) := by
  unfold containerHole
  refine Frame.foldl (fun u0 _ k0 => ?_) ?_
  · exact tribBytes_frame k0
  exact k1

theorem endBurst_frame {s u5 : State} {a0} {a1} {a2} {a3} {a4} (k5 : Frame s u5) : Frame s (endBurst a0 a1 a2 a3 a4 u5) := by
  unfold endBurst
  extract_lets +onlyGivenNames -merge -useContext x0
  have h0 : Frame s x0 := rxCount_frame k5
  clear_value x0
  extract_lets +onlyGivenNames -merge -useContext x1
  have h1 : Frame s x1 := by
    unfold x1
    split
    · exact rxCount_frame h0
    · exact h0
  clear_value x1
  extract_lets +onlyGivenNames -merge -useContext x2
  have h2 : Frame s x2 := by
    refine Frame.ite ?_ ?_
    · exact h1
    refine onRxOnu_frame (Frame.ite h1 ?_)
    refine Frame.foldl (fun u3 _ k3 => ?_) ?_
    · exact containerHole_frame k3
    exact h1
  clear_value x2
  exact onRxCh_frame h2

theorem rxAlloc_frame {s u8 : State} {a0} {a1} {a2} {a3} {a4} {a5} {a6} {a7} (k8 : Frame s u8) : Frame s (rxAlloc a0 a1 a2 a3 a4 a5 a6 a7 u8) := by
  unfold rxAlloc
  extract_lets +onlyGivenNames -merge -useContext x10
  clear_value x10
  extract_lets +onlyGivenNames -merge -useContext x11
  have h11 : Frame s x11 := by
    unfold x11
    split
    · refine Frame.ite ?_ ?_
      · exact rxCount_frame k8
      refine Frame.ite ?_ ?_
      · exact k8
      exact takeReport_frame k8
    · exact k8
  clear_value x11
  extract_lets +onlyGivenNames -merge -useContext x12
  clear_value x12
  extract_lets +onlyGivenNames -merge -useContext x13
  have h13 : Frame s x13 := rxCount_frame (rxCount_frame (rxCount_frame h11))
  clear_value x13
  extract_lets +onlyGivenNames -merge -useContext x14
  have h14 : Frame s x14 := by
    unfold x14
    refine Frame.ite ?_ ?_
    · exact h13
    refine Frame.foldl (fun u15 _ k15 => ?_) ?_
    · exact tribBytes_frame k15
    exact h13
  clear_value x14
  refine Frame.ite ?_ ?_
  · exact bumpBy_frame h14
  refine Frame.foldl (fun u16 _ k16 => ?_) ?_
  · exact frameArrive_frame (bwCount_frame k16)
  exact h14

theorem spareArrived_frame {s u2 : State} {a0} {a1} (k2 : Frame s u2) : Frame s (spareArrived a0 a1 u2) := by
  unfold spareArrived
  exact todUpdate_frame (onOnu_frame (rebindQueues_frame (bump_frame k2)))

theorem confirmBurst_frame {s u2 : State} {a0} {a1} (k2 : Frame s u2) : Frame s (confirmBurst a0 a1 u2) := by
  unfold confirmBurst
  extract_lets +onlyGivenNames -merge -useContext x10
  clear_value x10
  extract_lets +onlyGivenNames -merge -useContext x11
  have h11 : Frame s x11 := by
    unfold x11
    refine Frame.ite ?_ ?_
    · exact spareForget_frame k2
    exact k2
  clear_value x11
  split
  · exact h11
  · split
    · refine Frame.ite ?_ ?_
      · exact h11
      extract_lets +onlyGivenNames -merge -useContext x12
      have h12 : Frame s x12 := bump_frame (onOnu_frame h11)
      clear_value x12
      refine Frame.ite ?_ ?_
      · exact todUpdate_frame (backToOperation_frame h12)
      exact enterRegistering_frame h12
    · split
      · refine Frame.ite ?_ ?_
        · exact tuneArrived_frame h11
        refine Frame.ite ?_ ?_
        · exact tuneBack_frame h11
        exact h11
      · exact h11
    · refine backToOperation_frame ?_
      refine Frame.ite ?_ ?_
      · exact spareArrived_frame h11
      exact h11
    · refine Frame.ite ?_ ?_
      · exact spareArrived_frame h11
      exact h11
    · refine Frame.ite ?_ ?_
      · exact spareArrived_frame h11
      exact h11
    · refine Frame.ite ?_ ?_
      · exact spareArrived_frame h11
      exact h11
    · refine Frame.ite ?_ ?_
      · exact spareArrived_frame h11
      exact h11
    · exact h11

theorem dropLoads_frame {s u2 : State} {a0} {a1} (k2 : Frame s u2) : Frame s (dropLoads a0 a1 u2) := by
  unfold dropLoads
  exact Frame.mk' k2

theorem rxAllocs_frame {s u7 : State} {a0} {a1} {a2} {a3} {a4} {a5} {a6} (k7 : Frame s u7) : Frame s (rxAllocs a0 a1 a2 a3 a4 a5 a6 u7) := by
  unfold rxAllocs
  split
  · exact k7
  · exact rxAllocs_frame (rxAlloc_frame k7)

theorem burstReception_frame {s u2 : State} {a0} {a1} (k2 : Frame s u2) : Frame s (burstReception a0 a1 u2) := by
  unfold burstReception
  split
  · exact k2
  · extract_lets +onlyGivenNames -merge -useContext x10
    clear_value x10
    extract_lets +onlyGivenNames -merge -useContext x11
    have h11 : Frame s x11 := onMap_frame k2
    clear_value x11
    split
    · extract_lets +onlyGivenNames -merge -useContext x12
      clear_value x12
      extract_lets +onlyGivenNames -merge -useContext x13
      have h13 : Frame s x13 := by
        unfold x13
        refine Frame.ite ?_ ?_
        · exact seedMiss_frame h11
        exact h11
      clear_value x13
      extract_lets +onlyGivenNames -merge -useContext x14
      have h14 : Frame s x14 := by
        unfold x14
        refine Frame.ite ?_ ?_
        · exact bump_frame h13
        exact h13
      clear_value x14
      extract_lets +onlyGivenNames -merge -useContext x15
      have h15 : Frame s x15 := by
        unfold x15
        refine Frame.ite ?_ ?_
        · exact bump_frame h14
        exact h14
      clear_value x15
      extract_lets +onlyGivenNames -merge -useContext x16
      clear_value x16
      extract_lets +onlyGivenNames -merge -useContext x17
      have h17 : Frame s x17 := by
        unfold x17
        refine Frame.ite ?_ ?_
        · exact rxCount_frame (rxCount_frame (rxCount_frame h15))
        exact h15
      clear_value x17
      extract_lets +onlyGivenNames -merge -useContext x18
      have h18 : Frame s x18 := by
        unfold x18
        refine Frame.ite ?_ ?_
        · exact h17
        exact ladderBurst_frame h17
      clear_value x18
      extract_lets +onlyGivenNames -merge -useContext x19
      have h19 : Frame s x19 := endBurst_frame h18
      clear_value x19
      refine Frame.ite ?_ ?_
      · extract_lets +onlyGivenNames -merge -useContext x20
        clear_value x20
        extract_lets +onlyGivenNames -merge -useContext x21
        have h21 : Frame s x21 := dropLoads_frame (phaseWrite_frame h19)
        clear_value x21
        extract_lets +onlyGivenNames -merge -useContext x22
        have h22 : Frame s x22 := onRxOnu_frame h21
        clear_value x22
        extract_lets +onlyGivenNames -merge -useContext x23
        have h23 : Frame s x23 := by
          unfold x23
          refine Frame.ite ?_ ?_
          · exact onRxCh_frame h22
          exact h22
        clear_value x23
        extract_lets +onlyGivenNames -merge -useContext x24
        have h24 : Frame s x24 := rxAllocs_frame h23
        clear_value x24
        refine Frame.ite ?_ ?_
        · exact h24
        exact todMoved_frame (confirmBurst_frame h24)
      refine Frame.ite ?_ ?_
      · exact confirmLost_frame h19
      exact h19

theorem defectEvent_frame {s u7 : State} {a0} {a1} {a2} {a3} {a4} {a5} {a6} (k7 : Frame s u7) : Frame s (defectEvent a0 a1 a2 a3 a4 a5 a6 u7) := by
  unfold defectEvent
  exact event_frame k7

theorem channelReports_frame {s u5 : State} {a0} {a1} {a2} {a3} {a4} (k5 : Frame s u5) : Frame s (channelReports a0 a1 a2 a3 a4 u5) := by
  unfold channelReports
  extract_lets +onlyGivenNames -merge -useContext x0
  have h0 : Frame s x0 := by
    refine Frame.ite ?_ ?_
    · exact k5
    refine defectEvent_frame ?_
    refine Frame.ite ?_ ?_
    · exact bump_frame k5
    exact k5
  clear_value x0
  refine Frame.ite ?_ ?_
  · exact h0
  extract_lets +onlyGivenNames -merge -useContext x1
  have h1 : Frame s x1 := by
    refine defectEvent_frame ?_
    refine Frame.ite ?_ ?_
    · exact bump_frame h0
    exact h0
  clear_value x1
  refine Frame.ite ?_ ?_
  · exact protFail_frame h1
  exact h1

theorem lobAction_frame {s u1 : State} {a0} (k1 : Frame s u1) : Frame s (lobAction a0 u1) := by
  unfold lobAction
  split
  · refine Frame.ite ?_ ?_
    · exact onOnu_frame (ladderInterrupted_frame k1)
    exact k1
  · exact k1

theorem lobAll_frame {s u1 : State} {a0} (k1 : Frame s u1) : Frame s (lobAll a0 u1) := by
  unfold lobAll
  refine Frame.foldl (fun u0 _ k0 => ?_) ?_
  · exact lobAction_frame k0
  exact k1

theorem channelTest_frame {s u2 : State} {a0} {a1} (k2 : Frame s u2) : Frame s (channelTest a0 a1 u2) := by
  unfold channelTest
  extract_lets +onlyGivenNames -merge -useContext x10
  clear_value x10
  extract_lets +onlyGivenNames -merge -useContext x11
  clear_value x11
  extract_lets +onlyGivenNames -merge -useContext x12
  clear_value x12
  extract_lets +onlyGivenNames -merge -useContext x13
  have h13 : Frame s x13 := onRxCh_frame k2
  clear_value x13
  refine Frame.ite ?_ ?_
  · exact h13
  extract_lets +onlyGivenNames -merge -useContext x14
  have h14 : Frame s x14 := event_frame (bump_frame h13)
  clear_value x14
  refine Frame.ite ?_ ?_
  · exact h14
  split
  · exact spareChannel_frame h14
  · exact lobAll_frame h14

theorem evalEnd_frame {s u4 : State} {a0} {a1} {a2} {a3} (k4 : Frame s u4) : Frame s (evalEnd a0 a1 a2 a3 u4) := by
  unfold evalEnd
  extract_lets +onlyGivenNames -merge -useContext x10
  clear_value x10
  extract_lets +onlyGivenNames -merge -useContext x11
  clear_value x11
  split
  · exact k4
  · extract_lets +onlyGivenNames -merge -useContext x12
    have h12 : Frame s x12 := onRxOnu_frame k4
    clear_value x12
    refine Frame.ite ?_ ?_
    · extract_lets +onlyGivenNames -merge -useContext x13
      have h13 : Frame s x13 := bump_frame h12
      clear_value x13
      exact event_frame h13
    exact h12
  · extract_lets +onlyGivenNames -merge -useContext x14
    have h14 : Frame s x14 := onRxOnu_frame k4
    clear_value x14
    refine Frame.ite ?_ ?_
    · extract_lets +onlyGivenNames -merge -useContext x15
      have h15 : Frame s x15 := bump_frame h14
      clear_value x15
      exact event_frame h15
    exact h14
  · extract_lets +onlyGivenNames -merge -useContext x16
    have h16 : Frame s x16 := by
      unfold x16
      refine Frame.ite ?_ ?_
      · exact rxCount_frame k4
      exact k4
    clear_value x16
    refine Frame.ite ?_ ?_
    · exact h16
    exact onRxOnu_frame h16

theorem reportOnu_frame {s u4 : State} {a0} {a1} {a2} {a3} {a4} (k4 : Frame s u4) : Frame s (reportOnu a0 a1 a2 a3 a4 u4) := by
  unfold reportOnu
  extract_lets +onlyGivenNames -merge -useContext x0
  clear_value x0
  refine Frame.foldl (fun u1 _ k1 => ?_) ?_
  · extract_lets +onlyGivenNames -merge -useContext x2
    clear_value x2
    refine Frame.ite ?_ ?_
    · exact k1
    extract_lets +onlyGivenNames -merge -useContext x3
    clear_value x3
    extract_lets +onlyGivenNames -merge -useContext x4
    have h4 : Frame s x4 := onRxOnu_frame k1
    clear_value x4
    extract_lets +onlyGivenNames -merge -useContext x5
    have h5 : Frame s x5 := defectEvent_frame h4
    clear_value x5
    extract_lets +onlyGivenNames -merge -useContext x6
    have h6 : Frame s x6 := by
      refine Frame.ite ?_ ?_
      · exact bump_frame h5
      exact h5
    clear_value x6
    refine Frame.ite ?_ ?_
    · exact h6
    refine Frame.ite ?_ ?_
    · exact lobAction_frame h6
    refine Frame.ite ?_ ?_
    · exact reRange_frame h6
    exact h6
  exact k4

theorem evalOnu_frame {s u5 : State} {a0} {a1} {a2} {a3} {a4} (k5 : Frame s u5) : Frame s (evalOnu a0 a1 a2 a3 a4 u5) := by
  unfold evalOnu
  extract_lets +onlyGivenNames -merge -useContext x0
  clear_value x0
  exact reportOnu_frame (onRxOnu_frame k5)

theorem gaspExpiry_frame {s u1 : State} {a0} (k1 : Frame s u1) : Frame s (gaspExpiry a0 u1) := by
  unfold gaspExpiry
  split
  · exact k1
  · extract_lets +onlyGivenNames -merge -useContext x10
    clear_value x10
    exact Frame.mk' k1

theorem onuRxStats_frame {s u2 : State} {a0} {a1} (k2 : Frame s u2) : Frame s (onuRxStats a0 a1 u2).1 := by
  unfold onuRxStats
  split
  · exact deny_frame k2
  · extract_lets +onlyGivenNames -merge -useContext x0
    clear_value x0
    refine Frame.ite1 ?_ ?_
    · exact deny_frame k2
    extract_lets +onlyGivenNames -merge -useContext x1
    clear_value x1
    extract_lets +onlyGivenNames -merge -useContext x2
    clear_value x2
    extract_lets +onlyGivenNames -merge -useContext x3
    clear_value x3
    exact doneWith_frame (onRxOnu_frame k2)

theorem sdbEnd_frame {s u1 : State} {a0} (k1 : Frame s u1) : Frame s (sdbEnd a0 u1) := by
  unfold sdbEnd
  split
  · exact k1
  · extract_lets +onlyGivenNames -merge -useContext x0
    clear_value x0
    extract_lets +onlyGivenNames -merge -useContext x1
    clear_value x1
    split
    · exact onRxOnu_frame k1
    · refine Frame.ite ?_ ?_
      · exact k1
      extract_lets +onlyGivenNames -merge -useContext x2
      clear_value x2
      extract_lets +onlyGivenNames -merge -useContext x3
      clear_value x3
      extract_lets +onlyGivenNames -merge -useContext x4
      clear_value x4
      extract_lets +onlyGivenNames -merge -useContext x5
      clear_value x5
      exact onRxOnu_frame k1

theorem treeTest_frame {s u2 : State} {a0} {a1} (k2 : Frame s u2) : Frame s (treeTest a0 a1 u2) := by
  unfold treeTest
  extract_lets +onlyGivenNames -merge -useContext x10
  clear_value x10
  extract_lets +onlyGivenNames -merge -useContext x11
  clear_value x11
  extract_lets +onlyGivenNames -merge -useContext x12
  clear_value x12
  extract_lets +onlyGivenNames -merge -useContext x13
  clear_value x13
  extract_lets +onlyGivenNames -merge -useContext x14
  clear_value x14
  extract_lets +onlyGivenNames -merge -useContext x15
  have h15 : Frame s x15 := Frame.mk' k2
  clear_value x15
  extract_lets +onlyGivenNames -merge -useContext x16
  have h16 : Frame s x16 := by
    unfold x16
    refine Frame.ite ?_ ?_
    · exact event_frame h15
    exact h15
  clear_value x16
  refine Frame.ite ?_ ?_
  · exact h16
  extract_lets +onlyGivenNames -merge -useContext x17
  have h17 : Frame s x17 := by
    unfold x17
    refine Frame.ite ?_ ?_
    · exact h16
    exact abandonSpare_frame h16
  clear_value x17
  refine Frame.ite ?_ ?_
  · refine Frame.ite ?_ ?_
    · exact h17
    refine Frame.foldl (fun u18 _ k18 => ?_) ?_
    · exact lobAll_frame k18
    exact h17
  exact protFail_frame h17

theorem upstreamEvaluation_frame {s u1 : State} {a0} (k1 : Frame s u1) : Frame s (upstreamEvaluation a0 u1) := by
  unfold upstreamEvaluation
  split
  · exact k1
  · extract_lets +onlyGivenNames -merge -useContext x10
    clear_value x10
    refine Frame.ite ?_ ?_
    · exact k1
    extract_lets +onlyGivenNames -merge -useContext x11
    clear_value x11
    extract_lets +onlyGivenNames -merge -useContext x12
    have h12 : Frame s x12 := Frame.mk' k1
    clear_value x12
    extract_lets +onlyGivenNames -merge -useContext x13
    clear_value x13
    extract_lets +onlyGivenNames -merge -useContext x14
    clear_value x14
    extract_lets +onlyGivenNames -merge -useContext x15
    have h15 : Frame s x15 := onMap_frame h12
    clear_value x15
    extract_lets +onlyGivenNames -merge -useContext x16
    have h16 : Frame s x16 := by
      unfold x16
      refine Frame.foldl (fun u17 _ k17 => ?_) ?_
      · extract_lets +onlyGivenNames -merge -useContext x18
        have h18 : Frame s x18 := endBurst_frame k17
        clear_value x18
        refine Frame.ite ?_ ?_
        · exact h18
        exact confirmLost_frame h18
      exact h15
    clear_value x16
    extract_lets +onlyGivenNames -merge -useContext x19
    clear_value x19
    extract_lets +onlyGivenNames -merge -useContext x20
    clear_value x20
    extract_lets +onlyGivenNames -merge -useContext x21
    have h21 : Frame s x21 := by
      unfold x21
      refine Frame.ite ?_ ?_
      · exact bump_frame h16
      exact h16
    clear_value x21
    extract_lets +onlyGivenNames -merge -useContext x22
    have h22 : Frame s x22 := by
      unfold x22
      refine Frame.foldl (fun u23 _ k23 => ?_) ?_
      · exact evalEnd_frame k23
      exact h21
    clear_value x22
    extract_lets +onlyGivenNames -merge -useContext x24
    have h24 : Frame s x24 := onRxCh_frame h22
    clear_value x24
    extract_lets +onlyGivenNames -merge -useContext x25
    have h25 : Frame s x25 := channelReports_frame h24
    clear_value x25
    extract_lets +onlyGivenNames -merge -useContext x26
    have h26 : Frame s x26 := by
      unfold x26
      refine Frame.foldl (fun u27 _ k27 => ?_) ?_
      · exact evalOnu_frame k27
      exact h25
    clear_value x26
    exact channelTest_frame (treeTest_frame h26)

theorem execBurstReception_frame {s u2 : State} {a0} {a1} (k2 : Frame s u2) : Ran (Frame s) (execBurstReception a0 a1 u2) := by
  unfold execBurstReception
  refine island_ran (Frame.closed _) ?_ fun u0 k0 => ?_
  · exact k2
  exact burstReception_frame k0

theorem execDyingGaspExpiry_frame {s u1 : State} {a0} (k1 : Frame s u1) : Ran (Frame s) (execDyingGaspExpiry a0 u1) := by
  unfold execDyingGaspExpiry
  refine island_ran (Frame.closed _) ?_ fun u0 k0 => ?_
  · exact k1
  exact gaspExpiry_frame k0

theorem execLanePllLockChange_frame {s u3 : State} {a0} {a1} {a2} (k3 : Frame s u3) : Ran (Frame s) (execLanePllLockChange a0 a1 a2 u3) := by
  unfold execLanePllLockChange
  refine island_ran (Frame.closed _) ?_ fun u0 k0 => ?_
  · exact k3
  extract_lets +onlyGivenNames -merge -useContext x1
  clear_value x1
  exact Frame.mk' k0

theorem execOnuRxStats_frame {s u3 : State} {a0} {a1} {a2} (k3 : Frame s u3) : Ran (Frame s) (execOnuRxStats a0 a1 a2 u3) := by
  unfold execOnuRxStats
  refine kilak_ran (Frame.closed _) ?_ fun u0 k0 => ?_
  · exact k3
  exact onuRxStats_frame k0

theorem setThreshold_frame {s u : State} {g} {v} (k : Frame s u) : Frame s (setThreshold g v u) := by
  unfold setThreshold
  exact Frame.ite (setParam_frame (Frame.mk' k)) (setParam_frame k)

theorem execRxThresholdSet_frame {s u3 : State} {a0} {a1} {a2} (k3 : Frame s u3) : Ran (Frame s) (execRxThresholdSet a0 a1 a2 u3) := by
  unfold execRxThresholdSet
  refine kilak_ran (Frame.closed _) ?_ fun u0 k0 => ?_
  · exact k3
  refine Frame.ite1 ?_ ?_
  · exact deny_frame k0
  refine Frame.ite1 ?_ ?_
  · exact deny_frame k0
  refine done_frame ?_
  exact Frame.foldl (fun u1 _ k1 => setThreshold_frame k1) k0

theorem execSdbIntervalEnd_frame {s u1 : State} {a0} (k1 : Frame s u1) : Ran (Frame s) (execSdbIntervalEnd a0 u1) := by
  unfold execSdbIntervalEnd
  refine island_ran (Frame.closed _) ?_ fun u0 k0 => ?_
  · exact k1
  exact sdbEnd_frame k0

theorem execUpstreamEvaluation_frame {s u1 : State} {a0} (k1 : Frame s u1) : Ran (Frame s) (execUpstreamEvaluation a0 u1) := by
  unfold execUpstreamEvaluation
  refine island_ran (Frame.closed _) ?_ fun u0 k0 => ?_
  · exact k1
  exact upstreamEvaluation_frame k0

end Sys2Proof.Machine
end

