-- ==== Sys2Proof/Laws/FrameParam.lean ====
section
/-! SUPPORT. What each operation of Machine/Param.lean leaves alone. -/

namespace Sys2Proof.Machine

theorem afterRead_frame {s u3 : State} {a0} {a1} {a2} (k3 : Frame s u3) : Frame s (afterRead a0 a1 a2 u3) := by
  unfold afterRead
  exact Frame.ite (Frame.mk' k3) k3

theorem paramGet_frame {s u3 : State} {a0} {a1} {a2} (k3 : Frame s u3) : Frame s (paramGet a0 a1 a2 u3).1 := by
  unfold paramGet
  split
  · exact deny_frame k3
  · refine Frame.ite1 ?_ ?_
    · exact deny_frame k3
    refine Frame.ite1 ?_ ?_
    · exact deny_frame k3
    exact doneWith_frame (afterRead_frame k3)

theorem execParamDescribe_frame {s u2 : State} {a0} {a1} (k2 : Frame s u2) : Ran (Frame s) (execParamDescribe a0 a1 u2) := by
  unfold execParamDescribe
  refine kilak_ran (Frame.closed _) ?_ fun u0 k0 => ?_
  · exact k2
  split
  · exact deny_frame k0
  · exact doneWith_frame k0

theorem execParamGet_frame {s u4 : State} {a0} {a1} {a2} {a3} (k4 : Frame s u4) : Ran (Frame s) (execParamGet a0 a1 a2 a3 u4) := by
  unfold execParamGet
  refine kilak_ran (Frame.closed _) ?_ fun u0 k0 => ?_
  · exact k4
  exact paramGet_frame k0

theorem execParamNext_frame {s u2 : State} {a0} {a1} (k2 : Frame s u2) : Ran (Frame s) (execParamNext a0 a1 u2) := by
  unfold execParamNext
  refine kilak_ran (Frame.closed _) ?_ fun u0 k0 => ?_
  · exact k2
  split
  · exact doneWith_frame k0
  · exact deny_frame k0

end Sys2Proof.Machine
end

