-- ==== Sys2Proof/Laws/FramePf1.lean ====
section
/-! SUPPORT. What each operation of Machine/Pf1.lean leaves alone. -/

namespace Sys2Proof.Machine

theorem flrRings_frame {s u1 : State} {a0} (k1 : Frame s u1) : Frame s (flrRings a0 u1) := by
  unfold flrRings
  extract_lets +onlyGivenNames -merge -useContext x0
  clear_value x0
  extract_lets +onlyGivenNames -merge -useContext x1
  clear_value x1
  extract_lets +onlyGivenNames -merge -useContext x2
  have h2 : Frame s x2 := by
    refine Frame.foldl (fun u3 _ k3 => ?_) ?_
    · exact ringDrop_frame (puntGone_frame k3)
    exact k1
  clear_value x2
  extract_lets +onlyGivenNames -merge -useContext x4
  clear_value x4
  exact Frame.mk' h2

theorem injectArrival_frame {s u1 : State} {a0} (k1 : Frame s u1) : Frame s (injectArrival a0 u1).1 := by
  unfold injectArrival
  extract_lets +onlyGivenNames -merge -useContext x0
  clear_value x0
  refine Frame.ite1 ?_ ?_
  · extract_lets +onlyGivenNames -merge -useContext x1
    clear_value x1
    extract_lets +onlyGivenNames -merge -useContext x2
    clear_value x2
    exact Frame.mk1 (onCls_frame k1)
  split
  · exact Frame.mk1 k1
  · extract_lets +onlyGivenNames -merge -useContext x3
    clear_value x3
    extract_lets +onlyGivenNames -merge -useContext x4
    clear_value x4
    extract_lets +onlyGivenNames -merge -useContext x5
    have h5 : Frame s x5 := onuBytesIn_frame k1
    clear_value x5
    exact Frame.mk1 (onCls_frame h5)

theorem injectOmci_frame {s u1 : State} {a0} (k1 : Frame s u1) : Frame s (injectOmci a0 u1).1 := by
  unfold injectOmci
  split
  · exact Frame.mk1 k1
  · extract_lets +onlyGivenNames -merge -useContext x0
    clear_value x0
    extract_lets +onlyGivenNames -merge -useContext x1
    clear_value x1
    extract_lets +onlyGivenNames -merge -useContext x2
    have h2 : Frame s x2 := onuBytesIn_frame k1
    clear_value x2
    exact Frame.mk1 (Frame.mk' h2)

theorem injectQueue_frame {s u1 : State} {a0} (k1 : Frame s u1) : Frame s (injectQueue a0 u1).1 := by
  unfold injectQueue
  extract_lets +onlyGivenNames -merge -useContext x10
  clear_value x10
  extract_lets +onlyGivenNames -merge -useContext x11
  clear_value x11
  split
  · exact Frame.mk1 k1
  · extract_lets +onlyGivenNames -merge -useContext x12
    clear_value x12
    extract_lets +onlyGivenNames -merge -useContext x13
    clear_value x13
    split
    · exact Frame.mk1 (bump_frame (Frame.ofEq2 (by assumption) (allocChain_frame k1)))
    · extract_lets +onlyGivenNames -merge -useContext x14
      have h14 : Frame s x14 := by
        unfold x14
        refine Frame.ite ?_ ?_
        · exact Frame.ofEq2 (by assumption) (allocChain_frame k1)
        exact onuBytesIn_frame (Frame.ofEq2 (by assumption) (allocChain_frame k1))
      clear_value x14
      extract_lets +onlyGivenNames -merge -useContext x15
      have h15 : Frame s x15 := onChain_frame h14
      clear_value x15
      extract_lets +onlyGivenNames -merge -useContext x16
      clear_value x16
      exact Frame.mk1 (toXbar_frame h15)

theorem injectOne_frame {s u2 : State} {a0} {a1} (k2 : Frame s u2) : Frame s (injectOne a0 a1 u2) := by
  unfold injectOne
  split
  · extract_lets +onlyGivenNames -merge -useContext x0
    clear_value x0
    split
    · extract_lets +onlyGivenNames -merge -useContext x1
      clear_value x1
      refine Frame.mk' ?_
      refine Frame.ofEq1 (by assumption) ?_
      refine Frame.ite1 ?_ ?_
      · exact Frame.mk1 (ringDrop_frame k2)
      split
      · exact injectArrival_frame k2
      · exact injectQueue_frame k2
      · exact injectOmci_frame k2

theorem injectDoorbell_frame {s u3 : State} {a0} {a1} {a2} (k3 : Frame s u3) : Frame s (injectDoorbell a0 a1 a2 u3) := by
  unfold injectDoorbell
  extract_lets +onlyGivenNames -merge -useContext x10
  clear_value x10
  extract_lets +onlyGivenNames -merge -useContext x11
  have h11 : Frame s x11 := Frame.mk' k3
  clear_value x11
  refine Frame.ite ?_ ?_
  · exact k3
  refine Frame.ite ?_ ?_
  · exact h11
  extract_lets +onlyGivenNames -merge -useContext x12
  clear_value x12
  extract_lets +onlyGivenNames -merge -useContext x13
  have h13 : Frame s x13 := h11
  clear_value x13
  refine Frame.foldl (fun u14 _ k14 => ?_) ?_
  · exact injectOne_frame k14
  exact h13

theorem msixWrite_frame {s u4 : State} {a0} {a1} {a2} {a3} (k4 : Frame s u4) : Frame s (msixWrite a0 a1 a2 a3 u4) := by
  unfold msixWrite
  extract_lets +onlyGivenNames -merge -useContext x10
  clear_value x10
  extract_lets +onlyGivenNames -merge -useContext x11
  clear_value x11
  extract_lets +onlyGivenNames -merge -useContext x12
  clear_value x12
  extract_lets +onlyGivenNames -merge -useContext x13
  clear_value x13
  refine Frame.ite ?_ ?_
  · exact Frame.mk' k4
  exact Frame.mk' k4

theorem puntDelivery_frame {s u1 : State} {a0} (k1 : Frame s u1) : Frame s (puntDelivery a0 u1) := by
  unfold puntDelivery
  split
  · exact k1
  · extract_lets +onlyGivenNames -merge -useContext x10
    clear_value x10
    extract_lets +onlyGivenNames -merge -useContext x11
    clear_value x11
    extract_lets +onlyGivenNames -merge -useContext x12
    have h12 : Frame s x12 := Frame.mk' k1
    clear_value x12
    refine Frame.ite ?_ ?_
    · exact eccDrop_frame h12
    extract_lets +onlyGivenNames -merge -useContext x13
    have h13 : Frame s x13 := puntGone_frame h12
    clear_value x13
    extract_lets +onlyGivenNames -merge -useContext x14
    clear_value x14
    extract_lets +onlyGivenNames -merge -useContext x15
    clear_value x15
    refine Frame.ite ?_ ?_
    · exact ringDrop_frame h13
    refine Frame.ite ?_ ?_
    · exact ringDrop_frame h13
    extract_lets +onlyGivenNames -merge -useContext x16
    clear_value x16
    split
    · extract_lets +onlyGivenNames -merge -useContext x17
      clear_value x17
      exact Frame.mk' h13

theorem storeReg_frame {s u4 : State} {a0} {a1} {a2} {a3} (k4 : Frame s u4) : Frame s (storeReg a0 a1 a2 a3 u4) := by
  unfold storeReg
  refine Frame.ite ?_ ?_
  · exact msixWrite_frame k4
  refine Frame.ite ?_ ?_
  · refine Frame.ite ?_ ?_
    · exact Frame.mk' k4
    refine Frame.ite ?_ ?_
    · exact onPort_frame k4
    exact k4
  refine Frame.ite ?_ ?_
  · refine Frame.ite ?_ ?_
    · extract_lets +onlyGivenNames -merge -useContext x0
      clear_value x0
      extract_lets +onlyGivenNames -merge -useContext x1
      clear_value x1
      refine Frame.ite ?_ ?_
      · exact Frame.mk' k4
      exact k4
    exact k4
  refine Frame.ite ?_ ?_
  · extract_lets +onlyGivenNames -merge -useContext x2
    clear_value x2
    exact Frame.mk' k4
  exact k4

theorem registerWrite_frame {s u4 : State} {a0} {a1} {a2} {a3} (k4 : Frame s u4) : Frame s (registerWrite a0 a1 a2 a3 u4) := by
  unfold registerWrite
  refine Frame.ite ?_ ?_
  · exact bump_frame k4
  extract_lets +onlyGivenNames -merge -useContext x0
  have h0 : Frame s x0 := storeReg_frame k4
  clear_value x0
  refine Frame.ite ?_ ?_
  · exact h0
  exact sample_frame h0

theorem execFlrPf1_frame {s u1 : State} {a0} (k1 : Frame s u1) : Ran (Frame s) (execFlrPf1 a0 u1) := by
  unfold execFlrPf1
  refine regAccess_ran (Frame.closed _) ?_ fun u0 k0 => ?_
  · exact k1
  extract_lets +onlyGivenNames -merge -useContext x1
  have h1 : Frame s x1 := flrRings_frame k0
  clear_value x1
  exact Frame.mk' h1

theorem execInjectRingDoorbell_frame {s u3 : State} {a0} {a1} {a2} (k3 : Frame s u3) : Ran (Frame s) (execInjectRingDoorbell a0 a1 a2 u3) := by
  unfold execInjectRingDoorbell
  refine regAccess_ran (Frame.closed _) ?_ fun u0 k0 => ?_
  · exact k3
  exact injectDoorbell_frame k0

theorem execPuntDelivery_frame {s u1 : State} {a0} (k1 : Frame s u1) : Ran (Frame s) (execPuntDelivery a0 u1) := by
  unfold execPuntDelivery
  extract_lets +onlyGivenNames -merge -useContext x10
  clear_value x10
  extract_lets +onlyGivenNames -merge -useContext x11
  clear_value x11
  refine Frame.iteO ?_ ?_
  · exact Ran.fault
  refine Frame.iteO ?_ ?_
  · refine island_ran (Frame.closed _) ?_ fun u12 k12 => ?_
    · exact k1
    exact puntDelivery_frame k12
  exact Ran.next (puntLost_frame k1)

theorem execRegisterWrite_frame {s u4 : State} {a0} {a1} {a2} {a3} (k4 : Frame s u4) : Ran (Frame s) (execRegisterWrite a0 a1 a2 a3 u4) := by
  unfold execRegisterWrite
  refine regAccess_ran (Frame.closed _) ?_ fun u0 k0 => ?_
  · exact k4
  exact registerWrite_frame k0

end Sys2Proof.Machine
end

