-- ==== Sys2Proof/Laws/FrameReset.lean ====
section
/-! SUPPORT. What each operation of Machine/Reset.lean leaves alone. -/

namespace Sys2Proof.Machine

theorem applyPreset_frame {s u1 : State} {a0} (k1 : Frame s u1) : Frame s (applyPreset a0 u1) := by
  unfold applyPreset
  split
  · extract_lets +onlyGivenNames -merge -useContext x0
    clear_value x0
    refine Frame.ite ?_ ?_
    · exact setParam_frame k1
    exact k1
  · exact k1

theorem stopLight_frame {s u0 : State} (k0 : Frame s u0) : Frame s (stopLight u0) := by
  unfold stopLight
  refine Frame.foldl (fun u0 _ k0 => ?_) ?_
  · refine Frame.ite ?_ ?_
    · exact sbSend_frame k0
    exact k0
  exact k0

theorem bexedReady_frame {s u0 : State} (k0 : Frame s u0) : Frame s (bexedReady u0) := by
  unfold bexedReady
  extract_lets +onlyGivenNames -merge -useContext _ _ _ x0
  have h0 : Frame s x0 := Frame.mk' k0
  clear_value x0
  extract_lets +onlyGivenNames -merge -useContext x1
  have h1 : Frame s x1 := by
    refine Frame.foldl (fun u2 _ k2 => ?_) ?_
    · exact event_frame k2
    exact h0
  clear_value x1
  extract_lets +onlyGivenNames -merge -useContext x3
  have h3 : Frame s x3 := by
    refine Frame.ite ?_ ?_
    · exact event_frame h1
    exact h1
  clear_value x3
  exact annAbort_frame (Frame.mk' h3)

theorem blockRelease_frame {s u2 : State} {a0} {a1} (k2 : Frame s u2) : Frame s (blockRelease a0 a1 u2) := by
  unfold blockRelease
  split
  · exact k2
  · refine Frame.ite ?_ ?_
    · exact k2
    refine Frame.ite ?_ ?_
    · extract_lets +onlyGivenNames -merge -useContext x0
      clear_value x0
      exact rebuildBlock_frame (Frame.mk' k2)
    extract_lets +onlyGivenNames -merge -useContext _ x1
    have h1 : Frame s x1 := Frame.mk' k2
    clear_value x1
    exact event_frame (raiseFault_frame h1)

theorem blockReset_frame {s u3 : State} {a0} {a1} {a2} (k3 : Frame s u3) : Frame s (blockReset a0 a1 a2 u3).1 := by
  unfold blockReset
  refine Frame.ite1 ?_ ?_
  · exact deny_frame k3
  refine Frame.ite1 ?_ ?_
  · exact deny_frame k3
  refine Frame.ite1 ?_ ?_
  · exact deny_frame k3
  extract_lets +onlyGivenNames -merge -useContext x0
  clear_value x0
  extract_lets +onlyGivenNames -merge -useContext x1
  have h1 : Frame s x1 := by
    refine Frame.ite ?_ ?_
    · exact annAbort_frame k3
    exact k3
  clear_value x1
  exact waits_frame (clearBlock_frame (Frame.mk' h1))

theorem bootDone_frame {s u0 : State} (k0 : Frame s u0) : Frame s (bootDone u0) := by
  unfold bootDone
  refine Frame.ite ?_ ?_
  · exact k0
  extract_lets +onlyGivenNames -merge -useContext x0
  clear_value x0
  extract_lets +onlyGivenNames -merge -useContext x1
  clear_value x1
  extract_lets +onlyGivenNames -merge -useContext x2
  clear_value x2
  extract_lets +onlyGivenNames -merge -useContext x3
  clear_value x3
  extract_lets +onlyGivenNames -merge -useContext _ _ _ _ _ x4
  have h4 : Frame s x4 := by
    refine Frame.ite ?_ ?_
    · exact Frame.mk' k0
    exact Frame.mk' k0
  clear_value x4
  extract_lets +onlyGivenNames -merge -useContext x5
  have h5 : Frame s x5 := bexedReady_frame h4
  clear_value x5
  refine Frame.ite ?_ ?_
  · exact h5
  exact event_frame h5

theorem drawAllXts_frame {s u0 : State} (k0 : Frame s u0) : Frame s (drawAllXts u0) := by
  unfold drawAllXts
  refine Frame.foldl (fun u0 _ k0 => ?_) ?_
  · refine Frame.ite ?_ ?_
    · exact drawXts_frame k0
    exact k0
  exact k0

theorem loaderWaits_frame {s u0 : State} (k0 : Frame s u0) : Frame s (loaderWaits u0) := by
  unfold loaderWaits
  exact Frame.mk' k0

theorem checkDone_frame {s u1 : State} {a0} (k1 : Frame s u1) : Frame s (checkDone a0 u1) := by
  unfold checkDone
  extract_lets +onlyGivenNames -merge -useContext x10
  clear_value x10
  refine Frame.ite ?_ ?_
  · exact k1
  extract_lets +onlyGivenNames -merge -useContext x11
  clear_value x11
  extract_lets +onlyGivenNames -merge -useContext x12
  clear_value x12
  extract_lets +onlyGivenNames -merge -useContext x13
  have h13 : Frame s x13 := Frame.mk' k1
  clear_value x13
  extract_lets +onlyGivenNames -merge -useContext x14
  have h14 : Frame s x14 := by
    unfold x14
    refine Frame.foldl (fun u15 _ k15 => ?_) ?_
    · exact raiseFault_frame k15
    exact h13
  clear_value x14
  extract_lets +onlyGivenNames -merge -useContext x16
  clear_value x16
  extract_lets +onlyGivenNames -merge -useContext x17
  have h17 : Frame s x17 := Frame.mk' h14
  clear_value x17
  refine Frame.ite ?_ ?_
  · exact newRun_frame (loaderWaits_frame (Frame.mk' h17))
  exact drawAllXts_frame (Frame.mk' h17)

theorem copyInvalid_frame {s u2 : State} {a0} {a1} (k2 : Frame s u2) : Frame s (copyInvalid a0 a1 u2) := by
  unfold copyInvalid
  refine Frame.ite ?_ ?_
  · exact k2
  exact raiseFault_frame (bump_frame k2)

theorem imageLoad_frame {s u2 : State} {a0} {a1} (k2 : Frame s u2) : Frame s (imageLoad a0 a1 u2).1 := by
  unfold imageLoad
  refine Frame.ite1 ?_ ?_
  · exact deny_frame k2
  refine Frame.ite1 ?_ ?_
  · exact deny_frame k2
  exact waits_frame (keQueue_frame k2)

theorem lateClock_frame {s u1 : State} {a0} (k1 : Frame s u1) : Frame s (lateClock a0 u1) := by
  unfold lateClock
  refine Frame.ite ?_ ?_
  · exact k1
  extract_lets +onlyGivenNames -merge -useContext _ x0
  have h0 : Frame s x0 := Frame.mk' k1
  clear_value x0
  split
  · extract_lets +onlyGivenNames -merge -useContext x1
    clear_value x1
    exact rebuildBlock_frame (Frame.mk' h0)
  · extract_lets +onlyGivenNames -merge -useContext x2
    clear_value x2
    exact sweepBlock_frame (rebuildBlock_frame (clearBlock_frame h0))

theorem orphanDone_frame {s u : State} (k : Frame s u) : Frame s (orphanDone u) := by
  unfold orphanDone
  refine Frame.ite k ?_
  dsimp only
  exact Frame.foldl (fun u x h => ledEnd_frame (bump_frame (onPool_frame h))) (Frame.mk' k)

theorem perst1_frame {s u0 : State} (k0 : Frame s u0) : Frame s (perst1 u0) := by
  unfold perst1
  refine Frame.ite ?_ ?_
  · exact k0
  extract_lets +onlyGivenNames -merge -useContext x0
  have h0 : Frame s x0 := flrRings_frame k0
  clear_value x0
  extract_lets +onlyGivenNames -merge -useContext x1
  clear_value x1
  exact Frame.mk' h0

theorem replay_frame {s u1 : State} {a0} (k1 : Frame s u1) : Frame s (replay a0 u1) := by
  unfold replay
  split
  · exact serialNumberOnu_frame k1
  · exact acknowledgement_frame k1
  · exact registration_frame k1
  · exact extCapability_frame k1
  · exact tuningResponse_frame k1
  · exact keyReport_frame k1
  · exact unsupported_frame k1
  · exact unsupported_frame k1
  · exact k1

theorem restart_frame {s u1 : State} {a0} (k1 : Frame s u1) : Frame s (restart a0 u1).1 := by
  unfold restart
  split
  · exact deny_frame k1
  · refine Frame.ite1 ?_ ?_
    · exact deny_frame k1
    refine Frame.ite1 ?_ ?_
    · exact deny_frame k1
    exact waits_frame (Frame.mk' k1)

theorem resume_frame {s u0 : State} (k0 : Frame s u0) : Frame s (resume u0) := by
  unfold resume
  extract_lets +onlyGivenNames -merge -useContext x0
  clear_value x0
  refine Frame.foldl (fun u1 _ k1 => ?_) ?_
  · exact replay_frame k1
  exact Frame.mk' k0

theorem restartTimeout_frame {s u0 : State} (k0 : Frame s u0) : Frame s (restartTimeout u0) := by
  unfold restartTimeout
  split
  · exact k0
  · refine Frame.ite ?_ ?_
    · exact k0
    exact complete_frame (resume_frame k0)

theorem strapSample_frame {s u1 : State} {a0} (k1 : Frame s u1) : Frame s (strapSample a0 u1) := by
  unfold strapSample
  refine Frame.ite ?_ ?_
  · exact Frame.mk' k1
  exact k1

theorem sweepDone_frame {s u1 : State} {a0} (k1 : Frame s u1) : Frame s (sweepDone a0 u1) := by
  unfold sweepDone
  split
  · exact k1
  · extract_lets +onlyGivenNames -merge -useContext _ x0
    have h0 : Frame s x0 := sweepBlock_frame (Frame.mk' k1)
    clear_value x0
    split
    · exact complete_frame (bump_frame h0)
    · exact h0

theorem takeover_frame {s u0 : State} (k0 : Frame s u0) : Frame s (takeover u0) := by
  unfold takeover
  split
  · exact k0
  · refine Frame.ite ?_ ?_
    · exact k0
    extract_lets +onlyGivenNames -merge -useContext x0
    clear_value x0
    extract_lets +onlyGivenNames -merge -useContext x1
    clear_value x1
    extract_lets +onlyGivenNames -merge -useContext _ x2
    have h2 : Frame s x2 := Frame.mk' k0
    clear_value x2
    extract_lets +onlyGivenNames -merge -useContext x3
    have h3 : Frame s x3 := complete_frame (resume_frame h2)
    clear_value x3
    exact event_frame h3

theorem trainingDone_frame {s u0 : State} (k0 : Frame s u0) : Frame s (trainingDone u0) := by
  unfold trainingDone
  refine Frame.ite ?_ ?_
  · exact k0
  extract_lets +onlyGivenNames -merge -useContext _ _ x0
  have h0 : Frame s x0 := Frame.mk' k0
  clear_value x0
  exact drawAllXts_frame h0

theorem execAmpRailRestart_frame {s u0 : State} (k0 : Frame s u0) : Ran (Frame s) (execAmpRailRestart u0) := by
  unfold execAmpRailRestart
  refine island_ran (Frame.closed _) ?_ fun u0 k0 => ?_
  · exact k0
  exact newRun_frame k0

theorem execBexedImageLoad_frame {s u2 : State} {a0} {a1} (k2 : Frame s u2) : Ran (Frame s) (execBexedImageLoad a0 a1 u2) := by
  unfold execBexedImageLoad
  refine kilak_ran (Frame.closed _) ?_ fun u0 k0 => ?_
  · exact k2
  exact imageLoad_frame k0

theorem execBexedRestart_frame {s u1 : State} {a0} (k1 : Frame s u1) : Ran (Frame s) (execBexedRestart a0 u1) := by
  unfold execBexedRestart
  refine kilak_ran (Frame.closed _) ?_ fun u0 k0 => ?_
  · exact k1
  exact restart_frame k0

theorem execBexedRestartTimeout_frame {s u0 : State} (k0 : Frame s u0) : Ran (Frame s) (execBexedRestartTimeout u0) := by
  unfold execBexedRestartTimeout
  refine island_ran (Frame.closed _) ?_ fun u0 k0 => ?_
  · exact k0
  exact restartTimeout_frame k0

theorem execBexedStatus_frame {s u1 : State} {a0} (k1 : Frame s u1) : Ran (Frame s) (execBexedStatus a0 u1) := by
  unfold execBexedStatus
  refine kilak_ran (Frame.closed _) ?_ fun u0 k0 => ?_
  · exact k1
  extract_lets +onlyGivenNames -merge -useContext x1
  clear_value x1
  exact doneWith_frame k0

theorem execBexedTakeover_frame {s u0 : State} (k0 : Frame s u0) : Ran (Frame s) (execBexedTakeover u0) := by
  unfold execBexedTakeover
  refine island_ran (Frame.closed _) ?_ fun u0 k0 => ?_
  · exact k0
  exact takeover_frame k0

theorem execBlockReset_frame {s u3 : State} {a0} {a1} {a2} (k3 : Frame s u3) : Ran (Frame s) (execBlockReset a0 a1 a2 u3) := by
  unfold execBlockReset
  refine kilak_ran (Frame.closed _) ?_ fun u0 k0 => ?_
  · exact k3
  exact blockReset_frame k0

theorem execBlockResetRelease_frame {s u2 : State} {a0} {a1} (k2 : Frame s u2) : Ran (Frame s) (execBlockResetRelease a0 a1 u2) := by
  unfold execBlockResetRelease
  exact Ran.next (blockRelease_frame k2)

theorem execBootLoadDone_frame {s u0 : State} (k0 : Frame s u0) : Ran (Frame s) (execBootLoadDone u0) := by
  unfold execBootLoadDone
  exact Ran.next (bootDone_frame k0)

theorem execClocksPresentCheckEnd_frame {s u1 : State} {a0} (k1 : Frame s u1) : Ran (Frame s) (execClocksPresentCheckEnd a0 u1) := by
  unfold execClocksPresentCheckEnd
  exact Ran.next (checkDone_frame k1)

theorem execDeviceInfo_frame {s u1 : State} {a0} (k1 : Frame s u1) : Ran (Frame s) (execDeviceInfo a0 u1) := by
  unfold execDeviceInfo
  refine kilak_ran (Frame.closed _) ?_ fun u0 k0 => ?_
  · exact k1
  exact doneWith_frame k0

theorem execHbmTrainingDone_frame {s u0 : State} (k0 : Frame s u0) : Ran (Frame s) (execHbmTrainingDone u0) := by
  unfold execHbmTrainingDone
  exact Ran.next (trainingDone_frame k0)

theorem execIslandLateClockRelease_frame {s u1 : State} {a0} (k1 : Frame s u1) : Ran (Frame s) (execIslandLateClockRelease a0 u1) := by
  unfold execIslandLateClockRelease
  exact Ran.next (lateClock_frame k1)

theorem execLedgerSweepDone_frame {s u1 : State} {a0} (k1 : Frame s u1) : Ran (Frame s) (execLedgerSweepDone a0 u1) := by
  unfold execLedgerSweepDone
  refine island_ran (Frame.closed _) ?_ fun u0 k0 => ?_
  · exact k1
  exact sweepDone_frame k0

theorem execNop_frame {s u1 : State} {a0} (k1 : Frame s u1) : Ran (Frame s) (execNop a0 u1) := by
  unfold execNop
  refine kilak_ran (Frame.closed _) ?_ fun u0 k0 => ?_
  · exact k1
  exact done_frame k0

theorem execOrphanSweepDone_frame {s u0 : State} (k0 : Frame s u0) : Ran (Frame s) (execOrphanSweepDone u0) := by
  unfold execOrphanSweepDone
  refine island_ran (Frame.closed _) ?_ fun u0 k0 => ?_
  · exact k0
  exact orphanDone_frame k0

theorem execPciePerstPort1_frame {s u0 : State} (k0 : Frame s u0) : Ran (Frame s) (execPciePerstPort1 u0) := by
  unfold execPciePerstPort1
  exact Ran.next (perst1_frame k0)

theorem execResetCauseClear_frame {s u2 : State} {a0} (k2 : Frame s u2) : Ran (Frame s) (execResetCauseClear a0 u2) := by
  unfold execResetCauseClear
  refine regAccess_ran (Frame.closed _) ?_ fun u10 k10 => ?_
  · exact k2
  exact Frame.mk' k10

theorem execStrapSample_frame {s u1 : State} {a0} (k1 : Frame s u1) : Ran (Frame s) (execStrapSample a0 u1) := by
  unfold execStrapSample
  exact Ran.next (strapSample_frame k1)

end Sys2Proof.Machine
end

