-- ==== Sys2Proof/Laws/FrameScan.lean ====
section
/-! SUPPORT. What each operation of Machine/Scan.lean leaves alone. -/

namespace Sys2Proof.Machine

theorem execCrcScanDone_frame {s u2 : State} {a0} {a1} (k2 : Frame s u2) : Ran (Frame s) (execCrcScanDone a0 a1 u2) := by
  unfold execCrcScanDone
  refine island_ran (Frame.closed _) ?_ fun u0 k0 => ?_
  · exact k2
  extract_lets +onlyGivenNames -merge -useContext x1
  clear_value x1
  refine Frame.ite ?_ ?_
  · exact onCu_frame k0
  exact k0

theorem execCrcScanPause_frame {s u3 : State} {a0} {a1} {a2} (k3 : Frame s u3) : Ran (Frame s) (execCrcScanPause a0 a1 a2 u3) := by
  unfold execCrcScanPause
  refine kilak_ran (Frame.closed _) ?_ fun u0 k0 => ?_
  · exact k3
  extract_lets +onlyGivenNames -merge -useContext x1
  clear_value x1
  refine Frame.ite1 ?_ ?_
  · exact deny_frame k0
  refine Frame.ite1 ?_ ?_
  · exact deny_frame k0
  refine Frame.ite1 ?_ ?_
  · exact deny_frame k0
  extract_lets +onlyGivenNames -merge -useContext x2
  clear_value x2
  exact doneWith_frame (onCu_frame k0)

theorem execCrcScanStart_frame {s u8 : State} {a0} {a1} {a2} {a3} {a4} {a5} {a6} {a7} (k8 : Frame s u8) : Ran (Frame s) (execCrcScanStart a0 a1 a2 a3 a4 a5 a6 a7 u8) := by
  unfold execCrcScanStart
  refine kilak_ran (Frame.closed _) ?_ fun u0 k0 => ?_
  · exact k8
  refine Frame.ite1 ?_ ?_
  · exact deny_frame k0
  refine Frame.ite1 ?_ ?_
  · exact deny_frame k0
  refine Frame.ite1 ?_ ?_
  · exact deny_frame k0
  split
  · exact deny_frame k0
  · refine Frame.ite1 ?_ ?_
    · exact deny_frame k0
    exact done_frame (onCu_frame k0)

theorem execCrcScanStatus_frame {s u3 : State} {a0} {a1} {a2} (k3 : Frame s u3) : Ran (Frame s) (execCrcScanStatus a0 a1 a2 u3) := by
  unfold execCrcScanStatus
  refine kilak_ran (Frame.closed _) ?_ fun u0 k0 => ?_
  · exact k3
  refine Frame.ite1 ?_ ?_
  · exact deny_frame k0
  refine Frame.ite1 ?_ ?_
  · exact deny_frame k0
  extract_lets +onlyGivenNames -merge -useContext x1
  clear_value x1
  exact doneWith_frame (onCu_frame k0)

end Sys2Proof.Machine
end

