-- ==== Sys2Proof/Laws/FrameSuperframe.lean ====
section
/-! SUPPORT. What each operation of Machine/Superframe.lean leaves alone. -/

namespace Sys2Proof.Machine

theorem pairPages_frame {s u2 : State} {a0} {a1} (k2 : Frame s u2) : Frame s (pairPages a0 a1 u2) := by
  unfold pairPages
  refine Frame.ite ?_ ?_
  · exact k2
  extract_lets +onlyGivenNames -merge -useContext x0
  have h0 : Frame s x0 := fixedActivate_frame k2
  clear_value x0
  extract_lets +onlyGivenNames -merge -useContext x1
  have h1 : Frame s x1 := by
    refine Frame.ite ?_ ?_
    · exact h0
    exact mapBoundary_frame h0
  clear_value x1
  exact slotBoundary_frame h1

theorem forgetProfiles_frame {s u0 : State} (k0 : Frame s u0) : Frame s (forgetProfiles u0) := by
  unfold forgetProfiles
  exact Frame.mk' k0

theorem pruneSideband_frame {s u0 : State} (k0 : Frame s u0) : Frame s (pruneSideband u0) := by
  unfold pruneSideband
  exact Frame.mk' k0

theorem sendItem_frame {s u : State} {g sfc i} (k : Frame s u) : Frame s (sendItem g sfc i u).2 := by
  unfold sendItem
  dsimp only
  split
  · exact bump_frame (Frame.mk' (onOnu_frame k))
  · refine bump_frame (Frame.mk' ?_)
    split
    · exact k
    · exact Frame.mk' k

theorem sendPass_frame {s u : State} {g sfc early is room} (k : Frame s u) :
    Frame s (sendPass g sfc early is room u).2.2 := by
  induction is generalizing u room with
  | nil => exact k
  | cons i is ih =>
    unfold sendPass
    dsimp only
    split
    · exact ih k
    · split
      · exact ih (bump_frame k)
      · split
        · exact ih (sendItem_frame k)
        · exact ih (sendItem_frame k)

theorem sendProf_frame {s : State} {g sfc due acc n} (k : Frame s acc.2) : Frame s (sendProf g sfc due acc n).2 := by
  unfold sendProf
  dsimp only
  split
  · dsimp only
    split
    · exact bump_frame k
    · exact k
  · exact Frame.mk' (sendItem_frame k)

theorem sendProfs_frame {s : State} {g sfc due} (l : List Nat) {acc} (k : Frame s acc.2) :
    Frame s (l.foldl (sendProf g sfc due) acc).2 := by
  induction l generalizing acc with
  | nil => exact k
  | cons a l ih => exact ih (sendProf_frame k)

theorem sendPloam_frame {s u : State} {g sfc} (k : Frame s u) : Frame s (sendPloam g sfc u).2 := by
  unfold sendPloam
  dsimp only
  exact sendProfs_frame _ (Frame.mk' (sendPass_frame (sendPass_frame (sendProfs_frame _ k))))

theorem pairSends_frame {s u2 : State} {a0} {a1} (k2 : Frame s u2) : Frame s (pairSends a0 a1 u2) := by
  unfold pairSends
  refine Frame.ite ?_ ?_
  · split
    · exact dsFrame_frame (Frame.ofEq2 (by assumption) (sendPloam_frame k2))
  exact k2

theorem tuneWindows_frame {s u1 : State} {a0} (k1 : Frame s u1) : Frame s (tuneWindows a0 u1) := by
  unfold tuneWindows
  refine Frame.foldl (fun u0 _ k0 => ?_) ?_
  · split
    · refine Frame.ite ?_ ?_
      · exact tuneWindow_frame k0
      exact k0
    · exact k0
  exact k1

theorem standingAll_frame {s u1 : State} (k1 : Frame s u1) : Frame s (standingAll u1) := by
  unfold standingAll
  exact Frame.foldl (fun u0 _ k0 => standingSpare_frame k0) k1

theorem boundaryWork_frame {s u0 : State} (k0 : Frame s u0) : Frame s (boundaryWork u0) := by
  unfold boundaryWork
  extract_lets +onlyGivenNames -merge -useContext x10
  clear_value x10
  extract_lets +onlyGivenNames -merge -useContext x11
  clear_value x11
  extract_lets +onlyGivenNames -merge -useContext x12
  have h12 : Frame s x12 := pruneSideband_frame (Frame.mk' k0)
  clear_value x12
  extract_lets +onlyGivenNames -merge -useContext x13
  have h13 : Frame s x13 := by
    unfold x13
    refine Frame.ite ?_ ?_
    · exact standingAll_frame (tuneWindows_frame (protBoundary_frame h12))
    exact h12
  clear_value x13
  extract_lets +onlyGivenNames -merge -useContext x14
  have h14 : Frame s x14 := by
    unfold x14
    refine Frame.foldl (fun u15 _ k15 => ?_) ?_
    · exact pairPages_frame k15
    exact h13
  clear_value x14
  extract_lets +onlyGivenNames -merge -useContext x16
  have h16 : Frame s x16 := by
    unfold x16
    refine Frame.foldl (fun u17 _ k17 => ?_) ?_
    · exact moveBoundary_frame k17
    exact h14
  clear_value x16
  extract_lets +onlyGivenNames -merge -useContext x18
  have h18 : Frame s x18 := destroyDone_frame h16
  clear_value x18
  extract_lets +onlyGivenNames -merge -useContext x19
  have h19 : Frame s x19 := by
    unfold x19
    refine Frame.ite ?_ ?_
    · exact snapshot_frame h18
    exact h18
  clear_value x19
  extract_lets +onlyGivenNames -merge -useContext x20
  have h20 : Frame s x20 := keyBoundary_frame h19
  clear_value x20
  extract_lets +onlyGivenNames -merge -useContext x21
  have h21 : Frame s x21 := forgetProfiles_frame h20
  clear_value x21
  refine Frame.foldl (fun u22 _ k22 => ?_) ?_
  · exact pairSends_frame k22
  exact h21

end Sys2Proof.Machine
end

