-- ==== Sys2Proof/Laws/Keep.lean ====
section
/-! SUPPORT. What the operations that do move the clocks or the power state keep. -/

namespace Sys2Proof.Machine

/-- The queue is as before, and the clocks and the power state stay in their ranges. -/
structure Keep (s t : State) : Prop where
  pending : t.pending = s.pending
  clk : s.clkOk → t.clkOk
  pwr : s.pwrOk → t.pwrOk

theorem Keep.rfl' (s : State) : Keep s s := ⟨rfl, id, id⟩

theorem Frame.keep {s t : State} (h : Frame s t) : Keep s t :=
  ⟨h.1, by unfold State.clkOk; rw [h.2]; exact id, by unfold State.pwrOk; rw [h.3]; exact id⟩

theorem Keep.trans {s u t : State} (h : Keep s u) (k : Keep u t) : Keep s t :=
  ⟨k.1.trans h.1, k.2 ∘ h.2, k.3 ∘ h.3⟩

theorem Keep.frame {s u t : State} (h : Keep s u) (k : Frame u t) : Keep s t := h.trans k.keep

theorem Frame.after {s u t : State} (k : Frame u t) (h : Keep s u) : Keep s t := h.trans k.keep

theorem Keep.ite {s a b : State} {c : Prop} [Decidable c] (ha : Keep s a) (hb : Keep s b) :
    Keep s (if c then a else b) := by split <;> assumption

theorem Keep.foldl {α : Type} {s u : State} {f : State → α → State} {l : List α}
    (hf : ∀ u x, Keep s u → Keep s (f u x)) (h : Keep s u) : Keep s (l.foldl f u) := by
  induction l generalizing u with
  | nil => exact h
  | cons a l ih => exact ih (hf _ _ h)

theorem Keep.pwrTo {u : State} {p : PwrS} (h : u.pwrOk → (p.voltStage ≤ 5 ∧ p.capStage ≤ 4 ∧ p.capStageMax ≤ 4)) :
    Keep u { u with pwr := p } := ⟨rfl, id, h⟩

theorem Keep.closed (s : State) : Closed (Keep s) := ⟨fun _ _ h => h.trans ⟨rfl, id, id⟩, fun _ _ h => h.trans ⟨rfl, id, id⟩⟩

theorem Ran.keep {s : State} {o : Host.Outcome State Fault Refusal} (h : Ran (Frame s) o) : Ran (Keep s) o :=
  fun t e => (h t e).keep

theorem capStageTo_keep {s : State} {n} (hn : s.pwrOk → n ≤ 4) : Keep s (capStageTo n s) := by
  unfold capStageTo
  exact Frame.after (stageChanged_frame (Frame.rfl' _)) (Keep.pwrTo fun h => ⟨h.1, hn h, h.2.2⟩)

theorem capOver_keep (s : State) : Keep s (capOver s) := by
  unfold capOver
  extract_lets +onlyGivenNames _ x
  have h0 : Keep s x := Keep.pwrTo id
  clear_value x
  refine h0.trans ?_
  extract_lets +onlyGivenNames g
  refine Keep.ite (Keep.pwrTo id) ?_
  split
  · exact Keep.pwrTo id
  · refine Keep.ite (Keep.rfl' _) ?_
    split
    · rename_i hlt
      extract_lets +onlyGivenNames n _ y z
      have hy : Keep x y := by
        refine Keep.trans (Keep.pwrTo (p := { x.pwr with overSince := some x.clk.now }) id) ?_
        exact (bump_frame (Frame.rfl' _)).keep
      have hn : x.pwrOk → n ≤ 4 := by
        intro h
        have := h.2.2
        have e : n = x.pwr.capStage + 1 := rfl
        omega
      clear_value n
      have hy : Keep x y := Frame.after (bump_frame (Frame.rfl' _)) (Keep.pwrTo id)
      have hp : y.pwrOk → n ≤ 4 := fun h => hn h
      have hz : Keep x z := hy.trans (capStageTo_keep hp)
      clear_value z
      exact Keep.ite (hz.frame (capEvent_frame (Frame.rfl' _))) hz
    · refine Keep.ite (Keep.rfl' _) ?_
      exact Frame.after (capEvent_frame (Frame.rfl' _)) (Keep.pwrTo id)

theorem capUnder_keep (s : State) : Keep s (capUnder s) := by
  unfold capUnder
  extract_lets +onlyGivenNames n _ x
  have h0 : Keep s x := Keep.pwrTo id
  clear_value x
  refine h0.trans ?_
  refine Keep.ite (Keep.rfl' _) (Keep.ite ?_ (Keep.pwrTo id))
  extract_lets +onlyGivenNames c _ y
  have hy : Keep x y := by
    refine Keep.trans (Keep.pwrTo (p := { x.pwr with underSince := some x.clk.now }) id) ?_
    refine capStageTo_keep fun h => ?_
    have := h.2.1
    show x.pwr.capStage - 1 ≤ 4
    simp only at this
    omega
  clear_value y
  refine hy.trans (Keep.ite ?_ (Keep.rfl' _))
  exact Frame.after (capEvent_frame (Frame.rfl' _)) (Keep.pwrTo id)

theorem powerEstimate_keep {s : State} {w} : Keep s (powerEstimate w s) := by
  unfold powerEstimate
  extract_lets +onlyGivenNames _ x
  have h0 : Keep s x := Keep.pwrTo id
  clear_value x
  refine h0.trans (Keep.ite (capOver_keep _) ?_)
  extract_lets +onlyGivenNames _ y
  have h1 : Keep x y := Keep.pwrTo id
  clear_value y
  exact h1.trans (Keep.ite (capUnder_keep _) (Keep.pwrTo id))

theorem sagFall_keep {s : State} {m g} : Keep s (sagFall m g s) := by
  unfold sagFall
  dsimp only
  refine Frame.after (stageChanged_frame (Frame.rfl' _)) (Keep.pwrTo fun h => ⟨?_, h.2.1, h.2.2⟩)
  have := h.1
  dsimp only
  split <;> omega

theorem stageOf_le (m : Int) : stageOf m ≤ 5 := by
  unfold stageOf
  repeat' split
  all_goals omega

theorem sagRise_keep {s : State} {m g} : Keep s (sagRise m g s) := by
  unfold sagRise
  dsimp only
  refine Frame.after (stageChanged_frame (Frame.rfl' _)) (Keep.pwrTo fun h => ⟨?_, h.2.1, h.2.2⟩)
  have := h.1
  have := stageOf_le m
  dsimp only
  omega

theorem powerOff_keep {s : State} {ds} : Keep s (powerOff ds s) := by
  unfold powerOff
  extract_lets +onlyGivenNames -merge -useContext blks lose x y _ z
  have hl : ∀ b u, Frame s u → Frame s (lose b u) := fun b u k => sweepBlock_frame (clearBlock_frame k)
  have hx : Frame s x := Frame.foldl (fun u b k => hl b u k) (Frame.rfl' _)
  clear_value lose x
  have hy : Frame s y := Frame.foldl (fun u d k => Frame.ite (clearShared_frame k) k) hx
  clear_value y
  have hz : Frame s z := Frame.ite (Frame.mk' hy) hy
  clear_value z
  exact hz.keep.trans (Keep.pwrTo id)

theorem domainPowerSet_keep {s : State} {q d a o} : Keep s (domainPowerSet q d a o s).1 := by
  unfold domainPowerSet
  split
  · exact Keep.rfl' _
  · split
    · exact Keep.rfl' _
    · split
      · exact Keep.rfl' _
      · extract_lets ds d
        split
        · exact Keep.rfl' _
        · split
          · exact Keep.rfl' _
          · split
            · exact Keep.trans (u := _) (Keep.rfl' _) (Keep.pwrTo id)
            · split
              · exact powerOff_keep
              · exact Keep.rfl' _

theorem domainUp_keep {s : State} {d} : Keep s (domainUp d s) := by
  unfold domainUp
  split
  · exact Keep.rfl' _
  · extract_lets +onlyGivenNames ds _ x y
    have hx : Keep s x := Keep.pwrTo id
    clear_value x
    have hy : Frame x y := Frame.foldl (fun u b k => rebuildBlock_frame k) (Frame.rfl' _)
    exact hx.frame (completeOpt_frame hy)

theorem applyParam_keep {s : State} {p i v} : Keep s (applyParam p i v s) := by
  unfold applyParam
  extract_lets +onlyGivenNames old x
  have hx : Keep s x := (setParam_frame (Frame.rfl' _)).keep
  clear_value x
  refine Keep.ite (hx.trans (Keep.pwrTo id)) (Keep.ite ?_ (Keep.ite ?_ hx))
  · exact hx.frame (Frame.mk' (Frame.rfl' _))
  · exact hx.frame (Frame.mk' (Frame.rfl' _))

theorem setEach_keep {s t : State} {d vs i} (e : setEach d vs i s = .ok t) : Keep s t := by
  induction vs generalizing s i with
  | nil =>
    unfold setEach at e
    cases e
    exact Keep.rfl' _
  | cons v vs ih =>
    unfold setEach at e
    split at e
    · cases e
    · split at e
      · cases e
      · exact applyParam_keep.trans (ih e)

theorem paramSet_keep {s : State} {p f c vs} : Keep s (paramSet p f c vs s).1 := by
  unfold paramSet
  repeat' split
  all_goals first
    | exact Keep.rfl' _
    | (rename_i e; exact setEach_keep e)

theorem initialSet_keep {s : State} {n st} : Keep s (initialSet n st s) := by
  unfold initialSet
  dsimp only
  refine Keep.trans (u := { s with clk := { s.clk with ltb := n, sfc := n / 311040 % 2 ^ 51 }
                                   time := { s.time.shift (((n : Int) - s.clk.ltb) * 64) with state := st } }) ⟨rfl, fun _ => Nat.mod_lt _ (by decide), id⟩ ?_
  exact (Frame.foldl (fun u g k => Frame.ite (gateSchedule_frame k) k) (event_frame (Frame.rfl' _))).keep

theorem reachBoundary_keep {s : State} : Keep s (reachBoundary s) := by
  unfold reachBoundary
  exact ⟨rfl, fun _ => Nat.mod_lt _ (by decide), id⟩

theorem tick_keep {s : State} : Keep s (tick s) := by
  unfold tick
  exact Keep.ite ⟨rfl, id, id⟩ (Keep.ite (Keep.rfl' _) ⟨rfl, id, id⟩)

theorem servoUpdate_keep {s : State} : Keep s (servoUpdate s) := by
  unfold servoUpdate
  extract_lets +onlyGivenNames -merge -useContext t x z y
  have hx : Keep s x := (Frame.mk' (Frame.rfl' _)).keep
  clear_value z x
  have hy : Keep s y := by
    unfold y
    split
    · exact (hx.trans initialSet_keep).frame (endSets_frame (steerBy_frame (Frame.rfl' _)))
    · split
      · exact hx
      · exact (hx.trans initialSet_keep).frame (endSets_frame (complete_frame (Frame.rfl' _)))
    · exact hx.frame (steerBy_frame (Frame.rfl' _))
    · exact hx
    · split
      · refine Keep.ite hx ?_
        split
        · exact hx.frame (bump_frame (steerBy_frame (Frame.rfl' _)))
        · exact hx.frame (enterHoldover_frame (Frame.mk' (Frame.rfl' _)))
      · exact hx
    · exact Keep.ite (hx.frame (steerBy_frame (Frame.rfl' _))) hx
    · exact hx
  clear_value y
  exact hy.frame (dcoUpdate_frame (Frame.rfl' _))

theorem aoFall_keep {s : State} : Keep s (aoFall s) := by
  unfold aoFall
  exact ⟨rfl, fun _ => (by decide : (0 : Nat) < 2 ^ 51), fun _ => (by decide : 0 ≤ 5 ∧ 0 ≤ 4 ∧ 2 ≤ 4)⟩

theorem resetWide_keep {s : State} {p} : Keep s (resetWide p s) := by
  unfold resetWide
  exact ⟨(interruptWrite_frame (Frame.rfl' s)).1, fun _ => (by decide : (0 : Nat) < 2 ^ 51),
    fun _ => (by decide : 0 ≤ 5 ∧ 0 ≤ 4 ∧ 2 ≤ 4)⟩

theorem resetCore_keep {s : State} : Keep s (resetCore s) := by
  unfold resetCore
  extract_lets +onlyGivenNames x
  have hx : Frame s x := clearWindows_frame (stopLight_frame (withdrawClaims_frame (interruptWrite_frame (Frame.rfl' _))))
  clear_value x
  refine hx.keep.trans ?_
  extract_lets ke par up _ _ r gs
  refine Keep.trans (u := r) ⟨rfl, id, id⟩ ?_
  clear_value gs r
  exact (Frame.foldl (fun u g k => setParam_frame k) (Frame.rfl' _)).keep

theorem sourceRelease_keep {s : State} {r} : Keep s (sourceRelease r s) := by
  unfold sourceRelease
  refine Keep.ite (Keep.rfl' _) ?_
  dsimp only
  refine Keep.ite ?_ ⟨rfl, id, id⟩
  refine ⟨rfl, id, ?_⟩
  unfold State.pwrOk
  dsimp only
  split <;> exact id

theorem powerDown_keep {s : State} {w} : Keep s (powerDown w s) := by
  unfold powerDown
  exact powerOff_keep

theorem optFail_range {i : OptImage} {b} (h : optFail b i = 0) : i.capStageMax ≤ 4 := by
  unfold optFail at h
  split at h
  · cases h
  · split at h
    · cases h
    · split at h
      · cases h
      · rename_i hr
        simp [optRanges] at hr
        omega

theorem optionCommit_keep {s : State} : Keep s (optionCommit s) := by
  unfold optionCommit
  refine Keep.ite (Keep.rfl' _) ?_
  extract_lets +onlyGivenNames fa fb copy cur x y y2 _ _ _ _ z
  have hx : Frame s x := copyInvalid_frame (Frame.mk' (Frame.rfl' _))
  have h1 : Frame s y := Frame.ite hx (copyInvalid_frame hx)
  have hy : Frame s y2 := cu3Ran_frame h1
  have hc : cur.capStageMax ≤ 4 := by
    unfold cur
    split
    · rename_i h; exact optFail_range h
    · split
      · rename_i h; exact optFail_range h
      · decide
  have hz : Keep y2 z := ⟨rfl, id, fun h => ⟨h.1, h.2.1, hc⟩⟩
  refine Keep.trans (u := cur.presets.foldl (fun s p => applyPreset p s) z) ?_ powerDown_keep
  clear_value z
  exact (hy.keep.trans hz).trans (Frame.foldl (fun u p k => applyPreset_frame k) (Frame.rfl' _)).keep

theorem assertReset_keep {s : State} {r} : Keep s (assertReset r s) := by
  unfold assertReset
  extract_lets +onlyGivenNames r0 lvl cause reach alone r1 x
  have h0 : Keep s { s with rst := r1 } := ⟨rfl, id, id⟩
  have hx : Keep s x := Keep.ite (h0.trans resetCore_keep) (h0.trans resetWide_keep)
  clear_value x
  exact hx.trans ⟨rfl, id, id⟩

theorem bexedWatchdog_keep {s : State} : Keep s (bexedWatchdog s) := by
  unfold bexedWatchdog
  refine Keep.ite (Keep.rfl' _) ?_
  extract_lets +onlyGivenNames x
  have hx : Keep s x := assertReset_keep
  clear_value x
  exact hx.trans ⟨rfl, id, id⟩

theorem brownOut_keep {s : State} {r} : Keep s (brownOut r s) := by
  unfold brownOut
  split
  · exact aoFall_keep
  · exact (newRun_frame (Frame.rfl' _)).keep
  · exact assertReset_keep

theorem deviceWatchdog_keep {s : State} : Keep s (deviceWatchdog s) := by
  unfold deviceWatchdog
  exact Keep.ite assertReset_keep (Keep.rfl' _)

theorem resetNLow_keep {s : State} {n} : Keep s (resetNLow n s) := by
  unfold resetNLow
  have hd : Keep s s.drawn := (State.drawn_frame (Frame.rfl' _)).keep
  exact Keep.ite (Keep.rfl' _) (Keep.ite assertReset_keep (Keep.ite (hd.trans assertReset_keep) hd))

theorem execBexedWatchdogExpiry_keep {s : State} : Ran (Keep s) (execBexedWatchdogExpiry s) := Ran.next bexedWatchdog_keep

theorem execBrownOut_keep {s : State} {r} : Ran (Keep s) (execBrownOut r s) := Ran.next brownOut_keep

theorem execCoreReset_keep {s : State} {q} : Ran (Keep s) (execCoreReset q s) := 
  kilak_ran (Keep.closed _) (Keep.rfl' _) fun _ k => k.trans assertReset_keep

theorem execDeviceReset_keep {s : State} {q} : Ran (Keep s) (execDeviceReset q s) := by
  unfold execDeviceReset
  refine kilak_ran (Keep.closed _) (Keep.rfl' _) fun u k => k.trans ?_
  exact (Frame.ite (checkpoint_frame (Frame.rfl' _)) (Frame.rfl' _)).keep.trans assertReset_keep

theorem execDeviceWatchdogExpiry_keep {s : State} : Ran (Keep s) (execDeviceWatchdogExpiry s) := Ran.next deviceWatchdog_keep

theorem execDomainPowerSet_keep {s : State} {q} {d} {a} {o} : Ran (Keep s) (execDomainPowerSet q d a o s) := 
  kilak_ran (Keep.closed _) (Keep.rfl' _) fun _ k => k.trans domainPowerSet_keep

theorem execDomainPowerUpDone_keep {s : State} {d} : Ran (Keep s) (execDomainPowerUpDone d s) := 
  island_ran (Keep.closed _) (Keep.rfl' _) fun _ k => k.trans domainUp_keep

theorem execOptionCommit_keep {s : State} : Ran (Keep s) (execOptionCommit s) := 
  island_ran (Keep.closed _) (Keep.rfl' _) fun _ k => k.trans optionCommit_keep

theorem execParamSet_keep {s : State} {q} {p} {f} {c} {v} : Ran (Keep s) (execParamSet q p f c v s) := 
  kilak_ran (Keep.closed _) (Keep.rfl' _) fun _ k => k.trans paramSet_keep

theorem execPciePerstPort0_keep {s : State} : Ran (Keep s) (execPciePerstPort0 s) := Ran.next assertReset_keep

theorem execPowerEstimate_keep {s : State} {w} : Ran (Keep s) (execPowerEstimate w s) := 
  island_ran (Keep.closed _) (Keep.rfl' _) fun _ k => k.trans powerEstimate_keep

theorem execPowerOnReset_keep {s : State} : Ran (Keep s) (execPowerOnReset s) := Ran.next assertReset_keep

theorem execResetNAssert_keep {s : State} {n} : Ran (Keep s) (execResetNAssert n s) := Ran.next resetNLow_keep

theorem execResetReqCore_keep {s : State} {v} : Ran (Keep s) (execResetReqCore v s) := by
  unfold execResetReqCore
  exact regAccess_ran (Keep.closed _) (Keep.rfl' _) fun u k => Keep.ite (k.trans assertReset_keep) k

theorem execResetReqSystem_keep {s : State} {v} : Ran (Keep s) (execResetReqSystem v s) := by
  unfold execResetReqSystem
  exact regAccess_ran (Keep.closed _) (Keep.rfl' _) fun u k => Keep.ite (k.trans assertReset_keep) k

theorem execResetSourceRelease_keep {s : State} {r} : Ran (Keep s) (execResetSourceRelease r s) := Ran.next sourceRelease_keep

theorem execSagStageFall_keep {s : State} {m} {g} : Ran (Keep s) (execSagStageFall m g s) := 
  island_ran (Keep.closed _) (Keep.rfl' _) fun _ k => k.trans sagFall_keep

theorem execSagStageRise_keep {s : State} {m} {g} : Ran (Keep s) (execSagStageRise m g s) := 
  island_ran (Keep.closed _) (Keep.rfl' _) fun _ k => k.trans sagRise_keep

theorem execServoUpdate_keep {s : State} : Ran (Keep s) (execServoUpdate s) := 
  island_ran (Keep.closed _) (Keep.rfl' _) fun _ k => k.trans servoUpdate_keep

theorem execSuperframeBoundary_keep {s : State} : Ran (Keep s) (execSuperframeBoundary s) := by
  unfold execSuperframeBoundary
  exact Ran.guardBlks (Ran.next (Keep.ite (reachBoundary_keep.frame (boundaryWork_frame (Frame.rfl' _))) (Keep.rfl' _)))

theorem execVddAoFall_keep {s : State} : Ran (Keep s) (execVddAoFall s) := Ran.next aoFall_keep

theorem execPowerCapSet_keep {s : State} {q} {w} {c} : Ran (Keep s) (execPowerCapSet q w c s) := by
  unfold execPowerCapSet
  refine kilak_ran (Keep.closed _) (Keep.rfl' _) fun u k => k.trans ?_
  split
  · exact Keep.rfl' _
  · rename_i h
    refine Keep.pwrTo fun h1 => ⟨h1.1, h1.2.1, ?_⟩
    simp at h
    show c ≤ 4
    omega

end Sys2Proof.Machine
end

