-- ==== Sys2Proof/Laws/Serve.lean ====
section
/-! SUPPORT. What a served command and an acting block do: lemmas that statements about commands cite, and the projections
of the shared operations. -/

namespace Sys2Proof.Machine

theorem kilak_served {q : Req} {op : Nat} {body : State → State × Option Reply} {s t : State} {r : Reply}
    (h : Served s q op) (hb : body (openCmd q op s) = (t, some r)) (hf : Fits q r) :
    kilak q op body s = .next (complete q op r t) := by
  obtain ⟨h1, h2, h3, h4, h5⟩ := h
  have hn : ¬ (16 < (pack r.res).length ∧ q.resCap < (pack r.res).length) := by
    unfold Fits at hf
    omega
  unfold kilak
  simp only [h1, h2, h3, h4, h5, hb, Bool.false_eq_true, if_false, Bool.not_true]
  split
  · rename_i h
    simp at h
    exact absurd h hn
  · rfl

theorem kilak_waits {q : Req} {op : Nat} {body : State → State × Option Reply} {s t : State}
    (h : Served s q op) (hb : body (openCmd q op s) = (t, none)) : kilak q op body s = .next t := by
  obtain ⟨h1, h2, h3, h4, h5⟩ := h
  unfold kilak
  simp only [h1, h2, h3, h4, h5, hb, Bool.false_eq_true, if_false, Bool.not_true]

theorem island_acts {b : Nat} {f : State → State} {s : State} (h : Acts s b) : island b f s = .next (f s) := by
  unfold island
  simp [h.1, h.2]

theorem regAccess_up {p : Nat} {f : State → State} {s : State} (h : PortUp s p) : regAccess p f s = .next (f s) := by
  unfold regAccess
  rw [island_acts h.1]
  simp only [h.2, if_true]

theorem guardBlks_ok {bs : List Nat} {o : State → Host.Outcome State Fault Refusal} {s : State}
    (h : ∀ b ∈ bs, s.undefinedBlk b = false) : guardBlks bs o s = o s := by
  unfold guardBlks
  split
  · rename_i e
    have := List.find?_some e
    have hm := List.mem_of_find?_eq_some e
    simp_all
  · rfl

/-! ### Stops -/

/-- The outcome is no refusal, and a fault only where a real class-F record stands. -/
def Stops (s : State) (o : Host.Outcome State Fault Refusal) : Prop :=
  (∀ r, o ≠ .refused r) ∧ ∀ f, o = .fault f → ∃ b, f = .blockUndefined b ∧ s.undefinedBlk b = true

theorem Stops.next {s t : State} : Stops s (.next t) := ⟨fun _ e => (by cases e), fun _ e => (by cases e)⟩

theorem Stops.fault {s : State} {b : Nat} (h : s.undefinedBlk b = true) : Stops s (.fault (.blockUndefined b)) :=
  ⟨fun _ e => (by cases e), fun _ e => (by cases e; exact ⟨b, rfl, h⟩)⟩

theorem Stops.ite {s : State} {c : Prop} [Decidable c] {a b : Host.Outcome State Fault Refusal} (ha : Stops s a)
    (hb : Stops s b) : Stops s (if c then a else b) := by split <;> assumption

theorem island_stops {s : State} {b f} : Stops s (island b f s) := by
  unfold island
  split
  · exact Stops.fault (by assumption)
  · exact Stops.ite Stops.next Stops.next

theorem kilak_stops {s : State} {q op body} : Stops s (kilak q op body s) := by
  unfold kilak
  split
  · exact Stops.fault (by assumption)
  · split
    · exact Stops.fault (by assumption)
    · refine Stops.ite Stops.next (Stops.ite Stops.next (Stops.ite Stops.next ?_))
      split <;> exact Stops.next

theorem guardBlks_stops {s : State} {bs o} (h : Stops s (o s)) : Stops s (guardBlks bs o s) := by
  unfold guardBlks
  split
  · rename_i e
    exact Stops.fault (by simpa using List.find?_some e)
  · exact h

theorem regAccess_stops {s : State} {p f} : Stops s (regAccess p f s) := island_stops

theorem usPloam_stops {s : State} {i f} : Stops s (usPloam i f s) := island_stops

theorem sbEvent_stops {s : State} {l f} : Stops s (sbEvent l f s) := island_stops

theorem timeCmd_stops {s : State} {q op body} : Stops s (timeCmd q op body s) := guardBlks_stops kilak_stops

theorem windowAccess_stops {s : State} {b f} : Stops s (windowAccess b f s) := Stops.ite Stops.next Stops.next

theorem ampServe_stops {s : State} {q body} : Stops s (ampServe q body s) := by
  unfold ampServe
  split
  · exact Stops.fault (by assumption)
  · exact Stops.ite Stops.next island_stops

theorem sealBurn_stops {s : State} {q f b} : Stops s (sealBurn q f b s) := by
  unfold sealBurn
  split
  · exact Stops.fault (by assumption)
  · refine Stops.ite Stops.next ?_
    split <;> exact island_stops

section
variable (q : Req) (op : Nat) (s : State)

theorem openCmd_eq : openCmd q op s = { s with host := (openCmd q op s).host } := by
  unfold openCmd; dsimp only; split <;> rfl

@[simp] theorem openCmd_pending : (openCmd q op s).pending = s.pending := by rw [openCmd_eq]
@[simp] theorem openCmd_free : (openCmd q op s).free = s.free := by rw [openCmd_eq]
@[simp] theorem openCmd_clk : (openCmd q op s).clk = s.clk := by rw [openCmd_eq]
@[simp] theorem openCmd_rst : (openCmd q op s).rst = s.rst := by rw [openCmd_eq]
@[simp] theorem openCmd_opt : (openCmd q op s).opt = s.opt := by rw [openCmd_eq]
@[simp] theorem openCmd_pwr : (openCmd q op s).pwr = s.pwr := by rw [openCmd_eq]
@[simp] theorem openCmd_flt : (openCmd q op s).flt = s.flt := by rw [openCmd_eq]
@[simp] theorem openCmd_mon : (openCmd q op s).mon = s.mon := by rw [openCmd_eq]
@[simp] theorem openCmd_ann : (openCmd q op s).ann = s.ann := by rw [openCmd_eq]
@[simp] theorem openCmd_led : (openCmd q op s).led = s.led := by rw [openCmd_eq]
@[simp] theorem openCmd_lane : (openCmd q op s).lane = s.lane := by rw [openCmd_eq]
@[simp] theorem openCmd_ds : (openCmd q op s).ds = s.ds := by rw [openCmd_eq]
@[simp] theorem openCmd_onu : (openCmd q op s).onu = s.onu := by rw [openCmd_eq]
@[simp] theorem openCmd_map : (openCmd q op s).map = s.map := by rw [openCmd_eq]
@[simp] theorem openCmd_rx : (openCmd q op s).rx = s.rx := by rw [openCmd_eq]
@[simp] theorem openCmd_time : (openCmd q op s).time = s.time := by rw [openCmd_eq]
@[simp] theorem openCmd_amp : (openCmd q op s).amp = s.amp := by rw [openCmd_eq]
@[simp] theorem openCmd_cip : (openCmd q op s).cip = s.cip := by rw [openCmd_eq]
@[simp] theorem openCmd_prot : (openCmd q op s).prot = s.prot := by rw [openCmd_eq]
@[simp] theorem openCmd_cls : (openCmd q op s).cls = s.cls := by rw [openCmd_eq]
@[simp] theorem openCmd_em : (openCmd q op s).em = s.em := by rw [openCmd_eq]
@[simp] theorem openCmd_pool : (openCmd q op s).pool = s.pool := by rw [openCmd_eq]
@[simp] theorem openCmd_sch : (openCmd q op s).sch = s.sch := by rw [openCmd_eq]
@[simp] theorem openCmd_par : (openCmd q op s).par = s.par := by rw [openCmd_eq]
@[simp] theorem openCmd_ctr : (openCmd q op s).ctr = s.ctr := by rw [openCmd_eq]


end

/-! ### Projections of the operations every family shares -/

end Sys2Proof.Machine
end

