-- ==== Sys2Proof/Laws/Open.lean ====
section
/-! SUPPORT. Taking up a command changes the host interface only: whatever the rest of the state answers, it answers as
before. -/

namespace Sys2Proof.Machine

variable (q : Req) (op : Nat) (s : State)

@[simp] theorem openCmd_secRec : (openCmd q op s).secRec = s.secRec := by
  rw [openCmd_eq]; rfl

@[simp] theorem openCmd_newPlan : (openCmd q op s).newPlan = s.newPlan := by
  rw [openCmd_eq]; rfl

@[simp] theorem openCmd_sliceOnus : (openCmd q op s).sliceOnus = s.sliceOnus := by
  rw [openCmd_eq]; rfl

@[simp] theorem openCmd_cascLen : (openCmd q op s).cascLen = s.cascLen := by
  rw [openCmd_eq]; rfl

@[simp] theorem openCmd_cascPos : (openCmd q op s).cascPos = s.cascPos := by
  rw [openCmd_eq]; rfl

@[simp] theorem openCmd_slotNow : (openCmd q op s).slotNow = s.slotNow := by
  rw [openCmd_eq]; rfl

@[simp] theorem openCmd_ixrGroups : (openCmd q op s).ixrGroups = s.ixrGroups := by
  rw [openCmd_eq]; rfl

@[simp] theorem openCmd_upLink : (openCmd q op s).upLink = s.upLink := by
  rw [openCmd_eq]; rfl

@[simp] theorem openCmd_downLink : (openCmd q op s).downLink = s.downLink := by
  rw [openCmd_eq]; rfl

@[simp] theorem openCmd_linkUp : (openCmd q op s).linkUp = s.linkUp := by
  rw [openCmd_eq]; rfl

@[simp] theorem openCmd_cascLocked : (openCmd q op s).cascLocked = s.cascLocked := by
  rw [openCmd_eq]; rfl

@[simp] theorem openCmd_ownMatch : (openCmd q op s).ownMatch = s.ownMatch := by
  rw [openCmd_eq]; rfl

@[simp] theorem openCmd_parsed : (openCmd q op s).parsed = s.parsed := by
  rw [openCmd_eq]; rfl

@[simp] theorem openCmd_nextSlot : (openCmd q op s).nextSlot = s.nextSlot := by
  rw [openCmd_eq]; rfl

@[simp] theorem openCmd_keyCtx : (openCmd q op s).keyCtx = s.keyCtx := by
  rw [openCmd_eq]; rfl

@[simp] theorem openCmd_bcastCtx : (openCmd q op s).bcastCtx = s.bcastCtx := by
  rw [openCmd_eq]; rfl

@[simp] theorem openCmd_keyOnu : (openCmd q op s).keyOnu = s.keyOnu := by
  rw [openCmd_eq]; rfl

@[simp] theorem openCmd_currentSlot : (openCmd q op s).currentSlot = s.currentSlot := by
  rw [openCmd_eq]; rfl

@[simp] theorem openCmd_exchSlot : (openCmd q op s).exchSlot = s.exchSlot := by
  rw [openCmd_eq]; rfl

@[simp] theorem openCmd_tagOctets : (openCmd q op s).tagOctets = s.tagOctets := by
  rw [openCmd_eq]; rfl

@[simp] theorem openCmd_xtsKeyed : (openCmd q op s).xtsKeyed = s.xtsKeyed := by
  rw [openCmd_eq]; rfl

@[simp] theorem openCmd_randomVal : (openCmd q op s).randomVal = s.randomVal := by
  rw [openCmd_eq]; rfl

@[simp] theorem openCmd_promoting : (openCmd q op s).promoting = s.promoting := by
  rw [openCmd_eq]; rfl

@[simp] theorem openCmd_hkOk : (openCmd q op s).hkOk = s.hkOk := by
  rw [openCmd_eq]; rfl

@[simp] theorem openCmd_hkKey : (openCmd q op s).hkKey = s.hkKey := by
  rw [openCmd_eq]; rfl

@[simp] theorem openCmd_crcUnit : (openCmd q op s).crcUnit = s.crcUnit := by
  rw [openCmd_eq]; rfl

@[simp] theorem openCmd_profileFor : (openCmd q op s).profileFor = s.profileFor := by
  rw [openCmd_eq]; rfl

@[simp] theorem openCmd_admitTicks : (openCmd q op s).admitTicks = s.admitTicks := by
  rw [openCmd_eq]; rfl

@[simp] theorem openCmd_admits : (openCmd q op s).admits = s.admits := by
  rw [openCmd_eq]; rfl

@[simp] theorem openCmd_treeAllocs : (openCmd q op s).treeAllocs = s.treeAllocs := by
  rw [openCmd_eq]; rfl

@[simp] theorem openCmd_core : (openCmd q op s).core = s.core := by
  rw [openCmd_eq]; rfl

@[simp] theorem openCmd_reserved : (openCmd q op s).reserved = s.reserved := by
  rw [openCmd_eq]; rfl

@[simp] theorem openCmd_stdLead : (openCmd q op s).stdLead = s.stdLead := by
  rw [openCmd_eq]; rfl

@[simp] theorem openCmd_planGrant : (openCmd q op s).planGrant = s.planGrant := by
  rw [openCmd_eq]; rfl

@[simp] theorem openCmd_planQuiet : (openCmd q op s).planQuiet = s.planQuiet := by
  rw [openCmd_eq]; rfl

@[simp] theorem openCmd_planFits : (openCmd q op s).planFits = s.planFits := by
  rw [openCmd_eq]; rfl

@[simp] theorem openCmd_planAt : (openCmd q op s).planAt = s.planAt := by
  rw [openCmd_eq]; rfl

@[simp] theorem openCmd_seedReadyNow : (openCmd q op s).seedReadyNow = s.seedReadyNow := by
  rw [openCmd_eq]; rfl

@[simp] theorem openCmd_shape : (openCmd q op s).shape = s.shape := by
  rw [openCmd_eq]; rfl

@[simp] theorem openCmd_oblAlloc : (openCmd q op s).oblAlloc = s.oblAlloc := by
  rw [openCmd_eq]; rfl

@[simp] theorem openCmd_obligations : (openCmd q op s).obligations = s.obligations := by
  rw [openCmd_eq]; rfl

@[simp] theorem openCmd_served : (openCmd q op s).served = s.served := by
  rw [openCmd_eq]; rfl

@[simp] theorem openCmd_windowEntries : (openCmd q op s).windowEntries = s.windowEntries := by
  rw [openCmd_eq]; rfl

@[simp] theorem openCmd_blocked : (openCmd q op s).blocked = s.blocked := by
  rw [openCmd_eq]; rfl

@[simp] theorem openCmd_coreRuns : (openCmd q op s).coreRuns = s.coreRuns := by
  rw [openCmd_eq]; rfl

@[simp] theorem openCmd_hold : (openCmd q op s).hold = s.hold := by
  rw [openCmd_eq]; rfl

@[simp] theorem openCmd_quarCells : (openCmd q op s).quarCells = s.quarCells := by
  rw [openCmd_eq]; rfl

@[simp] theorem openCmd_frameKey : (openCmd q op s).frameKey = s.frameKey := by
  rw [openCmd_eq]; rfl

@[simp] theorem openCmd_slotsUsed : (openCmd q op s).slotsUsed = s.slotsUsed := by
  rw [openCmd_eq]; rfl

@[simp] theorem openCmd_hasFragments : (openCmd q op s).hasFragments = s.hasFragments := by
  rw [openCmd_eq]; rfl

@[simp] theorem openCmd_hitOr : (openCmd q op s).hitOr = s.hitOr := by
  rw [openCmd_eq]; rfl

@[simp] theorem openCmd_ownerLimit : (openCmd q op s).ownerLimit = s.ownerLimit := by
  rw [openCmd_eq]; rfl

@[simp] theorem openCmd_learnDest : (openCmd q op s).learnDest = s.learnDest := by
  rw [openCmd_eq]; rfl

@[simp] theorem openCmd_emBucket : (openCmd q op s).emBucket = s.emBucket := by
  rw [openCmd_eq]; rfl

@[simp] theorem openCmd_emCopy : (openCmd q op s).emCopy = s.emCopy := by
  rw [openCmd_eq]; rfl

@[simp] theorem openCmd_emSlices : (openCmd q op s).emSlices = s.emSlices := by
  rw [openCmd_eq]; rfl

@[simp] theorem openCmd_emComplete : (openCmd q op s).emComplete = s.emComplete := by
  rw [openCmd_eq]; rfl

@[simp] theorem openCmd_learnedTotal : (openCmd q op s).learnedTotal = s.learnedTotal := by
  rw [openCmd_eq]; rfl

@[simp] theorem openCmd_freeWay : (openCmd q op s).freeWay = s.freeWay := by
  rw [openCmd_eq]; rfl

@[simp] theorem openCmd_freeOvf : (openCmd q op s).freeOvf = s.freeOvf := by
  rw [openCmd_eq]; rfl

@[simp] theorem openCmd_facetCheck : (openCmd q op s).facetCheck = s.facetCheck := by
  rw [openCmd_eq]; rfl

@[simp] theorem openCmd_throttleStart : (openCmd q op s).throttleStart = s.throttleStart := by
  rw [openCmd_eq]; rfl

@[simp] theorem openCmd_withheld : (openCmd q op s).withheld = s.withheld := by
  rw [openCmd_eq]; rfl

@[simp] theorem openCmd_ringPort : (openCmd q op s).ringPort = s.ringPort := by
  rw [openCmd_eq]; rfl

@[simp] theorem openCmd_pktLen : (openCmd q op s).pktLen = s.pktLen := by
  rw [openCmd_eq]; rfl

@[simp] theorem openCmd_facet : (openCmd q op s).facet = s.facet := by
  rw [openCmd_eq]; rfl

@[simp] theorem openCmd_cascading : (openCmd q op s).cascading = s.cascading := by
  rw [openCmd_eq]; rfl

@[simp] theorem openCmd_inPartition : (openCmd q op s).inPartition = s.inPartition := by
  rw [openCmd_eq]; rfl

@[simp] theorem openCmd_matching : (openCmd q op s).matching = s.matching := by
  rw [openCmd_eq]; rfl

@[simp] theorem openCmd_fragTab : (openCmd q op s).fragTab = s.fragTab := by
  rw [openCmd_eq]; rfl

@[simp] theorem openCmd_lagOf : (openCmd q op s).lagOf = s.lagOf := by
  rw [openCmd_eq]; rfl

@[simp] theorem openCmd_portUp : (openCmd q op s).portUp = s.portUp := by
  rw [openCmd_eq]; rfl

@[simp] theorem openCmd_portQueue : (openCmd q op s).portQueue = s.portQueue := by
  rw [openCmd_eq]; rfl

@[simp] theorem openCmd_lagPortsOk : (openCmd q op s).lagPortsOk = s.lagPortsOk := by
  rw [openCmd_eq]; rfl

@[simp] theorem openCmd_freshLag : (openCmd q op s).freshLag = s.freshLag := by
  rw [openCmd_eq]; rfl

@[simp] theorem openCmd_namedByAction : (openCmd q op s).namedByAction = s.namedByAction := by
  rw [openCmd_eq]; rfl

@[simp] theorem openCmd_namedByEntry : (openCmd q op s).namedByEntry = s.namedByEntry := by
  rw [openCmd_eq]; rfl

@[simp] theorem openCmd_laneCh : (openCmd q op s).laneCh = s.laneCh := by
  rw [openCmd_eq]; rfl

@[simp] theorem openCmd_ctleFor : (openCmd q op s).ctleFor = s.ctleFor := by
  rw [openCmd_eq]; rfl

@[simp] theorem openCmd_rungMet : (openCmd q op s).rungMet = s.rungMet := by
  rw [openCmd_eq]; rfl

@[simp] theorem openCmd_isSpare : (openCmd q op s).isSpare = s.isSpare := by
  rw [openCmd_eq]; rfl

@[simp] theorem openCmd_baseRate : (openCmd q op s).baseRate = s.baseRate := by
  rw [openCmd_eq]; rfl

@[simp] theorem openCmd_usRateMax : (openCmd q op s).usRateMax = s.usRateMax := by
  rw [openCmd_eq]; rfl

@[simp] theorem openCmd_bitsPerTick : (openCmd q op s).bitsPerTick = s.bitsPerTick := by
  rw [openCmd_eq]; rfl

@[simp] theorem openCmd_upRef : (openCmd q op s).upRef = s.upRef := by
  rw [openCmd_eq]; rfl

@[simp] theorem openCmd_mapCh : (openCmd q op s).mapCh = s.mapCh := by
  rw [openCmd_eq]; rfl

@[simp] theorem openCmd_isQuiet : (openCmd q op s).isQuiet = s.isQuiet := by
  rw [openCmd_eq]; rfl

@[simp] theorem openCmd_allocsOf : (openCmd q op s).allocsOf = s.allocsOf := by
  rw [openCmd_eq]; rfl

@[simp] theorem openCmd_allocInFixed : (openCmd q op s).allocInFixed = s.allocInFixed := by
  rw [openCmd_eq]; rfl

@[simp] theorem openCmd_inFixedPattern : (openCmd q op s).inFixedPattern = s.inFixedPattern := by
  rw [openCmd_eq]; rfl

@[simp] theorem openCmd_tribOnu : (openCmd q op s).tribOnu = s.tribOnu := by
  rw [openCmd_eq]; rfl

@[simp] theorem openCmd_budgetOf : (openCmd q op s).budgetOf = s.budgetOf := by
  rw [openCmd_eq]; rfl

@[simp] theorem openCmd_injectable : (openCmd q op s).injectable = s.injectable := by
  rw [openCmd_eq]; rfl

@[simp] theorem openCmd_faultRow : (openCmd q op s).faultRow = s.faultRow := by
  rw [openCmd_eq]; rfl

@[simp] theorem openCmd_puntQ : (openCmd q op s).host.puntQ = s.host.puntQ := by
  unfold openCmd
  dsimp only
  split
  · rfl
  · unfold HostS.setPort
    split <;> rfl

/-- Of the host interface the ledger's held bytes look at the punt queue alone. -/
theorem onuHeld_host (s : State) {h : HostS} (e : h.puntQ = s.host.puntQ) : ({ s with host := h } : State).onuHeld = s.onuHeld := by
  funext a d
  unfold State.onuHeld
  dsimp only
  rw [e]
  rfl

@[simp] theorem openCmd_onuHeld : (openCmd q op s).onuHeld = s.onuHeld := by
  rw [openCmd_eq]; exact onuHeld_host s (openCmd_puntQ q op s)

@[simp] theorem openCmd_ledHeld : (openCmd q op s).ledHeld = s.ledHeld := by
  funext k i
  unfold State.ledHeld
  rw [openCmd_onuHeld, openCmd_eq]
  rfl

@[simp] theorem openCmd_imbalance : (openCmd q op s).imbalance = s.imbalance := by
  funext k i w b
  unfold State.imbalance
  rw [openCmd_ledHeld, openCmd_eq]
  rfl

@[simp] theorem openCmd_ledScopes : (openCmd q op s).ledScopes = s.ledScopes := by
  rw [openCmd_eq]; rfl

@[simp] theorem openCmd_ledRecord : (openCmd q op s).ledRecord = s.ledRecord := by
  rw [openCmd_eq]; rfl

@[simp] theorem openCmd_discOpen : (openCmd q op s).discOpen = s.discOpen := by
  rw [openCmd_eq]; rfl

@[simp] theorem openCmd_chLoad : (openCmd q op s).chLoad = s.chLoad := by
  rw [openCmd_eq]; rfl

@[simp] theorem openCmd_onuLoad : (openCmd q op s).onuLoad = s.onuLoad := by
  rw [openCmd_eq]; rfl

@[simp] theorem openCmd_balanceable : (openCmd q op s).balanceable = s.balanceable := by
  rw [openCmd_eq]; rfl

@[simp] theorem openCmd_rtd : (openCmd q op s).rtd = s.rtd := by
  rw [openCmd_eq]; rfl

@[simp] theorem openCmd_rangeQuiet : (openCmd q op s).rangeQuiet = s.rangeQuiet := by
  rw [openCmd_eq]; rfl

@[simp] theorem openCmd_discQuiet : (openCmd q op s).discQuiet = s.discQuiet := by
  rw [openCmd_eq]; rfl

@[simp] theorem openCmd_inReach : (openCmd q op s).inReach = s.inReach := by
  rw [openCmd_eq]; rfl

@[simp] theorem openCmd_eqdTarget : (openCmd q op s).eqdTarget = s.eqdTarget := by
  rw [openCmd_eq]; rfl

@[simp] theorem openCmd_pastDiscovered : (openCmd q op s).pastDiscovered = s.pastDiscovered := by
  rw [openCmd_eq]; rfl

@[simp] theorem openCmd_onuIdTaken : (openCmd q op s).onuIdTaken = s.onuIdTaken := by
  rw [openCmd_eq]; rfl

@[simp] theorem openCmd_pickOnuId : (openCmd q op s).pickOnuId = s.pickOnuId := by
  rw [openCmd_eq]; rfl

@[simp] theorem openCmd_ladderMax : (openCmd q op s).ladderMax = s.ladderMax := by
  rw [openCmd_eq]; rfl

@[simp] theorem openCmd_carriesTrib : (openCmd q op s).carriesTrib = s.carriesTrib := by
  rw [openCmd_eq]; rfl

@[simp] theorem openCmd_retuneRefused : (openCmd q op s).retuneRefused = s.retuneRefused := by
  rw [openCmd_eq]; rfl

@[simp] theorem openCmd_ltbNow : (openCmd q op s).ltbNow = s.ltbNow := by
  rw [openCmd_eq]; rfl

@[simp] theorem openCmd_due : (openCmd q op s).due = s.due := by
  rw [openCmd_eq]; rfl

@[simp] theorem openCmd_freeVal : (openCmd q op s).freeVal = s.freeVal := by
  rw [openCmd_eq]; rfl

@[simp] theorem openCmd_count : (openCmd q op s).count = s.count := by
  rw [openCmd_eq]; rfl

@[simp] theorem openCmd_param : (openCmd q op s).param = s.param := by
  rw [openCmd_eq]; rfl

@[simp] theorem openCmd_paramN : (openCmd q op s).paramN = s.paramN := by
  rw [openCmd_eq]; rfl

@[simp] theorem openCmd_twoPorts : (openCmd q op s).twoPorts = s.twoPorts := by
  rw [openCmd_eq]; rfl

@[simp] theorem openCmd_ports : (openCmd q op s).ports = s.ports := by
  rw [openCmd_eq]; rfl

@[simp] theorem openCmd_sagStage : (openCmd q op s).sagStage = s.sagStage := by
  rw [openCmd_eq]; rfl

@[simp] theorem openCmd_sampleKept : (openCmd q op s).sampleKept = s.sampleKept := by
  rw [openCmd_eq]; rfl

@[simp] theorem openCmd_islandUp : (openCmd q op s).islandUp = s.islandUp := by
  rw [openCmd_eq]; rfl

@[simp] theorem openCmd_window : (openCmd q op s).window = s.window := by
  rw [openCmd_eq]; rfl

@[simp] theorem openCmd_undefinedBlk : (openCmd q op s).undefinedBlk = s.undefinedBlk := by
  rw [openCmd_eq]; rfl

@[simp] theorem openCmd_classF : (openCmd q op s).classF = s.classF := by
  rw [openCmd_eq]; rfl

@[simp] theorem openCmd_testMode : (openCmd q op s).testMode = s.testMode := by
  rw [openCmd_eq]; rfl

@[simp] theorem openCmd_usesRate : (openCmd q op s).usesRate = s.usesRate := by
  rw [openCmd_eq]; rfl

@[simp] theorem openCmd_burstTicks : (openCmd q op s).burstTicks = s.burstTicks := by
  rw [openCmd_eq]; rfl

@[simp] theorem openCmd_lineValue : (openCmd q op s).lineValue = s.lineValue := by
  rw [openCmd_eq]; rfl

@[simp] theorem openCmd_pathValue : (openCmd q op s).pathValue = s.pathValue := by
  rw [openCmd_eq]; rfl

@[simp] theorem openCmd_powerValue : (openCmd q op s).powerValue = s.powerValue := by
  rw [openCmd_eq]; rfl

@[simp] theorem openCmd_paramValue : (openCmd q op s).paramValue = s.paramValue := by
  rw [openCmd_eq]; rfl

@[simp] theorem openCmd_mode4Groups : (openCmd q op s).mode4Groups = s.mode4Groups := by
  rw [openCmd_eq]; rfl

@[simp] theorem openCmd_setRefused : (openCmd q op s).setRefused = s.setRefused := by
  rw [openCmd_eq]; rfl

@[simp] theorem openCmd_injectOk : (openCmd q op s).injectOk = s.injectOk := by
  rw [openCmd_eq]; rfl

@[simp] theorem openCmd_anyPastDiscovery : (openCmd q op s).anyPastDiscovery = s.anyPastDiscovery := by
  rw [openCmd_eq]; rfl

@[simp] theorem openCmd_onuState : (openCmd q op s).onuState = s.onuState := by
  rw [openCmd_eq]; rfl

@[simp] theorem openCmd_onuRate : (openCmd q op s).onuRate = s.onuRate := by
  rw [openCmd_eq]; rfl

@[simp] theorem openCmd_phaseEnt : (openCmd q op s).phaseEnt = s.phaseEnt := by
  rw [openCmd_eq]; rfl

@[simp] theorem openCmd_findOnu : (openCmd q op s).findOnu = s.findOnu := by
  rw [openCmd_eq]; rfl

@[simp] theorem openCmd_findSerial : (openCmd q op s).findSerial = s.findSerial := by
  rw [openCmd_eq]; rfl

@[simp] theorem openCmd_portExists : (openCmd q op s).portExists = s.portExists := by
  rw [openCmd_eq]; rfl

@[simp] theorem openCmd_sbFrameNow : (openCmd q op s).sbFrameNow = s.sbFrameNow := by
  rw [openCmd_eq]; rfl

@[simp] theorem openCmd_retriesOf : (openCmd q op s).retriesOf = s.retriesOf := by
  rw [openCmd_eq]; rfl

@[simp] theorem openCmd_linkWord : (openCmd q op s).linkWord = s.linkWord := by
  rw [openCmd_eq]; rfl

@[simp] theorem openCmd_ltbNs : (openCmd q op s).ltbNs = s.ltbNs := by
  rw [openCmd_eq]; rfl

@[simp] theorem openCmd_bankHeld : (openCmd q op s).bankHeld = s.bankHeld := by
  rw [openCmd_eq]; rfl

@[simp] theorem openCmd_bankFree : (openCmd q op s).bankFree = s.bankFree := by
  rw [openCmd_eq]; rfl

@[simp] theorem openCmd_bankShare : (openCmd q op s).bankShare = s.bankShare := by
  rw [openCmd_eq]; rfl

@[simp] theorem openCmd_bankKept : (openCmd q op s).bankKept = s.bankKept := by
  rw [openCmd_eq]; rfl

@[simp] theorem openCmd_firstFree : (openCmd q op s).firstFree = s.firstFree := by
  rw [openCmd_eq]; rfl

@[simp] theorem openCmd_bankGrant : (openCmd q op s).bankGrant = s.bankGrant := by
  rw [openCmd_eq]; rfl

@[simp] theorem openCmd_firstBank : (openCmd q op s).firstBank = s.firstBank := by
  rw [openCmd_eq]; rfl

@[simp] theorem openCmd_chain : (openCmd q op s).chain = s.chain := by
  rw [openCmd_eq]; rfl

@[simp] theorem openCmd_chainBad : (openCmd q op s).chainBad = s.chainBad := by
  rw [openCmd_eq]; rfl

@[simp] theorem openCmd_queue : (openCmd q op s).queue = s.queue := by
  rw [openCmd_eq]; rfl

@[simp] theorem openCmd_bufProf : (openCmd q op s).bufProf = s.bufProf := by
  rw [openCmd_eq]; rfl

@[simp] theorem openCmd_maySpill : (openCmd q op s).maySpill = s.maySpill := by
  rw [openCmd_eq]; rfl

@[simp] theorem openCmd_descCells : (openCmd q op s).descCells = s.descCells := by
  rw [openCmd_eq]; rfl

@[simp] theorem openCmd_onDie : (openCmd q op s).onDie = s.onDie := by
  rw [openCmd_eq]; rfl

@[simp] theorem openCmd_queueBytes : (openCmd q op s).queueBytes = s.queueBytes := by
  rw [openCmd_eq]; rfl

@[simp] theorem openCmd_stackPages : (openCmd q op s).stackPages = s.stackPages := by
  rw [openCmd_eq]; rfl

@[simp] theorem openCmd_usedPages : (openCmd q op s).usedPages = s.usedPages := by
  rw [openCmd_eq]; rfl

@[simp] theorem openCmd_freePage : (openCmd q op s).freePage = s.freePage := by
  rw [openCmd_eq]; rfl

@[simp] theorem openCmd_freePages : (openCmd q op s).freePages = s.freePages := by
  rw [openCmd_eq]; rfl

@[simp] theorem openCmd_openSlots : (openCmd q op s).openSlots = s.openSlots := by
  rw [openCmd_eq]; rfl

@[simp] theorem openCmd_enqDecide : (openCmd q op s).enqDecide = s.enqDecide := by
  rw [openCmd_eq]; rfl

@[simp] theorem openCmd_vTarget : (openCmd q op s).vTarget = s.vTarget := by
  rw [openCmd_eq]; rfl

@[simp] theorem openCmd_vHighest : (openCmd q op s).vHighest = s.vHighest := by
  rw [openCmd_eq]; rfl

@[simp] theorem openCmd_guardNow : (openCmd q op s).guardNow = s.guardNow := by
  rw [openCmd_eq]; rfl

@[simp] theorem openCmd_setpoint : (openCmd q op s).setpoint = s.setpoint := by
  rw [openCmd_eq]; rfl

@[simp] theorem openCmd_ltbSec : (openCmd q op s).ltbSec = s.ltbSec := by
  rw [openCmd_eq]; rfl

@[simp] theorem openCmd_pairsOff : (openCmd q op s).pairsOff = s.pairsOff := by
  rw [openCmd_eq]; rfl

@[simp] theorem openCmd_portsOff : (openCmd q op s).portsOff = s.portsOff := by
  rw [openCmd_eq]; rfl

@[simp] theorem openCmd_nextOptSeq : (openCmd q op s).nextOptSeq = s.nextOptSeq := by
  rw [openCmd_eq]; rfl

@[simp] theorem openCmd_groupOctets : (openCmd q op s).groupOctets = s.groupOctets := by
  rw [openCmd_eq]; rfl

@[simp] theorem openCmd_groupDigest : (openCmd q op s).groupDigest = s.groupDigest := by
  rw [openCmd_eq]; rfl

@[simp] theorem openCmd_treeOnus : (openCmd q op s).treeOnus = s.treeOnus := by
  rw [openCmd_eq]; rfl

@[simp] theorem openCmd_treeAllocCtx : (openCmd q op s).treeAllocCtx = s.treeAllocCtx := by
  rw [openCmd_eq]; rfl

@[simp] theorem openCmd_auditSums : (openCmd q op s).auditSums = s.auditSums := by
  rw [openCmd_eq]; rfl

@[simp] theorem openCmd_stackRole : (openCmd q op s).stackRole = s.stackRole := by
  rw [openCmd_eq]; rfl

@[simp] theorem openCmd_actsMaster : (openCmd q op s).actsMaster = s.actsMaster := by
  rw [openCmd_eq]; rfl

@[simp] theorem openCmd_liveLinks : (openCmd q op s).liveLinks = s.liveLinks := by
  rw [openCmd_eq]; rfl

@[simp] theorem openCmd_members : (openCmd q op s).members = s.members := by
  rw [openCmd_eq]; rfl

@[simp] theorem openCmd_masters : (openCmd q op s).masters = s.masters := by
  rw [openCmd_eq]; rfl

@[simp] theorem openCmd_groupRecords : (openCmd q op s).groupRecords = s.groupRecords := by
  rw [openCmd_eq]; rfl

@[simp] theorem openCmd_goneRecords : (openCmd q op s).goneRecords = s.goneRecords := by
  rw [openCmd_eq]; rfl

@[simp] theorem openCmd_mirrorClash : (openCmd q op s).mirrorClash = s.mirrorClash := by
  rw [openCmd_eq]; rfl

@[simp] theorem openCmd_protWord : (openCmd q op s).protWord = s.protWord := by
  rw [openCmd_eq]; rfl

@[simp] theorem openCmd_populated : (openCmd q op s).populated = s.populated := by
  rw [openCmd_eq]; rfl

@[simp] theorem openCmd_idleSpare : (openCmd q op s).idleSpare = s.idleSpare := by
  rw [openCmd_eq]; rfl

@[simp] theorem openCmd_grp : (openCmd q op s).grp = s.grp := by
  rw [openCmd_eq]; rfl

@[simp] theorem openCmd_standbyTree : (openCmd q op s).standbyTree = s.standbyTree := by
  rw [openCmd_eq]; rfl

@[simp] theorem openCmd_holdsTree : (openCmd q op s).holdsTree = s.holdsTree := by
  rw [openCmd_eq]; rfl

@[simp] theorem openCmd_settling : (openCmd q op s).settling = s.settling := by
  rw [openCmd_eq]; rfl

@[simp] theorem openCmd_peerHeard : (openCmd q op s).peerHeard = s.peerHeard := by
  rw [openCmd_eq]; rfl

@[simp] theorem openCmd_peerActive : (openCmd q op s).peerActive = s.peerActive := by
  rw [openCmd_eq]; rfl

@[simp] theorem openCmd_ixrUp : (openCmd q op s).ixrUp = s.ixrUp := by
  rw [openCmd_eq]; rfl

@[simp] theorem openCmd_stackId : (openCmd q op s).stackId = s.stackId := by
  rw [openCmd_eq]; rfl

@[simp] theorem openCmd_timeSteps : (openCmd q op s).timeSteps = s.timeSteps := by
  rw [openCmd_eq]; rfl

@[simp] theorem openCmd_onuDefectWord : (openCmd q op s).onuDefectWord = s.onuDefectWord := by
  rw [openCmd_eq]; rfl

@[simp] theorem openCmd_chanDefectWord : (openCmd q op s).chanDefectWord = s.chanDefectWord := by
  rw [openCmd_eq]; rfl

@[simp] theorem openCmd_firstRun : (openCmd q op s).firstRun = s.firstRun := by
  rw [openCmd_eq]; rfl

@[simp] theorem openCmd_rxOnu : (openCmd q op s).rxOnu = s.rxOnu := by
  rw [openCmd_eq]; rfl

@[simp] theorem openCmd_rxCh : (openCmd q op s).rxCh = s.rxCh := by
  rw [openCmd_eq]; rfl

@[simp] theorem openCmd_assigned : (openCmd q op s).assigned = s.assigned := by
  rw [openCmd_eq]; rfl

@[simp] theorem openCmd_inQuarantine : (openCmd q op s).inQuarantine = s.inQuarantine := by
  rw [openCmd_eq]; rfl

@[simp] theorem openCmd_skewWindow : (openCmd q op s).skewWindow = s.skewWindow := by
  rw [openCmd_eq]; rfl

@[simp] theorem openCmd_delimiter : (openCmd q op s).delimiter = s.delimiter := by
  rw [openCmd_eq]; rfl

@[simp] theorem openCmd_outcome : (openCmd q op s).outcome = s.outcome := by
  rw [openCmd_eq]; rfl

@[simp] theorem openCmd_tribsOf : (openCmd q op s).tribsOf = s.tribsOf := by
  rw [openCmd_eq]; rfl

@[simp] theorem openCmd_entryPos : (openCmd q op s).entryPos = s.entryPos := by
  rw [openCmd_eq]; rfl

@[simp] theorem openCmd_evalDue : (openCmd q op s).evalDue = s.evalDue := by
  rw [openCmd_eq]; rfl

@[simp] theorem openCmd_sfKind : (openCmd q op s).sfKind = s.sfKind := by
  rw [openCmd_eq]; rfl

@[simp] theorem openCmd_downstreamOk : (openCmd q op s).downstreamOk = s.downstreamOk := by
  rw [openCmd_eq]; rfl

@[simp] theorem openCmd_treeFails : (openCmd q op s).treeFails = s.treeFails := by
  rw [openCmd_eq]; rfl

@[simp] theorem openCmd_onusOn : (openCmd q op s).onusOn = s.onusOn := by
  rw [openCmd_eq]; rfl

@[simp] theorem openCmd_parentOk : (openCmd q op s).parentOk = s.parentOk := by
  rw [openCmd_eq]; rfl

@[simp] theorem openCmd_queueNamed : (openCmd q op s).queueNamed = s.queueNamed := by
  rw [openCmd_eq]; rfl

@[simp] theorem openCmd_levelNow : (openCmd q op s).levelNow = s.levelNow := by
  rw [openCmd_eq]; rfl

@[simp] theorem openCmd_gateStart : (openCmd q op s).gateStart = s.gateStart := by
  rw [openCmd_eq]; rfl

@[simp] theorem openCmd_gateEntry : (openCmd q op s).gateEntry = s.gateEntry := by
  rw [openCmd_eq]; rfl

@[simp] theorem openCmd_queueDelay : (openCmd q op s).queueDelay = s.queueDelay := by
  rw [openCmd_eq]; rfl

@[simp] theorem openCmd_rootAccepts : (openCmd q op s).rootAccepts = s.rootAccepts := by
  rw [openCmd_eq]; rfl

@[simp] theorem openCmd_omciDue : (openCmd q op s).omciDue = s.omciDue := by
  rw [openCmd_eq]; rfl

@[simp] theorem openCmd_clk15 : (openCmd q op s).clk15 = s.clk15 := by
  rw [openCmd_eq]; rfl

@[simp] theorem openCmd_rootSpeed : (openCmd q op s).rootSpeed = s.rootSpeed := by
  rw [openCmd_eq]; rfl

@[simp] theorem openCmd_rootVertex : (openCmd q op s).rootVertex = s.rootVertex := by
  rw [openCmd_eq]; rfl

@[simp] theorem openCmd_vert : (openCmd q op s).vert = s.vert := by
  rw [openCmd_eq]; rfl

@[simp] theorem openCmd_nodeArgs : (openCmd q op s).nodeArgs = s.nodeArgs := by
  rw [openCmd_eq]; rfl

@[simp] theorem openCmd_deficit : (openCmd q op s).deficit = s.deficit := by
  rw [openCmd_eq]; rfl

@[simp] theorem openCmd_treeFuel : (openCmd q op s).treeFuel = s.treeFuel := by
  rw [openCmd_eq]; rfl

@[simp] theorem openCmd_counted : (openCmd q op s).counted = s.counted := by
  rw [openCmd_eq]; rfl

@[simp] theorem openCmd_frameLen : (openCmd q op s).frameLen = s.frameLen := by
  rw [openCmd_eq]; rfl

@[simp] theorem openCmd_ltbFine : (openCmd q op s).ltbFine = s.ltbFine := by
  rw [openCmd_eq]; rfl

@[simp] theorem openCmd_gateTest : (openCmd q op s).gateTest = s.gateTest := by
  rw [openCmd_eq]; rfl

@[simp] theorem openCmd_sagAllows : (openCmd q op s).sagAllows = s.sagAllows := by
  rw [openCmd_eq]; rfl

@[simp] theorem openCmd_tuningHolds : (openCmd q op s).tuningHolds = s.tuningHolds := by
  rw [openCmd_eq]; rfl

@[simp] theorem openCmd_levelOk : (openCmd q op s).levelOk = s.levelOk := by
  rw [openCmd_eq]; rfl

@[simp] theorem openCmd_maxOk : (openCmd q op s).maxOk = s.maxOk := by
  rw [openCmd_eq]; rfl

@[simp] theorem openCmd_headLen : (openCmd q op s).headLen = s.headLen := by
  rw [openCmd_eq]; rfl

@[simp] theorem openCmd_inCommit : (openCmd q op s).inCommit = s.inCommit := by
  rw [openCmd_eq]; rfl

@[simp] theorem openCmd_itemOnu : (openCmd q op s).itemOnu = s.itemOnu := by
  rw [openCmd_eq]; rfl

@[simp] theorem openCmd_itemChan : (openCmd q op s).itemChan = s.itemChan := by
  rw [openCmd_eq]; rfl

@[simp] theorem openCmd_itemEarly : (openCmd q op s).itemEarly = s.itemEarly := by
  rw [openCmd_eq]; rfl

@[simp] theorem openCmd_itemReady : (openCmd q op s).itemReady = s.itemReady := by
  rw [openCmd_eq]; rfl

@[simp] theorem openCmd_profiles : (openCmd q op s).profiles = s.profiles := by
  rw [openCmd_eq]; rfl

@[simp] theorem openCmd_profDue : (openCmd q op s).profDue = s.profDue := by
  rw [openCmd_eq]; rfl

@[simp] theorem openCmd_profOrder : (openCmd q op s).profOrder = s.profOrder := by
  rw [openCmd_eq]; rfl

@[simp] theorem openCmd_pairs : (openCmd q op s).pairs = s.pairs := by
  rw [openCmd_eq]; rfl

@[simp] theorem openCmd_ltb64 : (openCmd q op s).ltb64 = s.ltb64 := by
  rw [openCmd_eq]; rfl

@[simp] theorem openCmd_qualWindow : (openCmd q op s).qualWindow = s.qualWindow := by
  rw [openCmd_eq]; rfl

@[simp] theorem openCmd_mayQualify : (openCmd q op s).mayQualify = s.mayQualify := by
  rw [openCmd_eq]; rfl

@[simp] theorem openCmd_domsOf : (openCmd q op s).domsOf = s.domsOf := by
  rw [openCmd_eq]; rfl

@[simp] theorem openCmd_lossTime : (openCmd q op s).lossTime = s.lossTime := by
  rw [openCmd_eq]; rfl

@[simp] theorem openCmd_preferred : (openCmd q op s).preferred = s.preferred := by
  rw [openCmd_eq]; rfl

@[simp] theorem openCmd_bestDomain : (openCmd q op s).bestDomain = s.bestDomain := by
  rw [openCmd_eq]; rfl

@[simp] theorem openCmd_clockId : (openCmd q op s).clockId = s.clockId := by
  rw [openCmd_eq]; rfl

@[simp] theorem openCmd_ptpSteers : (openCmd q op s).ptpSteers = s.ptpSteers := by
  rw [openCmd_eq]; rfl

@[simp] theorem openCmd_ownClass : (openCmd q op s).ownClass = s.ownClass := by
  rw [openCmd_eq]; rfl

@[simp] theorem openCmd_ownKey : (openCmd q op s).ownKey = s.ownKey := by
  rw [openCmd_eq]; rfl

@[simp] theorem openCmd_portKey : (openCmd q op s).portKey = s.portKey := by
  rw [openCmd_eq]; rfl

@[simp] theorem openCmd_bestForeign : (openCmd q op s).bestForeign = s.bestForeign := by
  rw [openCmd_eq]; rfl

@[simp] theorem openCmd_portDecision : (openCmd q op s).portDecision = s.portDecision := by
  rw [openCmd_eq]; rfl

@[simp] theorem openCmd_ptpTheta : (openCmd q op s).ptpTheta = s.ptpTheta := by
  rw [openCmd_eq]; rfl

@[simp] theorem openCmd_linkIdx : (openCmd q op s).linkIdx = s.linkIdx := by
  rw [openCmd_eq]; rfl

@[simp] theorem openCmd_timeFrame : (openCmd q op s).timeFrame = s.timeFrame := by
  rw [openCmd_eq]; rfl

@[simp] theorem openCmd_rtdPpm : (openCmd q op s).rtdPpm = s.rtdPpm := by
  rw [openCmd_eq]; rfl

@[simp] theorem openCmd_pulseOf : (openCmd q op s).pulseOf = s.pulseOf := by
  rw [openCmd_eq]; rfl

@[simp] theorem openCmd_ltbSet : (openCmd q op s).ltbSet = s.ltbSet := by
  rw [openCmd_eq]; rfl

@[simp] theorem openCmd_hoGrowth : (openCmd q op s).hoGrowth = s.hoGrowth := by
  rw [openCmd_eq]; rfl

@[simp] theorem openCmd_refGrowth : (openCmd q op s).refGrowth = s.refGrowth := by
  rw [openCmd_eq]; rfl

@[simp] theorem openCmd_maxErr : (openCmd q op s).maxErr = s.maxErr := by
  rw [openCmd_eq]; rfl

@[simp] theorem openCmd_clockClass : (openCmd q op s).clockClass = s.clockClass := by
  rw [openCmd_eq]; rfl

@[simp] theorem openCmd_utc : (openCmd q op s).utc = s.utc := by
  rw [openCmd_eq]; rfl

@[simp] theorem openCmd_ptpTerminates : (openCmd q op s).ptpTerminates = s.ptpTerminates := by
  rw [openCmd_eq]; rfl

@[simp] theorem openCmd_todOf : (openCmd q op s).todOf = s.todOf := by
  rw [openCmd_eq]; rfl

@[simp] theorem openCmd_dsCh : (openCmd q op s).dsCh = s.dsCh := by
  rw [openCmd_eq]; rfl

@[simp] theorem openCmd_slotsOk : (openCmd q op s).slotsOk = s.slotsOk := by
  rw [openCmd_eq]; rfl

@[simp] theorem openCmd_slotTarget : (openCmd q op s).slotTarget = s.slotTarget := by
  rw [openCmd_eq]; rfl

theorem rootOf_congr {s t : State} (h : t.vert = s.vert) : t.rootOf = s.rootOf := by
  funext n
  induction n with
  | zero => rfl
  | succ n ih => funext v; simp only [State.rootOf, h, ih]

theorem vertDepth_congr {s t : State} (h : t.vert = s.vert) : t.vertDepth = s.vertDepth := by
  funext n
  induction n with
  | zero => rfl
  | succ n ih => funext v; simp only [State.vertDepth, h, ih]

theorem queueDepth_congr {s t : State} (h : t.vert = s.vert) : t.queueDepth = s.queueDepth := by
  funext n
  induction n with
  | zero => rfl
  | succ n ih => funext v; simp only [State.queueDepth, h, ih]

theorem emptyNode_congr {s t : State} (h : t.vert = s.vert) (g : t.queue = s.queue) : t.emptyNode = s.emptyNode := by
  funext n
  induction n with
  | zero => rfl
  | succ n ih => funext v; simp only [State.emptyNode, h, g, ih]

theorem onlyOnu_congr {s t : State} (h : t.vert = s.vert) (g : t.queue = s.queue) (o : Nat) : t.onlyOnu o = s.onlyOnu o := by
  funext n
  induction n with
  | zero => rfl
  | succ n ih => funext v; simp only [State.onlyOnu, h, g, ih]

@[simp] theorem openCmd_rootOf : (openCmd q op s).rootOf = s.rootOf := rootOf_congr (openCmd_vert ..)

@[simp] theorem openCmd_vertDepth : (openCmd q op s).vertDepth = s.vertDepth := vertDepth_congr (openCmd_vert ..)

@[simp] theorem openCmd_queueDepth : (openCmd q op s).queueDepth = s.queueDepth := queueDepth_congr (openCmd_vert ..)

@[simp] theorem openCmd_emptyNode : (openCmd q op s).emptyNode = s.emptyNode := emptyNode_congr (openCmd_vert ..) (openCmd_queue ..)

@[simp] theorem openCmd_onlyOnu : (openCmd q op s).onlyOnu = s.onlyOnu := funext fun o => onlyOnu_congr (openCmd_vert ..) (openCmd_queue ..) o

@[simp] theorem openCmd_isAncestor : (openCmd q op s).isAncestor = s.isAncestor := by
  funext v n
  induction n with
  | zero => rfl
  | succ n ih => funext w; simp only [State.isAncestor, openCmd_vert, ih]

@[simp] theorem openCmd_onuTop : (openCmd q op s).onuTop = s.onuTop := by
  funext v n
  induction n with
  | zero => rfl
  | succ n ih =>
    funext w
    simp only [State.onuTop, openCmd_nodeArgs, openCmd_onlyOnu, openCmd_treeFuel, ih]

@[simp] theorem openCmd_vertSlice : (openCmd q op s).vertSlice = s.vertSlice := by
  funext v; simp only [State.vertSlice, openCmd_rootOf, openCmd_treeFuel]

@[simp] theorem openCmd_gateFits : (openCmd q op s).gateFits = s.gateFits := by
  funext v; simp only [State.gateFits, openCmd_vertSlice]

@[simp] theorem openCmd_queuesIn : (openCmd q op s).queuesIn = s.queuesIn := by
  funext a b; simp only [State.queuesIn, openCmd_vertSlice, openCmd_sch]

@[simp] theorem openCmd_verticesIn : (openCmd q op s).verticesIn = s.verticesIn := by
  funext v; simp only [State.verticesIn, openCmd_vertSlice, openCmd_sch]

@[simp] theorem openCmd_rootRate : (openCmd q op s).rootRate = s.rootRate := by
  funext v; simp only [State.rootRate, openCmd_rootOf, openCmd_treeFuel, openCmd_vert, openCmd_rootSpeed]

@[simp] theorem openCmd_gateOk : (openCmd q op s).gateOk = s.gateOk := by
  funext x; simp only [State.gateOk, openCmd_gateTest, openCmd_rootRate, openCmd_headLen]

@[simp] theorem openCmd_queueElig : (openCmd q op s).queueElig = s.queueElig := by
  funext k x; simp only [State.queueElig, openCmd_maxOk, openCmd_gateOk, openCmd_sagAllows, openCmd_tuningHolds]

@[simp] theorem openCmd_eligible : (openCmd q op s).eligible = s.eligible := by
  funext n
  induction n with
  | zero => rfl
  | succ n ih =>
    funext k; simp only [State.eligible, openCmd_queue, openCmd_vert, openCmd_queueElig, openCmd_maxOk, ih]

@[simp] theorem openCmd_rootQueues : (openCmd q op s).rootQueues = s.rootQueues := by
  funext v; simp only [State.rootQueues, openCmd_rootOf, openCmd_treeFuel, openCmd_sch]

@[simp] theorem openCmd_halfQueues : (openCmd q op s).halfQueues = s.halfQueues := by
  funext a b; simp only [State.halfQueues, openCmd_vertSlice, openCmd_sch]

@[simp] theorem openCmd_halfVerts : (openCmd q op s).halfVerts = s.halfVerts := by
  funext a b; simp only [State.halfVerts, openCmd_vertSlice, openCmd_sch]

@[simp] theorem openCmd_portQueues : (openCmd q op s).portQueues = s.portQueues := by
  funext p; simp only [State.portQueues, openCmd_rootOf, openCmd_treeFuel, openCmd_sch]

@[simp] theorem openCmd_spaceRecord : (openCmd q op s).spaceRecord = s.spaceRecord := by
  rw [openCmd_eq]; rfl

@[simp] theorem openCmd_spaceOctets : (openCmd q op s).spaceOctets = s.spaceOctets := by
  funext a n
  induction n with
  | zero => rfl
  | succ n ih => funext b; simp only [State.spaceOctets, openCmd_spaceRecord, ih]

@[simp] theorem openCmd_scanned : (openCmd q op s).scanned = s.scanned := by
  funext c d; simp only [State.scanned, openCmd_spaceOctets]

@[simp] theorem openCmd_micOk : (openCmd q op s).micOk = s.micOk := by
  rw [openCmd_eq]; rfl

@[simp] theorem openCmd_deepOf : (openCmd q op s).deepOf = s.deepOf := by
  rw [openCmd_eq]; rfl

@[simp] theorem openCmd_lagBlocker : (openCmd q op s).lagBlocker = s.lagBlocker := by
  funext a b; simp only [State.lagBlocker, openCmd_rootOf, openCmd_treeFuel, openCmd_sch, openCmd_deepOf]

@[simp] theorem openCmd_sliceEmpty : (openCmd q op s).sliceEmpty = s.sliceEmpty := by
  funext a; simp only [State.sliceEmpty, openCmd_halfQueues, openCmd_queue]

@[simp] theorem openCmd_mayPowerOff : (openCmd q op s).mayPowerOff = s.mayPowerOff := by
  funext a
  simp only [State.mayPowerOff, openCmd_pairsOff, openCmd_portsOff, openCmd_sliceEmpty, openCmd_lane, openCmd_pool]

@[simp] theorem openCmd_askBanks : (openCmd q op s).askBanks = s.askBanks := by
  funext r n
  induction n with
  | zero => rfl
  | succ n ih => funext b m; simp only [State.askBanks, openCmd_bankGrant, ih]

end Sys2Proof.Machine
end

