-- ==== Sys2Proof/Laws/State.lean ====
section
/-! SUPPORT. One lemma per field of State per shared update: what a counter, an event, a parameter and a completion leave
alone. -/

namespace Sys2Proof.Machine

@[simp] theorem bump_pending (c : Ctr) (i : Nat) (s : State) : (bump c i s).pending = s.pending := rfl
@[simp] theorem bump_free (c : Ctr) (i : Nat) (s : State) : (bump c i s).free = s.free := rfl
@[simp] theorem bump_clk (c : Ctr) (i : Nat) (s : State) : (bump c i s).clk = s.clk := rfl
@[simp] theorem bump_rst (c : Ctr) (i : Nat) (s : State) : (bump c i s).rst = s.rst := rfl
@[simp] theorem bump_opt (c : Ctr) (i : Nat) (s : State) : (bump c i s).opt = s.opt := rfl
@[simp] theorem bump_pwr (c : Ctr) (i : Nat) (s : State) : (bump c i s).pwr = s.pwr := rfl
@[simp] theorem bump_flt (c : Ctr) (i : Nat) (s : State) : (bump c i s).flt = s.flt := rfl
@[simp] theorem bump_mon (c : Ctr) (i : Nat) (s : State) : (bump c i s).mon = s.mon := rfl
@[simp] theorem bump_ann (c : Ctr) (i : Nat) (s : State) : (bump c i s).ann = s.ann := rfl
@[simp] theorem bump_led (c : Ctr) (i : Nat) (s : State) : (bump c i s).led = s.led := rfl
@[simp] theorem bump_lane (c : Ctr) (i : Nat) (s : State) : (bump c i s).lane = s.lane := rfl
@[simp] theorem bump_ds (c : Ctr) (i : Nat) (s : State) : (bump c i s).ds = s.ds := rfl
@[simp] theorem bump_onu (c : Ctr) (i : Nat) (s : State) : (bump c i s).onu = s.onu := rfl
@[simp] theorem bump_map (c : Ctr) (i : Nat) (s : State) : (bump c i s).map = s.map := rfl
@[simp] theorem bump_rx (c : Ctr) (i : Nat) (s : State) : (bump c i s).rx = s.rx := rfl
@[simp] theorem bump_time (c : Ctr) (i : Nat) (s : State) : (bump c i s).time = s.time := rfl
@[simp] theorem bump_amp (c : Ctr) (i : Nat) (s : State) : (bump c i s).amp = s.amp := rfl
@[simp] theorem bump_cip (c : Ctr) (i : Nat) (s : State) : (bump c i s).cip = s.cip := rfl
@[simp] theorem bump_prot (c : Ctr) (i : Nat) (s : State) : (bump c i s).prot = s.prot := rfl
@[simp] theorem bump_cls (c : Ctr) (i : Nat) (s : State) : (bump c i s).cls = s.cls := rfl
@[simp] theorem bump_em (c : Ctr) (i : Nat) (s : State) : (bump c i s).em = s.em := rfl
@[simp] theorem bump_pool (c : Ctr) (i : Nat) (s : State) : (bump c i s).pool = s.pool := rfl
@[simp] theorem bump_sch (c : Ctr) (i : Nat) (s : State) : (bump c i s).sch = s.sch := rfl
@[simp] theorem bump_par (c : Ctr) (i : Nat) (s : State) : (bump c i s).par = s.par := rfl
@[simp] theorem bump_host (c : Ctr) (i : Nat) (s : State) : (bump c i s).host = s.host := rfl

@[simp] theorem bumpBy_pending (c : Ctr) (i n : Nat) (s : State) : (bumpBy c i n s).pending = s.pending := rfl
@[simp] theorem bumpBy_free (c : Ctr) (i n : Nat) (s : State) : (bumpBy c i n s).free = s.free := rfl
@[simp] theorem bumpBy_clk (c : Ctr) (i n : Nat) (s : State) : (bumpBy c i n s).clk = s.clk := rfl
@[simp] theorem bumpBy_rst (c : Ctr) (i n : Nat) (s : State) : (bumpBy c i n s).rst = s.rst := rfl
@[simp] theorem bumpBy_opt (c : Ctr) (i n : Nat) (s : State) : (bumpBy c i n s).opt = s.opt := rfl
@[simp] theorem bumpBy_pwr (c : Ctr) (i n : Nat) (s : State) : (bumpBy c i n s).pwr = s.pwr := rfl
@[simp] theorem bumpBy_flt (c : Ctr) (i n : Nat) (s : State) : (bumpBy c i n s).flt = s.flt := rfl
@[simp] theorem bumpBy_mon (c : Ctr) (i n : Nat) (s : State) : (bumpBy c i n s).mon = s.mon := rfl
@[simp] theorem bumpBy_ann (c : Ctr) (i n : Nat) (s : State) : (bumpBy c i n s).ann = s.ann := rfl
@[simp] theorem bumpBy_led (c : Ctr) (i n : Nat) (s : State) : (bumpBy c i n s).led = s.led := rfl
@[simp] theorem bumpBy_lane (c : Ctr) (i n : Nat) (s : State) : (bumpBy c i n s).lane = s.lane := rfl
@[simp] theorem bumpBy_ds (c : Ctr) (i n : Nat) (s : State) : (bumpBy c i n s).ds = s.ds := rfl
@[simp] theorem bumpBy_onu (c : Ctr) (i n : Nat) (s : State) : (bumpBy c i n s).onu = s.onu := rfl
@[simp] theorem bumpBy_map (c : Ctr) (i n : Nat) (s : State) : (bumpBy c i n s).map = s.map := rfl
@[simp] theorem bumpBy_rx (c : Ctr) (i n : Nat) (s : State) : (bumpBy c i n s).rx = s.rx := rfl
@[simp] theorem bumpBy_time (c : Ctr) (i n : Nat) (s : State) : (bumpBy c i n s).time = s.time := rfl
@[simp] theorem bumpBy_amp (c : Ctr) (i n : Nat) (s : State) : (bumpBy c i n s).amp = s.amp := rfl
@[simp] theorem bumpBy_cip (c : Ctr) (i n : Nat) (s : State) : (bumpBy c i n s).cip = s.cip := rfl
@[simp] theorem bumpBy_prot (c : Ctr) (i n : Nat) (s : State) : (bumpBy c i n s).prot = s.prot := rfl
@[simp] theorem bumpBy_cls (c : Ctr) (i n : Nat) (s : State) : (bumpBy c i n s).cls = s.cls := rfl
@[simp] theorem bumpBy_em (c : Ctr) (i n : Nat) (s : State) : (bumpBy c i n s).em = s.em := rfl
@[simp] theorem bumpBy_pool (c : Ctr) (i n : Nat) (s : State) : (bumpBy c i n s).pool = s.pool := rfl
@[simp] theorem bumpBy_sch (c : Ctr) (i n : Nat) (s : State) : (bumpBy c i n s).sch = s.sch := rfl
@[simp] theorem bumpBy_par (c : Ctr) (i n : Nat) (s : State) : (bumpBy c i n s).par = s.par := rfl
@[simp] theorem bumpBy_host (c : Ctr) (i n : Nat) (s : State) : (bumpBy c i n s).host = s.host := rfl

@[simp] theorem event_pending (c : Nat) (l : List RVal) (s : State) : (event c l s).pending = s.pending := rfl
@[simp] theorem event_free (c : Nat) (l : List RVal) (s : State) : (event c l s).free = s.free := rfl
@[simp] theorem event_clk (c : Nat) (l : List RVal) (s : State) : (event c l s).clk = s.clk := rfl
@[simp] theorem event_rst (c : Nat) (l : List RVal) (s : State) : (event c l s).rst = s.rst := rfl
@[simp] theorem event_opt (c : Nat) (l : List RVal) (s : State) : (event c l s).opt = s.opt := rfl
@[simp] theorem event_pwr (c : Nat) (l : List RVal) (s : State) : (event c l s).pwr = s.pwr := rfl
@[simp] theorem event_flt (c : Nat) (l : List RVal) (s : State) : (event c l s).flt = s.flt := rfl
@[simp] theorem event_mon (c : Nat) (l : List RVal) (s : State) : (event c l s).mon = s.mon := rfl
@[simp] theorem event_ann (c : Nat) (l : List RVal) (s : State) : (event c l s).ann = s.ann := rfl
@[simp] theorem event_led (c : Nat) (l : List RVal) (s : State) : (event c l s).led = s.led := rfl
@[simp] theorem event_lane (c : Nat) (l : List RVal) (s : State) : (event c l s).lane = s.lane := rfl
@[simp] theorem event_ds (c : Nat) (l : List RVal) (s : State) : (event c l s).ds = s.ds := rfl
@[simp] theorem event_onu (c : Nat) (l : List RVal) (s : State) : (event c l s).onu = s.onu := rfl
@[simp] theorem event_map (c : Nat) (l : List RVal) (s : State) : (event c l s).map = s.map := rfl
@[simp] theorem event_rx (c : Nat) (l : List RVal) (s : State) : (event c l s).rx = s.rx := rfl
@[simp] theorem event_time (c : Nat) (l : List RVal) (s : State) : (event c l s).time = s.time := rfl
@[simp] theorem event_amp (c : Nat) (l : List RVal) (s : State) : (event c l s).amp = s.amp := rfl
@[simp] theorem event_cip (c : Nat) (l : List RVal) (s : State) : (event c l s).cip = s.cip := rfl
@[simp] theorem event_prot (c : Nat) (l : List RVal) (s : State) : (event c l s).prot = s.prot := rfl
@[simp] theorem event_cls (c : Nat) (l : List RVal) (s : State) : (event c l s).cls = s.cls := rfl
@[simp] theorem event_em (c : Nat) (l : List RVal) (s : State) : (event c l s).em = s.em := rfl
@[simp] theorem event_pool (c : Nat) (l : List RVal) (s : State) : (event c l s).pool = s.pool := rfl
@[simp] theorem event_sch (c : Nat) (l : List RVal) (s : State) : (event c l s).sch = s.sch := rfl
@[simp] theorem event_par (c : Nat) (l : List RVal) (s : State) : (event c l s).par = s.par := rfl
@[simp] theorem event_ctr (c : Nat) (l : List RVal) (s : State) : (event c l s).ctr = s.ctr := rfl

@[simp] theorem setParam_pending (p i : Nat) (v : Int) (s : State) : (setParam p i v s).pending = s.pending := rfl
@[simp] theorem setParam_free (p i : Nat) (v : Int) (s : State) : (setParam p i v s).free = s.free := rfl
@[simp] theorem setParam_clk (p i : Nat) (v : Int) (s : State) : (setParam p i v s).clk = s.clk := rfl
@[simp] theorem setParam_rst (p i : Nat) (v : Int) (s : State) : (setParam p i v s).rst = s.rst := rfl
@[simp] theorem setParam_opt (p i : Nat) (v : Int) (s : State) : (setParam p i v s).opt = s.opt := rfl
@[simp] theorem setParam_pwr (p i : Nat) (v : Int) (s : State) : (setParam p i v s).pwr = s.pwr := rfl
@[simp] theorem setParam_flt (p i : Nat) (v : Int) (s : State) : (setParam p i v s).flt = s.flt := rfl
@[simp] theorem setParam_mon (p i : Nat) (v : Int) (s : State) : (setParam p i v s).mon = s.mon := rfl
@[simp] theorem setParam_ann (p i : Nat) (v : Int) (s : State) : (setParam p i v s).ann = s.ann := rfl
@[simp] theorem setParam_led (p i : Nat) (v : Int) (s : State) : (setParam p i v s).led = s.led := rfl
@[simp] theorem setParam_lane (p i : Nat) (v : Int) (s : State) : (setParam p i v s).lane = s.lane := rfl
@[simp] theorem setParam_ds (p i : Nat) (v : Int) (s : State) : (setParam p i v s).ds = s.ds := rfl
@[simp] theorem setParam_onu (p i : Nat) (v : Int) (s : State) : (setParam p i v s).onu = s.onu := rfl
@[simp] theorem setParam_map (p i : Nat) (v : Int) (s : State) : (setParam p i v s).map = s.map := rfl
@[simp] theorem setParam_rx (p i : Nat) (v : Int) (s : State) : (setParam p i v s).rx = s.rx := rfl
@[simp] theorem setParam_time (p i : Nat) (v : Int) (s : State) : (setParam p i v s).time = s.time := rfl
@[simp] theorem setParam_amp (p i : Nat) (v : Int) (s : State) : (setParam p i v s).amp = s.amp := rfl
@[simp] theorem setParam_cip (p i : Nat) (v : Int) (s : State) : (setParam p i v s).cip = s.cip := rfl
@[simp] theorem setParam_prot (p i : Nat) (v : Int) (s : State) : (setParam p i v s).prot = s.prot := rfl
@[simp] theorem setParam_cls (p i : Nat) (v : Int) (s : State) : (setParam p i v s).cls = s.cls := rfl
@[simp] theorem setParam_em (p i : Nat) (v : Int) (s : State) : (setParam p i v s).em = s.em := rfl
@[simp] theorem setParam_pool (p i : Nat) (v : Int) (s : State) : (setParam p i v s).pool = s.pool := rfl
@[simp] theorem setParam_sch (p i : Nat) (v : Int) (s : State) : (setParam p i v s).sch = s.sch := rfl
@[simp] theorem setParam_ctr (p i : Nat) (v : Int) (s : State) : (setParam p i v s).ctr = s.ctr := rfl
@[simp] theorem setParam_host (p i : Nat) (v : Int) (s : State) : (setParam p i v s).host = s.host := rfl

@[simp] theorem complete_pending (q : Req) (op : Nat) (r : Reply) (s : State) : (complete q op r s).pending = s.pending := rfl
@[simp] theorem complete_free (q : Req) (op : Nat) (r : Reply) (s : State) : (complete q op r s).free = s.free := rfl
@[simp] theorem complete_clk (q : Req) (op : Nat) (r : Reply) (s : State) : (complete q op r s).clk = s.clk := rfl
@[simp] theorem complete_rst (q : Req) (op : Nat) (r : Reply) (s : State) : (complete q op r s).rst = s.rst := rfl
@[simp] theorem complete_opt (q : Req) (op : Nat) (r : Reply) (s : State) : (complete q op r s).opt = s.opt := rfl
@[simp] theorem complete_pwr (q : Req) (op : Nat) (r : Reply) (s : State) : (complete q op r s).pwr = s.pwr := rfl
@[simp] theorem complete_flt (q : Req) (op : Nat) (r : Reply) (s : State) : (complete q op r s).flt = s.flt := rfl
@[simp] theorem complete_mon (q : Req) (op : Nat) (r : Reply) (s : State) : (complete q op r s).mon = s.mon := rfl
@[simp] theorem complete_ann (q : Req) (op : Nat) (r : Reply) (s : State) : (complete q op r s).ann = s.ann := rfl
@[simp] theorem complete_led (q : Req) (op : Nat) (r : Reply) (s : State) : (complete q op r s).led = s.led := rfl
@[simp] theorem complete_lane (q : Req) (op : Nat) (r : Reply) (s : State) : (complete q op r s).lane = s.lane := rfl
@[simp] theorem complete_ds (q : Req) (op : Nat) (r : Reply) (s : State) : (complete q op r s).ds = s.ds := rfl
@[simp] theorem complete_onu (q : Req) (op : Nat) (r : Reply) (s : State) : (complete q op r s).onu = s.onu := rfl
@[simp] theorem complete_map (q : Req) (op : Nat) (r : Reply) (s : State) : (complete q op r s).map = s.map := rfl
@[simp] theorem complete_rx (q : Req) (op : Nat) (r : Reply) (s : State) : (complete q op r s).rx = s.rx := rfl
@[simp] theorem complete_time (q : Req) (op : Nat) (r : Reply) (s : State) : (complete q op r s).time = s.time := rfl
@[simp] theorem complete_amp (q : Req) (op : Nat) (r : Reply) (s : State) : (complete q op r s).amp = s.amp := rfl
@[simp] theorem complete_cip (q : Req) (op : Nat) (r : Reply) (s : State) : (complete q op r s).cip = s.cip := rfl
@[simp] theorem complete_prot (q : Req) (op : Nat) (r : Reply) (s : State) : (complete q op r s).prot = s.prot := rfl
@[simp] theorem complete_cls (q : Req) (op : Nat) (r : Reply) (s : State) : (complete q op r s).cls = s.cls := rfl
@[simp] theorem complete_em (q : Req) (op : Nat) (r : Reply) (s : State) : (complete q op r s).em = s.em := rfl
@[simp] theorem complete_pool (q : Req) (op : Nat) (r : Reply) (s : State) : (complete q op r s).pool = s.pool := rfl
@[simp] theorem complete_sch (q : Req) (op : Nat) (r : Reply) (s : State) : (complete q op r s).sch = s.sch := rfl
@[simp] theorem complete_par (q : Req) (op : Nat) (r : Reply) (s : State) : (complete q op r s).par = s.par := rfl
@[simp] theorem complete_ctr (q : Req) (op : Nat) (r : Reply) (s : State) : (complete q op r s).ctr = s.ctr := rfl

end Sys2Proof.Machine
end

