-- ==== Sys2Proof/Laws/Tab.lean ====
section
/-! SUPPORT. Sparse tables: what a read sees after a write, and that every operation keeps the canonical form. -/

namespace Sys2Proof.Machine

variable {α : Type}

@[simp] theorem Tab.get?_nil (i : Nat) : Tab.get? ([] : Tab α) i = none := rfl

@[simp] theorem Tab.getD_nil (i : Nat) (d : α) : Tab.getD ([] : Tab α) i d = d := rfl

@[simp] theorem Tab.get?_set_self (t : Tab α) (i : Nat) (x : α) : Tab.get? (Tab.set t i x) i = some x := by
  induction t with
  | nil => simp [Tab.set, Tab.get?]
  | cons e t ih =>
    obtain ⟨k, v⟩ := e
    unfold Tab.set
    split
    · simp [Tab.get?]
    · split
      · next h => subst h; simp [Tab.get?]
      · next h => simp only [Tab.get?, h, if_false, ih]

theorem Tab.get?_set_other (t : Tab α) {i j : Nat} (x : α) (h : j ≠ i) : Tab.get? (Tab.set t i x) j = Tab.get? t j := by
  induction t with
  | nil => simp [Tab.set, Tab.get?, h]
  | cons e t ih =>
    obtain ⟨k, v⟩ := e
    unfold Tab.set
    split
    · simp [Tab.get?, h]
    · split
      · next hk => subst hk; simp [Tab.get?, h]
      · simp only [Tab.get?, ih]

theorem Tab.get?_set (t : Tab α) (i j : Nat) (x : α) : Tab.get? (Tab.set t i x) j = if j = i then some x else Tab.get? t j := by
  split
  · next h => subst h; exact Tab.get?_set_self t j x
  · next h => exact Tab.get?_set_other t x h

@[simp] theorem Tab.getD_set_self (t : Tab α) (i : Nat) (x d : α) : Tab.getD (Tab.set t i x) i d = x := by
  simp [Tab.getD]

theorem Tab.getD_set_other (t : Tab α) {i j : Nat} (x d : α) (h : j ≠ i) : Tab.getD (Tab.set t i x) j d = Tab.getD t j d := by
  simp [Tab.getD, Tab.get?_set_other t x h]

@[simp] theorem Tab.getD_upd_self (t : Tab α) (i : Nat) (d : α) (f : α → α) : Tab.getD (Tab.upd t i d f) i d = f (Tab.getD t i d) := by
  simp [Tab.upd]

theorem Tab.getD_upd_other (t : Tab α) {i j : Nat} (d e : α) (f : α → α) (h : j ≠ i) :
    Tab.getD (Tab.upd t i d f) j e = Tab.getD t j e := Tab.getD_set_other t _ e h

theorem Tab.getD_of_get? {t : Tab α} {i : Nat} {x : α} (d : α) (h : Tab.get? t i = some x) : Tab.getD t i d = x := by
  simp [Tab.getD, h]

theorem Tab.modify_of_get? {t : Tab α} {i : Nat} {x : α} (f : α → α) (h : Tab.get? t i = some x) :
    Tab.modify t i f = Tab.set t i (f x) := by
  simp [Tab.modify, h]

theorem Tab.wfFrom_mono {t : Tab α} {a b : Nat} (h : a ≤ b) (hw : Tab.wfFrom t b = true) : Tab.wfFrom t a = true := by
  cases t with
  | nil => rfl
  | cons e t =>
    simp only [Tab.wfFrom, Bool.and_eq_true, decide_eq_true_eq] at hw ⊢
    exact ⟨by omega, hw.2⟩

theorem Tab.get?_below {t : Tab α} {a i : Nat} (hw : Tab.wfFrom t a = true) (h : i < a) : Tab.get? t i = none := by
  induction t generalizing a with
  | nil => rfl
  | cons e t ih =>
    simp only [Tab.wfFrom, Bool.and_eq_true, decide_eq_true_eq] at hw
    simp only [Tab.get?]
    rw [if_neg (by omega), ih hw.2 (by omega)]

theorem Tab.get?_erase_self {t : Tab α} {i : Nat} (hw : Tab.wf t = true) : Tab.get? (Tab.erase t i) i = none := by
  unfold Tab.wf at hw
  generalize 0 = a at hw
  induction t generalizing a with
  | nil => rfl
  | cons e t ih =>
    simp only [Tab.wfFrom, Bool.and_eq_true, decide_eq_true_eq] at hw
    unfold Tab.erase
    split
    · next h => exact Tab.get?_below hw.2 (by omega)
    · next h => simp only [Tab.get?, h, if_false]; exact ih _ hw.2

theorem Tab.get?_erase_other (t : Tab α) {i j : Nat} (h : j ≠ i) : Tab.get? (Tab.erase t i) j = Tab.get? t j := by
  induction t with
  | nil => rfl
  | cons e t ih =>
    unfold Tab.erase
    split
    · next hk => simp only [Tab.get?]; rw [if_neg (by omega)]
    · simp only [Tab.get?, ih]

theorem Tab.set_wfFrom {t : Tab α} {a i : Nat} (x : α) (ha : a ≤ i) (hw : Tab.wfFrom t a = true) :
    Tab.wfFrom (Tab.set t i x) a = true := by
  induction t generalizing a with
  | nil => simp [Tab.set, Tab.wfFrom, ha]
  | cons e t ih =>
    simp only [Tab.wfFrom, Bool.and_eq_true, decide_eq_true_eq] at hw
    unfold Tab.set
    split
    · simp only [Tab.wfFrom, Bool.and_eq_true, decide_eq_true_eq]; exact ⟨ha, by omega, hw.2⟩
    · split
      · simp only [Tab.wfFrom, Bool.and_eq_true, decide_eq_true_eq]; exact hw
      · simp only [Tab.wfFrom, Bool.and_eq_true, decide_eq_true_eq]; exact ⟨hw.1, ih (by omega) hw.2⟩

/-- A write keeps the canonical form. -/
theorem Tab.set_wf {t : Tab α} (i : Nat) (x : α) (hw : Tab.wf t = true) : Tab.wf (Tab.set t i x) = true :=
  Tab.set_wfFrom x (Nat.zero_le i) hw

theorem Tab.erase_wfFrom {t : Tab α} {a : Nat} (i : Nat) (hw : Tab.wfFrom t a = true) : Tab.wfFrom (Tab.erase t i) a = true := by
  induction t generalizing a with
  | nil => rfl
  | cons e t ih =>
    simp only [Tab.wfFrom, Bool.and_eq_true, decide_eq_true_eq] at hw
    unfold Tab.erase
    split
    · exact Tab.wfFrom_mono (by omega) hw.2
    · simp only [Tab.wfFrom, Bool.and_eq_true, decide_eq_true_eq]; exact ⟨hw.1, ih hw.2⟩

/-- An erasure keeps the canonical form. -/
theorem Tab.erase_wf {t : Tab α} (i : Nat) (hw : Tab.wf t = true) : Tab.wf (Tab.erase t i) = true := Tab.erase_wfFrom i hw

theorem Tab.upd_wf {t : Tab α} (i : Nat) (d : α) (f : α → α) (hw : Tab.wf t = true) : Tab.wf (Tab.upd t i d f) = true :=
  Tab.set_wf i _ hw

theorem Tab.modify_wf {t : Tab α} (i : Nat) (f : α → α) (hw : Tab.wf t = true) : Tab.wf (Tab.modify t i f) = true := by
  unfold Tab.modify
  split
  · exact Tab.set_wf i _ hw
  · exact hw

end Sys2Proof.Machine
end

