-- ==== Sys2Proof/Laws/Touch.lean ====
section
/-! SUPPORT. What each shared operation may change: one equation an operation, whose right side names the fields it can
touch and leaves every other field the old one by definition. -/

namespace Sys2Proof.Machine

theorem bumpBy_touch (c : Ctr) (i n : Nat) (s : State) : bumpBy c i n s = { s with ctr := (bumpBy c i n s).ctr } := rfl

theorem bump_touch (c : Ctr) (i : Nat) (s : State) : bump c i s = { s with ctr := (bump c i s).ctr } := rfl

theorem setParam_touch (p i : Nat) (v : Int) (s : State) : setParam p i v s = { s with par := (setParam p i v s).par } := rfl

theorem event_touch (c : Nat) (l : List RVal) (s : State) : event c l s = { s with host := (event c l s).host } := rfl

theorem complete_touch (q : Req) (op : Nat) (r : Reply) (s : State) :
    complete q op r s = { s with host := (complete q op r s).host } := rfl

theorem completeOpt_touch (q : Option Req) (op : Nat) (r : Reply) (s : State) :
    completeOpt q op r s = { s with host := (completeOpt q op r s).host } := by
  cases q <;> rfl

theorem openCmd_touch (q : Req) (op : Nat) (s : State) : openCmd q op s = { s with host := (openCmd q op s).host } := by
  unfold openCmd
  dsimp only
  split <;> rfl

/-- Only the monitors, the free-value counter and the host interface differ. -/
def Sampled (s t : State) : Prop := t = { s with mon := t.mon, free := t.free, host := t.host }

theorem Sampled.ite {s a b : State} {c : Prop} [Decidable c] (ha : Sampled s a) (hb : Sampled s b) :
    Sampled s (if c then a else b) := by split <;> assumption

theorem Sampled.mk' {s u : State} {m f h} (hu : Sampled s u) : Sampled s { u with mon := m, free := f, host := h } := by
  unfold Sampled at *
  rw [hu]

theorem sample_touch (e : SampleEv) (s : State) :
    sample e s = { s with mon := (sample e s).mon, free := (sample e s).free, host := (sample e s).host } := by
  change Sampled s (sample e s)
  unfold sample
  refine Sampled.ite ?_ rfl
  extract_lets +onlyGivenNames s1
  have h1 : Sampled s s1 := rfl
  clear_value s1
  refine Sampled.ite ?_ h1
  extract_lets r l1 l2 full m s2
  have h2 : Sampled s s2 := h1.mk'
  clear_value s2 full l2
  exact Sampled.ite h2.mk' h2

theorem samples_touch {α : Type} (l : List α) (f : α → SampleEv) (s : State) :
    l.foldl (fun s x => sample (f x) s) s
      = { s with mon := (l.foldl (fun s x => sample (f x) s) s).mon, free := (l.foldl (fun s x => sample (f x) s) s).free,
                 host := (l.foldl (fun s x => sample (f x) s) s).host } := by
  induction l generalizing s with
  | nil => rfl
  | cons a l ih =>
    simp only [List.foldl_cons]
    rw [ih (sample (f a) s)]
    generalize List.foldl (fun s x => sample (f x) s) (sample (f a) s) l = t
    rw [sample_touch]

theorem recordFaults_touch (b : Nat) (fs : List FRec) (s : State) :
    recordFaults b fs s = { s with
      flt := (recordFaults b fs s).flt, host := (recordFaults b fs s).host, mon := (recordFaults b fs s).mon
      free := (recordFaults b fs s).free } := by
  unfold recordFaults
  extract_lets fs w w2 r1 r2 r3 u
  rw [samples_touch]

theorem raiseFault_touch (b k d : Nat) (s : State) :
    raiseFault b k d s = { s with
      flt := (raiseFault b k d s).flt, host := (raiseFault b k d s).host, mon := (raiseFault b k d s).mon
      free := (raiseFault b k d s).free } := recordFaults_touch _ _ _

theorem onuBytesOut_touch (h d n : Nat) (s : State) : onuBytesOut h d n s = { s with led := (onuBytesOut h d n s).led } := rfl

theorem freeChain_touch (c : Nat) (s : State) : freeChain c s = { s with pool := (freeChain c s).pool } := by
  unfold freeChain
  split <;> rfl

theorem handOver_touch (c h st : Nat) (s : State) : handOver c h st s = { s with pool := (handOver c h st s).pool } := by
  unfold handOver
  split <;> rfl

theorem dropBytes_touch (h : ChainHdr) (n : Nat) (s : State) : dropBytes h n s = { s with led := (dropBytes h n s).led } := by
  unfold dropBytes
  dsimp only
  split <;> split <;> rfl

theorem countSource_touch (k i : Nat) (b : Bool) (c : Nat) (s : State) :
    countSource k i b c s = { s with ctr := (countSource k i b c s).ctr } := by
  unfold countSource
  split
  · rfl
  · split <;> rfl

theorem dropChain_touch (c : Ctr) (i code cell : Nat) (s : State) :
    dropChain c i code cell s = { s with
      ctr := (dropChain c i code cell s).ctr, led := (dropChain c i code cell s).led
      pool := (dropChain c i code cell s).pool } := by
  unfold dropChain
  split
  · rfl
  · rw [bump_touch, dropBytes_touch, freeChain_touch]

theorem dropSource_touch (code cell : Nat) (s : State) :
    dropSource code cell s = { s with
      ctr := (dropSource code cell s).ctr, led := (dropSource code cell s).led, pool := (dropSource code cell s).pool } := by
  unfold dropSource
  split
  · rfl
  · rw [countSource_touch, dropBytes_touch, freeChain_touch]

theorem ringDrop_touch (i : Bool) (r : Nat) (s : State) : ringDrop i r s = { s with host := (ringDrop i r s).host } := rfl

theorem puntGone_touch (x : Punt) (s : State) :
    puntGone x s = { s with pool := (puntGone x s).pool, led := (puntGone x s).led } := by
  unfold puntGone
  extract_lets n u
  have hu : u = { s with pool := u.pool } := by
    subst u
    split
    · exact freeChain_touch _ s
    · rfl
  clear_value n u
  rw [hu]
  split <;> rfl

/-- Only the ledger's balances, the fault windows, the monitors, the free-value counter and the host interface differ. -/
def LedClosed (s t : State) : Prop :=
  t = { s with led := { s.led with bal := t.led.bal }, flt := t.flt, mon := t.mon, free := t.free, host := t.host }

theorem LedClosed.bal {s u : State} {b} (hu : LedClosed s u) : LedClosed s { u with led := { u.led with bal := b } } := by
  unfold LedClosed at *
  rw [hu]

theorem LedClosed.fault {s u : State} {b k d} (hu : LedClosed s u) : LedClosed s (raiseFault b k d u) := by
  unfold LedClosed at *
  rw [raiseFault_touch]
  generalize raiseFault b k d u = v
  rw [hu]

theorem closeBalance_touch {s u : State} {w q i} (hu : LedClosed s u) : LedClosed s (closeBalance w q i u) := by
  unfold closeBalance
  extract_lets +onlyGivenNames b
  split
  extract_lets +onlyGivenNames bad later b1 v
  have hv : LedClosed s v := hu.bal
  clear_value v
  split
  · exact hv.fault
  · exact hv

theorem closeBalances_touch {s u : State} {w} (l : List (Nat × Nat)) (hu : LedClosed s u) :
    LedClosed s (l.foldl (fun s k => closeBalance w k.1 k.2 s) u) := by
  induction l generalizing u with
  | nil => exact hu
  | cons a l ih => exact ih (closeBalance_touch hu)

/-- Only the pool, the ledger and the punt rings differ. -/
def Punted (s t : State) : Prop :=
  t = { s with pool := t.pool, led := t.led, host := { s.host with punt := t.host.punt } }

theorem Punted.mk' {s u : State} {a b c} (hu : Punted s u) :
    Punted s { u with pool := a, led := b, host := { u.host with punt := c } } := by
  unfold Punted at *
  rw [hu]

theorem puntLost_touch {s u : State} (l : List (Nat × Punt)) (hu : Punted s u) :
    Punted s (l.foldl (fun s e => ringDrop false e.2.ring (puntGone e.2 s)) u) := by
  induction l generalizing u with
  | nil => exact hu
  | cons a l ih =>
    refine ih ?_
    change Punted s (ringDrop false a.2.ring (puntGone a.2 u))
    rw [puntGone_touch]
    exact hu.mk'

end Sys2Proof.Machine
end

