-- ==== Sys2Proof/Tests/Slice0.lean ====
section
/-! SUPPORT. The model's own tests: an ill-formed command for each check of well-formedness, single steps on small states
with results read from the manual, and for each statement with hypotheses a state and operands that meet them. -/

namespace Sys2Proof.Tests

set_option Elab.async false

open Sys2Proof Sys2Proof.Machine

/-! ### Well-formedness -/

def q0 : Req := ⟨0, 1, 2 ^ 20⟩
def a0 : AmpReq := ⟨0, 3, 1⟩
def hd0 : UsHead := ⟨0, 5, 3, [], 0⟩

theorem test_wf_port : Instr.wf (.nop ⟨2, 0, 0⟩) = false ∧ Instr.wf (.nop ⟨1, 0, 0⟩) = true := by decide
theorem test_wf_tag : Instr.wf (.nop ⟨0, 2 ^ 32, 0⟩) = false := by decide
theorem test_wf_slot : Instr.wf (.ampouleIdentity ⟨0, 16, 0⟩) = false ∧ Instr.wf (.ampouleIdentity a0) = true := by decide
theorem test_wf_head : Instr.wf (.sleepRequest ⟨0, 1024, 0, [], 0⟩) = false ∧ Instr.wf (.sleepRequest hd0) = true := by
  decide
theorem test_wf_octets : Instr.wf (.moduleWrite q0 0 0 [255, 256]) = false ∧ Instr.wf (.moduleWrite q0 0 0 [255]) = true := by
  decide
theorem test_wf_field : Instr.wf (.strapSample (2 ^ 64)) = false ∧ Instr.wf (.strapSample (2 ^ 64 - 1)) = true := by decide
theorem test_wf_wide : Instr.wf (.registration hd0 (2 ^ 256 * 2 ^ 32)) = false := by decide
theorem test_wf_block : Instr.wf (.faultDetect 189 []) = false ∧ Instr.wf (.faultDetect 188 []) = true := by decide
theorem test_wf_pair : Instr.wf (.mapCommit 512) = false ∧ Instr.wf (.mapCommit 511) = true := by decide
theorem test_wf_handle : Instr.wf (.dyingGaspExpiry 32768) = false ∧ Instr.wf (.dyingGaspExpiry 32767) = true := by decide
theorem test_wf_tree : Instr.wf (.promotion 64) = false ∧ Instr.wf (.promotion 63) = true := by decide
theorem test_wf_slice : Instr.wf (.tableWriteApply 8) = false ∧ Instr.wf (.tableWriteApply 7) = true := by decide
theorem test_wf_trib : Instr.wf (.tribDefectEval 8192 0) = false ∧ Instr.wf (.tribDefectEval 8191 0) = true := by decide
theorem test_wf_gate : Instr.wf (.gateListStart 4096) = false ∧ Instr.wf (.gateListStart 4095) = true := by decide
theorem test_wf_cell : Instr.wf (.cellFree 917504) = false ∧ Instr.wf (.cellFree 917503) = true := by decide
theorem test_wf_uplink_port : Instr.wf (.uplinkFrameTransmit 256) = false ∧ Instr.wf (.uplinkFrameTransmit 255) = true := by
  decide
theorem test_wf_root : Instr.wf (.dequeueWalk 768) = false ∧ Instr.wf (.dequeueWalk 767) = true := by decide
theorem test_wf_half : Instr.wf (.klRingEnable 2) = false ∧ Instr.wf (.klRingEnable 1) = true := by decide

/-! ### A device that is up

Released from reset, every domain on, port 0's rings enabled with 64 entries each and Bexed ready. -/

def up : State := { State.reset with
  rst := { State.reset.rst with asserted := [], phase := .released, reach := 0, strapDue := false }
  pwr := { State.reset.pwr with domains := 2 ^ 24 - 1 }
  host := { State.reset.host with
    bexedReady := true, running := true, port0 := { enable := true, cmdSize := 6, cplSize := 6, evtSize := 6 } } }

/-- A state that keeps up's host interface, faults and options serves every opcode on port 0. -/
theorem served {s : State} (op : Nat) (hh : s.host = up.host) (hf : s.flt = up.flt) (ho : s.opt = up.opt) :
    Served s q0 op := by
  have h : s.serves q0 op = true := by
    simp only [State.serves, State.ports, State.twoPorts, hh, ho]
    rfl
  refine ⟨?_, ?_, h, rfl, ?_⟩
  · simp only [State.undefinedBlk, State.window, hf]; rfl
  · simp only [State.undefinedBlk, State.window, hf]; rfl
  · rw [hh]; rfl

theorem up_blocks_act : ∀ b < 189, up.undefinedBlk b = false ∧ up.islandUp b = true := by decide +kernel

/-- A state that keeps up's resets, faults and power state can act in every block. -/
theorem acts {s : State} (b : Nat) (hr : s.rst = up.rst) (hf : s.flt = up.flt) (hp : s.pwr = up.pwr) (hb : b < 189) :
    Acts s b := by
  have h := up_blocks_act b hb
  simpa only [Acts, State.undefinedBlk, State.window, State.islandUp, hr, hf, hp] using h

/-! ### Single steps -/

/-- Nop completes with OK and 0 result octets in the completion ring (R484, R490). -/
theorem test_nop : ∃ t, step { up with pending := [.nop q0] } = .next t ∧ t.pending = []
    ∧ t.host.port0.cpl = [⟨1, 0, .ok, true, 0, 0, []⟩] ∧ t.host.port0.cplTail = 1 := ⟨_, rfl, by decide +kernel⟩

/-- ParamNext beyond the last PID answers END, code 0x0A (R491). -/
theorem test_param_next_end : ∃ t, exec (.paramNext q0 0xFFFF) up = .next t
    ∧ t.host.port0.cpl.map (·.code) = [.ended] := ⟨_, rfl, by decide +kernel⟩

/-- RESET_REQ with a wrong key does nothing (R479). -/
theorem test_reset_key : exec (.resetReqSystem 0x12340002) up = .next up := rfl

/-- No command is served while Bexed is in reset (R486). -/
theorem test_no_service_in_reset : exec (.nop q0) State.reset = .next State.reset := rfl

/-- 8 and 9 share bin 8, 14 and 15 bin 11, and 16 begins bin 12 (R554). -/
theorem test_histogram_bins : (List.map (histBin · 0) [7, 8, 9, 14, 15, 16]) = [7, 8, 8, 11, 11, 12] := by decide +kernel

/-- The thresholds of the voltage stages: S1 from -15 mV, S5 from -60 mV (R528). -/
theorem test_stage_of_margin : [stageOf (-14), stageOf (-15), stageOf (-59), stageOf (-60)] = [0, 1, 4, 5] := by
  decide +kernel

/-! ### Witnesses of the hypotheses

Each names the statement whose hypotheses it meets; `Served` and `Acts` stand for its premises of those names. -/

theorem witness_IdleStepAdvancesTime :
    (State.reset.pending = [] ∧ State.reset.islandUp 172 = false)
    ∧ (up.pending = [] ∧ up.islandUp 172 = true ∧ up.clk.ltb % 311040 ≠ 311039)
    ∧ (let s := { up with clk := { ltb := 311039 } }
      s.pending = [] ∧ s.islandUp 172 = true ∧ s.clk.ltb % 311040 = 311039) := by decide +kernel

theorem witness_EveryStepKeepsInvariant :
    ∃ t, State.Inv { up with pending := [.nop q0] } ∧ step { up with pending := [.nop q0] } = .next t :=
  ⟨_, ⟨by unfold State.clkOk; decide, by unfold State.pwrOk; decide, by decide⟩, rfl⟩

theorem witness_CommandsNeverTouchTheQueue : ∃ t, exec (.nop q0) up = .next t := ⟨_, rfl⟩

/-- A device whose core 0 block holds a real class-F record. -/
def broken : State := { up with flt := { win := [(104, { realF := 32 })] } }

theorem witness_OnlyClassFStopsACommand :
    exec (.nop q0) broken = .fault (.blockUndefined 104) ∧ (∀ b, State.reset.undefinedBlk b = false) :=
  ⟨rfl, fun _ => rfl⟩

theorem portUp : PortUp up 0 := ⟨acts _ rfl rfl rfl (by decide), by decide⟩

theorem witness_ResetSourcesAssertTheirReset :
    (Rail.vddCore ≠ .vddAo ∧ Rail.vddCore ≠ .vddAmp) ∧ PortUp up 0
    ∧ reqLevel 0x5EA10001 = 1 ∧ reqLevel 0x5EA10002 = 2 ∧ Served up q0 2 ∧ Served up q0 3 ∧ up.host.bexedReady = true
    ∧ (let s := { up with rst := { up.rst with devWdt := some 0 } }
      s.due s.rst.devWdt = true) :=
  ⟨by decide, portUp, by decide, by decide, served _ rfl rfl rfl, served _ rfl rfl rfl, rfl, rfl⟩

/-- A signed option copy in the ranges of R519 that its tag verifies. -/
def opt1 : OptImage := { OptImage.blank with
  magic := 0x56484F50, layout := 1, isSigned := true, crcOk := true, tagOk := true, domains := 2 ^ 24 - 1, capStageMax := 2 }

theorem witness_ReleaseSequenceAdvances :
    (State.reset.rst.asserted.contains .pwrGood = true ∧ State.reset.rst.asserted.filter (· != .pwrGood) = [])
    ∧ (let s := { State.reset with rst := { State.reset.rst with asserted := [.pwrGood, .resetN] } }
      s.rst.asserted.contains .pwrGood = true ∧ s.rst.asserted.filter (· != .pwrGood) ≠ [])
    ∧ (let s := { up with rst := { up.rst with strapDue := true } }
      s.rst.strapDue = true ∧ (s.rst.asserted.all fun x => srcReach x != 3) = true)
    ∧ (let s := { up with rst := { up.rst with phase := .clocksCheck, reach := 2 } }
      s.rst.phase = .clocksCheck ∧ s.rst.strapDue = false ∧ 2 ≤ s.rst.reach)
    ∧ (let s := { up with rst := { up.rst with phase := .clocksCheck, reach := 1 } }
      s.rst.phase = .clocksCheck ∧ s.rst.strapDue = false ∧ s.rst.reach = 1)
    ∧ (let s := { up with rst := { up.rst with phase := .optionLoad, reach := 2 }, opt := { copyA := opt1 } }
      s.undefinedBlk 179 = false ∧ s.islandUp 179 = true ∧ s.rst.phase = .optionLoad ∧ s.cip.ke.owner ≠ 1 ∧ s.cip.ke.owner ≠ 2
        ∧ ({ s with cip := { s.cip with ke := { owner := 2 } } }).cip.ke.owner = 2)
    ∧ (let s := { up with rst := { up.rst with phase := .bootLoad } }
      s.rst.phase = .bootLoad ∧ s.opt.cur.bootSlot ≠ 2)
    ∧ (up.undefinedBlk 173 = false ∧ up.islandUp 173 = true) := by decide +kernel

/-- The image of a boot slot at power-on verifies. -/
theorem factory_ok (k : Nat) : Image.tagOk (Image.factory k) = true := by
  simp only [Image.tagOk, Image.factory, Image.rightTag, Image.header]
  simp

theorem witness_ReleaseSequence_boot_slot : up.opt.bootFail up.opt.cur.bootSlot = 0 := by
  have h1 := factory_ok 1
  have h2 := factory_ok 2
  have e1 : up.opt.boot 0 false = Image.factory 1 := rfl
  have e2 : up.opt.boot 0 true = Image.factory 2 := rfl
  have e0 : up.opt.cur.bootSlot = 0 := rfl
  have r1 : imageRefused (Image.factory 1) 1 = false := rfl
  have r2 : imageRefused (Image.factory 2) 2 = false := rfl
  have l1 : (Image.factory 1).length = 0 := rfl
  have l2 : (Image.factory 2).length = 0 := rfl
  simp [OptS.bootFail, OptS.bootOk, e0, e1, e2, r1, r2, l1, l2, h1, h2, bootLimit]

theorem witness_ReleaseSequence_option_copy : optFail true opt1 = 0 := by
  have h : optRanges opt1 = true := by decide +kernel
  simp [optFail, opt1, OptImage.blank]
  exact h

def rst2 : BlockRst := { block := 2 }

theorem witness_RailsPortOneAndLateClocks :
    (up.opt.writer = none ∧ up.twoPorts = false ∧ up.rst.held.contains 2 = false)
    ∧ (let s := { up with opt := { up.opt with cur := { opt1 with pcieMode := 1 } } }
      s.twoPorts = true)
    ∧ (let s := { up with rst := { up.rst with held := [2], blocks := [rst2] } }
      s.rst.held.contains 2 = true ∧ s.rst.blocks.find? (·.block == 2) = some rst2)
    ∧ (let s := { up with rst := { up.rst with held := [2] } }
      s.rst.held.contains 2 = true ∧ s.rst.blocks.find? (·.block == 2) = none) := by decide +kernel

theorem witness_BlockResetsAndSweeps :
    Served up q0 4
    ∧ ((180 ≤ 180 ∧ noBlockReset 64 = false ∧ up.islandUp 64 = true ∧ up.rst.blocks.any (·.block == 64) = false)
      ∧ (up.islandUp 181 = true ∧ up.islandUp 188 = true))
    ∧ (let s := { up with rst := { up.rst with blocks := [rst2] } }
      s.rst.blocks.find? (fun y => y.block == 2 && !y.sweeping) = some rst2 ∧ s.rst.held.contains 2 = false)
    ∧ (let x : BlockRst := { rst2 with cmd := some q0, sweeping := true }
      let s := { up with rst := { up.rst with blocks := [x], orphanSweep := true } }
      s.undefinedBlk 180 = false ∧ s.islandUp 180 = true ∧ s.rst.blocks.find? (fun y => y.block == 2 && y.sweeping) = some x
        ∧ x.cmd = some q0 ∧ s.rst.orphanSweep = true) :=
  ⟨served _ rfl rfl rfl, by decide +kernel, by decide +kernel, by decide +kernel⟩

theorem witness_DomainsSwitchOnAndOff :
    Served up q0 0xD001 ∧ (up.pwr.upping.any (·.1 == 5) = false ∧ bit up.pwr.domains 5 = true
      ∧ (openCmd q0 0xD001 up).mayPowerOff 5 = true)
    ∧ (let s := { up with pwr := { up.pwr with domains := 2 ^ 19 - 1, upping := [(19, some q0)] } }
      Served s q0 0xD001 ∧ bit s.pwr.domains 19 = false ∧ s.pwr.upping.any (·.1 == 19) = true
        ∧ s.pwr.upping.any (·.1 == 5) = false ∧ s.undefinedBlk 174 = false ∧ s.islandUp 174 = true
        ∧ s.pwr.upping.find? (·.1 == 19) = some (19, some q0))
    ∧ (up.pwr.upping.any (·.1 == 20) = false ∧ bit up.pwr.domains 20 = true ∧ up.pool.pages = [])
    ∧ (let s := { up with lane := { up.lane with ch := [(0, { rx := .active, rxGoal := .active, enabled := true })] } }
      Served s q0 0xD001 ∧ bit s.pwr.domains 5 = true ∧ (openCmd q0 0xD001 s).mayPowerOff 5 = false) :=
  ⟨served _ rfl rfl rfl, by decide +kernel, ⟨served _ rfl rfl rfl, by decide +kernel⟩, by decide +kernel,
    served _ rfl rfl rfl, by decide +kernel⟩

/-- A command descriptor of Nop. -/
def desc0 : CmdDesc := { opcode := 0, irq := false, fence := false, reservedOk := true, tag := 1, resCap := 64 }

theorem witness_KilakRingControlAndFetch :
    PortUp up 0 ∧ Acts up 104
    ∧ (let s := { up with host := { up.host with port0 := { cmdSize := 6, cplSize := 16, evtSize := 6 } } }
      PortUp s 0 ∧ (s.host.port 0).enable = false ∧ (s.host.port 0).cfgOk = true)
    ∧ (let s := { up with host := { up.host with port0 := { cmdSize := 5, cplSize := 16, evtSize := 6 } } }
      PortUp s 0 ∧ (s.host.port 0).enable = false ∧ (s.host.port 0).cfgOk = false)
    ∧ ((up.host.port 0).enable = true ∧ 2 ^ (up.host.port 0).cmdSize ≤ (64 : Reg).toNat ∧ (63 : Reg).toNat < 2 ^ (up.host.port 0).cmdSize
      ∧ 63 ≤ ((up.host.port 0).cmdHead + 64 - (up.host.port 0).cmdTail + 64 - 1) % 64)
    ∧ (let s := { up with host := { up.host with port0 := { up.host.port0 with cmdTail := 1 } } }
      Acts s 104 ∧ s.canFetch 0 false = true ∧ up.canFetch 0 false = false ∧ desc0.reservedOk = true
        ∧ desc0.opcode / 4096 ≠ 15 ∧ knownOp desc0.opcode = true ∧ knownOp 0x0010 = false ∧ 0xF000 / 4096 = 15) :=
  ⟨portUp, acts _ rfl rfl rfl (by decide), ⟨⟨acts _ rfl rfl rfl (by decide), rfl⟩, by decide +kernel⟩,
    ⟨⟨acts _ rfl rfl rfl (by decide), rfl⟩, by decide +kernel⟩, by decide +kernel, acts _ rfl rfl rfl (by decide),
    by decide +kernel⟩

theorem witness_KilakHeadsLossAndHoldoff :
    PortUp up 0 ∧ ((63 : Reg).toNat < 2 ^ (up.host.port 0).cplSize ∧ 2 ^ (up.host.port 0).evtSize ≤ (64 : Reg).toNat)
    ∧ (let s := { up with host := { up.host with
        port0 := { up.host.port0 with cplIrq := { deadline := some 0 }, evtIrq := { deadline := some 0 } }
        punt := [(0, { irq := { deadline := some 0 } })], inject := [(0, { irq := { deadline := some 0 } })] } }
      Acts s (pcieBlk 0) ∧ Acts s (pcieBlk (s.ringPort 0)) ∧ (s.host.port 0).cplIrq.expired s.clk.now = true
        ∧ (s.host.port 0).evtIrq.expired s.clk.now = true ∧ (Tab.getD s.host.punt 0 {}).irq.expired s.clk.now = true
        ∧ (Tab.getD s.host.inject 0 {}).irq.expired s.clk.now = true)
    ∧ (up.host.port 0).cplIrq.expired up.clk.now = false :=
  ⟨portUp, by decide +kernel, ⟨acts _ rfl rfl rfl (by decide), acts _ rfl rfl rfl (by decide +kernel), by decide +kernel⟩,
    by decide +kernel⟩

theorem witness_Pf1RingsPf2SlotsAndResets :
    PortUp up (up.ringPort 31) ∧ PortUp up 0
    ∧ ((Tab.getD (up.host.rings true) 31 {}).enable = false ∧ bit (0xB01 : Reg).toNat 0 = true ∧ bits (0xB01 : Reg).toNat 11 8 = 11
      ∧ (up.host.pf2 0).mem = [] ∧ up.mon.sampling = false ∧ 2 ^ (Tab.getD up.host.punt 31 {}).size ≤ (1 : Reg).toNat)
    ∧ (let s := { up with host := { up.host with punt := [(31, { enable := true, size := 6 })] } }
      PortUp s (s.ringPort 31) ∧ (63 : Reg).toNat < 2 ^ (Tab.getD s.host.punt 31 {}).size) :=
  ⟨⟨acts _ rfl rfl rfl (by decide +kernel), by decide +kernel⟩, portUp, by decide +kernel,
    ⟨acts _ rfl rfl rfl (by decide +kernel), by decide +kernel⟩, by decide +kernel⟩

/-- A punted packet of 64 octets for ring 3. -/
def punt0 : Punt :=
  { ring := 3, octets := List.replicate 64 0, reason := 0x80, dir := 1, sourceKind := 1, source := 0, ltb := 0, gem := 9, tc := 0, onu := none }

theorem witness_PuntDeliveryAndInjection :
      (let s := { up with host := { up.host with
        puntQ := [(0, punt0)], punt := [(3, { enable := true, size := 6, tail := 1, bufLog2 := 11 })]
        inject := [(3, { enable := true, size := 6 })] } }
      Acts s (sliceBlk 0 1) ∧ Acts s (pcieBlk (s.ringPort punt0.ring)) ∧ Acts s 175 ∧ s.undefinedBlk (pcieBlk (s.ringPort 0)) = false
        ∧ s.host.puntQ.find? (·.1 == 0) = some (0, punt0)
        ∧ s.host.puntQ.find? (·.1 == 1) = none
        ∧ (Tab.getD s.host.punt 3 {}).enable = true ∧ (Tab.getD s.host.punt 3 {}).buffers ≠ 0
        ∧ (noFcs punt0.octets).length ≤ 2 ^ (Tab.getD s.host.punt 3 {}).bufLog2
        ∧ s.ports.contains (s.ringPort 3) = true ∧ (Tab.getD s.host.inject 3 {}).enable = true
        ∧ (63 : Reg).toNat < 2 ^ (Tab.getD s.host.inject 3 {}).size)
    ∧ (let s := { State.reset with host := { State.reset.host with puntQ := [(0, punt0)] } }
      s.undefinedBlk (sliceBlk 0 1) = false ∧ s.islandUp (sliceBlk 0 1) = false ∧ s.host.puntQ.find? (·.1 == 0) = some (0, punt0))
    ∧ ((Tab.getD up.host.punt 3 {}).buffers = 0 ∧ (Tab.getD up.host.inject 3 {}).enable = false
      ∧ up.injectOk ⟨[], 0, 0, true, 0, 0, 0⟩ = false) :=
  ⟨⟨acts _ rfl rfl rfl (by decide +kernel), acts _ rfl rfl rfl (by decide +kernel), acts _ rfl rfl rfl (by decide), by decide +kernel⟩, by decide +kernel, by decide +kernel⟩

theorem witness_FaultWindowsRecordAndClear :
    (188 ≤ 188 ∧ up.islandUp 188 = true ∧ State.reset.islandUp 188 = false ∧ bit (0x80000000 : Reg).toNat 31 = true
      ∧ ((up.window 188).firstValid && (up.window 188).cls == 3) = false ∧ faultClass 188 0 = some .c
      ∧ faultClass 188 1 = some .u ∧ (1 : Reg).toNat = 2 ^ 0 ∧ faultClass 188 31 = none
      ∧ (0x80000000 : Reg).toNat = 2 ^ 31 ∧ (up.window 188).firstValid = false)
    ∧ (let s := { up with flt := { win := [(0, { firstValid := true, cls := 3 })] } }
      s.islandUp 0 = true ∧ (s.window 0).firstValid = true ∧ (s.window 0).cls = 3) := by decide +kernel

theorem witness_LedgerAndFaultSummaryReads :
    Acts up 180 ∧ up.windowsEnded = up.led.window ∧ Served up q0 9 ∧ Served up q0 0xE000
    ∧ Fits q0 (.vals [.lst 20 ((List.range 189).map fun i => up.faultRow (0 + i))])
    ∧ (let s := { up with clk := { ltb := msT 1 + usT 20 } }
      Acts s 180 ∧ s.windowsEnded ≠ s.led.window ∧ s.led.bal = [] ∧ s.led.grants = []) :=
  ⟨acts _ rfl rfl rfl (by decide), rfl, served _ rfl rfl rfl, served _ rfl rfl rfl, by unfold Fits; decide +kernel,
    acts _ rfl rfl rfl (by decide), by decide +kernel, rfl, rfl⟩

/-- A sample record with number 7. -/
def rec0 : SampleRec := ⟨0, 0, 0, 0, 0, 7, 0, 0, 0, 0, false, 0⟩

theorem witness_SamplingAndBandwidthWindows :
    (∀ op, Served up q0 op) ∧ up.mon.sampling = false ∧ filterOk ⟨15, 0, 127, 0, 2 ^ 40 - 1, 255⟩ = true ∧ Acts up 104
    ∧ (up.portExists 0 = true ∧ up.mon.bwNext = none ∧ up.mon.bwSag = false ∧ up.sagStage = 0)
    ∧ (let s := { up with mon := { up.mon with sampling := true, recs := [rec0] } }
      Served s q0 0xE004 ∧ s.mon.sampling = true ∧ s.mon.recs.findIdx? (·.seq == 7) = some 0) :=
  ⟨fun _ => served _ rfl rfl rfl, rfl, by decide, acts _ rfl rfl rfl (by decide), by decide +kernel, served _ rfl rfl rfl,
    by decide +kernel⟩

def unit0 : HistUnit := { src := .config 0, shift := 31 }

theorem witness_HistogramUnitsBindReadClearRelease :
    (∀ op, Served up q0 op) ∧ lowestFree (Tab.keys up.mon.hist) 0 256 = some 0 ∧ Tab.get? up.mon.hist 255 = none
    ∧ (let s := { up with mon := { up.mon with hist := (List.range 256).map fun i => (i, unit0) } }
      (∀ op, Served s q0 op) ∧ lowestFree (Tab.keys s.mon.hist) 0 256 = none ∧ Tab.get? s.mon.hist 255 = some unit0) :=
  ⟨fun _ => served _ rfl rfl rfl, by decide +kernel, by decide +kernel, fun _ => served _ rfl rfl rfl, by decide +kernel⟩

theorem witness_AnnealerRunsAndReads :
    (∀ op, Served up q0 op) ∧ up.ann.step = 0 ∧ up.sagStage = 0 ∧ Acts up 104 ∧ Acts up 174 ∧ up.host.bexedReady = true
      ∧ up.ann.nextRun ≤ up.ltbSec ∧ up.opt.writer = none
    ∧ (let s := { up with ann := { up.ann with step := 6, newPlan := some MarginPlan.empty, cmd := some q0 } }
      Acts s 104 ∧ Served s q0 0xE00B ∧ s.ann.step = 6 ∧ s.ann.newPlan = some MarginPlan.empty ∧ s.ann.cmd = some q0)
    ∧ (let s := { up with ann := { up.ann with step := 1 } }
      Acts s 104 ∧ s.ann.step = 1 ∧ s.opt.writer = none)
    ∧ (let s := { up with pwr := { up.pwr with voltStage := 1 } }
      Served s q0 0xE00B ∧ s.ann.step = 0 ∧ s.sagStage ≠ 0) :=
  ⟨fun _ => served _ rfl rfl rfl, rfl, rfl, acts _ rfl rfl rfl (by decide), acts _ rfl rfl rfl (by decide), rfl,
    by decide +kernel, rfl, ⟨acts _ rfl rfl rfl (by decide), served _ rfl rfl rfl, rfl, rfl, rfl⟩,
    ⟨acts _ rfl rfl rfl (by decide), rfl, rfl⟩, served _ rfl rfl rfl, rfl, by decide⟩

theorem witness_ParametersGetSetDescribe :
    (∀ op, Served up q0 op) ∧ pidDesc? 0xFFFF = none ∧ (pidDesc? 0x1020).isSome = true
    ∧ (∃ d, pidDesc? 0xD013 = some d ∧ 0 + 1 ≤ d.indexCount)
    ∧ (∃ d, pidDesc? 0x3011 = some d ∧ d.access = 1 ∧ d.pid = 0x3011 ∧ 63 < d.indexCount ∧ d.max < 3601 ∧ d.min ≤ 3600
      ∧ (3600 : Int) ≤ d.max ∧ up.setRefused 0x3011 63 3600 = none)
    ∧ (pidTable.find? (fun d => decide (0 < d.pid))).isSome = true ∧ pidTable.find? (fun d => decide (0xFFFF < d.pid)) = none :=
  ⟨fun _ => served _ rfl rfl rfl, by decide +kernel, by decide +kernel, ⟨_, rfl, by decide +kernel⟩,
    ⟨_, rfl, by decide +kernel⟩, by decide +kernel, by decide +kernel⟩

def img1 : Image := { magic := 0x56484946, kind := 1, version := 0, stateVersion := 0, length := 0 }

theorem witness_DeviceAndBexedCommands :
    (∀ op, Served up q0 op) ∧ up.host.restart = none ∧ imageRefused img1 1 = false ∧ img1.length + 80 ≤ 4194304 ∧ imageRefused img1 2 = true
      ∧ 4194304 < { img1 with length := 4194225 }.length + 80 ∧ up.host.standby = none
      ∧ up.host.restartQueue = [] ∧ Acts up 105
    ∧ (let s := { up with host := { up.host with standby := some (img1) } }
      s.serves q0 0x000B = true ∧ s.host.standby = some (img1)
        ∧ (img1).stateVersion = s.host.image.stateVersion ∧ s.host.port0.inProg = [])
    ∧ (let r : BexRestart := { cmd := q0, start := 0, image := img1 }
      let s := { up with host := { up.host with restart := some r } }
      Acts s 105 ∧ s.host.restart = some r ∧ s.clk.now ≤ r.start + msT 500)
    ∧ (let r : BexRestart := { cmd := q0, start := 0, image := img1 }
      let s := { up with host := { up.host with restart := some r }, clk := { now := msT 500 } }
      Acts s 105 ∧ r.start + msT 500 ≤ s.clk.now) :=
  ⟨fun _ => served _ rfl rfl rfl, rfl, by decide, by decide, by decide, by decide, rfl, rfl, acts _ rfl rfl rfl (by decide),
    by decide +kernel, ⟨acts _ rfl rfl rfl (by decide), rfl, by decide⟩, acts _ rfl rfl rfl (by decide), by decide⟩

theorem witness_SagStagesCapsAndPowerReads :
    (∀ op, Served up q0 op) ∧ Acts up 174 ∧ up.pwr.voltStage = 0 ∧ up.pwr.capW = 0 ∧ up.pwr.underSince = none
    ∧ (let s := { up with pwr := { up.pwr with voltStage := 1, capW := 300, underSince := some 0 }, clk := { now := msT 100 } }
      s.islandUp 174 = true ∧ s.undefinedBlk 174 = false ∧ s.pwr.voltStage ≠ 0 ∧ sagThreshold s.pwr.voltStage + 10 ≤ -5
        ∧ s.pwr.underSince = some 0 ∧ 0 + msT 100 ≤ s.clk.now ∧ s.pwr.capW ≠ 0 ∧ s.pwr.capW < 301)
    ∧ (let s := { up with pwr := { up.pwr with underSince := some 0 }, clk := { now := msT 100 } }
      s.islandUp 174 = true ∧ s.pwr.capW = 0 ∧ s.pwr.capStage = 0 ∧ s.pwr.underSince = some 0 ∧ 0 + msT 100 ≤ s.clk.now) :=
  ⟨fun _ => served _ rfl rfl rfl, acts _ rfl rfl rfl (by decide), rfl, rfl, rfl, by decide +kernel, by decide +kernel⟩

theorem witness_OptionStoreAndBootSlots :
    (∀ op, Served up q0 op) ∧ Acts up 179 ∧ up.opt.writer = none ∧ up.ann.newPlan = none ∧ optFail false OptImage.blank = 3 + 1
      ∧ imageRefused (Image.factory 1) 1 = false ∧ up.opt.booted = 0 ∧ up.opt.booted ≠ 1
      ∧ (Image.factory 1).length + 80 ≤ bootLimit false
    ∧ (let s := { up with opt := { up.opt with writer := some (.host q0 opt1) } }
      Acts s 179 ∧ s.opt.writer = some (.host q0 opt1) ∧ s.opt.copy = 0) :=
  ⟨fun _ => served _ rfl rfl rfl, acts _ rfl rfl rfl (by decide), rfl, rfl, by decide +kernel, by decide, rfl, by decide,
    by decide, acts _ rfl rfl rfl (by decide), rfl, rfl⟩

/-- Every command on port 0 is served and every block can act. -/
def Ready (s : State) : Prop := (∀ op, Served s q0 op) ∧ ∀ b < 189, Acts s b

theorem ready {s : State} (hh : s.host = up.host) (hf : s.flt = up.flt) (ho : s.opt = up.opt) (hr : s.rst = up.rst)
    (hp : s.pwr = up.pwr) : Ready s :=
  ⟨fun op => served op hh hf ho, fun b hb => acts b hr hf hp hb⟩

def ladder0 : Ladder := { rung := 2, cmd := q0, deadline := 0, clean := 0 }

theorem witness_ChannelLadderAndLanePower :
      (let s := { up with time := { up.time with state := .freerun } }
      Ready s ∧ s.ltbSet = true ∧ s.isSpare 511 = false ∧ (s.laneCh 511).ladder = none ∧ (s.laneCh 511).enabled = false
        ∧ (s.laneCh 511).tx = .off ∧ s.anyPastDiscovery 511 = false)
    ∧ (let s := { up with
        lane := { up.lane with ch := [(0, { tx := .active, ladder := some ladder0 }), (1, { rx := .active, ladder := some { ladder0 with rung := 3 } })] }
        onu := { up.onu with ctx := [(4, { tree := 0, state := .operation, serial := 7, hostSerial := true })] }
        clk := { now := sfT 8 } }
      Ready s ∧ (s.laneCh 0).ladder = some ladder0 ∧ s.rungMet 0 ladder0 = true ∧ ladder0.rung < 3 ∧ ladder0.deadline ≤ s.clk.now
        ∧ s.rungMet 1 { ladder0 with rung := 3 } = true ∧ s.anyPastDiscovery 0 = true ∧ s.onuState 4 ≠ .free) :=
  ⟨⟨ready rfl rfl rfl rfl rfl, by decide +kernel⟩, ready rfl rfl rfl rfl rfl, by decide +kernel⟩

def xfer0 : I3cXfer := { g := 0, cmd := some (q0, false), addr := 255, len := 1, data := [] }

theorem witness_ModuleBusAndModuleEvents :
      (let s := { up with lane := { up.lane with
        ch := [(0, { addressed := true })], bus := [(0, { cur := some xfer0 })], link := [(0, { state := .locked })] } }
      Ready s ∧ (s.laneCh 0).addressed = true ∧ (s.laneCh 0).pollAt ≤ s.clk.now ∧ (s.laneCh 511).addressed = false ∧ 255 + 1 ≤ 256
        ∧ (Tab.getD s.lane.bus 0 {}).cur = some xfer0 ∧ xfer0.cmd = some (q0, false) ∧ xfer0.retries < 3
        ∧ (Tab.getD s.lane.link 0 {}).state = .locked ∧ (Tab.getD s.lane.link 63 {}).state ≠ .locked)
    ∧ (let x := { xfer0 with retries := 3 }
      let s := { up with lane := { up.lane with bus := [(15, { cur := some x })] } }
      Ready s ∧ (Tab.getD s.lane.bus 15 {}).cur = some x ∧ 3 ≤ x.retries ∧ x.cmd = some (q0, false))
    ∧ (let x := { xfer0 with g := 511, cmd := none, pid := true }
      let s := { up with lane := { up.lane with
        ch := [(0, { addressed := true, pollAt := 1 }), (511, { ladder := some { ladder0 with rung := 1 } })]
        bus := [(15, { cur := some x })], link := [(63, { state := .locked })] } }
      Ready s ∧ (s.laneCh 0).addressed = true ∧ s.clk.now < (s.laneCh 0).pollAt ∧ (Tab.getD s.lane.bus 15 {}).cur = some x ∧ x.cmd = none
        ∧ (Tab.getD s.lane.link 63 {}).state = .locked ∧ (s.laneCh (8 * 63 + 7 % 8)).addressed = false
        ∧ ((onLaneCh (8 * 63 + 7 % 8) (fun c => { c with present := true, addressed := true, dynAddr := some 47 }) s).laneCh
            (8 * 63 + 7 % 8)).ladder.map (·.rung) = some 1) :=
  ⟨⟨ready rfl rfl rfl rfl rfl, by decide +kernel⟩, ⟨ready rfl rfl rfl rfl rfl, by decide +kernel⟩, ready rfl rfl rfl rfl rfl, by decide +kernel⟩

theorem witness_SidebandLinksAndUplinkPorts :
      (let s := { up with lane := { up.lane with link := [(63, { state := .locked, misses := 3, echo := some 255 }), (1, { state := .locked, calAt := some 1, misses := 2 })] } }
      Ready s ∧ (Tab.getD s.lane.link 63 {}).state = .locked ∧ 3 ≤ (Tab.getD s.lane.link 63 {}).misses
        ∧ (Tab.getD s.lane.link 63 {}).echo = some (511 % 256) ∧ (Tab.getD s.lane.link 63 {}).echo ≠ some (0 % 256)
        ∧ (Tab.getD s.lane.link 0 {}).state ≠ .locked ∧ (∀ f, (Tab.getD s.lane.link 63 {}).calAt = some f → f + 1215 ≤ s.sbFrameNow)
        ∧ (Tab.getD s.lane.link 1 {}).calAt = some 1 ∧ s.sbFrameNow < 1 + 1215 ∧ (Tab.getD s.lane.link 1 {}).misses < 3
        ∧ sbSyncOk ⟨sbEncode 1214 .locked []⟩ = true ∧ sbCrcOk ⟨sbEncode 1214 .locked []⟩ = true
        ∧ sbSyncOk ⟨sbEncode 1214 .locked [] + 1⟩ = true ∧ sbCrcOk ⟨sbEncode 1214 .locked [] + 1⟩ = false
        ∧ sbSyncOk ⟨0⟩ = false ∧ sbCrcOk ⟨0⟩ = false ∧ returnType 1 = false ∧ returnType 12 = true)
    ∧ (up.portExists 248 = true ∧ (Tab.getD up.lane.port 248 {}).up = false ∧ up.portExists 255 = false)
    ∧ (let s := { up with par := [(0x1500, [(0, 4)])] }
      Ready s ∧ s.portExists 0 = false)
    ∧ (let s := { up with par := [(0x1500, [(31, 4)])], lane := { up.lane with ixr := [(31, { up := true })] } }
      Ready s ∧ 248 % 8 = 0 ∧ (Tab.getD s.lane.ixr (248 / 8) {}).up = true ∧ s.paramN 0x1500 (248 / 8) = 4
        ∧ s.ixrLocked (248 / 8) = false) :=
  ⟨⟨ready rfl rfl rfl rfl rfl, by decide +kernel⟩, by decide +kernel, ⟨ready rfl rfl rfl rfl rfl, by decide +kernel⟩, ready rfl rfl rfl rfl rfl, by decide +kernel⟩

/-- An ONU of tree 0 in a state, with ONU-ID 5 on channel pair 0. -/
def onu0 (st : OnuState) : Onu :=
  { tree := 0, state := st, serial := 7, hostSerial := true, onuId := some 5, tribOk := true, tribMax := 1, chanMask := 255 }

def aargs : AllocArgs := { patternOnly := false, assured := 0, nonassured := 0, maxBytes := 64, weight := 1, pollLog2 := 4, minGrant := 16 }
def alloc0 : Alloc := { allocId := 1024, onu := 0, a := aargs }
def targs : TribArgs := { channel := 0, slots := 1, fill := 1, gem := 2 ^ 18 - 1, alloc := 0, feedPayload := 1024 }

/-- A device with that ONU as handle 0, its allocation 0, and tributary 0 on it. -/
def served1 (o : Onu) : State := { up with
  onu := { up.onu with ctx := [(0, o)] }, map := { up.map with alloc := [(0, alloc0)] }, ds := { up.ds with trib := [(0, { a := targs })] } }

theorem ready1 (o : Onu) : Ready (served1 o) := ready rfl rfl rfl rfl rfl

theorem witness_TributaryCommands :
    let s := served1 (onu0 .operation)
    Ready s ∧ (s.dsCh targs.channel).commit = none ∧ Tab.get? s.ds.trib 8191 = none ∧ Tab.get? s.map.alloc targs.alloc = some alloc0
      ∧ Tab.get? s.onu.ctx alloc0.onu = some (onu0 .operation) ∧ s.slotsOk 0 1 1 = true ∧ s.slotsOk 0 0 1 = false
      ∧ (s.ds.trib.filter fun e => s.tribOnu e.2 == some 1).length < 1
      ∧ Tab.get? s.ds.trib 0 = some { a := targs } ∧ s.slotsOk targs.channel 2 1 = true
      ∧ (s.ds.ch.any fun e => (pageTribs e.2.active).contains 0
          || (e.2.commit.isSome && (pageTribs e.2.standby).contains 0)) = false
      ∧ ((Tab.get? s.onu.ctx alloc0.onu).map (·.ext)).getD true = false ∧ ((Tab.get? s.onu.ctx 1).map (·.ext)).getD true = true :=
  ⟨ready1 _, by decide +kernel⟩

/-- The ONU that owns the tributary's GEM handle is the one its allocation serves. -/
theorem witness_TributaryCreate :
    let h := Config.gemOnu targs.gem
    let x : Alloc := { alloc0 with onu := h }
    let s : State := { up with onu := { up.onu with ctx := [(h, onu0 .operation)] }, map := { up.map with alloc := [(0, x)] } }
    Served s q0 0x2000 ∧ Tab.get? s.ds.trib 8191 = none ∧ Tab.get? s.map.alloc targs.alloc = some x
      ∧ Tab.get? s.onu.ctx x.onu = some (onu0 .operation) ∧ (onu0 .operation).tree = targs.channel / 8
      ∧ Config.gemOnu targs.gem = x.onu ∧ (onu0 .operation).tribOk = true ∧ s.slotsOk targs.channel targs.slots targs.fill = true
      ∧ (s.ds.trib.filter fun e => s.tribOnu e.2 == some x.onu).length < (onu0 .operation).tribMax :=
  ⟨served _ rfl rfl rfl, rfl, rfl, by simp [Tab.get?], rfl, rfl, rfl, rfl, by decide⟩

/-- A commit that waits on the tributary's channel pair, its page checked. -/
theorem witness_TributaryMoveWaits :
    let t : Trib := { a := targs }
    let s : State := { served1 (onu0 .operation) with
      ds := { up.ds with trib := [(0, t)], ch := [(0, { commit := some { sfc := 5 } })] } }
    Ready s ∧ Tab.get? s.ds.trib 0 = some t ∧ t.move = none ∧ t.create = none ∧ 7 / 8 = t.a.channel / 8
      ∧ (s.dsCh t.a.channel).commit.isSome = true
      ∧ (∀ k, (s.dsCh t.a.channel).commit = some k → k.checked = false) :=
  ⟨ready rfl rfl rfl rfl rfl, rfl, rfl, rfl, rfl, rfl, fun k h => by cases h; rfl⟩

theorem witness_SlotMapsFeedsAndTributaryDefects :
      (let ds1 : DsS := { ch := [(1, { commit := some { sfc := 5 } })], trib := [(0, { a := targs, lastFeed := some 65535 })] }
      let s := { served1 (onu0 .operation) with ds := ds1 }
      Ready s ∧ (s.dsCh 511).commit = none ∧ (s.dsCh 1).commit.isSome = true ∧ (s.dsCh 1).commit = some { sfc := 5 } ∧ ({ sfc := 5 } : SlotCommit).move = none ∧ ({ sfc := 5 } : SlotCommit).cmd = none
        ∧ ({ sfc := 5 } : SlotCommit).checked = false
        ∧ (let u := ({ a := targs } : Trib).detect 0 true false false
          u.det % 8 = 0 ∧ ∀ k < 4, tribSuppressed u.det k = true ∨ bit u.det k = bit u.rep k)
        ∧ slotCheck s 1 (s.dsCh 1).standby = none
        ∧ slotCheck s 1 [⟨true, 9, 0, 0⟩] = some 2
        ∧ Tab.get? s.ds.trib 0 = some { a := targs, lastFeed := some 65535 } ∧ (0 + 65535) % 65536 = 65535
        ∧ 0 + (List.replicate 64 0).length ≤ 64 * targs.slots ∧ Tab.get? s.ds.trib 8191 = none) :=
  ⟨ready rfl rfl rfl rfl rfl, by decide +kernel⟩

theorem witness_OnuHostCommands :
    (∀ st, Ready (served1 (onu0 st)))
    ∧ ((served1 (onu0 .operation)).findSerial 8 = none ∧ lowestFree (Tab.keys (served1 (onu0 .operation)).onu.ctx) 0 32768 = some 1
      ∧ (served1 (onu0 .provisioned)).onuState 0 = .provisioned ∧ (served1 (onu0 .ranging)).onuState 0 = .ranging
      ∧ Tab.get? (served1 (onu0 .authorising)).onu.ctx 0 = some (onu0 .authorising)
      ∧ 2 ≤ (onu0 .discovered).state.ctorIdx ∧ (onu0 .lost).state.ctorIdx ≤ 10 ∧ (onu0 .lost).onuId = some 5
      ∧ (onu0 .operation).deactSfc ≠ some 0 ∧ { onu0 .disabled with deactSfc := some 0 }.deactSfc = some 0
      ∧ (onu0 .provisioned).state.active = false ∧ ((onu0 .provisioned).left.filter fun x => x.1 == 0) = none
      ∧ (served1 (onu0 .operation)).inFixedPattern 0 = false
      ∧ (served1 (onu0 .operation)).retuneRefused 0 8 false = some .limit) :=
  ⟨fun _ => ready1 _, by decide +kernel⟩

theorem witness_OnuRetune :
    let s : State := { served1 (onu0 .operation) with ds := {} }
    Served s q0 0x300A ∧ (balanceYield 0 (openCmd q0 0x300A s)).retuneRefused 0 7 false = none
      ∧ (Tab.get? s.onu.ctx 0).bind (·.tune) = none ∧ s.retuneRefused 1 7 false = some .badState :=
  ⟨served _ rfl rfl rfl, by decide +kernel⟩

/-- A head with the right MIC for these octets. -/
def signedHead (s : State) (hd : UsHead) : UsHead :=
  let msk := ((s.findOnu (hd.g / 8) hd.onuId).map fun e => (s.keyOnu e.1).mskOr).getD Config.defaultMsk
  { hd with mic := Config.ploamMic (Config.ploamKey msk) hd.octets }

/-- For every state and head there is a MIC that verifies, and one that does not; the other fields of the head are as before. -/
theorem witness_UpstreamHeadMic (s : State) (hd : UsHead) : s.micOk (signedHead s hd) = true
    ∧ s.micOk { signedHead s hd with mic := (signedHead s hd).mic + 1 } = false
    ∧ (signedHead s hd).g = hd.g ∧ (signedHead s hd).onuId = hd.onuId ∧ (signedHead s hd).seq = hd.seq := by
  refine ⟨?_, ?_, rfl, rfl, rfl⟩
  · simp only [State.micOk, signedHead]
    exact beq_self_eq_true _
  · simp only [State.micOk, signedHead, beq_eq_false_iff_ne]
    exact Nat.succ_ne_self _

def plout : PlOut := { msg := .extInquire, seq := 3, sfc := 0, tries := 0 }
/-- A retune of the balancer to channel pair 1, Q at superframe 9. -/
def tune0 : Tune := { cmd := none, source := 0, target := 1, origin := 0, q := 9, t := 4, sent := 0, eqd64 := 0 }

theorem witness_OnuUpstreamMessagesAndWindows :
      (let s := { up with host := { up.host with restart := some { cmd := q0, start := 0, image := Image.factory 1 } } }
      Acts s 104 ∧ s.host.restart.isSome = true ∧ s.host.restartQueue.length < 4096)
    ∧ (let s := { served1 (onu0 .provisioned) with onu := { ctx := [(0, onu0 .provisioned)], disc := [(0, { opened := 0 })] } }
      Ready s ∧ s.host.restart = none ∧ Tab.get? s.onu.disc 0 = some { opened := 0 } ∧ s.findSerial 7 = some (0, onu0 .provisioned)
        ∧ (onu0 .provisioned).tree = hd0.g / 8)
    ∧ (let o := { onu0 .extending with out := some plout }
      let s := { served1 o with clk := { sfc := 16 } }
      Ready s ∧ s.findOnu (hd0.g / 8) hd0.onuId = some (0, o) ∧ o.out = some plout ∧ plout.seq = hd0.seq ∧ plout.sfc < s.clk.sfc
        ∧ plout.late s.clk.sfc = false ∧ ackKind 1 plout.msg = true ∧ o.state = .extending
        ∧ o.answers hd0 s.clk.sfc (· == .extInquire) = true ∧ s.inQuarantine (hd0.g / 8) hd0.onuId = false)
    ∧ (let o := { onu0 .registering with out := some { plout with msg := .requestRegistration } }
      let s := { served1 o with clk := { sfc := 1 } }
      s.findOnu (hd0.g / 8) hd0.onuId = some (0, o) ∧ o.state = .registering
        ∧ o.answers hd0 s.clk.sfc (· == .requestRegistration) = true ∧ s.param 0x3010 0 ≠ 2)
    ∧ ((served1 (onu0 .confirm)).findOnu (hd0.g / 8) hd0.onuId = some (0, onu0 .confirm) ∧ (onu0 .confirm).state = .confirm
      ∧ (onu0 .confirm).out = none ∧ (onu0 .confirm).answersCarry hd0 0 = false)
    ∧ (let o := { onu0 .tuning with tune := some tune0, out := some { plout with msg := .tuningControl 1 9 } }
      let s := { served1 o with clk := { sfc := 8 } }
      s.findOnu (hd0.g / 8) hd0.onuId = some (0, o) ∧ o.tune = some tune0 ∧ o.state = .tuning ∧ s.clk.sfc < tune0.q ∧ tune0.source ≠ 2
        ∧ o.answers hd0 s.clk.sfc (· == .tuningControl tune0.target tune0.q) = true)
    ∧ (let o := { onu0 .tuning with tune := some { tune0 with windowed := true } }
      let s := { served1 o with clk := { sfc := 9 } }
      let hd : UsHead := { hd0 with g := 1 }
      Ready s ∧ s.findOnu (hd.g / 8) hd.onuId = some (0, o) ∧ tune0.q ≤ s.clk.sfc ∧ hd.g = 8 * o.tree + tune0.target ∧ tune0.resp = false
        ∧ Tab.get? s.onu.ctx 0 = some o ∧ s.inReach 1 0 = true)
    ∧ (let s := { served1 (onu0 .ranging) with onu := { ctx := [(0, onu0 .ranging)], quar := [(5, 1)], disc := [(0, { opened := 0, valid := true })] } }
      s.inQuarantine (hd0.g / 8) hd0.onuId = true ∧ Tab.get? s.onu.disc hd0.g = some { opened := 0, valid := true })
    ∧ (let s := { up with par := [(0x3000, [(0, 1)])], lane := { up.lane with ch := [(0, { enabled := true, tx := .active, rx := .active })] } }
      Ready s ∧ s.discOpen 0 = true ∧ Tab.getD s.onu.discNext 0 0 ≤ s.clk.now)
    ∧ (let o := { onu0 .ranging with windowOpen := true }
      let s := served1 o
      Tab.get? s.onu.ctx 0 = some o ∧ o.state = .ranging ∧ o.g = 0 ∧ s.inReach 0 0 = true ∧ s.inReach 0 (10 ^ 9) = false) :=
  ⟨⟨acts _ rfl rfl rfl (by decide), rfl, by decide⟩, ⟨ready rfl rfl rfl rfl rfl, by decide +kernel⟩,
    ⟨ready rfl rfl rfl rfl rfl, by decide +kernel⟩,
    by decide +kernel, by decide +kernel, by decide +kernel, ⟨ready rfl rfl rfl rfl rfl, by decide +kernel⟩, by decide +kernel,
    ⟨ready rfl rfl rfl rfl rfl, by decide +kernel⟩, by decide +kernel⟩

theorem witness_OnuTimeoutsLadderAndBalancing :
      (let s := { served1 { onu0 .extending with out := some plout } with clk := { sfc := 17 } }
      Ready s ∧ Tab.get? s.onu.ctx 1 = none ∧ ({ onu0 .extending with out := some plout }).tune.bind (·.carry) = none ∧ plout.late s.clk.sfc = true ∧ plout.late 16 = false)
    ∧ (let o := { onu0 .authorising with deadline := some 0 }
      (served1 o).due o.deadline = true)
    ∧ (let p : PlOut := { plout with msg := .rangingTime 0 }
      p.tries < up.retriesOf p.msg)
    ∧ (let t : Tune := { cmd := none, source := 0, target := 1, origin := 0, q := 9, t := 4, sent := 0, eqd64 := 0 }
      let s := { served1 { onu0 .tuning with tune := some t } with clk := { sfc := 21 } }
      Ready s ∧ t.acked = false ∧ t.sent + 16 < s.clk.sfc ∧ s.tuneDueAt 0 t + 8 ≤ s.clk.sfc ∧ t.windowed = false ∧ t.oldAt = none
        ∧ { t with windowed := true }.windowed = true ∧ { t with oldAt := some 17 }.oldAt = some 17 ∧ 17 + 4 ≤ s.clk.sfc
        ∧ s.clk.sfc < 18 + 4 ∧ s.clk.sfc < s.tuneDueAt 0 { t with q := 10 } + 8 ∧ (onu0 .operation).tune = none ∧ Tab.get? s.map.spare 0 = none)
    ∧ (let l : OnuLadder := { phase := 2, bursts := 15, untilSfc := 1 }
      l.phase = 2 ∧ l.bursts < 16)
    ∧ (let l : OnuLadder := { phase := 2, bursts := 16, good := 15 }
      l.phase = 2 ∧ 16 ≤ l.bursts ∧ 15 ≤ l.good ∧ l.uncorr = false ∧ (14 < 15 ∨ l.uncorr = true))
    ∧ (let l : OnuLadder := { phase := 3 }
      l.phase = 3 ∧ l.retryAt ≤ up.clk.now)
    ∧ (let s := { up with onu := { up.onu with quar := [(63 * 1024 + 5, 1)] } }
      Ready s ∧ Tab.get? s.onu.quar (63 * 1024 + 5) = some 1 ∧ s.clk.sfc < 1)
    ∧ (let s := { up with onu := { up.onu with quar := [(5, 0)], balNext := [(1, 1)] } }
      Ready s ∧ Tab.get? s.onu.quar (0 * 1024 + 5) = some 0 ∧ 0 ≤ s.clk.sfc ∧ Tab.getD s.onu.balNext 0 0 ≤ s.clk.now
        ∧ s.clk.now < Tab.getD s.onu.balNext 1 0 ∧ s.param 0x3031 0 ≠ 1)
    ∧ (let s := { up with par := [(0x3031, [(0, 1)])], lane := { up.lane with ch := [(0, { enabled := true }), (1, { enabled := true })] } }
      let loads := [0, 1].map fun c => (c, s.chLoad c)
      Ready s ∧ s.param 0x3031 0 = 1 ∧ s.paramN 0x3034 0 ≠ 0
        ∧ (List.range 8).filter (fun c => s.paramN 0x3036 0 != c && (Tab.getD s.lane.ch (8 * 0 + c) {}).enabled) = [0, 1]
        ∧ maxBy (fun e => e.2) loads = some (0, 0) ∧ maxBy (fun e => 1000000 - e.2) loads = some (0, 0))
    ∧ (let o := { onu0 .operation with loadUp := 10 ^ 14, carryOk := true }
      let s := { up with
        par := [(0x3031, [(0, 1)]), (0x3034, [(0, 1)])], lane := { up.lane with ch := [(0, { enabled := true }), (1, { enabled := true })] }
        onu := { up.onu with ctx := [(0, o)], chUp := [(0, 10 ^ 15)] } }
      let loads := [0, 1].map fun c => (c, s.chLoad c)
      let a := s.chLoad 0
      Ready s ∧ s.param 0x3031 0 = 1 ∧ s.paramN 0x3034 0 = 1 ∧ 0 + 100 * s.paramN 0x3032 0 < a
        ∧ maxBy (fun e => e.2) loads = some (0, a) ∧ maxBy (fun e => 1000000 - e.2) loads = some (1, 0)
        ∧ maxBy (fun e => s.onuLoad e.2 (8 * 0 + 0)) ((s.onu.ctx.filter fun e => e.2.g == 8 * 0 + 0
            && s.balanceable e.1 e.2 1).filter fun e => decide (0 < s.onuLoad e.2 (8 * 0 + 0)
              ∧ 2 * s.onuLoad e.2 (8 * 0 + 0) ≤ a - 0)) = some (0, o)) :=
  ⟨⟨ready rfl rfl rfl rfl rfl, by decide +kernel⟩, by decide +kernel, by decide +kernel,
    ⟨ready rfl rfl rfl rfl rfl, by decide +kernel⟩, by decide +kernel, by decide +kernel, by decide +kernel,
    ⟨ready rfl rfl rfl rfl rfl, by decide +kernel⟩, ⟨ready rfl rfl rfl rfl rfl, by decide +kernel⟩,
    ⟨ready rfl rfl rfl rfl rfl, by decide +kernel⟩, ready rfl rfl rfl rfl rfl, by decide +kernel⟩

def mc0 : MapCommit := { target := 2, late := false }

theorem witness_MapCommandsAndTheBoundary :
    (Ready up ∧ ((List.range 512).filter (· != 511)).foldl (fun a i => a + up.budgetOf i) 0
        + max 8 (max (up.mapCh 511).budgetA (up.mapCh 511).budgetS) ≤ 4096)
    ∧ ((up.mapCh 511).fixedNext = none ∧ (up.mapCh 511).fixedStage = none ∧ up.clk.sfc + 8 ≤ 8 ∧ fixedSetOk up 511 [] = true)
    ∧ (let s := { served1 (onu0 .operation) with map := { ch := [(0, { commit := some mc0 })] } }
      Ready s ∧ s.onuState 0 ≠ .free ∧ (s.mapCh 0).commit = some mc0 ∧ mc0.check = .waiting
        ∧ checkPage s 0 2 (s.mapCh 0).budgetS (s.mapCh 0).standby = none)
    ∧ (let s := { up with map := { up.map with ch := [(0, { commit := some mc0 })] } }
      Ready s ∧ s.coreRuns 0 = true ∧ (s.mapCh 0).compiled = false ∧ (s.mapCh 0).commit.isSome = true ∧ s.laterCommitted 0 = false)
    ∧ (up.coreRuns 0 = true ∧ up.laterCommitted 0 = false ∧ (up.mapCh 0).compiled = false ∧ (up.mapCh 0).commit = none ∧ up.map.snap.sfc = up.clk.sfc
      ∧ up.clk.ltb % 311040 + (policyIn up.map.snap.policy 0x4A10 0).toNat ≤ 311040)
    ∧ (let s := { up with clk := { ltb := 311039 } }
      Ready s ∧ 311040 < s.clk.ltb % 311040 + (policyIn s.map.snap.policy 0x4A10 0).toNat)
    ∧ ((∀ b, b = 172 ∨ (88 ≤ b ∧ b < 142) → State.reset.undefinedBlk b = false) ∧ State.reset.islandUp 172 = false
      ∧ up.islandUp 172 = true) :=
  ⟨⟨ready rfl rfl rfl rfl rfl, by decide +kernel⟩, by decide +kernel, ⟨ready rfl rfl rfl rfl rfl, by decide +kernel⟩,
    ⟨ready rfl rfl rfl rfl rfl, by decide +kernel⟩, by decide +kernel, ⟨ready rfl rfl rfl rfl rfl, by decide +kernel⟩, fun _ _ => rfl,
    by decide +kernel⟩

theorem witness_AllocationsPolicyAndMarver :
      (let s := served1 (onu0 .operation)
      Ready s ∧ Tab.get? s.onu.ctx 0 = some (onu0 .operation) ∧ allocBad aargs = false ∧ s.treeAllocs 0 < 4096
        ∧ lowestFree (Tab.keys s.map.alloc) 0 131072 = some 1 ∧ s.admits 0 1 aargs.assured = true
        ∧ Tab.get? s.map.alloc 0 = some alloc0 ∧ s.allocInFixed 0 = false ∧ alloc0.destroying = none ∧ Tab.get? s.map.alloc 1 = none
        ∧ Tab.get? s.mon.hist 255 = none)
    ∧ scopeKey (.chan 511) = some 611 ∧ policyPids.contains 0x4A10 = true ∧ inRange 0x4A10 8448 = true
    ∧ ((List.range 64).any fun k => (up.core k).watchEnd.isSome) = false ∧ imageRefused (Image.factory 2) 2 = false
    ∧ (let s := { up with map := { up.map with core := (List.range 64).map fun k =>
        (k, { standby := some (Image.factory 2), watchEnd := some 0 }) } }
      Ready s ∧ ((List.range 64).any fun k => (s.core k).standby.isNone) = false ∧ (s.core 63).watchEnd = some 0
        ∧ 0 ≤ s.clk.sfc ∧ (s.core 63).revertDue = false)
    ∧ (let due := fun (s : State) => Tab.getD s.map.hintAt 0 0 + (policyIn s.map.snap.policy 0x4A17 0).toNat
      up.clk.sfc < due up ∧ due { up with clk := { sfc := 8192 } } ≤ 8192)
    ∧ (Tab.get? (served1 (onu0 .operation)).map.alloc 0 = some alloc0 ∧ alloc0.reportPos ≤ 0
      ∧ (0 : Nat) < ({ alloc0 with reportPos := 1 } : Alloc).reportPos) :=
  ⟨⟨ready1 _, by decide +kernel⟩, by decide, by decide +kernel, by decide +kernel, by decide +kernel, by decide,
    ⟨ready rfl rfl rfl rfl rfl, by decide +kernel⟩, by decide +kernel, by decide +kernel⟩

def exp0 : Expect := { sfc := 0, kind := .dynamic, onu := 0, rate := 0, profile := 0, arrival := 0, len := 100, allocs := [], onuId := some 5 }

/-- A burst delineated 256/64 ticks late, with a good header. -/
def rx0 : BurstRx := ⟨true, [(256, 0)], true, 5, false, 0, 0, [], 0, []⟩

/-- The phase memory entry a burst of ONU 0 at the start of its superframe was loaded from. -/
def pload0 : PhaseLoad := { onu := 0, arrival := 0, rate := 0, ent := {}, ctle := 0, phase := 0 }

theorem witness_BurstOutcomesPhaseAndArrival :
    Ready up ∧ nextExpect (up.mapCh 0).expect = none ∧ up.assigned exp0 = none
    ∧ (let s := { served1 (onu0 .operation) with
        map := { up.map with ch := [(0, { expect := [exp0] })] }, lane := { up.lane with loaded := [(0, [pload0])] } }
      let u := onMap 0 (fun m => { m with expect := m.expect.erase exp0 }) s
      Ready s ∧ nextExpect (s.mapCh 0).expect = some exp0 ∧ s.standbyTree (0 / 8) = false
        ∧ u.outcome 0 exp0 rx0 = (.clean, some 256) ∧ u.outcome 0 exp0 { rx0 with onuId := 6 } = (.foreign, some 256)
        ∧ rx0.headerOk = true ∧ u.outcome 0 exp0 { rx0 with delims := [(257, 0)] } = (.missing, none) ∧ exp0.profile ≠ 1
        ∧ u.outcome 0 { exp0 with profile := 1 } { rx0 with loopLocked := false } = (.missing, none)
        ∧ u.outcome 0 { exp0 with onuId := some 6, noReset := true } rx0 = (.discarded, none)
        ∧ exp0.noReset = false ∧ rx0.loopLocked = true
        ∧ s.assigned exp0 = some (onu0 .operation) ∧ s.delimiter 0 exp0 rx0 = some 256
        ∧ s.delimiter 0 exp0 { rx0 with delims := [(257, 0)] } = none ∧ s.inQuarantine 0 rx0.onuId = false
        ∧ (onu0 .operation).onuId = some rx0.onuId ∧ (onu0 .operation).onuId ≠ some 6)
    ∧ (Tab.getD up.lane.loaded 0 []).find? (fun l => l.onu == exp0.onu && l.arrival == exp0.arrival) = none
    ∧ (let s := { served1 (onu0 .operation) with onu := { ctx := [(0, onu0 .operation)], quar := [(5, 1)] } }
      s.inQuarantine 0 rx0.onuId = true ∧ s.outcome 0 exp0 rx0 = (.discarded, some 256) ∧ rx0.headerOk = true) :=
  ⟨ready rfl rfl rfl rfl rfl, by decide +kernel, by decide +kernel, ⟨ready rfl rfl rfl rfl rfl, by decide +kernel⟩, by decide +kernel,
    by decide +kernel⟩

/-- At a superframe as far on as the channel pair's upstream lies behind, an evaluation is due. -/
theorem eval_due {s : State} {g : Nat} (h : s.upRef g + 315136 ≤ s.clk.sfc) : ∃ n, s.evalDue g = some n := by
  simp only [State.evalDue]
  rw [if_neg (by omega)]
  exact ⟨_, rfl⟩

theorem witness_UpstreamEvaluationDue :
    (Ready up ∧ up.evalDue 0 = none)
    ∧ ∃ l n, let s := { served1 (onu0 .operation) with clk := { sfc := l } }
      Ready s ∧ s.evalDue 0 = some n ∧ (∀ m, (s.rxCh 0).evalSfc = some m → m < n) ∧ s.evaluated 0 = true
        ∧ (let u := { s with rx := { s.rx with ch := [(0, { evalSfc := some n })] } }
          Ready u ∧ u.evalDue 0 = some n ∧ (u.rxCh 0).evalSfc = some n) := by
  constructor
  · refine ⟨ready rfl rfl rfl rfl rfl, ?_⟩
    simp only [State.evalDue]
    rw [if_pos]
    show 0 < _
    omega
  · obtain ⟨l, hl⟩ : ∃ l, up.upRef 0 + 315136 ≤ l := ⟨_, Nat.le_refl _⟩
    obtain ⟨n, h⟩ := eval_due (s := { served1 (onu0 .operation) with clk := { sfc := l } }) (g := 0) hl
    exact ⟨l, n, ready rfl rfl rfl rfl rfl, h, fun _ hm => (nomatch (show (none : Option Nat) = _ from hm)), rfl, ready rfl rfl rfl rfl rfl, h, rfl⟩

theorem witness_EvaluationsThresholdsAndReceiveStats :
      (let s := served1 (onu0 .operation)
      Ready s ∧ Tab.get? s.onu.ctx 0 = some (onu0 .operation) ∧ (s.rxOnu 0 0).sdbEnd = none)
    ∧ (let s := { served1 (onu0 .operation) with rx := { onu := [(0, { sdbEnd := some 1, prot := 10 ^ 5, corr := 10 })] }, clk := { now := 1 } }
      Ready s ∧ (s.rxOnu 0 0).sdbEnd = some 1 ∧ 1 ≤ s.clk.now ∧ bit (s.rxOnu 0 0).det 3 = false
        ∧ (s.rxOnu 0 0).prot ≤ (s.rxOnu 0 0).corr * 10 ^ s.paramN 0x5020 0 ∧ 10 ^ (s.paramN 0x5020 0 + 1) ≤ (s.rxOnu 0 0).prot)
    ∧ (let r : RxOnu := { sdbEnd := some 1, prot := 10 ^ 5, det := 8, gaspUntil := some 7 }
      let s := { served1 (onu0 .operation) with rx := { onu := [(0, r)], ch := [(0, { evalSfc := some 8 })] }, clk := { now := 1 } }
      Ready s ∧ s.rx.onu = [(8 * 0 + 0, r)] ∧ r.gaspUntil = some 7 ∧ (s.rxCh (8 * (onu0 .operation).tree + 0)).evalSfc = some 8
        ∧ (s.rxOnu 0 0).sdbEnd = some 1 ∧ bit (s.rxOnu 0 0).det 3 = true
        ∧ (s.rxOnu 0 0).corr * 10 ^ (s.paramN 0x5020 0 + 1) < (s.rxOnu 0 0).prot)
    ∧ thresholdOk (0x5001, 0, 8) = true ∧ thresholdOk (0x5001, 0, 9) = false ∧ thresholdOk (0x5020, 0, 4) = true :=
  ⟨⟨ready1 _, by decide +kernel⟩, ⟨ready rfl rfl rfl rfl rfl, by decide +kernel⟩, ⟨ready rfl rfl rfl rfl rfl, by decide +kernel⟩,
    by decide +kernel⟩

def fent : FacetEntry := { value := 0, mask := 0, valid := true, pg := 2, prio := 0, width := 0, action := 16383 }
def load0 : FacetLoad := { banks := [7], width := 0, entries := [fent], records := [(16383, ActionRec.zero)] }
def swap0 : FacetSwap := { cmd := q0, deadline := 0 }

theorem witness_FacetImagesAndEpochs :
    (Ready up ∧ ((up.facet 7).entry.any fun e => entryMeets 1 load0.banks e && bit e.2.pg ((up.facet 7).epoch % 2)) = false
      ∧ (up.facet 7).draining = false ∧ (up.facet 7).committed = false ∧ (up.facet 7).swap = none
      ∧ gangsOk load0.width load0.banks = true ∧ (∀ r ∈ load0.records, r.1 < 16384)
      ∧ load0.entries.length ≤ (leaders load0.width load0.banks).length * (2048 - 2048 / max 2 (up.paramN 0x6010 0))
      ∧ ((up.facet 7).insertAt 1 16383 fent ActionRec.zero).isSome = true)
    ∧ (let s := { up with cls := { up.cls with facet := [(0, { entry := [(16383, fent)], committed := true, swap := some swap0 })] } }
      Ready s ∧ Tab.get? (s.facet 0).entry (entKey 0 16383) = some fent ∧ fent.pg = 2 ^ (s.facet 0).spare
        ∧ (s.facet 0).committed = true ∧ (s.facet 0).swap = some swap0 ∧ swap0.draining = false ∧ swap0.deadline ≤ s.clk.now
        ∧ s.facetCheck 0 = none)
    ∧ (let e := { fent with pg := 3 }
      let s := { up with cls := { up.cls with facet := [(0, { entry := [(16383, e)], swap := some swap0 })] } }
      Ready s ∧ (s.facet 0).draining = false ∧ (s.facet 0).committed = false ∧ (s.facet 0).swap.isSome = true
        ∧ Tab.get? (s.facet 0).entry (entKey 0 16383) = some e ∧ e.pg = 3)
    ∧ (let s := { up with cls := { up.cls with facet := [(0, { entry := [(16383, { fent with upper := [1] })], committed := true, swap := some swap0 })] } }
      Ready s ∧ (s.facet 0).committed = true ∧ (s.facet 0).swap = some swap0 ∧ (s.facetCheck 0).isSome = true)
    ∧ (let x := { swap0 with draining := true }
      let s := { up with cls := { up.cls with facet := [(0, { swap := some x })] } }
      Ready s ∧ (s.facet 0).swap = some x ∧ x.draining = true ∧ (s.facet 0).inFlight ((s.facet 0).epoch + 1) = 0) :=
  ⟨⟨ready rfl rfl rfl rfl rfl, by decide +kernel⟩, ⟨ready rfl rfl rfl rfl rfl, by decide +kernel⟩,
    ⟨ready rfl rfl rfl rfl rfl, by decide +kernel⟩, ⟨ready rfl rfl rfl rfl rfl, by decide +kernel⟩,
    ready rfl rfl rfl rfl rfl, by decide +kernel⟩

/-- A frame without payload type, in its second pass. -/
def pkt0 : Pkt := { dir := 0, srcKind := 1, octets := List.replicate 64 0, pass2 := true }
def held0 : FragHeld := ⟨5, pkt0, 1⟩
def fragEnt0 : FragEnt := ⟨ActionRec.zero, 0, 0, 0⟩

theorem witness_IngressPassesAndFragments :
      (let s := { up with lane := { up.lane with port := [(0, { up := true })] } }
      Ready s ∧ s.portUp 0 = true ∧ (bwCount 0 64 s).ptpTerminates 0 pkt0.octets = false)
    ∧ (let s := { up with cls := { up.cls with recirc := [(15, [pkt0])], inq := [(0, [pkt0])], held := [(7, [held0])], frag := [(7, [(5, fragEnt0)])] } }
      let took := onCls (fun c => { c with recirc := Tab.set c.recirc 15 [] }) s
      Ready s ∧ Tab.getD s.cls.recirc 15 [] = pkt0 :: [] ∧ (took.parsed pkt0).conflict = false ∧ (took.parsed pkt0).incomplete = false
        ∧ pkt0.pass2 = true ∧ Tab.getD s.cls.recirc 0 [] = [] ∧ Tab.getD s.cls.inq 0 [] = pkt0 :: [] ∧ Tab.getD s.cls.inq 14 [] = []
        ∧ (∀ f ∈ Tab.getD s.cls.held 7 [], s.clk.now < f.until_) ∧ held0.pkt.chain = none
        ∧ (let due : FragHeld := ⟨6, pkt0, 0⟩
          let u := { s with cls := { s.cls with held := [(7, [held0, due])] } }
          Tab.getD u.cls.held 7 [] = [held0] ++ due :: [] ∧ (∀ x ∈ [held0], u.clk.now < x.until_) ∧ due.until_ ≤ u.clk.now)
        ∧ Tab.get? (s.fragTab 7) 5 = some fragEnt0 ∧ s.clk.now < fragEnt0.used + msT (s.paramN 0x6031 0)) :=
  ⟨⟨ready rfl rfl rfl rfl rfl, by decide +kernel⟩, ready rfl rfl rfl rfl rfl, by decide +kernel⟩

def wait0 : CascWait := { pkt := pkt0, act := ActionRec.zero, slot := 9 }

/-- The bits of a MATCH line that counts up from 0 through n symbols, most significant bit first. -/
def countLine (n : Nat) : List Bool := (List.range n).flatMap fun i => [8, 4, 2, 1].map fun b => i / b % 2 == 1

/-- The head, position 0 of 4, with slice 7 locked and a search that waits. -/
def casc0 : State := { up with
  par := [(0x6020, [(0, 4)])], cls := { up.cls with casc := { trained := [(7, true)], waits := [(waitKey 7 3, wait0)], rxEnd := [(6, 0)], timedOut := [waitKey 7 4] } } }

theorem witness_CascadeSearchesAndTraining :
      (let s := { up with time := { up.time with state := .freerun }, par := [(0x1500, [(0, 4)])] }
      Ready s ∧ s.ltbSet = true ∧ linksNeeded 4 3 ≤ s.ixrGroups.length ∧ linksNeeded 1 0 ≤ up.ixrGroups.length)
    ∧ (Ready casc0 ∧ Tab.get? casc0.cls.casc.rxEnd 6 = some 0 ∧ casc0.symbolSlot 7 9 = 9 ∧ up.ltbSet = false ∧ casc0.cascPos + 1 ≠ casc0.cascLen
      ∧ casc0.cascading = true ∧ casc0.cascPos = 0 ∧ casc0.cascLocked 7 = true ∧ wait0.final = none ∧ wait0.res = none ∧ wait0.own < 14
      ∧ casc0.cls.casc.waits.find? (fun e => e.1 / 2 ^ 32 == 7 && e.2.slot % slotCycle == casc0.symbolSlot 7 9 && e.2.final.isNone)
          = some (waitKey 7 3, wait0)
      ∧ Tab.get? casc0.cls.casc.waits (waitKey 7 3) = some wait0
      ∧ (let t := (ixrArrive 0 4 0 casc0).2
        t.cascading = true ∧ t.cascPos = 0 ∧ Tab.get? t.cls.casc.waits (waitKey 7 3) = some wait0
          ∧ Tab.get? t.cls.casc.waits (waitKey 7 4) = none ∧ t.cls.casc.timedOut.contains (waitKey 7 4) = true
          ∧ t.cls.casc.timedOut.contains (waitKey 7 5) = false ∧ Tab.get? t.cls.casc.waits (waitKey 7 5) = none))
    ∧ ({ wait0 with final := some 3 }.final.isSome = true ∧ wait0.until_ ≤ casc0.clk.now)
    ∧ (∀ e : Nat × Bool, e = (14, true) ∨ e = (15, true) ∨ e = (0, false) →
      let w := { wait0 with own := e.1 }
      let s := { casc0 with cls := { casc0.cls with casc := { casc0.cls.casc with
        trained := [(7, e.2)], waits := [(waitKey 7 3, w)] } } }
      Ready s ∧ s.cascading = true ∧ s.cascPos = 0 ∧ s.cascLocked 7 = e.2
      ∧ s.cls.casc.waits.find? (fun e => e.1 / 2 ^ 32 == 7 && e.2.slot % slotCycle == s.symbolSlot 7 9 && e.2.final.isNone)
          = some (waitKey 7 3, w))
    ∧ (64 ≤ (casc0.lineTrained 6 (countLine 65)).run ∧ (casc0.lineTrained 6 (countLine 64)).run < 64)
    ∧ (let key0 : CascadeKey := { slice := 7, tag := 3, slot := 9, width := 0, key := 0 }
      let res0 : CascadeResult := { slice := 7, position := 1, tag := 3, slot := 9, level := 1, index := 0, action := ActionRec.zero }
      let s := { casc0 with
        par := [(0x1500, [(30, 4), (31, 4)]), (0x6020, [(0, 4)]), (0x6021, [(0, 1)])]
        lane := { up.lane with ixr := [(30, { up := true }), (31, { up := true })] }
        cls := { up.cls with casc := { trained := [(7, true)], keyOpen := [(7, [key0])], resOpen := [(7, [res0])] } } }
      Ready s ∧ Tab.getD s.cls.casc.keyOpen 7 [] = [key0] ∧ Tab.getD s.cls.casc.resOpen 7 [] = [res0] ∧ s.downLink = some 31
        ∧ s.upLink = some 30 ∧ s.linkUp (some 31) = true ∧ s.linkUp (some 30) = true)
    ∧ (let o : CascOwn := ⟨3, 15, 0, ActionRec.zero, false, 0⟩
      let s := { casc0 with
        par := [(0x6020, [(0, 4)]), (0x6021, [(0, 3)])], cls := { up.cls with casc := { trained := [(7, true)], own := [(ownKey 7 9, o)] } } }
      Ready s ∧ s.cascading = true ∧ s.cascPos ≠ 0 ∧ s.cascPos + 1 = s.cascLen ∧ s.cascLocked 7 = true
        ∧ Tab.get? s.cls.casc.own (ownKey 7 (s.symbolSlot 7 9 % slotCycle)) = some o ∧ o.level ≤ 15
        ∧ s.cascTraining 7 = false ∧ s.cascTraining 6 = false
        ∧ (onCasc (fun c => { c with trainEnd := [(7, 1)] }) s).cascTraining 7 = true
        ∧ Tab.get? s.cls.casc.own (ownKey 6 (s.symbolSlot 6 9 % slotCycle)) = none ∧ ((ixrArrive 0 3 0 s).2).downLink = none) :=
  ⟨⟨ready rfl rfl rfl rfl rfl, by decide +kernel⟩, ⟨ready rfl rfl rfl rfl rfl, by decide +kernel⟩, by decide +kernel, by
      rintro e (rfl | rfl | rfl) <;> exact ⟨ready rfl rfl rfl rfl rfl, by decide +kernel⟩, by decide +kernel,
    ⟨ready rfl rfl rfl rfl rfl, by decide +kernel⟩, ready rfl rfl rfl rfl rfl, by decide +kernel⟩

def lag0 : Lag := { ports := [0, 8], up := [8], bucket := [(0, 8)] }

theorem witness_AggregationGroups :
      (let s := { up with cls := { up.cls with lag := [(0, lag0)] } }
      Ready s ∧ s.lagOf 63 = none ∧ s.lagPortsOk 63 [16, 24] = true ∧ s.lagOf 0 = some lag0
        ∧ s.namedByAction 1 0 (fun _ _ _ => true) = false ∧ s.namedByEntry 1 0 = false ∧ s.lagPortsOk 0 [0, 8, 16] = true
        ∧ (∀ p ∈ lag0.ports, p ∈ [0, 8, 16]) ∧ 8 ∈ lag0.up ∧ 0 ∉ lag0.up ∧ 0 ∈ lag0.ports ∧ s.sch.tx = [])
    ∧ (let f : TxFrame := { octets := [], len := 64, up := none, dest := none, lag := some (0, 2), since := 0 }
      let d : Desc := { cell := 3, len := 64, queue := 0, tc := 0, dir := 0, lag := some 0, bucket := 0 }
      let s := { up with cls := { up.cls with lag := [(0, lag0)] }, sch := { up.sch with tx := [(0, [f])] }, clk := { now := usT 1000 } }
      let u := { s with sch := { s.sch with q := [(0, { a := ⟨520, 7, 1023, 15, 0, false, false, 4095, 2 ^ 30 - 1, 64, 0, 0⟩, head := [d] })] } }
      let waiting := fun (s : State) => s.sch.tx.flatMap fun e => e.2.filterMap fun f => match f.lag with
          | some (g, n) => if g == 0 && decide (lag0.started < n) && decide (f.since + usT (s.paramN 0x6040 0) ≤ s.clk.now)
            then some n else none
          | none => none
      Ready s ∧ s.lagOf 0 = some lag0 ∧ waiting s = 2 :: [] ∧ s.lagBlocker 0 lag0.started = none
        ∧ Ready u ∧ u.lagOf 0 = some lag0 ∧ waiting u = 2 :: [] ∧ u.lagBlocker 0 lag0.started = some 8)
    ∧ ({ lag0 with up := [8, 0] }.pass 8).1.member 0 = some 0 ∧ { lag0 with up := [8, 0] }.member 0 = some 8 ∧ Tab.wf lag0.bucket = true :=
  ⟨⟨ready rfl rfl rfl rfl rfl, by decide +kernel⟩,
    ⟨ready rfl rfl rfl rfl rfl, by decide +kernel, by decide +kernel, by decide +kernel, ready rfl rfl rfl rfl rfl, by decide +kernel⟩,
    by decide +kernel⟩

def targ : TableArgs := ⟨0, 0, 0, 0, false, 0, false, true, 0, 0⟩
def ent0 : EmEnt := { kind := 2, isStatic := false, key := 1, age := 3 }
def walk0 : EmWalk := { until_ := 1 }

theorem witness_ExactMatchTableCommands :
    (Ready up ∧ tableArgsOk targ = true ∧ findKey up.em.tab (up.emBucket targ.kind targ.key) targ.kind targ.key = none
      ∧ ((up.freeWay (up.emBucket targ.kind targ.key)).any fun p => !(emPut p (entryOf targ) up).emComplete (up.em.seq + 1)) = true
      ∧ lowestFree (Tab.keys up.em.walk) 0 4 = some 0 ∧ up.em.flushing = none)
    ∧ (let s := { up with em := { up.em with tab := [(0, { ent0 with learned := true, ownerKind := 1, owner := 3 })] } }
      let gone := deleteAll (flushes 1 3 none false) s.em.tab.length (openCmd q0 0x7006 s)
      s.em.flushing = none ∧ gone.1 = 1 ∧ gone.2.emComplete gone.2.em.seq = false)
    ∧ (let s := { up with em := { up.em with copy := [(0, [(ovfBase, ent0)])], tab := [(ovfBase, ent0)], walk := [(3, walk0)] } }
      Ready s ∧ findKey (s.emCopy 0) (s.emBucket 2 1) 2 1 = some (ovfBase, ent0) ∧ Tab.get? s.em.walk 3 = some walk0
        ∧ s.clk.now < walk0.until_
        ∧ ((s.emCopy 0).filter fun e => decide (walk0.cursor ≤ e.1) && walk0.takes e.2).length ≤ 256) :=
  ⟨⟨ready rfl rfl rfl rfl rfl, by decide +kernel⟩, by decide +kernel, ready rfl rfl rfl rfl rfl, by decide +kernel⟩

def note0 : LearnNote := ⟨5, 1, 0, 0⟩

theorem witness_LearningAgeingAndParity :
    (Ready up ∧ up.em.refilling.contains 7 = false ∧ (∀ k < 8, Tab.getD up.em.learnQ k [] = [])
      ∧ Tab.get? up.em.writes (Tab.getD up.em.applied 7 0 + 1) = none ∧ findKey up.em.tab (up.emBucket 0 5) 0 5 = none)
    ∧ (∃ p, up.freeWay (up.emBucket 0 note0.key) = some p)
    ∧ (Tab.getD up.em.owners (ownerIdx note0.srcKind note0.source) 0 + 1 ≤ up.ownerLimit note0.srcKind note0.source
      ∧ up.learnedTotal + 1 ≤ up.paramN 0x7026 0)
    ∧ (let s := { up with em := { up.em with tab := [(0, ent0), (1, { ent0 with retiring := true })], learnQ := [(0, [note0])], copy := [(0, [(0, ent0)])], writes := [(1, .put 0 ent0)] } }
      Ready s ∧ s.em.turn = 0 ∧ Tab.getD s.em.learnQ 0 [] = note0 :: [] ∧ Tab.get? s.em.tab 0 = some ent0 ∧ ent0.isStatic = false
        ∧ ent0.retiring = false ∧ s.param 0x7030 0 ≠ 0 ∧ s.hitOr 0 = false ∧ 3 ≤ ent0.age
        ∧ Tab.get? s.em.tab 1 = some { ent0 with retiring := true } ∧ s.hitOr 1 = false
        ∧ Tab.get? s.em.writes (Tab.getD s.em.applied 7 0 + 1) = some (.put 0 ent0)
        ∧ (let t := raiseFault (emBlk 7) 8 0 (bump .emParity 7 s)
          (((List.range 8).filter fun k => k != 7 && t.islandUp (emBlk k)).findSome? fun k => Tab.get? (t.emCopy k) 0) = some ent0)) :=
  ⟨⟨ready rfl rfl rfl rfl rfl, rfl, fun _ _ => rfl, rfl, rfl⟩, ⟨_, rfl⟩, by decide +kernel,
    ready rfl rfl rfl rfl rfl, by decide +kernel⟩

def cell0 : Cell := { next := 0, last := true, head := true, st := 1, holder := 0, owner := 0 }
def hdr0 : ChainHdr := { len := 64, cells := 1, dir := 0, srcKind := 1, source := 0, srcHost := false, dest := none, queue := 0, enqNs := 0 }
def chain0 : Chain := { cells := [3], hdr := hdr0, octets := List.replicate 64 0 }
/-- A node under root 0 at the ends of its ranges: prio 7, weight 1023, gate 4095. -/
def nargs : NodeArgs := ⟨0, 7, 1023, 15, 0, false, false, 4095, 2 ^ 30 - 1, 64, 0, 0⟩
def queue0 : Queue := { a := nargs }

theorem witness_PoolAndDeepBufferCommands :
    (Ready up ∧ (((List.range 24).filter (· != 0)).map fun i => up.paramN 0x8010 i).foldl (· + ·) 0 + 32 ≤ 786432
      ∧ Tab.get? up.pool.cells 917503 = none ∧ up.chain 917503 = none ∧ profileOk BufProfile.default = true)
    ∧ (let s := { up with pool := { up.pool with cells := [(3, cell0)], chains := [(3, chain0)], freeing := [3] }, sch := { up.sch with q := [(0, queue0)] } }
      Ready s ∧ Tab.get? s.pool.cells 3 = some cell0 ∧ cell0.head = true ∧ s.chain 3 = some chain0 ∧ s.queue 0 = some queue0
        ∧ s.pool.freeing.contains 3 = true ∧ Tab.wf s.pool.cells = true) :=
  ⟨⟨ready rfl rfl rfl rfl rfl, by decide +kernel⟩, ready rfl rfl rfl rfl rfl, by decide +kernel⟩

def dsc0 : Desc := { cell := 3, len := 64, queue := 0, tc := 0, dir := 0 }
def page0 : Page := { queue := 0, slots := 16, startMap := 0, seq := 0, cont := 0, pkts := [] }

theorem witness_EgressArrivalAndDeepPages :
      (let cls1 := { up.cls with xbar := [(15, [dsc0])] }
      let s := { up with cls := cls1, sch := { up.sch with q := [(0, queue0)] }, pool := { up.pool with chains := [(3, chain0)] } }
      Ready s ∧ Tab.getD s.cls.xbar 15 [] = dsc0 :: [] ∧ dsc0.lag = none ∧ Tab.getD s.cls.xbar 0 [] = [] ∧ s.queue 0 = some queue0
        ∧ s.chain dsc0.cell = some chain0 ∧ queue0.spill = false ∧ s.maySpill 0 queue0.a = false
        ∧ s.onDie queue0 + chain0.cells.length ≤ (s.bufProf queue0.a.bufProfile).ondieMax ∧ s.queue 9 = none)
    ∧ (let x := { queue0 with openPg := some (5, 0), writing := [4], deep := [3], reading := true }
      let s := { up with sch := { up.sch with q := [(0, x)] }, pool := { up.pool with pages := [(3, page0), (4, page0)], wrOrder := [0], rdOrder := [0] } }
      Ready s ∧ s.queue 0 = some x ∧ x.openPg = some (5, 0) ∧ s.clk.now < 0 + nsTicks (s.paramN 0x8041 0) ∧ x.writing = 4 :: []
        ∧ x.staged = [] ∧ Tab.get? s.pool.pages 4 = some page0 ∧ 16 ≤ page0.slots ∧ x.deep = 3 :: [] ∧ x.reading = true
        ∧ Tab.get? s.pool.pages 3 = some page0 ∧ page0.pkts = [] ∧ x.partRd = none ∧ page0.seq = x.nextSeq
        ∧ s.nextWrite (stackOf 0) = some 0 ∧ s.nextRead (stackOf 0) = some 0) :=
  ⟨⟨ready rfl rfl rfl rfl rfl, by decide +kernel⟩, ready rfl rfl rfl rfl rfl, by decide +kernel⟩

def hold0 : HoldItem := { h := 0, g := 0, gem := 9, slot := some 1, octets := [], last := true, verdict := none, chain := none }
def reasm0 : Reasm := { octets := [1], till := 9, bad := false, chain := none }

theorem witness_UpstreamDecryptionAndReassembly :
    (up.param 0xA020 9 ≠ 1 ∧ (up.keyOnu 0).isRec = false ∧ (up.keyOnu 0).authAt = none ∧ up.hold 0 = [])
    ∧ (let s := { up with par := [(0xA020, [(9, 1)])] }
      s.param 0xA020 9 = 1 ∧ (s.keyOnu 0).isRec = false)
    ∧ (let s := { up with par := [(0xA000, [(0, 0)]), (0xA020, [(9, 1)])], cip := { up.cip with onu := [(0, { isRec := true, authAt := some 0 })] } }
      s.param 0xA020 9 = 1 ∧ (s.keyOnu 0).isRec = true ∧ s.param 0xA000 (0 / 8) = 0 ∧ (s.keyOnu 0).authAt = some 0
        ∧ s.clk.now < 0 + secT 1)
    ∧ (let dec1 := [(0, [hold0]), (1, [{ hold0 with verdict := some true }])]
      let cip1 := { up.cip with dec := dec1, key := [(3, { st := .ready })], reasm := [(sduKey 1 9, reasm0)] }
      let s := { up with cip := cip1, clk := { now := 10 ^ 9 } }
      Ready s ∧ s.hold 0 = hold0 :: [] ∧ hold0.verdict = none ∧ hold0.slot = some 1 ∧ (s.keyCtx hold0.h 1 1).st = .ready
        ∧ s.hold 1 = { hold0 with verdict := some true } :: [] ∧ hold0.last = true ∧ Tab.get? s.cip.reasm (sduKey hold0.h hold0.gem) = none
        ∧ Tab.get? s.cip.reasm (sduKey 1 9) = some reasm0 ∧ reasm0.till ≤ s.clk.now ∧ reasm0.chain = none ∧ reasm0.octets ≠ []
        ∧ hold0.good = true ∧ { hold0 with good := false }.good = false ∧ hold0.chain = none) :=
  ⟨by decide +kernel, by decide +kernel, by decide +kernel, ready rfl rfl rfl rfl rfl, by decide +kernel⟩

def vertex0 : Vertex := { a := nargs, dir := 0 }

theorem witness_SchedulerNodeCommands :
    (Ready up ∧ up.parentOk 0 nargs.parent = true ∧ nodeArgsOk nargs = true ∧ up.queue (queueKey 0 131071) = none
      ∧ up.gateFits nargs = true ∧ up.queuesIn 0 ((up.vertSlice nargs.parent).getD 0) < 32768
      ∧ up.vertDepth up.treeFuel nargs.parent ≤ up.paramN 0x9001 0 ∧ up.verticesIn ((up.vertSlice nargs.parent).getD 0) < 16384
      ∧ lowestRow ((Tab.keys up.sch.v).filter (768 ≤ ·)) 768 = 768)
    ∧ (let s := { up with sch := { up.sch with
        q := [(0, queue0), (queueKey 1 0, { queue0 with a := { nargs with parent := 512 } })], v := [(768, vertex0)] } }
      Ready s ∧ s.queue 0 = some queue0 ∧ s.queueNamed 0 = false ∧ nodeArgsOk { nargs with parent := queue0.a.parent } = true
        ∧ s.nodeArgs 0 = some nargs ∧ isRoot 0 = false ∧ s.vertSlice 768 = s.vertSlice nargs.parent ∧ s.parentOk 0 768 = true
        ∧ s.queueDepth s.treeFuel 0 = some 0 ∧ s.vertDepth s.treeFuel 768 + 0 ≤ s.paramN 0x9001 0
        ∧ ((readNode 0 (openCmd q0 0x9005 s)).queue 0).isSome = true ∧ ((readNode (vxKey 768) (openCmd q0 0x9008 s)).vert 768).isSome = true
        ∧ s.nodeArgs (vxKey 768) = some nargs ∧ s.vert 768 = some vertex0 ∧ vertex0.children = [] ∧ s.isAncestor 768 s.treeFuel 1 = false
        ∧ s.vertSlice 1 = s.vertSlice nargs.parent ∧ s.parentOk vertex0.dir 1 = true
        ∧ s.queueDepth s.treeFuel (vxKey 768) = none
        ∧ (s.vert 767).isSome = true ∧ (0 : Nat) ≤ s.rootSpeed 767 ∧ burstOk 0 0 = true
        ∧ s.queue (queueKey 1 0) = some { queue0 with a := { nargs with parent := 512 } } ∧ s.rootOf s.treeFuel 512 = some (512 + 0)) :=
  ⟨⟨ready rfl rfl rfl rfl rfl, by decide +kernel⟩, ready rfl rfl rfl rfl rfl, by decide +kernel⟩

def pol0 : Policer := { r := { valid := true, lenProfile := 15, rate := 2 ^ 30 - 1, burst := 64 }, b := { level := 64 * 65536 } }
def glist : GateList := { baseSec := 0, baseNs := 0, count := 1, entries := [(true, 1000)] }
def frame0 : TxFrame := { octets := [], len := 64, up := none, dest := none, lag := none, since := 0 }

theorem witness_PolicersGatesAndTransmission :
      (let gate1 : Tab Gate := [(0, { standby := some glist }), (2, { standby := some glist, commit := some { cmd := none, start := some 0 } })]
      let sch1 := { up.sch with pol := [(polKey 7 131071, pol0)], tx := [(0, [frame0, frame0])], gate := gate1 }
      let s := { up with sch := sch1, lane := { up.lane with port := [(0, { up := true })] } }
      Ready s ∧ Tab.get? s.sch.pol (polKey 0 1) = none ∧ Tab.get? s.sch.pol (polKey 7 131071) = some pol0 ∧ pol0.r.valid = true
        ∧ ((s.counted pol0.r.lenProfile 64 * 65536 : Nat) : Int) ≤ (pol0.b.refresh pol0.r.rate pol0.r.burst s.clk15).1.level
        ∧ (pol0.b.refresh pol0.r.rate pol0.r.burst s.clk15).1.level < ((s.counted pol0.r.lenProfile 65 * 65536 : Nat) : Int)
        ∧ (Tab.getD s.sch.gate 4095 {}).commit = none ∧ glist.entries.length = glist.count
        ∧ (Tab.getD s.sch.gate 0 {}).standby = some glist ∧ gateCheck glist = none ∧ s.ltbSet = false
        ∧ gateCheck { glist with count := 0 } = some (1, 0)
        ∧ (Tab.getD s.sch.gate 2 {}).commit = some { cmd := none, start := some 0 } ∧ 0 * 7776 ≤ s.ltbFine
        ∧ (Tab.getD s.sch.gate 0 {}).at (s.ltbFine + s.paramN 0x9030 0 * 7776) = some none
        ∧ s.rootAccepts 520 = false ∧ Tab.getD s.sch.tx 255 [] = [] ∧ Tab.getD s.sch.tx 0 [] = frame0 :: [frame0]
        ∧ s.portUp 0 = true ∧ frame0.lag = none ∧ frame0.up = none)
    ∧ (let f := { frame0 with up := some 5 }
      let s := { up with sch := { up.sch with tx := [(248, [f])], q := [(0, queue0)] }, lane := { up.lane with port := [(248, { up := true })] } }
      Ready s ∧ Tab.getD s.sch.tx 248 [] = f :: [] ∧ s.portUp 248 = true ∧ f.lag = none ∧ f.up = some 5 ∧ s.queue 0 = some queue0)
    ∧ (let s := { up with lane := { up.lane with port := [(0, { up := true })] } }
      let u := { s with
          sch := { s.sch with lastRoot := Tab.set s.sch.lastRoot (rootPipe 512) 512 } }
      let w := (u.rootNodes 512).foldl (fun s k => readNode k s) u
      Ready s ∧ s.nextRoot (rootPipe 512) = some 512 ∧ u.rootQueues 512 = [] ∧ s.nextRoot (rootPipe 513) ≠ some 513
        ∧ (walkDown w.treeFuel 512 w).1 = [] ∧ ∃ v, w.vert 512 = some v ∧ w.maxOk v.a v.bmax = true) :=
  ⟨⟨ready rfl rfl rfl rfl rfl, by decide +kernel⟩, ⟨ready rfl rfl rfl rfl rfl, by decide +kernel⟩,
    ready rfl rfl rfl rfl rfl, by decide +kernel, by decide +kernel, by decide +kernel, by decide +kernel, _, rfl, by decide +kernel⟩

def pend0 : KeyCtx := { st := .pending }

theorem witness_KeyContextsAndExchanges :
      (let s := served1 (onu0 .operation)
      Ready s ∧ Tab.get? s.onu.ctx 0 = some (onu0 .operation) ∧ (s.keyOnu 0).exch = none ∧ s.exchSlot 0 = some 0
        ∧ s.findOnu (hd0.g / 8) hd0.onuId = some (0, onu0 .operation) ∧ s.due (s.keyOnu 0).rekeyAt = false
        ∧ (s.bcastCtx 511 1).st = .empty ∧ s.clk.sfc + 8 ≤ 8 ∧ cipherIdx .device 0xA010 = some 0 ∧ cipherInRange 0xA010 1000 = true)
    ∧ (onu0 .ranging).state ≠ .operation
    ∧ (let e : KeyExch := { slot := 1, frag0 := some [1], until_ := some 0 }
      let cip1 := { up.cip with onu := [(0, { exch := some e })], key := [(1, pend0), (6, { st := .retiring })], bcast := [(2, { st := .retiring })] }
      let s := { served1 (onu0 .operation) with cip := cip1, clk := { sfc := 1 } }
      Ready s ∧ (s.keyOnu 0).exch = some e ∧ (s.keyCtx 0 0 1).st = .pending ∧ 0 < s.clk.sfc ∧ e.slot ≠ 0
        ∧ ((keyAnswered hd0 0 (onu0 .operation) s).keyOnu 0).isRec = false ∧ Tab.wf s.cip.key = true ∧ (s.keyCtx 1 1 0).st = .retiring
        ∧ (s.keyCtx 1 1 0).till ≤ s.clk.sfc ∧ (s.bcastCtx 1 0).st = .retiring)
    ∧ (let s := { served1 (onu0 .operation) with cip := { up.cip with onu := [(0, { rekeyAt := some 0, retryAt := some 0 })] } }
      (s.keyOnu 0).exch = none ∧ s.due (s.keyOnu 0).rekeyAt = true ∧ s.due (s.keyOnu 0).retryAt = true) :=
  ⟨⟨ready1 _, by decide +kernel⟩, by decide, ⟨ready rfl rfl rfl rfl rfl, by decide +kernel⟩, by decide +kernel⟩

def job0 : KeJob := .unwrap q0 15 0 0
def crc0 : CrcUnit := { left := 64, busy := true }

theorem witness_KeyEngineAndCrcUnits :
    (Ready up ∧ up.hkOk 15 = true ∧ up.hkOk 16 = false ∧ up.cip.ke.owner = 0 ∧ up.cip.rngFailed = false
      ∧ (crcAlg 3).isSome = true ∧ (crcAlg 4).isSome = false ∧ (up.crcUnit 2).busy = false ∧ crcSpace 0x17 = some (16 * 2048 * 48, 48))
    ∧ (let s := { up with cip := { up.cip with ke := { owner := 1, jobs := [job0] }, cu := [(2, crc0)] } }
      Ready s ∧ s.cip.ke.owner ≠ 0 ∧ s.cip.ke.owner = 1 ∧ s.cip.ke.jobs = job0 :: [] ∧ (s.crcUnit 2).busy = true ∧ (s.crcUnit 2).left = 64)
    ∧ (let s := { up with cip := { up.cip with ke := { waitLoader := true, waitAmp := true }, rngFailed := true } }
      Ready s ∧ s.cip.ke.owner = 0 ∧ s.cip.ke.waitLoader = true ∧ s.cip.rngFailed = true)
    ∧ (let src := List.replicate 65537 0
      let j : KeJob := .crypt q0 true 0 0 0 0 src 0 0
      let s := { up with cip := { up.cip with ke := { owner := 1, jobs := [j], waitAmp := true } } }
      s.cip.ke.jobs = .crypt q0 true 0 0 0 0 src 0 0 :: [] ∧ keSegment * (s.cip.ke.seg + 1) < src.length ∧ s.cip.ke.waitAmp = true) :=
  ⟨⟨ready rfl rfl rfl rfl rfl, by decide +kernel⟩, ⟨ready rfl rfl rfl rfl rfl, by decide +kernel⟩,
    ⟨ready rfl rfl rfl rfl rfl, by decide +kernel⟩, rfl
    , by show 65536 * (0 + 1) < (List.replicate 65537 0).length; rw [List.length_replicate]; decide, rfl⟩

/-- Images that Bexed's job on the Key Engine verifies, and does not. -/
theorem witness_KeyEngineImageJobs :
      (let s := { up with cip := { up.cip with ke := { owner := 1, jobs := [.image q0 .bexed (Image.factory 1)] } } }
      Acts s 177 ∧ s.cip.ke.owner = 1 ∧ s.cip.ke.jobs = .image q0 .bexed (Image.factory 1) :: [] ∧ s.cip.ke.waitLoader = false
        ∧ s.cip.ke.waitAmp = false)
    ∧ Image.tagOk (Image.factory 1) = true ∧ Image.tagOk { Image.factory 1 with length := 1 } = false
    ∧ (∃ tag, gcmTag 0 0 [] [] ≠ tag % 2 ^ 128) :=
  ⟨⟨acts _ rfl rfl rfl (by decide), rfl, rfl, rfl, rfl⟩, factory_ok 1, by simp only [Image.tagOk]; rfl, by
    rcases Nat.eq_zero_or_pos (gcmTag 0 0 [] []) with h | h
    · exact ⟨1, by rw [h]; decide⟩
    · exact ⟨0, by omega⟩⟩

def ptp0 : PtpArgs := { ingressLat := 0, egressLat := 0, delayAsym := 0, destAddr := 0, domain := 24, twoStep := 0, priority2 := 0,
                        clockLocalPrio := 1, portLocalPrio := 1, notSlave := 0, enable := true }
def msg0 : PtpMsg := ⟨0, 0, 24, 7, 0, 0, 0, 0, 0, 0, 6, 0, 7, 0, 100, 37, 0⟩

theorem witness_PtpPortsAndIxrardoTime :
    (Ready up ∧ up.portExists 248 = true ∧ (ptpVals ptp0 248).all (fun v => pidInRange v.1 v.2.2) = true
      ∧ Tab.get? up.time.port 248 = none ∧ up.time.port.length < 64 ∧ up.time.parent = none)
    ∧ (let s := { up with time := { up.time with state := .locked, port := [(0, { state := .slave })], parent := some (0, 7), td0 := { kind := 1 } } }
      Ready s ∧ Tab.get? s.time.port msg0.port = some { state := .slave } ∧ msg0.domain = s.paramN 0xB054 0 ∧ msg0.kind = 0
        ∧ s.time.parent = some (msg0.port, msg0.srcIdentity) ∧ s.time.td0.kind = 1 ∧ s.time.td1.kind ≠ 1 ∧ s.ltbSet = true)
    ∧ (let s := { up with time := { up.time with state := .freerun, port := [(0, { state := .master })] } }
      Ready s ∧ Tab.get? s.time.port 0 = some { state := .master } ∧ s.ltbSet = true ∧ s.time.parent ≠ some (0, 7) ∧ s.clk.now < 0 + msT 375
        ∧ s.param 0xB055 0 ≠ 1 ∧ (allocCells 21 1 1 [] s).1 = .ok [0]
        ∧ 0 + msT 375 ≤ { s with clk := { now := msT 375 } }.clk.now)
    ∧ (let s := { up with par := [(0x1500, [(31, 4)])], lane := { up.lane with ixr := [(31, { up := true })] }
                          time := { up.time with ixr := [(0, { open_ := [(5, 100)] })] } }
      Ready s ∧ s.undefinedBlk (ixrBlk 31) = false ∧ s.linkIdx 31 = some 0 ∧ s.ixrUp.contains 31 = true
        ∧ Tab.get? (Tab.getD s.time.ixr 0 {}).open_ 5 = some 100 ∧ Tab.get? (Tab.getD s.time.ixr 0 {}).open_ 6 = none
        ∧ (let v := onIxrPeer 0 (fun p => { p with steps := 255, cls := 7, ltbSet := true }) (ixrArrive 31 2 9 s).2
          Tab.get? (Tab.getD v.time.ixr 0 {}).open_ 5 = some 100 ∧ Tab.get? (Tab.getD v.time.ixr 0 {}).open_ 6 = none ∧ v.domsOf 3 0 = [])
        ∧ (s.timeFrame 31 9 1 0 0 0).link = 31 ∧ (s.timeFrame 31 9 1 0 0 0).msg = 1 ∧ (s.timeFrame 31 9 2 5 0 0).msg = 2) :=
  ⟨⟨ready rfl rfl rfl rfl rfl, by decide +kernel⟩, ⟨ready rfl rfl rfl rfl rfl, by decide +kernel⟩,
    ⟨ready rfl rfl rfl rfl rfl, by decide +kernel⟩, ready rfl rfl rfl rfl rfl, by decide +kernel⟩

def dom0 : TimeDom := { kind := 2, qualified := true }

theorem witness_TimeDomainsAndTheServo :
    (Ready up ∧ up.ltbSet = false ∧ (up.time.dom 0).kind ≠ 2 ∧ ((up.time.dom 1).kind ≠ 2 ∨ (up.time.dom 1).inst ≠ 0)
      ∧ timePids.contains 0xB01A = true ∧ up.time.state = .unset ∧ up.bestDomain = none ∧ up.time.steer = none ∧ up.time.sets = [])
    ∧ (let s := { up with time := { up.time with sets := [(q0, 5, 999999999)] } }
      Ready s ∧ s.time.state = .unset ∧ s.bestDomain = none ∧ s.time.steer = none ∧ s.time.sets = [(q0, 5, 999999999)])
    ∧ (let s := { up with time := { up.time with state := .locked, steer := some 1, td0 := dom0, td1 := { dom0 with inst := 1 } }, clk := { now := 10 ^ 12 } }
      Ready s ∧ s.time.steer = some 1 ∧ 1 ≠ s.preferred ∧ (s.time.dom s.preferred).qualified = true ∧ (s.time.dom 1).qualified = true
        ∧ (s.time.dom s.preferred).since + secT (s.paramN 0xB014 0) ≤ s.clk.now ∧ (s.time.dom 0).kind ≠ 0
        ∧ (s.time.dom 0).last + s.lossTime (s.time.dom 0).kind ≤ s.clk.now ∧ (s.time.dom 0).kind = 2 ∧ (s.time.dom 0).inst = 0
        ∧ s.ltbSet = true)
    ∧ (let s := { up with time := { up.time with state := .locked, steer := some 1, td0 := dom0 } }
      Ready s ∧ (s.time.dom 1).qualified = false ∧ s.bestDomain = some 0) :=
  ⟨⟨ready rfl rfl rfl rfl rfl, by decide +kernel⟩, ⟨ready rfl rfl rfl rfl rfl, by decide +kernel⟩,
    ⟨ready rfl rfl rfl rfl rfl, by decide +kernel⟩, ready rfl rfl rfl rfl rfl, by decide +kernel⟩

def pulse0 : PulseArgs := ⟨1, 1000000000, 0, 1000, 0, 0⟩
def tod0 : TodMsg := ⟨0, false, 1, 900, true, false, false, false, 0, 0, 6, 100⟩
def asym0 : AsymArgs := ⟨1467700, 1467700, 0, 0, 0⟩

theorem witness_ReferencePulsesAndTimeOfDay :
    (Ready up ∧ up.time.refB.lost = false ∧ up.time.refA.lost = false ∧ up.time.dco = 0 ∧ tod0.input = 0 ∧ up.time.edgeA = none)
    ∧ (let s := { up with time := { up.time with refB := { lost := true, qualified := true }, edgeA := some 0, dco := 1 }, clk := { now := secT 10 } }
      Ready s ∧ s.time.refB.lost = true ∧ s.time.refA.lost = false ∧ s.time.dco = 1 ∧ s.time.refB.qualified = true
        ∧ s.time.refB.since + secT 10 ≤ s.clk.now ∧ s.time.edgeA = some 0 ∧ tod0.crcOk = false)
    ∧ (let m := { tod0 with crcOk := true }
      let s := { up with time := { up.time with edgeA := some 0, td0 := dom0 } }
      Ready s ∧ m.input = 0 ∧ s.time.edgeA = some 0 ∧ m.crcOk = true ∧ 1 ≤ m.startMs ∧ m.endMs ≤ 900 ∧ m.valid = true
        ∧ ({ s with time := { s.time with edgeA := none } }).domsOf 2 0 = [0] ∧ ({ m with valid := false }).valid = false)
    ∧ (let s := { up with time := { up.time with refA := { lost := true } } }
      s.time.refA.lost = true)
    ∧ (let p : PulseOut := { cur := pulse0, edges := 1 }
      let x := { p with next := some (pulse0, 0) }
      let s := { served1 (onu0 .operation) with
        time := { up.time with state := .freerun, pulse := [(0, p), (3, x)] }, clk := { ltb := msT 10 } }
      Ready s ∧ s.ltbSet = true ∧ s.pulseOf 0 = p ∧ p.next = none ∧ p.cur.mode ≠ 0 ∧ s.pulseOf 3 = x ∧ 0 ≤ s.clk.now ∧ pulse0.mode ≠ 0
        ∧ (s.pulseOf 0).cur.mode = 1 ∧ (s.pulseOf 0).cur.period = 1000000000 ∧ (s.pulseOf 0).edges ≠ 0
        ∧ (s.pulseOf 0).last + msT 10 ≤ s.clk.ltb ∧ Tab.get? s.onu.ctx 0 = some (onu0 .operation) ∧ pulseWidthOk pulse0 = true) :=
  ⟨⟨ready rfl rfl rfl rfl rfl, by decide +kernel⟩, ⟨ready rfl rfl rfl rfl rfl, by decide +kernel⟩,
    ⟨ready rfl rfl rfl rfl rfl, by decide +kernel⟩, by decide +kernel, ready rfl rfl rfl rfl rfl, by decide +kernel⟩

def sealed0 : SealedParams := { SealedParams.factory with dsOverhead := 63, usOverhead := -32 }
def signed0 : SignedRec := { recSeq := 4, ltb := 9, octets := [1] }
def log0 : LogEntry := { seq := 2, ltb := 0, type := 1, data := [] }

theorem witness_AmpouleRecordsAndReadouts :
    (Acts up 173 ∧ Acts up 172 ∧ up.amp.burn = none ∧ up.ports.contains a0.port = true ∧ up.amp.tap = [] ∧ up.amp.isOpen = false
      ∧ up.amp.counter < 63 ∧ up.amp.logFull = false ∧ up.amp.pin = true ∧ up.amp.pinQueue = [])
    ∧ (let s := { up with amp := { up.amp with pin := false, evidence := [signed0], log := [log0], nextSeq := 3 }, clk := { now := secT 1 } }
      Acts s 173 ∧ s.amp.isOpen = false ∧ s.amp.pin = false ∧ s.amp.pinAt + secT 1 ≤ s.clk.now ∧ 2 < s.amp.nextSeq
        ∧ (s.amp.evidence.find? fun e => if 0 = 1 then e.ltb == 4 else e.recSeq == 4) = some signed0
        ∧ (s.amp.log.any fun e => e.seq == 2) = true)
    ∧ (let s := { up with amp := { up.amp with isOpen := true, staged := some sealed0, pin := false, counter := 63 } }
      Acts s 173 ∧ s.amp.isOpen = true ∧ sealedInRange sealed0 = true ∧ s.amp.staged = some sealed0 ∧ s.amp.openUntil ≤ s.clk.now
        ∧ 63 ≤ s.amp.counter)
    ∧ (let s := { up with amp := { up.amp with burn := some (.slot a0 sealed0) } }
      Acts s 173 ∧ s.amp.pinQueue = [] ∧ s.amp.burn = some (.slot a0 sealed0))
    ∧ (let s := { up with amp := { up.amp with burn := some (.counter a0) } }
      Acts s 173 ∧ s.amp.pinQueue = [] ∧ s.amp.burn = some (.counter a0)) :=
  ⟨⟨acts _ rfl rfl rfl (by decide), acts _ rfl rfl rfl (by decide), by decide +kernel⟩,
    ⟨acts _ rfl rfl rfl (by decide), by decide +kernel⟩, ⟨acts _ rfl rfl rfl (by decide), by decide +kernel⟩,
    ⟨acts _ rfl rfl rfl (by decide), by decide +kernel⟩, acts _ rfl rfl rfl (by decide), by decide +kernel⟩

/-- A member of a stack whose peer is unit 1, with group 63's settle time at 32 superframes. -/
def pair0 (g : ProtGrp) : State := { up with
  prot := { up.prot with grp := [(63, g)] }, par := [(0x3036, [(62, 7)]), (0x3037, [(63, 32)]), (0xC011, [(0, 1)])] }

theorem witness_ProtectionCommands :
    (Ready (pair0 {}) ∧ 32 ≤ (pair0 {}).paramN 0x3037 63
      ∧ ((treePairs 63).any fun x => decide ((pair0 {}).paramN 0x3020 x < 250000)) = false
      ∧ (pair0 {}).paramN 0xC011 0 ≠ (pair0 {}).opt.unitId ∧ ((pair0 {}).grp 63).st = .off ∧ ((pair0 {}).grp 63).peerDigest = none
      ∧ (pair0 {}).populated 511 = false ∧ (pair0 {}).idleSpare 62 = some 7)
    ∧ (∃ s : State, s.opt.cur.stackRole = 2 ∧ s.stackRole ≠ 0)
    ∧ (Ready (pair0 { st := .sync }) ∧ (pair0 { st := .sync }).peerActive 63 = false ∧ ((pair0 { st := .sync }).grp 63).st = .sync)
    ∧ (let p : ProtGrp := { st := .active, peerState := 2 }
      Ready (pair0 p) ∧ (pair0 p).grp 63 = p ∧ p.st = .active ∧ p.peerState = 2 ∧ p.audit = none) :=
  ⟨⟨ready rfl rfl rfl rfl rfl, by decide +kernel⟩, ⟨{ up with opt := { cur := { opt1 with stackRole := 2 } } }, by decide +kernel⟩,
    ⟨ready rfl rfl rfl rfl rfl, by decide +kernel⟩, ready rfl rfl rfl rfl rfl, by decide +kernel⟩

theorem witness_ClaimsHeartbeatsAndPromotion :
    (Ready up ∧ up.prot.busFault = false ∧ up.stackRole = 0 ∧ up.paramN 0x1500 31 ≠ 4 ∧ up.prot.auditAt ≤ up.clk.now
      ∧ (up.grp 63).settleEnd ≤ up.clk.sfc ∧ up.due (up.grp 63).drillUntil = false)
    ∧ (let p : ProtGrp := { st := .claiming, raised := true, drillUntil := some 0, settleEnd := 1 }
      Ready (pair0 p) ∧ (pair0 p).grp 63 = p ∧ p.raised = true ∧ p.st = .claiming ∧ p.gapped = false
        ∧ (pair0 p).due ((pair0 p).grp 63).drillUntil = true ∧ (pair0 p).clk.sfc < ((pair0 p).grp 63).settleEnd)
    ∧ (let s := { up with prot := { up.prot with busFault := true, auditAt := 1, grp := [(63, { st := .active })] }, par := [(0x1500, [(31, 4)])] }
      Ready s ∧ s.ixrLocked 31 = false ∧ s.prot.busFault = true ∧ s.prot.roundSeen = false ∧ s.clk.now < s.prot.auditAt ∧ s.prot.grp = [(63, { st := .active })]
        ∧ s.paramN 0x1500 31 = 4)
    ∧ (let s := { pair0 { st := .promoting } with clk := { now := usT 20, sfc := 2 } }
      Ready s ∧ (s.grp 63).st = .promoting ∧ (s.grp 63).wonAt + usT 20 + s.clk.ltb % 311040 ≤ s.clk.now ∧ s.prot.heardM + 2 ≤ s.clk.sfc)
    ∧ (let s := pair0 { st := .ready }
      let z := (ixrArrive 31 5 0 (onGrp 63 (fun p => { p with peerDigest := some 9 }) s)).2
      (s.grp 63).st = .ready ∧ (z.grp 63).st = (s.grp 63).st)
    ∧ (let r : RoundResult := ⟨63, true, true, 0⟩
      let s := pair0 { st := .claiming, raised := true }
      let v := roundOne r { s with prot := { s.prot with roundSeen := true } }
      Ready s ∧ s.prot.busFault = false ∧ r.group < 64 ∧ r.neverStopped = true ∧ r.peerSilent = true
        ∧ ({ r with neverStopped := false }).neverStopped = false ∧ ∀ k ∈ Tab.keys v.prot.grp, (v.grp k).wanted = false)
    ∧ (let s := { up with
        par := [(0x1500, [(31, 4)])], lane := { up.lane with pcs := (List.range 32).map fun l => (8 * 31 * 32 + l, { locked := true }) } }
      Ready s ∧ s.paramN 0x1500 31 = 4 ∧ s.ixrLocked 31 = true ∧ (ixrArrive 31 6 0 s).1 = false) :=
  ⟨⟨ready rfl rfl rfl rfl rfl, by decide +kernel⟩, ⟨ready rfl rfl rfl rfl rfl, by decide +kernel⟩,
    ⟨ready rfl rfl rfl rfl rfl, by decide +kernel⟩, ⟨ready rfl rfl rfl rfl rfl, by decide +kernel⟩, by decide +kernel,
    ⟨ready rfl rfl rfl rfl rfl, by decide +kernel⟩, ready rfl rfl rfl rfl rfl, by decide +kernel⟩

def prog0 : InProg := { tag := 1, op := 0, resCap := 16 }

theorem witness_CompletionsEventsAndRefusals :
      (let k : KlPort := { up.host.port0 with inProg := [prog0] }
      let s := { up with host := { up.host with port0 := k } }
      s.host.port0 = k ∧ findProg k.inProg q0.tag 0 = some prog0 ∧ k.enable = true ∧ prog0.discard = false ∧ prog0.irq = false)
    ∧ Fits q0 .ok ∧ ¬ Fits ⟨0, 1, 16⟩ (.vals [.u 64 0, .u 64 0, .u 8 0])
    ∧ (let s := { up with host := { up.host with port0 := { up.host.port0 with evtIrq := { holdoffUs := 1 } } } }
      s.ports = [0] ∧ s.host.port0.evtIrq.entries ≠ 1 ∧ s.host.port0.evtIrq.holdoffUs ≠ 0 ∧ s.host.port0.enable = true
        ∧ ringFull s.host.port0.evtSize s.host.port0.evtHead s.host.port0.evtTail = false)
    ∧ broken.undefinedBlk 104 = true ∧ (∀ op, Served up q0 op)
    ∧ (State.reset.serves q0 0 = false ∧ up.undefinedBlk 105 = false)
    ∧ (let s := { up with host := { up.host with romMode := true } }
      s.serves q0 0x1000 = true ∧ q0.port ≠ 1 ∧ s.host.romMode = true ∧ romOps 0x1000 = false)
    ∧ (let s := { up with host := { up.host with port1 := up.host.port0 }, opt := { cur := { opt1 with pcieMode := 1 } } }
      s.serves ⟨1, 1, 16⟩ 0 = true ∧ s.opt.cur.port1Write = 0 ∧ readOnlyOps.contains 0 = false) :=
  ⟨by decide +kernel, by unfold Fits; decide +kernel, by unfold Fits; decide +kernel, by decide +kernel, by decide +kernel,
    fun _ => served _ rfl rfl rfl, by decide +kernel, by decide +kernel, by decide +kernel⟩

theorem witness_ProtStatusAndDevStatusWords : Served up q0 0xC005 ∧ 63 < 64 := ⟨served _ rfl rfl rfl, by decide⟩

theorem witness_HistogramBinOfASample :
    Served up q0 0xE009 ∧ (7 / 2 ^ 0 < 8 ∧ (4 + 3) * 2 ^ (16 - 2) ≤ (2 ^ 17 - 1) / 2 ^ 0 ∧ (2 ^ 17 - 1) / 2 ^ 0 < (5 + 3) * 2 ^ (16 - 2)
      ∧ 2 ^ 17 ≤ 2 ^ 17 / 2 ^ 0 ∧ up.sagStage = 0)
    ∧ (let s := { up with mon := { up.mon with hist := [(255, unit0)] } }
      Served s q0 0xE009 ∧ Tab.get? s.mon.hist 255 = some unit0 ∧ s.mon.hist = [(255, unit0)] ∧ unit0.src = .config 0)
    ∧ { up with pwr := { up.pwr with capStage := 1 } }.sagStage ≠ 0 :=
  ⟨served _ rfl rfl rfl, by decide +kernel, ⟨served _ rfl rfl rfl, by decide +kernel⟩, by decide⟩

theorem witness_ProtEnableLimits :
    Ready up ∧ up.stackRole = 0
    ∧ (let s := { up with par := [(0xC010, [(63, 1)])] }
      Ready s ∧ s.param 0xC010 (511 / 8) = 1 ∧ (249999 : Int) < 250000 ∧ s.param 0xC010 63 = 1 ∧ (31 : Int) < 32) :=
  ⟨ready rfl rfl rfl rfl rfl, by decide +kernel, ready rfl rfl rfl rfl rfl, by decide +kernel⟩

end Sys2Proof.Tests
end

section
/-! SUPPORT. Commands served and blocks acting: how a statement about `Replies`, `Waits` or `Acts` is met. -/

namespace Sys2Proof.Machine

/-- A Kilak command whose body answers at once replies with that answer. -/
theorem Replies.of_kilak {i : Instr} {q : Req} {op : Nat} {r : Reply} {f : State → State} {s : State}
    {body : State → State × Option Reply} {e : Host.Outcome State Fault Refusal} (hi : exec i s = e)
    (he : e = kilak q op body s) (hb : body (openCmd q op s) = (f (openCmd q op s), some r)) : Replies i q op r f s :=
  fun hs hf => (hi.trans he).trans (kilak_served hs hb hf)

/-- A Kilak command whose body leaves it open waits. -/
theorem Waits.of_kilak {i : Instr} {q : Req} {op : Nat} {f : State → State} {s : State}
    {body : State → State × Option Reply} {e : Host.Outcome State Fault Refusal} (hi : exec i s = e)
    (he : e = kilak q op body s) (hb : body (openCmd q op s) = (f (openCmd q op s), none)) : Waits i q op f s :=
  fun hs => (hi.trans he).trans (kilak_waits hs hb)

/-- A fold whose every step leaves the start as it is answers the start. -/
theorem foldl_eq_self_of_mem {α β : Type} {f : β → α → β} {b : β} {l : List α} (h : ∀ a ∈ l, f b a = b) :
    l.foldl f b = b := by
  induction l with
  | nil => rfl
  | cons a l ih =>
    rw [List.foldl_cons, h a List.mem_cons_self]
    exact ih fun x hx => h x (List.mem_cons_of_mem a hx)

/-- A tributary read after it was changed. -/
theorem get?_onTrib_self {i : Nat} {t : Trib} {s : State} (f : Trib → Trib) (h : Tab.get? s.ds.trib i = some t) :
    Tab.get? (onTrib i f s).ds.trib i = some (f t) := by
  simp [onTrib, Tab.modify_of_get? f h]

/-- Changes that agree on the tributary that stands there are one change. -/
theorem onTrib_congr {i : Nat} {t : Trib} {s : State} {f g : Trib → Trib} (h : Tab.get? s.ds.trib i = some t)
    (e : f t = g t) : onTrib i f s = onTrib i g s := by
  simp only [onTrib, Tab.modify_of_get? _ h, e]

end Sys2Proof.Machine
end

section
/-! SUPPORT. Slot map commands and the check of a commit (R85, R103, R104). -/

namespace Sys2Proof.Machine

variable {s : State} {q : Req} {g : Nat}

theorem exec_slotMapLoad {es : List SlotEntry} : exec (.slotMapLoad q g es) s = execSlotMapLoad q g es s := rfl

theorem exec_slotMapCommit : exec (.slotMapCommit q g) s = execSlotMapCommit q g s := rfl

theorem exec_slotMapWithdraw {meet : Bool} : exec (.slotMapWithdraw q g meet) s = execSlotMapWithdraw q g meet s := rfl

theorem slotMapLoad_replies {es : List SlotEntry} (hg : g < 512) (hc : (s.dsCh g).commit = none)
    (hl : es.length ≤ (slotCaps (s.paramN 0x1020 g)).1) :
    Replies (.slotMapLoad q g es) q 0x2005 .ok (onDsCh g fun c => { c with standby := es }) s :=
  .of_kilak exec_slotMapLoad rfl (by simp [Nat.not_le.2 hg, hc, Nat.not_lt.2 hl, done])

theorem slotMapLoad_busy {es : List SlotEntry} (hg : g < 512) (hc : (s.dsCh g).commit.isSome = true) :
    Replies (.slotMapLoad q g es) q 0x2005 (.err .busy) (bump .pageRefusedSlot g) s :=
  .of_kilak exec_slotMapLoad rfl (by simp [Nat.not_le.2 hg, hc])

theorem slotMapCommit_waits (hg : g < 512) (hc : (s.dsCh g).commit = none) :
    Waits (.slotMapCommit q g) q 0x2006
      (onDsCh g fun c => { c with commit := some { sfc := s.slotTarget, cmd := some q } }) s :=
  .of_kilak exec_slotMapCommit rfl (by simp [Nat.not_le.2 hg, hc, waits])

theorem slotMapCommit_busy (hg : g < 512) (hc : (s.dsCh g).commit.isSome = true) :
    Replies (.slotMapCommit q g) q 0x2006 (.err .busy) id s :=
  .of_kilak exec_slotMapCommit rfl (by simp [Nat.not_le.2 hg, hc, deny])

theorem slotMapWithdraw_none (hc : (s.dsCh g).commit = none) :
    Replies (.slotMapWithdraw q g false) q 0x2007 (.err .badState) id s :=
  .of_kilak exec_slotMapWithdraw rfl (by simp [hc, deny])

/-- The host's own commit, its check ended: no command of it waits to be completed. -/
theorem slotMapWithdraw_commit {k : SlotCommit} (hk : (s.dsCh g).commit = some k) (hcmd : k.cmd = none)
    (hm : k.move = none) :
    Replies (.slotMapWithdraw q g false) q 0x2007 .ok (onDsCh g fun c => { c with commit := none }) s :=
  .of_kilak exec_slotMapWithdraw rfl (by simp [hk, hcmd, hm, done, completeOpt])

/-- A rejected commit of the host completes its command alone (R29). -/
theorem slotReject_host {k : SlotCommit} {r : Nat} (hm : k.move = none) :
    slotReject g k r s = completeOpt k.cmd 0x2006 { code := .badArg, detail := r * 2 ^ 24 }
      (bump .slotmapReject g (onDsCh g (fun c => { c with commit := none }) s)) := by
  simp [slotReject, hm]

theorem slotCheckDone_passes {k : SlotCommit} (hk : (s.dsCh g).commit = some k) (hc : k.checked = false)
    (h : slotCheck s g (s.dsCh g).standby = none) :
    slotCheckDone g s = completeOpt k.cmd 0x2006 (.vals [.u 51 k.sfc])
      (onDsCh g (fun c => { c with commit := some { k with checked := true, cmd := none } }) s) := by
  simp [slotCheckDone, hk, hc, h]

theorem slotCheckDone_fails {k : SlotCommit} {r : Nat} (hk : (s.dsCh g).commit = some k) (hc : k.checked = false)
    (h : slotCheck s g (s.dsCh g).standby = some r) : slotCheckDone g s = slotReject g k r s := by
  simp [slotCheckDone, hk, hc, h]

theorem exec_slotMapCheckDone (h : Acts s (ponBlk g)) : exec (.slotMapCheckDone g) s = .next (slotCheckDone g s) :=
  island_acts h

end Sys2Proof.Machine
end

section
/-! SUPPORT. Feed packets and the defect evaluation of a tributary (R92, R93, R98, R100, R101). -/

namespace Sys2Proof.Machine

variable {s : State} {t : Trib} {i seq d : Nat} {os : List Nat}

/-- A feed packet whose number follows the last one's is at distance 0 (R92). -/
theorem feedGap_next : (seq % 65536 + 65536 - (seq + 65535) % 65536 - 1) % 65536 = 0 := by
  omega

theorem feedWrite_inSequence (ht : Tab.get? s.ds.trib i = some t) (hl : t.lastFeed = some ((seq + 65535) % 65536))
    (hs : seq < 65536) (hr : t.store.length + os.length ≤ 64 * t.a.slots) :
    feedWrite i seq os s
      = onTrib i (fun t => { t with lastFeed := some seq, store := t.store ++ os.map (· % 256) }) s := by
  have hroom : os.length ≤ 64 * t.a.slots - t.store.length := by omega
  simp only [feedWrite, ht, hl, feedGap_next, Nat.zero_mul, Nat.min_zero, Nat.sub_zero,
    List.take_of_length_le hroom, Nat.sub_self, if_true]
  exact onTrib_congr ht (by simp [Nat.mod_eq_of_lt hs])

theorem feedWrite_late (ht : Tab.get? s.ds.trib i = some t) (hl : t.lastFeed = some (seq % 65536)) :
    feedWrite i seq os s = bump .tribFeedLate i s := by
  simp [feedWrite, ht, hl]

theorem feedWrite_missing (ht : Tab.get? s.ds.trib i = none) : feedWrite i seq os s = s := by
  simp [feedWrite, ht]

theorem exec_tribFeedWrite (ht : Tab.get? s.ds.trib i = some t) (h : Acts s (ponBlk t.a.channel)) :
    exec (.tribFeedWrite i seq os) s = .next (feedWrite i seq os s) :=
  island_acts (by simpa [ht] using h)

theorem exec_tribDefectEval (ht : Tab.get? s.ds.trib i = some t) (h : Acts s (ponBlk t.a.channel)) :
    exec (.tribDefectEval i d) s = .next (tribDefectEval i d s) :=
  island_acts (by simpa [ht] using h)

/-- An event for no tributary belongs to the first PON island and does nothing. -/
theorem exec_tribFeedWrite_missing (ht : Tab.get? s.ds.trib i = none) (h : Acts s (ponBlk 0)) :
    exec (.tribFeedWrite i seq os) s = .next s :=
  (island_acts (by simpa [ht] using h)).trans (by rw [feedWrite_missing ht])

theorem exec_tribDefectEval_missing (ht : Tab.get? s.ds.trib i = none) (h : Acts s (ponBlk 0)) :
    exec (.tribDefectEval i d) s = .next s :=
  (island_acts (by simpa [ht] using h)).trans (by simp [tribDefectEval, ht])

/-- Nothing is reported when every defect is suppressed or reported as it stands (R101). -/
theorem tribReports_noneDue {sfc old : Nat} (ht : Tab.get? s.ds.trib i = some t)
    (h : ∀ k < 4, tribSuppressed t.det k = true ∨ bit t.det k = bit t.rep k) : tribReports i sfc old s = s := by
  refine foldl_eq_self_of_mem fun k hk => ?_
  have hdue := h k (List.mem_range.1 hk)
  simp only [ht]
  rw [if_pos]
  rcases hdue with hsup | hrep
  · simp [hsup]
  · simp [hrep]

/-- A flag in the lowest place makes the word odd. -/
theorem flag_add_even_odd (b : Bool) (n : Nat) : (flag b + 2 * n) % 2 = 1 ↔ b = true := by
  cases b <;> simp [flag]

/-- The lowest bit of the detected defects is LOS: it stands until four superframes with delineated octets and no cause
above the tributary, and it comes at the fourth without, or with such a cause (R100). -/
theorem detect_los_iff (lob losC : Bool) : (t.detect seq (0 < d) lob losC).det % 2 = 1 ↔
    (if bit t.det 0 then ¬ (4 ≤ (if 0 < d then t.liveRun + 1 else 0) ∧ lob = false ∧ losC = false)
     else (4 ≤ (if 0 < d then 0 else t.deadRun + 1) ∨ lob = true ∨ losC = true)) := by
  have hdet (a b c e : Nat) : a + 2 * b + 4 * c + 8 * e = a + 2 * (b + 2 * c + 4 * e) := by omega
  simp only [Trib.detect, hdet, flag_add_even_odd]
  cases bit t.det 0
  · simp [or_assoc]
  · simp [imp_iff_not_or, or_assoc]

end Sys2Proof.Machine
end

section
/-! PROOF. The statement on slot maps, feeds and tributary defects. -/

open Sys2Proof Sys2Proof.Machine

/-- Settles O29: each command and event by the lemma on its case. -/
theorem slotMapsFeedsAndTributaryDefects : Obligations.SlotMapsFeedsAndTributaryDefects := by
  intro s q g i seq r es k t os d
  refine ⟨fun hg hc => ⟨slotMapLoad_replies hg hc, slotMapCommit_waits hg hc, slotMapWithdraw_none hc⟩,
    fun hg hc => ⟨slotMapLoad_busy hg hc, slotMapCommit_busy hg hc⟩,
    slotMapWithdraw_commit, fun ha hk hc => ⟨fun h => ?passes, fun h hm => ?fails⟩,
    fun ht ha => ⟨fun hl hs hr => ?inSequence, fun hl => ?late, ?eval⟩,
    fun ha ht => ⟨exec_tribFeedWrite_missing ht ha, exec_tribDefectEval_missing ht ha⟩, detect_los_iff⟩
  case passes => rw [exec_slotMapCheckDone ha, slotCheckDone_passes hk hc h]
  case fails => rw [exec_slotMapCheckDone ha, slotCheckDone_fails hk hc h, slotReject_host hm]
  case inSequence => rw [exec_tribFeedWrite ht ha, feedWrite_inSequence ht hl hs hr]
  case late => rw [exec_tribFeedWrite ht ha, feedWrite_late ht hl]
  case eval =>
    intro h c lob losC f hnone
    rw [exec_tribDefectEval ht ha]
    simp only [tribDefectEval, ht]
    exact congrArg _ (tribReports_noneDue (get?_onTrib_self f ht) hnone)

end

section
/-! SUPPORT. Uplink arrivals and the passes of the ingress pipelines (R16, R17, R229, R260, R261). -/

namespace Sys2Proof.Machine

variable {s : State} {k : Nat} {p : Pkt} {rest : List Pkt}

theorem exec_uplinkFrameArrival {port : Nat} {os : List Nat} {full : Bool} (h : Acts s (upBlk (port / 8))) :
    exec (.uplinkFrameArrival port os full) s = .next (uplinkArrival port os full s) :=
  island_acts h

theorem uplinkArrival_full {port : Nat} {os : List Nat} (hup : s.portUp port = true)
    (hptp : (bwCount (2 * port) os.length s).ptpTerminates port os = false) :
    uplinkArrival port os true s
      = bump .pipeOverrun port (countSource 1 port false 0x10 (bwCount (2 * port) os.length s)) := by
  simp [uplinkArrival, hup, hptp]

theorem uplinkArrival_room {port : Nat} {os : List Nat} (hup : s.portUp port = true)
    (hptp : (bwCount (2 * port) os.length s).ptpTerminates port os = false) :
    uplinkArrival port os false s = onCls (fun c => { c with inq := Tab.upd c.inq (2 * (port / 32)) [] fun q => q ++
      [{ dir := 0, srcKind := 1, source := port, octets := os
         at_ := ltbWord64 (bwCount (2 * port) os.length s).stamp64 }] }) (bwCount (2 * port) os.length s).drawn := by
  simp [uplinkArrival, hup, hptp]

/-- A pass needs both halves of its pipeline up and no real class-F record there or in the lookup block. -/
theorem exec_ingressPass (hin : Acts s (inBlk k)) (hf : Acts s (facetBlk (k / 2) (k % 2)))
    (hem : s.undefinedBlk (emBlk (k / 2)) = false) : exec (.ingressPass k) s = .next (ingressPass k s) := by
  obtain ⟨hinDef, hinUp⟩ := hin
  obtain ⟨hfDef, hfUp⟩ := hf
  change execIngressPass k s = _
  rw [execIngressPass, guardBlks_ok (by simp [hinDef, hfDef, hem])]
  simp [hinUp, hfUp]

theorem ingressPass_recirc (h : Tab.getD s.cls.recirc k [] = p :: rest) :
    ingressPass k s = classify k p (onCls (fun c => { c with recirc := Tab.set c.recirc k rest }) s) := by
  simp [ingressPass, h]

theorem ingressPass_takes {p' : Pkt} {t : State} (hr : Tab.getD s.cls.recirc k [] = [])
    (hq : Tab.getD s.cls.inq k [] = p :: rest)
    (h : takeIn k p (onCls (fun c => { c with inq := Tab.set c.inq k rest }) s) = (some p', t)) :
    ingressPass k s = classify k p' t := by
  simp [ingressPass, hr, hq, h]

theorem ingressPass_refuses {t : State} (hr : Tab.getD s.cls.recirc k [] = [])
    (hq : Tab.getD s.cls.inq k [] = p :: rest)
    (h : takeIn k p (onCls (fun c => { c with inq := Tab.set c.inq k rest }) s) = (none, t)) :
    ingressPass k s = t := by
  simp [ingressPass, hr, hq, h]

theorem ingressPass_idle (hr : Tab.getD s.cls.recirc k [] = []) (hq : Tab.getD s.cls.inq k [] = []) :
    ingressPass k s = s := by
  simp [ingressPass, hr, hq]

/-- In the first pass a conflict finds no epoch to leave (R229). -/
theorem classify_conflict (hc : (s.parsed p).conflict = true) (h2 : p.pass2 = false) :
    classify k p s = if s.param 0x6000 p.arrival == 1 then puntPkt k p 0x80 s
      else bump .lenConflict p.src (dropPkt p 0x12 s) := by
  simp [classify, lengthConflict, hc, h2]

theorem classify_secondPass (hc : (s.parsed p).conflict = false) (hi : (s.parsed p).incomplete = false)
    (h2 : p.pass2 = true) : classify k p s = facetPass k p (s.parsed p) s := by
  simp [classify, hc, hi, h2]

theorem classify_laterFragment (hc : (s.parsed p).conflict = false) (hi : (s.parsed p).incomplete = false)
    (hl : (s.parsed p).fragLater = true) (h2 : p.pass2 = false) :
    classify k p s = laterFragment k { p with hash := (s.parsed p).bucket } (s.parsed p).fragKey s := by
  simp [classify, hc, hi, hl, h2]

theorem laterFragment_recorded {key : Nat} {e : FragEnt} (h : Tab.get? (s.fragTab (k / 2)) key = some e) :
    laterFragment k p key s = conclude k p { e.act with destKind := e.destKind, dest := e.dest }
      (onCls (fun c => { c with
        frag := Tab.upd c.frag (k / 2) [] fun t => Tab.set t key { e with used := s.clk.now } }) s) := by
  simp [laterFragment, h]

end Sys2Proof.Machine
end

section
/-! SUPPORT. Held fragments whose time passes, table entries whose age passes (R260, R261). -/

namespace Sys2Proof.Machine

variable {s : State} {sl key : Nat} {f : FragHeld} {before fs : List FragHeld} {e : FragEnt}

theorem exec_fragHoldTimeout (h0 : s.undefinedBlk (sliceBlk sl 0) = false)
    (h2 : s.undefinedBlk (sliceBlk sl 2) = false) : exec (.fragHoldTimeout sl) s = .next (holdTimeout sl s) := by
  change execFragHoldTimeout sl s = _
  rw [execFragHoldTimeout, guardBlks_ok (by simp [h0, h2])]

theorem exec_fragEntryExpiry (h0 : s.undefinedBlk (sliceBlk sl 0) = false)
    (h2 : s.undefinedBlk (sliceBlk sl 2) = false) :
    exec (.fragEntryExpiry sl key) s = .next (fragExpiry sl key s) := by
  change execFragEntryExpiry sl key s = _
  rw [execFragEntryExpiry, guardBlks_ok (by simp [h0, h2])]

theorem find?_due_none {now : Nat} {l : List FragHeld} (h : ∀ x ∈ l, now < x.until_) :
    l.find? (fun x => decide (x.until_ ≤ now)) = none := by
  simpa using h

theorem find?_due_first {now : Nat} (hb : ∀ x ∈ before, now < x.until_) (hf : f.until_ ≤ now) :
    (before ++ f :: fs).find? (fun x => decide (x.until_ ≤ now)) = some f := by
  simp [List.find?_append, find?_due_none hb, hf]

/-- Those before the first due fragment are not due, so none of them is equal to it. -/
theorem erase_due_first {now : Nat} (hb : ∀ x ∈ before, now < x.until_) (hf : f.until_ ≤ now) :
    (before ++ f :: fs).erase f = before ++ fs := by
  have hmem : f ∉ before := fun h => Nat.not_lt.2 hf (hb f h)
  rw [List.erase_append_right _ hmem, List.erase_cons_head]

theorem holdTimeout_notDue (h : ∀ f ∈ Tab.getD s.cls.held sl [], s.clk.now < f.until_) : holdTimeout sl s = s := by
  simp only [holdTimeout, find?_due_none h]

theorem holdTimeout_firstDue (hl : Tab.getD s.cls.held sl [] = before ++ f :: fs)
    (hb : ∀ x ∈ before, s.clk.now < x.until_) (hf : f.until_ ≤ s.clk.now) (hc : f.pkt.chain = none) :
    holdTimeout sl s = noFirst (2 * sl + f.pkt.dir) f.pkt
      (onCls (fun c => { c with held := Tab.set c.held sl (before ++ fs) }) s) := by
  simp only [holdTimeout, hl, find?_due_first hb hf, erase_due_first hb hf, hc]

theorem fragExpiry_young (he : Tab.get? (s.fragTab sl) key = some e)
    (h : s.clk.now < e.used + msT (s.paramN 0x6031 0)) : fragExpiry sl key s = s := by
  simp [fragExpiry, he, Nat.not_le.2 h]

theorem fragExpiry_aged (he : Tab.get? (s.fragTab sl) key = some e)
    (h : e.used + msT (s.paramN 0x6031 0) ≤ s.clk.now) :
    fragExpiry sl key s = onCls (fun c => { c with frag := Tab.upd c.frag sl [] fun t => Tab.erase t key }) s := by
  simp [fragExpiry, he, h]

end Sys2Proof.Machine
end

section
/-! PROOF. The statement on uplink arrivals, ingress passes and fragments. -/

open Sys2Proof Sys2Proof.Machine

/-- Settles O38: each event by the lemma on its case. -/
theorem ingressPassesAndFragments : Obligations.IngressPassesAndFragments := by
  intro s t port k sl key os full p p' rest f before fs e
  refine ⟨fun ha hup hptp => ?arrival, fun hin hfa hem => ?pass, fun h0 h2 => ?fragments⟩
  case arrival =>
    simp only [exec_uplinkFrameArrival ha]
    exact ⟨congrArg _ (uplinkArrival_full hup hptp), congrArg _ (uplinkArrival_room hup hptp)⟩
  case pass =>
    simp only [exec_ingressPass hin hfa hem]
    refine ⟨fun h => congrArg _ (ingressPass_recirc h),
      fun hr hq => ⟨fun h => congrArg _ (ingressPass_takes hr hq h), fun h => congrArg _ (ingressPass_refuses hr hq h)⟩,
      fun hr hq => congrArg _ (ingressPass_idle hr hq),
      fun h hc h2 => ?_, fun h hc hi => ⟨fun h2 => ?_, fun hl h2 he => ?_⟩⟩
    · rw [ingressPass_recirc h, classify_conflict hc h2]
    · rw [ingressPass_recirc h, classify_secondPass hc hi h2]
    · rw [ingressPass_recirc h, classify_laterFragment hc hi hl h2, laterFragment_recorded he]
  case fragments =>
    simp only [exec_fragHoldTimeout h0 h2, exec_fragEntryExpiry h0 h2]
    exact ⟨fun h => congrArg _ (holdTimeout_notDue h),
      fun hl hb hf hc => congrArg _ (holdTimeout_firstDue hl hb hf hc),
      fun he => ⟨fun h => congrArg _ (fragExpiry_young he h), fun h => congrArg _ (fragExpiry_aged he h)⟩⟩

end

section
/-! SUPPORT. The lanes of a channel pair: what a read sees after a change, and when two changes are one. -/

namespace Sys2Proof.Machine

variable {s : State} {g : Nat} {f f' : LaneCh → LaneCh}

@[simp] theorem laneCh_onLaneCh_self : (onLaneCh g f s).laneCh g = f (s.laneCh g) := by
  simp [State.laneCh, onLaneCh]

/-- Changes that agree on the lanes as they stand are one change. -/
theorem onLaneCh_congr (h : f (s.laneCh g) = f' (s.laneCh g)) : onLaneCh g f s = onLaneCh g f' s := by
  unfold State.laneCh at h
  simp only [onLaneCh, Tab.upd, h]

end Sys2Proof.Machine
end

section
/-! SUPPORT. The channel ladder, lane transitions and the phase memory (R42, R43, R47, R48). -/

namespace Sys2Proof.Machine

variable {s : State} {q : Req} {g h c : Nat} {l : Ladder}

theorem exec_channelEnable : exec (.channelEnable q g) s = execChannelEnable q g s := rfl

theorem exec_channelDisable : exec (.channelDisable q g) s = execChannelDisable q g s := rfl

theorem exec_phaseMemoryRead : exec (.phaseMemoryRead q h c) s = execPhaseMemoryRead q h c s := rfl

theorem exec_ladderRungSuccess (ha : Acts s (ponBlk g)) : exec (.ladderRungSuccess g) s = .next (rungSuccess g s) :=
  island_acts ha

theorem exec_ladderRungTimeout (ha : Acts s (ponBlk g)) : exec (.ladderRungTimeout g) s = .next (rungTimeoutAct g s) :=
  island_acts ha

theorem exec_laneTransitionDone {rx : Bool} (ha : Acts s (ponBlk g)) :
    exec (.laneTransitionDone g rx) s = .next (laneTransition g rx s) :=
  island_acts ha

theorem exec_phaseMemoryLoad (ha : Acts s (ponBlk g)) : exec (.phaseMemoryLoad g h) s = .next (phaseLoad g h s) :=
  island_acts ha

/-- From OFF the ladder begins at P0 and stays there: no rung is passed while the transmit lane is OFF. -/
theorem rungEnter_zero_txOff (ht : (s.laneCh g).tx = .off) : rungEnter g 0 q s =
    onLaneCh g (fun c => { c with txGoal := .standby, rxGoal := if c.rx = .off then .standby else c.rxGoal })
      (onLaneCh g (fun c => { c with
        ladder := some { rung := 0, cmd := q, deadline := s.clk.now + msT 1, clean := s.clk.now } }) s) :=
  onLaneCh_congr (by simp [ht])

theorem channelEnable_enabled (hg : g < 512) (hltb : s.ltbSet = true) (hsp : s.isSpare g = false)
    (hl : (s.laneCh g).ladder = none) (he : (s.laneCh g).enabled = true) :
    Replies (.channelEnable q g) q 0x1000 .ok id s :=
  .of_kilak exec_channelEnable rfl (by simp [channelEnable, Nat.not_le.2 hg, hltb, hsp, hl, he, done])

theorem channelEnable_climbs (hg : g < 512) (hltb : s.ltbSet = true) (hsp : s.isSpare g = false)
    (hl : (s.laneCh g).ladder = none) (he : (s.laneCh g).enabled = false) (ht : (s.laneCh g).tx = .off) :
    Waits (.channelEnable q g) q 0x1000 (fun u =>
      onLaneCh g (fun c => { c with txGoal := .standby, rxGoal := if c.rx = .off then .standby else c.rxGoal })
        (onLaneCh g (fun c => { c with
          ladder := some { rung := 0, cmd := q, deadline := u.clk.now + msT 1, clean := u.clk.now } }) u)) s := by
  refine .of_kilak exec_channelEnable rfl ?_
  have hto : ((openCmd q 0x1000 s).laneCh g).tx = .off := by simpa using ht
  simp [channelEnable, Nat.not_le.2 hg, hltb, hsp, hl, he, rungEnter_zero_txOff hto, ht, waits]

theorem rungSuccess_none (hl : (s.laneCh g).ladder = none) : rungSuccess g s = s := by
  simp [rungSuccess, hl]

theorem rungTimeoutAct_none (hl : (s.laneCh g).ladder = none) : rungTimeoutAct g s = s := by
  simp [rungTimeoutAct, hl]

theorem rungSuccess_next (hl : (s.laneCh g).ladder = some l) (hm : s.rungMet g l = true) (hr : l.rung < 3) :
    rungSuccess g s = rungEnter g (l.rung + 1) l.cmd s := by
  simp [rungSuccess, hl, hm, hr]

theorem rungSuccess_last (hl : (s.laneCh g).ladder = some l) (hm : s.rungMet g l = true) (hr : 3 ≤ l.rung) :
    rungSuccess g s
      = complete l.cmd 0x1000 .ok (onLaneCh g (fun c => { c with ladder := none, enabled := true }) s) := by
  simp [rungSuccess, hl, hm, Nat.not_lt.2 hr]

theorem rungTimeoutAct_late (hl : (s.laneCh g).ladder = some l) (hd : l.deadline ≤ s.clk.now) (hr : l.rung < 4) :
    rungTimeoutAct g s = bump .laneFail g (ladderFail g l s) := by
  simp [rungTimeoutAct, hl, hd, hr]

theorem channelDisable_idle (hg : g < 512) (hp : s.anyPastDiscovery g = false) (hl : (s.laneCh g).ladder = none) :
    Replies (.channelDisable q g) q 0x1001 .ok
      (onLaneCh g fun c => { c with enabled := false, txGoal := .off, rxGoal := s.restGoal g .off }) s :=
  .of_kilak exec_channelDisable rfl
    (by simp [channelDisable, Nat.not_le.2 hg, hp, hl, State.restGoal, done])

theorem channelDisable_busy (hg : g < 512) (hp : s.anyPastDiscovery g = true) :
    Replies (.channelDisable q g) q 0x1001 (.err .busy) id s :=
  .of_kilak exec_channelDisable rfl (by simp [channelDisable, Nat.not_le.2 hg, hp, deny])

theorem phaseMemoryRead_inUse (hc : c < 8) (hs : s.onuState h ≠ .free) :
    Replies (.phaseMemoryRead q h c) q 0x1002 (.vals [.rcd 64 (s.phaseEnt h c).word]) id s :=
  .of_kilak exec_phaseMemoryRead rfl (by simp [Nat.not_le.2 hc, hs, doneWith])

end Sys2Proof.Machine
end

section
/-! PROOF. The statement on the channel ladder and lane power. -/

open Sys2Proof Sys2Proof.Machine

/-- Settles O25: each command and event by the lemma on its case. -/
theorem channelLadderAndLanePower : Obligations.ChannelLadderAndLanePower := by
  intro s q g h c l rx
  refine ⟨fun hg hltb hsp hl => ⟨channelEnable_enabled hg hltb hsp hl, channelEnable_climbs hg hltb hsp hl⟩,
    fun ha => ⟨fun hl => ?noLadder, fun hl hm hr => ?nextRung, fun hl hm hr => ?lastRung, fun hl hd hr => ?late,
      exec_laneTransitionDone ha, exec_laneTransitionDone ha, exec_phaseMemoryLoad ha⟩,
    fun _ _ => ⟨rfl, rfl, rfl⟩, channelDisable_idle, rfl, channelDisable_busy, phaseMemoryRead_inUse⟩
  case noLadder =>
    rw [exec_ladderRungSuccess ha, exec_ladderRungTimeout ha, rungSuccess_none hl, rungTimeoutAct_none hl]
    exact ⟨rfl, rfl⟩
  case nextRung => rw [exec_ladderRungSuccess ha, rungSuccess_next hl hm hr]
  case lastRung => rw [exec_ladderRungSuccess ha, rungSuccess_last hl hm hr]
  case late => rw [exec_ladderRungTimeout ha, rungTimeoutAct_late hl hd hr]; rfl

end

section
/-! SUPPORT. The I3C buses of the modules (R63 to R66). -/

namespace Sys2Proof.Machine

variable {s : State} {q : Req} {g addr len bus : Nat} {data : List Nat} {x : I3cXfer}

theorem exec_moduleRead : exec (.moduleRead q g addr len) s = execModuleRead q g addr len s := rfl

theorem exec_moduleWrite : exec (.moduleWrite q g addr data) s = execModuleWrite q g addr data s := rfl

theorem exec_i3cPoll (ha : Acts s (sbBlk (g / 8))) : exec (.i3cPoll g) s = .next (i3cPoll g s) := island_acts ha

theorem exec_i3cTransferDone {ack : Bool} (ha : Acts s (sbBlk (4 * bus))) :
    exec (.i3cTransferDone bus ack data) s = .next (i3cDone bus ack data s) :=
  island_acts ha

theorem exec_i3cInBandInterrupt {pay : Nat} (ha : Acts s (sbBlk (g / 8))) (had : (s.laneCh g).addressed = true) :
    exec (.i3cInBandInterrupt g pay) s = .next (onLaneCh g (fun c => { c with ibi := pay % 2 ^ 32 }) s) :=
  (island_acts ha).trans (congrArg _ (if_pos had))

/-- A transfer inside the registers of a module that holds its address joins the host's transfers. -/
theorem moduleXfer_addressed {write : Bool} (hg : g < 512) (haddr : addr < 256) (h0 : 0 < len) (h64 : len ≤ 64)
    (hend : addr + len ≤ 256) (had : (s.laneCh g).addressed = true) :
    moduleXfer q write g addr len data s = (onBus (g / 32) (fun b => I3cBus.next { b with
      host := b.host ++ [{ g := g, cmd := some (q, write), addr := addr, len := len, data := data }] }) s, none) := by
  simp [moduleXfer, i3cBusOf, waits, had, Nat.not_le.2 hg, Nat.not_le.2 haddr, Nat.ne_of_gt h0, Nat.not_lt.2 h64,
    Nat.not_lt.2 hend]

theorem moduleXfer_noTarget {write : Bool} (hg : g < 512) (haddr : addr < 256) (h0 : 0 < len) (h64 : len ≤ 64)
    (hend : addr + len ≤ 256) (had : (s.laneCh g).addressed = false) :
    moduleXfer q write g addr len data s = (s, some (.err .noTarget)) := by
  simp [moduleXfer, deny, had, Nat.not_le.2 hg, Nat.not_le.2 haddr, Nat.ne_of_gt h0, Nat.not_lt.2 h64, Nat.not_lt.2 hend]

theorem moduleRead_waits (hg : g < 512) (haddr : addr < 256) (h0 : 0 < len) (h64 : len ≤ 64) (hend : addr + len ≤ 256)
    (had : (s.laneCh g).addressed = true) :
    Waits (.moduleRead q g addr len) q 0x1003 (onBus (g / 32) fun b => I3cBus.next { b with
      host := b.host ++ [{ g := g, cmd := some (q, false), addr := addr, len := len, data := [] }] }) s :=
  .of_kilak exec_moduleRead rfl (moduleXfer_addressed hg haddr h0 h64 hend (by simpa using had))

theorem moduleRead_noTarget (hg : g < 512) (haddr : addr < 256) (h0 : 0 < len) (h64 : len ≤ 64)
    (hend : addr + len ≤ 256) (had : (s.laneCh g).addressed = false) :
    Replies (.moduleRead q g addr len) q 0x1003 (.err .noTarget) id s :=
  .of_kilak exec_moduleRead rfl (moduleXfer_noTarget hg haddr h0 h64 hend (by simpa using had))

theorem moduleWrite_waits (hg : g < 512) (haddr : addr < 256) (hd : data ≠ []) (h64 : data.length ≤ 64)
    (hend : addr + data.length ≤ 256) (had : (s.laneCh g).addressed = true) :
    Waits (.moduleWrite q g addr data) q 0x1004 (onBus (g / 32) fun b => I3cBus.next { b with
      host := b.host ++ [{ g := g, cmd := some (q, true), addr := addr, len := data.length, data := data }] }) s :=
  .of_kilak exec_moduleWrite rfl
    (moduleXfer_addressed hg haddr (List.length_pos_iff.2 hd) h64 hend (by simpa using had))

theorem i3cPoll_due (had : (s.laneCh g).addressed = true) (hp : (s.laneCh g).pollAt ≤ s.clk.now) :
    i3cPoll g s = onBus (g / 32) (fun b => I3cBus.next { b with
        polls := b.polls ++ [{ g := g, cmd := none, addr := 0, len := 0, data := [] }] })
      (onLaneCh g (fun c => { c with pollAt := s.clk.now + msT (s.paramN 0x1401 0) }) s) := by
  simp [i3cPoll, had, hp, i3cBusOf]

theorem i3cPoll_notDue (hp : s.clk.now < (s.laneCh g).pollAt) : i3cPoll g s = s := by
  simp [i3cPoll, Nat.not_le.2 hp]

theorem i3cDone_read (hx : (Tab.getD s.lane.bus bus {}).cur = some x) (hc : x.cmd = some (q, false)) :
    i3cDone bus true data s = complete q 0x1003 (.vals [dataList x.len data])
      (onBus bus (fun b => I3cBus.next { b with cur := none }) s) := by
  simp [i3cDone, hx, hc]

theorem i3cDone_write (hx : (Tab.getD s.lane.bus bus {}).cur = some x) (hc : x.cmd = some (q, true)) :
    i3cDone bus true data s = complete q 0x1004 .ok (onBus bus (fun b => I3cBus.next { b with cur := none }) s) := by
  simp [i3cDone, hx, hc]

theorem i3cDone_device (hx : (Tab.getD s.lane.bus bus {}).cur = some x) (hc : x.cmd = none) :
    i3cDone bus true data s = onBus bus (fun b => I3cBus.next { b with cur := none })
      (onLaneCh x.g (fun c => if x.pid then { c with pidOk := true } else { c with polled := data }) s) := by
  simp [i3cDone, hx, hc]

theorem i3cDone_retry (hx : (Tab.getD s.lane.bus bus {}).cur = some x) (hr : x.retries < 3) :
    i3cDone bus false data s = onBus bus (fun b => { b with cur := some { x with retries := x.retries + 1 } }) s := by
  simp [i3cDone, hx, hr]

theorem i3cDone_readUnreachable (hx : (Tab.getD s.lane.bus bus {}).cur = some x) (hr : 3 ≤ x.retries)
    (hc : x.cmd = some (q, false)) :
    i3cDone bus false data s = complete q 0x1003 (.err .noTarget)
      (bump .moduleUnreachable x.g (onBus bus (fun b => I3cBus.next { b with cur := none }) s)) := by
  simp [i3cDone, hx, Nat.not_lt.2 hr, hc]

end Sys2Proof.Machine
end

section
/-! SUPPORT. Events of a sideband link: in LOCKED they act, else they do nothing; what a module's events change (R57,
R64). -/

namespace Sys2Proof.Machine

variable {s : State} {t ch : Nat} {v a : Bool}

theorem sbEvent_locked {f : State → State} (ha : Acts s (sbBlk t)) (hl : (Tab.getD s.lane.link t {}).state = .locked) :
    sbEvent t f s = .next (f s) :=
  (island_acts ha).trans (by simp [hl])

theorem sbEvent_notLocked {f : State → State} (ha : Acts s (sbBlk t))
    (hl : (Tab.getD s.lane.link t {}).state ≠ .locked) : sbEvent t f s = .next s :=
  (island_acts ha).trans (by simp [hl])

theorem exec_modPresent : exec (.modPresent t ch v a) s = sbEvent t (modPresent (8 * t + ch % 8) v a) s := rfl

theorem exec_sigDetect :
    exec (.sigDetect t ch v) s = sbEvent t (onLaneCh (8 * t + ch % 8) fun c => { c with sigDetect := v }) s := rfl

theorem exec_txFault : exec (.txFault t ch v) s = sbEvent t (fun s => onLaneCh (8 * t + ch % 8) (fun c => { c with
    txFault := v, ladder := c.ladder.map fun l => { l with clean := s.clk.now } }) s) s := rfl

theorem exec_rssiResult {code onu : Nat} :
    exec (.rssiResult t ch code onu) s = sbEvent t (setRssi onu ch (code % 8192)) s := rfl

/-- The lanes' record of a module after its presence event (R64). -/
def modSeen (m : Nat) (v a : Bool) (s : State) : State :=
  onLaneCh m (fun c => { c with
    present := v, addressed := v && (a || c.addressed)
    dynAddr := if v && (a || c.addressed) then some (0x10 + 8 * (m / 8 % 4) + m % 8) else none }) s

theorem modPresent_silent {m : Nat} (h : (v && a && !(s.laneCh m).addressed) = false
    ∨ (((modSeen m v a s).laneCh m).ladder.map (·.rung)) ≠ some 1) : modPresent m v a s = modSeen m v a s := by
  refine if_neg fun hc => ?_
  obtain ⟨hnew, hrung⟩ := Bool.and_eq_true_iff.1 hc
  rcases h with hold | hother
  · rw [hold] at hnew
    cases hnew
  · exact hother (eq_of_beq hrung)

/-- A module that is given its address during rung P1 is sent GETPID. -/
theorem modPresent_inP1 {m : Nat} (had : (s.laneCh m).addressed = false)
    (hr : (((modSeen m true true s).laneCh m).ladder.map (·.rung)) = some 1) :
    modPresent m true true s = onBus (m / 32) (fun b => I3cBus.next { b with
      polls := b.polls ++ [{ g := m, cmd := none, addr := 0, len := 0, data := [], pid := true }] })
        (modSeen m true true s) := by
  have hnow : ((modSeen m true true s).laneCh m).addressed = true := by simp [modSeen]
  calc modPresent m true true s = getPid m (modSeen m true true s) := if_pos (by
        rw [had]
        exact Bool.and_eq_true_iff.2 ⟨rfl, beq_iff_eq.2 hr⟩)
    _ = _ := if_pos hnow

end Sys2Proof.Machine
end

section
/-! PROOF. The statement on the module bus and the modules' events. -/

open Sys2Proof Sys2Proof.Machine

/-- Settles O26: each command and event by the lemma on its case. -/
theorem moduleBusAndModuleEvents : Obligations.ModuleBusAndModuleEvents := by
  intro s q g addr len bus t ch code onu pay data x v a
  refine ⟨fun hg haddr h0 h64 hend => ⟨moduleRead_waits hg haddr h0 h64 hend,
      moduleRead_noTarget hg haddr h0 h64 hend⟩,
    moduleWrite_waits, fun ha had => ?poll, fun ha => ?transfer, fun ha => ⟨fun hl => ?locked, fun hl => ?notLocked⟩⟩
  case poll =>
    rw [exec_i3cPoll ha, exec_i3cInBandInterrupt ha had]
    exact ⟨fun hp => congrArg _ (i3cPoll_due had hp), fun hp => congrArg _ (i3cPoll_notDue hp), rfl⟩
  case transfer =>
    simp only [exec_i3cTransferDone ha]
    exact ⟨fun hx hc => congrArg _ (i3cDone_read hx hc), fun hx hc => congrArg _ (i3cDone_write hx hc),
      fun hx hc => congrArg _ (i3cDone_device hx hc), fun hx hr => congrArg _ (i3cDone_retry hx hr),
      fun hx hr hc => congrArg _ (i3cDone_readUnreachable hx hr hc)⟩
  case locked =>
    rw [exec_modPresent, exec_sigDetect, exec_txFault, exec_rssiResult]
    simp only [sbEvent_locked ha hl]
    refine ⟨⟨fun h => congrArg _ (modPresent_silent h), fun hv hans had hr => ?_⟩, trivial, trivial, trivial⟩
    subst hv hans
    exact congrArg _ (modPresent_inP1 had hr)
  case notLocked =>
    rw [exec_modPresent, exec_sigDetect, exec_txFault, exec_rssiResult]
    simp only [sbEvent_notLocked ha hl, and_self]

end

section
/-! SUPPORT. Sideband links: their frames, their events and their calibration (R57 to R61). -/

namespace Sys2Proof.Machine

variable {s : State} {t : Nat} {f : SbFrame}

/-- Changes that agree on the link as it stands are one change. -/
theorem onLink_congr {h h' : SbLink → SbLink} (e : h (Tab.getD s.lane.link t {}) = h' (Tab.getD s.lane.link t {})) :
    onLink t h s = onLink t h' s := by
  simp only [onLink, Tab.upd, e]

theorem exec_sidebandFrameReceive (ha : Acts s (sbBlk t)) :
    exec (.sidebandFrameReceive t f) s = .next (sbFrame t f s) :=
  island_acts ha

theorem exec_late {type : Nat} :
    exec (.late t type) s = sbEvent t (fun s => if type < 16 then bump .sblLate t s else s) s := rfl

theorem exec_echo {tag ta rt : Nat} : exec (.echo t tag ta rt) s = sbEvent t (onLink t fun k =>
    if k.echo == some (tag % 256) then k.calibrate (oneWayDelay rt (ta % 32)) else k) s := rfl

theorem exec_sblBadEvent {ev : SbEvent} : exec (.sblBadEvent t ev) s =
    sbEvent t (fun s => if returnType ev.type then s else bump .sblBadEvent t s) s := rfl

theorem exec_sidebandCalibration :
    exec (.sidebandCalibration t) s = execSidebandCalibration t s := rfl

/-- Off LOCKED a frame only moves the receive state; one that brings the lock may start a calibration. -/
theorem sbFrame_notLocked (hl : (Tab.getD s.lane.link t {}).state ≠ .locked) :
    sbFrame t f s =
      let k := (Tab.getD s.lane.link t {}).sync (sbSyncOk f) (sbFrameNo f)
      let w := onLink t (fun _ => { k with rx := [] }) s
      if k.state = .locked ∧ w.treeInP1 t = true then calibrateP1 t w else w := by
  have hwas : ((Tab.getD s.lane.link t {}).state == SbState.locked) = false := beq_false_of_ne hl
  simp [sbFrame, hwas]

theorem SbLink.sync_lockedSeen {k : SbLink} {n : Nat} (hl : k.state = .locked) :
    k.sync true n = { k with misses := 0, nextFrame := (n + 1) % 1215 } := by
  simp [SbLink.sync, hl]

theorem SbLink.sync_lockedLost {k : SbLink} {n : Nat} (hl : k.state = .locked) (hm : 3 ≤ k.misses) :
    k.sync false n = { k with state := .hunt, misses := 0 } := by
  simp [SbLink.sync, hl, hm]

theorem SbLink.sync_lockedMissed {k : SbLink} {n : Nat} (hl : k.state = .locked) (hm : k.misses < 3) :
    k.sync false n = { k with misses := k.misses + 1, nextFrame := (k.nextFrame + 1) % 1215 } := by
  simp [SbLink.sync, hl, Nat.not_le.2 hm]

/-- A frame in LOCKED: the link after its position, its payload where the CRC is good, and what is counted. -/
theorem sbFrame_locked (hl : (Tab.getD s.lane.link t {}).state = .locked) :
    sbFrame t f s =
      let k := (Tab.getD s.lane.link t {}).sync (sbSyncOk f) (sbFrameNo f)
      let w := onLink t (fun _ =>
        if sbCrcOk f then { k with peerState := sbLinkState f, rx := sbEvents f } else { k with rx := [] }) s
      let w := if k.state = .hunt then bump .sblLockLoss t w else w
      if sbCrcOk f then w else bump .sblCrc t w := by
  have hwas : ((Tab.getD s.lane.link t {}).state == SbState.locked) = true := beq_iff_eq.2 hl
  cases hc : sbCrcOk f <;> simp [sbFrame, hwas, hc]

theorem sbFrame_good (hl : (Tab.getD s.lane.link t {}).state = .locked) (hs : sbSyncOk f = true)
    (hc : sbCrcOk f = true) : sbFrame t f s = onLink t (fun k => { k with
      misses := 0, nextFrame := (sbFrameNo f + 1) % 1215, peerState := sbLinkState f, rx := sbEvents f }) s := by
  simp only [sbFrame_locked hl, hs, SbLink.sync_lockedSeen hl, hl, hc, reduceCtorEq, if_true, if_false]
  exact onLink_congr (by simp [hl])

theorem sbFrame_badCrc (hl : (Tab.getD s.lane.link t {}).state = .locked) (hs : sbSyncOk f = true)
    (hc : sbCrcOk f = false) : sbFrame t f s = bump .sblCrc t (onLink t (fun k => { k with
      misses := 0, nextFrame := (sbFrameNo f + 1) % 1215, rx := [] }) s) := by
  simp only [sbFrame_locked hl, hs, SbLink.sync_lockedSeen hl, hl, hc, reduceCtorEq, Bool.false_eq_true, if_false]
  exact congrArg _ (onLink_congr (by simp [hl]))

theorem sbFrame_lockLost (hl : (Tab.getD s.lane.link t {}).state = .locked) (hs : sbSyncOk f = false)
    (hc : sbCrcOk f = false) (hm : 3 ≤ (Tab.getD s.lane.link t {}).misses) :
    sbFrame t f s = bump .sblCrc t (bump .sblLockLoss t (onLink t (fun k => { k with
      state := .hunt, misses := 0, rx := [] }) s)) := by
  simp only [sbFrame_locked hl, hs, SbLink.sync_lockedLost hl hm, hc, Bool.false_eq_true, if_true, if_false]
  exact congrArg (fun u => bump .sblCrc t (bump .sblLockLoss t u)) (onLink_congr rfl)

theorem sbFrame_missed (hl : (Tab.getD s.lane.link t {}).state = .locked) (hs : sbSyncOk f = false)
    (hc : sbCrcOk f = false) (hm : (Tab.getD s.lane.link t {}).misses < 3) :
    sbFrame t f s = bump .sblCrc t (onLink t (fun k => { k with
      misses := k.misses + 1, nextFrame := (k.nextFrame + 1) % 1215, rx := [] }) s) := by
  simp only [sbFrame_locked hl, hs, SbLink.sync_lockedMissed hl hm, hl, hc, reduceCtorEq, Bool.false_eq_true, if_false]
  exact congrArg _ (onLink_congr (by simp [hl]))

theorem exec_echo_answered {tag ta rt : Nat} (ha : Acts s (sbBlk t)) (hl : (Tab.getD s.lane.link t {}).state = .locked)
    (he : (Tab.getD s.lane.link t {}).echo = some (tag % 256)) :
    exec (.echo t tag ta rt) s = .next (onLink t (fun k => k.calibrate ((rt - ta % 32 * 8 + 1) / 2)) s) := by
  rw [exec_echo, sbEvent_locked ha hl]
  exact congrArg _ (onLink_congr (by simp [he, oneWayDelay]))

theorem exec_echo_other {tag ta rt : Nat} (ha : Acts s (sbBlk t)) (hl : (Tab.getD s.lane.link t {}).state = .locked)
    (he : (Tab.getD s.lane.link t {}).echo ≠ some (tag % 256)) :
    exec (.echo t tag ta rt) s = .next (onLink t id s) := by
  rw [exec_echo, sbEvent_locked ha hl]
  exact congrArg _ (onLink_congr (by simp [he]))

theorem exec_sidebandCalibration_due (ha : Acts s (sbBlk t)) (hl : (Tab.getD s.lane.link t {}).state = .locked)
    (hd : ∀ f, (Tab.getD s.lane.link t {}).calAt = some f → f + 1215 ≤ s.sbFrameNow) :
    exec (.sidebandCalibration t) s = .next (sendEcho t s) := by
  rw [exec_sidebandCalibration, execSidebandCalibration, sbEvent_locked ha hl]
  cases hc : (Tab.getD s.lane.link t {}).calAt with
  | none => rfl
  | some f => simp [hd f hc]

theorem exec_sidebandCalibration_notDue {n : Nat} (ha : Acts s (sbBlk t))
    (hl : (Tab.getD s.lane.link t {}).state = .locked) (hc : (Tab.getD s.lane.link t {}).calAt = some n)
    (hn : s.sbFrameNow < n + 1215) : exec (.sidebandCalibration t) s = .next s := by
  rw [exec_sidebandCalibration, execSidebandCalibration, sbEvent_locked ha hl]
  simp [hc, Nat.not_le.2 hn]

end Sys2Proof.Machine
end

section
/-! SUPPORT. Block lock of the uplink PCS lanes, Ixrardo links with it, and the admin state of the ports (R69 to R71,
R74). -/

namespace Sys2Proof.Machine

variable {s : State} {port lane link : Nat} {hs : List Bool}

theorem ixrLink_otherMode {up : Bool} (hm : s.paramN 0x1500 link ≠ 4) : ixrLink link up s = s := by
  simp [ixrLink, hm]

theorem ixrLink_down (hm : s.paramN 0x1500 link = 4) : ixrLink link false s = { s with
    lane := { s.lane with ixr := Tab.set s.lane.ixr link { up := false } }
    prot := { s.prot with links := Tab.erase s.prot.links link } } := by
  simp [ixrLink, hm]

theorem ixrLink_up (hm : s.paramN 0x1500 link = 4) : ixrLink link true s = cascLinkUp { s with
    lane := { s.lane with ixr := Tab.set s.lane.ixr link { up := true } } } := by
  simp [ixrLink, hm]

theorem exec_uplinkBlockLock (ha : Acts s (upBlk (port / 8))) : exec (.uplinkBlockLock port lane hs) s =
    .next (if port % 8 == 0 && (Tab.getD s.lane.ixr (port / 8) {}).up
        && !(blockLock port lane hs s).ixrLocked (port / 8)
      then ixrLink (port / 8) false (blockLock port lane hs s) else blockLock port lane hs s) := by
  change execUplinkBlockLock port lane hs s = _
  rw [execUplinkBlockLock, island_acts ha]
  rfl

theorem exec_uplinkBlockLock_stays (ha : Acts s (upBlk (port / 8)))
    (h : port % 8 ≠ 0 ∨ (Tab.getD s.lane.ixr (port / 8) {}).up = false
      ∨ (blockLock port lane hs s).ixrLocked (port / 8) = true) :
    exec (.uplinkBlockLock port lane hs) s = .next (blockLock port lane hs s) := by
  rw [exec_uplinkBlockLock ha, if_neg]
  rcases h with hport | hdown | hlocked
  · simp [hport]
  · simp [hdown]
  · simp [hlocked]

theorem exec_uplinkBlockLock_drops (ha : Acts s (upBlk (port / 8))) (hport : port % 8 = 0)
    (hup : (Tab.getD s.lane.ixr (port / 8) {}).up = true)
    (hlost : (blockLock port lane hs s).ixrLocked (port / 8) = false) :
    exec (.uplinkBlockLock port lane hs) s = .next (ixrLink (port / 8) false (blockLock port lane hs s)) := by
  rw [exec_uplinkBlockLock ha, if_pos (by simp [hport, hup, hlost])]

theorem exec_portAdminStateChange {up : Bool} :
    exec (.portAdminStateChange port up) s = execPortAdminStateChange port up s := rfl

theorem exec_portAdmin_missing {up : Bool} (ha : Acts s (upBlk (port / 8))) (he : s.portExists port = false) :
    exec (.portAdminStateChange port up) s = .next s := by
  rw [exec_portAdminStateChange, execPortAdminStateChange, island_acts ha]
  simp [he]

theorem exec_portAdmin_up (ha : Acts s (upBlk (port / 8))) (he : s.portExists port = true)
    (hd : (Tab.getD s.lane.port port {}).up = false) :
    exec (.portAdminStateChange port true) s = .next (
      let ffe := (List.range (lanesPerPort (s.paramN 0x1500 (port / 8)))).map fun i => s.param 0x1502 (port + i)
      let p : UpPort := ⟨true, s.paramN 0x1501 (port / 8), ffe⟩
      { s with lane := { s.lane with port := Tab.set s.lane.port port p } }) := by
  rw [exec_portAdminStateChange, execPortAdminStateChange, island_acts ha]
  simp [he, hd]

theorem exec_portAdmin_down (ha : Acts s (upBlk (port / 8))) (he : s.portExists port = true) :
    exec (.portAdminStateChange port false) s = .next (portDownFlush port
      { s with lane := { s.lane with port := Tab.upd s.lane.port port {} fun p => { p with up := false } } }) := by
  rw [exec_portAdminStateChange, execPortAdminStateChange, island_acts ha]
  simp [he, Tab.upd]

end Sys2Proof.Machine
end

section
/-! PROOF. The statement on sideband links and uplink ports. -/

open Sys2Proof Sys2Proof.Machine

/-- Settles O27: each event by the lemma on its case. -/
theorem sidebandLinksAndUplinkPorts : Obligations.SidebandLinksAndUplinkPorts := by
  intro s t tag ta rt port lane type ev hs
  refine ⟨fun ha => ⟨fun f hl => ?notLocked, fun f hl hsync => ?seen, fun f hl hsync hc => ?unseen, fun hl => ?events⟩,
    fun ha => ⟨⟨exec_uplinkBlockLock_stays ha, fun hport hup hlost hm => ?drops⟩, exec_portAdmin_missing ha,
      exec_portAdmin_up ha, exec_portAdmin_down ha⟩⟩
  case notLocked => exact (exec_sidebandFrameReceive ha).trans (congrArg _ (sbFrame_notLocked hl))
  case seen =>
    rw [exec_sidebandFrameReceive ha]
    exact ⟨fun hc => congrArg _ (sbFrame_good hl hsync hc), fun hc => congrArg _ (sbFrame_badCrc hl hsync hc)⟩
  case unseen =>
    rw [exec_sidebandFrameReceive ha]
    exact ⟨fun hm => congrArg _ (sbFrame_lockLost hl hsync hc hm), fun hm => congrArg _ (sbFrame_missed hl hsync hc hm)⟩
  case events =>
    rw [exec_late, exec_sblBadEvent, sbEvent_locked ha hl, sbEvent_locked ha hl]
    exact ⟨fun h => congrArg _ (if_pos h), fun h => congrArg _ (if_neg (by simp [h])), fun h => congrArg _ (if_pos h),
      exec_echo_answered ha hl, exec_echo_other ha hl, exec_sidebandCalibration_due ha hl,
      fun f hc hn => exec_sidebandCalibration_notDue ha hl hc hn⟩
  case drops => exact (exec_uplinkBlockLock_drops ha hport hup hlost).trans (congrArg _ (ixrLink_down hm))

end

section
/-! SUPPORT. The ONU commands of host software (R108 to R139, R489). -/

namespace Sys2Proof.Machine

variable {s : State} {q : Req} {tree serial h c : Nat} {o : Onu}

theorem exec_onuCreate {id : Nat} : exec (.onuCreate q tree serial id) s = execOnuCreate q tree serial id s := rfl

theorem exec_onuDestroy : exec (.onuDestroy q h) s = execOnuDestroy q h s := rfl

theorem exec_onuStatus : exec (.onuStatus q h) s = execOnuStatus q h s := rfl

theorem exec_onuRangeRead : exec (.onuRangeRead q h) s = execOnuRangeRead q h s := rfl

theorem exec_onuAccept : exec (.onuAccept q h) s = execOnuAccept q h s := rfl

theorem exec_onuReject : exec (.onuReject q h) s = execOnuReject q h s := rfl

theorem exec_onuDeactivate : exec (.onuDeactivate q h) s = execOnuDeactivate q h s := rfl

theorem exec_onuDisable : exec (.onuDisable q h) s = execOnuDisable q h s := rfl

theorem exec_onuEnable : exec (.onuEnable q h) s = execOnuEnable q h s := rfl

theorem exec_onuEnableAll : exec (.onuEnableAll q tree) s = execOnuEnableAll q tree s := rfl

theorem exec_onuRetune : exec (.onuRetune q h c) s = execOnuRetune q h c s := rfl

theorem exec_onuPin {on : Bool} : exec (.onuPin q h on) s = execOnuPin q h on s := rfl

theorem exec_onuLadderRestart : exec (.onuLadderRestart q h) s = execOnuLadderRestart q h s := rfl

/-- A command on a context that exists, taken up by Bexed. -/
theorem withOnu_openCmd {op : Nat} {f : Onu → State → State × Option Reply} (ho : Tab.get? s.onu.ctx h = some o) :
    withOnu h f (openCmd q op s) = f o (openCmd q op s) := by
  simp [withOnu, ho]

theorem onuCreate_new (ht : tree < 64) (hf : s.findSerial serial = none)
    (hfree : lowestFree (Tab.keys s.onu.ctx) 0 32768 = some h) :
    Replies (.onuCreate q tree serial 0x3FF) q 0x3000 (.vals [.u 15 h]) (newContext h
      { tree := tree, state := .provisioned, serial := serial, hostSerial := true, wantId := none,
        provisioned := true }) s :=
  .of_kilak exec_onuCreate rfl (by simp [onuCreate, Nat.not_le.2 ht, hf, hfree, doneWith])

theorem onuDestroy_idle (hs : s.onuState h = .provisioned ∨ s.onuState h = .disabled) :
    Replies (.onuDestroy q h) q 0x3001 .ok
      (fun u => { u with onu := { u.onu with ctx := Tab.erase u.onu.ctx h } }) s :=
  .of_kilak exec_onuDestroy rfl (by rcases hs with hs | hs <;> simp [hs, done])

theorem onuDestroy_busy (hs : s.onuState h = .operation ∨ s.onuState h = .ranging) :
    Replies (.onuDestroy q h) q 0x3001 (.err .busy) id s :=
  .of_kilak exec_onuDestroy rfl (by rcases hs with hs | hs <;> simp [hs, deny])

theorem onuStatus_replies (ho : Tab.get? s.onu.ctx h = some o) :
    Replies (.onuStatus q h) q 0x3002 (.vals [.rcd 128 o.status]) id s :=
  .of_kilak exec_onuStatus rfl (withOnu_openCmd ho)

theorem onuRangeRead_replies (ho : Tab.get? s.onu.ctx h = some o) :
    Replies (.onuRangeRead q h) q 0x3003
      (.vals [.lst 4 ((List.range 8).map fun c => (Tab.getD o.eq c {}).word)]) id s :=
  .of_kilak exec_onuRangeRead rfl (withOnu_openCmd ho)

theorem onuAccept_authorising (ho : Tab.get? s.onu.ctx h = some o) (hs : o.state = .authorising) :
    Replies (.onuAccept q h) q 0x3004 .ok (enterExtending h) s :=
  .of_kilak exec_onuAccept rfl ((withOnu_openCmd ho).trans (by simp [hs, done]))

theorem onuAccept_badState (ho : Tab.get? s.onu.ctx h = some o) (hs : o.state ≠ .authorising) :
    Replies (.onuAccept q h) q 0x3004 (.err .badState) id s :=
  .of_kilak exec_onuAccept rfl ((withOnu_openCmd ho).trans (by simp [hs, deny]))

theorem onuReject_authorising (ho : Tab.get? s.onu.ctx h = some o) (hs : o.state = .authorising) :
    Replies (.onuReject q h) q 0x3005 .ok (disableOnu h) s :=
  .of_kilak exec_onuReject rfl ((withOnu_openCmd ho).trans (by simp [hs, done]))

theorem onuReject_badState (ho : Tab.get? s.onu.ctx h = some o) (hs : o.state ≠ .authorising) :
    Replies (.onuReject q h) q 0x3005 (.err .badState) id s :=
  .of_kilak exec_onuReject rfl ((withOnu_openCmd ho).trans (by simp [hs, deny]))

theorem onuDeactivate_active {i : Nat} (ho : Tab.get? s.onu.ctx h = some o) (ha : o.state.active = true)
    (hi : o.onuId = some i) :
    Replies (.onuDeactivate q h) q 0x3006 .ok (fun u => plBroadcast o.g 3 (.deactivate i)
      (onOnu h (fun o => { o with deactSfc := some u.clk.sfc }) (releaseOnu h u))) s :=
  .of_kilak exec_onuDeactivate rfl ((withOnu_openCmd ho).trans (by simp [ha, hi, done]))

/-- A context that has neither an active state nor left one in this superframe is not deactivated. -/
theorem onuDeactivate_badState (ho : Tab.get? s.onu.ctx h = some o) (ha : o.state.active = false)
    (hleft : (o.left.filter fun x => x.1 == s.clk.sfc) = none) :
    Replies (.onuDeactivate q h) q 0x3006 (.err .badState) id s :=
  .of_kilak exec_onuDeactivate rfl ((withOnu_openCmd ho).trans (by simp [ha, hleft, deny]))

theorem onuDisable_other (ho : Tab.get? s.onu.ctx h = some o) (hd : o.deactSfc ≠ some s.clk.sfc)
    (hs : o.state ≠ .disabled) : Replies (.onuDisable q h) q 0x3007 .ok (disableOnu h) s :=
  .of_kilak exec_onuDisable rfl ((withOnu_openCmd ho).trans (by simp [hd, hs, done]))

theorem onuDisable_disabled (ho : Tab.get? s.onu.ctx h = some o) (hd : o.deactSfc ≠ some s.clk.sfc)
    (hs : o.state = .disabled) : Replies (.onuDisable q h) q 0x3007 .ok (sendDisable h 0) s :=
  .of_kilak exec_onuDisable rfl ((withOnu_openCmd ho).trans (by simp [hd, hs, done]))

theorem onuDisable_deactivated (ho : Tab.get? s.onu.ctx h = some o) (hd : o.deactSfc = some s.clk.sfc) :
    Replies (.onuDisable q h) q 0x3007 (.err .badState) id s :=
  .of_kilak exec_onuDisable rfl ((withOnu_openCmd ho).trans (by simp [hd, deny]))

theorem onuEnable_disabled (ho : Tab.get? s.onu.ctx h = some o) (hs : o.state = .disabled) :
    Replies (.onuEnable q h) q 0x3008 .ok (fun u => onOnu h (fun o =>
      let n : Onu := { tree := o.tree, state := .provisioned, serial := o.serial, hostSerial := o.hostSerial }
      { n with wantId := o.wantId, chan := o.chan, provisioned := true }) (sendDisable h 1 u)) s :=
  .of_kilak exec_onuEnable rfl ((withOnu_openCmd ho).trans (by simp [hs, done]))

theorem onuPin_replies {on : Bool} (ho : Tab.get? s.onu.ctx h = some o) :
    Replies (.onuPin q h on) q 0x300B .ok (onOnu h fun o => { o with pinned := on }) s :=
  .of_kilak exec_onuPin rfl (withOnu_openCmd ho)

theorem onuLadderRestart_operation (ho : Tab.get? s.onu.ctx h = some o) (hs : o.state = .operation)
    (hf : s.inFixedPattern h = false) :
    Replies (.onuLadderRestart q h) q 0x300C .ok
      (fun u => ladderStep h (onOnu h (fun o => { o with ladder := {} }) u)) s :=
  .of_kilak exec_onuLadderRestart rfl ((withOnu_openCmd ho).trans (by simp [hs, hf, done]))

theorem onuEnableAll_replies (ht : tree < 64) :
    Replies (.onuEnableAll q tree) q 0x3009 .ok (fun u => ((List.range 8).filter fun c =>
      (Tab.getD u.lane.ch (8 * tree + c) {}).enabled).foldl
        (fun s c => plBroadcast (8 * tree + c) 1 (.disableSerial 2 0) s) u) s :=
  .of_kilak exec_onuEnableAll rfl (by simp [Nat.not_le.2 ht, done])

theorem onuRetune_waits (hr : (balanceYield h (openCmd q 0x300A s)).retuneRefused h c false = none) :
    Waits (.onuRetune q h c) q 0x300A (fun u => startRetune (some q) 0 h c 20 (balanceYield h u)) s :=
  .of_kilak exec_onuRetune rfl (by simp only [hr, waits])

/-- Without a retune of the balancer there is none to yield. -/
theorem balanceYield_noTune (ht : (Tab.get? s.onu.ctx h).bind (·.tune) = none) : balanceYield h s = s := by
  cases ho : Tab.get? s.onu.ctx h with
  | none => simp [balanceYield, ho]
  | some o =>
    have hto : o.tune = none := by simpa [ho] using ht
    simp [balanceYield, ho, hto]

theorem onuRetune_refused {code : Code} (ht : (Tab.get? s.onu.ctx h).bind (·.tune) = none)
    (hr : s.retuneRefused h c false = some code) : Replies (.onuRetune q h c) q 0x300A (.err code) id s :=
  .of_kilak exec_onuRetune rfl (by
    have hy : balanceYield h (openCmd q 0x300A s) = openCmd q 0x300A s := balanceYield_noTune (by simpa using ht)
    simp [hy, hr, deny])

end Sys2Proof.Machine
end

section
/-! PROOF. The statement on the ONU commands of host software. -/

open Sys2Proof Sys2Proof.Machine

/-- Settles O30: each command by the lemma on its case. -/
theorem onuHostCommands : Obligations.OnuHostCommands := by
  intro s q tree serial h c o on code
  refine ⟨onuCreate_new, onuDestroy_idle, onuDestroy_busy, fun ho => ⟨onuStatus_replies ho, onuRangeRead_replies ho,
      fun hs => ⟨onuAccept_authorising ho hs, onuReject_authorising ho hs⟩,
      fun hs => ⟨onuAccept_badState ho hs, onuReject_badState ho hs⟩, fun i h2 h10 hi => ?deactivate,
      onuDeactivate_badState ho, fun hd => ⟨onuDisable_other ho hd, onuDisable_disabled ho hd⟩,
      onuDisable_deactivated ho, onuEnable_disabled ho, onuPin_replies ho, onuLadderRestart_operation ho⟩,
    onuEnableAll_replies, onuRetune_waits, fun ht => ⟨balanceYield_noTune ht, onuRetune_refused ht⟩⟩
  case deactivate => exact onuDeactivate_active ho (decide_eq_true ⟨h2, h10⟩) hi

end

section
/-! SUPPORT. PLOAM, state, quarantine and tuning timeouts (R111, R113, R123, R134). -/

namespace Sys2Proof.Machine

variable {s : State} {h : Nat} {o : Onu} {p : PlOut} {t : Tune}

theorem exec_ploamAnswerTimeout (ha : Acts s 104) : exec (.ploamAnswerTimeout h) s = .next (answerTimeout h s) :=
  island_acts ha

theorem exec_extendingTimeout (ha : Acts s 104) : exec (.extendingTimeout h) s = .next
    (outTimeout h (fun o m => o.state == .extending && m.msg == .extInquire) (fun _ s => extDeclined h s) s) :=
  island_acts ha

theorem exec_tuningResponseTimeout (ha : Acts s 104) :
    exec (.tuningResponseTimeout h) s = .next (tuningTimeout h s) :=
  island_acts ha

theorem exec_authTimeout : exec (.authTimeout h) s = execAuthTimeout h s := rfl

theorem exec_lostTimeout : exec (.lostTimeout h) s = execLostTimeout h s := rfl

theorem exec_onuIdQuarantineEnd {tree i : Nat} :
    exec (.onuIdQuarantineEnd tree i) s = execOnuIdQuarantineEnd tree i s := rfl

theorem exec_tuneArrivalTimeout {found : Bool} :
    exec (.tuneArrivalTimeout h found) s = execTuneArrivalTimeout h found s := rfl

theorem answerTimeout_missing (ho : Tab.get? s.onu.ctx h = none) : answerTimeout h s = s := by
  simp [answerTimeout, carryTimeout, ho]

theorem outTimeout_missing {c : Onu → PlOut → Bool} {f : Onu → State → State} (ho : Tab.get? s.onu.ctx h = none) :
    outTimeout h c f s = s := by
  simp [outTimeout, ho]

theorem outTimeout_late {c : Onu → PlOut → Bool} {f : Onu → State → State} (ho : Tab.get? s.onu.ctx h = some o)
    (hp : o.out = some p) (hl : p.late s.clk.sfc = true) (hc : c o p = true) :
    outTimeout h c f s = f o (bump .ploamNoAck o.g (plAnswered h s)) := by
  simp [outTimeout, ho, hp, hl, hc]

/-- A message with retries left goes to the front of the queue again, under its SeqNo. -/
theorem answerTimeout_retries (ho : Tab.get? s.onu.ctx h = some o) (hcar : o.tune.bind (·.carry) = none)
    (hp : o.out = some p) (hl : p.late s.clk.sfc = true) (hr : p.tries < s.retriesOf p.msg) :
    answerTimeout h s = plAnswered h { s with onu := { s.onu with queue :=
      { g := o.g, onu := some h, msg := p.msg, seq := some p.seq, tries := p.tries + 1, ready := s.clk.sfc }
        :: s.onu.queue } } := by
  have hcarry : carryTimeout h s = s := by simp [carryTimeout, ho, hcar]
  have hsome : s.retriesOf p.msg ≠ 0 := Nat.ne_of_gt (Nat.zero_lt_of_lt hr)
  simp [answerTimeout, hcarry, ho, hp, hl, hr, hsome]

theorem exec_authTimeout_missing (ha : Acts s 104) (ho : Tab.get? s.onu.ctx h = none) :
    exec (.authTimeout h) s = .next s := by
  rw [exec_authTimeout, execAuthTimeout, island_acts ha]
  simp [ho]

theorem exec_authTimeout_due (ha : Acts s 104) (ho : Tab.get? s.onu.ctx h = some o) (hs : o.state = .authorising)
    (hd : s.due o.deadline = true) :
    exec (.authTimeout h) s = .next (releaseFor h 4 (bump .authTimeout o.tree s)) := by
  rw [exec_authTimeout, execAuthTimeout, island_acts ha]
  simp [ho, hs, hd]

theorem exec_lostTimeout_due (ha : Acts s 104) (ho : Tab.get? s.onu.ctx h = some o) (hs : o.state = .lost)
    (hd : s.due o.deadline = true) : exec (.lostTimeout h) s = .next (releaseFor h 6 s) := by
  rw [exec_lostTimeout, execLostTimeout, island_acts ha]
  simp [ho, hs, hd]

theorem exec_quarantineEnd_notDue {tree i e : Nat} (ha : Acts s 104)
    (hq : Tab.get? s.onu.quar (tree * 1024 + i) = some e) (he : s.clk.sfc < e) :
    exec (.onuIdQuarantineEnd tree i) s = .next s := by
  rw [exec_onuIdQuarantineEnd, execOnuIdQuarantineEnd, island_acts ha]
  simp [hq, he]

theorem exec_quarantineEnd_due {tree i e : Nat} (ha : Acts s 104)
    (hq : Tab.get? s.onu.quar (tree * 1024 + i) = some e) (he : e ≤ s.clk.sfc) :
    exec (.onuIdQuarantineEnd tree i) s = .next (
      (s.onu.ctx.filter fun x => x.2.state == .deactivating && x.2.tree == tree && decide (x.2.quarEnd ≤ s.clk.sfc)).foldl
        (fun s x => vacate x.1 s) { s with onu := { s.onu with quar := Tab.erase s.onu.quar (tree * 1024 + i) } }) := by
  rw [exec_onuIdQuarantineEnd, execOnuIdQuarantineEnd, island_acts ha]
  simp [hq, Nat.not_lt.2 he]

theorem tuningTimeout_unacked (ho : Tab.get? s.onu.ctx h = some o) (ht : o.tune = some t) (hack : t.acked = false)
    (hs : t.sent + 16 < s.clk.sfc) :
    tuningTimeout h s = tuneEnded h .tuneNack .operation
      (if o.out.any fun p => isTuning p.msg then bump .ploamNoAck o.g s else s) := by
  simp [tuningTimeout, ho, ht, hack, hs]

/-- Before the first superframe of grants on the target and eight more nothing happens; then the window opens; after the
window the old channel pair is granted once more. -/
theorem exec_tuneArrival_target {found : Bool} (ha : Acts s 104) (ho : Tab.get? s.onu.ctx h = some o)
    (ht : o.tune = some t) (hold : t.oldAt = none) :
    exec (.tuneArrivalTimeout h found) s = .next (
      if s.clk.sfc < s.tuneDueAt h t + 8 then s
      else if !t.windowed then tuneWindow h (8 * o.tree + t.target) { t with q := s.clk.sfc } s
      else bump .tuneFail h (onOnu h (fun o => { o with tune := some { t with oldAt := some (s.clk.sfc + 2) } }) s)) := by
  rw [exec_tuneArrivalTimeout, execTuneArrivalTimeout, island_acts ha]
  simp only [ho, ht, hold]

theorem exec_tuneArrival_old {found : Bool} {n : Nat} (ha : Acts s 104) (ho : Tab.get? s.onu.ctx h = some o)
    (ht : o.tune = some t) (hold : t.oldAt = some n) :
    exec (.tuneArrivalTimeout h found) s = .next (
      if s.clk.sfc < n + 4 then s else tuneBack h (if found then .operation else .lost) s) := by
  rw [exec_tuneArrivalTimeout, execTuneArrivalTimeout, island_acts ha]
  simp only [ho, ht, hold]

theorem exec_tuneArrival_noTune {found : Bool} (ha : Acts s 104) (ho : Tab.get? s.onu.ctx h = some o)
    (ht : o.tune = none) (hsp : Tab.get? s.map.spare h = none) :
    exec (.tuneArrivalTimeout h found) s = .next s := by
  rw [exec_tuneArrivalTimeout, execTuneArrivalTimeout, island_acts ha]
  simp [ho, ht, spareTimeout, hsp]

end Sys2Proof.Machine
end

section
/-! SUPPORT. The rate ladder's timeouts (R45). -/

namespace Sys2Proof.Machine

variable {s : State} {h : Nat} {o : Onu}

theorem exec_ladderAckTimeout_late {p : PlOut} {r a : Nat} {b : Bool} (ha : Acts s 104)
    (ho : Tab.get? s.onu.ctx h = some o) (hp : o.out = some p) (hl : p.late s.clk.sfc = true) (hph : o.ladder.phase = 1)
    (hm : p.msg = .rateStep r a b) :
    exec (.ladderAckTimeout h) s = .next (ladderFailed h (bump .ploamNoAck o.g (plAnswered h s))) := by
  change execLadderAckTimeout h s = _
  rw [execLadderAckTimeout, island_acts ha, outTimeout_late ho hp hl (by simp [hph, hm])]

theorem exec_ladderTrialEnd (ha : Acts s 104) : exec (.ladderTrialEnd h) s = .next (ladderTrialEnd h s) :=
  island_acts ha

theorem ladderTrialEnd_made (ho : Tab.get? s.onu.ctx h = some o) (hph : o.ladder.phase = 2)
    (hb : 16 ≤ o.ladder.bursts) (hg : 15 ≤ o.ladder.good) (hu : o.ladder.uncorr = false) :
    ladderTrialEnd h s = ladderStep h (onOnu h (fun u => { u with
      curRate := o.ladder.rate, ladder := { fails := o.ladder.fails } }) s) := by
  simp [ladderTrialEnd, ho, hph, hb, hg, hu]

theorem ladderTrialEnd_fails (ho : Tab.get? s.onu.ctx h = some o) (hph : o.ladder.phase = 2)
    (hb : 16 ≤ o.ladder.bursts) (hbad : o.ladder.good < 15 ∨ o.ladder.uncorr = true) :
    ladderTrialEnd h s = ladderFailed h s := by
  have hnot : (decide (15 ≤ o.ladder.good) && !o.ladder.uncorr) = false := by
    rcases hbad with hfew | hunc
    · simp [Nat.not_le.2 hfew]
    · simp [hunc]
  simp [ladderTrialEnd, ho, hph, hb, hnot]

theorem ladderTrialEnd_underWay (ho : Tab.get? s.onu.ctx h = some o) (hph : o.ladder.phase = 2)
    (hb : o.ladder.bursts < 16) :
    ladderTrialEnd h s = if o.ladder.untilSfc ≤ s.clk.sfc then ladderFailed h s else s := by
  simp [ladderTrialEnd, ho, hph, Nat.not_le.2 hb]

theorem exec_ladderRetry_missing (ha : Acts s 104) (ho : Tab.get? s.onu.ctx h = none) :
    exec (.ladderRetry h) s = .next s := by
  change execLadderRetry h s = _
  rw [execLadderRetry, island_acts ha]
  simp [ho]

theorem exec_ladderRetry_due (ha : Acts s 104) (ho : Tab.get? s.onu.ctx h = some o) (hph : o.ladder.phase = 3)
    (hr : o.ladder.retryAt ≤ s.clk.now) :
    exec (.ladderRetry h) s = .next (ladderStep h
      (onOnu h (fun o => { o with ladder := { o.ladder with phase := 0 } }) s)) := by
  change execLadderRetry h s = _
  rw [execLadderRetry, island_acts ha]
  simp [ho, hph, hr]

end Sys2Proof.Machine
end

section
/-! SUPPORT. The balancing interval (R135, R136). -/

namespace Sys2Proof.Machine

variable {s : State} {tree n : Nat} {loads : Tab Nat} {hi lo : Nat × Nat}

theorem exec_balanceInterval (ha : Acts s 104) : exec (.balanceInterval tree) s = .next (balanceInterval tree s) :=
  island_acts ha

/-- The channel pairs of a tree that the balancer compares, each with its load: enabled, and not the spare. -/
def State.balanceLoads (s : State) (tree : Nat) : Tab Nat :=
  ((List.range 8).filter fun c => s.paramN 0x3036 tree != c && (Tab.getD s.lane.ch (8 * tree + c) {}).enabled).map
    fun c => (c, s.chLoad (8 * tree + c))

/-- The end of a balancing interval of s, in a state its moves have led to: the next one's time, and loads that start
again. -/
def balanceClosed (s : State) (tree : Nat) (u : State) : State :=
  { u with onu := { u.onu with
    balNext := Tab.set u.onu.balNext tree (s.clk.now + secT (s.paramN 0x3033 0))
    chUp := u.onu.chUp.filter fun e => e.1 / 8 != tree
    chDown := u.onu.chDown.filter fun e => e.1 / 8 != tree
    ctx := u.onu.ctx.map fun e => (e.1, if e.2.tree = tree then { e.2 with loadUp := 0, loadDown := 0 } else e.2) } }

/-- The contexts on a channel pair whose move to channel pair c takes a load, and no more than half the difference d. -/
def State.balanceCands (s : State) (g c d : Nat) : List (Nat × Onu) :=
  (s.onu.ctx.filter fun e => e.2.g == g && s.balanceable e.1 e.2 c).filter fun e =>
    decide (0 < s.onuLoad e.2 g ∧ 2 * s.onuLoad e.2 g ≤ d)

theorem balanceInterval_notDue (h : s.clk.now < Tab.getD s.onu.balNext tree 0) : balanceInterval tree s = s :=
  if_pos h

theorem balanceInterval_off (hd : Tab.getD s.onu.balNext tree 0 ≤ s.clk.now) (hon : s.param 0x3031 0 ≠ 1) :
    balanceInterval tree s = balanceClosed s tree s := by
  simp [balanceInterval, Nat.not_lt.2 hd, hon, balanceClosed]

theorem balanceInterval_on (hd : Tab.getD s.onu.balNext tree 0 ≤ s.clk.now) (hon : s.param 0x3031 0 = 1) :
    balanceInterval tree s
      = balanceClosed s tree (balanceMoves tree (s.paramN 0x3034 0) (s.balanceLoads tree) s) := by
  simp [balanceInterval, Nat.not_lt.2 hd, hon, balanceClosed, State.balanceLoads]

/-- Loads within the threshold of each other move nothing. -/
theorem balanceMoves_level (hhi : maxBy (fun e => e.2) loads = some hi)
    (hlo : maxBy (fun e => 1000000 - e.2) loads = some lo) (h : hi.2 ≤ lo.2 + 100 * s.paramN 0x3032 0) :
    balanceMoves tree n loads s = s := by
  cases n with
  | zero => rfl
  | succ n => simp only [balanceMoves, hhi, hlo, if_pos h]

theorem balanceMoves_one {h : Nat} {o : Onu} (hhi : maxBy (fun e => e.2) loads = some hi)
    (hlo : maxBy (fun e => 1000000 - e.2) loads = some lo) (hgt : lo.2 + 100 * s.paramN 0x3032 0 < hi.2)
    (hc : maxBy (fun e => s.onuLoad e.2 (8 * tree + hi.1))
      (s.balanceCands (8 * tree + hi.1) lo.1 (hi.2 - lo.2)) = some (h, o)) :
    balanceMoves tree 1 loads s = bump .balanceMoves tree (startRetune none 1 h lo.1 20 s) := by
  unfold State.balanceCands at hc
  simp only [balanceMoves, hhi, hlo, if_neg (Nat.not_le.2 hgt), hc]

end Sys2Proof.Machine
end

section
/-! PROOF. The statement on the ONU timeouts, the ladder and balancing. -/

open Sys2Proof Sys2Proof.Machine

/-- Settles O32: each event by the lemma on its case. -/
theorem onuTimeoutsLadderAndBalancing : Obligations.OnuTimeoutsLadderAndBalancing := by
  intro s h tree i e o p t found ha
  refine ⟨fun ho => ⟨?_, ?_, exec_authTimeout_missing ha ho, exec_ladderRetry_missing ha ho⟩,
    fun ho => ⟨fun hcar hp hl hr => ?retry, fun hs hp hl hm => ?extending, exec_authTimeout_due ha ho,
      exec_lostTimeout_due ha ho, fun ht hack hs => ?tuning, fun ht hold => ?target, fun n ht hold => ?old,
      exec_tuneArrival_noTune ha ho, fun r a b hp hl hph hm => exec_ladderAckTimeout_late ha ho hp hl hph hm,
      fun hph hb hg hu => ?made, fun hph hb hbad => ?failed, fun hph hb => ?underWay, exec_ladderRetry_due ha ho⟩,
    exec_quarantineEnd_notDue ha, exec_quarantineEnd_due ha, fun hn => ?balanceEarly, fun hd => ?balance⟩
  · rw [exec_ploamAnswerTimeout ha, answerTimeout_missing ho]
  · rw [exec_extendingTimeout ha, outTimeout_missing ho]
  case retry => rw [exec_ploamAnswerTimeout ha, answerTimeout_retries ho hcar hp hl hr]
  case extending =>
    rw [exec_extendingTimeout ha, outTimeout_late ho hp hl (by simp [hs, hm])]
    rfl
  case tuning => rw [exec_tuningResponseTimeout ha, tuningTimeout_unacked ho ht hack hs]
  case target =>
    rw [exec_tuneArrival_target ha ho ht hold]
    refine ⟨fun hn => congrArg _ (if_pos hn), fun hd hw => ?_, fun hd hw => ?_⟩
    · rw [if_neg (Nat.not_lt.2 hd), hw]
      rfl
    · rw [if_neg (Nat.not_lt.2 hd), hw]
      rfl
  case old =>
    rw [exec_tuneArrival_old ha ho ht hold]
    exact ⟨fun hn => congrArg _ (if_pos hn), fun hd => congrArg _ (if_neg (Nat.not_lt.2 hd))⟩
  case made => rw [exec_ladderTrialEnd ha, ladderTrialEnd_made ho hph hb hg hu]
  case failed => rw [exec_ladderTrialEnd ha, ladderTrialEnd_fails ho hph hb hbad]
  case underWay => rw [exec_ladderTrialEnd ha, ladderTrialEnd_underWay ho hph hb]
  case balanceEarly => rw [exec_balanceInterval ha, balanceInterval_notDue hn]
  case balance =>
    rw [exec_balanceInterval ha]
    refine ⟨fun hoff => congrArg _ (balanceInterval_off hd hoff), fun hon hi lo hhi hlo => ?_⟩
    rw [balanceInterval_on hd hon]
    refine ⟨fun hle _ => ?_, fun i x hgt hone hc => ?_⟩
    · exact congrArg (fun u => Host.Outcome.next (balanceClosed s tree u)) (balanceMoves_level hhi hlo hle)
    · rw [hone]
      exact congrArg (fun u => Host.Outcome.next (balanceClosed s tree u)) (balanceMoves_one hhi hlo hgt hc)

end

section
/-! SUPPORT. Counters read after a count, and what the delivery of octets to a tributary leaves of the burst reception's
records: the ends of each channel pair and the bursts expected. -/

namespace Sys2Proof.Machine

theorem count_bumpBy_self (c : Ctr) (i n : Nat) (s : State) :
    (bumpBy c i n s).count c i = (s.count c i + n) % 2 ^ 64 := by
  simp [State.count, bumpBy]

theorem count_bumpBy_other {c c' : Ctr} (i n j : Nat) (s : State) (h : c'.ctorIdx ≠ c.ctorIdx) :
    (bumpBy c i n s).count c' j = s.count c' j := by
  simp [State.count, bumpBy, Tab.getD_upd_other _ _ _ _ h]

/-- The lanes' records of their channel pairs and the counts of bursts expected are as before. -/
structure KeepsEnds (s t : State) : Prop where
  ch : t.rx.ch = s.rx.ch
  expected : ∀ i, t.count .burstsExpected i = s.count .burstsExpected i

namespace KeepsEnds

variable {s u v : State}

theorem refl (s : State) : KeepsEnds s s := ⟨rfl, fun _ => rfl⟩

/-- A step that changes neither the lanes' records nor the counters. -/
theorem step (h : KeepsEnds s u) (hrx : v.rx.ch = u.rx.ch) (hctr : v.ctr = u.ctr) : KeepsEnds s v :=
  ⟨hrx.trans h.ch, fun i => by rw [← h.expected i, State.count, hctr]; rfl⟩

theorem onTrib {i : Nat} {f : Trib → Trib} (h : KeepsEnds s u) : KeepsEnds s (onTrib i f u) := h.step rfl rfl

theorem bumpBy {c : Ctr} {i n : Nat} (hc : Ctr.burstsExpected.ctorIdx ≠ c.ctorIdx) (h : KeepsEnds s u) :
    KeepsEnds s (bumpBy c i n u) :=
  ⟨h.ch, fun j => (count_bumpBy_other i n j u hc).trans (h.expected j)⟩

theorem bump {c : Ctr} {i : Nat} (hc : Ctr.burstsExpected.ctorIdx ≠ c.ctorIdx) (h : KeepsEnds s u) :
    KeepsEnds s (bump c i u) :=
  h.bumpBy hc

theorem ite {c : Prop} [Decidable c] (hu : KeepsEnds s u) (hv : KeepsEnds s v) :
    KeepsEnds s (if c then u else v) := by
  split <;> assumption

theorem foldl {α : Type} {f : State → α → State} {l : List α} (hf : ∀ u x, KeepsEnds s u → KeepsEnds s (f u x))
    (h : KeepsEnds s u) : KeepsEnds s (l.foldl f u) := by
  induction l generalizing u with
  | nil => exact h
  | cons a l ih => exact ih (hf _ _ h)

theorem deliverContainer {id : Nat} {missed : Bool} {os : List Nat} (h : KeepsEnds s u) :
    KeepsEnds s (deliverContainer id missed os u) := by
  unfold Machine.deliverContainer
  split
  · exact h
  · extract_lets +onlyGivenNames toh body k jc client erred ais bad delivered counted
    have hfree : KeepsEnds s { u with free := u.free + (os.drop 16).length } := h.step rfl rfl
    have hdelivered : KeepsEnds s delivered := hfree.onTrib
    have hcounted : KeepsEnds s counted :=
      .ite ((hdelivered.bumpBy (by decide)).bumpBy (by decide)) (hdelivered.bump (by decide))
    exact .ite (hcounted.bump (by decide)) (.ite (hcounted.bump (by decide)) hcounted)

theorem alignLock {id p : Nat} (h : KeepsEnds s u) : KeepsEnds s (alignLock id p u) :=
  (h.step (v := { u with free := u.free + p }) rfl rfl).onTrib

theorem alignRun {id n : Nat} (h : KeepsEnds s u) : KeepsEnds s (alignRun id n u) := by
  induction n generalizing u with
  | zero => exact h
  | succ n ih =>
    unfold Machine.alignRun
    split
    · exact h
    · extract_lets p len hunt
      have hhunt : KeepsEnds s (hunt u) := h.onTrib
      split
      · exact .ite h (.ite (ih h.onTrib) (ih hhunt))
      · exact .ite h (.ite (ih h.onTrib) (ih hhunt))
      · exact .ite h (.ite (ih h.alignLock) (ih hhunt))
      · split
        · exact .ite h (.ite (ih h.onTrib) (.ite (ih h.onTrib) (ih (h.onTrib.bump (by decide)))))
        · exact .ite h (ih h.deliverContainer.onTrib)

theorem tribBytes {id sfc : Nat} {raw : List Nat} (h : KeepsEnds s u) : KeepsEnds s (tribBytes id sfc raw u) := by
  unfold Machine.tribBytes
  split
  · exact .ite h.onTrib h.onTrib.onTrib.alignRun
  · exact h

theorem containerHole {g : Nat} {x : Expect} {a : Nat × Nat × Bool × Bool} (h : KeepsEnds s u) :
    KeepsEnds s (containerHole g x a u) :=
  foldl (fun _ _ hw => hw.tribBytes) h

/-- The counter of an outcome is none of bursts expected. -/
theorem outcome {oc : Outcome} {h g : Nat} (hu : KeepsEnds s u) :
    KeepsEnds s (match outcomeCtr oc with
      | some c => rxCount c h g 1 u
      | none => u) := by
  cases oc with
  | clean => exact hu.bumpBy (by decide)
  | damaged => exact hu.bumpBy (by decide)
  | missing => exact hu.bumpBy (by decide)
  | foreign => exact hu.bumpBy (by decide)
  | discarded => exact hu

end KeepsEnds

/-- What the end of a burst does between its count and its place among the ends leaves both alone. -/
theorem endBurst_ends (g : Nat) (x : Expect) (oc : Outcome) (gasp : Bool) (d : Int) (s : State) :
    ∃ w, KeepsEnds (rxCount .burstsExpected x.onu g 1 s) w ∧ endBurst g x oc gasp d s = onRxCh g (fun r => { r with
      ends := r.ends ++ [{ sfc := x.sfc, onu := x.onu, outcome := oc, gasp := gasp, offset := wholeTicks d }] }) w := by
  refine ⟨_, .ite (.outcome (.refl _)) ?_, rfl⟩
  refine .step (.ite (.outcome (.refl _)) (.foldl (fun _ _ hw => hw.containerHole) (.outcome (.refl _)))) rfl rfl

theorem count_endBurst_expected (g : Nat) (x : Expect) (oc : Outcome) (gasp : Bool) (d : Int) (s : State) :
    (endBurst g x oc gasp d s).count .burstsExpected (8 * x.onu + g % 8)
      = (s.count .burstsExpected (8 * x.onu + g % 8) + 1) % 2 ^ 64 := by
  obtain ⟨w, hw, he⟩ := endBurst_ends g x oc gasp d s
  rw [he]
  exact (hw.expected _).trans (count_bumpBy_self ..)

theorem rxCh_endBurst_ends (g : Nat) (x : Expect) (oc : Outcome) (gasp : Bool) (d : Int) (s : State) :
    ((endBurst g x oc gasp d s).rxCh g).ends = (s.rxCh g).ends
      ++ [{ sfc := x.sfc, onu := x.onu, outcome := oc, gasp := gasp, offset := wholeTicks d }] := by
  obtain ⟨w, hw, he⟩ := endBurst_ends g x oc gasp d s
  have hch : w.rx.ch = s.rx.ch := hw.ch
  simp [he, State.rxCh, onRxCh, hch]

end Sys2Proof.Machine
end

section
/-! SUPPORT. One burst: its outcome (R203 to R207), and its reception against the next expectation of a lane whose tree the
device serves. -/

namespace Sys2Proof.Machine

variable {s : State} {g : Nat} {x : Expect} {rx : BurstRx} {o : Onu} {d : Int}

theorem exec_burstReception (ha : Acts s (ponBlk g)) :
    exec (.burstReception g rx) s = .next (burstReception g rx s) :=
  island_acts ha

theorem burstReception_unexpected (hx : nextExpect (s.mapCh g).expect = none) : burstReception g rx s = s := by
  simp only [burstReception, hx]

theorem outcome_unassigned (ha : s.assigned x = none) : s.outcome g x rx =
    (.discarded, if x.noReset = true ∨ rx.loopLocked = false then none else s.delimiter g x rx) := by
  simp [State.outcome, ha]

theorem outcome_unlocked (ha : s.assigned x = some o) (h : x.noReset = true ∨ rx.loopLocked = false) :
    s.outcome g x rx = (.missing, none) := by
  simp [State.outcome, ha, h]

theorem outcome_noDelimiter (ha : s.assigned x = some o) (hd : s.delimiter g x rx = none) :
    s.outcome g x rx = (.missing, none) := by
  simp [State.outcome, ha, hd]

theorem outcome_delimited (ha : s.assigned x = some o) (hr : x.noReset = false) (hl : rx.loopLocked = true)
    (hd : s.delimiter g x rx = some d) : s.outcome g x rx =
      if !rx.headerOk then (.foreign, some d)
      else if s.inQuarantine (g / 8) rx.onuId then (.discarded, some d)
      else if o.onuId != some rx.onuId then (.foreign, some d)
      else if (decide (0 < rxUncorr rx) && fecOn x) || rx.allocs.any rxLost then (.damaged, some d)
      else (.clean, some d) := by
  simp only [State.outcome, ha, hr, hl, hd]
  rfl

@[simp] theorem arrived_corr (r : RxOnu) (d : Int) : (r.arrived d).corr = r.corr := rfl
@[simp] theorem arrived_prot (r : RxOnu) (d : Int) : (r.arrived d).prot = r.prot := rfl

@[simp] theorem Outcome.delineated_clean : Outcome.clean.delineated = true := rfl
@[simp] theorem Outcome.delineated_missing : Outcome.missing.delineated = false := rfl
@[simp] theorem Outcome.delineated_foreign : Outcome.foreign.delineated = false := rfl
@[simp] theorem Outcome.delineated_discarded : Outcome.discarded.delineated = false := rfl

/-- The state a burst is received in: its expectation is taken out of the schedule. -/
def expectTaken (g : Nat) (x : Expect) (s : State) : State :=
  onMap g (fun m => { m with expect := m.expect.erase x }) s

/-- The codewords of a delineated burst counted, where its profile has FEC on (R204). -/
def fecCounted (g : Nat) (x : Expect) (rx : BurstRx) (s : State) : State :=
  if fecOn x then rxCount .fecCodewords x.onu g rx.words.length (rxCount .fecCorrBits x.onu g (rxCorrBits rx)
    (rxCount .fecUncorr x.onu g (rxUncorr rx) s)) else s

variable (hx : nextExpect (s.mapCh g).expect = some x) (hst : s.standbyTree (g / 8) = false)
include hx hst

theorem burstReception_foreign (hoc : (expectTaken g x s).outcome g x rx = (.foreign, some d))
    (hh : rx.headerOk = true) : burstReception g rx s = endBurst g x .foreign false d
      (ladderBurst x .foreign (decide (0 < rxUncorr rx) && fecOn x)
        (fecCounted g x rx (bump .onuIdMismatch g (expectTaken g x s)))) := by
  unfold expectTaken at hoc
  simp [burstReception, hx, hst, hoc, hh, expectTaken, fecCounted]

theorem burstReception_missing (hoc : (expectTaken g x s).outcome g x rx = (.missing, none))
    (hl : x.profile ≠ 1 ∨ rx.loopLocked = true) : burstReception g rx s = confirmLost g x.onu
      (endBurst g x .missing false 0 (ladderBurst x .missing false (expectTaken g x s))) := by
  have hseed : (!rx.loopLocked && x.profile == 1) = false := by
    rcases hl with hprofile | hlocked
    · simp [hprofile]
    · simp [hlocked]
  unfold expectTaken at hoc
  simp [burstReception, hx, hst, hoc, hseed, expectTaken]

theorem burstReception_seedMiss (hoc : (expectTaken g x s).outcome g x rx = (.missing, none)) (hp : x.profile = 1)
    (hl : rx.loopLocked = false) : burstReception g rx s = confirmLost g x.onu
      (endBurst g x .missing false 0 (ladderBurst x .missing false (seedMiss g x (expectTaken g x s)))) := by
  unfold expectTaken at hoc
  simp [burstReception, hx, hst, hoc, hp, hl, expectTaken]

theorem burstReception_stale (hoc : (expectTaken g x s).outcome g x rx = (.discarded, some d))
    (hh : rx.headerOk = true) (hq : (expectTaken g x s).inQuarantine (g / 8) rx.onuId = true) :
    burstReception g rx s = endBurst g x .discarded false d
      (ladderBurst x .discarded (decide (0 < rxUncorr rx) && fecOn x)
        (fecCounted g x rx (bump .ploamStale g (expectTaken g x s)))) := by
  unfold expectTaken at hoc hq
  simp [burstReception, hx, hst, hoc, hh, hq, expectTaken, fecCounted]

theorem burstReception_unheard (hoc : (expectTaken g x s).outcome g x rx = (.discarded, none)) :
    burstReception g rx s
      = endBurst g x .discarded false 0 (ladderBurst x .discarded false (expectTaken g x s)) := by
  unfold expectTaken at hoc
  simp [burstReception, hx, hst, hoc, expectTaken]

theorem burstReception_clean (hoc : (expectTaken g x s).outcome g x rx = (.clean, some d)) :
    burstReception g rx s =
      let v := onRxOnu x.onu (g % 8) (fun r => if fecOn x then { r.arrived d with
          corr := r.corr + rxCorrBits rx, prot := r.prot + rx.protBits } else r.arrived d)
        (dropLoads g x (phaseWrite g x rx d (endBurst g x .clean rx.dyingGasp d
          (ladderBurst x .clean (decide (0 < rxUncorr rx) && fecOn x) (fecCounted g x rx (expectTaken g x s))))))
      todMoved x.onu (confirmBurst g x.onu
        (rxAllocs g x false (fecOn x) rx (x.allocs.zip rx.allocs) (v.entryPos g x) v)) := by
  unfold expectTaken at hoc
  simp [burstReception, hx, hst, hoc, expectTaken, fecCounted]

end Sys2Proof.Machine
end

section
/-! SUPPORT. The phase memory entry that a burst writes, and its arrival statistics (R49, R50, R208). -/

namespace Sys2Proof.Machine

/-- Without a load read for the burst, the present entry is what the loop was loaded with. -/
theorem loadOf_unread {s : State} {g : Nat} {x : Expect}
    (h : (Tab.getD s.lane.loaded g []).find? (fun l => l.onu == x.onu && l.arrival == x.arrival) = none) :
    s.loadOf g x = s.loadFor g x.onu x.arrival x.rate := by
  simp [State.loadOf, h]

theorem arrived_min (r : RxOnu) (d : Int) : (r.arrived d).arrMin = if r.arr = [] then d else min r.arrMin d := by
  simp [RxOnu.arrived]

theorem arrived_max (r : RxOnu) (d : Int) : (r.arrived d).arrMax = if r.arr = [] then d else max r.arrMax d := by
  simp [RxOnu.arrived]

end Sys2Proof.Machine
end

section
/-! PROOF. The statement on the outcomes of bursts, the phase memory and arrivals. -/

open Sys2Proof Sys2Proof.Machine

/-- Settles O35: each outcome by the lemma on its case. -/
theorem burstOutcomesPhaseAndArrival : Obligations.BurstOutcomesPhaseAndArrival := by
  intro s g x rx o d r
  refine ⟨fun ha => ⟨fun hx => ?unexpected, exec_burstReception ha⟩, fun ha hx hst => ?reception,
    fun oc gasp => ⟨count_endBurst_expected g x oc gasp d s, rxCh_endBurst_ends g x oc gasp d s⟩, outcome_unassigned,
    fun ha => ⟨outcome_unlocked ha, fun hr hl => ⟨outcome_noDelimiter ha, fun hd => ?delimited⟩⟩,
    ⟨_, Tab.get?_set_self .., rfl, rfl, rfl, rfl, rfl, rfl, rfl, rfl, loadOf_unread, rfl⟩,
    rfl, rfl, arrived_min r d, arrived_max r d, rfl⟩
  case unexpected => rw [exec_burstReception ha, burstReception_unexpected hx]
  case reception =>
    rw [exec_burstReception ha]
    exact ⟨fun hoc hh => congrArg _ (burstReception_foreign hx hst hoc hh),
      fun hoc hl => congrArg _ (burstReception_missing hx hst hoc hl),
      fun hoc hp hl => congrArg _ (burstReception_seedMiss hx hst hoc hp hl),
      fun hoc hh hq => congrArg _ (burstReception_stale hx hst hoc hh hq),
      fun hoc => congrArg _ (burstReception_unheard hx hst hoc),
      fun hoc => congrArg _ (burstReception_clean hx hst hoc)⟩
  case delimited =>
    rw [outcome_delimited ha hr hl hd]
    refine ⟨fun hh => ?_, fun hh hq => ?_, fun hh hq => ⟨fun hid => ?_, fun hid => ?_⟩⟩
    · simp [hh]
    · simp [hh, hq]
    · simp [hh, hq, hid]
    · simp [hh, hq, hid]

end

section
/-! SUPPORT. Protection groups: what a read sees after a change, and the operations that leave the protection state as it
is. -/

namespace Sys2Proof.Machine

variable {s : State} {k : Nat}

@[simp] theorem grp_onGrp_self (f : ProtGrp → ProtGrp) : (onGrp k f s).grp k = f (s.grp k) := by
  simp [State.grp, onGrp]

@[simp] theorem onGrp_clk (f : ProtGrp → ProtGrp) : (onGrp k f s).clk = s.clk := rfl

@[simp] theorem grp_bump (c : Ctr) (i j : Nat) : (bump c i s).grp j = s.grp j := rfl

/-- A fold whose every step keeps the protection state keeps it. -/
theorem foldl_prot {α : Type} {f : State → α → State} (h : ∀ u a, (f u a).prot = u.prot) (l : List α) (s : State) :
    (l.foldl f s).prot = s.prot := by
  induction l generalizing s with
  | nil => rfl
  | cons a l ih => exact (ih _).trans (h s a)

theorem ite_prot {c : Prop} [Decidable c] {u v : State} (hu : u.prot = s.prot) (hv : v.prot = s.prot) :
    (if c then u else v).prot = s.prot := by
  split <;> assumption

theorem plSend_prot (h : Nat) (m : PlMsg) (s : State) : (plSend h m s).prot = s.prot := by
  unfold plSend
  split <;> rfl

theorem tryExchange_prot (h : Nat) (s : State) : (tryExchange h s).prot = s.prot := by
  unfold tryExchange
  refine ite_prot rfl ?_
  split
  · exact plSend_prot ..
  · rfl

theorem dueExchange_prot (h : Nat) (s : State) : (dueExchange h s).prot = s.prot := tryExchange_prot h _

theorem onAlloc_prot (a : Nat) (f : Alloc → Alloc) (s : State) : (onAlloc a f s).prot = s.prot := rfl

theorem onMap_prot (g : Nat) (f : MapCh → MapCh) (s : State) : (onMap g f s).prot = s.prot := rfl

theorem ledGrantEnd_prot (g sfc n : Nat) (s : State) : (ledGrantEnd g sfc n s).prot = s.prot := rfl

theorem ledTokens_prot (i credited spent cut : Nat) (s : State) : (ledTokens i credited spent cut s).prot = s.prot := rfl

theorem dropCredit_prot (a : Nat) (s : State) : (dropCredit a s).prot = s.prot := by
  unfold dropCredit
  split
  · rfl
  · rw [onAlloc_prot, ledTokens_prot, ledTokens_prot]

theorem ampLog_prot (type : Nat) (data : List Nat) (s : State) : (ampLog type data s).prot = s.prot := by
  unfold ampLog
  split <;> rfl

theorem protLog_prot (k : Nat) (s : State) : (protLog k s).prot = s.prot := ampLog_prot ..

theorem histSample_prot (src : HistSrc) (v id : Nat) (s : State) : (histSample src v id s).prot = s.prot := by
  unfold histSample
  split <;> rfl

theorem grantReturned_prot (g sfc : Nat) (e : MapEntry) (s : State) : (grantReturned g sfc e s).prot = s.prot := by
  unfold grantReturned
  exact ite_prot rfl rfl

theorem execEntry_prot (g sfc : Nat) (e : MapEntry) (s : State) : (execEntry g sfc e s).prot = s.prot := by
  unfold execEntry
  refine ite_prot rfl ?_
  extract_lets ended headed counted fixed granted lasting last
  have hended : ended.prot = s.prot := by
    unfold ended
    rw [ledGrantEnd_prot, bump_prot, bumpBy_prot]
  clear_value ended
  have hheaded : headed.prot = s.prot := ite_prot hended hended
  clear_value headed
  have hfixed : fixed.prot = s.prot := ite_prot hheaded hheaded
  clear_value fixed
  have hgranted : granted.prot = s.prot := ite_prot hfixed hfixed
  clear_value granted
  have hlast : last.prot = s.prot := hgranted
  clear_value last
  refine ite_prot hheaded ?_
  split
  · split
    · exact ite_prot hlast ((histSample_prot ..).trans ((histSample_prot ..).trans hlast))
    · exact hlast
  · exact hlast

theorem noReset_prot (g : Nat) (x : Expect) (s : State) : (noReset g x s).prot = s.prot := rfl

theorem ledGrantsRead_prot (g sfc : Nat) (s : State) : (ledGrantsRead g sfc s).prot = s.prot := rfl

theorem sendBurst_prot (g : Nat) (x : Expect) (s : State) : (sendBurst g x s).prot = s.prot := by
  unfold sendBurst
  extract_lets t k d off act f0 frame
  clear_value frame
  cases frame with
  | some f => exact ite_prot rfl rfl
  | none => rfl

theorem runEntries_prot (g sfc : Nat) (es : List (MapEntry × Bool)) (s : State) :
    (runEntries g sfc es s).prot = s.prot := by
  unfold runEntries
  extract_lets es run executed xs posted
  have hexecuted : executed.prot = s.prot :=
    foldl_prot (fun u x => ite_prot (grantReturned_prot g sfc x.1 u) (execEntry_prot g sfc x.1 u)) es s
  clear_value executed
  have hposted : posted.prot = s.prot := (onMap_prot ..).trans hexecuted
  clear_value posted
  refine ite_prot ((foldl_prot (fun u x => ?_) xs posted).trans hposted)
    ((foldl_prot (fun u x => ?_) xs posted).trans hposted)
  · exact ite_prot rfl (sendBurst_prot g x u)
  · exact noReset_prot g x u

/-- A page run on time: no window of it is asked for again. -/
theorem replayPage_prot (g sfc : Nat) (stall : Bool) (es : List MapEntry) (s : State) :
    (replayPage g sfc stall false es s).prot = s.prot := by
  unfold replayPage
  rw [if_neg Bool.false_ne_true]
  exact runEntries_prot ..

theorem onKeyOnu_prot (h : Nat) (f : KeyOnu → KeyOnu) (s : State) : (onKeyOnu h f s).prot = s.prot := rfl

theorem setKey_prot (h d n : Nat) (c : KeyCtx) (s : State) : (setKey h d n c s).prot = s.prot := rfl

theorem setBcast_prot (g n : Nat) (c : KeyCtx) (s : State) : (setBcast g n c s).prot = s.prot := rfl

theorem bcastExhaust_prot (g n : Nat) (s : State) : (bcastExhaust g n s).prot = s.prot := rfl

/-- The keys taken over change what was mirrored of them, and no group. -/
theorem promoteKeys_grp (k : Nat) (s : State) : (promoteKeys k s).prot.grp = s.prot.grp := by
  unfold promoteKeys
  extract_lets kek all uni bc mirrored cleared onus suited one unicast oneB broadcast
  have hcleared : cleared.prot.grp = s.prot.grp := rfl
  have hsuited : suited.prot = cleared.prot := foldl_prot (fun u e => onKeyOnu_prot e.1 _ u) onus cleared
  have hone (u : State) (i : Nat) : (one u i).prot = u.prot := setKey_prot ..
  have hunicast : unicast.prot = suited.prot := foldl_prot (fun u h => foldl_prot hone _ u) all suited
  have honeB (u : State) (i : Nat) : (oneB u i).prot = u.prot := ite_prot (bcastExhaust_prot ..) (setBcast_prot ..)
  have hbroadcast : broadcast.prot = unicast.prot := foldl_prot honeB _ unicast
  clear_value cleared suited unicast broadcast
  rw [← hcleared, ← hsuited, ← hunicast, ← hbroadcast]
  refine congrArg ProtS.grp (foldl_prot (fun u e => ?_) onus broadcast)
  exact ite_prot rfl ((dueExchange_prot ..).trans (onKeyOnu_prot ..))

/-- The group of a promotion becomes ACTIVE at its start; nothing after that changes a group. -/
theorem promote_grp (k : Nat) (s : State) : (promote k s).prot.grp = (onGrp k (fun p => { p with
    st := .active, activeAt := s.clk.now, settleEnd := s.clk.sfc + s.paramN 0xC033 0, lossRaised := !s.peerHeard
    drillUntil := if s.peerHeard then some (s.clk.now + msT (s.paramN 0xC035 0)) else none
    sent := [], copied := false }) s).prot.grp := by
  unfold promote
  extract_lets p active lit keyed replayed credited ready
  have hlit : lit.prot = active.prot := by
    refine foldl_prot (fun u g => ?_) _ active
    exact ite_prot rfl rfl
  have hkeyed : keyed.prot.grp = lit.prot.grp := by
    unfold keyed
    exact promoteKeys_grp k lit
  have hreplayed : replayed.prot = keyed.prot := by
    refine foldl_prot (fun u g => ite_prot rfl ?_) _ keyed
    exact (ledGrantsRead_prot ..).trans (replayPage_prot ..)
  have hcredited : credited.prot = replayed.prot := by
    refine foldl_prot (fun u e => ?_) _ replayed
    exact dropCredit_prot e.1 u
  clear_value credited
  have hready : ready.prot = credited.prot := rfl
  clear_value lit keyed replayed ready
  calc (protLog k ready).prot.grp = keyed.prot.grp :=
        congrArg ProtS.grp ((protLog_prot ..).trans (hready.trans (hcredited.trans hreplayed)))
    _ = active.prot.grp := hkeyed.trans (congrArg ProtS.grp hlit)

theorem promote_active (k : Nat) (s : State) :
    ((promote k s).grp k).st = .active ∧ ((promote k s).grp k).activeAt = s.clk.now := by
  simp [State.grp, promote_grp, onGrp]

end Sys2Proof.Machine
end

section
/-! SUPPORT. Rounds of the claim bus (R444 to R447). -/

namespace Sys2Proof.Machine

variable {s : State} {r : RoundResult}

theorem exec_claimRoundEnd {rs : List RoundResult} (ha : Acts s 172) :
    exec (.claimRoundEnd rs) s = .next (roundEnd rs s) :=
  island_acts ha

theorem exec_claimBusFault {stuck : Bool} (ha : Acts s 172) : exec (.claimBusFault stuck) s =
    .next (if s.prot.busFault then s else raiseFault 172 9 (if stuck then 2 else 1)
      (bump .claimBusFault 0 { s with prot := { s.prot with busFault := true } })) := by
  change execClaimBusFault stuck s = _
  rw [execClaimBusFault, island_acts ha]

theorem exec_claimBusFaultClear (ha : Acts s 172) :
    exec .claimBusFaultClear s = .next { s with prot := { s.prot with busFault := false } } := by
  change execClaimBusFaultClear s = _
  rw [execClaimBusFaultClear, island_acts ha]

/-- The claims that groups want are raised, once a round was whole since the reset. -/
def raiseWanted (s : State) : State :=
  if s.prot.roundSeen then
    (Tab.keys s.prot.grp).foldl (fun s k => if (s.grp k).wanted then raiseClaim k s else s) s
  else s

theorem raiseWanted_none (h : ∀ k ∈ Tab.keys s.prot.grp, (s.grp k).wanted = false) : raiseWanted s = s := by
  have hnone : (Tab.keys s.prot.grp).foldl (fun s k => if (s.grp k).wanted then raiseClaim k s else s) s = s :=
    foldl_eq_self_of_mem fun k hk => if_neg (Bool.eq_false_iff.1 (h k hk))
  rw [raiseWanted, hnone, ite_self]

/-- The rounds of contending groups that count as void: nothing but a counter of each changes. -/
def roundVoid (s : State) : State :=
  ((s.prot.grp.filter fun e => e.2.held || e.2.raised).map (·.1)).foldl (fun s k => bump .roundsVoid k s) s

theorem roundVoid_prot : (roundVoid s).prot = s.prot :=
  foldl_prot (f := fun s k => bump .roundsVoid k s) (fun _ _ => rfl) _ s

theorem roundEnd_eq (rs : List RoundResult) (s : State) : roundEnd rs s = raiseWanted (
    if s.prot.busFault || rs.isEmpty then roundVoid s
    else (rs.filter fun r => decide (r.group < 64)).foldl (fun s r => roundOne r s)
      { s with prot := { s.prot with roundSeen := true } }) := rfl

/-- While the bus fault stands and no round was whole since the reset, a round counts as void and is nothing more. -/
theorem roundEnd_void {rs : List RoundResult} (hf : s.prot.busFault = true) (hseen : s.prot.roundSeen = false) :
    roundEnd rs s = roundVoid s := by
  rw [roundEnd_eq, if_pos (by simp [hf]), raiseWanted, roundVoid_prot, if_neg (by simp [hseen])]

/-- After a round of one result, groups that want no claim raise none. -/
theorem roundEnd_single (hf : s.prot.busFault = false) (hg : r.group < 64)
    (hw : ∀ k ∈ Tab.keys (roundOne r { s with prot := { s.prot with roundSeen := true } }).prot.grp,
      ((roundOne r { s with prot := { s.prot with roundSeen := true } }).grp k).wanted = false) :
    roundEnd [r] s = roundOne r { s with prot := { s.prot with roundSeen := true } } := by
  have hone : [r].filter (fun r => decide (r.group < 64)) = [r] := by simp [hg]
  rw [roundEnd_eq, if_neg (by simp [hf]), hone]
  exact raiseWanted_none hw

theorem grp_foldl_prot {α : Type} {f : State → α → State} (h : ∀ u a, (f u a).prot = u.prot) (l : List α) (s : State)
    (k : Nat) : (l.foldl f s).grp k = s.grp k := by
  simp only [State.grp, foldl_prot h]

/-- A contending group that never stopped, its peer silent, goes from CLAIMING to PROMOTING (R448). -/
theorem roundOne_won (hraised : (s.grp r.group).raised = true) (hst : (s.grp r.group).st = .claiming)
    (hn : r.neverStopped = true) (hp : r.peerSilent = true) : (roundOne r s).grp r.group
      = { s.grp r.group with
          epochSeen := max (s.grp r.group).epochSeen (r.claim / 256 % 2 ^ 24), held := true, st := .promoting
          wonAt := s.clk.now } := by
  simp only [roundOne, hraised, hst, hn, hp, Bool.or_true, Bool.not_true, Bool.false_eq_true, if_false, if_true,
    beq_self_eq_true, Bool.and_self]
  rw [grp_foldl_prot (f := fun s g => if (Tab.getD s.lane.ch g {}).enabled then sbSend r.group (g % 8) 0x2 0 s else s)
    fun u g => ite_prot rfl rfl]
  simp [hraised]

theorem roundOne_lost (hraised : (s.grp r.group).raised = true) (hst : (s.grp r.group).st = .claiming)
    (hn : r.neverStopped = false) : (roundOne r s).grp r.group
      = { s.grp r.group with
          epochSeen := max (s.grp r.group).epochSeen (r.claim / 256 % 2 ^ 24), held := false, raised := false
          st := if (s.grp r.group).gapped then .sync else .ready, gapped := false, barred := true } := by
  simp [roundOne, hraised, hst, hn]

end Sys2Proof.Machine
end

section
/-! SUPPORT. Frames of the Ixrardo links: HEARTBEAT, MIRROR and AUDIT (R73, R74, R442, R454, R458). -/

namespace Sys2Proof.Machine

variable {s : State} {link seq : Nat}

theorem exec_heartbeatReceive {m : Heartbeat} (ha : Acts s (ixrBlk m.link)) :
    exec (.heartbeatReceive m) s = .next (hbReceive m s) :=
  island_acts ha

theorem exec_ixrardoBadType_reserved {ver ty : Nat} (ha : Acts s (ixrBlk link)) (h : ver ≠ 1 ∨ ty = 0 ∨ 6 < ty) :
    exec (.ixrardoBadType link ver ty) s = .next (bump .ixrBadType link s) := by
  change execIxrardoBadType link ver ty s = _
  rw [execIxrardoBadType, island_acts ha, if_neg]
  simp only [Bool.and_eq_true, beq_iff_eq, decide_eq_true_eq]
  omega

theorem exec_ixrardoLinkChange {up : Bool} (ha : Acts s (ixrBlk link)) : exec (.ixrardoLinkChange link up) s =
    .next (if up && !s.ixrLocked link then s else ixrLink link up s) := by
  change execIxrardoLinkChange link up s = _
  rw [execIxrardoLinkChange, island_acts ha]

theorem exec_mirrorReceive {rs : List MirrorRec} (ha : Acts s 104) :
    exec (.mirrorReceive link seq rs) s = .next (mirrorReceive link seq rs s) :=
  island_acts ha

theorem ixrArrive_opt (link type seq : Nat) (s : State) : (ixrArrive link type seq s).2.opt = s.opt := by
  unfold ixrArrive
  extract_lets l gap l' lanes t
  change (if gap then bump .ixrSeqGap (16 * link + type) t else t).opt = s.opt
  split <;> rfl

/-- A standalone device counts a gap in a HEARTBEAT's sequence and takes nothing else of it. -/
theorem hbReceive_standalone {m : Heartbeat} (hr : s.stackRole = 0) : hbReceive m s =
    if (ixrArrive m.link 1 m.seq s).1 then bump .hbGap m.link (ixrArrive m.link 1 m.seq s).2
    else (ixrArrive m.link 1 m.seq s).2 := by
  have hopt : (if (ixrArrive m.link 1 m.seq s).1 then bump .hbGap m.link (ixrArrive m.link 1 m.seq s).2
      else (ixrArrive m.link 1 m.seq s).2).stackRole = 0 := by
    rw [← hr, State.stackRole, State.stackRole, ← ixrArrive_opt m.link 1 m.seq s]
    split <;> rfl
  exact if_pos hopt

/-- Without a gap the records of a MIRROR frame are applied one after the other (R454). -/
theorem mirrorReceive_inOrder {rs : List MirrorRec} (h : (ixrArrive link 6 seq s).1 = false) :
    mirrorReceive link seq rs s = rs.foldl (fun s r => mirrorOne r s) { (ixrArrive link 6 seq s).2 with
      prot := { (ixrArrive link 6 seq s).2.prot with mirRx := some (seq % 65536) } } := by
  unfold mirrorReceive
  simp [h]

theorem mirrorReceive_empty : mirrorReceive link seq [] s =
    let z := ixrArrive link 6 seq s
    let w := { z.2 with
      prot := { z.2.prot with mirRx := some (seq % 65536) } }
    if z.1 then (Tab.keys w.prot.grp).foldl (fun s k => toSync k s) (bump .mirrorGap 0 w) else w := rfl

/-- A standby takes note of the audit that is announced to it. -/
theorem auditReceive_announced {k sfc mseq : Nat} {cs : Tab Nat} {st : GrpSt} (hst : st = .sync ∨ st = .ready)
    (hk : ((ixrArrive link 5 seq s).2.grp k).st = st) : auditReceive link seq k false sfc mseq cs s =
      onGrp k (fun p => { p with audit := some { sfcA := sfc, mirrorSeq := mseq } }) (ixrArrive link 5 seq s).2 := by
  rcases hst with rfl | rfl <;> simp [auditReceive, hk]

end Sys2Proof.Machine
end

section
/-! SUPPORT. Audit intervals, promotion, the settle time and the drill watch (R455, R458, R459). -/

namespace Sys2Proof.Machine

variable {s : State} {t : Nat}

theorem exec_auditInterval (ha : Acts s 104) : exec .auditInterval s =
    .next (if s.clk.now < s.prot.auditAt then s
      else auditAll { s with prot := { s.prot with auditAt := s.clk.now + secT (s.paramN 0xC031 0) } }) := by
  change execAuditInterval s = _
  rw [execAuditInterval, island_acts ha]

theorem auditAll_single {x : ProtGrp} (hg : s.prot.grp = [(t, x)]) (hx : x.st = .active) :
    auditAll s = auditStart t (x.audit.bind (·.cmd)) s := by
  have hgrp : s.grp t = x := by simp [State.grp, hg, Tab.getD, Tab.get?]
  simp [auditAll, hg, Tab.keys, hgrp, hx]

theorem exec_promotion (ha : Acts s 104) : exec (.promotion t) s =
    .next (if (s.grp t).st == .promoting && decide ((s.grp t).wonAt + usT 20 + s.clk.ltb % 311040 ≤ s.clk.now)
      && decide (s.prot.heardM + 2 ≤ s.clk.sfc) then promote t s else s) := by
  change execPromotion t s = _
  rw [execPromotion, island_acts ha]

theorem exec_promotion_due (ha : Acts s 104) (hst : (s.grp t).st = .promoting)
    (hw : (s.grp t).wonAt + usT 20 + s.clk.ltb % 311040 ≤ s.clk.now) (hm : s.prot.heardM + 2 ≤ s.clk.sfc) :
    exec (.promotion t) s = .next (promote t s) := by
  rw [exec_promotion ha, if_pos (by simp [hst, hw, hm])]

theorem exec_promotion_notDue (ha : Acts s 104)
    (h : (s.grp t).st ≠ .promoting ∨ s.clk.sfc < s.prot.heardM + 2) : exec (.promotion t) s = .next s := by
  rw [exec_promotion ha, if_neg]
  rcases h with hst | hm
  · simp [hst]
  · simp [Nat.not_le.2 hm]

theorem exec_protSettleEnd (ha : Acts s 104) : exec (.protSettleEnd t) s =
    .next (if (s.grp t).settleEnd ≤ s.clk.sfc then onGrp t (fun p => { p with settleEnd := 0 }) s else s) := by
  change execProtSettleEnd t s = _
  rw [execProtSettleEnd, island_acts ha]

theorem exec_drillWatchEnd (ha : Acts s 104) : exec (.drillWatchEnd t) s =
    .next (if s.due (s.grp t).drillUntil then onGrp t (fun p => { p with drillUntil := none }) s else s) := by
  change execDrillWatchEnd t s = _
  rw [execDrillWatchEnd, island_acts ha]

end Sys2Proof.Machine
end

section
/-! PROOF. The statement on claims, heartbeats and promotion. -/

open Sys2Proof Sys2Proof.Machine

/-- Settles O55: each event by the lemma on its case. -/
theorem claimsHeartbeatsAndPromotion : Obligations.ClaimsHeartbeatsAndPromotion := by
  intro s t link seq ver ty sfc dg g stuck up r rs cs m x
  refine ⟨fun ha => ⟨exec_claimRoundEnd ha, roundEnd_void, fun hx hraised hst => ?round, fun hf hg => ?single,
      fun hf => ?faultStands, fun hf => ?faultComes, exec_claimBusFaultClear ha⟩,
    fun ha => ⟨exec_heartbeatReceive ha, hbReceive_standalone, exec_ixrardoBadType_reserved ha, fun hm => ?otherMode,
      fun hm => ?linkDown, fun hl => ?unlocked, fun hm hl => ?linkUp⟩,
    fun ha => ⟨⟨?mirrorEmpty, fun ms hz => ?mirror⟩, fun hn => ?auditEarly, fun hd => ?auditDue, auditAll_single,
      fun ht hx hst => ?announced, fun hst hw hm => ⟨exec_promotion_due ha hst hw hm, promote_active t s⟩,
      exec_promotion_notDue ha, fun hd => ?settled, fun hn => ?settling, fun hd => ?drillEnds, fun hn => ?drillRuns⟩⟩
  case round =>
    subst hx
    refine ⟨fun hn hp => ?_, fun hn hgap => ?_⟩
    · rw [roundOne_won hraised hst hn hp]
      exact ⟨rfl, rfl, rfl⟩
    · rw [roundOne_lost hraised hst hn, hgap]
      exact ⟨rfl, rfl, rfl, rfl⟩
  case single =>
    intro v hw
    rw [exec_claimRoundEnd ha, roundEnd_single hf hg hw]
  case faultStands => rw [exec_claimBusFault ha, if_pos hf]
  case faultComes => rw [exec_claimBusFault ha, if_neg (by simp [hf])]
  case otherMode => rw [exec_ixrardoLinkChange ha, ixrLink_otherMode hm, ite_self]
  case linkDown => exact (exec_ixrardoLinkChange ha).trans (congrArg _ (ixrLink_down hm))
  case unlocked => rw [exec_ixrardoLinkChange ha, if_pos (by simp [hl])]
  case linkUp => rw [exec_ixrardoLinkChange ha, if_neg (by simp [hl]), ixrLink_up hm]
  case mirrorEmpty => exact (exec_mirrorReceive ha).trans (congrArg _ mirrorReceive_empty)
  case mirror => exact (exec_mirrorReceive ha).trans (congrArg _ (mirrorReceive_inOrder hz))
  case auditEarly => rw [exec_auditInterval ha, if_pos hn]
  case auditDue => rw [exec_auditInterval ha, if_neg (Nat.not_lt.2 hd)]
  case announced =>
    intro z hz
    change execAuditReceive link seq t false sfc g dg cs s = _
    rw [execAuditReceive, island_acts ha, if_pos (by simp [ht])]
    exact congrArg _ (auditReceive_announced hst hz)
  case settled => rw [exec_protSettleEnd ha, if_pos hd]
  case settling => rw [exec_protSettleEnd ha, if_neg (Nat.not_le.2 hn)]
  case drillEnds => rw [exec_drillWatchEnd ha, if_pos hd]
  case drillRuns => rw [exec_drillWatchEnd ha, if_neg (by simp [hn])]

end

section
/-! SUPPORT. Every command keeps the clocks and the power state in their ranges and the queue as it is. -/

namespace Sys2Proof.Machine

/-- Most commands leave the clocks and the power state alone; the frame or range lemma of each meaning says which. -/
theorem exec_keep (i : Instr) (s : State) : Ran (Keep s) (exec i s) := by
  cases i with
  | powerOnReset => exact execPowerOnReset_keep
  | brownOut => exact execBrownOut_keep
  | vddAoFall => exact execVddAoFall_keep
  | ampRailRestart => exact (execAmpRailRestart_frame (.rfl' s)).keep
  | resetNAssert => exact execResetNAssert_keep
  | pciePerstPort0 => exact execPciePerstPort0_keep
  | pciePerstPort1 => exact (execPciePerstPort1_frame (.rfl' s)).keep
  | resetSourceRelease => exact execResetSourceRelease_keep
  | clocksPresentCheckEnd => exact (execClocksPresentCheckEnd_frame (.rfl' s)).keep
  | islandLateClockRelease => exact (execIslandLateClockRelease_frame (.rfl' s)).keep
  | strapSample => exact (execStrapSample_frame (.rfl' s)).keep
  | optionCommit => exact execOptionCommit_keep
  | hbmTrainingDone => exact (execHbmTrainingDone_frame (.rfl' s)).keep
  | bootLoadDone => exact (execBootLoadDone_frame (.rfl' s)).keep
  | bexedWatchdogExpiry => exact execBexedWatchdogExpiry_keep
  | deviceWatchdogExpiry => exact execDeviceWatchdogExpiry_keep
  | blockResetRelease => exact (execBlockResetRelease_frame (.rfl' s)).keep
  | ledgerSweepDone => exact (execLedgerSweepDone_frame (.rfl' s)).keep
  | orphanSweepDone => exact (execOrphanSweepDone_frame (.rfl' s)).keep
  | resetReqCore => exact execResetReqCore_keep
  | resetReqSystem => exact execResetReqSystem_keep
  | resetCauseClear => exact (execResetCauseClear_frame (.rfl' s)).keep
  | klRingEnable => exact (execKlRingEnable_frame (.rfl' s)).keep
  | klRingDisable => exact (execKlRingDisable_frame (.rfl' s)).keep
  | klCmdDoorbell => exact (execKlCmdDoorbell_frame (.rfl' s)).keep
  | klCommandFetch => exact (execKlCommandFetch_frame (.rfl' s)).keep
  | klCplHeadWrite => exact (execKlCplHeadWrite_frame (.rfl' s)).keep
  | klEvtHeadWrite => exact (execKlEvtHeadWrite_frame (.rfl' s)).keep
  | klEvtLostRead => exact (execKlEvtLostRead_frame (.rfl' s)).keep
  | faultStatusClear => exact (execFaultStatusClear_frame (.rfl' s)).keep
  | faultFirstClear => exact (execFaultFirstClear_frame (.rfl' s)).keep
  | faultMaskWrite => exact (execFaultMaskWrite_frame (.rfl' s)).keep
  | faultInjectWrite => exact (execFaultInjectWrite_frame (.rfl' s)).keep
  | faultDetect => exact (execFaultDetect_frame (.rfl' s)).keep
  | bar0BadAccess => exact (execBar0BadAccess_frame (.rfl' s)).keep
  | registerWrite => exact (execRegisterWrite_frame (.rfl' s)).keep
  | flrPf0 => exact (execFlrPf0_frame (.rfl' s)).keep
  | flrPf1 => exact (execFlrPf1_frame (.rfl' s)).keep
  | flrPf2 => exact (execFlrPf2_frame (.rfl' s)).keep
  | pf1RingEnable => exact (execPf1RingEnable_frame (.rfl' s)).keep
  | puntRingDoorbell => exact (execPuntRingDoorbell_frame (.rfl' s)).keep
  | injectRingDoorbell => exact (execInjectRingDoorbell_frame (.rfl' s)).keep
  | ringDropsRead => exact (execRingDropsRead_frame (.rfl' s)).keep
  | puntDelivery => exact (execPuntDelivery_frame (.rfl' s)).keep
  | ampCmdDoorbell => exact (execAmpCmdDoorbell_frame (.rfl' s)).keep
  | nop => exact (execNop_frame (.rfl' s)).keep
  | deviceInfo => exact (execDeviceInfo_frame (.rfl' s)).keep
  | deviceReset => exact execDeviceReset_keep
  | coreReset => exact execCoreReset_keep
  | blockReset => exact (execBlockReset_frame (.rfl' s)).keep
  | paramGet => exact (execParamGet_frame (.rfl' s)).keep
  | paramSet => exact execParamSet_keep
  | paramDescribe => exact (execParamDescribe_frame (.rfl' s)).keep
  | paramNext => exact (execParamNext_frame (.rfl' s)).keep
  | ledgerAudit => exact (execLedgerAudit_frame (.rfl' s)).keep
  | bexedImageLoad => exact (execBexedImageLoad_frame (.rfl' s)).keep
  | bexedRestart => exact (execBexedRestart_frame (.rfl' s)).keep
  | bexedTakeover => exact (execBexedTakeover_frame (.rfl' s)).keep
  | bexedRestartTimeout => exact (execBexedRestartTimeout_frame (.rfl' s)).keep
  | bexedStatus => exact (execBexedStatus_frame (.rfl' s)).keep
  | channelEnable => exact (execChannelEnable_frame (.rfl' s)).keep
  | ladderRungSuccess => exact (execLadderRungSuccess_frame (.rfl' s)).keep
  | ladderRungTimeout => exact (execLadderRungTimeout_frame (.rfl' s)).keep
  | laneTransitionDone => exact (execLaneTransitionDone_frame (.rfl' s)).keep
  | channelDisable => exact (execChannelDisable_frame (.rfl' s)).keep
  | phaseMemoryRead => exact (execPhaseMemoryRead_frame (.rfl' s)).keep
  | moduleRead => exact (execModuleRead_frame (.rfl' s)).keep
  | moduleWrite => exact (execModuleWrite_frame (.rfl' s)).keep
  | i3cPoll => exact (execI3cPoll_frame (.rfl' s)).keep
  | i3cTransferDone => exact (execI3cTransferDone_frame (.rfl' s)).keep
  | i3cInBandInterrupt => exact (execI3cInBandInterrupt_frame (.rfl' s)).keep
  | tributaryCreate => exact (execTributaryCreate_frame (.rfl' s)).keep
  | tributaryStatus => exact (execTributaryStatus_frame (.rfl' s)).keep
  | tributaryResize => exact (execTributaryResize_frame (.rfl' s)).keep
  | tributaryMove => exact (execTributaryMove_frame (.rfl' s)).keep
  | tributaryDelete => exact (execTributaryDelete_frame (.rfl' s)).keep
  | slotMapLoad => exact (execSlotMapLoad_frame (.rfl' s)).keep
  | slotMapCommit => exact (execSlotMapCommit_frame (.rfl' s)).keep
  | slotMapCheckDone => exact (execSlotMapCheckDone_frame (.rfl' s)).keep
  | slotMapWithdraw => exact (execSlotMapWithdraw_frame (.rfl' s)).keep
  | tribFeedWrite => exact (execTribFeedWrite_frame (.rfl' s)).keep
  | tribDefectEval => exact (execTribDefectEval_frame (.rfl' s)).keep
  | onuCreate => exact (execOnuCreate_frame (.rfl' s)).keep
  | onuDestroy => exact (execOnuDestroy_frame (.rfl' s)).keep
  | onuStatus => exact (execOnuStatus_frame (.rfl' s)).keep
  | onuRangeRead => exact (execOnuRangeRead_frame (.rfl' s)).keep
  | onuAccept => exact (execOnuAccept_frame (.rfl' s)).keep
  | onuReject => exact (execOnuReject_frame (.rfl' s)).keep
  | onuDeactivate => exact (execOnuDeactivate_frame (.rfl' s)).keep
  | onuDisable => exact (execOnuDisable_frame (.rfl' s)).keep
  | onuEnable => exact (execOnuEnable_frame (.rfl' s)).keep
  | onuEnableAll => exact (execOnuEnableAll_frame (.rfl' s)).keep
  | onuRetune => exact (execOnuRetune_frame (.rfl' s)).keep
  | onuPin => exact (execOnuPin_frame (.rfl' s)).keep
  | onuLadderRestart => exact (execOnuLadderRestart_frame (.rfl' s)).keep
  | serialNumberWindow => exact (execSerialNumberWindow_frame (.rfl' s)).keep
  | serialNumberOnu => exact (execSerialNumberOnu_frame (.rfl' s)).keep
  | snWindowEnd => exact (execSnWindowEnd_frame (.rfl' s)).keep
  | rangingBurst => exact (execRangingBurst_frame (.rfl' s)).keep
  | rangingWindowEnd => exact (execRangingWindowEnd_frame (.rfl' s)).keep
  | acknowledgement => exact (execAcknowledgement_frame (.rfl' s)).keep
  | registration => exact (execRegistration_frame (.rfl' s)).keep
  | extCapability => exact (execExtCapability_frame (.rfl' s)).keep
  | keyReport => exact (execKeyReport_frame (.rfl' s)).keep
  | tuningResponse => exact (execTuningResponse_frame (.rfl' s)).keep
  | sleepRequest => exact (execSleepRequest_frame (.rfl' s)).keep
  | ploamUnsupported => exact (execPloamUnsupported_frame (.rfl' s)).keep
  | ploamAnswerTimeout => exact (execPloamAnswerTimeout_frame (.rfl' s)).keep
  | extendingTimeout => exact (execExtendingTimeout_frame (.rfl' s)).keep
  | authTimeout => exact (execAuthTimeout_frame (.rfl' s)).keep
  | lostTimeout => exact (execLostTimeout_frame (.rfl' s)).keep
  | onuIdQuarantineEnd => exact (execOnuIdQuarantineEnd_frame (.rfl' s)).keep
  | tuningResponseTimeout => exact (execTuningResponseTimeout_frame (.rfl' s)).keep
  | tuneArrivalTimeout => exact (execTuneArrivalTimeout_frame (.rfl' s)).keep
  | ladderAckTimeout => exact (execLadderAckTimeout_frame (.rfl' s)).keep
  | ladderTrialEnd => exact (execLadderTrialEnd_frame (.rfl' s)).keep
  | ladderRetry => exact (execLadderRetry_frame (.rfl' s)).keep
  | balanceInterval => exact (execBalanceInterval_frame (.rfl' s)).keep
  | mapBudgetSet => exact (execMapBudgetSet_frame (.rfl' s)).keep
  | fixedPatternLoad => exact (execFixedPatternLoad_frame (.rfl' s)).keep
  | fixedPatternRead => exact (execFixedPatternRead_frame (.rfl' s)).keep
  | mapPageRead => exact (execMapPageRead_frame (.rfl' s)).keep
  | mapStats => exact (execMapStats_frame (.rfl' s)).keep
  | onuGrantStats => exact (execOnuGrantStats_frame (.rfl' s)).keep
  | allocCreate => exact (execAllocCreate_frame (.rfl' s)).keep
  | allocModify => exact (execAllocModify_frame (.rfl' s)).keep
  | allocDestroy => exact (execAllocDestroy_frame (.rfl' s)).keep
  | allocStatus => exact (execAllocStatus_frame (.rfl' s)).keep
  | mapPolicySet => exact (execMapPolicySet_frame (.rfl' s)).keep
  | mapPolicyGet => exact (execMapPolicyGet_frame (.rfl' s)).keep
  | mapHints => exact (execMapHints_frame (.rfl' s)).keep
  | grantLatencyBind => exact (execGrantLatencyBind_frame (.rfl' s)).keep
  | marverImageLoad => exact (execMarverImageLoad_frame (.rfl' s)).keep
  | marverImageActivate => exact (execMarverImageActivate_frame (.rfl' s)).keep
  | marverStatus => exact (execMarverStatus_frame (.rfl' s)).keep
  | superframeBoundary => exact execSuperframeBoundary_keep
  | mapCommit => exact (execMapCommit_frame (.rfl' s)).keep
  | compileDeadline => exact (execCompileDeadline_frame (.rfl' s)).keep
  | mapPageCheckDone => exact (execMapPageCheckDone_frame (.rfl' s)).keep
  | hintPublish => exact (execHintPublish_frame (.rfl' s)).keep
  | marverCoreTrap => exact (execMarverCoreTrap_frame (.rfl' s)).keep
  | marverWatchEnd => exact (execMarverWatchEnd_frame (.rfl' s)).keep
  | bufferReportArrival => exact (execBufferReportArrival_frame (.rfl' s)).keep
  | phaseMemoryLoad => exact (execPhaseMemoryLoad_frame (.rfl' s)).keep
  | burstReception => exact (execBurstReception_frame (.rfl' s)).keep
  | decryptVerify => exact (execDecryptVerify_frame (.rfl' s)).keep
  | decryptRelease => exact (execDecryptRelease_frame (.rfl' s)).keep
  | reasmTimeout => exact (execReasmTimeout_frame (.rfl' s)).keep
  | upstreamEvaluation => exact (execUpstreamEvaluation_frame (.rfl' s)).keep
  | sdbIntervalEnd => exact (execSdbIntervalEnd_frame (.rfl' s)).keep
  | dyingGaspExpiry => exact (execDyingGaspExpiry_frame (.rfl' s)).keep
  | sidebandFrameReceive => exact (execSidebandFrameReceive_frame (.rfl' s)).keep
  | rssiResult => exact (execRssiResult_frame (.rfl' s)).keep
  | sigDetect => exact (execSigDetect_frame (.rfl' s)).keep
  | txFault => exact (execTxFault_frame (.rfl' s)).keep
  | modPresent => exact (execModPresent_frame (.rfl' s)).keep
  | late => exact (execLate_frame (.rfl' s)).keep
  | echo => exact (execEcho_frame (.rfl' s)).keep
  | sblBadEvent => exact (execSblBadEvent_frame (.rfl' s)).keep
  | sidebandCalibration => exact (execSidebandCalibration_frame (.rfl' s)).keep
  | uplinkFrameArrival => exact (execUplinkFrameArrival_frame (.rfl' s)).keep
  | uplinkBlockLock => exact (execUplinkBlockLock_frame (.rfl' s)).keep
  | ingressPass => exact (execIngressPass_frame (.rfl' s)).keep
  | fragHoldTimeout => exact (execFragHoldTimeout_frame (.rfl' s)).keep
  | fragEntryExpiry => exact (execFragEntryExpiry_frame (.rfl' s)).keep
  | cellFree => exact (execCellFree_frame (.rfl' s)).keep
  | descriptorArrival => exact (execDescriptorArrival_frame (.rfl' s)).keep
  | dequeueWalk => exact (execDequeueWalk_frame (.rfl' s)).keep
  | dbufFlushTimeout => exact (execDbufFlushTimeout_frame (.rfl' s)).keep
  | dbufPageWriteDone => exact (execDbufPageWriteDone_frame (.rfl' s)).keep
  | dbufPageReadDone => exact (execDbufPageReadDone_frame (.rfl' s)).keep
  | lagReorderTimeout => exact (execLagReorderTimeout_frame (.rfl' s)).keep
  | lagMemberDown => exact (execLagMemberDown_frame (.rfl' s)).keep
  | lagMemberUp => exact (execLagMemberUp_frame (.rfl' s)).keep
  | uplinkFrameTransmit => exact (execUplinkFrameTransmit_frame (.rfl' s)).keep
  | facetImageLoad => exact (execFacetImageLoad_frame (.rfl' s)).keep
  | facetImageCommit => exact (execFacetImageCommit_frame (.rfl' s)).keep
  | facetImageWithdraw => exact (execFacetImageWithdraw_frame (.rfl' s)).keep
  | facetImageSwap => exact (execFacetImageSwap_frame (.rfl' s)).keep
  | facetEpochBoundary => exact (execFacetEpochBoundary_frame (.rfl' s)).keep
  | facetSwapTimeout => exact (execFacetSwapTimeout_frame (.rfl' s)).keep
  | facetEpochDrain => exact (execFacetEpochDrain_frame (.rfl' s)).keep
  | facetEntryInsert => exact (execFacetEntryInsert_frame (.rfl' s)).keep
  | facetEntryDelete => exact (execFacetEntryDelete_frame (.rfl' s)).keep
  | facetEntryRead => exact (execFacetEntryRead_frame (.rfl' s)).keep
  | facetEpochStatus => exact (execFacetEpochStatus_frame (.rfl' s)).keep
  | facetThrottleSample => exact (execFacetThrottleSample_frame (.rfl' s)).keep
  | cascadeEnable => exact (execCascadeEnable_frame (.rfl' s)).keep
  | matchTrainingEnd => exact (execMatchTrainingEnd_frame (.rfl' s)).keep
  | cascadeKeyReceive => exact (execCascadeKeyReceive_frame (.rfl' s)).keep
  | matchSymbol => exact (execMatchSymbol_frame (.rfl' s)).keep
  | cascadeResultReceive => exact (execCascadeResultReceive_frame (.rfl' s)).keep
  | cascadeTimeout => exact (execCascadeTimeout_frame (.rfl' s)).keep
  | lagCreate => exact (execLagCreate_frame (.rfl' s)).keep
  | lagMemberSet => exact (execLagMemberSet_frame (.rfl' s)).keep
  | lagDestroy => exact (execLagDestroy_frame (.rfl' s)).keep
  | lagStatus => exact (execLagStatus_frame (.rfl' s)).keep
  | classStats => exact (execClassStats_frame (.rfl' s)).keep
  | tableInsert => exact (execTableInsert_frame (.rfl' s)).keep
  | tableDelete => exact (execTableDelete_frame (.rfl' s)).keep
  | tableSearch => exact (execTableSearch_frame (.rfl' s)).keep
  | tableWalkOpen => exact (execTableWalkOpen_frame (.rfl' s)).keep
  | tableNext => exact (execTableNext_frame (.rfl' s)).keep
  | tableWalkClose => exact (execTableWalkClose_frame (.rfl' s)).keep
  | tableWalkTimeout => exact (execTableWalkTimeout_frame (.rfl' s)).keep
  | tableFlushByPort => exact (execTableFlushByPort_frame (.rfl' s)).keep
  | tableStats => exact (execTableStats_frame (.rfl' s)).keep
  | tableWriteApply => exact (execTableWriteApply_frame (.rfl' s)).keep
  | learnTake => exact (execLearnTake_frame (.rfl' s)).keep
  | agerSweep => exact (execAgerSweep_frame (.rfl' s)).keep
  | conditionalInvalidation => exact (execConditionalInvalidation_frame (.rfl' s)).keep
  | parityRepair => exact (execParityRepair_frame (.rfl' s)).keep
  | poolStatus => exact (execPoolStatus_frame (.rfl' s)).keep
  | poolQuotaSet => exact (execPoolQuotaSet_frame (.rfl' s)).keep
  | poolCellRead => exact (execPoolCellRead_frame (.rfl' s)).keep
  | dbufProfileSet => exact (execDbufProfileSet_frame (.rfl' s)).keep
  | dbufStatus => exact (execDbufStatus_frame (.rfl' s)).keep
  | queueBufferStatus => exact (execQueueBufferStatus_frame (.rfl' s)).keep
  | dbufPageRead => exact (execDbufPageRead_frame (.rfl' s)).keep
  | queueCreate => exact (execQueueCreate_frame (.rfl' s)).keep
  | queueModify => exact (execQueueModify_frame (.rfl' s)).keep
  | queueMove => exact (execQueueMove_frame (.rfl' s)).keep
  | vertexMove => exact (execVertexMove_frame (.rfl' s)).keep
  | queueDelete => exact (execQueueDelete_frame (.rfl' s)).keep
  | queueStatus => exact (execQueueStatus_frame (.rfl' s)).keep
  | vertexCreate => exact (execVertexCreate_frame (.rfl' s)).keep
  | vertexModify => exact (execVertexModify_frame (.rfl' s)).keep
  | vertexStatus => exact (execVertexStatus_frame (.rfl' s)).keep
  | vertexDelete => exact (execVertexDelete_frame (.rfl' s)).keep
  | lenProfileSet => exact (execLenProfileSet_frame (.rfl' s)).keep
  | policerSet => exact (execPolicerSet_frame (.rfl' s)).keep
  | policerStatus => exact (execPolicerStatus_frame (.rfl' s)).keep
  | gateListLoad => exact (execGateListLoad_frame (.rfl' s)).keep
  | gateListCommit => exact (execGateListCommit_frame (.rfl' s)).keep
  | gateListWithdraw => exact (execGateListWithdraw_frame (.rfl' s)).keep
  | gateStatus => exact (execGateStatus_frame (.rfl' s)).keep
  | gateListStart => exact (execGateListStart_frame (.rfl' s)).keep
  | gateWindowOpen => exact (execGateWindowOpen_frame (.rfl' s)).keep
  | portQueueSet => exact (execPortQueueSet_frame (.rfl' s)).keep
  | queueSampleBind => exact (execQueueSampleBind_frame (.rfl' s)).keep
  | schedStats => exact (execSchedStats_frame (.rfl' s)).keep
  | queueSample => exact (execQueueSample_frame (.rfl' s)).keep
  | onuMasterKeySet => exact (execOnuMasterKeySet_frame (.rfl' s)).keep
  | onuRekey => exact (execOnuRekey_frame (.rfl' s)).keep
  | keyStatus => exact (execKeyStatus_frame (.rfl' s)).keep
  | broadcastKeySet => exact (execBroadcastKeySet_frame (.rfl' s)).keep
  | cipherParamSet => exact (execCipherParamSet_frame (.rfl' s)).keep
  | keKeyLoad => exact (execKeKeyLoad_frame (.rfl' s)).keep
  | keKeyUnwrap => exact (execKeKeyUnwrap_frame (.rfl' s)).keep
  | keKeyClear => exact (execKeKeyClear_frame (.rfl' s)).keep
  | keEncrypt => exact (execKeEncrypt_frame (.rfl' s)).keep
  | keDecrypt => exact (execKeDecrypt_frame (.rfl' s)).keep
  | keStatus => exact (execKeStatus_frame (.rfl' s)).keep
  | keLockGrant => exact (execKeLockGrant_frame (.rfl' s)).keep
  | keJobDone => exact (execKeJobDone_frame (.rfl' s)).keep
  | rngFail => exact (execRngFail_frame (.rfl' s)).keep
  | crcScanStart => exact (execCrcScanStart_frame (.rfl' s)).keep
  | crcScanPause => exact (execCrcScanPause_frame (.rfl' s)).keep
  | crcScanStatus => exact (execCrcScanStatus_frame (.rfl' s)).keep
  | crcScanDone => exact (execCrcScanDone_frame (.rfl' s)).keep
  | cipherStats => exact (execCipherStats_frame (.rfl' s)).keep
  | rekeyInterval => exact (execRekeyInterval_frame (.rfl' s)).keep
  | rekeyRetry => exact (execRekeyRetry_frame (.rfl' s)).keep
  | keyFragmentTimeout => exact (execKeyFragmentTimeout_frame (.rfl' s)).keep
  | keyRetire => exact (execKeyRetire_frame (.rfl' s)).keep
  | timeStatus => exact (execTimeStatus_frame (.rfl' s)).keep
  | timeSet => exact (execTimeSet_frame (.rfl' s)).keep
  | timeSourceSet => exact (execTimeSourceSet_frame (.rfl' s)).keep
  | timeParamSet => exact (execTimeParamSet_frame (.rfl' s)).keep
  | ptpPortSet => exact (execPtpPortSet_frame (.rfl' s)).keep
  | ptpPortStatus => exact (execPtpPortStatus_frame (.rfl' s)).keep
  | ptpClockStatus => exact (execPtpClockStatus_frame (.rfl' s)).keep
  | asymSet => exact (execAsymSet_frame (.rfl' s)).keep
  | todPairRead => exact (execTodPairRead_frame (.rfl' s)).keep
  | pulseOutSet => exact (execPulseOutSet_frame (.rfl' s)).keep
  | ppsInSet => exact (execPpsInSet_frame (.rfl' s)).keep
  | servoUpdate => exact execServoUpdate_keep
  | wtrExpiry => exact (execWtrExpiry_frame (.rfl' s)).keep
  | refclkLoss => exact (execRefclkLoss_frame (.rfl' s)).keep
  | refclkQualify => exact (execRefclkQualify_frame (.rfl' s)).keep
  | refclkBReturn => exact (execRefclkBReturn_frame (.rfl' s)).keep
  | ppsInEdge => exact (execPpsInEdge_frame (.rfl' s)).keep
  | todInMessage => exact (execTodInMessage_frame (.rfl' s)).keep
  | ppsInMiss => exact (execPpsInMiss_frame (.rfl' s)).keep
  | timeSourceLoss => exact (execTimeSourceLoss_frame (.rfl' s)).keep
  | ptpMessageReceive => exact (execPtpMessageReceive_frame (.rfl' s)).keep
  | ptpMessageSend => exact (execPtpMessageSend_frame (.rfl' s)).keep
  | announceReceiptTimeout => exact (execAnnounceReceiptTimeout_frame (.rfl' s)).keep
  | ixrSyncSend => exact (execIxrSyncSend_frame (.rfl' s)).keep
  | ixrTimeReceive => exact (execIxrTimeReceive_frame (.rfl' s)).keep
  | ixrRespTimeout => exact (execIxrRespTimeout_frame (.rfl' s)).keep
  | ppsOutEdge => exact (execPpsOutEdge_frame (.rfl' s)).keep
  | todOutMessage => exact (execTodOutMessage_frame (.rfl' s)).keep
  | timeRecordToAmpoule => exact (execTimeRecordToAmpoule_frame (.rfl' s)).keep
  | tapDrain => exact (execTapDrain_frame (.rfl' s)).keep
  | bindingNotice => exact (execBindingNotice_frame (.rfl' s)).keep
  | evidenceMinute => exact (execEvidenceMinute_frame (.rfl' s)).keep
  | timeGap => exact (execTimeGap_frame (.rfl' s)).keep
  | ampSealPinChange => exact (execAmpSealPinChange_frame (.rfl' s)).keep
  | sealOpenTimeout => exact (execSealOpenTimeout_frame (.rfl' s)).keep
  | sealBurnDone => exact (execSealBurnDone_frame (.rfl' s)).keep
  | ampouleIdentity => exact (execAmpouleIdentity_frame (.rfl' s)).keep
  | ampouleEvidenceRead => exact (execAmpouleEvidenceRead_frame (.rfl' s)).keep
  | ampouleMeterRead => exact (execAmpouleMeterRead_frame (.rfl' s)).keep
  | ampouleLogRead => exact (execAmpouleLogRead_frame (.rfl' s)).keep
  | ampouleLogAck => exact (execAmpouleLogAck_frame (.rfl' s)).keep
  | ampouleCheckpoint => exact (execAmpouleCheckpoint_frame (.rfl' s)).keep
  | ampouleSealOpen => exact (execAmpouleSealOpen_frame (.rfl' s)).keep
  | ampouleParamStage => exact (execAmpouleParamStage_frame (.rfl' s)).keep
  | ampouleSealCommit => exact (execAmpouleSealCommit_frame (.rfl' s)).keep
  | ampouleSealAbort => exact (execAmpouleSealAbort_frame (.rfl' s)).keep
  | protEnable => exact (execProtEnable_frame (.rfl' s)).keep
  | protDisable => exact (execProtDisable_frame (.rfl' s)).keep
  | protActivate => exact (execProtActivate_frame (.rfl' s)).keep
  | protSwitch => exact (execProtSwitch_frame (.rfl' s)).keep
  | protAuditNow => exact (execProtAuditNow_frame (.rfl' s)).keep
  | protStatus => exact (execProtStatus_frame (.rfl' s)).keep
  | spareSet => exact (execSpareSet_frame (.rfl' s)).keep
  | channelSpare => exact (execChannelSpare_frame (.rfl' s)).keep
  | stackStatus => exact (execStackStatus_frame (.rfl' s)).keep
  | heartbeatReceive => exact (execHeartbeatReceive_frame (.rfl' s)).keep
  | ixrardoBadType => exact (execIxrardoBadType_frame (.rfl' s)).keep
  | ixrardoLinkChange => exact (execIxrardoLinkChange_frame (.rfl' s)).keep
  | claimRoundEnd => exact (execClaimRoundEnd_frame (.rfl' s)).keep
  | claimBusFault => exact (execClaimBusFault_frame (.rfl' s)).keep
  | claimBusFaultClear => exact (execClaimBusFaultClear_frame (.rfl' s)).keep
  | promotion => exact (execPromotion_frame (.rfl' s)).keep
  | protSettleEnd => exact (execProtSettleEnd_frame (.rfl' s)).keep
  | mirrorReceive => exact (execMirrorReceive_frame (.rfl' s)).keep
  | auditInterval => exact (execAuditInterval_frame (.rfl' s)).keep
  | auditReceive => exact (execAuditReceive_frame (.rfl' s)).keep
  | drillWatchEnd => exact (execDrillWatchEnd_frame (.rfl' s)).keep
  | powerStatus => exact (execPowerStatus_frame (.rfl' s)).keep
  | domainPowerSet => exact execDomainPowerSet_keep
  | domainPowerUpDone => exact execDomainPowerUpDone_keep
  | powerCapSet => exact execPowerCapSet_keep
  | sagStatus => exact (execSagStatus_frame (.rfl' s)).keep
  | optionImageRead => exact (execOptionImageRead_frame (.rfl' s)).keep
  | optionImageWrite => exact (execOptionImageWrite_frame (.rfl' s)).keep
  | optionStoreWriteDone => exact (execOptionStoreWriteDone_frame (.rfl' s)).keep
  | optionStatus => exact (execOptionStatus_frame (.rfl' s)).keep
  | bootImageWrite => exact (execBootImageWrite_frame (.rfl' s)).keep
  | bootImageStatus => exact (execBootImageStatus_frame (.rfl' s)).keep
  | sagStageRise => exact execSagStageRise_keep
  | sagStageFall => exact execSagStageFall_keep
  | powerEstimate => exact execPowerEstimate_keep
  | ledgerWindowClose => exact (execLedgerWindowClose_frame (.rfl' s)).keep
  | faultSummary => exact (execFaultSummary_frame (.rfl' s)).keep
  | sampleConfig => exact (execSampleConfig_frame (.rfl' s)).keep
  | sampleStart => exact (execSampleStart_frame (.rfl' s)).keep
  | sampleStop => exact (execSampleStop_frame (.rfl' s)).keep
  | sampleRead => exact (execSampleRead_frame (.rfl' s)).keep
  | bwWindowSet => exact (execBwWindowSet_frame (.rfl' s)).keep
  | bwWindowRead => exact (execBwWindowRead_frame (.rfl' s)).keep
  | bwWindowEnd => exact (execBwWindowEnd_frame (.rfl' s)).keep
  | histogramConfig => exact (execHistogramConfig_frame (.rfl' s)).keep
  | histogramRead => exact (execHistogramRead_frame (.rfl' s)).keep
  | histogramClear => exact (execHistogramClear_frame (.rfl' s)).keep
  | histogramRelease => exact (execHistogramRelease_frame (.rfl' s)).keep
  | annealRun => exact (execAnnealRun_frame (.rfl' s)).keep
  | annealStatus => exact (execAnnealStatus_frame (.rfl' s)).keep
  | annealPlanRead => exact (execAnnealPlanRead_frame (.rfl' s)).keep
  | monitorRead => exact (execMonitorRead_frame (.rfl' s)).keep
  | annealRunStart => exact (execAnnealRunStart_frame (.rfl' s)).keep
  | annealMeasureDone => exact (execAnnealMeasureDone_frame (.rfl' s)).keep
  | annealTargetSettle => exact (execAnnealTargetSettle_frame (.rfl' s)).keep
  | annealPlanWritten => exact (execAnnealPlanWritten_frame (.rfl' s)).keep
  | rxThresholdSet => exact (execRxThresholdSet_frame (.rfl' s)).keep
  | onuRxStats => exact (execOnuRxStats_frame (.rfl' s)).keep
  | lanePllLockChange => exact (execLanePllLockChange_frame (.rfl' s)).keep
  | portAdminStateChange => exact (execPortAdminStateChange_frame (.rfl' s)).keep
  | irqHoldoffExpiry => exact (execIrqHoldoffExpiry_frame (.rfl' s)).keep
  | cascadeFrameClose => exact (execCascadeFrameClose_frame (.rfl' s)).keep

/-- The ranges and the well-formed queue carry over to a state that keeps them. -/
theorem State.Inv.of_keep {s t : State} (hs : s.Inv) (h : Keep s t) : t.Inv := by
  obtain ⟨hclk, hpwr, hwf⟩ := hs
  exact ⟨h.clk hclk, h.pwr hpwr, h.pending.symm ▸ hwf⟩

/-- Taking the front command off the queue keeps the invariant. -/
theorem State.Inv.tail {s : State} {c : Instr} {cs : List Instr} (hs : s.Inv) (hq : s.pending = c :: cs) :
    State.Inv { s with pending := cs } := by
  obtain ⟨hclk, hpwr, hwf⟩ := hs
  rw [hq, List.all_cons, Bool.and_eq_true] at hwf
  exact ⟨hclk, hpwr, hwf.2⟩

theorem step_idle {s : State} (hq : s.pending = []) : step s = .next (tick s) := by
  simp only [step, hq]

theorem step_front {s : State} {c : Instr} {cs : List Instr} (hq : s.pending = c :: cs) :
    step s = exec c { s with pending := cs } := by
  simp only [step, hq]

end Sys2Proof.Machine
end

section
/-! PROOF. The statements on one step: the invariant, and the idle tick. -/

open Sys2Proof Sys2Proof.Machine

/-- Settles O4: an idle tick and every command keep the ranges and the queue, and a queue's tail is well formed. -/
theorem everyStepKeepsInvariant : Obligations.EveryStepKeepsInvariant := by
  intro s t hs ht
  cases hq : s.pending with
  | nil =>
    rw [step_idle hq] at ht
    cases ht
    exact hs.of_keep tick_keep
  | cons c cs =>
    rw [step_front hq] at ht
    exact (hs.tail hq).of_keep (exec_keep c _ t ht)

/-- Settles O2: the tick of an empty queue, by whether TIME is up and a superframe boundary is next. -/
theorem idleStepAdvancesTime : Obligations.IdleStepAdvancesTime := by
  intro s hq
  rw [step_idle hq, tick]
  refine ⟨fun hdown => ?reset, fun hup hlast => ?boundary, fun hup hlast => ?within⟩
  case reset => simp [hdown]
  case boundary => simp [hup, hlast]
  case within => simp [hup, hlast]

end

section
/-! SUPPORT. The commands on tributaries (R83, R105 to R107, R130, R489). -/

namespace Sys2Proof.Machine

variable {s : State} {q : Req} {i n fill g : Nat} {a : TribArgs} {t : Trib} {x : Alloc} {o : Onu}

theorem exec_tributaryCreate : exec (.tributaryCreate q i a) s = execTributaryCreate q i a s := rfl

theorem exec_tributaryStatus : exec (.tributaryStatus q i) s = execTributaryStatus q i s := rfl

theorem exec_tributaryResize : exec (.tributaryResize q i n fill) s = execTributaryResize q i n fill s := rfl

theorem exec_tributaryMove : exec (.tributaryMove q i g) s = execTributaryMove q i g s := rfl

theorem exec_tributaryDelete : exec (.tributaryDelete q i) s = execTributaryDelete q i s := rfl

@[simp] theorem dsCh_onTrib (f : Trib → Trib) : (onTrib i f s).dsCh g = s.dsCh g := rfl

/-- A command on a created tributary, taken up by Bexed. -/
theorem withTrib_openCmd {op : Nat} {f : Trib → State → State × Option Reply} (ht : Tab.get? s.ds.trib i = some t)
    (hc : t.create = none) : withTrib i f (openCmd q op s) = f t (openCmd q op s) := by
  simp [withTrib, ht, hc]

theorem withTrib_missing {op : Nat} {f : Trib → State → State × Option Reply} (ht : Tab.get? s.ds.trib i = none) :
    withTrib i f (openCmd q op s) = (openCmd q op s, some (.err .notFound)) := by
  simp [withTrib, ht, deny]

/-- A creation within R83 on an ONU of the channel pair's tree with a tributary to spare is offered to it (R130). -/
theorem tributaryCreate_waits (hi : i < 8192) (hch : a.channel < 512) (hgem : a.gem < 2 ^ 18)
    (hfree : Tab.get? s.ds.trib i = none) (hx : Tab.get? s.map.alloc a.alloc = some x)
    (ho : Tab.get? s.onu.ctx x.onu = some o) (htree : o.tree = a.channel / 8) (hown : Config.gemOnu a.gem = x.onu)
    (hslots : s.slotsOk a.channel a.slots a.fill = true) (hfeed : 32 ≤ a.feedPayload) (hfeed' : a.feedPayload ≤ 1024)
    (hok : o.tribOk = true) (hmax : (s.ds.trib.filter fun e => s.tribOnu e.2 == some x.onu).length < o.tribMax) :
    Waits (.tributaryCreate q i a) q 0x2000 (fun u => plSend x.onu
      (.tribOffer i x.allocId a.gem (16 * a.slots + 16) true)
      { u with ds := { u.ds with
        trib := Tab.set u.ds.trib i { a := a, create := some q, huntFrom := s.clk.sfc + 1 } } })
      s := by
  refine .of_kilak exec_tributaryCreate rfl ?_
  have hargs : (decide (8192 ≤ i) || decide (512 ≤ a.channel) || decide (2 ^ 18 ≤ a.gem)) = false := by
    rw [decide_eq_false (Nat.not_le.2 hi), decide_eq_false (Nat.not_le.2 hch), decide_eq_false (Nat.not_le.2 hgem)]
    rfl
  have hrange : (!s.slotsOk a.channel a.slots a.fill || decide (a.feedPayload < 32) || decide (1024 < a.feedPayload))
      = false := by
    simp [hslots, hfeed, hfeed']
  have hspare : (!o.tribOk || decide ((s.ds.trib.filter fun e => s.tribOnu e.2 == some x.onu).length ≥ o.tribMax))
      = false := by
    simp [hok, hmax]
  simp only [tributaryCreate, hargs, openCmd_ds, hfree, openCmd_map, hx, openCmd_onu, ho, openCmd_slotsOk, hrange,
    openCmd_tribOnu, hspare, openCmd_clk, waits]
  simp [htree, hown]

theorem tributaryStatus_replies (ht : Tab.get? s.ds.trib i = some t) (hc : t.create = none) :
    Replies (.tributaryStatus q i) q 0x2001 (.vals [.u 16 t.a.channel, .u 16 t.a.slots, .u 32 t.a.fill, .u 32 t.a.gem
      , .u 32 t.a.alloc, .u 16 t.a.feedPayload, .u 64 t.rep, .u 64 (s.count .tribJustPos (2 * i))
      , .u 64 (s.count .tribJustNeg (2 * i)), .u 64 (s.count .tribJustPos (2 * i + 1))
      , .u 64 (s.count .tribJustNeg (2 * i + 1))]) id s :=
  .of_kilak exec_tributaryStatus rfl ((withTrib_openCmd ht hc).trans (by simp [doneWith]))

/-- Only a committed page that has passed its check is checked again when a resize is withdrawn (R105). -/
theorem slotRecheck_unchecked (h : ∀ k, (s.dsCh g).commit = some k → k.checked = false) : slotRecheck g s = s := by
  cases hk : (s.dsCh g).commit with
  | none => simp [slotRecheck, hk]
  | some k => simp [slotRecheck, hk, h k hk]

theorem tributaryResize_inForce (ht : Tab.get? s.ds.trib i = some t) (hc : t.create = none)
    (hk : ∀ k, (s.dsCh t.a.channel).commit = some k → k.checked = false) :
    Replies (.tributaryResize q i t.a.slots t.a.fill) q 0x2002 .ok
      (onTrib i (fun t => { t with pending := none })) s := by
  refine .of_kilak exec_tributaryResize rfl ((withTrib_openCmd ht hc).trans ?_)
  rw [slotRecheck_unchecked (by simpa using hk)]
  simp [done]

/-- Other values than those in force are not a withdrawal. -/
theorem resize_differs (h : n ≠ t.a.slots ∨ fill ≠ t.a.fill) :
    (decide (n = t.a.slots) && decide (fill = t.a.fill)) = false := by
  simpa [imp_iff_not_or] using h

theorem tributaryResize_pending (ht : Tab.get? s.ds.trib i = some t) (hc : t.create = none)
    (hd : n ≠ t.a.slots ∨ fill ≠ t.a.fill) (hp : t.pending = none) (hok : s.slotsOk t.a.channel n fill = true) :
    Replies (.tributaryResize q i n fill) q 0x2002 .ok
      (onTrib i (fun t => { t with pending := some (n, fill) })) s :=
  .of_kilak exec_tributaryResize rfl ((withTrib_openCmd ht hc).trans (by simp [resize_differs hd, hp, hok, done]))

theorem tributaryResize_limit (ht : Tab.get? s.ds.trib i = some t) (hc : t.create = none)
    (hd : n ≠ t.a.slots ∨ fill ≠ t.a.fill) (hp : t.pending = none) (hok : s.slotsOk t.a.channel n fill = false) :
    Replies (.tributaryResize q i n fill) q 0x2002 (.err .limit) id s :=
  .of_kilak exec_tributaryResize rfl ((withTrib_openCmd ht hc).trans (by simp [resize_differs hd, hp, hok, deny]))

/-- A move waits while a page of the tributary's channel pair is COMMITTED (R106). -/
theorem moveStep_committed (ht : Tab.get? s.ds.trib i = some t) (hc : (s.dsCh t.a.channel).commit.isSome = true) :
    moveStep i s = s := by
  cases hm : t.move with
  | none => simp [moveStep, ht, hm]
  | some m => simp [moveStep, ht, hm, hc]

/-- The first page of a move is the source's page without the tributary (R106). -/
theorem moveStep_source {m : TribMove} (ht : Tab.get? s.ds.trib i = some t) (hm : t.move = some m) (h1 : m.step = 1)
    (hc : (s.dsCh t.a.channel).commit = none) :
    moveStep i s = onTrib i (fun t => { t with move := some { m with step := 2 } })
      (moveCommit t.a.channel i ((pageEntries (s.dsCh t.a.channel).active).filter fun e => e.trib != i) s) := by
  simp [moveStep, ht, hm, h1, hc]

/-- A move to a pair of the same tree, none in progress, takes what step it can. -/
theorem tributaryMove_waits (ht : Tab.get? s.ds.trib i = some t) (hc : t.create = none) (hg : g < 512)
    (htree : g / 8 = t.a.channel / 8) (hm : t.move = none) : Waits (.tributaryMove q i g) q 0x2003 (fun u =>
      moveStep i (onTrib i (fun t => { t with move := some { cmd := q, dest := g, step := 1 } }) u)) s :=
  .of_kilak exec_tributaryMove rfl ((withTrib_openCmd ht hc).trans (by simp [Nat.not_le.2 hg, htree, hm, waits]))

theorem tributaryMove_behindCommit (ht : Tab.get? s.ds.trib i = some t) (hc : t.create = none) (hg : g < 512)
    (htree : g / 8 = t.a.channel / 8) (hm : t.move = none) (hcom : (s.dsCh t.a.channel).commit.isSome = true) :
    Waits (.tributaryMove q i g) q 0x2003
      (onTrib i (fun t => { t with move := some { cmd := q, dest := g, step := 1 } })) s := by
  intro hs
  rw [tributaryMove_waits ht hc hg htree hm hs]
  refine congrArg _ (moveStep_committed (get?_onTrib_self _ (by simpa using ht)) ?_)
  simpa using hcom

theorem tributaryMove_commits (ht : Tab.get? s.ds.trib i = some t) (hc : t.create = none) (hg : g < 512)
    (htree : g / 8 = t.a.channel / 8) (hm : t.move = none) (hcom : (s.dsCh t.a.channel).commit = none) :
    Waits (.tributaryMove q i g) q 0x2003 (fun u =>
      onTrib i (fun t => { t with move := some { cmd := q, dest := g, step := 2 } })
        (moveCommit t.a.channel i ((pageEntries (s.dsCh t.a.channel).active).filter fun e => e.trib != i)
          (onTrib i (fun t => { t with move := some { cmd := q, dest := g, step := 1 } }) u))) s := by
  intro hs
  rw [tributaryMove_waits ht hc hg htree hm hs]
  refine congrArg _ ((moveStep_source (get?_onTrib_self _ (by simpa using ht)) rfl rfl (by simpa using hcom)).trans ?_)
  simp

/-- A delete sends the ONU the end of the offer, unless it declined Ext_Inquire (R107, R130). -/
theorem tributaryDelete_replies (ht : Tab.get? s.ds.trib i = some t) (hc : t.create = none)
    (hheld : (s.ds.ch.any fun e => (pageTribs e.2.active).contains i
      || (e.2.commit.isSome && (pageTribs e.2.standby).contains i)) = false)
    (hx : Tab.get? s.map.alloc t.a.alloc = some x) : Replies (.tributaryDelete q i) q 0x2004 .ok (fun u =>
      if ((Tab.get? s.onu.ctx x.onu).map (·.ext)).getD true then
        plSend x.onu (.tribOffer i x.allocId t.a.gem (16 * t.a.slots + 16) false)
          { u with ds := { u.ds with trib := Tab.erase u.ds.trib i } }
      else { u with ds := { u.ds with trib := Tab.erase u.ds.trib i } }) s := by
  refine .of_kilak exec_tributaryDelete rfl ((withTrib_openCmd ht hc).trans ?_)
  simp only [openCmd_ds, hheld, openCmd_map, hx, openCmd_onu, done, Bool.false_eq_true, if_false]

theorem tributaryStatus_missing (ht : Tab.get? s.ds.trib i = none) :
    Replies (.tributaryStatus q i) q 0x2001 (.err .notFound) id s :=
  .of_kilak exec_tributaryStatus rfl (withTrib_missing ht)

theorem tributaryDelete_missing (ht : Tab.get? s.ds.trib i = none) :
    Replies (.tributaryDelete q i) q 0x2004 (.err .notFound) id s :=
  .of_kilak exec_tributaryDelete rfl (withTrib_missing ht)

end Sys2Proof.Machine
end

section
/-! PROOF. The statement on the tributary commands. -/

open Sys2Proof Sys2Proof.Machine

/-- Settles O28: each command by the lemma on its case. -/
theorem tributaryCommands : Obligations.TributaryCommands := by
  intro s q i n fill g a t x o
  refine ⟨tributaryCreate_waits, fun ht hc => ⟨tributaryStatus_replies ht hc, tributaryResize_inForce ht hc,
      tributaryResize_pending ht hc, tributaryResize_limit ht hc,
      fun hg htree hm => ⟨tributaryMove_behindCommit ht hc hg htree hm, tributaryMove_commits ht hc hg htree hm⟩,
      fun hheld hx => ?delete⟩,
    fun ht => ⟨tributaryStatus_missing ht, tributaryDelete_missing ht⟩⟩
  case delete =>
    have hdel := tributaryDelete_replies (q := q) ht hc hheld hx
    refine ⟨fun hext => ?_, fun hext => ?_⟩
    · simpa only [hext, if_true] using hdel
    · simpa only [hext, Bool.false_eq_true, if_false] using hdel

end

section
/-! SUPPORT. The burst engine's commands: budgets, fixed patterns, page reads and counters (R147 to R150, R165 to
R167). -/

namespace Sys2Proof.Machine

variable {s : State} {q : Req} {g b sfc h : Nat} {es : List FixedEntry}

@[simp] theorem mapCh_onMap_self (f : MapCh → MapCh) : (onMap g f s).mapCh g = f (s.mapCh g) := by
  simp [State.mapCh, onMap]

theorem exec_mapBudgetSet : exec (.mapBudgetSet q g b) s = execMapBudgetSet q g b s := rfl

theorem exec_fixedPatternLoad : exec (.fixedPatternLoad q g sfc es) s = execFixedPatternLoad q g sfc es s := rfl

theorem exec_fixedPatternRead {next : Bool} : exec (.fixedPatternRead q g next) s = execFixedPatternRead q g next s :=
  rfl

theorem exec_mapPageRead {standby changes : Bool} :
    exec (.mapPageRead q g standby changes) s = execMapPageRead q g standby changes s := rfl

theorem exec_mapStats : exec (.mapStats q g) s = execMapStats q g s := rfl

theorem exec_onuGrantStats : exec (.onuGrantStats q h) s = execOnuGrantStats q h s := rfl

theorem fixedSetOk_go_openCmd (op guard : Nat) (prev : Option MapEntry) :
    fixedSetOk.go (openCmd q op s) g guard es prev = fixedSetOk.go s g guard es prev := by
  induction es generalizing prev with
  | nil => rfl
  | cons f es ih => simp only [fixedSetOk.go, openCmd_onu, openCmd_param, ih]

@[simp] theorem openCmd_ladderEnded (op : Nat) : (openCmd q op s).ladderEnded = s.ladderEnded := by
  rw [openCmd_eq]
  rfl

/-- Taking up a command changes nothing that the check of a fixed pattern set reads (R150). -/
theorem fixedSetOk_openCmd (op : Nat) : fixedSetOk (openCmd q op s) g es = fixedSetOk s g es := by
  simp only [fixedSetOk, fixedSetOk_go_openCmd, openCmd_paramN, openCmd_map, openCmd_onu, openCmd_ladderEnded]

theorem mapBudgetSet_replies (hg : g < 512) (hb : b ≤ 16)
    (hsum : ((List.range 512).filter (· != g)).foldl (fun a i => a + s.budgetOf i) 0
      + max b (max (s.mapCh g).budgetA (s.mapCh g).budgetS) ≤ 4096) :
    Replies (.mapBudgetSet q g b) q 0x4000 .ok (setParam 0x4020 g b) s := by
  refine .of_kilak exec_mapBudgetSet rfl ?_
  simp only [openCmd_budgetOf, openCmd_mapCh, Nat.not_le.2 hg, Nat.not_lt.2 hb, gt_iff_lt, Nat.not_lt.2 hsum, if_false,
    done]

theorem fixedPatternLoad_replies (hg : g < 512) (hnext : (s.mapCh g).fixedNext = none)
    (hstage : (s.mapCh g).fixedStage = none) (hsfc : s.clk.sfc + 8 ≤ sfc) (hlen : es.length ≤ 128)
    (hbudget : es.length ≤ 32 * s.paramN 0x4020 g) (hok : fixedSetOk s g es = true) :
    Replies (.fixedPatternLoad q g sfc es) q 0x4001 .ok
      (onMap g (fun m => { m with fixedNext := some { actSfc := sfc, entries := es } })) s := by
  refine .of_kilak exec_fixedPatternLoad rfl ?_
  have hrange : (decide (sfc < s.clk.sfc + 8) || decide (128 < es.length)
      || decide (32 * s.paramN 0x4020 g < es.length)) = false := by
    simp [hsfc, hlen, hbudget]
  simp [Nat.not_le.2 hg, hnext, hstage, hrange, fixedSetOk_openCmd, hok, done]

theorem fixedPatternRead_replies {next : Bool} : Replies (.fixedPatternRead q g next) q 0x4002
    (match (if next then (s.mapCh g).fixedNext else (s.mapCh g).fixedCur) with
      | some f => .vals [.u 51 f.actSfc, .lst 12 (f.entries.map fixedWord)]
      | none => .vals [.u 51 0]) id s := by
  refine .of_kilak exec_fixedPatternRead rfl ?_
  rw [openCmd_mapCh]
  dsimp only
  cases (if next then (s.mapCh g).fixedNext else (s.mapCh g).fixedCur) <;> rfl

theorem mapPageRead_replies {standby : Bool} (hg : g < 512) : Replies (.mapPageRead q g standby false) q 0x4003
    (.vals [.u 64 ((s.mapCh g).stateCode standby)
      , .u 51 (if standby then (s.mapCh g).standbyTarget else (s.mapCh g).activeTarget)
      , .lst 10 ((if standby then (s.mapCh g).standby else (s.mapCh g).active).map entryWord)]) id s :=
  .of_kilak exec_mapPageRead rfl (by simp [Nat.not_le.2 hg, doneWith])

theorem mapStats_replies (hg : g < 512) : Replies (.mapStats q g) q 0x4004 (.vals ([Ctr.mapPages, .mapReject, .mapLate
    , .mapReplay, .mapLateRun, .mapStall, .pageRefusedMap, .grantsCreated, .grantsExecuted, .grantsReturned
    , .grantsCancelled, .grantTicks, .overheadTicks, .quietTicks].map fun c => RVal.u 64 (s.count c g))) id s :=
  .of_kilak exec_mapStats rfl (by simp [Nat.not_le.2 hg, doneWith])

theorem onuGrantStats_replies (hs : s.onuState h ≠ .free) : Replies (.onuGrantStats q h) q 0x4005
    (.vals (([Ctr.onuGrants, .onuGrantTicks, .onuGrantsReturned, .onuGrantsCancelled, .onuFixedGrants].map fun c =>
      RVal.u 64 (s.count c h)) ++ [.u 51 (Tab.getD s.map.lastGrantSfc h 0)])) id s :=
  .of_kilak exec_onuGrantStats rfl (by simp [hs, doneWith])

end Sys2Proof.Machine
end

section
/-! SUPPORT. What a compile leaves of the pages of the channel pairs: it charges allocations, ONUs and counters, and the
one change of a page marks its channel pair compiled (R169, R170). -/

namespace Sys2Proof.Machine

variable {s u : State} {g target : Nat}

theorem foldl_mapTab {α : Type} {f : State → α → State} (h : ∀ u a, (f u a).map.ch = u.map.ch) (l : List α)
    (s : State) : (l.foldl f s).map.ch = s.map.ch := by
  induction l generalizing s with
  | nil => rfl
  | cons a l ih => exact (ih _).trans (h s a)

theorem chargeEntry_mapTab (e : MapEntry) (bytes : Nat) (s : State) :
    (chargeEntry g target e bytes s).map.ch = s.map.ch := by
  unfold chargeEntry
  extract_lets granted _ loaded there _ tuned
  have htuned : tuned.map.ch = s.map.ch := by
    unfold tuned
    split <;> rfl
  split <;> exact htuned

theorem chargePart_mapTab (es : List MapEntry) (x : MapEntry × Nat × Part) (s : State) :
    (chargePart g target es x s).map.ch = s.map.ch := by
  unfold chargePart
  extract_lets p
  split
  · rfl
  · exact chargeEntry_mapTab ..

/-- What the core's bookkeeping after a commit, its hint and the cycles it took, leaves of the pages. -/
theorem compileCost_hintCollect_mapTab (n short : Nat) (ps : List (Nat × Part)) (s : State) :
    (compileCost g n (hintCollect g target ps short s)).map.ch = s.map.ch := rfl

theorem mapCh_of_mapTab (h : u.map.ch = s.map.ch) : u.mapCh g = s.mapCh g := by
  rw [State.mapCh, h, State.mapCh]

@[simp] theorem mapCh_bump (c : Ctr) (i : Nat) : (bump c i s).mapCh g = s.mapCh g := rfl

@[simp] theorem mapCh_event (code : Nat) (l : List RVal) : (event code l s).mapCh g = s.mapCh g := rfl

@[simp] theorem mapCh_marverTrouble (k : Nat) : (marverTrouble k s).mapCh g = s.mapCh g := rfl

/-- Whether its page is committed, needs more than the budget or fails its check, the channel pair is compiled. -/
theorem compilePage_compiled (g : Nat) (s : State) : ((compilePage g s).mapCh g).compiled = true := by
  unfold compilePage
  extract_lets target guard m blocked gaps free isDue opened fixed noted wins must limit portion least
  split
  extract_lets placed parts
  split
  · simp
  · extract_lets dyn ps page unplaced
    split
    split
    · simp
    · extract_lets committed grants created deferred short charged patterns
      have hshort : short.map.ch = committed.map.ch := foldl_mapTab (by intros; rfl) _ deferred
      have hcharged : charged.map.ch = short.map.ch := foldl_mapTab (fun u x => chargePart_mapTab _ x u) _ short
      have hpatterns : patterns.map.ch = charged.map.ch := foldl_mapTab (fun u e => chargeEntry_mapTab e _ u) _ charged
      rw [mapCh_of_mapTab ((compileCost_hintCollect_mapTab ..).trans (hpatterns.trans (hcharged.trans hshort)))]
      exact congrArg MapCh.compiled (mapCh_onMap_self ..)

end Sys2Proof.Machine
end

section
/-! SUPPORT. The page check, the compile's commit and its deadline, and the superframe boundary (R77, R152, R153, R169,
R170, R392). -/

namespace Sys2Proof.Machine

variable {s : State} {g : Nat} {c : MapCommit}

theorem exec_mapPageCheckDone (ha : Acts s (ponBlk g)) : exec (.mapPageCheckDone g) s = .next (pageCheckDone g s) :=
  island_acts ha

theorem pageCheckDone_passes (hc : (s.mapCh g).commit = some c) (hw : c.check = .waiting)
    (h : checkPage s g c.target (s.mapCh g).budgetS (s.mapCh g).standby = none) :
    pageCheckDone g s = onMap g (fun m => { m with commit := some { c with check := .passed } }) s := by
  simp [pageCheckDone, hc, hw, h]

theorem pageCheckDone_fails {r i : Nat} (hc : (s.mapCh g).commit = some c) (hw : c.check = .waiting)
    (h : checkPage s g c.target (s.mapCh g).budgetS (s.mapCh g).standby = some (r, i)) :
    pageCheckDone g s = marverTrouble (g / 8) (event 0x4000 [.u 9 g, .u 51 c.target, .u 8 r, .u 16 i]
      (bump .mapReject g (onMap g (fun m => { m with commit := some { c with check := .failed r i } }) s))) := by
  simp [pageCheckDone, hc, hw, h]

/-- The superframe has not come within map.compile_lead of its end: a page of g may still be committed (R170). -/
def State.compileInTime (s : State) (g : Nat) : Prop :=
  s.clk.ltb % 311040 + (policyIn s.map.snap.policy 0x4A10 g).toNat ≤ 311040

theorem exec_mapCommit_inTime (ha : Acts s (marverBlk (g / 8))) (hr : s.coreRuns (g / 8) = true)
    (hn : (s.mapCh g).compiled = false) (hg : g < 512) (hsnap : s.map.snap.sfc = s.clk.sfc)
    (hl : s.laterCommitted g = false) (ht : s.compileInTime g) : exec (.mapCommit g) s = .next (
      if (s.mapCh g).commit.isNone then compilePage g s
      else bump .pageRefusedMap g (onMap g (fun m => { m with compiled := true }) s)) := by
  unfold State.compileInTime at ht
  exact (island_acts ha).trans (congrArg _ (if_pos (by simp [hr, hn, hg, hsnap, hl, ht])))

theorem exec_mapCommit_late (ha : Acts s (marverBlk (g / 8))) (ht : ¬ s.compileInTime g) :
    exec (.mapCommit g) s = .next s := by
  unfold State.compileInTime at ht
  exact (island_acts ha).trans (congrArg _ (if_neg (by simp [ht])))

theorem exec_compileDeadline_inTime (ha : Acts s (marverBlk (g / 8))) (ht : s.compileInTime g) :
    exec (.compileDeadline g) s = .next s := by
  unfold State.compileInTime at ht
  exact (island_acts ha).trans (congrArg _ (if_neg (by simp [ht])))

theorem exec_compileDeadline_late (ha : Acts s (marverBlk (g / 8))) (hr : s.coreRuns (g / 8) = true)
    (hn : (s.mapCh g).compiled = false) (ht : ¬ s.compileInTime g) : exec (.compileDeadline g) s = .next (
      marverTrouble (g / 8) (bump .compileLate g (onMap g (fun m => { m with compiled := true }) s))) := by
  unfold State.compileInTime at ht
  exact (island_acts ha).trans (congrArg _ (if_pos (by simpa [hr, hn] using ht)))

/-- The blocks that act at a superframe boundary (R77). -/
theorem exec_superframeBoundary (h : ∀ b, b = 172 ∨ (88 ≤ b ∧ b < 142) → s.undefinedBlk b = false) :
    exec .superframeBoundary s = .next (if s.islandUp 172 then boundaryWork (reachBoundary s) else s) := by
  change execSuperframeBoundary s = _
  refine guardBlks_ok fun b hb => h b ?_
  rcases List.mem_cons.1 hb with rfl | hb
  · exact .inl rfl
  · obtain ⟨i, hi, rfl⟩ := List.mem_map.1 hb
    have hi := List.mem_range.1 hi
    exact .inr (by omega)

theorem reachBoundary_ltb : (reachBoundary s).clk.ltb = (s.clk.ltb / 311040 + 1) * 311040 := by
  simp only [reachBoundary]
  omega

theorem reachBoundary_now :
    (reachBoundary s).clk.now = s.clk.now + ((reachBoundary s).clk.ltb - s.clk.ltb) := by
  simp only [reachBoundary]
  omega

end Sys2Proof.Machine
end

section
/-! PROOF. The statement on burst map commands, the compile's commit and the superframe boundary. -/

open Sys2Proof Sys2Proof.Machine

/-- Settles O33: each command and event by the lemma on its case; at the boundary the work on the pages and frames
leaves the clocks that reached it and the queue. -/
theorem mapCommandsAndTheBoundary : Obligations.MapCommandsAndTheBoundary := by
  intro s q g b sfc r i h es c st next
  refine ⟨mapBudgetSet_replies, fixedPatternLoad_replies, fixedPatternRead_replies,
    fun hg => ⟨mapPageRead_replies hg, mapStats_replies hg⟩, onuGrantStats_replies,
    fun ha hc hw => ⟨fun h => ?passes, fun h => ?fails⟩,
    fun ha hr hn => ⟨fun hg hsnap hl ht => ⟨fun hc => ⟨?commits, compilePage_compiled g s⟩, fun hc => ?refused,
      exec_compileDeadline_inTime ha ht⟩, fun ht => ?late⟩,
    fun hu => ⟨fun hdown => ?timeDown, fun hup => ?boundary⟩⟩
  case passes => rw [exec_mapPageCheckDone ha, pageCheckDone_passes hc hw h]
  case fails => rw [exec_mapPageCheckDone ha, pageCheckDone_fails hc hw h]
  case commits => rw [exec_mapCommit_inTime ha hr hn hg hsnap hl ht, if_pos (by simp [hc])]
  case refused =>
    rw [exec_mapCommit_inTime ha hr hn hg hsnap hl ht, if_neg (by simpa [Option.isSome_iff_ne_none] using hc)]
  case late => exact ⟨exec_compileDeadline_late ha hr hn (Nat.not_le.2 ht), exec_mapCommit_late ha (Nat.not_le.2 ht)⟩
  case timeDown => rw [exec_superframeBoundary hu, if_neg (by simp [hdown])]
  case boundary =>
    have hwork : Frame (reachBoundary s) (boundaryWork (reachBoundary s)) := boundaryWork_frame (.rfl' _)
    refine ⟨boundaryWork (reachBoundary s), ?_, ?_, ?_, ?_, hwork.pending⟩
    · rw [exec_superframeBoundary hu, if_pos hup]
    · rw [hwork.clk, reachBoundary_ltb]
    · rw [hwork.clk]
      rfl
    · rw [hwork.clk, reachBoundary_now]

end

section
/-! SUPPORT. Upstream PLOAM messages: the restart's queue, the integrity check and the sender (R122, R123, R503). -/

namespace Sys2Proof.Machine

variable {s : State} {hd : UsHead} {h : Nat} {o : Onu}

/-- A message that arrives during a restart joins its queue while there is room (R503). -/
theorem usPloam_restart {i : Instr} {f : State → State} (ha : Acts s 104) (hr : s.host.restart.isSome = true)
    (hq : s.host.restartQueue.length < 4096) :
    usPloam i f s = .next { s with host := { s.host with restartQueue := s.host.restartQueue ++ [i] } } := by
  rw [usPloam, island_acts ha]
  simp only [hr, hq, if_true]

theorem usPloam_noRestart {i : Instr} {f : State → State} (ha : Acts s 104) (hr : s.host.restart = none) :
    usPloam i f s = .next (f s) := by
  rw [usPloam, island_acts ha]
  simp [hr]

section
variable (ha : Acts s 104) (hr : s.host.restart = none)
include ha hr

theorem exec_serialNumberOnu {serial : Nat} {wq : Bool} :
    exec (.serialNumberOnu hd serial wq) s = .next (serialNumberOnu hd serial wq s) := usPloam_noRestart ha hr

theorem exec_acknowledgement {code : Nat} :
    exec (.acknowledgement hd code) s = .next (acknowledgement hd code s) := usPloam_noRestart ha hr

theorem exec_registration {reg : Nat} : exec (.registration hd reg) s = .next (registration hd reg s) :=
  usPloam_noRestart ha hr

theorem exec_extCapability {x : ExtCap} : exec (.extCapability hd x) s = .next (extCapability hd x s) :=
  usPloam_noRestart ha hr

theorem exec_tuningResponse {ack : Bool} : exec (.tuningResponse hd ack) s = .next (tuningResponse hd ack s) :=
  usPloam_noRestart ha hr

theorem exec_sleepRequest : exec (.sleepRequest hd) s = .next (unsupported hd s) := usPloam_noRestart ha hr

theorem exec_ploamUnsupported : exec (.ploamUnsupported hd) s = .next (unsupported hd s) := usPloam_noRestart ha hr

end

theorem fromOnu_badMic {f : Nat → Onu → State → State} (hm : s.micOk hd = false) :
    fromOnu hd f s = bump .ploamMicErr hd.g s := by
  simp [fromOnu, hm]

theorem fromOnu_found {f : Nat → Onu → State → State} (hm : s.micOk hd = true)
    (hf : s.findOnu (hd.g / 8) hd.onuId = some (h, o)) : fromOnu hd f s = f h o s := by
  simp [fromOnu, hm, hf]

theorem serialNumberOnu_badMic {serial : Nat} {wq : Bool} (hm : s.micOk hd = false) :
    serialNumberOnu hd serial wq s = bump .ploamMicErr hd.g s := by
  simp [serialNumberOnu, hm]

/-- A type that the device discards counts as unsupported, or as stale where the ONU-ID is in quarantine (R111, R124). -/
theorem unsupported_micOk (hm : s.micOk hd = true) : unsupported hd s
    = bump (if s.inQuarantine (hd.g / 8) hd.onuId then .ploamStale else .ploamUnsupported) hd.g s := by
  cases hq : s.inQuarantine (hd.g / 8) hd.onuId <;> simp [unsupported, hm, hq]

end Sys2Proof.Machine
end

section
/-! SUPPORT. What each upstream PLOAM message does once its check has passed (R113, R114, R124 to R127). -/

namespace Sys2Proof.Machine

variable {s : State} {hd : UsHead} {serial h : Nat} {o : Onu} {p : PlOut} {t : Tune} {w : DiscWin}

/-- Only the first valid Serial_Number_ONU of a window acts. -/
theorem serialNumberOnu_second {wq : Bool} (hm : s.micOk hd = true) (hw : Tab.get? s.onu.disc hd.g = some w)
    (hv : w.valid = true) : serialNumberOnu hd serial wq s = s := by
  simp [serialNumberOnu, hm, hw, hv]

theorem serialNumberOnu_provisioned (hm : s.micOk hd = true) (hw : Tab.get? s.onu.disc hd.g = some w)
    (hv : w.valid = false) (hf : s.findSerial serial = some (h, o)) (ht : o.tree = hd.g / 8)
    (hs : o.state = .provisioned) :
    serialNumberOnu hd serial true s = enterDiscovered h (bump .discNew o.tree
      (onOnu h (fun o => { o with state := .discovered, chan := hd.g % 8 }) { s with onu := { s.onu with
        disc := Tab.set s.onu.disc hd.g { w with valid := true } } })) := by
  have hf' : State.findSerial { s with onu := { s.onu with
      disc := Tab.set s.onu.disc hd.g { w with valid := true } } } serial = some (h, o) := hf
  simp [serialNumberOnu, hm, hw, hv, hf', ht, hs]

/-- An answer to the outstanding message carries its SeqNo, comes after it left and in time, and is of its kind (R123). -/
theorem answers_of_out {kind : PlMsg → Bool} {sfc : Nat} (hp : o.out = some p) (hseq : p.seq = hd.seq)
    (hsent : p.sfc < sfc) (hl : p.late sfc = false) (hk : kind p.msg = true) : o.answers hd sfc kind = true := by
  simp [Onu.answers, hp, hseq, hsent, hl, hk]

section
variable (hm : s.micOk hd = true) (hf : s.findOnu (hd.g / 8) hd.onuId = some (h, o))
include hm hf

theorem acknowledgement_answers {code : Nat} (hp : o.out = some p)
    (hans : o.answers hd s.clk.sfc (ackKind code) = true) :
    acknowledgement hd code s = acknowledged h o p.msg (code == 0) (plAnswered h s) := by
  rw [acknowledgement, fromOnu_found hm hf]
  simp only [hp, hans, if_true]

theorem acknowledgement_noneOut {code : Nat} (hp : o.out = none) (hc : o.answersCarry hd s.clk.sfc = false) :
    acknowledgement hd code s = bump .ploamStale hd.g s := by
  rw [acknowledgement, fromOnu_found hm hf]
  simp [hp, hc]

/-- The event and the new state of the context leave the parameters, so onu.auto_mode is read as it stood. -/
theorem registration_answers {reg : Nat} (hs : o.state = .registering)
    (hans : o.answers hd s.clk.sfc (· == .requestRegistration) = true) (hauto : s.param 0x3010 o.tree ≠ 2) :
    registration hd reg s = event 0x3001 [.u 64 o.serial, .u 288 reg] (onOnu h (fun u => { u with
      state := .authorising, regId := reg % 2 ^ 288
      deadline := some (s.clk.now + secT (s.paramN 0x3011 u.tree)) }) (plAnswered h s)) := by
  rw [registration, fromOnu_found hm hf]
  have hpar : ∀ (f : Onu → Onu) (v : List RVal),
      (event 0x3001 v (onOnu h f (plAnswered h s))).param 0x3010 o.tree = s.param 0x3010 o.tree := fun _ _ => rfl
  have hmode : (s.param 0x3010 o.tree == 2) = false := beq_false_of_ne hauto
  simp only [hs, hans, hpar, hmode, beq_self_eq_true, Bool.and_self, Bool.false_and, Bool.false_eq_true, if_true, if_false]

theorem extCapability_answers {x : ExtCap} (hs : o.state = .extending)
    (hans : o.answers hd s.clk.sfc (· == .extInquire) = true) :
    extCapability hd x s = enterOperation h (onOnu h (fun o => { o with
      ext := true, maxRate := x.maxRate, tribOk := x.tribOk, carryOk := x.carryOk, standingOk := x.standingOk
      chanMask := x.chanMask, tuneTime := x.tuneTime, tribMax := x.tribMax }) (plAnswered h s)) := by
  rw [extCapability, fromOnu_found hm hf]
  simp [hs, hans]

/-- From Q on, the first Tuning_Response on the target tells of the arrival. -/
theorem tuningResponse_arrival {ack : Bool} (ht : o.tune = some t) (hs : o.state = .tuning) (hq : t.q ≤ s.clk.sfc)
    (hg : hd.g = 8 * o.tree + t.target) (hresp : t.resp = false) :
    tuningResponse hd ack s = onOnu h (fun o => { o with
      tune := some { t with resp := true }, respCount := o.respCount + 1 }) s := by
  rw [tuningResponse, fromOnu_found hm hf]
  simp [ht, hs, Nat.not_lt.2 hq, hg, hresp]

/-- Before Q, an answer to Tuning_Control acknowledges the retune or ends it. -/
theorem tuningResponse_answers {ack : Bool} (ht : o.tune = some t) (hs : o.state = .tuning) (hq : s.clk.sfc < t.q)
    (hsrc : t.source ≠ 2) (hans : o.answers hd s.clk.sfc (· == .tuningControl t.target t.q) = true) :
    tuningResponse hd ack s =
      if ack then plAnswered h (onOnu h (fun o => { o with tune := o.tune.map fun t => { t with acked := true } }) s)
      else tuneEnded h .tuneNack .operation s := by
  rw [tuningResponse, fromOnu_found hm hf]
  simp [ht, hs, hq, hsrc, hans]

end

theorem acknowledged_rangingTime_confirm {e : Nat} (hs : o.state = .confirm) :
    acknowledged h o (.rangingTime e) true s = onOnu h (fun o => { o with acked := true }) s := by
  simp [acknowledged, hs]

end Sys2Proof.Machine
end

section
/-! SUPPORT. Serial-number windows and ranging windows (R116, R118, R119, R134). -/

namespace Sys2Proof.Machine

variable {s : State} {g h : Nat} {o : Onu} {t : Tune} {w : DiscWin} {rtd : Int}

theorem exec_snWindow_due (ha : Acts s 104) (hg : g < 512) (ho : s.discOpen g = true)
    (hd : Tab.getD s.onu.discNext g 0 ≤ s.clk.now) (hr : s.host.restart = none) :
    exec (.serialNumberWindow g) s = .next (
      let u := { s with onu := { s.onu with
        disc := Tab.set s.onu.disc g { opened := s.clk.sfc }
        discNext := Tab.set s.onu.discNext g (s.clk.now + msT (s.paramN 0x3001 g)) } }
      bump .discWindows g (requestWindow g .snWindow 0 (u.discQuiet g) u)) :=
  (island_acts ha).trans (congrArg _ (if_pos (by simp [hg, ho, hd, hr])))

theorem exec_snWindowEnd_open {sig ov : Bool} (ha : Acts s 104) (hw : Tab.get? s.onu.disc g = some w) :
    exec (.snWindowEnd g sig ov) s = .next (
      let u := { s with onu := { s.onu with disc := Tab.erase s.onu.disc g } }
      if ov || (sig && !w.valid) then bump .discCollision g u else u) := by
  change execSnWindowEnd g sig ov s = _
  rw [execSnWindowEnd, island_acts ha]
  simp only [hw]

theorem exec_rangingBurst (ha : Acts s 104) : exec (.rangingBurst g h rtd) s = .next (rangingBurst g h rtd s) :=
  island_acts ha

/-- The burst of a retune's window on the target gives the equalisation delay there. -/
theorem rangingBurst_tuning (ho : Tab.get? s.onu.ctx h = some o) (hs : o.state = .tuning) (ht : o.tune = some t)
    (hw : t.windowed = true) (hg : 8 * o.tree + t.target = g) (hin : s.inReach g rtd = true) :
    rangingBurst g h rtd s =
      let e := ((s.paramN 0x3020 g : Int) * 64 - rtd).toNat
      plSend h (.rangingTime e) (onOnu h (fun o => { o with
        tune := some { t with ranged := true }
        eq := Tab.upd o.eq t.target {} fun r => { r with eqd64 := e, valid := false, carried := false } }) s) := by
  simp [rangingBurst, ho, hs, ht, hw, hg, hin]

theorem rangingBurst_ranging (ho : Tab.get? s.onu.ctx h = some o) (hs : o.state = .ranging)
    (hw : o.windowOpen = true) (hg : o.g = g) :
    rangingBurst g h rtd s =
      if s.inReach g rtd then sendEqd h ((s.paramN 0x3020 g : Int) * 64 - rtd).toNat false s
      else releaseFor h 2 s := by
  simp [rangingBurst, ho, hs, hw, hg]

theorem exec_rangingWindowEnd_missed (ha : Acts s 104) (ho : Tab.get? s.onu.ctx h = some o) (hs : o.state = .ranging)
    (hw : o.windowOpen = true) :
    exec (.rangingWindowEnd h) s = .next (rangingMissed h (bump .rangeMiss (8 * h + o.chan) s)) := by
  change execRangingWindowEnd h s = _
  rw [execRangingWindowEnd, island_acts ha]
  simp [ho, hs, hw]

end Sys2Proof.Machine
end

section
/-! PROOF. The statement on upstream PLOAM messages, serial-number windows and ranging windows. -/

open Sys2Proof Sys2Proof.Machine

/-- Settles O31: each message and window by the lemma on its case. -/
theorem onuUpstreamMessagesAndWindows : Obligations.OnuUpstreamMessagesAndWindows := by
  intro s hd code serial reg g h x o p t w wq ack sig ov rtd
  refine ⟨usPloam_restart, fun ha hr hm => ⟨?_, ?_, ?_, ?_, ?_⟩,
    fun ha hr hm => ⟨fun hq => ?unsupported, fun hq => ?quarantined, fun hw hv => ?second,
      fun hw hv hwq hf ht hs => ?provisioned, fun hf => ⟨fun hp hseq hsent hl hk => ?acknowledges,
        fun hs e => acknowledged_rangingTime_confirm hs, fun hp hc => ?stale, fun hs hans hauto => ?registers,
        fun hs hans => ?capability, fun ht hs hq hg hresp => ?arrives, fun ht hs hq hsrc hans => ?answersTuning⟩⟩,
    fun ha => ⟨exec_snWindow_due ha, exec_snWindowEnd_open ha, fun ho hs ht hw hg hin => ?tuningBurst,
      fun ho hs hw => ⟨fun hg hin => ?within, fun hg hout => ?beyond, exec_rangingWindowEnd_missed ha ho hs hw⟩⟩⟩
  · rw [exec_serialNumberOnu ha hr, serialNumberOnu_badMic hm]
  · rw [exec_acknowledgement ha hr, acknowledgement, fromOnu_badMic hm]
  · rw [exec_registration ha hr, registration, fromOnu_badMic hm]
  · rw [exec_extCapability ha hr, extCapability, fromOnu_badMic hm]
  · rw [exec_tuningResponse ha hr, tuningResponse, fromOnu_badMic hm]
  case unsupported =>
    rw [exec_sleepRequest ha hr, exec_ploamUnsupported ha hr, unsupported_micOk hm, hq]
    exact ⟨rfl, rfl⟩
  case quarantined =>
    rw [exec_sleepRequest ha hr, exec_ploamUnsupported ha hr, unsupported_micOk hm, hq]
    exact ⟨rfl, rfl⟩
  case second => rw [exec_serialNumberOnu ha hr, serialNumberOnu_second hm hw hv]
  case provisioned => rw [exec_serialNumberOnu ha hr, hwq, serialNumberOnu_provisioned hm hw hv hf ht hs]
  case acknowledges =>
    rw [exec_acknowledgement ha hr, acknowledgement_answers hm hf hp (answers_of_out hp hseq hsent hl hk)]
  case stale => rw [exec_acknowledgement ha hr, acknowledgement_noneOut hm hf hp hc]
  case registers => rw [exec_registration ha hr, registration_answers hm hf hs hans hauto]
  case capability => rw [exec_extCapability ha hr, extCapability_answers hm hf hs hans]
  case arrives => rw [exec_tuningResponse ha hr, tuningResponse_arrival hm hf ht hs hq hg hresp]
  case answersTuning =>
    rw [exec_tuningResponse ha hr, exec_tuningResponse ha hr, tuningResponse_answers hm hf ht hs hq hsrc hans,
      tuningResponse_answers hm hf ht hs hq hsrc hans]
    exact ⟨rfl, rfl⟩
  case tuningBurst => rw [exec_rangingBurst ha, rangingBurst_tuning ho hs ht hw hg hin]
  case within => rw [exec_rangingBurst ha, rangingBurst_ranging ho hs hw hg, if_pos hin]
  case beyond =>
    rw [exec_rangingBurst ha, rangingBurst_ranging ho hs hw hg, if_neg (Bool.eq_false_iff.1 hout)]

end

section
/-! SUPPORT. The commands on allocation contexts and the buffer reports (R173 to R178). -/

namespace Sys2Proof.Machine

variable {s : State} {q : Req} {onu id n bytes pos : Nat} {a : AllocArgs} {o : Onu} {x : Alloc}

theorem exec_allocCreate : exec (.allocCreate q onu id a) s = execAllocCreate q onu id a s := rfl

theorem exec_allocModify : exec (.allocModify q n a) s = execAllocModify q n a s := rfl

theorem exec_allocDestroy : exec (.allocDestroy q n) s = execAllocDestroy q n s := rfl

theorem exec_allocStatus : exec (.allocStatus q n) s = execAllocStatus q n s := rfl

theorem exec_bufferReportArrival :
    exec (.bufferReportArrival n bytes pos) s = execBufferReportArrival n bytes pos s := rfl

/-- A command on an allocation that exists, taken up by Bexed. -/
theorem withAlloc_openCmd {op : Nat} {f : Alloc → State → State × Option Reply} (hx : Tab.get? s.map.alloc n = some x) :
    withAlloc n f (openCmd q op s) = f x (openCmd q op s) := by
  simp [withAlloc, hx]

theorem allocCreate_replies (ho : Tab.get? s.onu.ctx onu = some o) (hdis : o.state ≠ .disabled)
    (hdea : o.state ≠ .deactivating) (hbad : allocBad a = false) (hid : id < 2 ^ 14) (htree : s.treeAllocs o.tree < 4096)
    (hfree : lowestFree (Tab.keys s.map.alloc) 0 131072 = some n) (hadm : s.admits onu n a.assured = true) :
    Replies (.allocCreate q onu id a) q 0x4006 (.vals [.u 17 n]) (fun u => plSend onu (.assignAlloc n id true) { u with
      map := { u.map with alloc := Tab.set u.map.alloc n { allocId := id, onu := onu, a := a } } }) s := by
  refine .of_kilak exec_allocCreate rfl ?_
  have hstate : (o.state == .disabled || o.state == .deactivating) = false := by simp [hdis, hdea]
  have hargs : (allocBad a || decide (2 ^ 14 ≤ id)) = false := by
    rw [hbad, decide_eq_false (Nat.not_le.2 hid), Bool.or_false]
  simp only [allocCreate, openCmd_onu, openCmd_map, openCmd_treeAllocs, openCmd_admits, ho, hstate, hargs, hfree, hadm,
    ge_iff_le, Nat.not_le.2 htree, Bool.not_true, Bool.false_eq_true, if_false, doneWith]

theorem allocModify_replies (hx : Tab.get? s.map.alloc n = some x) (hbad : allocBad a = false)
    (hadm : s.admits x.onu n a.assured = true) :
    Replies (.allocModify q n a) q 0x4007 .ok (onAlloc n (fun x => { x with staged := some a })) s :=
  .of_kilak exec_allocModify rfl (by simp [withAlloc_openCmd hx, hbad, hadm, done])

theorem allocDestroy_waits (hx : Tab.get? s.map.alloc n = some x) (hfixed : s.allocInFixed n = false)
    (hdes : x.destroying = none) :
    Waits (.allocDestroy q n) q 0x4008 (fun u => plSend x.onu (.assignAlloc n x.allocId false)
      (onAlloc n (fun x => { x with destroying := some q }) u)) s :=
  .of_kilak exec_allocDestroy rfl (by simp [withAlloc_openCmd hx, hfixed, hdes, waits])

theorem allocStatus_replies (hx : Tab.get? s.map.alloc n = some x) :
    Replies (.allocStatus q n) q 0x4009 (.vals [.rcd 128 x.word, .u 64 x.demand, .u 64 x.aCredit, .u 64 x.nCredit
      , .u 51 x.lastReport, .u 51 x.lastGrant]) (fun s => s) s :=
  .of_kilak exec_allocStatus rfl (withAlloc_openCmd hx)

/-- An allocation read after it was changed. -/
theorem get?_onAlloc_self (f : Alloc → Alloc) (hx : Tab.get? s.map.alloc n = some x) :
    Tab.get? (onAlloc n f s).map.alloc n = some (f x) := by
  simp [onAlloc, Tab.modify_of_get? f hx]

theorem exec_bufferReport_missing (hx : Tab.get? s.map.alloc n = none) :
    exec (.bufferReportArrival n bytes pos) s = .next s := by
  simp [exec_bufferReportArrival, execBufferReportArrival, hx]

theorem exec_bufferReport_arrives (hx : Tab.get? s.map.alloc n = some x) (ho : Tab.get? s.onu.ctx x.onu = some o)
    (ha : Acts s (marverBlk o.tree)) :
    exec (.bufferReportArrival n bytes pos) s = .next (takeReport n bytes pos s) := by
  simp [exec_bufferReportArrival, execBufferReportArrival, hx, ho, island_acts ha]

/-- A report of a burst before the one last reported leaves the allocation as it is (R173). -/
theorem takeReport_earlier (hx : Tab.get? s.map.alloc n = some x) (hp : pos < x.reportPos) :
    Tab.get? (takeReport n bytes pos s).map.alloc n = some x :=
  (get?_onAlloc_self _ hx).trans (congrArg some (if_pos hp))

/-- The later burst's report wins, and the grants it has seen executed are forgotten (R173). -/
theorem takeReport_later (hx : Tab.get? s.map.alloc n = some x) (hp : x.reportPos ≤ pos) :
    ∃ y, Tab.get? (takeReport n bytes pos s).map.alloc n = some y ∧ y.report = bytes ∧ y.reportPos = pos
      ∧ y.lastReport = s.clk.sfc ∧ y.granted = x.granted.filter fun e => decide (pos < e.1) :=
  ⟨_, (get?_onAlloc_self _ hx).trans (congrArg some (if_neg (Nat.not_lt.2 hp))), rfl, rfl, rfl, rfl⟩

end Sys2Proof.Machine
end

section
/-! SUPPORT. Map policy, hints and grant latency (R179, R194, R195, R199). -/

namespace Sys2Proof.Machine

variable {s : State} {q : Req} {sc : Scope} {k g u n : Nat} {vals : List (Nat × Int)} {isOnu : Bool}

theorem exec_mapPolicySet : exec (.mapPolicySet q sc vals) s = execMapPolicySet q sc vals s := rfl

theorem exec_mapPolicyGet : exec (.mapPolicyGet q sc) s = execMapPolicyGet q sc s := rfl

theorem exec_mapHints : exec (.mapHints q g) s = execMapHints q g s := rfl

theorem exec_grantLatencyBind : exec (.grantLatencyBind q isOnu n u) s = execGrantLatencyBind q isOnu n u s := rfl

theorem mapPolicySet_replies (hk : scopeKey sc = some k)
    (hv : ∀ v ∈ vals, policyPids.contains v.1 = true ∧ inRange v.1 v.2 = true) :
    let policy : Tab (Tab Int) := Tab.upd s.map.policy k [] (fun t => vals.foldl (fun t v => Tab.set t v.1 v.2) t)
    Replies (.mapPolicySet q sc vals) q 0x400A (.vals (policyPids.map fun p =>
      RVal.u (((pidDesc? p).map (·.width)).getD 64) (policyAt policy p sc).toNat))
      (fun u => { u with map := { u.map with policy := policy } }) s := by
  refine .of_kilak exec_mapPolicySet rfl ?_
  have hknown : (vals.any fun v => !policyPids.contains v.1) = false :=
    List.any_eq_false.2 fun v hm => by rw [(hv v hm).1]; decide
  have hrange : (vals.any fun v => !inRange v.1 v.2) = false :=
    List.any_eq_false.2 fun v hm => by rw [(hv v hm).2]; decide
  simp only [hk, hknown, hrange, Bool.false_eq_true, if_false, policyValues, setPolicy, openCmd_map, doneWith]

theorem mapPolicyGet_replies (hk : scopeKey sc = some k) :
    Replies (.mapPolicyGet q sc) q 0x400B (.vals (policyPids.map fun p =>
      RVal.u (((pidDesc? p).map (·.width)).getD 64) (policyAt s.map.policy p sc).toNat)) (fun s => s) s := by
  refine .of_kilak exec_mapPolicyGet rfl ?_
  simp only [hk, policyValues, openCmd_map, doneWith]

theorem mapHints_replies (hg : g < 512) :
    Replies (.mapHints q g) q 0x400C (.vals [.u 64 (Tab.getD s.map.hints g {}).demanded
      , .u 64 (Tab.getD s.map.hints g {}).granted, .u 64 (Tab.getD s.map.hints g {}).short
      , .lst 2 (Tab.getD s.map.hints g {}).onus]) (fun s => s) s :=
  .of_kilak exec_mapHints rfl (by simp [Nat.not_le.2 hg, doneWith])

theorem grantLatencyBind_replies (hu : u < 256) (hfree : Tab.get? s.mon.hist u = none) :
    Replies (.grantLatencyBind q isOnu n u) q 0x400D .ok
      (bindUnit u 10 (if isOnu then .onuLat n else .allocLat n)) s :=
  .of_kilak exec_grantLatencyBind rfl (by simp [Nat.not_le.2 hu, hfree, done])

theorem exec_hintPublish (ha : Acts s (marverBlk k)) :
    exec (.hintPublish k) s = .next ((List.range 8).foldl (fun s c => hintPublish (8 * k + c) s) s) := by
  change execHintPublish k s = _
  rw [execHintPublish, island_acts ha]

theorem hintPublish_notDue
    (h : s.clk.sfc < Tab.getD s.map.hintAt g 0 + (policyIn s.map.snap.policy 0x4A17 g).toNat) : hintPublish g s = s :=
  if_pos h

/-- A due publication: what was gathered, with at most four ONUs, and the gathering starts afresh (R195). -/
theorem hintPublish_due (h : Tab.getD s.map.hintAt g 0 + (policyIn s.map.snap.policy 0x4A17 g).toNat ≤ s.clk.sfc) :
    ∃ ids, ids.length ≤ 4 ∧ hintPublish g s = { s with map := { s.map with
      hints := Tab.set s.map.hints g { Tab.getD s.map.hintAcc g {} with onus := ids }
      hintAcc := Tab.erase s.map.hintAcc g
      unserved := Tab.erase s.map.unserved g
      hintAt := Tab.set s.map.hintAt g s.clk.sfc } } :=
  ⟨_, (List.length_map _).trans_le (List.length_take_le ..), if_neg (Nat.not_lt.2 h)⟩

end Sys2Proof.Machine
end

section
/-! SUPPORT. Marver images, traps and watches (R196, R197, R199). -/

namespace Sys2Proof.Machine

variable {s : State} {q : Req} {img : Image} {sfc k cause e : Nat}

theorem exec_marverImageLoad : exec (.marverImageLoad q img) s = execMarverImageLoad q img s := rfl

theorem exec_marverImageActivate : exec (.marverImageActivate q sfc) s = execMarverImageActivate q sfc s := rfl

theorem exec_marverStatus : exec (.marverStatus q k) s = execMarverStatus q k s := rfl

theorem marverImageLoad_waits (hw : ((List.range 64).any fun k => (s.core k).watchEnd.isSome) = false)
    (hi : imageRefused img 2 = false) (hl : img.length ≤ 196608) :
    Waits (.marverImageLoad q img) q 0x400E (keQueue (.image q .marver img)) s := by
  refine .of_kilak exec_marverImageLoad rfl ?_
  have hfits : (imageRefused img 2 || decide (196608 < img.length)) = false := by simp [hi, hl]
  simp only [openCmd_core, hw, hfits, Bool.false_eq_true, if_false, waits]

theorem marverImageLoad_busy (hw : ((List.range 64).any fun k => (s.core k).watchEnd.isSome) = true) :
    Replies (.marverImageLoad q img) q 0x400E (.err .busy) (fun s => s) s := by
  refine .of_kilak exec_marverImageLoad rfl ?_
  simp only [openCmd_core, hw, if_true, deny]

theorem marverImageActivate_replies (hsfc : s.clk.sfc + 8 ≤ sfc)
    (hst : ((List.range 64).any fun k => (s.core k).standby.isNone) = false) :
    Replies (.marverImageActivate q sfc) q 0x400F .ok (fun u =>
      (List.range 64).foldl (fun s k => onCore k (fun c => { c with activateAt := some sfc }) s) u) s := by
  refine .of_kilak exec_marverImageActivate rfl ?_
  simp only [openCmd_clk, openCmd_core, Nat.not_lt.2 hsfc, hst, Bool.false_eq_true, if_false, done]

theorem marverStatus_replies (hk : k < 64) :
    Replies (.marverStatus q k) q 0x4010 (.vals [.u 32 (s.core k).active.version
      , .u 32 (((s.core k).standby.map (·.version)).getD 0), .u 64 (flag (s.core k).watchEnd.isSome)
      , .u 32 (Tab.getD s.map.cyclesMax k 0)])
      (fun u => { u with map := { u.map with cyclesMax := Tab.erase u.map.cyclesMax k } }) s :=
  .of_kilak exec_marverStatus rfl (by simp [Nat.not_le.2 hk, doneWith])

theorem exec_marverCoreTrap (ha : Acts s (marverBlk k)) :
    exec (.marverCoreTrap k cause) s = .next (marverTrap k cause s) :=
  island_acts ha

theorem exec_marverWatchEnd (ha : Acts s (marverBlk k)) (hw : (s.core k).watchEnd = some e) (he : e ≤ s.clk.sfc)
    (hr : (s.core k).revertDue = false) : exec (.marverWatchEnd k) s
      = .next (onCore k (fun c => { c with standby := c.old, old := none, watchEnd := none }) s) := by
  change execMarverWatchEnd k s = _
  rw [execMarverWatchEnd, island_acts ha]
  simp [hw, he, hr]

/-- A step that leaves the counters leaves each count. -/
theorem count_of_ctr {t : State} (h : t.ctr = s.ctr) (c : Ctr) (i : Nat) : t.count c i = s.count c i := by
  rw [State.count, h, State.count]

@[simp] theorem raiseFault_ctr (b kind detail : Nat) (s : State) : (raiseFault b kind detail s).ctr = s.ctr := by
  rw [raiseFault_touch]

@[simp] theorem dropCredit_ctr (a : Nat) (s : State) : (dropCredit a s).ctr = s.ctr := by
  unfold dropCredit
  split <;> rfl

/-- A fold whose every step leaves the counters leaves them. -/
theorem foldl_ctr {α : Type} {f : State → α → State} (h : ∀ u a, (f u a).ctr = u.ctr) (l : List α) (s : State) :
    (l.foldl f s).ctr = s.ctr :=
  (List.foldl_hom State.ctr fun u a => (h u a).symm).symm.trans (List.foldl_fixed ..)

/-- A swap back counts as a swap back alone. -/
theorem marverRevert_count_trap (k i : Nat) (s : State) :
    (marverRevert k s).count .marverTrap i = s.count .marverTrap i :=
  count_bumpBy_other k 1 i (onCore k _ s) (by decide)

/-- The trap is counted once: neither its fault, a swap back, the restart nor the clearing of the tree's allocations
counts another. -/
theorem marverTrap_count (k cause : Nat) (s : State) :
    (marverTrap k cause s).count .marverTrap k = (s.count .marverTrap k + 1) % 2 ^ 64 := by
  unfold marverTrap
  extract_lets faulted swapped restarted
  have hfaulted : faulted.count .marverTrap k = (s.count .marverTrap k + 1) % 2 ^ 64 :=
    (count_of_ctr (raiseFault_ctr ..) ..).trans (count_bumpBy_self ..)
  have hswapped : swapped.count .marverTrap k = faulted.count .marverTrap k := by
    unfold swapped
    split
    · exact marverRevert_count_trap ..
    · rfl
  have hrestarted : restarted.count .marverTrap k = swapped.count .marverTrap k := count_of_ctr rfl ..
  refine (count_of_ctr (foldl_ctr (fun u e => ?_) _ _) _ _).trans (hrestarted.trans (hswapped.trans hfaulted))
  exact dropCredit_ctr e.1 u

end Sys2Proof.Machine
end

section
/-! PROOF. The statement on allocation contexts, map policy, hints, grant latency and Marver's firmware. -/

open Sys2Proof Sys2Proof.Machine

/-- Settles O34: each command and event by the lemma on its case. -/
theorem allocationsPolicyAndMarver : Obligations.AllocationsPolicyAndMarver := by
  intro s q onu id n g u k cause sfc bytes pos a o x sc vals img isOnu
  refine ⟨allocCreate_replies,
    fun hx => ⟨allocModify_replies hx, allocDestroy_waits hx, allocStatus_replies hx⟩,
    fun hk hv => ⟨mapPolicySet_replies hk hv, mapPolicyGet_replies hk⟩, mapHints_replies, grantLatencyBind_replies,
    marverImageLoad_waits, marverImageLoad_busy, marverImageActivate_replies, marverStatus_replies,
    fun ha => ⟨exec_hintPublish ha, ⟨hintPublish_notDue, fun hd => ?published⟩, marverTrap_count k cause s,
      exec_marverCoreTrap ha, exec_marverWatchEnd ha⟩,
    exec_bufferReport_missing, fun hx ho ha => ⟨exec_bufferReport_arrives hx ho ha, ?reported⟩⟩
  case published =>
    obtain ⟨ids, hlen, he⟩ := hintPublish_due hd
    refine ⟨ids, ?_, hlen, ?_, ?_⟩
    · rw [he, Tab.get?_set_self]
    · rw [he, Tab.getD_set_self]
    · rw [he]
  case reported =>
    rcases Nat.lt_or_ge pos x.reportPos with hp | hp
    · exact ⟨x, takeReport_earlier hx hp, fun _ => rfl, fun h => absurd hp (Nat.not_lt.2 h), rfl⟩
    · obtain ⟨y, hy, hfields⟩ := takeReport_later hx hp
      exact ⟨y, hy, fun h => absurd h (Nat.not_lt.2 hp), fun _ => hfields, rfl⟩

end

section
/-! SUPPORT. What the reports and actions after the evaluation of an upstream superframe leave of the lanes' records of
their channel pairs (R113, R121, R213 to R220, R457, R462). -/

namespace Sys2Proof.Machine

variable {s u v : State}

/-- A fold whose every step leaves the lanes' records leaves them. -/
theorem foldl_rxTab {α : Type} {f : State → α → State} (h : ∀ u a, (f u a).rx.ch = u.rx.ch) (l : List α) (s : State) :
    (l.foldl f s).rx.ch = s.rx.ch :=
  (List.foldl_hom (fun u : State => u.rx.ch) fun u a => (h u a).symm).symm.trans (List.foldl_fixed ..)

theorem ite_rxTab {c : Prop} [Decidable c] (hu : u.rx.ch = s.rx.ch) (hv : v.rx.ch = s.rx.ch) :
    (if c then u else v).rx.ch = s.rx.ch := by
  split <;> assumption

theorem rxCh_of_rxTab (g : Nat) (h : u.rx.ch = s.rx.ch) : u.rxCh g = s.rxCh g := by
  rw [State.rxCh, h, State.rxCh]

/-! ### Messages, ladder steps and retunes of an ONU -/

theorem plSend_rxTab (h : Nat) (m : PlMsg) (s : State) : (plSend h m s).rx.ch = s.rx.ch := by
  unfold plSend
  split <;> rfl

theorem ladderInterrupted_rxTab (h : Nat) (s : State) : (ladderInterrupted h s).rx.ch = s.rx.ch := by
  unfold ladderInterrupted
  split
  · exact ite_rxTab rfl rfl
  · rfl

theorem lobAction_rxTab (h : Nat) (s : State) : (lobAction h s).rx.ch = s.rx.ch := by
  unfold lobAction
  split
  · exact ite_rxTab (ladderInterrupted_rxTab h s) rfl
  · rfl

theorem sendEqd_rxTab (h eqd : Nat) (again : Bool) (s : State) : (sendEqd h eqd again s).rx.ch = s.rx.ch :=
  plSend_rxTab ..

theorem reRange_rxTab (h : Nat) (d : Int) (s : State) : (reRange h d s).rx.ch = s.rx.ch := by
  unfold reRange
  split
  · rfl
  · exact ite_rxTab ((sendEqd_rxTab ..).trans (ladderInterrupted_rxTab h s)) rfl

theorem startRetune_rxTab (cmd : Option Req) (source h target lead : Nat) (s : State) :
    (startRetune cmd source h target lead s).rx.ch = s.rx.ch := by
  unfold startRetune
  split
  · rfl
  · extract_lets q e tuning quiet sent
    have hsent : sent.rx.ch = s.rx.ch := plSend_rxTab ..
    exact ite_rxTab ((plSend_rxTab ..).trans hsent) hsent

theorem abandonTune_rxTab (h : Nat) (s : State) : (abandonTune h s).rx.ch = s.rx.ch := by
  unfold abandonTune
  split
  · rw [completeOpt_touch]
    rfl
  · rfl

/-! ### Release of a protection group -/

theorem sbSend_rxTab (t chan type param : Nat) (s : State) : (sbSend t chan type param s).rx.ch = s.rx.ch := rfl

theorem darken_rxTab (t : Nat) (s : State) : (darken t s).rx.ch = s.rx.ch := by
  unfold darken
  refine foldl_rxTab (fun u g => ?_) _ s
  exact ite_rxTab rfl (sbSend_rxTab ..)

theorem listen_rxTab (t : Nat) (s : State) : (listen t s).rx.ch = s.rx.ch := by
  unfold listen
  exact foldl_rxTab (by intros; rfl) _ s

theorem protLog_rxTab (k : Nat) (s : State) : (protLog k s).rx.ch = s.rx.ch := by
  unfold protLog ampLog
  exact ite_rxTab rfl rfl

theorem releaseGroup_rxTab (k : Nat) (s : State) : (releaseGroup k s).rx.ch = s.rx.ch := by
  unfold releaseGroup dropHold
  extract_lets dark
  have hdark : dark.rx.ch = s.rx.ch := (listen_rxTab ..).trans (darken_rxTab ..)
  exact ite_rxTab ((protLog_rxTab ..).trans hdark) hdark

theorem protFail_rxTab (k kind : Nat) (s : State) : (protFail k kind s).rx.ch = s.rx.ch := by
  unfold protFail
  exact ite_rxTab rfl (ite_rxTab (releaseGroup_rxTab ..) (ite_rxTab (releaseGroup_rxTab k s) rfl))

/-! ### Sparing -/

theorem spareOnu_rxTab (gs f : Nat) (downOk : Bool) (h : Nat) (o : Onu) (s : State) :
    (spareOnu gs f downOk h o s).rx.ch = s.rx.ch := by
  unfold spareOnu
  exact ite_rxTab (ite_rxTab (startRetune_rxTab ..) rfl) (ite_rxTab rfl rfl)

theorem abandonSpare_rxTab (t : Nat) (s : State) : (abandonSpare t s).rx.ch = s.rx.ch := by
  unfold abandonSpare
  extract_lets hs abandoned spared
  have habandoned : abandoned.rx.ch = s.rx.ch := foldl_rxTab (by intros; exact abandonTune_rxTab ..) hs s
  exact (foldl_rxTab (by intros; rfl) _ abandoned).trans habandoned

theorem spareChannel_rxTab (g c : Nat) (downOk : Bool) (s : State) : (spareChannel g c downOk s).rx.ch = s.rx.ch := by
  unfold spareChannel
  extract_lets t gs f params page framed emptied moved staged keyed lit sent profiled spared _ rested
  have hmoved : moved.rx.ch = s.rx.ch := foldl_rxTab (by intros; rfl) _ emptied
  have hkeyed : keyed.rx.ch = moved.rx.ch := foldl_rxTab (by intros; rfl) _ staged
  have hsent : sent.rx.ch = keyed.rx.ch := ite_rxTab rfl rfl
  have hprofiled : profiled.rx.ch = sent.rx.ch := by
    unfold profiled
    exact foldl_rxTab (by intros; exact ite_rxTab rfl rfl) _ sent
  have hspared : spared.rx.ch = profiled.rx.ch := by
    unfold spared
    exact foldl_rxTab (by intros; exact spareOnu_rxTab ..) _ profiled
  clear_value sent profiled spared
  have hrested : rested.rx.ch = spared.rx.ch := ite_rxTab rfl rfl
  exact hrested.trans (hspared.trans (hprofiled.trans (hsent.trans (hkeyed.trans hmoved))))

/-! ### The evaluation's reports and tests -/

theorem lobAll_rxTab (g : Nat) (s : State) : (lobAll g s).rx.ch = s.rx.ch := by
  unfold lobAll
  exact foldl_rxTab (by intros; exact lobAction_rxTab ..) _ s

theorem reportOnu_rxTab (g n : Nat) (standby drifted : Bool) (h : Nat) (s : State) :
    (reportOnu g n standby drifted h s).rx.ch = s.rx.ch := by
  unfold reportOnu
  refine foldl_rxTab (fun u k => ?_) _ s
  extract_lets r set noted reported counted
  have hcounted : counted.rx.ch = u.rx.ch := ite_rxTab rfl rfl
  exact ite_rxTab rfl (ite_rxTab hcounted (ite_rxTab ((lobAction_rxTab ..).trans hcounted)
    (ite_rxTab ((reRange_rxTab ..).trans hcounted) hcounted)))

theorem evalOnu_rxTab (g n : Nat) (standby : Bool) (es : List BurstEnd) (h : Nat) (s : State) :
    (evalOnu g n standby es h s).rx.ch = s.rx.ch := by
  unfold evalOnu
  exact reportOnu_rxTab ..

theorem channelReports_rxTab (g n : Nat) (standby : Bool) (old new : RxCh) (s : State) :
    (channelReports g n standby old new s).rx.ch = s.rx.ch := by
  unfold channelReports
  extract_lets los optics
  have hlos : los.rx.ch = s.rx.ch := ite_rxTab rfl (by split <;> rfl)
  have hoptics : optics.rx.ch = s.rx.ch := .trans (by unfold optics; split <;> rfl) hlos
  exact ite_rxTab hlos (ite_rxTab ((protFail_rxTab ..).trans hoptics) hoptics)

theorem treeTest_rxTab (t : Nat) (standby : Bool) (s : State) : (treeTest t standby s).rx.ch = s.rx.ch := by
  unfold treeTest
  extract_lets was now kept l _ listed told abandoned
  have htold : told.rx.ch = s.rx.ch := ite_rxTab rfl rfl
  have habandoned : abandoned.rx.ch = s.rx.ch := ite_rxTab htold ((abandonSpare_rxTab ..).trans htold)
  refine ite_rxTab htold (ite_rxTab (ite_rxTab habandoned ?_) ((protFail_rxTab ..).trans habandoned))
  exact (foldl_rxTab (fun u g => lobAll_rxTab g u) _ abandoned).trans habandoned

@[simp] theorem rxCh_onRxCh_self (g : Nat) (f : RxCh → RxCh) (s : State) : (onRxCh g f s).rxCh g = f (s.rxCh g) := by
  simp [State.rxCh, onRxCh]

/-- The test for CHANNEL_FAIL changes what it finds of the channel pair, not which superframe was evaluated. -/
theorem channelTest_evalSfc (g : Nat) (standby : Bool) (s : State) :
    ((channelTest g standby s).rxCh g).evalSfc = (s.rxCh g).evalSfc := by
  unfold channelTest
  extract_lets r hold fails tested failed
  have htested : (tested.rxCh g).evalSfc = (s.rxCh g).evalSfc := by simp [tested]
  rw [← htested]
  refine congrArg RxCh.evalSfc (rxCh_of_rxTab g (ite_rxTab rfl (ite_rxTab rfl ?_)))
  split
  · exact spareChannel_rxTab ..
  · exact lobAll_rxTab ..

end Sys2Proof.Machine
end

section
/-! SUPPORT. The evaluation of an upstream superframe, the lane PLLs, the SDB interval and the dying gasp (R209,
R215, R217). -/

namespace Sys2Proof.Machine

variable {s : State} {q : Req} {g h n t c u m : Nat} {o : Onu} {r : RxOnu}

theorem exec_upstreamEvaluation (ha : Acts s (ponBlk g)) :
    exec (.upstreamEvaluation g) s = .next (upstreamEvaluation g s) :=
  island_acts ha

@[simp] theorem losStep_evalSfc (s : State) (g : Nat) (kind : SfKind) (r : RxCh) :
    (losStep s g kind r).evalSfc = r.evalSfc := by
  cases kind <;> rfl

@[simp] theorem opticsStep_evalSfc (s : State) (g : Nat) (r : RxCh) : (opticsStep s g r).evalSfc = r.evalSfc := rfl

/-- An evaluation changes nothing where no new superframe is due on an evaluated channel pair; else it notes the due
one, before the reports and tests, which leave the note. -/
theorem upstreamEvaluation_cases (g : Nat) (s : State) :
    ((∀ n, s.evalDue g = some n → s.evaluated g = true → ∃ m, (s.rxCh g).evalSfc = some m ∧ n ≤ m)
      ∧ upstreamEvaluation g s = s)
    ∨ ∃ n, s.evalDue g = some n ∧ (∀ m, (s.rxCh g).evalSfc = some m → m < n)
      ∧ ((upstreamEvaluation g s).rxCh g).evalSfc = some n := by
  unfold upstreamEvaluation
  split
  next hnone => exact .inl ⟨fun n hd => absurd (hnone.symm.trans hd) (by simp), rfl⟩
  next n hd =>
  extract_lets before _ freed standby late taken missed es kind counted ended noted reported evaluated
  have hdone : ((channelTest g standby (treeTest (g / 8) standby evaluated)).rxCh g).evalSfc = some n := by
    have hnoted : (noted.rxCh g).evalSfc = some n := by simp [noted]
    have hreported : reported.rx.ch = noted.rx.ch := channelReports_rxTab ..
    have hevaluated : evaluated.rx.ch = reported.rx.ch :=
      foldl_rxTab (fun u h => evalOnu_rxTab g n standby es h u) _ reported
    have htree : (treeTest (g / 8) standby evaluated).rx.ch = noted.rx.ch :=
      (treeTest_rxTab ..).trans (hevaluated.trans hreported)
    rw [channelTest_evalSfc, rxCh_of_rxTab g htree, hnoted]
  clear_value evaluated
  by_cases he : s.evaluated g = true
  case neg => exact .inl ⟨fun _ _ h => absurd h he, if_pos (by simp [he])⟩
  case pos =>
    by_cases hold : ∃ m, (s.rxCh g).evalSfc = some m ∧ n ≤ m
    · obtain ⟨m, hm, hle⟩ := hold
      refine .inl ⟨fun k hk _ => ⟨m, hm, ?_⟩, if_pos (by simp [before, hm, hle])⟩
      rwa [← Option.some.inj (hd.symm.trans hk)]
    · refine .inr ⟨n, hd, fun m hm => Nat.not_le.1 fun hle => hold ⟨m, hm, hle⟩, ?_⟩
      rw [if_neg]
      · exact hdone
      · cases hm : (s.rxCh g).evalSfc with
        | none => simp [he]
        | some m => simpa [before, hm, he] using fun hle => hold ⟨m, hm, hle⟩

theorem upstreamEvaluation_notDue (hd : s.evalDue g = none) : upstreamEvaluation g s = s := by
  rcases upstreamEvaluation_cases g s with ⟨-, hsame⟩ | ⟨n, hn, -⟩
  · exact hsame
  · exact absurd (hd.symm.trans hn) (by simp)

theorem upstreamEvaluation_evaluated (hd : s.evalDue g = some n) (he : (s.rxCh g).evalSfc = some n) :
    upstreamEvaluation g s = s := by
  rcases upstreamEvaluation_cases g s with ⟨-, hsame⟩ | ⟨k, hk, hnew, -⟩
  · exact hsame
  · obtain rfl : n = k := Option.some.inj (hd.symm.trans hk)
    exact absurd (hnew n he) (Nat.lt_irrefl n)

theorem upstreamEvaluation_due (hd : s.evalDue g = some n) (hnew : ∀ m, (s.rxCh g).evalSfc = some m → m < n)
    (he : s.evaluated g = true) : ((upstreamEvaluation g s).rxCh g).evalSfc = some n := by
  rcases upstreamEvaluation_cases g s with ⟨hold, -⟩ | ⟨k, hk, -, hnoted⟩
  · obtain ⟨m, hm, hle⟩ := hold n hd he
    exact absurd (hnew m hm) (Nat.not_lt.2 hle)
  · rw [hnoted, ← hk, hd]

theorem exec_lanePllLockChange (ha : Acts s (ponBlk g)) (rx locked : Bool) :
    exec (.lanePllLockChange g rx locked) s
      = .next (onLaneCh g (fun c => if rx then { c with rxPll := locked } else { c with txPll := locked }) s) := by
  change execLanePllLockChange g rx locked s = _
  rw [execLanePllLockChange, island_acts ha]
  rfl

theorem exec_sdbIntervalEnd (ho : Tab.get? s.onu.ctx h = some o) (ha : Acts s (ponBlk o.g)) :
    exec (.sdbIntervalEnd h) s = .next (sdbEnd h s) := by
  change execSdbIntervalEnd h s = _
  rw [execSdbIntervalEnd, ho, Option.map_some, Option.getD_some, island_acts ha]

theorem sdbEnd_begins (ho : Tab.get? s.onu.ctx h = some o) (hr : (s.rxOnu h o.chan).sdbEnd = none) :
    sdbEnd h s = onRxOnu h o.chan (fun r => { r with
      sdbEnd := some (s.clk.now + msT (s.paramN 0x5021 o.g)), corr := 0, prot := 0 }) s := by
  simp only [sdbEnd, ho, hr]

theorem sdbEnd_runs (ho : Tab.get? s.onu.ctx h = some o) (hr : (s.rxOnu h o.chan).sdbEnd = some t)
    (ht : s.clk.now < t) : sdbEnd h s = s := by
  simp only [sdbEnd, ho, hr, if_pos ht]

/-- Many bits corrected set SDB where the ONU's profiles use FEC, and an ONU with FEC off never has it (R209). -/
theorem sdbEnd_enters (ho : Tab.get? s.onu.ctx h = some o) (hr : (s.rxOnu h o.chan).sdbEnd = some t)
    (ht : t ≤ s.clk.now) (hoff : bit (s.rxOnu h o.chan).det 3 = false)
    (hmany : (s.rxOnu h o.chan).prot ≤ (s.rxOnu h o.chan).corr * 10 ^ s.paramN 0x5020 o.g)
    (henough : 10 ^ (s.paramN 0x5020 o.g + 1) ≤ (s.rxOnu h o.chan).prot) :
    sdbEnd h s = onRxOnu h o.chan (fun r => { r with
      det := r.det % 8 + 8 * flag (o.usesFec s.clk.sfc), sdbHot := o.usesFec s.clk.sfc, corr := 0, prot := 0
      sdbEnd := some (t + msT (s.paramN 0x5021 o.g)) }) s := by
  simp [sdbEnd, ho, hr, Nat.not_lt.2 ht, hoff, hmany, henough]

theorem sdbEnd_clears (ho : Tab.get? s.onu.ctx h = some o) (hr : (s.rxOnu h o.chan).sdbEnd = some t)
    (ht : t ≤ s.clk.now)
    (hfew : (s.rxOnu h o.chan).corr * 10 ^ (s.paramN 0x5020 o.g + 1) < (s.rxOnu h o.chan).prot)
    (hon : bit (s.rxOnu h o.chan).det 3 = true) :
    sdbEnd h s = onRxOnu h o.chan (fun r => { r with
      det := r.det % 8, sdbHot := false, corr := 0, prot := 0
      sdbEnd := some (t + msT (s.paramN 0x5021 o.g)) }) s := by
  simp [sdbEnd, ho, hr, Nat.not_lt.2 ht, hon, hfew, flag]

theorem exec_dyingGaspExpiry (ho : Tab.get? s.onu.ctx h = some o) (ha : Acts s (ponBlk o.g)) :
    exec (.dyingGaspExpiry h) s = .next (gaspExpiry h s) := by
  change execDyingGaspExpiry h s = _
  rw [execDyingGaspExpiry, ho, Option.map_some, Option.getD_some, island_acts ha]

/-- The one record of the ONU forgets a dying gasp that the channel pair's evaluation has passed. -/
theorem gaspExpiry_single (ho : Tab.get? s.onu.ctx h = some o) (hc : c < 8) (hl : s.rx.onu = [(8 * h + c, r)])
    (hu : r.gaspUntil = some u) (hm : (s.rxCh (8 * o.tree + c)).evalSfc = some m) :
    gaspExpiry h s = { s with
      rx := { s.rx with onu := [(8 * h + c, if u < m then { r with gaspUntil := none } else r)] } } := by
  have hown : (8 * h + c) / 8 = h := by omega
  have hchan : (8 * h + c) % 8 = c := by omega
  simp [gaspExpiry, ho, hl, hown, hchan, hu, hm]

/-- A dying gasp whose last superframe the evaluation has not passed stays in force. -/
theorem gaspExpiry_inForce (ho : Tab.get? s.onu.ctx h = some o)
    (hin : ∀ e ∈ s.rx.onu, e.1 / 8 = h → ∀ u m, e.2.gaspUntil = some u →
      (s.rxCh (8 * o.tree + e.1 % 8)).evalSfc = some m → m ≤ u) :
    gaspExpiry h s = s := by
  simp only [gaspExpiry, ho]
  rw [List.map_congr_left (g := id), List.map_id]
  intro e he
  split
  · next hown =>
    split
    · next u m hu hm => rw [if_neg (Nat.not_lt.2 (hin e he (by simpa using hown) u m hu hm)), id]
    · rfl
  · rfl

end Sys2Proof.Machine
end

section
/-! SUPPORT. The commands on thresholds and receive statistics (R208, R223, R224). -/

namespace Sys2Proof.Machine

variable {s : State} {q : Req} {g h c : Nat} {o : Onu} {vals : List (Nat × Nat × Int)}

theorem exec_onuRxStats (chan : Option Nat) : exec (.onuRxStats q h chan) s = execOnuRxStats q h chan s := rfl

theorem exec_rxThresholdSet : exec (.rxThresholdSet q g vals) s = execRxThresholdSet q g vals s := rfl

theorem onuRxStats_replies (ho : Tab.get? s.onu.ctx h = some o) (hc : c < 8) :
    Replies (.onuRxStats q h (some c)) q 0x5001 (.vals (([Ctr.burstsExpected, .burstsClean, .burstsDamaged
      , .burstsMissing, .burstsForeign, .burstsDg, .fecCodewords, .fecCorrBits, .fecUncorr, .gemFrames, .gemDiscard
      , .gemHuntBytes, .dbruErr].map fun x => RVal.u 64 (s.count x (8 * h + c)))
      ++ ([Ctr.dyingGasp, .lobCount, .lodCount, .driftCount, .sdbCount].map fun x => RVal.u 64 (s.count x h))
      ++ [.i 32 (s.rxOnu h c).arrLast, .i 32 (s.rxOnu h c).arrMin, .i 32 (s.rxOnu h c).arrMax
        , .i 32 (meanOf (s.rxOnu h c).arr), .u 12 (s.rxOnu h c).rssi]))
      (onRxOnu h c (fun r => { r with arrMin := r.arrLast, arrMax := r.arrLast })) s := by
  refine .of_kilak (exec_onuRxStats _) rfl ?_
  simp only [onuRxStats, openCmd_onu, ho, Option.getD_some, if_neg (Nat.not_le.2 hc), openCmd_rxOnu, openCmd_count,
    doneWith]

theorem rxThresholdSet_replies (hg : g < 512)
    (hpid : (vals.all fun v => [0x5001, 0x5020, 0x5021, 0x5030, 0x5031].contains v.1) = true)
    (hrange : vals.all thresholdOk = true) :
    Replies (.rxThresholdSet q g vals) q 0x5003 .ok (fun u => vals.foldl (fun s v => setThreshold g v s) u) s := by
  refine .of_kilak exec_rxThresholdSet rfl ?_
  simp only [hpid, hrange, decide_eq_false (Nat.not_le.2 hg), Bool.not_true, Bool.or_self, Bool.false_eq_true, if_false,
    done]

end Sys2Proof.Machine
end

section
/-! PROOF. The statement on upstream evaluations, thresholds and receive statistics. -/

open Sys2Proof Sys2Proof.Machine

/-- Settles O36: each event and command by the lemma on its case. -/
theorem evaluationsThresholdsAndReceiveStats : Obligations.EvaluationsThresholdsAndReceiveStats := by
  intro s q g h n t c o vals locked
  refine ⟨fun ha => ?evaluation, fun ho ha => ?onu, rxThresholdSet_replies⟩
  case evaluation =>
    rw [exec_upstreamEvaluation ha]
    exact ⟨fun hd => congrArg _ (upstreamEvaluation_notDue hd),
      fun hd he => congrArg _ (upstreamEvaluation_evaluated hd he),
      fun hd hnew he => ⟨_, rfl, upstreamEvaluation_due hd hnew he⟩, rfl,
      exec_lanePllLockChange ha true locked, exec_lanePllLockChange ha false locked⟩
  case onu =>
    rw [exec_sdbIntervalEnd ho ha, exec_dyingGaspExpiry ho ha]
    exact ⟨fun hr => congrArg _ (sdbEnd_begins ho hr), fun hr ht => congrArg _ (sdbEnd_runs ho hr ht),
      fun hr ht hoff hmany henough => congrArg _ (sdbEnd_enters ho hr ht hoff hmany henough),
      fun hr ht hfew hon => congrArg _ (sdbEnd_clears ho hr ht hfew hon), rfl,
      fun r u m hc hl hu hm => congrArg _ (gaspExpiry_single ho hc hl hu hm),
      fun hin => congrArg _ (gaspExpiry_inForce ho hin), onuRxStats_replies ho⟩

end

section
/-! SUPPORT. Sparse tables: members and reads, and what a run of writes leaves and gives. -/

namespace Sys2Proof.Machine

variable {α β : Type} {t : Tab α} {i a : Nat} {x : α}

theorem Tab.mem_of_get? (h : Tab.get? t i = some x) : (i, x) ∈ t := by
  induction t with
  | nil => exact absurd h (by simp)
  | cons e t ih =>
    obtain ⟨k, v⟩ := e
    simp only [Tab.get?] at h
    split at h
    case isTrue hk => simp_all
    case isFalse => exact List.mem_cons_of_mem _ (ih h)

theorem Tab.le_of_mem (hw : Tab.wfFrom t a = true) (h : (i, x) ∈ t) : a ≤ i := by
  refine Nat.le_of_not_lt fun hlt => ?_
  induction t generalizing a with
  | nil => exact absurd h List.not_mem_nil
  | cons e t ih =>
    simp only [Tab.wfFrom, Bool.and_eq_true, decide_eq_true_eq] at hw
    obtain ⟨ha, hw⟩ := hw
    rcases List.mem_cons.1 h with rfl | h
    · omega
    · exact ih hw h (by omega)

theorem Tab.get?_of_mem (hw : Tab.wfFrom t a = true) (h : (i, x) ∈ t) : Tab.get? t i = some x := by
  induction t generalizing a with
  | nil => exact absurd h List.not_mem_nil
  | cons e t ih =>
    simp only [Tab.wfFrom, Bool.and_eq_true, decide_eq_true_eq] at hw
    rcases List.mem_cons.1 h with rfl | h
    · simp [Tab.get?]
    · have hlt := Tab.le_of_mem hw.2 h
      rw [Tab.get?, if_neg (by omega), ih hw.2 h]

/-- A run of writes leaves a key that none of them writes. -/
theorem Tab.get?_foldl_set_other (ws : List β) (key : β → Nat) (val : β → α) (t : Tab α) (h : ∀ w ∈ ws, key w ≠ i) :
    Tab.get? (ws.foldl (fun t w => Tab.set t (key w) (val w)) t) i = Tab.get? t i := by
  induction ws generalizing t with
  | nil => rfl
  | cons w ws ih =>
    rw [List.foldl_cons, ih _ fun v hv => h v (List.mem_cons_of_mem _ hv),
      Tab.get?_set_other _ _ (h w List.mem_cons_self).symm]

/-- A key that a run of writes writes holds the value of one of them. -/
theorem Tab.get?_foldl_set_mem (ws : List β) (key : β → Nat) (val : β → α) (t : Tab α) (h : ∃ w ∈ ws, key w = i) :
    ∃ w ∈ ws, Tab.get? (ws.foldl (fun t w => Tab.set t (key w) (val w)) t) i = some (val w) := by
  induction ws generalizing t with
  | nil => simp at h
  | cons w ws ih =>
    rw [List.foldl_cons]
    by_cases hrest : ∃ v ∈ ws, key v = i
    · obtain ⟨v, hv, hg⟩ := ih (Tab.set t (key w) (val w)) hrest
      exact ⟨v, List.mem_cons_of_mem _ hv, hg⟩
    · have hw : key w = i := by simpa [hrest] using h
      refine ⟨w, List.mem_cons_self, ?_⟩
      rw [Tab.get?_foldl_set_other _ _ _ _ fun v hv hk => hrest ⟨v, hv, hk⟩, hw, Tab.get?_set_self]

end Sys2Proof.Machine
end

section
/-! SUPPORT. The buckets of a member that leaves its aggregation group (R265). -/

namespace Sys2Proof.Machine

variable {port b m : Nat} {l : Lag}

theorem Lag.mem_bucketsOf_iff (hw : Tab.wf l.bucket = true) : b ∈ l.bucketsOf port ↔ l.member b = some port := by
  have hmem : b ∈ l.bucketsOf port ↔ (b, port) ∈ l.bucket := by simp [Lag.bucketsOf]
  exact hmem.trans ⟨Tab.get?_of_mem hw, Tab.mem_of_get?⟩

/-- The member that takes over the n-th bucket of one that leaves. -/
def Lag.heir (l : Lag) (port n : Nat) : Nat :=
  ((l.up.filter (· != port))[n % (l.up.filter (· != port)).length]?).getD 0

/-- The bucket table once a member's buckets are its heirs'. -/
def Lag.inherited (l : Lag) (port : Nat) : Tab Nat :=
  (l.bucketsOf port).zipIdx.foldl (fun t e => Tab.set t e.1 (l.heir port e.2)) l.bucket

theorem Lag.pass_eq (l : Lag) (port : Nat) : l.pass port =
    if (l.up.filter (· != port)).isEmpty then ({ l with up := l.up.filter (· != port), bucket := [] }, 0)
    else ({ l with up := l.up.filter (· != port), bucket := l.inherited port }, (l.bucketsOf port).length) := rfl

theorem Lag.pass_up (l : Lag) (port : Nat) : (l.pass port).1.up = l.up.filter (· != port) := by
  rw [Lag.pass_eq]
  split <;> rfl

/-- A bucket has a member after a departure only where members are left. -/
theorem Lag.member_pass (h : (l.pass port).1.member b = some m) :
    l.up.filter (· != port) ≠ [] ∧ Tab.get? (l.inherited port) b = some m := by
  rw [Lag.pass_eq] at h
  split at h
  case isTrue => exact absurd h (by simp [Lag.member])
  case isFalse hne => exact ⟨by simpa using hne, h⟩

theorem Lag.heir_mem {n : Nat} (hne : l.up.filter (· != port) ≠ []) : l.heir port n ∈ l.up ∧ l.heir port n ≠ port := by
  have hlt : n % (l.up.filter (· != port)).length < (l.up.filter (· != port)).length :=
    Nat.mod_lt _ (List.length_pos_iff.2 hne)
  have hmem : l.heir port n ∈ l.up.filter (· != port) := by
    rw [Lag.heir, List.getElem?_eq_getElem hlt]
    exact List.getElem_mem hlt
  simpa using hmem

theorem Lag.member_pass_other (hm : (l.pass port).1.member b = some m) (hb : l.member b ≠ some port)
    (hw : Tab.wf l.bucket = true) : l.member b = some m := by
  have hnot : b ∉ l.bucketsOf port := fun h => hb ((Lag.mem_bucketsOf_iff hw).1 h)
  obtain ⟨-, hget⟩ := Lag.member_pass hm
  have hkeys : ∀ e ∈ (l.bucketsOf port).zipIdx, e.1 ≠ b := fun e he hk => hnot (hk ▸ List.fst_mem_of_mem_zipIdx he)
  exact (Tab.get?_foldl_set_other (l.bucketsOf port).zipIdx (·.1) (fun e => l.heir port e.2) _ hkeys).symm.trans hget

theorem Lag.member_pass_own (hm : (l.pass port).1.member b = some m) (hb : l.member b = some port)
    (hw : Tab.wf l.bucket = true) : m ∈ l.up ∧ m ≠ port := by
  have hmine : b ∈ l.bucketsOf port := (Lag.mem_bucketsOf_iff hw).2 hb
  obtain ⟨hne, hget⟩ := Lag.member_pass hm
  have hkey : ∃ e ∈ (l.bucketsOf port).zipIdx, e.1 = b :=
    List.exists_mem_zipIdx'.2 (List.mem_iff_getElem.1 hmine)
  obtain ⟨e, -, he⟩ :=
    Tab.get?_foldl_set_mem (l.bucketsOf port).zipIdx (·.1) (fun e => l.heir port e.2) l.bucket hkey
  obtain rfl : m = l.heir port e.2 := Option.some.inj (hget.symm.trans he)
  exact Lag.heir_mem hne

end Sys2Proof.Machine
end

section
/-! SUPPORT. The commands and events of the aggregation groups (R262, R263, R265, R267, R268). -/

namespace Sys2Proof.Machine

variable {s : State} {q : Req} {grp port : Nat} {ports : List Nat} {l : Lag}

theorem exec_lagCreate : exec (.lagCreate q grp ports) s = execLagCreate q grp ports s := rfl

theorem exec_lagMemberSet : exec (.lagMemberSet q grp ports) s = execLagMemberSet q grp ports s := rfl

theorem exec_lagDestroy : exec (.lagDestroy q grp) s = execLagDestroy q grp s := rfl

theorem exec_lagStatus : exec (.lagStatus q grp) s = execLagStatus q grp s := rfl

theorem exec_classStats {kind : Nat} : exec (.classStats q kind port) s = execClassStats q kind port s := rfl

theorem exec_lagMemberDown (ha : Acts s (sliceBlk (port / 32) 3)) :
    exec (.lagMemberDown grp port) s = .next (lagDown grp port s) :=
  island_acts ha

theorem exec_lagMemberUp (ha : Acts s (sliceBlk (port / 32) 3)) :
    exec (.lagMemberUp grp port) s = .next (lagUp grp port s) :=
  island_acts ha

/-- The reorder timeout is an act of the egress half of the group's first port. -/
theorem exec_lagReorderTimeout (hl : s.lagOf grp = some l) (ha : Acts s (sliceBlk (l.ports.headD 0 / 32) 3)) :
    exec (.lagReorderTimeout grp) s = .next (reorderTimeout grp s) := by
  change execLagReorderTimeout grp s = _
  rw [execLagReorderTimeout, hl]
  exact island_acts ha

/-! ### Commands -/

theorem lagCreate_replies (hg : grp < 64) (hl : s.lagOf grp = none) (hok : s.lagPortsOk grp ports = true) :
    Replies (.lagCreate q grp ports) q 0x6009 .ok
      (fun u => { u with cls := { u.cls with lag := Tab.set u.cls.lag grp (s.freshLag ports) } }) s := by
  refine .of_kilak exec_lagCreate rfl ?_
  simp [Nat.not_le.2 hg, hl, hok, done]

theorem lagDestroy_replies (hl : s.lagOf grp = some l) (ha : s.namedByAction 1 grp (fun _ _ _ => true) = false)
    (he : s.namedByEntry 1 grp = false) : Replies (.lagDestroy q grp) q 0x600B .ok
      (fun u => { u with cls := { u.cls with lag := Tab.erase u.cls.lag grp } }) s := by
  refine .of_kilak exec_lagDestroy rfl ?_
  simp [hl, ha, he, done]

theorem lagMemberSet_replies (hl : s.lagOf grp = some l) (hok : s.lagPortsOk grp ports = true)
    (hkeep : ∀ p ∈ l.ports, p ∈ ports) (hmode : (s.freshLag ports).roundRobin = l.roundRobin) :
    Replies (.lagMemberSet q grp ports) q 0x600A .ok (fun u =>
      ((s.freshLag ports).up.filter fun p => !l.up.contains p).foldl (fun s p => lagUp grp p s)
        (onLag grp (fun l => { l with
          ports := (s.freshLag ports).ports, out := l.out.filter ports.contains }) u)) s := by
  refine .of_kilak exec_lagMemberSet rfl ?_
  have hnone : (l.ports.filter fun p => !ports.contains p) = [] := by simpa using hkeep
  simp only [lagMemberSet, openCmd_lagOf, openCmd_lagPortsOk, hl, hok, hnone, List.foldl_nil, openCmd_freshLag, hmode,
    Bool.not_true, bne_self_eq_false, Bool.false_eq_true, if_false, done]

theorem lagStatus_replies (hl : s.lagOf grp = some l) : Replies (.lagStatus q grp) q 0x600C
    (.vals [.u 64 (flag (!l.roundRobin)), .lst 1 (l.ports ++ List.replicate (16 - l.ports.length) 255)
      , .lst 1 ((List.range 256).map fun b => (l.member b).getD 255)]) id s := by
  refine .of_kilak exec_lagStatus rfl ?_
  simp [hl, doneWith]

theorem classStats_group (hg : grp < 64) : Replies (.classStats q 3 grp) q 0x600D
    (.vals ([Ctr.lagRrSkip, .lagNoMember, .lagBucketMoves].map fun x => RVal.u 64 (s.count x grp))) id s :=
  .of_kilak exec_classStats rfl (by simp [Nat.not_le.2 hg, doneWith])

theorem classStats_port (hp : port < 256) : Replies (.classStats q 0 port) q 0x600D
    (.vals ([Ctr.parseIncomplete, .lenConflict, .classMiss].map fun x => RVal.u 64 (s.count x (srcIdx 1 port)))) id s :=
  .of_kilak exec_classStats rfl (by simp [Nat.not_le.2 hp, doneWith])

theorem classStats_noPort (hp : 256 ≤ port) : Replies (.classStats q 0 port) q 0x600D (.err .badArg) id s :=
  .of_kilak exec_classStats rfl (by simp [hp, deny])

/-! ### Members down and up -/

theorem lagDown_member (hl : s.lagOf grp = some l) (hp : port ∈ l.up) : lagDown grp port s =
    bumpBy .lagBucketMoves grp (l.pass port).2 (dropAssigned grp port (onLag grp (fun _ => (l.pass port).1) s)) := by
  simp [lagDown, hl, hp]

theorem lagDown_notUp (hl : s.lagOf grp = some l) (hp : port ∉ l.up) : lagDown grp port s = s := by
  simp [lagDown, hl, hp]

theorem lagUp_member (hl : s.lagOf grp = some l) (hdown : port ∉ l.up) (hp : port ∈ l.ports) : lagUp grp port s =
    bumpBy .lagBucketMoves grp (l.join port).2 (onLag grp (fun _ => (l.join port).1) s) := by
  simp [lagUp, hl, hdown, hp]

/-! ### The reorder timeout -/

/-- The sequence numbers of a group's packets out of turn that have waited past lag.reorder_wait at a MAC (R263). -/
def State.lagOverdue (s : State) (grp : Nat) (l : Lag) : List Nat :=
  s.sch.tx.flatMap fun e => e.2.filterMap fun f => match f.lag with
    | some (g, n) => if g == grp && decide (l.started < n) && decide (f.since + usT (s.paramN 0x6040 0) ≤ s.clk.now)
      then some n else none
    | none => none

/-- A group goes on from the earliest of the packets that wait. -/
def lagSkip (grp n : Nat) (ns : List Nat) (s : State) : State :=
  bump .lagRrSkip grp (onLag grp (fun l => { l with started := ns.foldl min n }) s)

/-- The member that holds back a group's next packet is left out. -/
def lagLeaveOut (grp p : Nat) (s : State) : State :=
  onLag grp (fun l => { l with out := if l.out.contains p then l.out else l.out ++ [p] }) s

theorem reorderTimeout_eq (hl : s.lagOf grp = some l) : reorderTimeout grp s =
    match s.lagOverdue grp l, s.lagBlocker grp l.started with
    | [], _ => s
    | n :: ns, none => lagSkip grp n ns s
    | n :: ns, some p => lagSkip grp n ns (lagLeaveOut grp p s) := by
  rw [reorderTimeout, hl]
  change (match s.lagOverdue grp l with | [] => s | n :: ns => _) = _
  cases s.lagOverdue grp l <;> cases s.lagBlocker grp l.started <;> rfl

theorem reorderTimeout_none (hl : s.lagOf grp = some l) (hw : s.lagOverdue grp l = []) : reorderTimeout grp s = s := by
  rw [reorderTimeout_eq hl, hw]

theorem reorderTimeout_skips {n : Nat} {ns : List Nat} (hl : s.lagOf grp = some l)
    (hw : s.lagOverdue grp l = n :: ns) (hb : s.lagBlocker grp l.started = none) :
    reorderTimeout grp s = lagSkip grp n ns s := by
  rw [reorderTimeout_eq hl, hw, hb]

theorem reorderTimeout_leavesOut {n p : Nat} {ns : List Nat} (hl : s.lagOf grp = some l)
    (hw : s.lagOverdue grp l = n :: ns) (hb : s.lagBlocker grp l.started = some p) :
    reorderTimeout grp s = lagSkip grp n ns (lagLeaveOut grp p s) := by
  rw [reorderTimeout_eq hl, hw, hb]

end Sys2Proof.Machine
end

section
/-! PROOF. The statement on aggregation groups. -/

open Sys2Proof Sys2Proof.Machine

/-- Settles O40: each command and event by the lemma on its case. -/
theorem aggregationGroups : Obligations.AggregationGroups := by
  intro s q grp port b m ports l
  refine ⟨lagCreate_replies, fun hl => ⟨lagDestroy_replies hl, lagMemberSet_replies hl, lagStatus_replies hl,
      fun ha => ?members, fun ha => ?reorder⟩,
    classStats_group, classStats_port, classStats_noPort, l.pass_up port, Lag.member_pass_other, Lag.member_pass_own⟩
  case members =>
    rw [exec_lagMemberDown ha, exec_lagMemberUp ha]
    exact ⟨fun hp => congrArg _ (lagDown_member hl hp), fun hp => congrArg _ (lagDown_notUp hl hp),
      fun hdown hp => congrArg _ (lagUp_member hl hdown hp)⟩
  case reorder =>
    rw [exec_lagReorderTimeout hl ha]
    exact ⟨fun hw => congrArg _ (reorderTimeout_none hl hw),
      fun _ _ hw hb => congrArg _ (reorderTimeout_skips hl hw hb),
      fun _ _ _ hw hb => congrArg _ (reorderTimeout_leavesOut hl hw hb)⟩

end

section
/-! SUPPORT. The commands on Facet images and their entries (R240 to R247, R268). -/

namespace Sys2Proof.Machine

variable {s : State} {q : Req} {sl grp idx i : Nat} {ld : FacetLoad} {e : FacetEntry} {r : ActionRec} {x : FacetSl}

theorem exec_facetImageLoad : exec (.facetImageLoad q sl grp ld) s = execFacetImageLoad q sl grp ld s := rfl

theorem exec_facetImageCommit : exec (.facetImageCommit q sl) s = execFacetImageCommit q sl s := rfl

theorem exec_facetImageWithdraw {meet : Bool} :
    exec (.facetImageWithdraw q sl meet) s = execFacetImageWithdraw q sl meet s := rfl

theorem exec_facetImageSwap {us : Nat} : exec (.facetImageSwap q sl us) s = execFacetImageSwap q sl us s := rfl

theorem exec_facetEntryInsert :
    exec (.facetEntryInsert q sl grp idx e r) s = execFacetEntryInsert q sl grp idx e r s := rfl

theorem exec_facetEntryDelete : exec (.facetEntryDelete q sl grp idx) s = execFacetEntryDelete q sl grp idx s := rfl

theorem exec_facetEntryRead : exec (.facetEntryRead q sl grp idx) s = execFacetEntryRead q sl grp idx s := rfl

theorem exec_facetEpochStatus : exec (.facetEpochStatus q sl) s = execFacetEpochStatus q sl s := rfl

/-- A write of a WRITABLE page while no epoch drains replies what its body answers (R31, R241). -/
theorem Replies.of_facetWrite {j : Instr} {op : Nat} {a : Reply} {f : State → State}
    {body : State → State × Option Reply} {o : Host.Outcome State Fault Refusal}
    (hd : (s.facet sl).draining = false) (hc : (s.facet sl).committed = false) (hi : exec j s = o)
    (ho : o = kilak q op (facetWrite sl body) s) (hb : body (openCmd q op s) = (f (openCmd q op s), some a)) :
    Replies j q op a f s :=
  .of_kilak hi ho (by simpa [facetWrite, hd, hc] using hb)

/-! ### Loading (R243) -/

theorem facetImageLoad_replies (hs : sl < 8) (hd : (s.facet sl).draining = false)
    (hc : (s.facet sl).committed = false) (hg : grp < 2) (hgang : gangsOk ld.width ld.banks = true)
    (hrec : ∀ r ∈ ld.records, r.1 < 16384)
    (hfree : ((s.facet sl).entry.any fun e => entryMeets grp ld.banks e && bit e.2.pg ((s.facet sl).epoch % 2)) = false)
    (hfit : ld.entries.length
      ≤ (leaders ld.width ld.banks).length * (2048 - 2048 / max 2 (s.paramN 0x6010 0))) :
    let ls := (leaders ld.width ld.banks).mergeSort fun a b => decide (a ≤ b)
    let put := fun (t : Tab FacetEntry) (e : FacetEntry × Nat) =>
      Tab.set t (entKey grp (loadIndex (max 2 (s.paramN 0x6010 0)) ls e.2))
        { e.1 with valid := true, pg := 2 ^ (s.facet sl).spare }
    Replies (.facetImageLoad q sl grp ld) q 0x6000 .ok (onFacet sl (fun x => { x with
      entry := ld.entries.zipIdx.foldl put ((s.facet sl).entry.filter fun e => !entryMeets grp ld.banks e)
      width := ld.banks.foldl (fun t b => Tab.set t (widthKey (s.facet sl).spare grp b) ld.width) x.width
      recs := ld.records.foldl (fun t r => Tab.set t (recKeyOf (s.facet sl).spare grp r.1) r.2) x.recs })) s := by
  intro ls put
  refine .of_facetWrite hd hc exec_facetImageLoad rfl ?_
  have hrecs : (ld.records.any fun r => decide (16384 ≤ r.1)) = false := by simpa using hrec
  have hargs : (decide (8 ≤ sl) || decide (2 ≤ grp) || !gangsOk ld.width ld.banks
      || ld.records.any fun r => decide (16384 ≤ r.1)) = false := by
    simp only [hgang, hrecs, Nat.not_le.2 hs, Nat.not_le.2 hg, decide_false, Bool.not_true, Bool.or_self]
  simp only [facetLoad, openCmd_facet, openCmd_paramN, hargs, hfree, List.length_mergeSort, Nat.not_lt.2 hfit,
    Bool.false_eq_true, if_false, done, ls, put]

/-! ### Insertion and deletion (R244 to R247) -/

theorem facetEntryInsert_replies (hs : sl < 8) (hd : (s.facet sl).draining = false)
    (hc : (s.facet sl).committed = false) (hg : grp < 2) (hi : idx < 16384) (ha : e.action < 16384)
    (hx : (s.facet sl).insertAt grp idx e r = some (x, i)) :
    Replies (.facetEntryInsert q sl grp idx e r) q 0x6004 (.vals [.u 24 i]) (onFacet sl (fun _ => x)) s := by
  refine .of_facetWrite hd hc exec_facetEntryInsert rfl ?_
  simp [facetInsert, Nat.not_le.2 hs, Nat.not_le.2 hg, Nat.not_le.2 hi, Nat.not_le.2 ha, hx, doneWith]

theorem facetEntryDelete_badArg (hd : (s.facet sl).draining = false) (hc : (s.facet sl).committed = false)
    (h : 2 ≤ grp ∨ 16384 ≤ idx) : Replies (.facetEntryDelete q sl grp idx) q 0x6005 (.err .badArg) id s := by
  refine .of_facetWrite hd hc exec_facetEntryDelete rfl ?_
  have hout : (decide (grp < 2) && decide (idx < 16384)) = false := by
    rw [Bool.and_eq_false_iff, decide_eq_false_iff_not, decide_eq_false_iff_not]
    omega
  simp only [facetDelete, hout, Bool.false_eq_true, if_false, deny, id]

/-- The pages an entry stays in once it leaves the page that is not ACTIVE. -/
def FacetSl.keptPages (x : FacetSl) (e : FacetEntry) : Nat := if bit e.pg x.spare then e.pg - 2 ^ x.spare else e.pg

theorem facetEntryDelete_replies (hd : (s.facet sl).draining = false) (hc : (s.facet sl).committed = false)
    (hg : grp < 2) (hi : idx < 16384) (he : Tab.get? (s.facet sl).entry (entKey grp idx) = some e) :
    Replies (.facetEntryDelete q sl grp idx) q 0x6005 .ok (onFacet sl (fun x => { x with
      entry := if (s.facet sl).keptPages e = 0 then Tab.erase (s.facet sl).entry (entKey grp idx)
        else Tab.set (s.facet sl).entry (entKey grp idx) { e with pg := (s.facet sl).keptPages e } })) s := by
  refine .of_facetWrite hd hc exec_facetEntryDelete rfl ?_
  simp only [facetDelete, openCmd_facet, hg, hi, decide_true, Bool.and_self, if_true, he, done]
  rfl

theorem bit_two_pow_self (n : Nat) : bit (2 ^ n) n = true := by
  simp [bit, Nat.div_self (Nat.two_pow_pos n)]

theorem FacetSl.keptPages_spare (h : e.pg = 2 ^ x.spare) : x.keptPages e = 0 := by
  simp [FacetSl.keptPages, h, bit_two_pow_self]

/-- An entry of both pages stays in the ACTIVE one. -/
theorem FacetSl.keptPages_both (h : e.pg = 3) : x.keptPages e = 2 ^ (x.epoch % 2) := by
  rw [FacetSl.keptPages, FacetSl.spare, h]
  rcases Nat.mod_two_eq_zero_or_one x.epoch with h0 | h1
  · rw [h0, show (x.epoch + 1) % 2 = 1 by omega]
    decide
  · rw [h1, show (x.epoch + 1) % 2 = 0 by omega]
    decide

theorem facetEntryDelete_spare (hd : (s.facet sl).draining = false) (hc : (s.facet sl).committed = false)
    (hg : grp < 2) (hi : idx < 16384) (he : Tab.get? (s.facet sl).entry (entKey grp idx) = some e)
    (hp : e.pg = 2 ^ (s.facet sl).spare) :
    Replies (.facetEntryDelete q sl grp idx) q 0x6005 .ok (onFacet sl (fun x =>
      { x with entry := Tab.erase (s.facet sl).entry (entKey grp idx) })) s := by
  simpa [FacetSl.keptPages_spare hp] using facetEntryDelete_replies (q := q) hd hc hg hi he

theorem facetEntryDelete_both (hd : (s.facet sl).draining = false) (hc : (s.facet sl).committed = false)
    (hg : grp < 2) (hi : idx < 16384) (he : Tab.get? (s.facet sl).entry (entKey grp idx) = some e) (hp : e.pg = 3) :
    Replies (.facetEntryDelete q sl grp idx) q 0x6005 .ok (onFacet sl (fun x => { x with
      entry := Tab.set (s.facet sl).entry (entKey grp idx) { e with pg := 2 ^ ((s.facet sl).epoch % 2) } })) s := by
  simpa [FacetSl.keptPages_both hp] using facetEntryDelete_replies (q := q) hd hc hg hi he

/-! ### Commit, withdraw, swap (R240 to R242) -/

theorem facetImageCommit_replies (hs : sl < 8) (hc : (s.facet sl).committed = false)
    (hswap : (s.facet sl).swap = none) : Replies (.facetImageCommit q sl) q 0x6001 .ok
      (onFacet sl (fun x => { x with committed := true })) s :=
  .of_kilak exec_facetImageCommit rfl (by simp [Nat.not_le.2 hs, hswap, hc, done])

theorem facetImageCommit_busy (hs : sl < 8) (hswap : (s.facet sl).swap.isSome = true) :
    Replies (.facetImageCommit q sl) q 0x6001 (.err .busy) id s :=
  .of_kilak exec_facetImageCommit rfl (by simp [Nat.not_le.2 hs, hswap, deny])

theorem facetImageWithdraw_replies (hs : sl < 8) (hc : (s.facet sl).committed = true) :
    Replies (.facetImageWithdraw q sl false) q 0x6002 .ok (onFacet sl (fun x => { x with committed := false })) s :=
  .of_kilak exec_facetImageWithdraw rfl (by simp [Nat.not_le.2 hs, hc, done])

theorem facetImageSwap_waits {us : Nat} (hs : sl < 8) (hswap : (s.facet sl).swap = none) :
    Waits (.facetImageSwap q sl us) q 0x6003
      (onFacet sl (fun x => { x with swap := some { cmd := q, deadline := s.clk.now + usT us } })) s :=
  .of_kilak exec_facetImageSwap rfl (by simp [Nat.not_le.2 hs, hswap, waits])

/-! ### Reads (R268) -/

theorem facetEpochStatus_replies (hs : sl < 8) : Replies (.facetEpochStatus q sl) q 0x6007
    (.vals [.u 8 (s.facet sl).epoch, .u 32 ((s.facet sl).inFlight (s.facet sl).epoch)
      , .u 32 ((s.facet sl).inFlight ((s.facet sl).epoch + 1)), .u 64 ((s.facet sl).pageState 0)
      , .u 64 ((s.facet sl).pageState 1), .u 8 (s.facet sl).level]) id s :=
  .of_kilak exec_facetEpochStatus rfl (by simp [Nat.not_le.2 hs, doneWith])

theorem facetEntryRead_replies (hs : sl < 8) (hg : grp < 2) (hi : idx < 16384)
    (he : Tab.get? (s.facet sl).entry (entKey grp idx) = some e) : Replies (.facetEntryRead q sl grp idx) q 0x6006
      (.vals [.lst 44 (FacetEntry.words e), .rcd 128 (ActionRec.word ((s.facet sl).record 0 grp e.action))
        , .rcd 128 (ActionRec.word ((s.facet sl).record 1 grp e.action))]) id s :=
  .of_kilak exec_facetEntryRead rfl
    (by simp [Nat.not_le.2 hs, Nat.not_le.2 hg, Nat.not_le.2 hi, he, doneWith])

end Sys2Proof.Machine
end

section
/-! SUPPORT. Facet epochs: the boundary, the drain, a swap's deadline, and the throttle's samples (R240, R241, R248,
R249). -/

namespace Sys2Proof.Machine

variable {s : State} {sl n i : Nat} {w : FacetSwap}

/-! ### Epochs (R240, R241) -/

theorem exec_facetEpochBoundary (h0 : Acts s (facetBlk sl 0)) (h1 : Acts s (facetBlk sl 1)) :
    exec (.facetEpochBoundary sl) s = .next (epochBoundary sl s) := by
  obtain ⟨hdef0, hup0⟩ := h0
  obtain ⟨hdef1, hup1⟩ := h1
  change execFacetEpochBoundary sl s = _
  rw [execFacetEpochBoundary, guardBlks_ok (by simp [hdef0, hdef1])]
  simp [hup0, hup1]

theorem exec_facetEpochDrain (h0 : Acts s (facetBlk sl 0)) (h1 : Acts s (facetBlk sl 1)) :
    exec (.facetEpochDrain sl) s = .next (epochDrain sl s) := by
  obtain ⟨hdef0, hup0⟩ := h0
  obtain ⟨hdef1, hup1⟩ := h1
  change execFacetEpochDrain sl s = _
  rw [execFacetEpochDrain, guardBlks_ok (by simp [hdef0, hdef1])]
  simp [hup0, hup1]

theorem exec_facetSwapTimeout (ha : Acts s 104) : exec (.facetSwapTimeout sl) s = .next (swapTimeout sl s) :=
  island_acts ha

theorem epochBoundary_fails (hw : (s.facet sl).swap = some w) (hd : w.draining = false)
    (hc : (s.facet sl).committed = true) (hf : s.facetCheck sl = some (n, i)) : epochBoundary sl s =
      complete w.cmd 0x6003 { code := .badArg, detail := n % 256 * 2 ^ 24 + i }
        (bump .facetReject sl (onFacet sl (fun x => { x with committed := false, swap := none }) s)) := by
  simp [epochBoundary, hw, hd, hc, hf]

theorem epochBoundary_passes (hw : (s.facet sl).swap = some w) (hd : w.draining = false)
    (hc : (s.facet sl).committed = true) (hp : s.facetCheck sl = none) : epochBoundary sl s =
      onFacet sl (fun x => { x with
        epoch := (x.epoch + 1) % 256, committed := false, swap := some { w with draining := true } }) s := by
  simp [epochBoundary, hw, hd, hc, hp]

theorem epochDrain_drained (hw : (s.facet sl).swap = some w) (hd : w.draining = true)
    (hf : (s.facet sl).inFlight ((s.facet sl).epoch + 1) = 0) : epochDrain sl s =
      complete w.cmd 0x6003 (.vals [.u 8 (s.facet sl).epoch])
        (onFacet sl (fun x => { x.equalise with swap := none }) s) := by
  simp [epochDrain, hw, hd, hf]

theorem swapTimeout_due (hw : (s.facet sl).swap = some w) (hd : w.draining = false) (ht : w.deadline ≤ s.clk.now) :
    swapTimeout sl s =
      complete w.cmd 0x6003 (.err .timeout) (onFacet sl (fun x => { x with swap := none }) s) := by
  simp [swapTimeout, hw, hd, Nat.not_lt.2 ht]

/-! ### The throttle (R248, R249) -/

theorem exec_facetThrottleSample {tA tB : Int} (h0 : s.undefinedBlk (facetBlk sl 0) = false)
    (h1 : s.undefinedBlk (facetBlk sl 1) = false)
    (hup : s.islandUp (facetBlk sl 0) = true ∨ s.islandUp (facetBlk sl 1) = true) :
    exec (.facetThrottleSample sl tA tB) s = .next (throttleSample sl tA tB s) := by
  change execFacetThrottleSample sl tA tB s = _
  rw [execFacetThrottleSample, guardBlks_ok (by simp [h0, h1])]
  simp [hup]

/-- At T_s or below no level is called for, so the level never rises. -/
theorem throttleNext_atStart (old : Nat) (ts : Int) : throttleNext old ts ts ≤ old := by
  have hnone : (if ts ≤ ts then 0 else min 7 ((ts - ts + 29) / 30).toNat) = 0 := if_pos (le_refl ts)
  rw [throttleNext, hnone]
  split
  · exact Nat.zero_le old
  · split
    · exact Nat.sub_le old 1
    · exact le_refl old

/-- From level 0 the level called for is taken at once. -/
theorem throttleNext_fromZero {ts : Int} {d : Nat} (hd : 0 < d) :
    throttleNext 0 (ts + d) ts = min 7 ((d + 29) / 30) := by
  have habove : ¬ ts + d ≤ ts := by omega
  have hdeg : ((ts + d - ts + 29) / 30).toNat = (d + 29) / 30 := by omega
  simp only [throttleNext, habove, if_false, hdeg, Nat.zero_le, if_true]

end Sys2Proof.Machine
end

section
/-! PROOF. The statement on Facet images and epochs. -/

open Sys2Proof Sys2Proof.Machine

/-- Settles O37: each command and event by the lemma on its case. -/
theorem facetImagesAndEpochs : Obligations.FacetImagesAndEpochs := by
  intro s q sl grp idx us n i ld e r x w tA tB
  refine ⟨fun hs hd hc => ⟨facetImageLoad_replies hs hd hc, facetEntryInsert_replies hs hd hc,
      facetEntryDelete_badArg hd hc, fun hg hi he => ⟨facetEntryDelete_spare hd hc hg hi he,
        facetEntryDelete_both hd hc hg hi he⟩,
      facetImageCommit_replies hs hc, facetImageCommit_busy hs⟩,
    facetImageWithdraw_replies, facetImageSwap_waits, fun h0 h1 hw => ⟨fun hd hc => ?boundary, fun hd hf => ?drain⟩,
    fun ha hw hd ht => ?timeout,
    fun hs => ⟨facetEpochStatus_replies hs, facetEntryRead_replies hs⟩,
    exec_facetThrottleSample,
    fun old ts => ⟨throttleNext_atStart old ts, throttleNext_fromZero (d := 10) (by decide),
      throttleNext_fromZero (d := 300) (by decide)⟩⟩
  case boundary =>
    rw [exec_facetEpochBoundary h0 h1]
    exact ⟨fun hf => congrArg _ (epochBoundary_fails hw hd hc hf),
      fun hp => congrArg _ (epochBoundary_passes hw hd hc hp)⟩
  case drain => rw [exec_facetEpochDrain h0 h1, epochDrain_drained hw hd hf]
  case timeout => rw [exec_facetSwapTimeout ha, swapTimeout_due hw hd ht]

end

section
/-! SUPPORT. The cascade: enabling, training of the MATCH receivers, and the close of a frame (R251, R253, R257,
R394). -/

namespace Sys2Proof.Machine

variable {s : State} {q : Req} {sl len pos t u : Nat} {part : List Nat} {line : List Bool}

/-! ### Enabling (R251, R394) -/

theorem exec_cascadeEnable :
    exec (.cascadeEnable q len pos part) s = kilak q 0x6008 (cascadeEnable len pos part) s := rfl

theorem cascadeEnable_badArg (h : len = 0 ∨ 4 < len ∨ len ≤ pos) :
    Replies (.cascadeEnable q len pos part) q 0x6008 (.err .badArg) id s := by
  refine .of_kilak exec_cascadeEnable rfl ?_
  have hrange : (decide (len = 0) || decide (4 < len) || decide (len ≤ pos)) = true := by
    simpa [or_assoc] using h
  simp only [cascadeEnable, hrange, Bool.true_or, if_true, deny, id]

section
variable (h1 : 1 ≤ len) (h4 : len ≤ 4) (hpos : pos < len) (hpart : part.length = 16) (hval : ∀ x ∈ part, x ≤ 255)
include h1 h4 hpos hpart hval

/-- A legal length, position and partition pass the first check. -/
theorem cascadeEnable_legal (s : State) : cascadeEnable len pos part s =
    if !s.ltbSet then deny .badState s
    else if s.ixrGroups.length < linksNeeded len pos then deny .limit s
    else
      let v := part.zipIdx.foldl (fun s e => setParam 0x6022 e.2 e.1 s)
        (setParam 0x6021 0 pos (setParam 0x6020 0 len s))
      done (if 1 < len then trainAll v
        else onCasc (fun c => { c with trained := [], trainEnd := [], rxEnd := [] }) v) := by
  have hlegal : (decide (len = 0) || decide (4 < len) || decide (len ≤ pos) || part.length != 16
      || part.any (255 < ·)) = false := by
    have hsmall : part.any (fun x => decide (255 < x)) = false := by simpa using hval
    simp [Nat.ne_of_gt h1, h4, hpos, hpart, hsmall]
  simp only [cascadeEnable, hlegal, Bool.false_eq_true, if_false]

theorem cascadeEnable_replies (hltb : s.ltbSet = true) (hlinks : linksNeeded len pos ≤ s.ixrGroups.length) :
    Replies (.cascadeEnable q len pos part) q 0x6008 .ok (fun u =>
      let v := part.zipIdx.foldl (fun s e => setParam 0x6022 e.2 e.1 s)
        (setParam 0x6021 0 pos (setParam 0x6020 0 len u))
      if 1 < len then trainAll v else onCasc (fun c => { c with trained := [], trainEnd := [], rxEnd := [] }) v) s := by
  refine .of_kilak exec_cascadeEnable rfl ?_
  rw [cascadeEnable_legal h1 h4 hpos hpart hval, openCmd_ltbSet, openCmd_ixrGroups, hltb, if_neg (by decide),
    if_neg (Nat.not_lt.2 hlinks)]
  rfl

theorem cascadeEnable_badState (hltb : s.ltbSet = false) :
    Replies (.cascadeEnable q len pos part) q 0x6008 (.err .badState) id s := by
  refine .of_kilak exec_cascadeEnable rfl ?_
  rw [cascadeEnable_legal h1 h4 hpos hpart hval, openCmd_ltbSet, hltb]
  rfl

end

/-! ### Training (R253) -/

/-- Slice sl's receiver after the bits of a training period; the last position receives no line. -/
def trainSeen (sl : Nat) (line : List Bool) (s : State) : State :=
  onCasc (fun c => { c with
    rx := Tab.set c.rx sl (if s.cascPos + 1 == s.cascLen then {} else s.lineTrained sl line) }) s

theorem exec_matchTrainingEnd (h : s.undefinedBlk (sliceBlk sl 0) = false) :
    exec (.matchTrainingEnd sl line) s = .next (trainingEnd sl line s) := by
  change execMatchTrainingEnd sl line s = _
  rw [execMatchTrainingEnd, guardBlks_ok (by simp [h])]

theorem trainingEnd_due (hr : Tab.get? s.cls.casc.rxEnd sl = some t) (ht : t ≤ s.clk.now) : trainingEnd sl line s =
    if matchLock ≤ (s.lineTrained sl line).run || s.cascPos + 1 == s.cascLen then
      onCasc (fun c => { c with trained := Tab.set c.trained sl true, rxEnd := Tab.erase c.rxEnd sl })
        (trainSeen sl line s)
    else onCasc (fun c => { c with rxEnd := Tab.set c.rxEnd sl (s.clk.now + trainTicks) }) (trainSeen sl line s) := by
  simp only [trainingEnd, hr, Nat.not_lt.2 ht, if_false]
  rfl

theorem trainingEnd_locks (hr : Tab.get? s.cls.casc.rxEnd sl = some t) (ht : t ≤ s.clk.now)
    (h : 64 ≤ (s.lineTrained sl line).run ∨ (s.cascPos + 1 == s.cascLen) = true) : trainingEnd sl line s =
      onCasc (fun c => { c with trained := Tab.set c.trained sl true, rxEnd := Tab.erase c.rxEnd sl })
        (trainSeen sl line s) := by
  rw [trainingEnd_due hr ht, if_pos (by rwa [Bool.or_eq_true, decide_eq_true_eq])]

theorem trainingEnd_again (hr : Tab.get? s.cls.casc.rxEnd sl = some t) (ht : t ≤ s.clk.now)
    (hrun : (s.lineTrained sl line).run < 64) (hlast : (s.cascPos + 1 == s.cascLen) = false) : trainingEnd sl line s =
      onCasc (fun c => { c with rxEnd := Tab.set c.rxEnd sl (s.clk.now + trainTicks) }) (trainSeen sl line s) := by
  rw [trainingEnd_due hr ht, if_neg (by simp [hlast, Nat.not_le.2 hrun, matchLock])]

theorem trainingEnd_notDue (hr : Tab.get? s.cls.casc.rxEnd sl = some t) (ht : s.clk.now < t) :
    trainingEnd sl line s = s := by
  simp [trainingEnd, hr, ht]

/-! ### The close of a frame (R257) -/

theorem exec_cascadeFrameClose {res : Bool} (h : s.undefinedBlk (sliceBlk sl 0) = false) :
    exec (.cascadeFrameClose sl res) s = .next (if res then closeResults sl s else closeKeys sl s) := by
  change execCascadeFrameClose sl res s = _
  rw [execCascadeFrameClose, guardBlks_ok (by simp [h])]

theorem closeKeys_sends {fr : List CascadeKey} (hf : Tab.getD s.cls.casc.keyOpen sl [] = fr) (hne : fr ≠ [])
    (hl : s.downLink = some u) (hup : s.linkUp (some u) = true) : closeKeys sl s =
      onCasc (fun c => { c with keySent := c.keySent ++ [fr] })
        (ixrSeq u 3 ((fr.map fun r => keyRecLen r.width).foldl (· + ·) 0)
          (onCasc (fun c => { c with keyOpen := Tab.erase c.keyOpen sl }) s)).2 := by
  obtain ⟨r, rs, rfl⟩ := List.exists_cons_of_ne_nil hne
  rw [closeKeys, hf, hl]
  exact if_pos hup

theorem closeResults_sends {fr : List CascadeResult} (hf : Tab.getD s.cls.casc.resOpen sl [] = fr) (hne : fr ≠ [])
    (hl : s.upLink = some u) (hup : s.linkUp (some u) = true) : closeResults sl s =
      onCasc (fun c => { c with resSent := c.resSent ++ [fr] })
        (ixrSeq u 4 (32 * fr.length) (onCasc (fun c => { c with resOpen := Tab.erase c.resOpen sl }) s)).2 := by
  obtain ⟨r, rs, rfl⟩ := List.exists_cons_of_ne_nil hne
  rw [closeResults, hf, hl]
  exact if_pos hup

/-- Sending results leaves what MATCH_OUT drives. -/
theorem closeResults_out (sl : Nat) (s : State) : (closeResults sl s).cls.casc.out = s.cls.casc.out := by
  unfold closeResults
  split
  · rfl
  · dsimp only
    split
    · split <;> rfl
    · rfl

theorem sendResult_out (r : CascadeResult) (s : State) : (sendResult r s).cls.casc.out = s.cls.casc.out := by
  unfold sendResult
  dsimp only
  split
  · exact closeResults_out r.slice s
  · rfl

end Sys2Proof.Machine
end

section
/-! SUPPORT. The cascade's searches: the final symbol at the head, the symbol of a position behind it, and the timeout
(R254 to R256). -/

namespace Sys2Proof.Machine

variable {s : State} {sl slot sym tag i lvl : Nat} {w : CascWait} {o : CascOwn} {a : ActionRec}

theorem exec_matchSymbol (h0 : s.undefinedBlk (sliceBlk sl 0) = false) (h2 : s.undefinedBlk (sliceBlk sl 2) = false) :
    exec (.matchSymbol sl slot sym) s = .next (matchSymbol sl slot sym s) := by
  change execMatchSymbol sl slot sym s = _
  rw [execMatchSymbol, guardBlks_ok (by simp [h0, h2])]

/-! ### At the head -/

/-- The search of slice sl whose final symbol MATCH_IN carries in a slot. -/
def State.symbolSearch (s : State) (sl slot : Nat) : Option (Nat × CascWait) :=
  s.cls.casc.waits.find? fun e => e.1 / 2 ^ 32 == sl && e.2.slot % slotCycle == s.symbolSlot sl slot && e.2.final.isNone

theorem matchSymbol_head (hc : s.cascading = true) (hpos : s.cascPos = 0)
    (hw : s.symbolSearch sl slot = some (i, w)) :
    matchSymbol sl slot sym s = headSymbol sl (i % 2 ^ 32) w sym s := by
  change s.cls.casc.waits.find? _ = _ at hw
  simp only [matchSymbol, hc, Bool.not_true, Bool.false_eq_true, if_false, hpos, if_true, hw]

/-- A search whose final symbol is known waits for its result. -/
def headWaits (sl tag : Nat) (w : CascWait) (sym : Nat) (s : State) : State :=
  let v := { w with final := some sym, until_ := s.clk.now + usT (s.paramN 0x6024 0) }
  onCasc (fun c => { c with waits := Tab.set c.waits (waitKey sl tag) v }) s

theorem headSymbol_unlocked (hl : s.cascLocked sl = false) : headSymbol sl tag w sym s =
    searchIncomplete (2 * sl + w.pkt.dir) w.pkt w.act (dropWait sl tag s) := by
  simp [headSymbol, hl]

section
variable (hl : s.cascLocked sl = true)
include hl

theorem headSymbol_nowhere (h : sym = 0) (ho : w.own = 0) : headSymbol sl tag w sym s =
    forward (2 * sl + w.pkt.dir) w.pkt (s.parsed w.pkt) w.act (dropWait sl tag s) := by
  simp [headSymbol, hl, h, ho]

variable (hsym : sym < 16)
include hsym

theorem headSymbol_incomplete (h : sym = 15 ∨ w.own = 15) : headSymbol sl tag w sym s =
    searchIncomplete (2 * sl + w.pkt.dir) w.pkt w.act (dropWait sl tag s) := by
  simp [headSymbol, hl, Nat.mod_eq_of_lt hsym, h]

theorem headSymbol_ownWins (ho : 0 < w.own) (ho15 : w.own ≠ 15) (hle : sym ≤ w.own) (h15 : sym ≠ 15) :
    headSymbol sl tag w sym s =
      applyWinner (2 * sl + w.pkt.dir) w.pkt (w.ownRec.getD ActionRec.zero) (dropWait sl tag s) := by
  simp [headSymbol, hl, Nat.mod_eq_of_lt hsym, h15, ho15, Nat.ne_of_gt ho, hle]

theorem headSymbol_waits (hlt : w.own < sym) (h15 : sym ≠ 15) (hr : w.res = none) : headSymbol sl tag w sym s =
    headWaits sl tag w sym s := by
  have ho15 : w.own ≠ 15 := by omega
  have h0 : sym ≠ 0 := by omega
  simp [headSymbol, hl, Nat.mod_eq_of_lt hsym, h15, ho15, h0, Nat.not_le.2 hlt, hr, headWaits]

theorem headSymbol_takes (hlt : w.own < sym) (h15 : sym ≠ 15) (hr : w.res = some (lvl, a)) :
    headSymbol sl tag w sym s = takeResult sl tag w sym lvl a s := by
  have ho15 : w.own ≠ 15 := by omega
  have h0 : sym ≠ 0 := by omega
  simp [headSymbol, hl, Nat.mod_eq_of_lt hsym, h15, ho15, h0, Nat.not_le.2 hlt, hr]

end

theorem takeResult_announced {final : Nat} (h : lvl = final) : takeResult sl tag w final lvl a s =
    applyWinner (2 * sl + w.pkt.dir) w.pkt a (dropWait sl tag s) :=
  if_pos h

theorem takeResult_mismatch {final : Nat} (h : lvl ≠ final) : takeResult sl tag w final lvl a s =
    incomplete (2 * sl + w.pkt.dir) w.pkt w.act 0x16 (cascBad (bump .cascadeMismatch sl (dropWait sl tag s))) :=
  if_neg h

/-! ### Behind the head (R255) -/

theorem matchSymbol_tail (hc : s.cascading = true) (hpos : s.cascPos ≠ 0) :
    matchSymbol sl slot sym s = tailSymbol sl (s.symbolSlot sl slot) sym s := by
  simp only [matchSymbol, hc, Bool.not_true, Bool.false_eq_true, if_false, hpos]

/-- The symbol that a position behind the head combines with its own level. -/
def State.symbolIn (s : State) (sl slot sym : Nat) : Nat :=
  if s.cascPos + 1 == s.cascLen then 0
  else if s.cascLocked sl then sym % 16
  else if (Tab.get? s.cls.casc.own (Machine.ownKey sl (slot % slotCycle))).isSome then 15 else 0

/-- A position's own level for a slot, 0 where no key came. -/
def State.ownLevel (s : State) (sl slot : Nat) : Nat :=
  ((Tab.get? s.cls.casc.own (Machine.ownKey sl (slot % slotCycle))).map (·.level)).getD 0

/-- What a position behind the head drives on MATCH_OUT, whatever result it then sends. -/
theorem tailSymbol_out (sl slot sym : Nat) (s : State) : Tab.get? (tailSymbol sl slot sym s).cls.casc.out sl =
    some (slot % slotCycle, if s.cascTraining sl then slot % slotCycle % 16
      else if s.ownLevel sl slot = 15 || s.symbolIn sl slot sym = 15 then 15
      else max (s.ownLevel sl slot) (s.symbolIn sl slot sym)) := by
  unfold tailSymbol
  extract_lets cyc own last inSym lvl out won drives
  have hdriven : Tab.get? drives.cls.casc.out sl = some (cyc, out) := Tab.get?_set_self ..
  change Tab.get? _ sl = some (cyc, out)
  clear_value drives own
  split
  · split
    · rw [sendResult_out, hdriven]
    · exact hdriven
  · exact hdriven

theorem tailSymbol_trains (ht : s.cascTraining sl = true) :
    Tab.get? (tailSymbol sl slot sym s).cls.casc.out sl = some (slot % slotCycle, slot % slotCycle % 16) := by
  rw [tailSymbol_out, if_pos ht]

/-- 0xF is the highest symbol, so where either is 0xF the higher of the two is 0xF. -/
theorem tailSymbol_higher (ht : s.cascTraining sl = false) (hl : s.cascLocked sl = true) (hsym : sym < 16)
    (ho : Tab.get? s.cls.casc.own (ownKey sl (slot % slotCycle)) = some o) (hlvl : o.level ≤ 15) :
    Tab.get? (tailSymbol sl slot sym s).cls.casc.out sl =
      some (slot % slotCycle, max o.level (if s.cascPos + 1 == s.cascLen then 0 else sym)) := by
  have hown : s.ownLevel sl slot = o.level := by simp [State.ownLevel, ho]
  have hin : s.symbolIn sl slot sym = if s.cascPos + 1 == s.cascLen then 0 else sym := by
    simp [State.symbolIn, hl, Nat.mod_eq_of_lt hsym]
  have hin15 : (if s.cascPos + 1 == s.cascLen then 0 else sym) ≤ 15 := by split <;> omega
  rw [tailSymbol_out, ht, hown, hin]
  generalize (if s.cascPos + 1 == s.cascLen then 0 else sym) = m at hin15
  have hmax : (if decide (o.level = 15) || decide (m = 15) then 15 else max o.level m) = max o.level m := by
    split
    case isTrue h =>
      simp only [Bool.or_eq_true, decide_eq_true_eq] at h
      omega
    case isFalse => rfl
  simp only [Bool.false_eq_true, if_false, hmax]

theorem tailSymbol_idle (ht : s.cascTraining sl = false)
    (ho : Tab.get? s.cls.casc.own (ownKey sl (slot % slotCycle)) = none) (hlast : s.cascPos + 1 = s.cascLen) :
    Tab.get? (tailSymbol sl slot sym s).cls.casc.out sl = some (slot % slotCycle, 0) := by
  simp [tailSymbol_out, ht, State.ownLevel, ho, State.symbolIn, hlast]

/-! ### The timeout (R256) -/

theorem exec_cascadeTimeout (h0 : s.undefinedBlk (sliceBlk sl 0) = false)
    (h2 : s.undefinedBlk (sliceBlk sl 2) = false) :
    exec (.cascadeTimeout sl tag) s = .next (cascadeTimeout sl tag s) := by
  change execCascadeTimeout sl tag s = _
  rw [execCascadeTimeout, guardBlks_ok (by simp [h0, h2])]

theorem cascadeTimeout_due (hw : Tab.get? s.cls.casc.waits (waitKey sl tag) = some w) (hf : w.final.isSome = true)
    (ht : w.until_ ≤ s.clk.now) : cascadeTimeout sl tag s =
      incomplete (2 * sl + w.pkt.dir) w.pkt w.act 0x16 (cascBad (bump .cascadeTimeout sl
        (onCasc (fun c => { c with timedOut := c.timedOut ++ [waitKey sl tag] }) (dropWait sl tag s)))) := by
  simp [cascadeTimeout, hw, hf, ht]

theorem cascadeTimeout_noSymbol (hw : Tab.get? s.cls.casc.waits (waitKey sl tag) = some w) (hf : w.final = none) :
    cascadeTimeout sl tag s = s := by
  simp [cascadeTimeout, hw, hf]

end Sys2Proof.Machine
end

section
/-! SUPPORT. CASCADE_KEY and CASCADE_RESULT frames received (R254 to R258). -/

namespace Sys2Proof.Machine

variable {s : State} {link seq : Nat} {w : CascWait} {v : CascadeResult}

theorem exec_cascadeKeyReceive {rs : List CascadeKey} {oks : List Bool} (ha : Acts s (ixrBlk link)) :
    exec (.cascadeKeyReceive link seq rs oks) s = .next (cascadeKey link seq rs oks s) :=
  island_acts ha

theorem exec_cascadeResultReceive {vs : List CascadeResult} (ha : Acts s (ixrBlk link)) :
    exec (.cascadeResultReceive link seq vs) s = .next (cascadeResult link seq vs s) :=
  island_acts ha

theorem cascadeKey_ignored {rs : List CascadeKey} {oks : List Bool}
    (h : (ixrArrive link 3 seq s).2.cascading = false ∨ (ixrArrive link 3 seq s).2.cascPos = 0) :
    cascadeKey link seq rs oks s = (ixrArrive link 3 seq s).2 := by
  simp only [cascadeKey, Bool.or_eq_true, Bool.not_eq_true', decide_eq_true_eq, h, if_true]

theorem cascadeKey_searched {rs : List CascadeKey} {oks : List Bool}
    (hc : (ixrArrive link 3 seq s).2.cascading = true) (hpos : (ixrArrive link 3 seq s).2.cascPos ≠ 0) :
    cascadeKey link seq rs oks s =
      (rs.zip oks).foldl (fun s e => takeKey e.1 e.2 s) (pruneOwn (ixrArrive link 3 seq s).2) := by
  simp only [cascadeKey, hc, hpos, decide_false, Bool.not_true, Bool.or_self, Bool.false_eq_true, if_false]

/-- The last position relays no key: it searches it, and its level is 0xF where the key came late (R255). -/
theorem takeKey_last {r : CascadeKey} {ok : Bool} (hl : s.downLink = none) :
    let m := s.ownMatch r.slice (keyDir r.width r.key) r.width r.key
    let o := { tag := r.tag, level := if ok && s.downReach then m.1 else 15, index := m.2.1, act := m.2.2 : CascOwn }
    takeKey r ok s = onCasc (fun c => { c with own := Tab.set c.own (ownKey r.slice (r.slot % slotCycle)) o }) s := by
  simp only [takeKey, hl, Option.isSome_none, Bool.false_eq_true, if_false]

theorem cascadeResult_ignored {vs : List CascadeResult} (h : (ixrArrive link 4 seq s).2.cascading = false) :
    cascadeResult link seq vs s = (ixrArrive link 4 seq s).2 := by
  simp only [cascadeResult, h, Bool.not_false, if_true]

theorem cascadeResult_taken {vs : List CascadeResult} (h : (ixrArrive link 4 seq s).2.cascading = true) :
    cascadeResult link seq vs s = vs.foldl (fun s r => takeRecord r s) (ixrArrive link 4 seq s).2 := by
  simp only [cascadeResult, h, Bool.not_true, Bool.false_eq_true, if_false]

/-! ### A result at the head (R256) -/

section
variable (hpos : s.cascPos = 0)
include hpos

theorem takeRecord_late (hw : Tab.get? s.cls.casc.waits (waitKey v.slice v.tag) = none)
    (ht : s.cls.casc.timedOut.contains (waitKey v.slice v.tag) = true) : takeRecord v s =
      bump .cascadeLateResult v.slice
        (onCasc (fun c => { c with timedOut := c.timedOut.filter (· != waitKey v.slice v.tag) }) s) := by
  simp only [takeRecord, hpos, hw, ht, if_true]

theorem takeRecord_unknown (hw : Tab.get? s.cls.casc.waits (waitKey v.slice v.tag) = none)
    (ht : s.cls.casc.timedOut.contains (waitKey v.slice v.tag) = false) : takeRecord v s = s := by
  simp only [takeRecord, hpos, hw, ht, Bool.false_eq_true, if_true, if_false]

theorem takeRecord_early (hw : Tab.get? s.cls.casc.waits (waitKey v.slice v.tag) = some w) (hf : w.final = none) :
    let u := { w with res := some (v.level, v.action) }
    takeRecord v s = onCasc (fun c => { c with waits := Tab.set c.waits (waitKey v.slice v.tag) u }) s := by
  simp only [takeRecord, hpos, hw, hf, if_true]

theorem takeRecord_awaited {final : Nat} (hw : Tab.get? s.cls.casc.waits (waitKey v.slice v.tag) = some w)
    (hf : w.final = some final) : takeRecord v s = takeResult v.slice v.tag w final v.level v.action s := by
  simp only [takeRecord, hpos, hw, hf, if_true]

end

end Sys2Proof.Machine
end

section
/-! PROOF. The statement on the cascade. -/

open Sys2Proof Sys2Proof.Machine

/-- Settles O39: each command and event by the lemma on its case. -/
theorem cascadeSearchesAndTraining : Obligations.CascadeSearchesAndTraining := by
  intro s q sl len pos slot sym lvl tag i link seq tm part w o r v a res ok line oks rs vs
  refine ⟨fun h1 h4 hpos hpart hval => cascadeEnable_replies h1 h4 hpos hpart hval, fun _ => cascadeEnable_badArg,
    fun hltb h1 h4 hpos hpart hval => cascadeEnable_badState h1 h4 hpos hpart hval hltb,
    fun h0 => ?slice, fun h0 h2 => ⟨fun hc hpos hl hsym hw => ?head, fun hc hpos hl hw => ?unlocked,
      fun hc hpos => ⟨tailSymbol sl (s.symbolSlot sl slot) sym s, ?tail⟩, fun hw => ?timeout⟩,
    fun ha => ?keys, fun hl hsl => hsl ▸ takeKey_last hl, fun ha => ?results,
    fun hpos => ⟨fun hw => ⟨takeRecord_late hpos hw, takeRecord_unknown hpos hw⟩,
      fun hw => ⟨takeRecord_early hpos hw, fun hf => ?announced⟩⟩⟩
  case slice =>
    rw [exec_matchTrainingEnd h0, exec_cascadeFrameClose h0, exec_cascadeFrameClose h0, exec_cascadeFrameClose h0]
    exact ⟨fun hr ht => ⟨fun h => congrArg _ (trainingEnd_locks hr ht h),
        fun hrun hlast => congrArg _ (trainingEnd_again hr ht hrun hlast)⟩,
      fun hr ht => congrArg _ (trainingEnd_notDue hr ht), rfl,
      fun _ _ hf hne hl hup => congrArg _ (closeKeys_sends hf hne hl hup),
      fun _ _ hf hne hl hup => congrArg _ (closeResults_sends hf hne hl hup)⟩
  case head =>
    rw [exec_matchSymbol h0 h2, matchSymbol_head hc hpos hw]
    exact ⟨fun h => congrArg _ (headSymbol_incomplete hl hsym h),
      fun h ho => congrArg _ (headSymbol_nowhere hl h ho),
      fun ho ho15 hle h15 => congrArg _ (headSymbol_ownWins hl hsym ho ho15 hle h15),
      fun hlt h15 hr => congrArg _ (headSymbol_waits hl hsym hlt h15 hr),
      fun hlt h15 hr => ⟨
        fun he => congrArg _ ((headSymbol_takes hl hsym hlt h15 hr).trans (takeResult_announced he)),
        fun hne => congrArg _ ((headSymbol_takes hl hsym hlt h15 hr).trans (takeResult_mismatch hne))⟩⟩
  case unlocked => rw [exec_matchSymbol h0 h2, matchSymbol_head hc hpos hw, headSymbol_unlocked hl]; rfl
  case tail =>
    exact ⟨(exec_matchSymbol h0 h2).trans (congrArg _ (matchSymbol_tail hc hpos)), tailSymbol_trains,
      tailSymbol_higher, tailSymbol_idle⟩
  case timeout =>
    rw [exec_cascadeTimeout h0 h2]
    exact ⟨fun hf ht => congrArg _ (cascadeTimeout_due hw hf ht), fun hf => congrArg _ (cascadeTimeout_noSymbol hw hf)⟩
  case keys =>
    rw [exec_cascadeKeyReceive ha]
    exact ⟨fun h => congrArg _ (cascadeKey_ignored h), fun hc hpos => congrArg _ (cascadeKey_searched hc hpos)⟩
  case results =>
    rw [exec_cascadeResultReceive ha]
    exact ⟨fun h => congrArg _ (cascadeResult_ignored h), fun h => congrArg _ (cascadeResult_taken h)⟩
  case announced => exact (takeRecord_awaited hpos hw hf).trans (takeResult_announced rfl)

end

section
/-! SUPPORT. The exact-match writer: what a write and a deletion change, where a new key is placed, and a command that waits
for its writes (R270, R279, R290). -/

namespace Sys2Proof.Machine

variable {s : State} {q : Req} {op p o n : Nat} {vals : List Nat} {e : EmEnt}

@[simp] theorem onEm_em (f : EmS → EmS) (s : State) : (onEm f s).em = f s.em := rfl

@[simp] theorem emPut_seq (p : Nat) (e : EmEnt) (s : State) : (emPut p e s).em.seq = s.em.seq + 1 := rfl

/-- A change of the table's state that leaves what the copies applied leaves which writes are complete. -/
theorem emComplete_onEm {f : EmS → EmS} (h : (f s.em).applied = s.em.applied) :
    (onEm f s).emComplete n = s.emComplete n := by
  simp only [State.emComplete, onEm_em, h]
  rfl

/-- What the copies applied is as before once a command is taken up. -/
theorem emComplete_emPut_openCmd : (emPut p e (openCmd q op s)).emComplete n = (emPut p e s).emComplete n := by
  rw [openCmd_eq]
  rfl

/-! ### Commands that wait for their writes (R290) -/

/-- A command waits until every copy has applied the last write issued. -/
def emWaiting (q : Req) (op : Nat) (vals : List Nat) (s : State) : State :=
  onEm (fun m => { m with waits := m.waits ++ [{ seq := m.seq, cmd := q, op := op, vals := vals }] }) s

theorem emAwait_incomplete (h : s.emComplete s.em.seq = false) :
    emAwait q op vals s = (emWaiting q op vals s, none) := by
  simp only [emAwait, h, Bool.false_eq_true, if_false, waits, emWaiting]

theorem emAwait_emPut (h : (emPut p e s).emComplete (s.em.seq + 1) = false) :
    emAwait q op vals (emPut p e (openCmd q op s)) = (emWaiting q op vals (emPut p e (openCmd q op s)), none) :=
  emAwait_incomplete (by rw [emComplete_emPut_openCmd, emPut_seq, openCmd_em, h])

/-! ### Placement (R279) -/

theorem emPlace_freeWay (h : s.freeWay (s.emBucket e.kind e.key) = some p) : emPlace e s = (some p, emPut p e s) := by
  simp only [emPlace, h]

/-- Only a static entry relocates a learned one of a full bucket. -/
theorem emPlace_overflow (hw : s.freeWay (s.emBucket e.kind e.key) = none) (he : e.isStatic = false)
    (ho : s.freeOvf = some o) : emPlace e s = (some o, emPut o e s) := by
  simp only [emPlace, hw, ho, he, Bool.false_eq_true, if_false]

theorem emPlace_noRoom (hw : s.freeWay (s.emBucket e.kind e.key) = none) (ho : s.freeOvf = none) :
    emPlace e s = (none, s) := by
  simp only [emPlace, hw, ho]

end Sys2Proof.Machine
end

section
/-! SUPPORT. The commands on the exact-match table (R272, R273, R279, R290 to R294). -/

namespace Sys2Proof.Machine

variable {s : State} {q : Req} {a : TableArgs} {p w n sl kind key own ownK : Nat} {old e : EmEnt} {x : EmWalk}
  {k? : Option Nat} {o? : Option (Nat × Nat)} {bd : Option Nat} {st : Bool}

theorem exec_tableInsert : exec (.tableInsert q a) s = execTableInsert q a s := rfl

theorem exec_tableDelete : exec (.tableDelete q kind key) s = execTableDelete q kind key s := rfl

theorem exec_tableSearch : exec (.tableSearch q kind key sl) s = execTableSearch q kind key sl s := rfl

theorem exec_tableWalkOpen : exec (.tableWalkOpen q k? o?) s = execTableWalkOpen q k? o? s := rfl

theorem exec_tableNext : exec (.tableNext q w n) s = execTableNext q w n s := rfl

theorem exec_tableWalkClose : exec (.tableWalkClose q w) s = execTableWalkClose q w s := rfl

theorem exec_tableFlushByPort :
    exec (.tableFlushByPort q ownK own bd st) s = execTableFlushByPort q ownK own bd st s := rfl

theorem exec_tableStats {isOwner : Bool} : exec (.tableStats q isOwner sl) s = execTableStats q isOwner sl s := rfl

/-- The walk timeout is an act of the writer's island. -/
theorem exec_tableWalkTimeout (ha : Acts s 104) (hx : Tab.get? s.em.walk w = some x) :
    exec (.tableWalkTimeout w) s = .next (if x.until_ ≤ s.clk.now then closeWalk w s else s) := by
  change execTableWalkTimeout w s = _
  rw [execTableWalkTimeout, island_acts ha, hx]

/-! ### Insertion (R279) -/

theorem tableInsert_update (hok : tableArgsOk a = true)
    (hk : findKey s.em.tab (s.emBucket a.kind a.key) a.kind a.key = some (p, old)) (hl : old.learned = false)
    (hinc : (emPut p { entryOf a with age := old.age } s).emComplete (s.em.seq + 1) = false) :
    Waits (.tableInsert q a) q 0x7000
      (fun u => emWaiting q 0x7000 [p] (emPut p { entryOf a with age := old.age } u)) s :=
  .of_kilak exec_tableInsert rfl (by simp [hok, hk, hl, emAwait_emPut hinc])

/-- A new key waits for the write of the position that it is placed at. -/
theorem tableInsert_placed (hok : tableArgsOk a = true)
    (hk : findKey s.em.tab (s.emBucket a.kind a.key) a.kind a.key = none)
    (hp : emPlace (entryOf a) (openCmd q 0x7000 s) = (some p, emPut p (entryOf a) (openCmd q 0x7000 s)))
    (hinc : (emPut p (entryOf a) s).emComplete (s.em.seq + 1) = false) :
    Waits (.tableInsert q a) q 0x7000 (fun u => emWaiting q 0x7000 [p] (emPut p (entryOf a) u)) s :=
  .of_kilak exec_tableInsert rfl (by simp [hok, hk, hp, emAwait_emPut hinc])

theorem tableInsert_freeWay (hok : tableArgsOk a = true)
    (hk : findKey s.em.tab (s.emBucket a.kind a.key) a.kind a.key = none)
    (hw : s.freeWay (s.emBucket a.kind a.key) = some p)
    (hinc : (emPut p (entryOf a) s).emComplete (s.em.seq + 1) = false) :
    Waits (.tableInsert q a) q 0x7000 (fun u => emWaiting q 0x7000 [p] (emPut p (entryOf a) u)) s :=
  tableInsert_placed hok hk (emPlace_freeWay (by simpa [entryOf] using hw)) hinc

theorem tableInsert_overflow (hok : tableArgsOk a = true)
    (hk : findKey s.em.tab (s.emBucket a.kind a.key) a.kind a.key = none)
    (hw : s.freeWay (s.emBucket a.kind a.key) = none) (hst : a.isStatic = false) (ho : s.freeOvf = some p)
    (hinc : (emPut p (entryOf a) s).emComplete (s.em.seq + 1) = false) :
    Waits (.tableInsert q a) q 0x7000 (fun u => emWaiting q 0x7000 [p] (emPut p (entryOf a) u)) s :=
  tableInsert_placed hok hk (emPlace_overflow (by simpa [entryOf] using hw) hst (by simpa using ho)) hinc

theorem tableInsert_noRoom (hok : tableArgsOk a = true)
    (hk : findKey s.em.tab (s.emBucket a.kind a.key) a.kind a.key = none)
    (hw : s.freeWay (s.emBucket a.kind a.key) = none) (ho : s.freeOvf = none) :
    Replies (.tableInsert q a) q 0x7000 (.err .limit) (bump .tableFull 0) s := by
  have hplace : emPlace (entryOf a) (openCmd q 0x7000 s) = (none, openCmd q 0x7000 s) :=
    emPlace_noRoom (by simpa [entryOf] using hw) (by simpa using ho)
  exact .of_kilak exec_tableInsert rfl (by simp [hok, hk, hplace])

/-! ### Deletion and search (R290) -/

theorem tableDelete_waits (hk : findKey s.em.tab (s.emBucket kind key) kind key = some (p, e))
    (hinc : (emDelete p (openCmd q 0x7001 s)).emComplete (emDelete p (openCmd q 0x7001 s)).em.seq = false) :
    Waits (.tableDelete q kind key) q 0x7001 (fun u => emWaiting q 0x7001 [] (emDelete p u)) s :=
  .of_kilak exec_tableDelete rfl (by simp [hk, emAwait_incomplete hinc])

theorem tableSearch_replies (hs : sl < 8)
    (hk : findKey (s.emCopy sl) (s.emBucket kind key) kind key = some (p, e)) :
    Replies (.tableSearch q kind key sl) q 0x7002 (.vals [.rcd 256 e.word, .u 64 (flag (s.hitOr p)), .u 64 p]) id s :=
  .of_kilak exec_tableSearch rfl (by simp [Nat.not_le.2 hs, hk, doneWith])

/-! ### Walks (R291) -/

theorem tableWalkOpen_replies (hw : lowestFree (Tab.keys s.em.walk) 0 4 = some w) :
    Replies (.tableWalkOpen q k? o?) q 0x7003 (.vals [.u 64 w]) (onEm fun m => { m with
      walk := Tab.set m.walk w { kindF := k?, ownerF := o?, until_ := s.clk.now + secT (s.paramN 0x7031 0) } }) s :=
  .of_kilak exec_tableWalkOpen rfl (by simp [hw, doneWith])

/-- The entries that a walk has yet to return, with their positions: slice 0's copy from the cursor on. -/
def State.walkLeft (s : State) (x : EmWalk) : Tab EmEnt :=
  (s.emCopy 0).filter fun e => decide (x.cursor ≤ e.1) && x.takes e.2

@[simp] theorem openCmd_walkLeft (op : Nat) : (openCmd q op s).walkLeft x = s.walkLeft x := by
  rw [openCmd_eq]
  rfl

/-- TABLE_NEXT of an open walk, its count in range. -/
def walkNext (w n : Nat) (x : EmWalk) (s : State) : State × Option Reply :=
  let now := (s.walkLeft x).take n
  let vals : List RVal := [.lst 40 (now.map fun e => e.2.word + e.1 * 2 ^ 256)]
  if (s.walkLeft x).length ≤ n then (closeWalk w s, some { code := .ended, res := vals })
  else doneWith vals (onEm (fun m => { m with walk := Tab.set m.walk w { x with
    cursor := ((now.getLast?).map (·.1 + 1)).getD x.cursor, until_ := s.clk.now + secT (s.paramN 0x7031 0) } }) s)

theorem Replies.of_walkNext {r : Reply} {f : State → State} (hx : Tab.get? s.em.walk w = some x) (hn : n ≤ 256)
    (hb : walkNext w n x (openCmd q 0x7004 s) = (f (openCmd q 0x7004 s), some r)) :
    Replies (.tableNext q w n) q 0x7004 r f s := by
  refine .of_kilak exec_tableNext rfl (Eq.trans ?_ hb)
  simp only [openCmd_em, hx, Nat.not_lt.2 hn, if_false]
  rfl

theorem tableNext_ends (hx : Tab.get? s.em.walk w = some x) (hn : n ≤ 256) (hlen : (s.walkLeft x).length ≤ n) :
    Replies (.tableNext q w n) q 0x7004
      { code := .ended, res := [.lst 40 ((s.walkLeft x).map fun e => e.2.word + e.1 * 2 ^ 256)] } (closeWalk w) s :=
  .of_walkNext hx hn (by simp only [walkNext, openCmd_walkLeft, hlen, if_true, List.take_of_length_le])

theorem tableNext_goesOn (hx : Tab.get? s.em.walk w = some x) (hn : n ≤ 256) (hlen : n < (s.walkLeft x).length) :
    Replies (.tableNext q w n) q 0x7004
      (.vals [.lst 40 (((s.walkLeft x).take n).map fun e => e.2.word + e.1 * 2 ^ 256)])
      (onEm fun m => { m with walk := Tab.set m.walk w { x with
        cursor := ((((s.walkLeft x).take n).getLast?).map (·.1 + 1)).getD x.cursor
        until_ := s.clk.now + secT (s.paramN 0x7031 0) } }) s :=
  .of_walkNext hx hn (by
    simp only [walkNext, openCmd_walkLeft, Nat.not_le.2 hlen, if_false, doneWith, openCmd_clk, openCmd_paramN])

theorem tableWalkClose_replies : Replies (.tableWalkClose q w) q 0x7005 .ok (closeWalk w) s :=
  .of_kilak exec_tableWalkClose rfl rfl

/-! ### Flush and statistics (R292, R294) -/

/-- A flush in progress: until every copy has applied the last of its writes no other starts. -/
def emFlushing (s : State) : State := onEm (fun m => { m with flushing := some m.seq }) s

theorem tableFlush_waits (hf : s.em.flushing = none)
    (hinc : (deleteAll (flushes ownK own bd st) s.em.tab.length (openCmd q 0x7006 s)).2.emComplete
      (deleteAll (flushes ownK own bd st) s.em.tab.length (openCmd q 0x7006 s)).2.em.seq = false) :
    Waits (.tableFlushByPort q ownK own bd st) q 0x7006 (fun u =>
      let gone := deleteAll (flushes ownK own bd st) s.em.tab.length u
      emWaiting q 0x7006 [gone.1] (emFlushing gone.2)) s := by
  refine .of_kilak exec_tableFlushByPort rfl ?_
  simp only [openCmd_em, hf, Option.isSome_none, Bool.false_eq_true, if_false, hinc]
  exact emAwait_incomplete ((emComplete_onEm rfl).trans hinc)

theorem tableFlush_busy (hf : s.em.flushing.isSome = true) :
    Replies (.tableFlushByPort q ownK own bd st) q 0x7006 (.err .busy) id s :=
  .of_kilak exec_tableFlushByPort rfl (by simp [hf, deny])

theorem tableStats_slice : Replies (.tableStats q false sl) q 0x7007
    (.vals ([Ctr.emLookups, .emHits, .emMisses, .emParity, .emRefillMiss].map (fun c => RVal.u 64 (s.count c sl))
      ++ [Ctr.tableFull, .learnFull, .ovfRelocate, .ovfPromote, .promoteDefer].map (fun c => RVal.u 64 (s.count c 0))
      ++ [.u 64 (s.count .learnQueueFull sl), .u 64 (s.count .ageOut 0), .u 64 (s.count .ageRestore 0)])) id s :=
  .of_kilak exec_tableStats rfl (by simp [doneWith])

end Sys2Proof.Machine
end

section
/-! PROOF. The statement on the commands of the exact-match table. -/

open Sys2Proof Sys2Proof.Machine

/-- Settles O41: each command by the lemma on its case. -/
theorem exactMatchTableCommands : Obligations.ExactMatchTableCommands := by
  intro s q a p w n sl kind key own ownK old e x k? o? bd st await
  refine ⟨fun hok => ⟨tableInsert_update hok, fun hk => ⟨tableInsert_freeWay hok hk, tableInsert_overflow hok hk,
      tableInsert_noRoom hok hk⟩⟩,
    tableDelete_waits, tableSearch_replies, tableWalkOpen_replies,
    fun hx hn => ⟨tableNext_ends hx hn, tableNext_goesOn hx hn⟩, tableWalkClose_replies, fun ha hx => ?timeout,
    tableFlush_waits, tableFlush_busy, tableStats_slice⟩
  case timeout =>
    rw [exec_tableWalkTimeout ha hx]
    exact ⟨fun ht => congrArg _ (if_pos ht), fun ht => congrArg _ (if_neg (Nat.not_le.2 ht))⟩

end

section
/-! SUPPORT. The table's writes as the copies apply them, notifications taken and keys learned (R270, R284, R285). -/

namespace Sys2Proof.Machine

variable {s : State} {sl p k : Nat} {op : EmOp} {e : EmEnt} {n : LearnNote} {rest : List LearnNote}

@[simp] theorem onEm_count (f : EmS → EmS) (s : State) : (onEm f s).count = s.count := rfl

/-! ### Writes applied (R270) -/

theorem exec_tableWriteApply (ha : Acts s (emBlk sl)) : exec (.tableWriteApply sl) s = .next (writeApply sl s) :=
  island_acts ha

theorem writeApply_next (hr : s.em.refilling.contains sl = false)
    (hw : Tab.get? s.em.writes (Tab.getD s.em.applied sl 0 + 1) = some op) :
    writeApply sl s = emSettle (onEm (fun m => { m with
      copy := Tab.upd m.copy sl [] fun t => EmOp.apply sl t op
      applied := Tab.set m.applied sl (Tab.getD s.em.applied sl 0 + 1) }) s) := by
  simp only [writeApply, hr, Bool.false_eq_true, if_false, hw]

theorem writeApply_noneIssued (hr : s.em.refilling.contains sl = false)
    (hw : Tab.get? s.em.writes (Tab.getD s.em.applied sl 0 + 1) = none) : writeApply sl s = s := by
  simp only [writeApply, hr, Bool.false_eq_true, if_false, hw]

/-! ### Notifications taken (R284) -/

theorem exec_learnTake (ha : Acts s 104) : exec .learnTake s = .next (learnTake s) :=
  island_acts ha

theorem learnTake_noneWaits (h : ∀ k < 8, Tab.getD s.em.learnQ k [] = []) : learnTake s = s := by
  have hnone : (((List.range 8).map fun i => (s.em.turn + i) % 8).find?
      fun k => !(Tab.getD s.em.learnQ k []).isEmpty) = none := by
    refine List.find?_eq_none.2 fun k hk => ?_
    obtain ⟨i, -, rfl⟩ := List.mem_map.1 hk
    simp [h _ (Nat.mod_lt _ (by decide))]
  simp only [learnTake, hnone]

/-- The queue whose turn it is comes first. -/
theorem learnTake_inTurn (ht : s.em.turn = k) (hk : k < 8) (hq : Tab.getD s.em.learnQ k [] = n :: rest) :
    learnTake s =
      learn n (onEm (fun m => { m with learnQ := Tab.set m.learnQ k rest, turn := (k + 1) % 8 }) s) := by
  have hfirst : (((List.range 8).map fun i => (s.em.turn + i) % 8).find?
      fun k => !(Tab.getD s.em.learnQ k []).isEmpty) = some k := by
    rw [List.range_succ_eq_map, List.map_cons, Nat.add_zero, ht, Nat.mod_eq_of_lt hk]
    exact List.find?_cons_of_pos (by simp [hq])
  simp only [learnTake, hfirst, hq]

/-! ### Learning (R284, R285) -/

/-- The entry that a notification of a new key makes. -/
def State.learnedEntry (s : State) (n : LearnNote) : EmEnt :=
  { kind := 0, isStatic := false, ownerKind := n.srcKind, owner := n.source, learned := true, key := n.key,
    destKind := (s.learnDest n.srcKind n.source).1, dest := (s.learnDest n.srcKind n.source).2 }

theorem learn_overLimit (hk : findKey s.em.tab (s.emBucket 0 n.key) 0 n.key = none)
    (hl : s.ownerLimit n.srcKind n.source < Tab.getD s.em.owners (ownerIdx n.srcKind n.source) 0 + 1) :
    learn n s = learnRefused n s := by
  simp [learn, hk, Nat.not_le.2 hl]

theorem learn_freeWay (hk : findKey s.em.tab (s.emBucket 0 n.key) 0 n.key = none)
    (hl : Tab.getD s.em.owners (ownerIdx n.srcKind n.source) 0 + 1 ≤ s.ownerLimit n.srcKind n.source)
    (ht : s.learnedTotal + 1 ≤ s.paramN 0x7026 0) (hw : s.freeWay (s.emBucket 0 n.key) = some p) :
    learn n s = bump .learnNew (ownerIdx n.srcKind n.source) (onOwner (ownerIdx n.srcKind n.source) (· + 1)
      (emPut p (s.learnedEntry n) (onEm (fun m => { m with refused := m.refused.erase n }) s))) := by
  have hplace : emPlace (s.learnedEntry n) (onEm (fun m => { m with refused := m.refused.erase n }) s) =
      (some p, emPut p (s.learnedEntry n) (onEm (fun m => { m with refused := m.refused.erase n }) s)) :=
    emPlace_freeWay hw
  simp only [State.learnedEntry] at hplace
  simp only [learn, hk, hl, decide_true, Bool.not_true, Nat.not_lt.2 ht, decide_false, Bool.or_self, Bool.false_eq_true,
    if_false, hplace, State.learnedEntry]

@[simp] theorem onOwner_count (i : Nat) (f : Nat → Nat) (s : State) : (onOwner i f s).count = s.count := rfl

@[simp] theorem emPut_count (p : Nat) (e : EmEnt) (s : State) : (emPut p e s).count = s.count := rfl

@[simp] theorem emPut_owners (p : Nat) (e : EmEnt) (s : State) : (emPut p e s).em.owners = s.em.owners := rfl

theorem onOwner_add_one (i : Nat) (s : State) :
    Tab.getD (onOwner i (· + 1) s).em.owners i 0 = Tab.getD s.em.owners i 0 + 1 := by
  simp [onOwner]

theorem learn_freeWay_counted (hk : findKey s.em.tab (s.emBucket 0 n.key) 0 n.key = none)
    (hl : Tab.getD s.em.owners (ownerIdx n.srcKind n.source) 0 + 1 ≤ s.ownerLimit n.srcKind n.source)
    (ht : s.learnedTotal + 1 ≤ s.paramN 0x7026 0) (hw : s.freeWay (s.emBucket 0 n.key) = some p) :
    (learn n s).count .learnNew (ownerIdx n.srcKind n.source)
        = (s.count .learnNew (ownerIdx n.srcKind n.source) + 1) % 2 ^ 64
      ∧ Tab.getD (learn n s).em.owners (ownerIdx n.srcKind n.source) 0
        = Tab.getD s.em.owners (ownerIdx n.srcKind n.source) 0 + 1 := by
  rw [learn_freeWay hk hl ht hw]
  constructor
  · rw [bump, count_bumpBy_self, onOwner_count, emPut_count, onEm_count]
  · rw [bump_em, onOwner_add_one, emPut_owners, onEm_em]

end Sys2Proof.Machine
end

section
/-! SUPPORT. The ager: the sweep of a position and the conditional invalidation of an entry that retires (R287, R288). -/

namespace Sys2Proof.Machine

variable {s : State} {pos : Nat} {e : EmEnt} {meets : Bool}

/-! ### The sweep (R287) -/

theorem exec_agerSweep (ha : Acts s 104) : exec (.agerSweep pos) s = .next (agerSweep pos s) :=
  island_acts ha

/-- A position counts as swept in the present interval. -/
def markSwept (pos : Nat) (s : State) : State :=
  onEm (fun m => { m with swept := Tab.set m.swept pos s.sweepNo }) s

theorem agerSweep_notDue (h : s.param 0x7030 0 = 0 ∨ Tab.get? s.em.swept pos = some s.sweepNo) :
    agerSweep pos s = s := by
  rcases h with hoff | hswept
  · simp [agerSweep, hoff]
  · simp [agerSweep, hswept]

/-- What the sweep does where an entry stands, by its hit bits and its age. -/
theorem agerSweep_due (hx : Tab.get? s.em.tab pos = some e) (hon : s.param 0x7030 0 ≠ 0)
    (hsw : Tab.get? s.em.swept pos ≠ some s.sweepNo) : agerSweep pos s =
      if e.isStatic || e.retiring then markSwept pos s
      else if s.hitOr pos then setAge pos 0 true false (markSwept pos s)
      else if e.age < 3 then setAge pos (e.age + 1) false false (markSwept pos s)
      else onEm (fun m => { m with retire := Tab.set m.retire pos m.seq })
        (setAge pos 3 false true (markSwept pos s)) := by
  have hdue : (s.param 0x7030 0 == 0 || Tab.get? s.em.swept pos == some s.sweepNo) = false := by simp [hon, hsw]
  simp only [agerSweep, hdue, Bool.false_eq_true, if_false, onEm_em, hx]
  rfl

/-! ### The conditional invalidation (R288) -/

theorem exec_conditionalInvalidation (ha : Acts s 104) :
    exec (.conditionalInvalidation pos meets) s = .next (conditionalInval pos meets s) :=
  island_acts ha

/-- A copy keeps the entry at a position only if its hit bit is set. -/
def keepHit (pos : Nat) (t : Tab EmEnt) : Tab EmEnt :=
  if ((Tab.get? t pos).map (·.hit)).getD false then t else Tab.erase t pos

/-- Every copy has met the conditional invalidation of a position. -/
def invalidateIdle (pos : Nat) (s : State) : State :=
  onEm (fun m => { m with retire := Tab.erase m.retire pos, copy := m.copy.map fun c => (c.1, keepHit pos c.2) }) s

/-- The lookup, if any, that hits a copy in the cycle in which its invalidation arrives. -/
def meetLookup (meets : Bool) (pos : Nat) (s : State) : State := if meets then meetHit pos s else s

theorem conditionalInval_notYet (hx : Tab.get? s.em.tab pos = some e)
    (h : e.retiring = false ∨ s.emComplete (s.retireSeq pos) = false) : conditionalInval pos meets s = s := by
  rcases h with hr | hc
  · simp [conditionalInval, hx, hr]
  · simp [conditionalInval, hx, hc]

/-- An entry that some copy hit is written back, one that none did is deleted. -/
theorem conditionalInval_acknowledged (hx : Tab.get? s.em.tab pos = some e) (hr : e.retiring = true)
    (hc : s.emComplete (s.retireSeq pos) = true) : conditionalInval pos meets s =
      if (meetLookup meets pos s).hitOr pos then
        bump .ageRestore 0 (setAge pos 0 true false (emWrite (.back pos { e with hit := false })
          (invalidateIdle pos (meetLookup meets pos s))))
      else bump .ageOut 0 (emDelete pos (invalidateIdle pos (meetLookup meets pos s))) := by
  have hwait : (!e.retiring || !s.emComplete (s.retireSeq pos)) = false := by simp [hr, hc]
  simp only [conditionalInval, hx, hwait, Bool.false_eq_true, if_false]
  rfl

end Sys2Proof.Machine
end

section
/-! SUPPORT. Parity failures and lookups of a slice's copy (R282, R289). -/

namespace Sys2Proof.Machine

variable {s : State} {sl pos p k c key : Nat} {e : EmEnt}

/-! ### Parity (R289) -/

theorem exec_parityRepair {failed : Bool} (ha : Acts s (emBlk sl)) :
    exec (.parityRepair sl pos failed) s = .next (parityRepair sl pos failed s) :=
  island_acts ha

/-- The entry that fails parity is counted, its fault is recorded, and the copy no longer holds it. -/
def parityFailed (sl pos : Nat) (s : State) : State :=
  onEm (fun m => { m with copy := Tab.upd m.copy sl [] fun t => Tab.erase t pos })
    (raiseFault (emBlk sl) 8 (if ovfBase ≤ pos then 2 ^ 20 + (pos - ovfBase) else pos) (bump .emParity sl s))

/-- The entry at a position in the lowest-numbered other slice that holds it, its writes applied. -/
def State.repairSource (s : State) (sl pos : Nat) : Option EmEnt :=
  ((List.range 8).filter fun k => k != sl && s.islandUp (emBlk k)).findSome? fun k => Tab.get? (s.emAhead k) pos

theorem parityRepair_eq : parityRepair sl pos false s =
    match (parityFailed sl pos s).repairSource sl pos with
    | some e => emWrite (.repair sl pos { e with hit := false }) (parityFailed sl pos s)
    | none => parityFailed sl pos s := rfl

theorem parityRepair_issued (h : (parityFailed sl pos s).repairSource sl pos = some e) :
    parityRepair sl pos false s = emWrite (.repair sl pos { e with hit := false }) (parityFailed sl pos s) := by
  rw [parityRepair_eq, h]

theorem parityRepair_noSource (h : (parityFailed sl pos s).repairSource sl pos = none) :
    parityRepair sl pos false s = parityFailed sl pos s := by
  rw [parityRepair_eq, h]

/-! ### Lookups (R282) -/

/-- The hit bit of a slice's copy set at a position. -/
def setHit (sl pos : Nat) (s : State) : State :=
  onEm (fun m => { m with
    copy := Tab.upd m.copy sl [] fun t => Tab.modify t pos fun e => { e with hit := true } }) s

theorem emCopy_setHit_other (h : c ≠ sl) : (setHit sl pos s).emCopy c = s.emCopy c := by
  rw [State.emCopy, setHit, onEm_em, Tab.getD_upd_other _ _ _ _ h, State.emCopy]

theorem emLookup_hit (hk : findKey (s.emCopy sl) (s.emBucket k key) k key = some (p, e)) :
    emLookup sl k key s = (some e, bump .emHits sl (setHit sl p (bump .emLookups sl s))) := by
  have hseen : findKey ((bump .emLookups sl s).emCopy sl) ((bump .emLookups sl s).emBucket k key) k key = some (p, e) :=
    hk
  simp only [emLookup, hseen]
  rfl

theorem emLookup_hit_counts (hk : findKey (s.emCopy sl) (s.emBucket k key) k key = some (p, e)) :
    (emLookup sl k key s).2.count .emLookups sl = (s.count .emLookups sl + 1) % 2 ^ 64 := by
  rw [emLookup_hit hk]
  exact (count_bumpBy_other (c := .emHits) sl 1 sl _ (by decide)).trans (count_bumpBy_self .emLookups sl 1 s)

theorem emLookup_hit_otherCopy (hk : findKey (s.emCopy sl) (s.emBucket k key) k key = some (p, e)) (hc : c ≠ sl) :
    (emLookup sl k key s).2.emCopy c = s.emCopy c := by
  rw [emLookup_hit hk]
  exact emCopy_setHit_other hc

end Sys2Proof.Machine
end

section
/-! PROOF. The statement on learning, ageing and parity of the exact-match table. -/

open Sys2Proof Sys2Proof.Machine

/-- Settles O42: each event by the lemma on its case. -/
theorem learningAgeingAndParity : Obligations.LearningAgeingAndParity := by
  intro s sl pos p k c key op e n rest meets
  refine ⟨fun ha hr => ?writes, fun ha => ⟨?noneWaits, ?inTurn, fun hx => ⟨?notDue, fun hon hsw => ?sweep, ?notYet,
      fun hret hc => ?acknowledged⟩⟩,
    fun hk => ⟨learn_overLimit hk, learn_freeWay_counted hk⟩, fun ha => ?parity,
    fun hk => ⟨congrArg Prod.fst (emLookup_hit hk), emLookup_hit_counts hk, emLookup_hit_otherCopy hk⟩⟩
  case writes =>
    rw [exec_tableWriteApply ha]
    exact ⟨fun hw => congrArg _ (writeApply_next hr hw), fun hw => congrArg _ (writeApply_noneIssued hr hw)⟩
  case noneWaits => exact fun h => (exec_learnTake ha).trans (congrArg _ (learnTake_noneWaits h))
  case inTurn => exact fun ht hk hq => (exec_learnTake ha).trans (congrArg _ (learnTake_inTurn ht hk hq))
  case notDue => exact fun h => (exec_agerSweep ha).trans (congrArg _ (agerSweep_notDue h))
  case sweep =>
    rw [exec_agerSweep ha, agerSweep_due hx hon hsw]
    refine ⟨fun h => congrArg _ (if_pos (by simpa using h)), fun hst hret => ?_⟩
    rw [if_neg (by simp [hst, hret])]
    refine ⟨fun hh => congrArg _ (if_pos hh), fun hh hage => ?_, fun hh hage => ?_⟩
    · rw [if_neg (by simp [hh]), if_pos hage]
      rfl
    · rw [if_neg (by simp [hh]), if_neg (Nat.not_lt.2 hage)]
      rfl
  case notYet => exact fun h => (exec_conditionalInvalidation ha).trans (congrArg _ (conditionalInval_notYet hx h))
  case acknowledged =>
    rw [exec_conditionalInvalidation ha, conditionalInval_acknowledged hx hret hc]
    exact ⟨fun hh => congrArg _ (if_pos hh), fun hh => congrArg _ (if_neg (Bool.eq_false_iff.1 hh))⟩
  case parity =>
    rw [exec_parityRepair ha]
    exact ⟨fun h => congrArg _ (parityRepair_issued h), fun h => congrArg _ (parityRepair_noSource h)⟩

end

section
/-! SUPPORT. The commands on the gather pool and the deep buffer (R297, R298, R302, R307, R313, R315, R326). -/

namespace Sys2Proof.Machine

variable {s : State} {q : Req} {r res lim c n stack k page : Nat} {p : BufProfile} {x : Cell} {ch : Chain} {y : Queue}

@[simp] theorem onPool_pool (f : PoolS → PoolS) (s : State) : (onPool f s).pool = f s.pool := rfl

@[simp] theorem onPool_sch (f : PoolS → PoolS) (s : State) : (onPool f s).sch = s.sch := rfl

@[simp] theorem onPool_count (f : PoolS → PoolS) (s : State) : (onPool f s).count = s.count := rfl

theorem exec_poolStatus : exec (.poolStatus q) s = execPoolStatus q s := rfl

theorem exec_poolQuotaSet : exec (.poolQuotaSet q r res lim) s = execPoolQuotaSet q r res lim s := rfl

theorem exec_poolCellRead : exec (.poolCellRead q c) s = execPoolCellRead q c s := rfl

theorem exec_dbufProfileSet : exec (.dbufProfileSet q n p) s = execDbufProfileSet q n p s := rfl

theorem exec_dbufStatus : exec (.dbufStatus q stack) s = execDbufStatus q stack s := rfl

theorem exec_queueBufferStatus : exec (.queueBufferStatus q k) s = execQueueBufferStatus q k s := rfl

theorem exec_dbufPageRead : exec (.dbufPageRead q page) s = execDbufPageRead q page s := rfl

/-! ### The pool (R297, R298, R302) -/

theorem poolStatus_replies : Replies (.poolStatus q) q 0x8000 (.vals [.u 20 (917504 - s.pool.cells.length)
    , .lst 4 ((List.range 24).map fun r => Tab.getD s.pool.held r 0), .u 1 (s.paramN 0x8000 0), .u 1 s.pool.modeInForce
    , .lst 8 ((List.range 8).map fun sl =>
        (s.pool.cells.filter fun e => e.2.st == 2 && e.2.owner == 2 * sl + 1).length)]) id s :=
  .of_kilak exec_poolStatus rfl (by simp [doneWith])

theorem poolQuotaSet_replies (hr : r < 24) (hres : res % 32 = 0) (hlim : lim ≤ 917504)
    (hsum : (((List.range 24).filter (· != r)).map fun i => s.paramN 0x8010 i).foldl (· + ·) 0 + res ≤ 786432) :
    Replies (.poolQuotaSet q r res lim) q 0x8001 .ok
      (fun u => setParam 0x8011 r lim (setParam 0x8010 r res u)) s := by
  refine .of_kilak exec_poolQuotaSet rfl ?_
  simp only [openCmd_paramN, Nat.not_le.2 hr, hres, Nat.not_lt.2 hlim, Nat.not_lt.2 hsum, bne_self_eq_false,
    decide_false, Bool.or_self, Bool.false_eq_true, if_false, done]

theorem linkWord_inUse (hx : Tab.get? s.pool.cells c = some x) : s.linkWord c =
    fields [(20, x.next), (1, flag x.last), (1, flag x.head), (2, x.st), (6, x.holder), (5, x.owner), (5, 0)] := by
  rw [State.linkWord, hx]

theorem linkWord_free (hx : Tab.get? s.pool.cells c = none) : s.linkWord c = 0 := by
  rw [State.linkWord, hx]

theorem poolCellRead_head (hc : c < 917504) (hx : Tab.get? s.pool.cells c = some x) (hh : x.head = true)
    (hch : s.chain c = some ch) : Replies (.poolCellRead q c) q 0x8002
      (.vals [.rcd 40 (fields [(20, x.next), (1, flag x.last), (1, flag x.head), (2, x.st), (6, x.holder), (5, x.owner)
        , (5, 0)]), .rcd 128 ch.hdr.word]) id s := by
  refine .of_kilak exec_poolCellRead rfl ?_
  simp [Nat.not_le.2 hc, hx, hh, hch, linkWord_inUse hx, doneWith]

theorem poolCellRead_free (hc : c < 917504) (hx : Tab.get? s.pool.cells c = none) (hch : s.chain c = none) :
    Replies (.poolCellRead q c) q 0x8002 (.vals [.rcd 40 0]) id s := by
  refine .of_kilak exec_poolCellRead rfl ?_
  simp [Nat.not_le.2 hc, hch, linkWord_free hx, doneWith]

/-! ### The deep buffer (R313, R315) -/

theorem dbufProfileSet_replies (hn : n < 16) (hp : profileOk p = true) :
    Replies (.dbufProfileSet q n p) q 0x8003 .ok (fun u =>
      ((u.sch.q.filter fun e => e.2.a.bufProfile == n).map (·.1)).foldl (fun s k => refill k s)
        (onPool (fun x => { x with prof := Tab.set x.prof n p }) u)) s := by
  refine .of_kilak exec_dbufProfileSet rfl ?_
  simp only [Nat.not_le.2 hn, hp, decide_false, Bool.not_true, Bool.or_self, Bool.false_eq_true, if_false, onPool_sch,
    done]

theorem dbufStatus_replies (hst : stack < 4) : Replies (.dbufStatus q stack) q 0x8004
    (.vals [.u 23 (s.freePages stack), .u 64 s.freeVal, .u 64 s.drawn.freeVal]) (fun u => u.drawn.drawn) s := by
  refine .of_kilak exec_dbufStatus rfl ?_
  simp [Nat.not_le.2 hst, doneWith, State.drawn, State.freeVal]

theorem queueBufferStatus_replies (hy : s.queue k = some y) : Replies (.queueBufferStatus q k) q 0x8005
    (.vals [.u 64 (flag y.spill), .u 64 (s.descCells y.head)
      , .u 64 ((y.deep.map fun p => ((Tab.get? s.pool.pages p).map (·.slots)).getD 0).foldl (· + ·) 0), .u 64 y.tailCells
      , .u 64 y.pages.length, .u 24 ((y.deep.head?).getD 0xFFFFFF)]) id s :=
  .of_kilak exec_queueBufferStatus rfl (by simp [hy, doneWith])

theorem dbufPageRead_replies (hp : page < 4 * s.stackPages) : Replies (.dbufPageRead q page) q 0x8006
    (.vals [.rcd 256 (((Tab.get? s.pool.pages page).map (·.word)).getD 0)]) id s :=
  .of_kilak exec_dbufPageRead rfl (by simp [Nat.not_le.2 hp, doneWith])

end Sys2Proof.Machine
end

section
/-! SUPPORT. A free that reaches its bank (R304). -/

namespace Sys2Proof.Machine

variable {s : State} {c : Nat} {x : Cell}

theorem exec_cellFree_outside (h : 917504 ≤ c) : exec (.cellFree c) s = .next s := if_pos h

theorem exec_cellFree (h : c < 917504) (ha : Acts s (poolBlk c)) : exec (.cellFree c) s = .next (cellFree c s) :=
  (if_neg (Nat.not_le.2 h)).trans (island_acts ha)

@[simp] theorem raiseFault_pool (b kind detail : Nat) (s : State) : (raiseFault b kind detail s).pool = s.pool := by
  rw [raiseFault_touch]

@[simp] theorem ledEnd_pool (l i n : Nat) (s : State) : (ledEnd l i n s).pool = s.pool := rfl

@[simp] theorem ledEnd_count (l i n : Nat) (s : State) : (ledEnd l i n s).count = s.count := rfl

theorem cellFree_free (hx : Tab.get? s.pool.cells c = none) : cellFree c s = raiseFault (poolBlk c) 8 c s := by
  simp only [cellFree, hx]

theorem cellFree_notIssued (hx : Tab.get? s.pool.cells c = some x) (hf : s.pool.freeing.contains c = false) :
    cellFree c s = s := by
  simp only [cellFree, hx, hf, Bool.false_eq_true, if_false]

/-- The pool after a cell of its owner is FREE again. -/
def PoolS.freed (p : PoolS) (c owner : Nat) : PoolS :=
  { p with
    cells := Tab.erase p.cells c, freeing := p.freeing.erase c, bad := p.bad.erase c
    held := Tab.upd p.held owner 0 (· - 1) }

theorem PoolS.freed_held_self (p : PoolS) (c owner : Nat) :
    Tab.getD (p.freed c owner).held owner 0 = Tab.getD p.held owner 0 - 1 :=
  Tab.getD_upd_self p.held owner 0 (· - 1)

theorem cellFree_issued (hx : Tab.get? s.pool.cells c = some x) (hf : s.pool.freeing.contains c = true) :
    cellFree c s = ledEnd 0 0 1 (bump .cellsFreed x.owner (onPool (·.freed c x.owner) s)) := by
  simp only [cellFree, hx, hf, if_true]
  rfl

theorem cellFree_issued_pool (hx : Tab.get? s.pool.cells c = some x) (hf : s.pool.freeing.contains c = true) :
    (cellFree c s).pool = s.pool.freed c x.owner := by
  rw [cellFree_issued hx hf, ledEnd_pool, bump_pool, onPool_pool]

theorem cellFree_issued_count (hx : Tab.get? s.pool.cells c = some x) (hf : s.pool.freeing.contains c = true) :
    (cellFree c s).count .cellsFreed x.owner = (s.count .cellsFreed x.owner + 1) % 2 ^ 64 := by
  rw [cellFree_issued hx hf, ledEnd_count, bump, count_bumpBy_self, onPool_count]

end Sys2Proof.Machine
end

section
/-! PROOF. The statement on the commands of the gather pool and the deep buffer. -/

open Sys2Proof Sys2Proof.Machine

/-- Settles O43: each command by the lemma on its case, and a freed cell by the pool that it leaves. -/
theorem poolAndDeepBufferCommands : Obligations.PoolAndDeepBufferCommands := by
  intro s q r res lim c n stack k page p x ch y
  refine ⟨poolStatus_replies, poolQuotaSet_replies, fun hc => ⟨poolCellRead_head hc, poolCellRead_free hc⟩,
    dbufProfileSet_replies, dbufStatus_replies, queueBufferStatus_replies, dbufPageRead_replies, exec_cellFree_outside,
    fun hc ha => ?_⟩
  rw [exec_cellFree hc ha]
  refine ⟨fun hx => ?free, fun hx hf hwf => ?issued, fun hx hf => congrArg _ (cellFree_notIssued hx hf)⟩
  case free => exact ⟨_, rfl, cellFree_free hx, by rw [cellFree_free hx, raiseFault_pool]⟩
  case issued =>
    refine ⟨_, rfl, ?_⟩
    rw [cellFree_issued_pool hx hf]
    exact ⟨Tab.get?_erase_self hwf, rfl, PoolS.freed_held_self .., fun d hd => Tab.get?_erase_other _ hd,
      cellFree_issued_count hx hf⟩

end

section
/-! SUPPORT. Octets most significant first and the value they spell, and a GCM message opened (R6, R365, R366). -/

namespace Sys2Proof.Machine

theorem beNat_append_singleton (xs : List Nat) (x acc : Nat) : beNat (xs ++ [x]) acc = beNat xs acc * 256 + x % 256 := by
  induction xs generalizing acc with
  | nil => rfl
  | cons y ys ih => exact ih _

theorem length_leOctets (k n : Nat) : (leOctets k n).length = k := by
  induction k generalizing n with
  | zero => rfl
  | succ k ih => simp [leOctets, ih]

theorem length_beOctets (k n : Nat) : (beOctets k n).length = k := by
  rw [beOctets, List.length_reverse, length_leOctets]

theorem beNat_beOctets (k n : Nat) : beNat (beOctets k n) 0 = n % 256 ^ k := by
  rw [beOctets]
  induction k generalizing n with
  | zero => simp [leOctets, beNat, Nat.mod_one]
  | succ k ih =>
    rw [leOctets, List.reverse_cons, beNat_append_singleton, ih, Nat.mod_mod, Nat.pow_succ', Nat.mod_mul]
    ring

variable {c : KeyCtx} {id n tag : Nat} {hdr ct : List Nat}

/-- A message ends in the 16 octets of its tag; what stands before them is its text. -/
theorem openGcm_tagged (ht : tag < 2 ^ 128) : c.openGcm id n hdr (ct ++ beOctets 16 tag) =
    (gcmText c.key (ivWord 1 false id n (c.follow n ct.length).2) ct,
      gcmTag c.key (ivWord 1 false id n (c.follow n ct.length).2) hdr ct == tag, (c.follow n ct.length).1) := by
  have hval : beNat (beOctets 16 tag) 0 = tag := (beNat_beOctets 16 tag).trans (Nat.mod_eq_of_lt ht)
  simp [KeyCtx.openGcm, hval, length_beOctets, Nat.add_comm]

end Sys2Proof.Machine
end

section
/-! SUPPORT. Which key opens an upstream frame (R356, R357), and the verdicts on the items of a decryptor (R362, R370,
R372). -/

namespace Sys2Proof.Machine

variable {s : State} {sl g h gem ki t0 n k : Nat} {x : HoldItem} {rest : List HoldItem}

/-! ### The key of a frame (R356, R357) -/

theorem frameKey_unkeyed_required (hp : s.param 0xA020 gem = 1)
    (hr : (s.keyOnu h).isRec = false ∨ s.param 0xA000 (g / 8) ≠ 0) : s.frameKey g h gem 0 = .error 0x43 := by
  have hrec : ((s.keyOnu h).isRec && s.param 0xA000 (g / 8) == 0) = false := by
    rcases hr with hr | hr <;> simp [hr]
  simp [State.frameKey, hp, hrec]

theorem frameKey_recordsOff (hp : s.param 0xA020 gem = 1) (hr : (s.keyOnu h).isRec = true)
    (ho : s.param 0xA000 (g / 8) = 0) : s.frameKey g h gem ki = .error 0x44 := by
  simp [State.frameKey, hp, hr, ho]

theorem frameKey_unkeyed_allowed (hp : s.param 0xA020 gem ≠ 1) : s.frameKey g h gem 0 = .ok none := by
  simp [State.frameKey, hp]

theorem frameKey_noSlotAccepts (hp : s.param 0xA020 gem ≠ 1) (hk : ki ≠ 0)
    (hs : ∀ k, keySlotOf ki = some k → slotAccepts (s.keyCtx h 1 k).st = false) :
    s.frameKey g h gem ki = .error 0x41 := by
  have hnone : (keySlotOf ki).filter (fun k => slotAccepts (s.keyCtx h 1 k).st) = none := by
    simpa [Option.filter_eq_none_iff] using hs
  simp [State.frameKey, hp, hk, hnone]

/-! ### Verdicts (R362, R370) -/

theorem exec_decryptVerify (ha : Acts s (inBlk (upPipe sl))) :
    exec (.decryptVerify sl n) s = .next (decryptVerify sl n s) :=
  island_acts ha

theorem decryptVerify_early (hn : n < 48) : decryptVerify sl n s = s := if_pos hn

theorem decryptVerify_empty (hh : s.hold sl = []) : decryptVerify sl n s = s := by
  simp [decryptVerify, hh, setVerdict]

theorem setVerdict_head (hv : x.verdict = none) :
    setVerdict (x :: rest) = (some x, { x with verdict := some x.good } :: rest) := by
  simp [setVerdict, hv]

@[simp] theorem onHold_keyCtx (sl : Nat) (f : List HoldItem → List HoldItem) (s : State) :
    (onHold sl f s).keyCtx = s.keyCtx := rfl

theorem decryptVerify_ready (hh : s.hold sl = x :: rest) (hv : x.verdict = none) (hn : 48 ≤ n) (hg : x.good = true)
    (hk : x.slot = some k) (hr : (s.keyCtx x.h 1 k).st = .ready) : decryptVerify sl n s =
      keySwitch x.h 1 k (onHold sl (fun _ => { x with verdict := some true } :: rest) s) := by
  simp [decryptVerify, Nat.not_lt.2 hn, hh, setVerdict_head hv, hg, hk, hr]

theorem decryptVerify_unkeyed (hh : s.hold sl = x :: rest) (hv : x.verdict = none) (hn : 48 ≤ n) (hg : x.good = true)
    (hk : x.slot = none) : decryptVerify sl n s = onHold sl (fun _ => { x with verdict := some true } :: rest) s := by
  simp [decryptVerify, Nat.not_lt.2 hn, hh, setVerdict_head hv, hg, hk]

theorem decryptVerify_failed (hh : s.hold sl = x :: rest) (hv : x.verdict = none) (hn : 48 ≤ n) (hg : x.good = false) :
    decryptVerify sl n s = authFailed x.h (onHold sl (fun _ => { x with verdict := some false } :: rest) s) := by
  simp [decryptVerify, Nat.not_lt.2 hn, hh, setVerdict_head hv, hg]

/-! ### Failed tags (R372) -/

@[simp] theorem bump_keyOnu (c : Ctr) (i : Nat) (s : State) : (bump c i s).keyOnu = s.keyOnu := rfl

theorem authFailed_quiet (ht : (s.keyOnu h).authAt = some t0) (hn : s.clk.now < t0 + secT 1) :
    authFailed h s = bump .gemAuthFail h s := by
  simp [authFailed, ht, hn]

theorem authFailed_first (ht : (s.keyOnu h).authAt = none) : authFailed h s = event 0xA001 [.u 15 h]
    (onKeyOnu h (fun k => { k with authAt := some s.clk.now }) (bump .gemAuthFail h s)) := by
  simp [authFailed, ht]

end Sys2Proof.Machine
end

section
/-! SUPPORT. Items that leave a decryptor, and SDUs whose reassembly time is over (R371, R372). -/

namespace Sys2Proof.Machine

variable {s : State} {sl h gem t0 : Nat} {x : HoldItem} {rest : List HoldItem} {r : Reasm}

/-! ### Release (R371) -/

theorem exec_decryptRelease (ha : Acts s (inBlk (upPipe sl))) :
    exec (.decryptRelease sl) s = .next (decryptRelease sl s) :=
  island_acts ha

theorem decryptRelease_empty (hh : s.hold sl = []) : decryptRelease sl s = s := by
  simp only [decryptRelease, hh]

theorem decryptRelease_noVerdict (hh : s.hold sl = x :: rest) (hv : x.verdict = none) : decryptRelease sl s = s := by
  simp only [decryptRelease, hh, hv]

theorem decryptRelease_good (hh : s.hold sl = x :: rest) (hv : x.verdict = some true) :
    decryptRelease sl s = releaseGood sl x (onHold sl (fun _ => rest) s) := by
  simp only [decryptRelease, hh, hv]

theorem decryptRelease_bad (hh : s.hold sl = x :: rest) (hv : x.verdict = some false) :
    decryptRelease sl s = releaseBad sl x (onHold sl (fun _ => rest) s) := by
  simp only [decryptRelease, hh, hv]

@[simp] theorem onReasm_count (f : Tab Reasm → Tab Reasm) (s : State) : (onReasm f s).count = s.count := rfl

@[simp] theorem dropOnu_reasm (h dir code n : Nat) (s : State) : (dropOnu h dir code n s).cip.reasm = s.cip.reasm := rfl

theorem dropOnu_count (h dir code n : Nat) (s : State) :
    (dropOnu h dir code n s).count .dropOnu (256 * h + code) = (s.count .dropOnu (256 * h + code) + 1) % 2 ^ 64 :=
  count_bumpBy_self ..

theorem releaseGood_whole (hl : x.last = true) (hr : Tab.get? s.cip.reasm (sduKey x.h x.gem) = none) :
    releaseGood sl x s = releaseSdu sl x.h x.g x.gem x.at_ x.octets x.chain s := by
  simp only [releaseGood, hr, hl, if_true]

/-- With nothing gathered there is nothing to count: at most the rest of the SDU is marked. -/
theorem spoilSdu_noneGathered_count {code till : Nat} {last : Bool}
    (hr : Tab.get? s.cip.reasm (sduKey h gem) = none) : (spoilSdu sl h gem code till last s).count = s.count := by
  simp only [spoilSdu, hr]
  split <;> rfl

theorem releaseBad_whole_count (hl : x.last = true) (hr : Tab.get? s.cip.reasm (sduKey x.h x.gem) = none)
    (hc : x.chain = none) : (releaseBad sl x s).count .dropOnu (256 * x.h + 0x40) =
      (s.count .dropOnu (256 * x.h + 0x40) + 1) % 2 ^ 64 := by
  simp only [releaseBad, hl, hc, quarFree, if_true, onReasm_count]
  rw [spoilSdu_noneGathered_count (by rwa [dropOnu_reasm]), dropOnu_count]

/-! ### The reassembly time (R372) -/

theorem exec_reasmTimeout (ha : Acts s (inBlk (upPipe sl))) :
    exec (.reasmTimeout sl h gem) s = .next (reasmTimeout sl h gem s) :=
  island_acts ha

theorem reasmTimeout_notYet (hr : Tab.get? s.cip.reasm (sduKey h gem) = some r)
    (hn : r.bad = true ∨ s.clk.now < r.till) : reasmTimeout sl h gem s = s := by
  have hwait : (r.bad || decide (s.clk.now < r.till)) = true := by simpa using hn
  simp only [reasmTimeout, hr, hwait, if_true]

theorem reasmTimeout_over (hr : Tab.get? s.cip.reasm (sduKey h gem) = some r) (ht : r.till ≤ s.clk.now)
    (hb : r.bad = false) :
    reasmTimeout sl h gem s = bump .reasmTimeout h (spoilSdu sl h gem 0x45 r.till false s) := by
  simp [reasmTimeout, hr, hb, Nat.not_lt.2 ht]

theorem spoilSdu_gathered {code till : Nat} {last : Bool} (hr : Tab.get? s.cip.reasm (sduKey h gem) = some r)
    (hb : r.bad = false) (hc : r.chain = none) (ho : r.octets ≠ []) :
    spoilSdu sl h gem code till last s = onReasm (fun t => Tab.set t (sduKey h gem)
      { octets := [], till := r.till, bad := true, code := code, chain := none, at_ := s.ltbNow })
      (dropUp sl h code r.octets.length s) := by
  simp [spoilSdu, hr, hb, hc, ho, quarFree]

end Sys2Proof.Machine
end

section
/-! PROOF. The statement on upstream decryption and reassembly. -/

open Sys2Proof Sys2Proof.Machine

/-- Settles O45: each frame, verdict, release and timeout by the lemma on its case. -/
theorem upstreamDecryptionAndReassembly : Obligations.UpstreamDecryptionAndReassembly := by
  intro s sl g h gem ki t0 n x rest r
  refine ⟨frameKey_unkeyed_required, frameKey_recordsOff, frameKey_unkeyed_allowed, frameKey_noSlotAccepts,
    fun ha => ?decryptor, fun c id hdr ct tag ht => ?gcm, authFailed_quiet, authFailed_first⟩
  case decryptor =>
    rw [exec_decryptRelease ha, exec_decryptVerify ha, exec_reasmTimeout ha]
    refine ⟨fun hh => ⟨fun hv => ?verify, fun hv hl hr => ?good, fun hv hl hr hc => ?bad⟩,
      fun hh => ⟨congrArg _ (decryptRelease_empty hh), congrArg _ (decryptVerify_empty hh)⟩,
      fun hr => ⟨fun hn => congrArg _ (reasmTimeout_notYet hr hn),
        fun ht hb => congrArg _ (reasmTimeout_over hr ht hb), spoilSdu_gathered hr⟩⟩
    case verify =>
      exact ⟨congrArg _ (decryptRelease_noVerdict hh hv), fun hn => congrArg _ (decryptVerify_early hn),
        fun hn hg => ⟨fun k hk hr => congrArg _ (decryptVerify_ready hh hv hn hg hk hr),
          fun hk => congrArg _ (decryptVerify_unkeyed hh hv hn hg hk)⟩,
        fun hn hg => congrArg _ (decryptVerify_failed hh hv hn hg)⟩
    case good => exact congrArg _ ((decryptRelease_good hh hv).trans (releaseGood_whole hl hr))
    case bad =>
      refine ⟨_, rfl, ?_⟩
      rw [decryptRelease_bad hh hv]
      exact releaseBad_whole_count hl hr hc
  case gcm =>
    rw [openGcm_tagged ht]
    exact ⟨rfl, beq_iff_eq⟩

end

section
/-! SUPPORT. The buckets of a queue brought up to date (R335): what the update counts leaves every queue as it is, and
the queue read changes in its two buckets alone. -/

namespace Sys2Proof.Machine

variable {s : State} {k : Nat} {x : Queue}

theorem nodeArgs_queue (hk : k < 2 ^ 18) : s.nodeArgs k = (s.queue k).map (·.a) := if_pos hk

@[simp] theorem cutTokens_queue (k cut : Nat) (s : State) : (cutTokens k cut s).queue = s.queue := rfl

@[simp] theorem ledTokens_queue (i credited spent cut : Nat) (s : State) :
    (ledTokens i credited spent cut s).queue = s.queue := rfl

@[simp] theorem ledRebase_queue (i k rate burst : Nat) (b : Bucket) (s : State) :
    (ledRebase i k rate burst b s).queue = s.queue := by
  unfold ledRebase
  split <;> rfl

theorem onQueue_queue_self (f : Queue → Queue) (hx : s.queue k = some x) : (onQueue k f s).queue k = some (f x) := by
  have hget : Tab.get? s.sch.q k = some x := hx
  simp [onQueue, State.queue, Tab.modify_of_get? f hget]

/-- What a read of a queue leaves in its place: both buckets at the present clock. -/
theorem readNode_queue_self (hx : s.queue k = some x) (hk : k < 2 ^ 18) : (readNode k s).queue k = some { x with
    bmax := x.bmax.rebase x.a.maxRate x.a.maxBurst s.clk15, bmin := x.bmin.rebase x.a.minRate x.a.minBurst s.clk15 } := by
  have hargs : s.nodeArgs k = some x.a := by rw [nodeArgs_queue hk, hx, Option.map_some]
  simp only [readNode, hargs, if_pos hk, hx]
  exact onQueue_queue_self _ (by rw [ledRebase_queue, ledRebase_queue, hx])

end Sys2Proof.Machine
end

section
/-! SUPPORT. The commands on queues (R329, R346, R349, R350, R351). -/

namespace Sys2Proof.Machine

variable {s : State} {q : Req} {dir i k n u port tc : Nat} {a : NodeArgs} {x : Queue} {dl : Bool}

theorem exec_queueCreate : exec (.queueCreate q dir i a) s = execQueueCreate q dir i a s := rfl

theorem exec_queueModify : exec (.queueModify q k a) s = execQueueModify q k a s := rfl

theorem exec_queueDelete : exec (.queueDelete q k) s = execQueueDelete q k s := rfl

theorem exec_queueStatus : exec (.queueStatus q k) s = execQueueStatus q k s := rfl

theorem exec_portQueueSet : exec (.portQueueSet q port tc k) s = execPortQueueSet q port tc k s := rfl

theorem exec_queueSampleBind : exec (.queueSampleBind q k dl u) s = execQueueSampleBind q k dl u s := rfl

theorem queueCreate_replies (hdir : dir < 2) (hpar : s.parentOk dir a.parent = true) (hargs : nodeArgsOk a = true)
    (hi : i < (if dir = 0 then 131072 else 8192)) (hfree : s.queue (queueKey dir i) = none) (hgate : s.gateFits a = true)
    (hmany : s.queuesIn dir ((s.vertSlice a.parent).getD 0) < (if dir = 0 then 32768 else 2048))
    (hdeep : s.vertDepth s.treeFuel a.parent ≤ s.paramN 0x9001 0) :
    let nq : Queue := { a := a, bmax := { at_ := s.clk15 }, bmin := { at_ := s.clk15 }
                        , bind := if s.freeVal % 2 = 0 then none else some (s.freeVal / 2 % 32768)
                        , gem := s.freeVal / 65536 % 2 ^ 18 }
    Replies (.queueCreate q dir i a) q 0x9000 .ok (fun u =>
      let w := ledBucket (2 * queueKey dir i) 0 (ledBucket (2 * queueKey dir i + 1) 0 u.drawn)
      attach (queueKey dir i) a { w with sch := { w.sch with q := Tab.set w.sch.q (queueKey dir i) nq } }) s := by
  refine .of_kilak exec_queueCreate rfl ?_
  simp only [queueCreate, openCmd_queue, openCmd_parentOk, openCmd_gateFits, openCmd_vertSlice, openCmd_queuesIn,
    openCmd_paramN, openCmd_vertDepth, openCmd_treeFuel, openCmd_freeVal, openCmd_clk15, hfree,
    hpar, hargs, hgate, Nat.not_lt.2 (Nat.le_of_lt_succ hdir), Nat.not_le.2 hi, Nat.not_le.2 hmany, Nat.not_lt.2 hdeep,
    Option.isSome_none, decide_false, Bool.not_true, Bool.or_self, Bool.false_eq_true, if_false, done]

theorem queueModify_replies (hx : s.queue k = some x) (hargs : nodeArgsOk { a with parent := x.a.parent } = true)
    (hgate : s.gateFits { a with parent := x.a.parent } = true)
    (hprof : a.bufProfile = x.a.bufProfile ∨ x.spill = false) :
    Replies (.queueModify q k a) q 0x9001 .ok (changeNode k x.a { a with parent := x.a.parent }) s := by
  refine .of_kilak exec_queueModify rfl ?_
  have hbusy : (a.bufProfile != x.a.bufProfile && x.spill) = false := by
    rcases hprof with h | h <;> simp [h]
  simp only [queueModify, openCmd_queue, openCmd_gateFits, hx, hargs, hgate, hbusy, Bool.not_true, Bool.or_self,
    Bool.false_eq_true, if_false, done]

theorem queueDelete_replies (hx : s.queue k = some x) (hnamed : s.queueNamed k = false)
    (hn : (emptyQueue .dropQueue k k 0x32 (openCmd q 0x9004 s)).1 = n) :
    Replies (.queueDelete q k) q 0x9004 (.vals [.u 64 n]) (fun u =>
      let w := detach k x.a (emptyQueue .dropQueue k k 0x32 u).2
      { w with sch := { w.sch with q := Tab.erase w.sch.q k } }) s := by
  refine .of_kilak exec_queueDelete rfl ?_
  simp only [queueDelete, openCmd_queue, openCmd_queueNamed, hx, hnamed, hn, Bool.false_eq_true, if_false, doneWith]

theorem queueStatus_replies :
    let w := readNode k (openCmd q 0x9005 s)
    ∀ z, w.queue k = some z → Replies (.queueStatus q k) q 0x9005 (.vals [.rcd 256 (nodeWord false (k / 2 ^ 17) z.a)
      , .i 64 (w.levelNow z.bmax z.a.maxRate z.a.maxBurst), .i 64 (w.levelNow z.bmin z.a.minRate z.a.minBurst)
      , .i 64 z.deficit, .u 64 (flag (w.queueElig k z)), .u 64 (flag (w.inCommit k)), .u 64 z.qdLast, .u 64 z.qdMax
      , .u 64 z.qlLast, .u 64 z.qlMax])
      (fun u => onQueue k (fun x => { x with qdMax := x.qdLast, qlMax := x.qlLast }) (readNode k u)) s :=
  fun z hz => .of_kilak exec_queueStatus rfl (by simp only [hz, doneWith])

theorem portQueueSet_replies (hx : s.queue (queueKey 1 k) = some x) (hport : port < 256) (htc : tc < 8) (hk : k < 8192)
    (hroot : s.rootOf s.treeFuel x.a.parent = some (512 + port)) :
    Replies (.portQueueSet q port tc k) q 0x9011 .ok (setParam 0x9040 (8 * port + tc) k) s := by
  refine .of_kilak exec_portQueueSet rfl ?_
  simp [hx, Nat.not_le.2 hport, Nat.not_le.2 htc, Nat.not_le.2 hk, hroot, done]

theorem queueSampleBind_replies (hx : s.queue k = some x) (hu : u < 256) (hfree : Tab.get? s.mon.hist u = none) :
    Replies (.queueSampleBind q k dl u) q 0x9012 .ok (fun w =>
      bindUnit u (s.freeVal % 32) (if dl then .qDelay k else .qDepth k) w.drawn) s :=
  .of_kilak exec_queueSampleBind rfl (by simp [hx, Nat.not_le.2 hu, hfree, done])

end Sys2Proof.Machine
end

section
/-! SUPPORT. The moves of nodes (R330, R351). -/

namespace Sys2Proof.Machine

variable {s : State} {q : Req} {k v par pr wt : Nat} {b : NodeArgs} {y : Vertex}

theorem exec_queueMove : exec (.queueMove q k par pr wt) s = execQueueMove q k par pr wt s := rfl

theorem exec_vertexMove : exec (.vertexMove q v par pr wt) s = execVertexMove q v par pr wt s := rfl

@[simp] theorem vxKey_sub (v : Nat) : vxKey v - 2 ^ 18 = v := Nat.add_sub_cancel_left ..

theorem le_vxKey (v : Nat) : 2 ^ 18 ≤ vxKey v := Nat.le_add_right ..

theorem not_vxKey_lt (v : Nat) : ¬ vxKey v < 2 ^ 18 := Nat.not_lt.2 (le_vxKey v)

/-- The direction of a node: that of a queue's key, or of a vertex. -/
def State.nodeDir (s : State) (k : Nat) : Nat :=
  if k < 2 ^ 18 then k / 2 ^ 17 else ((s.vert (k - 2 ^ 18)).map (·.dir)).getD 0

theorem nodeDir_queue (hk : k < 2 ^ 18) : s.nodeDir k = k / 2 ^ 17 := if_pos hk

theorem nodeDir_vertex (hy : s.vert v = some y) : s.nodeDir (vxKey v) = y.dir := by
  rw [State.nodeDir, if_neg (not_vxKey_lt v), vxKey_sub, hy, Option.map_some, Option.getD_some]

/-- The node fits under the parent: within the slice, below the depth limit and not under itself. -/
structure State.MayMove (s : State) (k par pr wt : Nat) (b : NodeArgs) : Prop where
  args : s.nodeArgs k = some b
  notRoot : isRoot k = false
  slice : s.vertSlice par = s.vertSlice b.parent
  prio : pr ≤ 7
  weightMin : 1 ≤ wt
  weightMax : wt ≤ 1023
  parent : s.parentOk (s.nodeDir k) par = true
  acyclic : 2 ^ 18 ≤ k → s.isAncestor (k - 2 ^ 18) s.treeFuel par = false
  depth : ∀ d, s.queueDepth s.treeFuel k = some d → s.vertDepth s.treeFuel par + d ≤ s.paramN 0x9001 0

theorem openCmd_mayMove (op : Nat) (h : s.MayMove k par pr wt b) : (openCmd q op s).MayMove k par pr wt b := by
  obtain ⟨hargs, hroot, hslice, hprio, hmin, hmax, hpar, hacyclic, hdepth⟩ := h
  constructor <;> simpa only [State.nodeDir, openCmd_nodeArgs, openCmd_vertSlice, openCmd_parentOk, openCmd_vert,
    openCmd_isAncestor, openCmd_treeFuel, openCmd_queueDepth, openCmd_vertDepth, openCmd_paramN]

theorem nodeMove_moves (h : s.MayMove k par pr wt b) : nodeMove k par pr wt s = done (moveNode k par pr wt s) := by
  obtain ⟨hargs, hroot, hslice, hprio, hmin, hmax, hpar, hacyclic, hdepth⟩ := h
  rw [State.nodeDir] at hpar
  have hself : (decide (2 ^ 18 ≤ k) && s.isAncestor (k - 2 ^ 18) s.treeFuel par) = false := by
    rw [Bool.and_eq_false_imp, decide_eq_true_eq]
    exact hacyclic
  have hlimit : ((s.queueDepth s.treeFuel k).map fun n =>
      decide (s.paramN 0x9001 0 < s.vertDepth s.treeFuel par + n)).getD false = false := by
    cases hd : s.queueDepth s.treeFuel k with
    | none => rfl
    | some d => simpa using hdepth d hd
  have hweight : ¬ wt = 0 := Nat.ne_of_gt hmin
  simp only [nodeMove, hargs, hroot, hpar, hslice, hself, hlimit, hweight, Nat.not_lt.2 hprio, Nat.not_lt.2 hmax,
    bne_self_eq_false, decide_false, Bool.not_true, Bool.or_self, Bool.false_eq_true, if_false]

theorem queueMove_replies (hk : k < 2 ^ 18) (h : s.MayMove k par pr wt b) :
    Replies (.queueMove q k par pr wt) q 0x9002 .ok (moveNode k par pr wt) s :=
  .of_kilak exec_queueMove rfl ((if_neg (Nat.not_le.2 hk)).trans (nodeMove_moves (openCmd_mayMove _ h)))

theorem vertexMove_replies (h : s.MayMove (vxKey v) par pr wt b) :
    Replies (.vertexMove q v par pr wt) q 0x9003 .ok (moveNode (vxKey v) par pr wt) s :=
  .of_kilak exec_vertexMove rfl (nodeMove_moves (openCmd_mayMove _ h))

end Sys2Proof.Machine
end

section
/-! SUPPORT. The commands on vertices, length profiles and statistics (R329, R334, R335, R346, R350, R351, R353, R354). -/

namespace Sys2Proof.Machine

variable {s : State} {q : Req} {dir k v n : Nat} {a : NodeArgs} {y : Vertex} {o : Int}

theorem exec_vertexCreate : exec (.vertexCreate q dir a) s = execVertexCreate q dir a s := rfl

theorem exec_vertexModify : exec (.vertexModify q v a) s = execVertexModify q v a s := rfl

theorem exec_vertexStatus : exec (.vertexStatus q v) s = execVertexStatus q v s := rfl

theorem exec_vertexDelete : exec (.vertexDelete q v) s = execVertexDelete q v s := rfl

theorem exec_lenProfileSet : exec (.lenProfileSet q n o) s = execLenProfileSet q n o s := rfl

theorem exec_schedStats : exec (.schedStats q n k) s = execSchedStats q n k s := rfl

theorem vertexCreate_replies (hdir : dir < 2) (hpar : s.parentOk dir a.parent = true) (hargs : nodeArgsOk a = true)
    (hv : lowestRow ((Tab.keys s.sch.v).filter (768 ≤ ·)) 768 = v) (hid : v < 65536)
    (hmany : s.verticesIn ((s.vertSlice a.parent).getD 0) < 16384) :
    let nv : Vertex := { a := a, dir := dir, bmax := { at_ := s.clk15 }, bmin := { at_ := s.clk15 } }
    Replies (.vertexCreate q dir a) q 0x9006 (.vals [.u 16 v]) (fun u =>
      let w := ledBucket (2 * vxKey v) 0 (ledBucket (2 * vxKey v + 1) 0 u)
      attach (vxKey v) a { w with sch := { w.sch with v := Tab.set w.sch.v v nv } }) s := by
  refine .of_kilak exec_vertexCreate rfl ?_
  simp only [vertexCreate, openCmd_parentOk, openCmd_sch, openCmd_vertSlice, openCmd_verticesIn, openCmd_clk15, hpar,
    hargs, hv, Nat.not_lt.2 (Nat.le_of_lt_succ hdir), Nat.not_le.2 hid, Nat.not_le.2 hmany, decide_false, Bool.not_true,
    Bool.or_self, Bool.false_eq_true, if_false, doneWith]

theorem vertexModify_created_replies (hy : s.vert v = some y) (hv : 768 ≤ v)
    (hargs : nodeArgsOk { a with parent := y.a.parent } = true) :
    Replies (.vertexModify q v a) q 0x9007 .ok (changeNode (vxKey v) y.a { a with parent := y.a.parent }) s := by
  refine .of_kilak exec_vertexModify rfl ?_
  simp only [vertexModify, openCmd_vert, hy, Nat.not_lt.2 hv, hargs, Bool.not_true, Bool.false_eq_true, if_false, done]

theorem vertexModify_root_replies (hy : s.vert v = some y) (hv : v < 768) (hrate : a.maxRate ≤ s.rootSpeed v)
    (hburst : burstOk a.maxRate a.maxBurst = true) :
    Replies (.vertexModify q v a) q 0x9007 .ok (fun u => onVert v (fun x => { x with rateSet := true })
      (changeNode (vxKey v) y.a { y.a with maxRate := a.maxRate, maxBurst := a.maxBurst } u)) s := by
  refine .of_kilak exec_vertexModify rfl ?_
  simp only [vertexModify, openCmd_vert, openCmd_rootSpeed, hy, hv, Nat.not_lt.2 hrate, hburst, Bool.not_true,
    Bool.false_eq_true, if_true, if_false, done]

theorem vertexDelete_replies (hy : s.vert v = some y) (hv : 768 ≤ v) (hleaf : y.children = []) :
    Replies (.vertexDelete q v) q 0x9009 .ok (fun u => let w := detach (vxKey v) y.a u
      { w with sch := { w.sch with v := Tab.erase w.sch.v v } }) s := by
  refine .of_kilak exec_vertexDelete rfl ?_
  simp only [openCmd_vert, hy, Nat.not_lt.2 hv, hleaf, List.isEmpty_nil, Bool.not_true, Bool.false_eq_true, if_false,
    done]

theorem vertexStatus_replies :
    let w := readNode (vxKey v) (openCmd q 0x9008 s)
    ∀ z, w.vert v = some z → Replies (.vertexStatus q v) q 0x9008 (.vals [.rcd 256 (vertexWord v z)
      , .i 64 (w.levelNow z.bmax z.a.maxRate z.a.maxBurst), .i 64 (w.levelNow z.bmin z.a.minRate z.a.minBurst)
      , .u 64 (flag (w.eligible w.treeFuel (vxKey v)))]) (readNode (vxKey v)) s :=
  fun z hz => .of_kilak exec_vertexStatus rfl (by simp only [hz, doneWith])

theorem lenProfileSet_replies (hn : n < 16) (hmin : -32 ≤ o) (hmax : o ≤ 63) :
    Replies (.lenProfileSet q n o) q 0x900A .ok (setParam 0x9010 n o) s :=
  .of_kilak exec_lenProfileSet rfl (by simp [Nat.not_le.2 hn, Int.not_lt.2 hmin, Int.not_lt.2 hmax, done])

theorem schedStats_queue_replies : Replies (.schedStats q 0 k) q 0x9013
    (.vals ([Ctr.qDeqPkts, .qDeqBytes, .gateWaits, .tokensDiscarded].map fun c => RVal.u 64 (s.count c k))) id s :=
  .of_kilak exec_schedStats rfl (by simp only [openCmd_count, doneWith, id])

end Sys2Proof.Machine
end

section
/-! PROOF. The statement on queues and vertices of the scheduler. -/

open Sys2Proof Sys2Proof.Machine

/-- Settles O46: each command by the lemma on its case; both moves by what lets a node move. -/
theorem schedulerNodeCommands : Obligations.SchedulerNodeCommands := by
  intro s q dir i k v par pr wt port tc n u a b x y o dl
  refine ⟨fun hdir hpar hargs => ⟨queueCreate_replies hdir hpar hargs, vertexCreate_replies hdir hpar hargs⟩,
    fun hx => ⟨queueModify_replies hx, queueDelete_replies hx, queueStatus_replies,
      fun hk => ⟨_, readNode_queue_self hx hk, rfl⟩, queueSampleBind_replies hx⟩,
    fun hargs hroot hslice hprio hmin hmax => ⟨fun hk hpar hdepth => ?queueMove,
      fun hk hy hpar hanc hdepth => ?vertexMove⟩,
    fun hy => ⟨vertexModify_created_replies hy, vertexModify_root_replies hy, vertexDelete_replies hy,
      vertexStatus_replies⟩,
    lenProfileSet_replies, portQueueSet_replies, schedStats_queue_replies⟩
  case queueMove =>
    exact queueMove_replies hk { args := hargs, notRoot := hroot, slice := hslice, prio := hprio, weightMin := hmin
                                 weightMax := hmax, parent := by rwa [nodeDir_queue hk]
                                 acyclic := fun h => absurd hk (Nat.not_lt.2 h), depth := hdepth }
  case vertexMove =>
    subst hk
    exact vertexMove_replies { args := hargs, notRoot := hroot, slice := hslice, prio := hprio, weightMin := hmin
                               weightMax := hmax, parent := by rwa [nodeDir_vertex hy]
                               acyclic := fun _ => by rwa [vxKey_sub], depth := hdepth }

end

section
/-! SUPPORT. Device commands, the image and the restart of Bexed (R379, R380, R477, R490, R502 to R504). -/

namespace Sys2Proof.Machine

variable {s : State} {q : Req} {img : Image} {r : BexRestart}

/-! ### What taking up a command leaves of the host interface -/

/-- A command that is taken up changes the Kilak ports only. -/
theorem openCmd_host_ports (q : Req) (op : Nat) (s : State) :
    ∃ k0 k1, (openCmd q op s).host = { s.host with port0 := k0, port1 := k1 } := by
  unfold openCmd HostS.setPort
  dsimp only
  split
  · exact ⟨_, _, rfl⟩
  · split <;> exact ⟨_, _, rfl⟩

@[simp] theorem openCmd_image (q : Req) (op : Nat) (s : State) : (openCmd q op s).host.image = s.host.image := by
  obtain ⟨k0, k1, h⟩ := openCmd_host_ports q op s
  rw [h]

@[simp] theorem openCmd_standby (q : Req) (op : Nat) (s : State) :
    (openCmd q op s).host.standby = s.host.standby := by
  obtain ⟨k0, k1, h⟩ := openCmd_host_ports q op s
  rw [h]

@[simp] theorem openCmd_restart (q : Req) (op : Nat) (s : State) :
    (openCmd q op s).host.restart = s.host.restart := by
  obtain ⟨k0, k1, h⟩ := openCmd_host_ports q op s
  rw [h]

@[simp] theorem openCmd_bexedWord (q : Req) (op : Nat) (s : State) : (openCmd q op s).bexedWord = s.bexedWord := by
  obtain ⟨k0, k1, h⟩ := openCmd_host_ports q op s
  simp only [State.bexedWord, h]

/-- A command taken up with none in progress is the only one in progress. -/
theorem openCmd_inProg_alone (op : Nat) (h0 : s.host.port0.inProg = []) (h1 : s.host.port1.inProg = []) :
    (openCmd q op s).host.port0.inProg.length + (openCmd q op s).host.port1.inProg.length ≤ 1 := by
  unfold openCmd HostS.setPort
  dsimp only
  by_cases hp : q.port = 0 <;> split <;> simp [HostS.port, hp, h0, h1]

/-! ### Commands (R490) -/

theorem exec_nop : exec (.nop q) s = execNop q s := rfl

theorem exec_deviceInfo : exec (.deviceInfo q) s = execDeviceInfo q s := rfl

theorem exec_bexedStatus : exec (.bexedStatus q) s = execBexedStatus q s := rfl

theorem exec_bexedImageLoad : exec (.bexedImageLoad q img) s = execBexedImageLoad q img s := rfl

theorem exec_bexedRestart : exec (.bexedRestart q) s = execBexedRestart q s := rfl

theorem nop_replies : Replies (.nop q) q 0x0000 .ok id s := .of_kilak exec_nop rfl rfl

theorem deviceInfo_replies : Replies (.deviceInfo q) q 0x0001 (.vals [.u 32 0x66401FB4, .u 8 0xB1
    , .u 128 Config.devSerial.toNat, .u 32 s.host.image.version, .u 32 (s.core 0).active.version, .u 2 s.opt.copy
    , .u 1 s.opt.cur.pcieMode, .u 3 s.opt.unitId]) id s :=
  .of_kilak exec_deviceInfo rfl (by simp only [openCmd_image, openCmd_core, openCmd_opt, doneWith, id])

theorem bexedStatus_replies : Replies (.bexedStatus q) q 0x000C (.vals [.u 32 s.bexedWord, .u 32 s.host.image.version
    , .u 32 ((s.host.standby.map (·.version)).getD 0), .u 32 s.host.image.stateVersion
    , .u 32 ((s.host.standby.map (·.stateVersion)).getD 0)]) id s :=
  .of_kilak exec_bexedStatus rfl (by simp only [openCmd_bexedWord, openCmd_image, openCmd_standby, doneWith, id])

theorem bexedImageLoad_waits (hr : s.host.restart = none) (hi : imageRefused img 1 = false)
    (hl : img.length + 80 ≤ 4194304) :
    Waits (.bexedImageLoad q img) q 0x000A (keQueue (.image q .bexed img)) s := by
  refine .of_kilak exec_bexedImageLoad rfl ?_
  have hfits : (imageRefused img 1 || decide (4194304 < img.length + 80)) = false := by simp [hi, hl]
  simp only [imageLoad, openCmd_restart, hr, hfits, Option.isSome_none, Bool.false_eq_true, if_false, waits]

theorem bexedImageLoad_badArg (hr : s.host.restart = none)
    (h : imageRefused img 1 = true ∨ 4194304 < img.length + 80) :
    Replies (.bexedImageLoad q img) q 0x000A (.err .badArg) id s := by
  refine .of_kilak exec_bexedImageLoad rfl ?_
  have hbad : (imageRefused img 1 || decide (4194304 < img.length + 80)) = true := by simpa using h
  simp only [imageLoad, openCmd_restart, hr, hbad, Option.isSome_none, Bool.false_eq_true, if_false, if_true, deny, id]

theorem bexedImageLoad_busy (hr : s.host.restart.isSome = true) :
    Replies (.bexedImageLoad q img) q 0x000A (.err .busy) id s := by
  refine .of_kilak exec_bexedImageLoad rfl ?_
  simp only [imageLoad, openCmd_restart, hr, if_true, deny, id]

theorem bexedRestart_waits (hsb : s.host.standby = some img) (hv : img.stateVersion = s.host.image.stateVersion)
    (hr : s.host.restart = none) (h0 : s.host.port0.inProg = []) (h1 : s.host.port1.inProg = []) :
    Waits (.bexedRestart q) q 0x000B (fun u => { u with host := { u.host with
      restart := some { cmd := q, start := s.clk.now, image := img } } }) s := by
  refine .of_kilak exec_bexedRestart rfl ?_
  have halone := openCmd_inProg_alone (q := q) 0x000B h0 h1
  simp only [restart, openCmd_standby, openCmd_image, openCmd_restart, openCmd_clk, hsb, hv, hr, Nat.not_lt.2 halone,
    bne_self_eq_false, Option.isSome_none, decide_false, Bool.or_false, Bool.false_eq_true, if_false, waits]

theorem bexedRestart_badState (hsb : s.host.standby = none) :
    Replies (.bexedRestart q) q 0x000B (.err .badState) id s :=
  .of_kilak exec_bexedRestart rfl (by simp only [restart, openCmd_standby, hsb, deny, id])

/-! ### The end of a restart (R503, R504) -/

theorem exec_bexedTakeover (ha : Acts s 105) : exec .bexedTakeover s = .next (takeover s) := island_acts ha

theorem exec_bexedRestartTimeout (ha : Acts s 105) : exec .bexedRestartTimeout s = .next (restartTimeout s) :=
  island_acts ha

theorem takeover_noRestart (hr : s.host.restart = none) : takeover s = s := by
  simp only [takeover, hr]

theorem restartTimeout_noRestart (hr : s.host.restart = none) : restartTimeout s = s := by
  simp only [restartTimeout, hr]

theorem takeover_inTime (hr : s.host.restart = some r) (ht : s.clk.now ≤ r.start + msT 500) :
    takeover s = event 0x0000 [.u 32 s.host.image.version, .u 32 r.image.version]
      (complete r.cmd 0x000B (.vals [.u 32 s.host.image.version, .u 32 r.image.version
        , .u 64 (ticksNs (s.clk.now - r.start) / 1000)])
        (resume { s with host := { s.host with
          image := r.image, standby := none, restarts := (s.host.restarts + 1) % 65536 } })) := by
  simp only [takeover, hr, Nat.not_lt.2 ht, if_false]

theorem restartTimeout_over (hr : s.host.restart = some r) (ht : r.start + msT 500 ≤ s.clk.now) :
    restartTimeout s = complete r.cmd 0x000B { code := .failed, detail := 2 * 2 ^ 24 } (resume s) := by
  simp only [restartTimeout, hr, Nat.not_lt.2 ht, if_false]

theorem resume_noneQueued (hq : s.host.restartQueue = []) :
    resume s = { s with host := { s.host with restart := none } } := by
  simp only [resume, hq, List.foldl_nil]

end Sys2Proof.Machine
end

section
/-! PROOF. The statement on the device commands and on Bexed's image and restart. -/

open Sys2Proof Sys2Proof.Machine

/-- Settles O22: each command and event by the lemma on its case. -/
theorem deviceAndBexedCommands : Obligations.DeviceAndBexedCommands := by
  intro s q img r
  refine ⟨nop_replies, deviceInfo_replies, bexedStatus_replies, bexedImageLoad_waits, bexedImageLoad_badArg,
    bexedImageLoad_busy, bexedRestart_waits, bexedRestart_badState, fun ha hr => ⟨?takeover, ?timeout⟩,
    fun ha hr ht => ?inTime, fun ha hr ht => ?ended, resume_noneQueued⟩
  case takeover => rw [exec_bexedTakeover ha, takeover_noRestart hr]
  case timeout => rw [exec_bexedRestartTimeout ha, restartTimeout_noRestart hr]
  case inTime => rw [exec_bexedTakeover ha, takeover_inTime hr ht]
  case ended => rw [exec_bexedRestartTimeout ha, restartTimeout_over hr ht]

end

section
/-! SUPPORT. Key contexts read after a write, and what the end of an exchange leaves of them (R359, R361, R363). -/

namespace Sys2Proof.Machine

variable {s : State} {h h' dir dir' slot slot' key : Nat} {k : KeyCtx} {e : KeyExch}

/-! ### Reads after writes -/

@[simp] theorem bump_keyCtx (c : Ctr) (i : Nat) (s : State) : (bump c i s).keyCtx = s.keyCtx := rfl

@[simp] theorem onKeyOnu_keyCtx (h : Nat) (f : KeyOnu → KeyOnu) (s : State) :
    (onKeyOnu h f s).keyCtx = s.keyCtx := rfl

@[simp] theorem onKeyOnu_exchSlot (h : Nat) (f : KeyOnu → KeyOnu) (s : State) :
    (onKeyOnu h f s).exchSlot = s.exchSlot := rfl

@[simp] theorem onKeyOnu_onu (h : Nat) (f : KeyOnu → KeyOnu) (s : State) : (onKeyOnu h f s).onu = s.onu := rfl

@[simp] theorem onKeyOnu_count (h : Nat) (f : KeyOnu → KeyOnu) (s : State) :
    (onKeyOnu h f s).count = s.count := rfl

@[simp] theorem setKey_count (h dir slot : Nat) (k : KeyCtx) (s : State) :
    (setKey h dir slot k s).count = s.count := rfl

@[simp] theorem onKeyOnu_keyOnu_self (h : Nat) (f : KeyOnu → KeyOnu) (s : State) :
    (onKeyOnu h f s).keyOnu h = f (s.keyOnu h) := by
  simp [onKeyOnu, State.keyOnu]

theorem setKey_keyCtx_self (hk : k.st ≠ .empty) : (setKey h dir slot k s).keyCtx h dir slot = k := by
  simp [setKey, State.keyCtx, hk]

theorem setKey_empty_keyCtx_self (hw : Tab.wf s.cip.key = true) :
    (setKey h dir slot {} s).keyCtx h dir slot = {} := by
  simp [setKey, State.keyCtx, Tab.getD, Tab.get?_erase_self hw]

theorem setKey_keyCtx_other (hne : keyIdx h' dir' slot' ≠ keyIdx h dir slot) :
    (setKey h dir slot k s).keyCtx h' dir' slot' = s.keyCtx h' dir' slot' := by
  simp only [setKey, State.keyCtx, Tab.getD]
  split
  · rw [Tab.get?_erase_other _ hne]
  · rw [Tab.get?_set_other _ _ hne]

/-! ### An exchange fails (R363) -/

/-- A PENDING slot becomes EMPTY, one in another state stays. -/
def clearPending (h dir slot : Nat) (s : State) : State :=
  if (s.keyCtx h dir slot).st == .pending then setKey h dir slot {} s else s

theorem clearPending_pending (hp : (s.keyCtx h dir slot).st = .pending) :
    clearPending h dir slot s = setKey h dir slot {} s :=
  if_pos (beq_iff_eq.2 hp)

theorem clearPending_notPending (hp : (s.keyCtx h dir slot).st ≠ .pending) : clearPending h dir slot s = s :=
  if_neg (by simpa using hp)

theorem clearPending_keyCtx_other (hne : keyIdx h' dir' slot' ≠ keyIdx h dir slot) :
    (clearPending h dir slot s).keyCtx h' dir' slot' = s.keyCtx h' dir' slot' := by
  unfold clearPending
  split
  · exact setKey_keyCtx_other hne
  · rfl

@[simp] theorem clearPending_count (h dir slot : Nat) (s : State) : (clearPending h dir slot s).count = s.count := by
  unfold clearPending
  split <;> rfl

theorem keyFail_inProgress (hx : (s.keyOnu h).exch = some e) : keyFail h s = bump .keyExchFail h
    (onKeyOnu h (fun k => { k with exch := none, retryAt := some (s.clk.now + secT (s.paramN 0xA013 0)) })
      (clearPending h 1 e.slot (clearPending h 0 e.slot s))) := by
  simp only [keyFail, hx]
  rfl

theorem keyFail_count (hx : (s.keyOnu h).exch = some e) :
    (keyFail h s).count .keyExchFail h = (s.count .keyExchFail h + 1) % 2 ^ 64 := by
  rw [keyFail_inProgress hx, bump, count_bumpBy_self, onKeyOnu_count, clearPending_count, clearPending_count]

/-- A failed exchange does to its downstream slot what it does there alone: the upstream one is another context. -/
theorem keyFail_keyCtx_down (hx : (s.keyOnu h).exch = some e) :
    (keyFail h s).keyCtx h 0 e.slot = (clearPending h 0 e.slot s).keyCtx h 0 e.slot := by
  rw [keyFail_inProgress hx, bump_keyCtx, onKeyOnu_keyCtx, clearPending_keyCtx_other (by simp [keyIdx])]

theorem keyFail_keyCtx_pending (hx : (s.keyOnu h).exch = some e) (hw : Tab.wf s.cip.key = true)
    (hp : (s.keyCtx h 0 e.slot).st = .pending) : ((keyFail h s).keyCtx h 0 e.slot).st = .empty := by
  rw [keyFail_keyCtx_down hx, clearPending_pending hp, setKey_empty_keyCtx_self hw]

theorem keyFail_keyCtx_notPending (hx : (s.keyOnu h).exch = some e) (hp : (s.keyCtx h 0 e.slot).st ≠ .pending) :
    (keyFail h s).keyCtx h 0 e.slot = s.keyCtx h 0 e.slot := by
  rw [keyFail_keyCtx_down hx, clearPending_notPending hp]

/-! ### A reported key is installed (R361 step 4) -/

theorem keyInstall_keyCtx_st : ((keyInstall h slot key s).keyCtx h dir slot).st =
    if dir < 2 then .ready else (s.keyCtx h dir slot).st := by
  simp only [keyInstall, bump_keyCtx, onKeyOnu_keyCtx]
  match dir with
  | 0 =>
    rw [setKey_keyCtx_self (by simp)]
    rfl
  | 1 =>
    rw [setKey_keyCtx_other (by simp [keyIdx]), setKey_keyCtx_self (by simp)]
    rfl
  | d + 2 =>
    rw [setKey_keyCtx_other (by unfold keyIdx; omega), setKey_keyCtx_other (by unfold keyIdx; omega),
      if_neg (by omega)]

end Sys2Proof.Machine
end

section
/-! SUPPORT. Key commands: an ONU's keys and its due exchange, broadcast keys, cipher parameters and statistics (R358 to
R361, R373, R388, R389). -/

namespace Sys2Proof.Machine

variable {s : State} {q : Req} {h g slot key msk mk act i : Nat} {o : Onu} {sc : Scope} {vals : List (Nat × Int)}

theorem exec_onuMasterKeySet : exec (.onuMasterKeySet q h msk mk) s = execOnuMasterKeySet q h msk mk s := rfl

theorem exec_onuRekey : exec (.onuRekey q h) s = execOnuRekey q h s := rfl

theorem exec_keyStatus {isOnu : Bool} : exec (.keyStatus q isOnu h) s = execKeyStatus q isOnu h s := rfl

theorem exec_broadcastKeySet :
    exec (.broadcastKeySet q g slot key act) s = execBroadcastKeySet q g slot key act s := rfl

theorem exec_cipherParamSet : exec (.cipherParamSet q sc vals) s = execCipherParamSet q sc vals s := rfl

theorem exec_cipherStats {kind : Nat} : exec (.cipherStats q kind h) s = execCipherStats q kind h s := rfl

/-- An ONU's session key and master key are replaced (R361). -/
theorem onuMasterKeySet_notOperating (ho : Tab.get? s.onu.ctx h = some o) (hs : o.state ≠ .operation) :
    Replies (.onuMasterKeySet q h msk mk) q 0xA000 .ok (onKeyOnu h (fun k => { k with
      sessionKey := some (msk % 2 ^ 128), masterKey := some (mk % 2 ^ 256) })) s :=
  .of_kilak exec_onuMasterKeySet rfl (by simp [withOnu_openCmd ho, hs, done])

theorem onuMasterKeySet_operating (ho : Tab.get? s.onu.ctx h = some o) (hs : o.state = .operation) :
    Replies (.onuMasterKeySet q h msk mk) q 0xA000 .ok (fun u => dueExchange h (onKeyOnu h (fun k => { k with
      sessionKey := some (msk % 2 ^ 128), masterKey := some (mk % 2 ^ 256) }) u)) s :=
  .of_kilak exec_onuMasterKeySet rfl (by simp [withOnu_openCmd ho, hs, done])

theorem onuRekey_replies (ho : Tab.get? s.onu.ctx h = some o) (hs : o.state = .operation)
    (hx : (s.keyOnu h).exch = none) : Replies (.onuRekey q h) q 0xA001 .ok (dueExchange h) s :=
  .of_kilak exec_onuRekey rfl (by simp [withOnu_openCmd ho, hs, hx, done])

theorem keyStatus_onu (ho : Tab.get? s.onu.ctx h = some o) : Replies (.keyStatus q true h) q 0xA002
    (.vals [.lst 16 [(s.keyCtx h 0 0).word, (s.keyCtx h 0 1).word, (s.keyCtx h 1 0).word, (s.keyCtx h 1 1).word]])
    id s :=
  .of_kilak exec_keyStatus rfl (by simp [withOnu_openCmd ho, doneWith])

/-- A due exchange takes a slot that is EMPTY in both directions and sends its Key_Control (R360, R361 step 1). -/
theorem dueExchange_starts (ho : Tab.get? s.onu.ctx h = some o) (hx : (s.keyOnu h).exch = none)
    (hslot : s.exchSlot h = some slot) :
    let p : KeyCtx := { st := .pending, isRec := (s.keyOnu h).isRec }
    dueExchange h s = plSend h (.keyControl 0 slot) (onKeyOnu h (fun k => { k with
      due := false, retryAt := none, exch := some { slot := slot } })
      (setKey h 0 slot p (setKey h 1 slot p (onKeyOnu h (fun k => { k with due := true }) s)))) := by
  simp [dueExchange, tryExchange, ho, hx, hslot]

theorem broadcastKeySet_replies (hg : g < 512) (hs : slot < 2) (he : (s.bcastCtx g slot).st = .empty)
    (ht : s.clk.sfc + 8 ≤ act) : Replies (.broadcastKeySet q g slot key act) q 0xA003 .ok
      (setBcast g slot { st := .ready, key := key % 2 ^ 256, at_ := act }) s :=
  .of_kilak exec_broadcastKeySet rfl (by simp [Nat.not_le.2 hg, Nat.not_le.2 hs, he, Nat.not_lt.2 ht, done])

/-- Values of PIDs that the scope takes, all at one index and in range, are stored there in order (R389). -/
theorem cipherParamSet_replies (hi : ∀ v ∈ vals, cipherIdx sc v.1 = some i)
    (hr : ∀ v ∈ vals, cipherInRange v.1 v.2 = true) : Replies (.cipherParamSet q sc vals) q 0xA004 .ok
      (fun u => vals.foldl (fun s v => setParam v.1 i v.2 s) u) s := by
  refine .of_kilak exec_cipherParamSet rfl ?_
  have htaken : (vals.any fun v => (cipherIdx sc v.1).isNone) = false :=
    List.any_eq_false.2 fun v hv => by simp [hi v hv]
  have hfits : (vals.any fun v => !cipherInRange v.1 v.2) = false :=
    List.any_eq_false.2 fun v hv => by simp [hr v hv]
  simp only [htaken, hfits, Bool.false_eq_true, if_false, done, Prod.mk.injEq, and_true]
  exact List.foldl_ext _ _ _ fun u v hv => by rw [hi v hv, Option.getD_some]

theorem cipherStats_device : Replies (.cipherStats q 2 h) q 0xA00E (.vals [.u 64 (s.count .keJobs 0)
    , .u 64 (s.count .keAuthFail 0), .u 64 (s.count .rngFail 0)]) id s :=
  .of_kilak exec_cipherStats rfl (by simp [doneWith])

end Sys2Proof.Machine
end

section
/-! SUPPORT. Key reports (R361, R363) and the timers of exchanges and key slots (R359, R360, R363). -/

namespace Sys2Proof.Machine

variable {s : State} {hd : UsHead} {h dir slot t u : Nat} {o : Onu} {e : KeyExch} {os a : List Nat}

/-! ### Key reports -/

theorem exec_keyReport (ha : Acts s 104) (hr : s.host.restart = none) :
    exec (.keyReport hd slot t os) s = .next (keyReport hd slot t os s) :=
  usPloam_noRestart ha hr

section
variable (hm : s.micOk hd = true) (hf : s.findOnu (hd.g / 8) hd.onuId = some (h, o))
include hm hf

theorem keyReport_noExchange (hx : (s.keyOnu h).exch = none) :
    keyReport hd slot t os s = bump .ploamStale hd.g s := by
  rw [keyReport, fromOnu_found hm hf]
  simp only [hx]

theorem keyReport_otherSlot (hx : (s.keyOnu h).exch = some e) (hs : e.slot ≠ slot) :
    keyReport hd slot t os s = bump .ploamStale hd.g s := by
  rw [keyReport, fromOnu_found hm hf]
  simp [hx, hs]

/-- The second fragment of a GCM report queues the unwrap of the whole key. -/
theorem keyReport_secondFragment
    (hx : (s.keyOnu h).exch = some { slot := slot, frag0 := some a, frag1 := none, until_ := some u })
    (hp : (s.keyCtx h 0 slot).st = .pending) (hg : ((keyAnswered hd h o s).keyOnu h).isRec = false) :
    keyReport hd slot 1 os s = keQueue (.report h slot (beNat (a ++ os.take 8) 0)) (onKeyOnu h (fun k => { k with
      exch := some { slot := slot, frag0 := some a, frag1 := some (os.take 8), until_ := some u } })
      (keyAnswered hd h o s)) := by
  rw [keyReport, fromOnu_found hm hf]
  simp [hx, hp, hg]

theorem keyReport_rec (hx : (s.keyOnu h).exch = some e) (hs : e.slot = slot)
    (hp : (s.keyCtx h 0 slot).st = .pending) (hg : ((keyAnswered hd h o s).keyOnu h).isRec = true) :
    keyReport hd slot t os s = keyInstall h slot (Config.recKey ((keyAnswered hd h o s).keyOnu h).mskOr os)
      (keyAnswered hd h o s) := by
  rw [keyReport, fromOnu_found hm hf]
  simp [hx, hs, hp, hg]

end

/-! ### Timers -/

section
variable (ha : Acts s 104)
include ha

theorem exec_rekeyInterval_due (hx : (s.keyOnu h).exch = none) (hd : s.due (s.keyOnu h).rekeyAt = true) :
    exec (.rekeyInterval h) s = .next (dueExchange h (onKeyOnu h (fun k => { k with rekeyAt := none }) s)) :=
  (island_acts ha).trans (congrArg _ (if_pos (by simp [hx, hd])))

theorem exec_rekeyInterval_notDue (hd : s.due (s.keyOnu h).rekeyAt = false) :
    exec (.rekeyInterval h) s = .next s :=
  (island_acts ha).trans (congrArg _ (if_neg (by simp [hd])))

theorem exec_rekeyRetry_due (hx : (s.keyOnu h).exch = none) (hd : s.due (s.keyOnu h).retryAt = true) :
    exec (.rekeyRetry h) s = .next (dueExchange h (onKeyOnu h (fun k => { k with retryAt := none }) s)) :=
  (island_acts ha).trans (congrArg _ (if_pos (by simp [hx, hd])))

theorem exec_rekeyRetry_notDue (hd : s.due (s.keyOnu h).retryAt = false) : exec (.rekeyRetry h) s = .next s :=
  (island_acts ha).trans (congrArg _ (if_neg (by simp [hd])))

/-- With one fragment here, the other has until its superframe ends. -/
theorem exec_keyFragmentTimeout_oneHere
    (hx : (s.keyOnu h).exch = some { slot := slot, frag0 := some a, frag1 := none, until_ := some u }) :
    exec (.keyFragmentTimeout h) s = .next (if u < s.clk.sfc then keyFail h s else s) := by
  change execKeyFragmentTimeout h s = _
  rw [execKeyFragmentTimeout, island_acts ha]
  simp [hx]

theorem exec_keyRetire : exec (.keyRetire h dir slot) s = .next (keyRetire h dir slot s) := island_acts ha

end

theorem keyRetire_unicast_over (hdir : dir < 2) (hr : (s.keyCtx h dir slot).st = .retiring)
    (ht : (s.keyCtx h dir slot).till ≤ s.clk.sfc) :
    keyRetire h dir slot s = tryExchange h (setKey h dir slot {} s) := by
  simp [keyRetire, hdir.ne, hr, ht]

theorem keyRetire_unicast_notOver (hdir : dir < 2) (ht : s.clk.sfc < (s.keyCtx h dir slot).till) :
    keyRetire h dir slot s = s := by
  simp [keyRetire, hdir.ne, Nat.not_le.2 ht]

theorem keyRetire_broadcast_over (hr : (s.bcastCtx h slot).st = .retiring)
    (ht : (s.bcastCtx h slot).till ≤ s.clk.sfc) : keyRetire h 2 slot s = setBcast h slot {} s := by
  simp [keyRetire, hr, ht]

end Sys2Proof.Machine
end

section
/-! PROOF. The statement on key contexts and key exchanges. -/

open Sys2Proof Sys2Proof.Machine

/-- Settles O48: each command, report and timer by the lemma on its case. -/
theorem keyContextsAndExchanges : Obligations.KeyContextsAndExchanges := by
  intro s q h g slot key msk mk act dir t u o hd e os a b vals
  refine ⟨fun ho => ⟨onuMasterKeySet_notOperating ho, fun hs => ⟨onuMasterKeySet_operating ho hs,
      onuRekey_replies ho hs⟩, keyStatus_onu ho⟩,
    dueExchange_starts,
    fun ha => ⟨fun hr hm hf => ?reports, exec_rekeyInterval_due ha, exec_rekeyRetry_due ha,
      exec_rekeyInterval_notDue ha, exec_rekeyRetry_notDue ha, fun hx => ?fragments, fun hdir hst => ?retires,
      fun hst ht => ?broadcastRetires⟩,
    fun hx hslot _ hw => ?ends, broadcastKeySet_replies,
    fun ht => cipherParamSet_replies (i := t) (List.forall_mem_singleton.2 (if_pos (by simp [ht])))
      (List.forall_mem_singleton.2 (by decide)),
    fun hv => cipherParamSet_replies (fun v hm => (hv v hm).1) (fun v hm => (hv v hm).2), cipherStats_device⟩
  case reports =>
    rw [exec_keyReport ha hr, exec_keyReport ha hr, exec_keyReport ha hr]
    exact ⟨fun hx => congrArg _ (keyReport_noExchange hm hf hx),
      fun hx hs => congrArg _ (keyReport_otherSlot hm hf hx hs),
      fun hx hp hg => congrArg _ (keyReport_secondFragment hm hf hx hp hg),
      fun hx hs hp hg => congrArg _ (keyReport_rec hm hf hx hs hp hg)⟩
  case fragments =>
    rw [exec_keyFragmentTimeout_oneHere ha hx]
    exact ⟨fun h => congrArg _ (if_pos h), fun h => congrArg _ (if_neg (Nat.not_lt.2 h))⟩
  case retires =>
    rw [exec_keyRetire ha]
    exact ⟨fun ht => congrArg _ (keyRetire_unicast_over hdir hst ht),
      fun ht => congrArg _ (keyRetire_unicast_notOver hdir ht)⟩
  case broadcastRetires => rw [exec_keyRetire ha, keyRetire_broadcast_over hst ht]
  case ends =>
    subst hslot
    exact ⟨keyFail_count hx, keyFail_keyCtx_pending hx hw, keyFail_keyCtx_notPending hx, keyInstall_keyCtx_st⟩

end

section
/-! SUPPORT. The Key Engine: its key slots, its lock and the ends of Bexed's jobs; the random source (R376 to R382). -/

namespace Sys2Proof.Machine

variable {s : State} {q w : Req} {slot key kek wrapped iv n dst tag m : Nat} {src : List Nat} {js : List KeJob}
  {j : KeJob} {enc : Bool} {img : Image}

/-! ### Commands (R377, R378, R381) -/

theorem exec_keKeyLoad : exec (.keKeyLoad q slot key) s = execKeKeyLoad q slot key s := rfl

theorem exec_keKeyUnwrap : exec (.keKeyUnwrap q kek slot wrapped) s = execKeKeyUnwrap q kek slot wrapped s := rfl

theorem exec_keKeyClear : exec (.keKeyClear q slot) s = execKeKeyClear q slot s := rfl

theorem exec_keEncrypt {len : Nat} :
    exec (.keEncrypt q slot m iv n src dst len) s = execKeEncrypt q slot m iv n src dst len s := rfl

theorem exec_keDecrypt {len : Nat} :
    exec (.keDecrypt q slot m iv n src dst len tag) s = execKeDecrypt q slot m iv n src dst len tag s := rfl

theorem exec_keStatus : exec (.keStatus q) s = execKeStatus q s := rfl

theorem keKeyLoad_replies (hs : s.hkOk slot = true) : Replies (.keKeyLoad q slot key) q 0xA005 .ok (fun u => { u with
    cip := { u.cip with hk := Tab.set u.cip.hk slot (key % 2 ^ 256) } }) s :=
  .of_kilak exec_keKeyLoad rfl (by simp [hs, done])

theorem keKeyClear_replies (hs : s.hkOk slot = true) : Replies (.keKeyClear q slot) q 0xA007 .ok (fun u => { u with
    cip := { u.cip with hk := Tab.erase u.cip.hk slot } }) s :=
  .of_kilak exec_keKeyClear rfl (by simp [hs, done])

theorem keKeyUnwrap_waits (hs : s.hkOk slot = true) (hk : kek < 16) :
    Waits (.keKeyUnwrap q kek slot wrapped) q 0xA006 (keQueue (.unwrap q kek slot (wrapped % 2 ^ 320))) s :=
  .of_kilak exec_keKeyUnwrap rfl (by simp only [openCmd_hkOk, hs, Nat.not_le.2 hk, Bool.not_true, decide_false,
    Bool.or_false, Bool.false_eq_true, if_false, waits])

/-- A job within its limits is queued, whichever of the two commands brings it. -/
theorem keCrypt_queues (hs : slot < 16) (hm : m < 2) (hn : n ≤ src.length) (hl : src.length ≤ 16777216) :
    keCrypt q enc slot m iv n src dst src.length tag s =
      (keQueue (.crypt q enc slot m (iv % 2 ^ 96) n (src.map (· % 256)) dst tag) s, none) := by
  simp [keCrypt, Nat.not_le.2 hs, Nat.not_le.2 hm, Nat.not_lt.2 hn, Nat.not_lt.2 hl, waits]

theorem keEncrypt_waits (hs : slot < 16) (hm : m < 2) (hn : n ≤ src.length) (hl : src.length ≤ 16777216) :
    Waits (.keEncrypt q slot m iv n src dst src.length) q 0xA008
      (keQueue (.crypt q true slot m (iv % 2 ^ 96) n (src.map (· % 256)) dst 0)) s :=
  .of_kilak exec_keEncrypt rfl (keCrypt_queues hs hm hn hl)

theorem keDecrypt_waits (hs : slot < 16) (hm : m < 2) (hn : n ≤ src.length) (hl : src.length ≤ 16777216) :
    Waits (.keDecrypt q slot m iv n src dst src.length tag) q 0xA009
      (keQueue (.crypt q false slot m (iv % 2 ^ 96) n (src.map (· % 256)) dst tag)) s :=
  .of_kilak exec_keDecrypt rfl (keCrypt_queues hs hm hn hl)

theorem keStatus_replies :
    Replies (.keStatus q) q 0xA00A (.vals [.rcd 32 s.cip.ke.word, .u 64 (flag (!s.cip.rngFailed))]) id s :=
  .of_kilak exec_keStatus rfl (by simp only [openCmd_cip, doneWith, id])

/-! ### The lock (R377) -/

theorem exec_keLockGrant (ha : Acts s 177) : exec .keLockGrant s = .next (keGrant s) := island_acts ha

theorem keGrant_held (ho : s.cip.ke.owner ≠ 0) : keGrant s = s := by
  simp [keGrant, ho]

theorem keGrant_jobs : (keGrant s).cip.ke.jobs = s.cip.ke.jobs := by
  dsimp only [keGrant]
  split_ifs <;> rfl

section
variable (ho : s.cip.ke.owner = 0)
include ho

/-- The option loader is first in order. -/
theorem keGrant_loader (hl : s.cip.ke.waitLoader = true) : (keGrant s).cip.ke.owner = 3
    ∧ (keGrant s).cip.ke.waitAmp = s.cip.ke.waitAmp ∧ (keGrant s).cip.ke.waitBexed = s.cip.ke.waitBexed := by
  simp [keGrant, ho, hl]

/-- Ampoule is second. -/
theorem keGrant_ampoule (hl : s.cip.ke.waitLoader = false) (hamp : s.cip.ke.waitAmp = true) :
    (keGrant s).cip.ke.owner = 2 ∧ (keGrant s).cip.ke.waitBexed = s.cip.ke.waitBexed := by
  simp [keGrant, ho, hl, hamp]

theorem keGrant_bexed (hl : s.cip.ke.waitLoader = false) (hamp : s.cip.ke.waitAmp = false)
    (hb : s.cip.ke.waitBexed = true) : (keGrant s).cip.ke.owner = 1 := by
  simp [keGrant, ho, hl, hamp, hb]

theorem keGrant_noneWaits (hl : s.cip.ke.waitLoader = false) (hamp : s.cip.ke.waitAmp = false)
    (hb : s.cip.ke.waitBexed = false) : keGrant s = s := by
  simp [keGrant, ho, hl, hamp, hb]

end

/-! ### The end of a job or segment of Bexed (R376, R377) -/

theorem exec_keJobDone (ha : Acts s 177) : exec .keJobDone s = .next (keDone s) := island_acts ha

theorem keDone_free (ho : s.cip.ke.owner = 0) : keDone s = s := by
  simp [keDone, ho]

/-- Bexed releases the engine with these jobs left. -/
def keRelease (js : List KeJob) (s : State) : State :=
  { s with cip := { s.cip with ke := { s.cip.ke with owner := 0, jobs := js, waitBexed := !js.isEmpty, seg := 0 } } }

@[simp] theorem keRelease_hkKey (js : List KeJob) (s : State) : (keRelease js s).hkKey = s.hkKey := rfl

/-- A job, or its last segment, ends: the engine is released, then the job has its effect. -/
theorem keDone_ends (ho : s.cip.ke.owner = 1) (hj : s.cip.ke.jobs = j :: js) (hy : s.cip.ke.yields j = false) :
    keDone s = keJobDone j (keRelease js s) := by
  simp [keDone, ho, hj, hy, keRelease]

/-- A segment before the last ends while another master waits: the job stays first. -/
theorem keDone_yields (ho : s.cip.ke.owner = 1) (hj : s.cip.ke.jobs = j :: js) (hy : s.cip.ke.yields j = true) :
    keDone s = { s with cip := { s.cip with
      keOut := (s.keSoFar j (keSegment * (s.cip.ke.seg + 1))) <|> s.cip.keOut
      ke := { s.cip.ke with owner := 0, waitBexed := true, seg := s.cip.ke.seg + 1 } } } := by
  simp [keDone, ho, hj, hy]

theorem yields_noneWaits {k : KeLock} (hl : k.waitLoader = false) (hamp : k.waitAmp = false) : k.yields j = false := by
  simp [KeLock.yields, hl, hamp]

theorem yields_crypt {k : KeLock} : k.yields (.crypt w enc slot m iv n src dst tag) = true ↔
    (k.waitLoader = true ∨ k.waitAmp = true) ∧ keSegment * (k.seg + 1) < src.length := by
  simp [KeLock.yields]

/-- Of a GCM job the text so far stands in host memory, of a GMAC job none (R381). -/
theorem keSoFar_crypt {l : Nat} : ((s.keSoFar (.crypt w enc slot m iv n src dst tag) l) <|> s.cip.keOut) =
    if m = 0 then some (dst, gcmText (s.hkKey slot) iv ((src.take l).drop n)) else s.cip.keOut := by
  match m with
  | 0 => rfl
  | m + 1 => rfl

section
variable (ho : s.cip.ke.owner = 1)
include ho

theorem keDone_unwrap (hj : s.cip.ke.jobs = .unwrap w kek slot wrapped :: js) :
    keDone s = keUnwrapDone w slot (keyUnwrap (s.hkKey kek) wrapped) (keRelease js s) := by
  rw [keDone_ends ho hj (by simp [KeLock.yields])]
  rfl

theorem keDone_crypt_ends (hj : s.cip.ke.jobs = .crypt w enc slot m iv n src dst tag :: js)
    (h : src.length ≤ keSegment * (s.cip.ke.seg + 1) ∨ (s.cip.ke.waitLoader = false ∧ s.cip.ke.waitAmp = false)) :
    keDone s = keCryptDone w enc slot m iv n src dst tag (keRelease js s) := by
  have hy : ¬ s.cip.ke.yields (.crypt w enc slot m iv n src dst tag) = true := by
    rw [yields_crypt]
    rintro ⟨hwait, hlong⟩
    rcases h with h | ⟨hl, hamp⟩
    · exact Nat.not_lt.2 h hlong
    · simp [hl, hamp] at hwait
  exact keDone_ends ho hj (Bool.eq_false_iff.2 hy)

theorem keDone_crypt_yields (hj : s.cip.ke.jobs = .crypt w enc slot m iv n src dst tag :: js)
    (hlong : keSegment * (s.cip.ke.seg + 1) < src.length)
    (hwait : s.cip.ke.waitLoader = true ∨ s.cip.ke.waitAmp = true) : keDone s = { s with cip := { s.cip with
      keOut := if m = 0 then some (dst, gcmText (s.hkKey slot) iv ((src.take (keSegment * (s.cip.ke.seg + 1))).drop n))
        else s.cip.keOut
      ke := { s.cip.ke with owner := 0, waitBexed := true, seg := s.cip.ke.seg + 1 } } } := by
  rw [keDone_yields ho hj (yields_crypt.2 ⟨hwait, hlong⟩), keSoFar_crypt]

theorem keDone_image (hj : s.cip.ke.jobs = .image w .bexed img :: js) (hl : s.cip.ke.waitLoader = false)
    (hamp : s.cip.ke.waitAmp = false) : keDone s = imageDone w .bexed img (keRelease js s) :=
  keDone_ends ho hj (yields_noneWaits hl hamp)

end

theorem imageDone_bexed_tagOk (ht : Image.tagOk img = true) : imageDone w .bexed img s =
    complete w 0x000A (.vals [.u 32 img.version])
      { bump .keJobs 0 s with host := { s.host with standby := some img } } := by
  simp [imageDone, ht, ImageTo.op]

/-- A Bexed image whose tag is wrong leaves the standby bank empty (R380). -/
theorem imageDone_bexed_tagBad (ht : Image.tagOk img = false) : imageDone w .bexed img s =
    complete w 0x000A (.err .authFail)
      { bump .keAuthFail 0 (bump .keJobs 0 s) with host := { s.host with standby := none } } := by
  simp [imageDone, ht, ImageTo.op]

/-- A decryption whose computed tag is not the one given writes zeros (R381). -/
theorem keCryptDone_decrypt_tagBad
    (ht : gcmTag (s.hkKey slot) iv (src.take n) (src.drop n) ≠ tag % 2 ^ 128) :
    keCryptDone w false slot 0 iv n src dst tag s = complete w 0xA009 (.err .authFail) (bump .keAuthFail 0
      { bump .keJobs 0 s with cip := { s.cip with
        keOut := some (dst, List.replicate (gcmText (s.hkKey slot) iv (src.drop n)).length 0) } }) := by
  simp only [keCryptDone, ht, Bool.false_eq_true, if_false, if_true]
  rfl

/-! ### The random source (R382) -/

theorem exec_rngFail_again (ha : Acts s 177) (hr : s.cip.rngFailed = true) : exec .rngFail s = .next s := by
  change execRngFail s = _
  rw [execRngFail, island_acts ha, if_pos hr]

theorem exec_rngFail_first (ha : Acts s 177) (hr : s.cip.rngFailed = false) : exec .rngFail s =
    .next (raiseFault 177 8 0 (bump .rngFail 0 { s with cip := { s.cip with rngFailed := true } })) := by
  change execRngFail s = _
  rw [execRngFail, island_acts ha, if_neg (Bool.eq_false_iff.1 hr)]

end Sys2Proof.Machine
end

section
/-! SUPPORT. The CRC check units: a scan's start, its reads, its end (R383 to R385). -/

namespace Sys2Proof.Machine

variable {s : State} {q : Req} {unit alg sp addr len run size rc m : Nat} {data : List Nat} {c : CrcUnit}

theorem exec_crcScanStart :
    exec (.crcScanStart q unit alg sp addr len m run) s = execCrcScanStart q unit alg sp addr len m run s := rfl

theorem exec_crcScanPause : exec (.crcScanPause q unit data) s = execCrcScanPause q unit data s := rfl

theorem exec_crcScanStatus : exec (.crcScanStatus q unit data) s = execCrcScanStatus q unit data s := rfl

theorem crcScanStart_replies (hu : unit < 3) (halg : (crcAlg alg).isSome = true) (hb : (s.crcUnit unit).busy = false)
    (hsp : crcSpace sp = some (size, rc)) (hend : addr + len ≤ size) (ha : addr % crcRecord sp addr rc = 0)
    (he : (addr + len) % crcRecord sp (addr + len) rc = 0) (hm : m < 2) :
    Replies (.crcScanStart q unit alg sp addr len m run) q 0xA00B .ok (onCu unit (fun _ => {
      alg := alg, space := sp, addr := addr, left := len, run := if m = 1 then crcInit alg else run
      isDone := len == 0, busy := len != 0 })) s := by
  refine .of_kilak exec_crcScanStart rfl ?_
  have hargs : (decide (3 < unit) || (crcAlg alg).isNone || decide (2 ≤ m)) = false := by
    simp [hu.le, hm, halg]
  have hrange : (decide (size < addr + len) || addr % crcRecord sp addr rc != 0
      || (addr + len) % crcRecord sp (addr + len) rc != 0) = false := by
    simp [hend, ha, he]
  simp only [openCmd_crcUnit, hu.ne, hargs, hb, hsp, hrange, Bool.false_eq_true, if_false, done]

/-- A pause stops the unit behind the whole records it has read. -/
theorem crcScanPause_replies (hu : unit < 3) (hb : (s.crcUnit unit).busy = true) :
    Replies (.crcScanPause q unit data) q 0xA00C
      (.vals ((s.crcUnit unit).read (s.scanned (s.crcUnit unit) data)).vals)
      (onCu unit (fun _ => { (s.crcUnit unit).read (s.scanned (s.crcUnit unit) data) with busy := false })) s := by
  refine .of_kilak exec_crcScanPause rfl ?_
  simp only [openCmd_crcUnit, openCmd_scanned, hu.ne, Nat.not_lt.2 hu.le, hb, Bool.not_true, Bool.false_eq_true,
    if_false, doneWith]

theorem crcScanStatus_replies (hu : unit < 3) (hc : (s.crcUnit unit).read (s.scanned (s.crcUnit unit) data) = c) :
    Replies (.crcScanStatus q unit data) q 0xA00D
      (.vals (c.vals ++ [.u 64 (if c.isDone then crcFinal c.alg c.run else 0)])) (onCu unit (fun _ => c)) s := by
  refine .of_kilak exec_crcScanStatus rfl ?_
  simp only [openCmd_crcUnit, openCmd_scanned, hu.ne, Nat.not_lt.2 hu.le, hc, if_false, doneWith]

theorem exec_crcScanDone_all (ha : Acts s 178) (hb : (s.crcUnit unit).busy = true)
    (hl : (s.crcUnit unit).left ≤ data.length) :
    exec (.crcScanDone unit data) s = .next (onCu unit (fun c => c.read (s.scanned c data)) s) :=
  (island_acts ha).trans (congrArg _ (if_pos (by simp [hb, hl])))

theorem exec_crcScanDone_part (ha : Acts s 178) (hl : data.length < (s.crcUnit unit).left) :
    exec (.crcScanDone unit data) s = .next s :=
  (island_acts ha).trans (congrArg _ (if_neg (by simp [hl])))

/-- Of HBM and the pool, whose octets come with the step, a unit reads all of those that end its scan at a record's end. -/
theorem scanned_all (hsp : c.space ≤ 1) (hrc : crcSpace c.space = some (size, rc)) (hl : data.length = c.left)
    (he : (c.addr + c.left) % rc = 0) : s.scanned c data = data := by
  have hrec : crcRecord c.space (c.addr + c.left) rc = rc := by
    simp [crcRecord, show c.space ≠ 3 by omega]
  have hstop : (c.addr + c.left) / rc * rc = c.addr + c.left := Nat.div_mul_cancel (Nat.dvd_of_mod_eq_zero he)
  simp only [State.scanned, hrc, hl, Option.map_some, Option.getD_some, Nat.min_self, hrec, hstop, hsp, if_true,
    Nat.add_sub_cancel_left]
  rw [← hl, List.take_length]

theorem CrcUnit.read_all (hb : c.busy = true) (hl : data.length = c.left) :
    (c.read data).isDone = true ∧ (c.read data).run = crcStep c.alg c.run data := by
  simp [CrcUnit.read, hb, hl]

end Sys2Proof.Machine
end

section
/-! PROOF. The statement on the Key Engine, the random source and the CRC check units. -/

open Sys2Proof Sys2Proof.Machine

/-- Settles O49: each command and event by the lemma on its case. -/
theorem keyEngineAndCrcUnits : Obligations.KeyEngineAndCrcUnits := by
  intro s q w slot key kek wrapped iv n dst tag m unit alg sp addr len run size rc o src data js enc img
  refine ⟨fun hs => ⟨keKeyLoad_replies hs, keKeyClear_replies hs, keKeyUnwrap_waits hs⟩,
    fun hs hm hn hl => ⟨keEncrypt_waits hs hm hn hl, keDecrypt_waits hs hm hn hl⟩, keStatus_replies,
    fun ha => ⟨fun ho => ?held, fun ho => ?grant, fun ho => ?noJob, fun ho => ?jobs, exec_rngFail_again ha,
      exec_rngFail_first ha⟩,
    keCryptDone_decrypt_tagBad, crcScanStart_replies,
    fun hu hb hleft => ⟨fun hd ha => ?scanned, fun hd ha => ?early, crcScanPause_replies hu hb,
      crcScanStatus_replies hu rfl⟩⟩
  case held => rw [exec_keLockGrant ha, keGrant_held ho]
  case grant =>
    exact ⟨_, exec_keLockGrant ha, keGrant_jobs, keGrant_loader ho, keGrant_ampoule ho, keGrant_bexed ho,
      keGrant_noneWaits ho⟩
  case noJob => rw [exec_keJobDone ha, keDone_free ho]
  case jobs =>
    rw [exec_keJobDone ha]
    refine ⟨fun hj => ?unwrap, fun hj => ⟨fun h => ?ends, fun hlong hwait => ?yields⟩, fun hj hl hamp => ?image⟩
    case unwrap =>
      rw [keDone_unwrap ho hj]
      exact ⟨fun h => by rw [h]; rfl, fun h => by rw [h]; rfl⟩
    case ends => exact congrArg _ (keDone_crypt_ends ho hj h)
    case yields => exact congrArg _ (keDone_crypt_yields ho hj hlong hwait)
    case image =>
      rw [keDone_image ho hj hl hamp]
      exact ⟨fun h => congrArg _ (imageDone_bexed_tagOk h), fun h => congrArg _ (imageDone_bexed_tagBad h)⟩
  case scanned =>
    subst hleft
    refine ⟨exec_crcScanDone_all ha hb hd.ge, fun hsp hrc he => ?_⟩
    rw [scanned_all hsp hrc hd he]
    exact CrcUnit.read_all hb hd
  case early =>
    subst hleft
    exact exec_crcScanDone_part ha hd

end

section
/-! SUPPORT. Every command ends within R536: its meaning is one of the wrappers, or a choice between two of them. -/

namespace Sys2Proof.Machine

variable {s : State}

theorem execPuntDelivery_stops {k : Nat} : Stops s (execPuntDelivery k s) := by
  unfold execPuntDelivery
  dsimp only
  split
  · exact .fault ‹_›
  · exact .ite island_stops .next

theorem execDescriptorArrival_stops {k : Nat} : Stops s (execDescriptorArrival k s) := by
  unfold execDescriptorArrival
  dsimp only
  split
  · exact .fault ‹_›
  · exact .ite .next .next

theorem execBufferReportArrival_stops {alloc bytes : Nat} {burstPos : Nat} :
    Stops s (execBufferReportArrival alloc bytes burstPos s) := by
  unfold execBufferReportArrival
  split
  · exact .next
  · exact island_stops

theorem execCellFree_stops {cell : Nat} : Stops s (execCellFree cell s) := .ite .next island_stops

theorem execDequeueWalk_stops {root : Nat} : Stops s (execDequeueWalk root s) := .ite .next island_stops

theorem execUplinkFrameTransmit_stops {port : Nat} : Stops s (execUplinkFrameTransmit port s) :=
  .ite .next island_stops

/-- Each command by the wrapper that its meaning goes through. -/
theorem exec_stops (i : Instr) (s : State) : Stops s (exec i s) := by
  unfold exec
  cases i with
  | powerOnReset | brownOut | vddAoFall | resetNAssert | pciePerstPort0 | pciePerstPort1 | resetSourceRelease
  | clocksPresentCheckEnd | islandLateClockRelease | strapSample | hbmTrainingDone | bootLoadDone
  | bexedWatchdogExpiry | deviceWatchdogExpiry | blockResetRelease =>
    exact .next
  | ampRailRestart | optionCommit | ledgerSweepDone | orphanSweepDone | klCommandFetch | bexedTakeover
  | bexedRestartTimeout | ladderRungSuccess | ladderRungTimeout | laneTransitionDone | i3cPoll
  | i3cTransferDone | i3cInBandInterrupt | slotMapCheckDone | tribFeedWrite | tribDefectEval
  | serialNumberWindow | snWindowEnd | rangingBurst | rangingWindowEnd | ploamAnswerTimeout | extendingTimeout
  | authTimeout | lostTimeout | onuIdQuarantineEnd | tuningResponseTimeout | tuneArrivalTimeout
  | ladderAckTimeout | ladderTrialEnd | ladderRetry | balanceInterval | mapCommit | compileDeadline
  | mapPageCheckDone | hintPublish | marverCoreTrap | marverWatchEnd | phaseMemoryLoad | burstReception
  | decryptVerify | decryptRelease | reasmTimeout | upstreamEvaluation | sdbIntervalEnd | dyingGaspExpiry
  | sidebandFrameReceive | uplinkFrameArrival | uplinkBlockLock | dbufFlushTimeout | dbufPageWriteDone
  | dbufPageReadDone | lagReorderTimeout | lagMemberDown | lagMemberUp | facetSwapTimeout | cascadeKeyReceive
  | cascadeResultReceive | tableWalkTimeout | tableWriteApply | learnTake | agerSweep | conditionalInvalidation
  | parityRepair | gateListStart | gateWindowOpen | queueSample | keLockGrant | keJobDone | rngFail
  | crcScanDone | rekeyInterval | rekeyRetry | keyFragmentTimeout | keyRetire | servoUpdate | wtrExpiry
  | refclkLoss | refclkQualify | refclkBReturn | ppsInEdge | todInMessage | ppsInMiss | timeSourceLoss
  | ppsOutEdge | todOutMessage | tapDrain | bindingNotice | evidenceMinute | timeGap | ampSealPinChange
  | sealOpenTimeout | sealBurnDone | heartbeatReceive | ixrardoBadType | ixrardoLinkChange | claimRoundEnd
  | claimBusFault | claimBusFaultClear | promotion | protSettleEnd | mirrorReceive | auditInterval
  | auditReceive | drillWatchEnd | domainPowerUpDone | optionStoreWriteDone | sagStageRise | sagStageFall
  | powerEstimate | ledgerWindowClose | bwWindowEnd | annealRunStart | annealMeasureDone | annealTargetSettle
  | annealPlanWritten | lanePllLockChange | portAdminStateChange | irqHoldoffExpiry =>
    exact island_stops
  | resetReqCore | resetReqSystem | resetCauseClear | klRingEnable | klRingDisable | klCmdDoorbell
  | klCplHeadWrite | klEvtHeadWrite | klEvtLostRead | bar0BadAccess | registerWrite | flrPf0 | flrPf1 | flrPf2
  | pf1RingEnable | puntRingDoorbell | injectRingDoorbell | ringDropsRead | ampCmdDoorbell =>
    exact regAccess_stops
  | nop | deviceInfo | deviceReset | coreReset | blockReset | paramGet | paramSet | paramDescribe | paramNext
  | ledgerAudit | bexedImageLoad | bexedRestart | bexedStatus | channelEnable | channelDisable
  | phaseMemoryRead | moduleRead | moduleWrite | tributaryCreate | tributaryStatus | tributaryResize
  | tributaryMove | tributaryDelete | slotMapLoad | slotMapCommit | slotMapWithdraw | onuCreate | onuDestroy
  | onuStatus | onuRangeRead | onuAccept | onuReject | onuDeactivate | onuDisable | onuEnable | onuEnableAll
  | onuRetune | onuPin | onuLadderRestart | mapBudgetSet | fixedPatternLoad | fixedPatternRead | mapPageRead
  | mapStats | onuGrantStats | allocCreate | allocModify | allocDestroy | allocStatus | mapPolicySet
  | mapPolicyGet | mapHints | grantLatencyBind | marverImageLoad | marverImageActivate | marverStatus
  | facetImageLoad | facetImageCommit | facetImageWithdraw | facetImageSwap | facetEntryInsert
  | facetEntryDelete | facetEntryRead | facetEpochStatus | cascadeEnable | lagCreate | lagMemberSet
  | lagDestroy | lagStatus | classStats | tableInsert | tableDelete | tableSearch | tableWalkOpen | tableNext
  | tableWalkClose | tableFlushByPort | tableStats | poolStatus | poolQuotaSet | poolCellRead | dbufProfileSet
  | dbufStatus | queueBufferStatus | dbufPageRead | queueCreate | queueModify | queueMove | vertexMove
  | queueDelete | queueStatus | vertexCreate | vertexModify | vertexStatus | vertexDelete | lenProfileSet
  | policerSet | policerStatus | gateListLoad | gateListCommit | gateListWithdraw | gateStatus | portQueueSet
  | queueSampleBind | schedStats | onuMasterKeySet | onuRekey | keyStatus | broadcastKeySet | cipherParamSet
  | keKeyLoad | keKeyUnwrap | keKeyClear | keEncrypt | keDecrypt | keStatus | crcScanStart | crcScanPause
  | crcScanStatus | cipherStats | protEnable | protDisable | protActivate | protSwitch | protAuditNow
  | protStatus | spareSet | channelSpare | stackStatus | powerStatus | domainPowerSet | powerCapSet | sagStatus
  | optionImageRead | optionImageWrite | optionStatus | bootImageWrite | bootImageStatus | faultSummary
  | sampleConfig | sampleStart | sampleStop | sampleRead | bwWindowSet | bwWindowRead | histogramConfig
  | histogramRead | histogramClear | histogramRelease | annealRun | annealStatus | annealPlanRead | monitorRead
  | rxThresholdSet | onuRxStats =>
    exact kilak_stops
  | superframeBoundary | fragHoldTimeout | fragEntryExpiry | matchTrainingEnd | matchSymbol | cascadeTimeout
  | cascadeFrameClose =>
    exact guardBlks_stops .next
  | ingressPass | facetEpochBoundary | facetEpochDrain | facetThrottleSample =>
    exact guardBlks_stops (.ite .next .next)
  | ptpMessageReceive | ptpMessageSend | announceReceiptTimeout | ixrSyncSend | ixrTimeReceive | ixrRespTimeout
  | timeRecordToAmpoule =>
    exact guardBlks_stops island_stops
  | timeStatus | timeSet | timeSourceSet | timeParamSet | ptpPortSet | ptpPortStatus | ptpClockStatus | asymSet
  | todPairRead | pulseOutSet | ppsInSet =>
    exact timeCmd_stops
  | serialNumberOnu | acknowledgement | registration | extCapability | keyReport | tuningResponse
  | sleepRequest | ploamUnsupported =>
    exact usPloam_stops
  | rssiResult | sigDetect | txFault | modPresent | late | echo | sblBadEvent | sidebandCalibration =>
    exact sbEvent_stops
  | faultStatusClear | faultFirstClear | faultMaskWrite | faultInjectWrite | faultDetect =>
    exact windowAccess_stops
  | ampouleIdentity | ampouleEvidenceRead | ampouleMeterRead | ampouleLogRead | ampouleLogAck
  | ampouleCheckpoint | ampouleParamStage | ampouleSealAbort =>
    exact ampServe_stops
  | ampouleSealOpen | ampouleSealCommit =>
    exact sealBurn_stops
  | puntDelivery => exact execPuntDelivery_stops
  | bufferReportArrival => exact execBufferReportArrival_stops
  | cellFree => exact execCellFree_stops
  | descriptorArrival => exact execDescriptorArrival_stops
  | dequeueWalk => exact execDequeueWalk_stops
  | uplinkFrameTransmit => exact execUplinkFrameTransmit_stops
end Sys2Proof.Machine
end

section
/-! PROOF. The statements on one step: its form, the invariant at reset, the queue, and what stops a command. -/

open Sys2Proof Sys2Proof.Machine

/-- Settles O1: a step takes the front command off the queue. -/
theorem stepTakesFrontCommand : Obligations.StepTakesFrontCommand :=
  fun _ _ _ => step_front rfl

/-- Settles O3: at reset every counter and stage is 0 and nothing waits. -/
theorem invariantHoldsAtReset : Obligations.InvariantHoldsAtReset := by
  unfold Obligations.InvariantHoldsAtReset State.Inv State.clkOk State.pwrOk
  decide

/-- Settles O5: every command keeps the queue with the ranges. -/
theorem commandsNeverTouchTheQueue : Obligations.CommandsNeverTouchTheQueue :=
  fun i s t h => (exec_keep i s t h).pending

/-- Settles O6: no command is refused, a fault needs a class-F record, and so without one the command goes on. -/
theorem onlyClassFStopsACommand : Obligations.OnlyClassFStopsACommand := by
  intro i s
  obtain ⟨hrefused, hfault⟩ := exec_stops i s
  refine ⟨hrefused, hfault, fun hdefined => ?_⟩
  cases hout : exec i s with
  | next t => exact ⟨t, rfl⟩
  | refused r => exact absurd hout (hrefused r)
  | fault f =>
    obtain ⟨b, -, hb⟩ := hfault f hout
    simp [hdefined b] at hb

end

section
/-! SUPPORT. Histogram units: the bin of a sample, and the commands on a bound and an unbound unit (R553, R554). -/

namespace Sys2Proof.Machine

variable {s : State} {q : Req} {source shift unit v sh e m at_ : Nat} {x : HistUnit} {src : HistSrc}

theorem exec_histogramConfig :
    exec (.histogramConfig q source shift) s = execHistogramConfig q source shift s := rfl

theorem exec_histogramRead : exec (.histogramRead q unit) s = execHistogramRead q unit s := rfl

theorem exec_histogramClear : exec (.histogramClear q unit) s = execHistogramClear q unit s := rfl

theorem exec_histogramRelease : exec (.histogramRelease q unit) s = execHistogramRelease q unit s := rfl

/-! ### The commands -/

theorem histogramConfig_binds (hs : shift ≤ 31) (hfree : lowestFree (Tab.keys s.mon.hist) 0 256 = some unit) :
    Replies (.histogramConfig q source shift) q 0xE007 (.vals [.u 64 unit])
      (bindUnit unit shift (histSrcOf source)) s :=
  .of_kilak exec_histogramConfig rfl (by simp [Nat.not_lt.2 hs, hfree, doneWith])

theorem histogramConfig_noneFree (hs : shift ≤ 31) (hfree : lowestFree (Tab.keys s.mon.hist) 0 256 = none) :
    Replies (.histogramConfig q source shift) q 0xE007 (.err .limit) id s :=
  .of_kilak exec_histogramConfig rfl (by simp [Nat.not_lt.2 hs, hfree, deny])

theorem histogramRead_bound (hx : Tab.get? s.mon.hist unit = some x) :
    Replies (.histogramRead q unit) q 0xE008 (.vals ([.u 64 x.src.num, .u 64 x.shift]
      ++ ((List.range 64).map fun i => .u 64 (Tab.getD x.bins i 0))
      ++ [.u 64 x.count, .u 64 x.sum, .u 64 x.min, .u 96 x.minLtb, .u 64 x.minId, .u 64 x.max, .u 96 x.maxLtb
        , .u 64 x.maxId])) id s :=
  .of_kilak exec_histogramRead rfl (by simp only [openCmd_mon, hx, doneWith, id])

theorem histogramClear_bound (hx : Tab.get? s.mon.hist unit = some x) :
    Replies (.histogramClear q unit) q 0xE009 .ok (bindUnit unit x.shift x.src) s :=
  .of_kilak exec_histogramClear rfl (by simp only [openCmd_mon, hx, done, bindUnit])

theorem histogramRelease_bound (hx : Tab.get? s.mon.hist unit = some x) :
    Replies (.histogramRelease q unit) q 0xE00A .ok (fun u => { u with mon := { u.mon with
      hist := Tab.erase u.mon.hist unit } }) s :=
  .of_kilak exec_histogramRelease rfl (by simp only [openCmd_mon, hx, done])

section
variable (hx : Tab.get? s.mon.hist unit = none)
include hx

theorem histogramRead_unbound : Replies (.histogramRead q unit) q 0xE008 (.err .badState) id s :=
  .of_kilak exec_histogramRead rfl (by simp only [openCmd_mon, hx, deny, id])

theorem histogramClear_unbound : Replies (.histogramClear q unit) q 0xE009 (.err .badState) id s :=
  .of_kilak exec_histogramClear rfl (by simp only [openCmd_mon, hx, deny, id])

theorem histogramRelease_unbound : Replies (.histogramRelease q unit) q 0xE00A (.err .badState) id s :=
  .of_kilak exec_histogramRelease rfl (by simp only [openCmd_mon, hx, deny, id])

end

/-! ### Samples -/

theorem histBin_linear (h : v / 2 ^ sh < 8) : histBin v sh = v / 2 ^ sh := by
  simp [histBin, h]

theorem histBin_octave (h : 8 ≤ v / 2 ^ sh) : histBin v sh =
    min 63 (8 + 4 * ((v / 2 ^ sh).log2 - 3) + v / 2 ^ sh / 2 ^ ((v / 2 ^ sh).log2 - 2) % 4) := by
  simp [histBin, Nat.not_lt.2 h]

/-- In octave e the two bits below the leading one name the bin. -/
theorem histBin_quarter (he : 3 ≤ e) (hm : m < 4) (hlo : (4 + m) * 2 ^ (e - 2) ≤ v / 2 ^ sh)
    (hhi : v / 2 ^ sh < (5 + m) * 2 ^ (e - 2)) : histBin v sh = min 63 (8 + 4 * (e - 3) + m) := by
  have hpow : 2 ^ e = 4 * 2 ^ (e - 2) := by
    rw [show 4 = 2 ^ 2 from rfl, ← pow_add]
    congr 1
    omega
  have hge : 2 ^ e ≤ v / 2 ^ sh := hpow.trans_le ((Nat.mul_le_mul_right _ (by omega)).trans hlo)
  have hlt : v / 2 ^ sh < 2 ^ (e + 1) := by
    rw [pow_succ, hpow]
    calc v / 2 ^ sh < (5 + m) * 2 ^ (e - 2) := hhi
      _ ≤ 8 * 2 ^ (e - 2) := Nat.mul_le_mul_right _ (by omega)
      _ = 4 * 2 ^ (e - 2) * 2 := by ring
  have height : 8 ≤ v / 2 ^ sh := (Nat.pow_le_pow_right (n := 2) (by omega) he).trans hge
  have hlog : (v / 2 ^ sh).log2 = e := (Nat.log2_eq_iff (by omega)).2 ⟨hge, hlt⟩
  have hquot : v / 2 ^ sh / 2 ^ (e - 2) = 4 + m :=
    Nat.div_eq_of_lt_le hlo (by rwa [show 4 + m + 1 = 5 + m by omega])
  rw [histBin_octave height, hlog, hquot, Nat.add_mod_left, Nat.mod_eq_of_lt hm]

theorem histBin_top (h : 2 ^ 17 ≤ v / 2 ^ sh) : histBin v sh = 63 := by
  have hlog : 17 ≤ (v / 2 ^ sh).log2 := (Nat.le_log2 (by omega)).2 h
  rw [histBin_octave (by omega)]
  omega

theorem histBin_le : histBin v sh ≤ 63 := by
  by_cases h : v / 2 ^ sh < 8
  · rw [histBin_linear h]
    omega
  · rw [histBin_octave (Nat.not_lt.1 h)]
    exact Nat.min_le_left _ _

theorem histSample_sagging (h : s.sagStage ≠ 0) : histSample src v at_ s = s := by
  simp [histSample, h]

/-- At stage S0 a sample reaches every unit of its source. -/
theorem histSample_hist (h : s.sagStage = 0) : (histSample src v at_ s).mon.hist = s.mon.hist.map fun e =>
    (e.1, if e.2.src = src then e.2.add v at_ s.ltbNow else e.2) := by
  simp [histSample, h]

end Sys2Proof.Machine
end

section
/-! PROOF. The statements on histogram units. -/

open Sys2Proof Sys2Proof.Machine

/-- Settles O19: each command by the lemma on its case. -/
theorem histogramUnitsBindReadClearRelease : Obligations.HistogramUnitsBindReadClearRelease := by
  intro s q source shift unit x
  exact ⟨histogramConfig_binds, histogramConfig_noneFree,
    fun hx => ⟨histogramRead_bound hx, histogramClear_bound hx, histogramRelease_bound hx⟩,
    fun hx => ⟨histogramRead_unbound hx, histogramClear_unbound hx, histogramRelease_unbound hx⟩⟩

/-- Settles O58: the bins by the octave of the sample, the counts by the unit that is bound. -/
theorem histogramBinOfASample : Obligations.HistogramBinOfASample := by
  intro s q v sh e m at_ u src x
  refine ⟨histBin_linear, histBin_quarter, histBin_top, histBin_le, histSample_sagging,
    fun hsag hhist hsrc => ⟨x.add v at_ s.ltbNow, ?_, hsrc, rfl, rfl⟩, histogramClear_bound⟩
  simp [histSample_hist hsag, hhist, hsrc]

end

section
/-! SUPPORT. Sample records and bandwidth windows (R549, R551, R552, R563). -/

namespace Sys2Proof.Machine

variable {s : State} {q : Req} {fs : List SampleFilter} {rate mode first count i ns idx dir : Nat}

theorem exec_sampleConfig : exec (.sampleConfig q fs rate mode) s = execSampleConfig q fs rate mode s := rfl

theorem exec_sampleStart : exec (.sampleStart q) s = execSampleStart q s := rfl

theorem exec_sampleStop : exec (.sampleStop q) s = execSampleStop q s := rfl

theorem exec_sampleRead : exec (.sampleRead q first count) s = execSampleRead q first count s := rfl

theorem exec_bwWindowSet : exec (.bwWindowSet q ns) s = execBwWindowSet q ns s := rfl

theorem exec_bwWindowRead {isPort : Bool} :
    exec (.bwWindowRead q isPort idx dir) s = execBwWindowRead q isPort idx dir s := rfl

/-! ### The sample unit -/

theorem sampleConfig_replies (hoff : s.mon.sampling = false) (hlen : fs.length ≤ 4)
    (hfs : fs.all filterOk = true) (hrate : rate ≤ 16) (hmode : mode ≤ 1) :
    Replies (.sampleConfig q fs rate mode) q 0xE001 .ok (fun u => { u with mon := { u.mon with
      filters := fs.zipIdx.map fun e => (e.2, heldFilter e.1), rateLog2 := rate, mode := mode } }) s := by
  refine .of_kilak exec_sampleConfig rfl ?_
  have htaken : (decide (4 < fs.length) || !fs.all filterOk || decide (16 < rate) || decide (1 < mode)) = false := by
    simp only [hfs, Nat.not_lt.2 hlen, Nat.not_lt.2 hrate, Nat.not_lt.2 hmode, decide_false, Bool.not_true,
      Bool.or_false]
  simp only [openCmd_mon, hoff, htaken, Bool.false_eq_true, if_false, done]

theorem sampleStart_replies (hoff : s.mon.sampling = false) :
    Replies (.sampleStart q) q 0xE002 .ok (fun u => { u with mon := { u.mon with
      sampling := true, recs := [], sampleSeq := 0 } }) s :=
  .of_kilak exec_sampleStart rfl (by simp only [openCmd_mon, hoff, Bool.false_eq_true, if_false, done])

section
variable (hon : s.mon.sampling = true)
include hon

theorem sampleConfig_busy : Replies (.sampleConfig q fs rate mode) q 0xE001 (.err .busy) id s :=
  .of_kilak exec_sampleConfig rfl (by simp only [openCmd_mon, hon, if_true, deny, id])

theorem sampleStart_badState : Replies (.sampleStart q) q 0xE002 (.err .badState) id s :=
  .of_kilak exec_sampleStart rfl (by simp only [openCmd_mon, hon, if_true, deny, id])

theorem sampleStop_replies : Replies (.sampleStop q) q 0xE003 .ok
    (fun u => { u with mon := { u.mon with sampling := false } }) s :=
  .of_kilak exec_sampleStop rfl
    (by simp only [openCmd_mon, hon, Bool.not_true, Bool.false_eq_true, if_false, done])

end

theorem sampleRead_replies (hcount : count ≤ 256) (hheld : s.mon.recs.findIdx? (·.seq == first) = some i) :
    Replies (.sampleRead q first count) q 0xE004
      (.vals [.lst 64 (((s.mon.recs.drop i).take count).map SampleRec.word)]) id s :=
  .of_kilak exec_sampleRead rfl
    (by simp only [openCmd_mon, Nat.not_lt.2 hcount, hheld, if_false, doneWith, id])

/-! ### Bandwidth windows -/

theorem bwWindowSet_replies (hlo : 10000 ≤ ns) (hhi : ns ≤ 1000000000) :
    Replies (.bwWindowSet q ns) q 0xE005 .ok (fun u => { u with mon := { u.mon with bwNext := some ns } }) s :=
  .of_kilak exec_bwWindowSet rfl (by simp [Nat.not_lt.2 hlo, Nat.not_lt.2 hhi, done])

/-- The extremes of a window's record start again from its last window. -/
def bwRestart (k : Nat) (u : State) : State :=
  { u with mon := { u.mon with bw := Tab.set u.mon.bw k (u.mon.bwOf k).restart } }

theorem bwWindowRead_channel (hi : idx < 512) (hd : dir ≤ 1) : Replies (.bwWindowRead q false idx dir) q 0xE006
    (.vals (s.mon.bwOf (512 + 2 * idx + dir)).vals) (bwRestart (512 + 2 * idx + dir)) s :=
  .of_kilak exec_bwWindowRead rfl
    (by simp [Nat.not_le.2 hi, Nat.not_lt.2 hd, doneWith, bwRestart])

theorem bwWindowRead_port (hi : s.portExists idx = true) (hd : dir ≤ 1) :
    Replies (.bwWindowRead q true idx dir) q 0xE006 (.vals (s.mon.bwOf (2 * idx + dir)).vals)
      (bwRestart (2 * idx + dir)) s :=
  .of_kilak exec_bwWindowRead rfl (by simp [hi, Nat.not_lt.2 hd, doneWith, bwRestart])

theorem exec_bwWindowEnd (ha : Acts s 104) : exec .bwWindowEnd s = .next (bwEnd s) := island_acts ha

/-- A window that nothing discards is recorded for every port and channel listed. -/
theorem bwEnd_records (hnext : s.mon.bwNext = none) (hsag : s.mon.bwSag = false) (hstage : s.sagStage = 0) :
    (bwEnd s).mon.bw = s.mon.bw.map fun e => (e.1, e.2.close s.mon.bwStart s.mon.bwFirst) := by
  simp [bwEnd, hnext, hsag, hstage]

end Sys2Proof.Machine
end

section
/-! PROOF. The statement on sampling and the bandwidth windows. -/

open Sys2Proof Sys2Proof.Machine

/-- Settles O18: each command and the window's end by the lemma on its case. -/
theorem samplingAndBandwidthWindows : Obligations.SamplingAndBandwidthWindows := by
  intro s q fs rate mode first count i ns idx dir
  exact ⟨sampleConfig_replies, sampleStart_replies,
    fun hon => ⟨sampleConfig_busy hon, sampleStart_badState hon, sampleStop_replies hon⟩, sampleRead_replies,
    bwWindowSet_replies, bwWindowRead_channel, bwWindowRead_port,
    fun ha => ⟨bwEnd s, exec_bwWindowEnd ha, rfl, rfl, rfl, rfl, bwEnd_records⟩⟩

end

section
/-! SUPPORT. Fault windows: accesses, recording, injection (R537, R538, R545 to R547). -/

namespace Sys2Proof.Machine

variable {s : State} {b k d v : Nat} {r : Reg} {fs : List FaultIn}

/-! ### Accesses -/

theorem windowAccess_up {f : State → State} (hb : b ≤ 188) (hup : s.islandUp b = true) :
    windowAccess b f s = .next (f s) := by
  simp [windowAccess, hb, hup]

theorem windowAccess_down {f : State → State} (hdown : s.islandUp b = false) : windowAccess b f s = .next s := by
  simp [windowAccess, hdown]

theorem exec_faultDetect : exec (.faultDetect b fs) s = windowAccess b (detectFaults b fs) s := rfl

theorem exec_faultStatusClear : exec (.faultStatusClear b r fs) s =
    windowAccess b (fun s => onWindow b (statusClear b r.toNat fs) (detectFaults b fs s)) s := rfl

theorem exec_faultFirstClear : exec (.faultFirstClear b r fs) s = windowAccess b (fun s => detectFaults b fs
    (if bit r.toNat 31 then onWindow b FaultWin.firstClear s else s)) s := rfl

theorem exec_faultMaskWrite : exec (.faultMaskWrite b r fs) s = windowAccess b (fun s => onWindow b (fun w => { w with
    mask := r.toNat &&& ((2 ^ 32 - 1) ^^^ classFMask) }) (detectFaults b fs s)) s := rfl

theorem exec_faultInjectWrite :
    exec (.faultInjectWrite b r fs) s = windowAccess b (faultInject b r.toNat fs) s := rfl

@[simp] theorem detectFaults_nil (b : Nat) (s : State) : detectFaults b [] s = s := rfl

theorem onWindow_congr {f g : FaultWin → FaultWin} (h : f (s.window b) = g (s.window b)) :
    onWindow b f s = onWindow b g s := by
  simp only [onWindow, h]

theorem statusClear_alone (w : FaultWin) : statusClear b v [] w = { w with
    status := w.status &&& ((2 ^ 32 - 1) ^^^ (v &&& ((2 ^ 32 - 1) ^^^ classFMask))) } := by
  simp [statusClear, faultBits]

theorem FaultWin.firstClear_free {w : FaultWin} (h : (w.firstValid && w.cls == 3) = false) :
    w.firstClear = { w with firstValid := false, firstTie := false, injAlso := false, injected := false
                            cls := 0, kindNo := 0, detail := 0, time := 0 } := by
  rw [firstClear, h]
  rfl

theorem FaultWin.firstClear_held {w : FaultWin} (hv : w.firstValid = true) (hc : w.cls = 3) :
    w.firstClear = w := by
  simp [firstClear, hv, hc]

/-! ### Injection -/

theorem bit_two_pow {j : Nat} : bit (2 ^ k) j = (j == k) := by
  rw [bit, beq_eq_decide, decide_eq_decide]
  rcases lt_trichotomy j k with h | h | h
  · have hdiv : 2 ^ k / 2 ^ j = 2 * 2 ^ (k - j - 1) := by
      rw [Nat.pow_div h.le (by omega), ← pow_succ']
      congr 1
      omega
    omega
  · subst h
    simp
  · have hdiv : 2 ^ k / 2 ^ j = 0 := Nat.div_eq_of_lt (Nat.pow_lt_pow_right (by omega) h)
    omega

/-- The kinds that a write of one bit injects. -/
theorem injectKinds_single (hk : k < 32) :
    ((List.range 32).filter fun j => bit (2 ^ k) j && s.injectable b j) = if s.injectable b k then [k] else [] := by
  have hbits : (List.range 32).filter (fun j => bit (2 ^ k) j) = [k] := by
    simp only [bit_two_pow]
    rw [List.filter_beq, List.count_eq_one_of_mem List.nodup_range (List.mem_range.2 hk), List.replicate_one]
  calc _ = ((List.range 32).filter fun j => bit (2 ^ k) j).filter (s.injectable b) := by
        rw [List.filter_filter]
        simp only [Bool.and_comm]
    _ = _ := by rw [hbits, List.filter_singleton, Bool.cond_eq_ite]

theorem faultInject_single (hk : k < 32) (hc : faultClass b k = some .c ∨ faultClass b k = some .u) :
    faultInject b (2 ^ k) [] s = recordFaults b [⟨k, 0, true, false⟩] s := by
  have hinj : s.injectable b k = true := by
    rcases hc with h | h <;> simp [State.injectable, h]
  have hnotF : ¬ faultClass b k = some .f := by
    rcases hc with h | h <;> simp [h]
  simp [faultInject, injectKinds_single hk, hinj, hnotF]

theorem faultInject_reserved (hk : k < 32) (hc : faultClass b k = none) : faultInject b (2 ^ k) [] s = s := by
  have hinj : s.injectable b k = false := by simp [State.injectable, hc]
  simp [faultInject, injectKinds_single hk, hinj]

/-! ### Recording -/

/-- One real fault on a window whose FAULT_FIRST is free. -/
theorem FaultWin.record_single {w : FaultWin} {cl : FClass} {time : Nat} (hc : faultClass b k = some cl)
    (hfree : w.firstValid = false) : w.record b time [⟨k, d, false, false⟩] = { w with
      status := w.status ||| 2 ^ k, realF := if cl = .f then w.realF ||| 2 ^ k else w.realF
      firstValid := true, firstTie := false, injAlso := false, injected := false, cls := cl.num, kindNo := k
      detail := d % 2 ^ 21, time := time } := by
  simp [record, pickFirst, hc, hfree]

end Sys2Proof.Machine
end

section
/-! PROOF. The statement on the fault windows. -/

open Sys2Proof Sys2Proof.Machine

/-- Settles O16: each access by the lemma on its case, where the island is up and where it is not. -/
theorem faultWindowsRecordAndClear : Obligations.FaultWindowsRecordAndClear := by
  intro s b k d v fs
  refine ⟨fun hb hup => ⟨exec_faultDetect.trans (windowAccess_up hb hup), ?status, fun hbit hfree => ?first,
      fun hvalid hcls => ?held, ?mask, fun hk hv hc => ?inject, fun hk hv hc => ?reserved⟩,
    fun hdown => ⟨exec_faultDetect.trans (windowAccess_down hdown), exec_faultStatusClear.trans (windowAccess_down hdown),
      exec_faultFirstClear.trans (windowAccess_down hdown), exec_faultMaskWrite.trans (windowAccess_down hdown),
      exec_faultInjectWrite.trans (windowAccess_down hdown)⟩, fun w cl hc hfree time => ?record⟩
  case status =>
    rw [exec_faultStatusClear, windowAccess_up hb hup, detectFaults_nil]
    exact congrArg _ (onWindow_congr (statusClear_alone _))
  case first =>
    rw [exec_faultFirstClear, windowAccess_up hb hup, detectFaults_nil, if_pos hbit]
    exact congrArg _ (onWindow_congr (FaultWin.firstClear_free hfree))
  case held =>
    rw [exec_faultFirstClear, windowAccess_up hb hup, detectFaults_nil,
      onWindow_congr (g := id) (FaultWin.firstClear_held hvalid hcls)]
  case mask => rw [exec_faultMaskWrite, windowAccess_up hb hup, detectFaults_nil]
  case inject => rw [exec_faultInjectWrite, windowAccess_up hb hup, hv, faultInject_single hk hc]
  case reserved => rw [exec_faultInjectWrite, windowAccess_up hb hup, hv, faultInject_reserved hk hc]
  case record =>
    rw [FaultWin.record_single hc hfree]
    exact ⟨rfl, rfl, rfl, rfl, rfl, rfl, rfl, rfl⟩

end

section
/-! SUPPORT. Supply sag, the power estimate and the power commands (R528 to R534). -/

namespace Sys2Proof.Machine

variable {s : State} {q : Req} {m : Int} {g w cap st : Nat}

theorem exec_powerStatus : exec (.powerStatus q) s = execPowerStatus q s := rfl

theorem exec_powerCapSet : exec (.powerCapSet q cap st) s = execPowerCapSet q cap st s := rfl

theorem exec_sagStatus : exec (.sagStatus q) s = execSagStatus q s := rfl

section
variable (ha : Acts s 174)
include ha

theorem exec_sagStageRise : exec (.sagStageRise m g) s = .next (sagRise m g s) := island_acts ha

theorem exec_sagStageFall : exec (.sagStageFall m g) s = .next (sagFall m g s) := island_acts ha

theorem exec_powerEstimate : exec (.powerEstimate w) s = .next (powerEstimate w s) := island_acts ha

end

/-! ### Voltage stages -/

/-- Nothing happens where the stage in force is the one before. -/
theorem stageChanged_same {old cause : Nat} (h : s.sagStage = old) : stageChanged old cause s = s := if_pos h

/-- The margin stays 10 mV above the threshold: one stage down. -/
theorem sagFall_lowers (hv : s.pwr.voltStage ≠ 0) (hm : sagThreshold s.pwr.voltStage + 10 ≤ m) :
    sagFall m g s = stageChanged s.sagStage 0 { s with pwr := { s.pwr with
      voltStage := s.pwr.voltStage - 1, minMargin := m, minGroup := g } } := by
  simp [sagFall, hv, hm]

theorem sagFall_stays (h : s.pwr.voltStage = 0 ∨ m < sagThreshold s.pwr.voltStage + 10) :
    sagFall m g s = { s with pwr := { s.pwr with minMargin := m, minGroup := g } } := by
  have hkept : (s.pwr.voltStage != 0 && decide (sagThreshold s.pwr.voltStage + 10 ≤ m)) = false := by
    rcases h with h | h
    · simp [h]
    · simp [not_le.2 h]
  simp only [sagFall, hkept, Bool.false_eq_true, if_false]
  exact stageChanged_same rfl

/-! ### The power estimate -/

theorem powerEstimate_noCap (hc : s.pwr.capW = 0) : powerEstimate w s =
    capUnder { s with pwr := { s.pwr with estimate := w, overSince := none } } := by
  simp [powerEstimate, hc]

theorem capUnder_begins (hu : s.pwr.underSince = none) :
    capUnder s = { s with pwr := { s.pwr with underSince := some s.clk.now } } := by
  simp [capUnder, hu, msT]

theorem capUnder_restores (hc : s.pwr.capStage = 0) (hu : s.pwr.underSince = some g)
    (ht : g + msT 100 ≤ s.clk.now) : capUnder s = { s with pwr := { s.pwr with
      guard := min (s.pwr.guard + 1) (s.paramN 0xD013 0) } } := by
  simp only [capUnder, hu, hc, Option.getD_some, Nat.not_lt.2 ht, bne_self_eq_false, Bool.false_eq_true, if_false]
  rw [← hu]
  rfl

theorem powerEstimate_over (hc : s.pwr.capW ≠ 0) (hw : s.pwr.capW < w) :
    powerEstimate w s = capOver { s with pwr := { s.pwr with estimate := w } } := by
  simp [powerEstimate, hc, hw]

theorem capOver_guard (hg : s.guardNow ≠ 0) : capOver s = { s with pwr := { s.pwr with
    underSince := none, guard := s.guardNow - 1
    overSince := if s.guardNow = 1 then some s.clk.now else none } } :=
  if_pos (bne_iff_ne.2 hg)

/-! ### The commands -/

theorem powerCapSet_inRange (hc : cap = 0 ∨ (300 ≤ cap ∧ cap ≤ 585)) (h1 : 1 ≤ st) (h4 : st ≤ 4) :
    Replies (.powerCapSet q cap st) q 0xD002 .ok
      (fun u => { u with pwr := { u.pwr with capW := cap, capStageMax := st } }) s := by
  refine .of_kilak exec_powerCapSet rfl ?_
  have htaken : ((cap != 0 && !decide (300 ≤ cap ∧ cap ≤ 585)) || !decide (1 ≤ st ∧ st ≤ 4)) = false := by
    rcases hc with hc | hc <;> simp [hc, h1, h4]
  simp only [htaken, Bool.false_eq_true, if_false, done]

theorem powerCapSet_limit (h : (cap ≠ 0 ∧ cap < 300) ∨ 585 < cap ∨ st = 0 ∨ 4 < st) :
    Replies (.powerCapSet q cap st) q 0xD002 (.err .limit) id s := by
  refine .of_kilak exec_powerCapSet rfl ?_
  have hout : ((cap != 0 && !decide (300 ≤ cap ∧ cap ≤ 585)) || !decide (1 ≤ st ∧ st ≤ 4)) = true := by
    simp only [Bool.or_eq_true, Bool.and_eq_true, bne_iff_ne, Bool.not_eq_true', decide_eq_false_iff_not]
    omega
  simp only [hout, if_true, deny, id]

theorem powerStatus_replies : Replies (.powerStatus q) q 0xD000 (.vals [.u 32 s.pwr.domains
    , .u 16 s.pwr.estimate, .u 16 s.setpoint, .u 8 s.guardNow, .u 64 (flag (s.pwr.capStage != 0))]) id s :=
  .of_kilak exec_powerStatus rfl (by simp only [openCmd_pwr, openCmd_setpoint, openCmd_guardNow, doneWith, id])

theorem sagStatus_replies : Replies (.sagStatus q) q 0xD003 (.vals [.u 8 s.sagStage, .u 8 s.pwr.voltStage
    , .u 8 s.pwr.capStage, .i 16 s.pwr.minMargin, .u 64 s.pwr.minGroup
    , .lst 8 ([1, 2, 3, 4, 5].map (s.count .sagEntries))]) id s :=
  .of_kilak exec_sagStatus rfl (by simp only [openCmd_pwr, openCmd_sagStage, openCmd_count, doneWith, id])

end Sys2Proof.Machine
end

section
/-! PROOF. The statement on supply sag and power caps. -/

open Sys2Proof Sys2Proof.Machine

/-- Settles O23: each event and command by the lemma on its case. -/
theorem sagStagesCapsAndPowerReads : Obligations.SagStagesCapsAndPowerReads := by
  intro s q m g w cap st
  refine ⟨fun ha => ⟨exec_sagStageRise ha, fun hv hm => ?lowers, fun h => ?stays, fun hc hu => ?begins,
      fun hc hstage hu ht => ?restores, fun hc hw hg => ?overCap⟩,
    fun old cause u h => stageChanged_same h, powerCapSet_inRange, powerCapSet_limit, powerStatus_replies,
    sagStatus_replies⟩
  case lowers => rw [exec_sagStageFall ha, sagFall_lowers hv hm]
  case stays => rw [exec_sagStageFall ha, sagFall_stays h]
  case begins =>
    rw [exec_powerEstimate ha, powerEstimate_noCap hc]
    exact congrArg Host.Outcome.next (capUnder_begins hu)
  case restores =>
    rw [exec_powerEstimate ha, powerEstimate_noCap hc]
    exact congrArg Host.Outcome.next (capUnder_restores hstage hu ht)
  case overCap =>
    have hlowers := (powerEstimate_over hc hw).trans (capOver_guard hg)
    exact ⟨_, (exec_powerEstimate ha).trans (congrArg Host.Outcome.next hlowers), rfl, rfl, rfl, rfl, rfl, rfl⟩

end

section
/-! SUPPORT. The option store and the boot slots (R519 to R524, R533). -/

namespace Sys2Proof.Machine

variable {s : State} {q c : Req} {b marver ok2 : Bool} {img : OptImage} {bi : Image} {n slot : Nat}

theorem exec_optionImageRead : exec (.optionImageRead q b) s = execOptionImageRead q b s := rfl

theorem exec_optionImageWrite : exec (.optionImageWrite q img) s = execOptionImageWrite q img s := rfl

theorem exec_optionStatus : exec (.optionStatus q) s = execOptionStatus q s := rfl

theorem exec_bootImageWrite :
    exec (.bootImageWrite q slot marver bi) s = execBootImageWrite q slot marver bi s := rfl

theorem exec_bootImageStatus : exec (.bootImageStatus q) s = execBootImageStatus q s := rfl

theorem exec_optionStoreWriteDone {ok1 : Bool} (ha : Acts s 179) :
    exec (.optionStoreWriteDone ok1 ok2) s = .next (storeWriteDone ok1 ok2 s) := island_acts ha

/-! ### Option images -/

theorem optionImageRead_replies : Replies (.optionImageRead q b) q 0xD004 (.vals [
    .lst 1 (optOctets (s.opt.copyOf b)), .u 64 (flag (optFail true (s.opt.copyOf b) == 0))]) id s :=
  .of_kilak exec_optionImageRead rfl (by simp only [openCmd_opt, doneWith, id])

theorem optionImageStatus_replies : Replies (.optionStatus q) q 0xD006 (.vals [.u 8 s.opt.copy, .u 32 s.opt.cur.seq
    , .u 64 (s.count .optLoadFail 0), .u 64 (s.count .optLoadFail 1)]) id s :=
  .of_kilak exec_optionStatus rfl (by simp only [openCmd_opt, openCmd_count, doneWith, id])

theorem optionImageWrite_begins (hok : optFail false img = 0) (hw : s.opt.writer = none) :
    Waits (.optionImageWrite q img) q 0xD005 (fun u => { u with opt := { u.opt with
      writer := some (.host q { img with seq := s.nextOptSeq, tagOk := true }) } }) s :=
  .of_kilak exec_optionImageWrite rfl (by simp [optionWrite, hok, hw, waits])

theorem optionImageWrite_badArg (hbad : optFail false img = n + 1) : Replies (.optionImageWrite q img) q 0xD005
    { code := .badArg, detail := (n + 1) % 256 * 2 ^ 24 } id s :=
  .of_kilak exec_optionImageWrite rfl (by simp [optionWrite, hbad, denyAt])

theorem optionImageWrite_busy (hok : optFail false img = 0) (hw : s.opt.writer.isSome = true) :
    Replies (.optionImageWrite q img) q 0xD005 (.err .busy) id s :=
  .of_kilak exec_optionImageWrite rfl (by simp [optionWrite, hok, hw, deny])

/-! ### The end of a write -/

theorem storeWriteDone_noWriter (hw : s.opt.writer = none) : storeWriteDone b ok2 s = s := by
  simp only [storeWriteDone, hw]

/-- Both read-backs pass: both copies hold the image, whichever is in force. -/
theorem storeWriteDone_passes (hw : s.opt.writer = some (.host c img)) : storeWriteDone true true s =
    annWaiting (complete c 0xD005 (.vals [.u 32 img.seq]) { s with opt := { s.opt with
      writer := none, copyA := img, copyB := img } }) := by
  by_cases hcopy : s.opt.copy = 1 <;> simp [storeWriteDone, hw, hcopy]

/-- The first read-back fails: the copy in force is not written. -/
theorem storeWriteDone_fails (hw : s.opt.writer = some (.host c img)) (hcopy : s.opt.copy = 0) :
    storeWriteDone false ok2 s = annWaiting (complete c 0xD005 { code := .failed, detail := 3 * 2 ^ 24 } { s with
      opt := { s.opt with writer := none, copyB := { img with crcOk := false } } }) := by
  simp [storeWriteDone, hw, hcopy]

theorem annWaiting_noPlan (h : s.ann.newPlan = none) : annWaiting s = s := by
  simp only [annWaiting, h]

/-! ### Boot slots -/

section
variable (hs : slot < 2) (hok : imageRefused bi (if marver then 2 else 1) = false)
include hs hok

theorem bootImageWrite_waits (hlen : bi.length + 80 ≤ bootLimit marver) (hb : s.opt.booted ≠ slot) :
    Waits (.bootImageWrite q slot marver bi) q 0xD007 (keQueue (.image q (.boot slot marver) bi)) s :=
  .of_kilak exec_bootImageWrite rfl (by simp [bootImageWrite, Nat.not_le.2 hs, hok, Nat.not_lt.2 hlen, hb, waits])

theorem bootImageWrite_busy (hlen : bi.length + 80 ≤ bootLimit marver) (hb : s.opt.booted = slot) :
    Replies (.bootImageWrite q slot marver bi) q 0xD007 (.err .busy) id s :=
  .of_kilak exec_bootImageWrite rfl (by simp [bootImageWrite, Nat.not_le.2 hs, hok, Nat.not_lt.2 hlen, hb, deny])

theorem bootImageWrite_limit (hlen : bootLimit marver < bi.length + 80) :
    Replies (.bootImageWrite q slot marver bi) q 0xD007 (.err .limit) id s :=
  .of_kilak exec_bootImageWrite rfl (by simp [bootImageWrite, Nat.not_le.2 hs, hok, hlen, deny])

end

theorem bootImageWrite_badArg (h : 2 ≤ slot ∨ imageRefused bi (if marver then 2 else 1) = true) :
    Replies (.bootImageWrite q slot marver bi) q 0xD007 (.err .badArg) id s := by
  refine .of_kilak exec_bootImageWrite rfl ?_
  have hrefused : (decide (2 ≤ slot) || imageRefused bi (if marver then 2 else 1)) = true := by simpa using h
  simp only [bootImageWrite, hrefused, if_true, deny, id]

theorem bootImageStatus_replies : Replies (.bootImageStatus q) q 0xD008 (.vals (bootVals s.opt 0 false
    ++ bootVals s.opt 1 false ++ bootVals s.opt 0 true ++ bootVals s.opt 1 true)) id s :=
  .of_kilak exec_bootImageStatus rfl (by simp only [openCmd_opt, doneWith, id])

end Sys2Proof.Machine
end

section
/-! PROOF. The statement on the option store and the boot slots. -/

open Sys2Proof Sys2Proof.Machine

/-- Settles O24: each command and the end of a write by the lemma on its case. -/
theorem optionStoreAndBootSlots : Obligations.OptionStoreAndBootSlots := by
  intro s q c b marver img bi n slot
  refine ⟨optionImageRead_replies, optionImageWrite_begins, optionImageWrite_badArg, optionImageWrite_busy,
    fun ha hw => ?noWriter, fun ha hw => ?passes, fun ha hw hcopy => ?fails, annWaiting_noPlan,
    optionImageStatus_replies,
    fun hs hok => ⟨bootImageWrite_waits hs hok, bootImageWrite_busy hs hok, bootImageWrite_limit hs hok⟩,
    bootImageWrite_badArg, bootImageStatus_replies⟩
  case noWriter => rw [exec_optionStoreWriteDone ha, storeWriteDone_noWriter hw]
  case passes => rw [exec_optionStoreWriteDone ha, storeWriteDone_passes hw]
  case fails => rw [exec_optionStoreWriteDone ha, storeWriteDone_fails hw hcopy]

end

section
/-! SUPPORT. Power domains (R527). -/

namespace Sys2Proof.Machine

variable {s : State} {q c : Req} {d : Nat} {on : Bool}

theorem exec_domainPowerSet {allHbm : Bool} :
    exec (.domainPowerSet q d allHbm on) s = execDomainPowerSet q d allHbm on s := rfl

theorem exec_domainPowerUpDone (ha : Acts s 174) : exec (.domainPowerUpDone d) s = .next (domainUp d s) :=
  island_acts ha

/-- Of a switchable domain named alone only its own state decides. -/
theorem domainPowerSet_alone (h5 : 5 ≤ d) (h20 : d < 20) : domainPowerSet q d false on s =
    if s.pwr.upping.any fun e => e.1 == d then deny .busy s
    else if bit s.pwr.domains d == on then done s
    else if on then waits { s with pwr := { s.pwr with upping := s.pwr.upping ++ [(d, some q)] } }
    else if s.mayPowerOff d then done (powerOff [d] s)
    else deny .busy s := by
  have h24 : ¬ 24 ≤ d := by omega
  simp only [domainPowerSet, h24, Nat.not_lt.2 h5, Nat.not_le.2 h20, decide_false, Bool.and_false, Bool.false_eq_true,
    if_false, List.headD_cons]

section
variable (h5 : 5 ≤ d) (h20 : d < 20)
include h5 h20

theorem domainPowerSet_upping (hu : s.pwr.upping.any (·.1 == d) = true) :
    Replies (.domainPowerSet q d false on) q 0xD001 (.err .busy) id s :=
  .of_kilak exec_domainPowerSet rfl (by simp only [domainPowerSet_alone h5 h20, openCmd_pwr, hu, if_true, deny, id])

variable (hu : s.pwr.upping.any (·.1 == d) = false)
include hu

theorem domainPowerSet_same (hon : bit s.pwr.domains d = on) :
    Replies (.domainPowerSet q d false on) q 0xD001 .ok id s :=
  .of_kilak exec_domainPowerSet rfl (by simp only [domainPowerSet_alone h5 h20, openCmd_pwr, hu, hon, beq_self_eq_true,
    Bool.false_eq_true, if_false, if_true, done, id])

theorem domainPowerSet_on (hoff : bit s.pwr.domains d = false) : Waits (.domainPowerSet q d false true) q 0xD001
    (fun u => { u with pwr := { u.pwr with upping := u.pwr.upping ++ [(d, some q)] } }) s :=
  .of_kilak exec_domainPowerSet rfl (by simp [domainPowerSet_alone h5 h20, hu, hoff, waits])

variable (hon : bit s.pwr.domains d = true)
include hon

theorem domainPowerSet_off (hmay : (openCmd q 0xD001 s).mayPowerOff d = true) :
    Replies (.domainPowerSet q d false false) q 0xD001 .ok (powerOff [d]) s :=
  .of_kilak exec_domainPowerSet rfl (by simp [domainPowerSet_alone h5 h20, hu, hon, hmay, done])

theorem domainPowerSet_inUse (hmay : (openCmd q 0xD001 s).mayPowerOff d = false) :
    Replies (.domainPowerSet q d false false) q 0xD001 (.err .busy) id s :=
  .of_kilak exec_domainPowerSet rfl (by simp [domainPowerSet_alone h5 h20, hu, hon, hmay, deny])

end

/-- The HBM domains go off together when no page is in use. -/
theorem domainPowerSet_hbmOff (hu : s.pwr.upping.any (·.1 == 20) = false) (hon : bit s.pwr.domains 20 = true)
    (hpages : s.pool.pages = []) : Replies (.domainPowerSet q d true false) q 0xD001 .ok (powerOff [20, 21, 22, 23]) s :=
  .of_kilak exec_domainPowerSet rfl (by simp [domainPowerSet, State.mayPowerOff, hu, hon, hpages, done])

theorem domainPowerSet_fixed (h : d < 5) : Replies (.domainPowerSet q d false on) q 0xD001 (.err .denied) id s :=
  .of_kilak exec_domainPowerSet rfl (by simp [domainPowerSet, h, show ¬ 24 ≤ d by omega, deny])

/-- An HBM domain named alone, or a number that names none, is refused alike. -/
theorem domainPowerSet_notAlone (h : 20 ≤ d) : Replies (.domainPowerSet q d false on) q 0xD001 (.err .badArg) id s :=
  .of_kilak exec_domainPowerSet rfl (by simp [domainPowerSet, h, show ¬ d < 5 by omega, deny])

theorem domainUp_completes (h20 : d < 20) (hfind : s.pwr.upping.find? (·.1 == d) = some (d, some c))
    (hoff : bit s.pwr.domains d = false) : domainUp d s = complete c 0xD001 .ok
      ((domainBlks d).foldl (fun u b => rebuildBlock (resetOf b none u) u) { s with pwr := { s.pwr with
        upping := s.pwr.upping.filter fun x => x.1 != d, domains := s.pwr.domains + 2 ^ d } }) := by
  simp [domainUp, hfind, hoff, h20.ne, completeOpt]

end Sys2Proof.Machine
end

section
/-! PROOF. The statement on the power domains. -/

open Sys2Proof Sys2Proof.Machine

/-- Settles O11: the command by the domain's number and state, the power-up's end by the command that waits. -/
theorem domainsSwitchOnAndOff : Obligations.DomainsSwitchOnAndOff := by
  intro s q c d _ on
  refine ⟨fun h5 h20 hu => ⟨domainPowerSet_same h5 h20 hu, domainPowerSet_on h5 h20 hu,
      domainPowerSet_off h5 h20 hu, domainPowerSet_inUse h5 h20 hu⟩, domainPowerSet_hbmOff, domainPowerSet_fixed,
    domainPowerSet_notAlone, domainPowerSet_upping, fun ha h20 hfind hoff => ?_⟩
  rw [exec_domainPowerUpDone ha, domainUp_completes h20 hfind hoff]

end

section
/-! SUPPORT. What every reset source does (R505, R507 to R509). -/

namespace Sys2Proof.Machine

variable {s t u : State} {src : ResetSource}

/-- What no step of a fold changes is at its end as it was at its start. -/
theorem foldl_keeps {α β γ : Type} {f : β → α → β} (g : β → γ) (h : ∀ b a, g (f b a) = g b) (l : List α) (b : β) :
    g (l.foldl f b) = g b := by
  induction l generalizing b with
  | nil => rfl
  | cons a l ih => rw [List.foldl_cons, ih, h]

/-- The reset controller after a source has asserted its reset. -/
def RstS.assert (r : RstS) (src : ResetSource) : RstS :=
  let reach := max r.reach (srcReach src)
  let cause := if srcReach src = 3 && r.reach != 3 then 0 else r.cause
  { asserted := if r.asserted.contains src then r.asserted else r.asserted ++ [src]
    phase := .asserted, reach := reach, cause := causeSeen cause (srcBit src)
    strapDue := r.strapDue || srcReach src == 3
    held := if reach = 1 then r.held.filter fun b => !coreReaches b else []
    blocks := if reach = 1 then (r.blocks.filter fun x => !coreReaches x.block).map fun x => { x with cmd := none } else []
    wdtCores := if reach = 1 then r.wdtCores else [] }

theorem assertReset_eq : assertReset src s =
    let r := s.rst.assert src
    { (if r.reach = 1 then resetCore { s with rst := r } else resetWide (r.reach == 3) { s with rst := r }) with
      rst := r } := rfl

theorem RstS.mem_assert (r : RstS) : src ∈ (r.assert src).asserted := by
  dsimp only [assert]
  split
  · exact List.contains_iff_mem.1 ‹_›
  · exact List.mem_append_right _ (List.mem_singleton_self src)

/-- A core reset starts Bexed again with its rings disabled; the clocks go on. -/
theorem resetCore_host : (resetCore s).clk = s.clk ∧ (resetCore s).host.bexedReady = false
    ∧ (resetCore s).host.port0.enable = false ∧ (resetCore s).host.port1.enable = false := by
  unfold resetCore
  extract_lets x ke par up _ _ r gs
  have hclk : x.clk = s.clk :=
    (clearWindows_frame (stopLight_frame (withdrawClaims_frame (interruptWrite_frame (Frame.rfl' s))))).clk
  clear_value x
  have hkeep : ∀ (u : State) g, (setParam 0x3022 g (u.rtdPpm g) u).clk = u.clk
      ∧ (setParam 0x3022 g (u.rtdPpm g) u).host = u.host := fun _ _ => ⟨rfl, rfl⟩
  rw [foldl_keeps State.clk fun u g => (hkeep u g).1, foldl_keeps State.host fun u g => (hkeep u g).2]
  exact ⟨hclk, rfl, rfl, rfl⟩

/-- Reset of a source that meets s: the states differ from s in no more than what the reset reaches. -/
theorem assertReset_resetBy : ResetBy src s (assertReset src s) := by
  have hpending : (assertReset src s).pending = s.pending := assertReset_keep.pending
  rw [assertReset_eq] at hpending ⊢
  dsimp only at hpending ⊢
  by_cases hreach : (s.rst.assert src).reach = 1
  · rw [if_pos hreach] at hpending ⊢
    obtain ⟨hclk, hready, henable0, henable1⟩ := @resetCore_host { s with rst := s.rst.assert src }
    exact ⟨rfl, rfl, s.rst.mem_assert, rfl, hpending, congrArg (·.now) hclk, hready, henable0, henable1,
      fun hwide => absurd hreach (Nat.ne_of_gt hwide)⟩
  · rw [if_neg hreach] at hpending ⊢
    have hclk := (interruptWrite_frame (Frame.rfl' { s with rst := s.rst.assert src })).clk
    exact ⟨rfl, rfl, s.rst.mem_assert, rfl, hpending, congrArg (·.now) hclk, rfl, rfl, rfl,
      fun _ => ⟨rfl, rfl, rfl, rfl, rfl, rfl, rfl, rfl, rfl, rfl, rfl, rfl, rfl⟩⟩

/-- The reset of a state that differs from s in neither its controller nor its queue and clocks is a reset of s. -/
theorem ResetBy.of_same (h : ResetBy src u t) (hrst : u.rst = s.rst) (hpending : u.pending = s.pending)
    (hclk : u.clk = s.clk) : ResetBy src s t := by
  unfold ResetBy at h ⊢
  rwa [hrst, hpending, hclk] at h

theorem ResetBy.setWdtCores (h : ResetBy src s t) (l : List Nat) :
    ResetBy src s { t with rst := { t.rst with wdtCores := l } } := h

/-! ### The sources -/

theorem brownOut_mainRail {rail : Rail} (hao : rail ≠ .vddAo) (hamp : rail ≠ .vddAmp) :
    brownOut rail s = assertReset .brownOut s := by
  unfold brownOut
  split
  · exact absurd rfl hao
  · exact absurd rfl hamp
  · rfl

theorem resetNLow_honoured {n : Nat} (h : 1000 ≤ n) : resetNLow n s = assertReset .resetN s := by
  rw [resetNLow, if_neg (by omega), if_pos h]

theorem resetNLow_ignored {n : Nat} (h : n < 200) : resetNLow n s = s := if_pos h

theorem exec_resetReqCore {v : Reg} (hp : PortUp s 0) (hv : reqLevel v = 1) :
    exec (.resetReqCore v) s = .next (assertReset .reqCore s) := by
  change execResetReqCore v s = _
  rw [execResetReqCore, regAccess_up hp, if_pos hv]

theorem exec_resetReqSystem {v : Reg} (hp : PortUp s 0) (hv : reqLevel v = 2) :
    exec (.resetReqSystem v) s = .next (assertReset .reqSystem s) := by
  change execResetReqSystem v s = _
  rw [execResetReqSystem, regAccess_up hp, if_pos hv]

@[simp] theorem checkpoint_rst : (checkpoint s).rst = s.rst := rfl

/-- Ampoule's checkpoint where Ampoule runs. -/
def checkpointed (s : State) : State := if s.islandUp 173 && !s.undefinedBlk 173 then checkpoint s else s

theorem checkpointed_frame : Frame s (checkpointed s) := .ite (checkpoint_frame (.rfl' s)) (.rfl' s)

theorem checkpointed_rst : (checkpointed s).rst = s.rst := by
  unfold checkpointed
  split <;> rfl

theorem exec_deviceReset {q : Req} : exec (.deviceReset q) s = execDeviceReset q s := rfl

theorem exec_coreReset {q : Req} : exec (.coreReset q) s = execCoreReset q s := rfl

theorem deviceReset_waits {q : Req} :
    Waits (.deviceReset q) q 0x0002 (fun u => assertReset .devCmd (checkpointed u)) s :=
  .of_kilak exec_deviceReset rfl rfl

theorem coreReset_waits {q : Req} : Waits (.coreReset q) q 0x0003 (assertReset .coreCmd) s :=
  .of_kilak exec_coreReset rfl rfl

theorem bexedWatchdog_ready (h : s.host.bexedReady = true) : bexedWatchdog s =
    let t := assertReset .bexedWdt s
    { t with rst := { t.rst with wdtCores := if t.rst.reach = 1 then
        t.clk.now :: t.rst.wdtCores.filter fun x => decide (t.clk.now < x + secT 60) else [] } } := by
  simp [bexedWatchdog, h]

theorem deviceWatchdog_due (h : s.due s.rst.devWdt = true) : deviceWatchdog s = assertReset .wdt s := by
  simp [deviceWatchdog, h]

end Sys2Proof.Machine
end

section
/-! PROOF. The statement on the reset sources. -/

open Sys2Proof Sys2Proof.Machine

/-- Settles O7: each source asserts its reset; those that a command brings, on the state that has it open. -/
theorem resetSourcesAssertTheirReset : Obligations.ResetSourcesAssertTheirReset := by
  intro s q v lowNs
  refine ⟨⟨_, rfl, assertReset_resetBy⟩, fun rail hao hamp => ?brownOut, fun h => ?resetN,
    fun h => congrArg Host.Outcome.next (resetNLow_ignored h), ⟨_, rfl, assertReset_resetBy⟩,
    fun hp hv => ⟨_, exec_resetReqCore hp hv, assertReset_resetBy⟩,
    fun hp hv => ⟨_, exec_resetReqSystem hp hv, assertReset_resetBy⟩, fun hs => ?device, fun hs => ?core,
    fun h => ?bexedWatchdog, fun h => ?deviceWatchdog⟩
  case brownOut => exact ⟨_, congrArg Host.Outcome.next (brownOut_mainRail hao hamp), assertReset_resetBy⟩
  case resetN => exact ⟨_, congrArg Host.Outcome.next (resetNLow_honoured h), assertReset_resetBy⟩
  case device =>
    refine ⟨_, deviceReset_waits hs, assertReset_resetBy.of_same ?_ ?_ ?_⟩
    · rw [checkpointed_rst, openCmd_rst]
    · rw [checkpointed_frame.pending, openCmd_pending]
    · rw [checkpointed_frame.clk, openCmd_clk]
  case core =>
    exact ⟨_, coreReset_waits hs, assertReset_resetBy.of_same (openCmd_rst ..) (openCmd_pending ..) (openCmd_clk ..)⟩
  case bexedWatchdog => exact ⟨_, congrArg Host.Outcome.next (bexedWatchdog_ready h), assertReset_resetBy.setWdtCores _⟩
  case deviceWatchdog => exact ⟨_, congrArg Host.Outcome.next (deviceWatchdog_due h), assertReset_resetBy⟩

end

section
/-! SUPPORT. The release sequence, step by step (R509, R510, R512, R513, R520, R521, R523, R567). -/

namespace Sys2Proof.Machine

variable {s : State} {src : ResetSource} {v : Reg} {n : Nat}

theorem exec_optionCommit (ha : Acts s 179) : exec .optionCommit s = .next (optionCommit s) := island_acts ha

theorem exec_ampRailRestart (ha : Acts s 173) : exec .ampRailRestart s = .next (newRun true s) := island_acts ha

theorem exec_resetCauseClear {meet : List ResetSource} (hp : PortUp s 0) :
    exec (.resetCauseClear ⟨v, meet⟩) s = .next { s with
      rst := { s.rst with cause := meet.foldl (fun c x => causeSeen c (srcBit x)) (causeClear s.rst.cause v) } } :=
  show execResetCauseClear _ s = _ from regAccess_up hp

/-! ### Sources and straps -/

section
variable (hin : s.rst.asserted.contains src = true)
include hin

theorem sourceRelease_last (hleft : s.rst.asserted.filter (· != src) = []) : sourceRelease src s = { s with
    rst := { s.rst with asserted := [], phase := .clocksCheck, checkEnd := s.clk.now + msT 10 }
    pwr := if 2 ≤ s.rst.reach then { s.pwr with domains := 2 ^ 24 - 1 } else s.pwr } := by
  simp only [sourceRelease, hin, hleft, Bool.not_true, Bool.false_eq_true, if_false, List.isEmpty_nil, if_true]

theorem sourceRelease_earlier (hleft : s.rst.asserted.filter (· != src) ≠ []) : sourceRelease src s = { s with
    rst := { s.rst with asserted := s.rst.asserted.filter (· != src) } } := by
  simp only [sourceRelease, hin, List.isEmpty_eq_false_iff.2 hleft, Bool.not_true, Bool.false_eq_true, if_false]

end

theorem strapSample_taken (hdue : s.rst.strapDue = true)
    (hreleased : (s.rst.asserted.all fun x => srcReach x != 3) = true) : strapSample n s = { s with
      opt := { s.opt with unitId := n % 8 }, rst := { s.rst with strapDue := false } } := by
  simp only [strapSample, hdue, hreleased, Bool.and_self, if_true]

/-! ### The clocks-present check with every clock present -/

theorem checkDone_allPresent (hphase : s.rst.phase = .clocksCheck) (hstrap : s.rst.strapDue = false) :
    checkDone [] s = let u := { s with flt := { s.flt with alive := !s.classF } }
      if 2 ≤ s.rst.reach then newRun false (loaderWaits { u with rst := { s.rst with phase := .optionLoad } })
      else drawAllXts { u with rst := { s.rst with phase := .bootLoad, devWdt := some (s.clk.now + secT 2) } } := by
  simp only [checkDone, hphase, hstrap, bne_self_eq_false, Bool.false_or, List.isEmpty_nil, Bool.not_true,
    Bool.false_and, Bool.false_eq_true, if_false, List.filter_nil, List.append_nil, List.foldl_nil]
  rfl

/-! ### Options, HBM, boot -/

theorem optionCommit_engineHeld (ho : s.cip.ke.owner = 1 ∨ s.cip.ke.owner = 2) : optionCommit s = s := by
  rcases ho with ho | ho <;> simp [optionCommit, ho]

/-- A valid copy A comes in force, once the loader has the Key Engine. -/
theorem optionCommit_copyA (hphase : s.rst.phase = .optionLoad) (h1 : s.cip.ke.owner ≠ 1) (h2 : s.cip.ke.owner ≠ 2)
    (hok : optFail true s.opt.copyA = 0) : optionCommit s =
      powerDown (optDomains s.opt.copyA.domains) (s.opt.copyA.presets.foldl (fun s p => applyPreset p s)
        { cu3Ran (crcOctets s.opt.copyA) (loaderDone s) with
          opt := { s.opt with cur := s.opt.copyA, copy := 0, failA := 0, failB := 0, fallbackDue := false }
          pwr := { s.pwr with capW := s.opt.copyA.capW, capStageMax := s.opt.copyA.capStageMax }
          ann := { s.ann with plan := s.opt.copyA.plan }
          rst := { s.rst with phase := .hbmTraining } }) := by
  simp only [optionCommit, hphase, h1, h2, hok, bne_self_eq_false, decide_false, Bool.or_self, Bool.false_eq_true,
    if_false, if_true, copyInvalid]
  rfl

theorem trainingDone_boots (hphase : s.rst.phase = .hbmTraining) : trainingDone s = drawAllXts { s with
    rst := { s.rst with phase := .bootLoad, devWdt := some (s.clk.now + secT 2) }
    pool := { s.pool with modeInForce := s.paramN 0x8000 0 } } := by
  simp only [trainingDone, hphase, bne_self_eq_false, Bool.false_eq_true, if_false]

/-- The wanted slot verifies: Bexed and the Marver cores start on its images. -/
theorem bootDone_wanted (hphase : s.rst.phase = .bootLoad) (hok : s.opt.bootFail s.opt.cur.bootSlot = 0)
    (hslot : s.opt.cur.bootSlot ≠ 2) : bootDone s = bexedReady { s with
      opt := { s.opt with booted := s.opt.cur.bootSlot }
      host := { s.host with romMode := false, running := true, image := s.opt.boot s.opt.cur.bootSlot false }
      map := { s.map with core :=
        (List.range 64).map fun k => (k, { active := s.opt.boot s.opt.cur.bootSlot true }) } } := by
  simp only [bootDone, hphase, hok, hslot, bne_self_eq_false, Bool.false_eq_true, if_false, if_true]

end Sys2Proof.Machine
end

section
/-! PROOF. The statement on the release sequence. -/

open Sys2Proof Sys2Proof.Machine

/-- Settles O8: each step of the release by the lemma on its case. -/
theorem releaseSequenceAdvances : Obligations.ReleaseSequenceAdvances := by
  intro s src v n
  refine ⟨fun hin hleft => congrArg Host.Outcome.next (sourceRelease_last hin hleft),
    fun hin hleft => congrArg Host.Outcome.next (sourceRelease_earlier hin hleft),
    fun hdue hreleased => congrArg Host.Outcome.next (strapSample_taken hdue hreleased),
    fun hphase hstrap hreach => ?checkWide, fun hphase hstrap hreach => ?checkCore, fun ha _ ho => ?engineHeld,
    fun ha hphase h1 h2 hok => ⟨⟨rfl, rfl, rfl⟩, ?copyA⟩, fun hphase => congrArg Host.Outcome.next (trainingDone_boots hphase),
    fun hphase hok hslot => congrArg Host.Outcome.next (bootDone_wanted hphase hok hslot), fun hp _ => exec_resetCauseClear hp,
    exec_ampRailRestart⟩
  case checkWide => exact congrArg Host.Outcome.next ((checkDone_allPresent hphase hstrap).trans (if_pos hreach))
  case checkCore => exact congrArg Host.Outcome.next ((checkDone_allPresent hphase hstrap).trans (if_neg (by omega)))
  case engineHeld => rw [exec_optionCommit ha, optionCommit_engineHeld ho]
  case copyA => rw [exec_optionCommit ha, optionCommit_copyA hphase h1 h2 hok]

end

section
/-! SUPPORT. Kilak ring control, doorbells, the fetch of a command, head writes and interrupt holdoff (R474 to R476,
R482, R486, R488). -/

namespace Sys2Proof.Machine

variable {s : State} {p r t : Nat} {v : Reg} {d : CmdDesc} {k : KlPort} {meet : Bool}

/-! ### Registers of a presented port -/

/-- Changes that agree on the registers as they stand have one outcome. -/
theorem next_onPort_congr {o : Host.Outcome State Fault Refusal} {f g : KlPort → KlPort}
    (ho : o = .next (onPort p f s)) (h : f (s.host.port p) = g (s.host.port p)) : o = .next (onPort p g s) := by
  simp only [ho, onPort, h]

section
variable (hp : PortUp s p)
include hp

theorem exec_klRingEnable : exec (.klRingEnable p) s = .next (onPort p KlPort.setEnable s) := regAccess_up hp

theorem exec_klRingDisable : exec (.klRingDisable p) s = .next (onPort p KlPort.clearEnable s) := regAccess_up hp

theorem exec_klCmdDoorbell : exec (.klCmdDoorbell p v) s = .next (onPort p (·.doorbell v.toNat) s) :=
  regAccess_up hp

theorem exec_klCplHeadWrite : exec (.klCplHeadWrite p v) s = .next (onPort p (·.cplHeadWrite v.toNat) s) :=
  regAccess_up hp

theorem exec_klEvtHeadWrite : exec (.klEvtHeadWrite p v) s = .next (onPort p (·.evtHeadWrite v.toNat) s) :=
  regAccess_up hp

theorem exec_klEvtLostRead : exec (.klEvtLostRead p meet) s = .next { s with
    host := { s.host.setPort p { s.host.port p with
      evtLost := flag meet, lostFlag := (s.host.port p).lostFlag || meet } with rdData := (s.host.port p).evtLost } } :=
  show execKlEvtLostRead p meet s = _ from regAccess_up hp

end

theorem exec_bar0BadAccess {write : Bool} (hp : PortUp s 0) : exec (.bar0BadAccess write) s =
    .next (if write then bump .pcieBadAccess 0 s else s) :=
  show execBar0BadAccess write s = _ from regAccess_up hp

/-! ### KL_CTRL and the doorbell -/

theorem KlPort.setEnable_enabled (he : k.enable = true) : k.setEnable = k := if_pos he

theorem KlPort.setEnable_badCfg (he : k.enable = false) (hc : k.cfgOk = false) :
    k.setEnable = { k with cfgErr := true } := by
  simp [setEnable, he, hc]

theorem KlPort.setEnable_goodCfg (he : k.enable = false) (hc : k.cfgOk = true) : k.setEnable = { k with
    enable := true, cmdErr := false, cfgErr := false, headErr := false, cmdTail := 0, cmdHead := 0, cplHead := 0
    cplTail := 0, cplPhase := true, evtHead := 0, evtTail := 0, evtPhase := true, cpl := [], evt := []
    cplIrq := { k.cplIrq with count := 0, deadline := none }
    evtIrq := { k.evtIrq with count := 0, deadline := none } } := by
  simp [setEnable, he, hc]

theorem KlPort.doorbell_disabled (he : k.enable = false) : k.doorbell t = { k with cmdTail := t } := by
  simp [doorbell, he]

theorem KlPort.doorbell_beyond (he : k.enable = true) (ht : 2 ^ k.cmdSize ≤ t) :
    k.doorbell t = { k with cmdTail := t, cmdErr := true } := by
  simp [doorbell, he, ringLen, ht]

/-- A tail in the ring that does not pass the head. -/
theorem KlPort.doorbell_inRing (ht : t < 2 ^ k.cmdSize) (hpass : (t + 2 ^ k.cmdSize - k.cmdTail) % 2 ^ k.cmdSize
      ≤ (k.cmdHead + 2 ^ k.cmdSize - k.cmdTail + 2 ^ k.cmdSize - 1) % 2 ^ k.cmdSize) :
    k.doorbell t = { k with cmdTail := t } := by
  simp [doorbell, ringLen, Nat.not_le.2 ht, Nat.not_lt.2 hpass]

/-! ### The fetch of a command -/

theorem exec_klCommandFetch (ha : Acts s 104) : exec (.klCommandFetch p d) s = .next (fetchCmd p d s) :=
  island_acts ha

/-- The command at the head of the ring is in progress. -/
def fetched (p : Nat) (d : CmdDesc) : State → State := onPort p fun k => { k with
  cmdHead := (k.cmdHead + 1) % 2 ^ k.cmdSize
  inProg := k.inProg ++ [{ tag := d.tag, op := d.opcode, irq := d.irq, resCap := d.resCap }] }

theorem fetchCmd_cannot (hc : s.canFetch p d.fence = false) : fetchCmd p d s = s := by
  simp [fetchCmd, hc]

section
variable (hc : s.canFetch p d.fence = true)
include hc

theorem fetchCmd_eq : fetchCmd p d s =
    let q : Req := { port := p, tag := d.tag, resCap := d.resCap }
    if !d.reservedOk then complete q d.opcode (.err .badOpcode) (fetched p d s)
    else if d.opcode / 4096 = 15 then complete q d.opcode (.err .denied) (fetched p d s)
    else if !knownOp d.opcode then complete q d.opcode (.err .badOpcode) (fetched p d s)
    else fetched p d s := by
  simp only [fetchCmd, hc, Bool.not_true, Bool.false_eq_true, if_false]
  rfl

theorem fetchCmd_known (hr : d.reservedOk = true) (hs : d.opcode / 4096 ≠ 15) (hk : knownOp d.opcode = true) :
    fetchCmd p d s = fetched p d s := by
  simp [fetchCmd_eq hc, hr, hs, hk]

theorem fetchCmd_badOpcode (h : d.reservedOk = false ∨ (d.opcode / 4096 ≠ 15 ∧ knownOp d.opcode = false)) :
    fetchCmd p d s = complete { port := p, tag := d.tag, resCap := d.resCap } d.opcode (.err .badOpcode)
      (fetched p d s) := by
  rw [fetchCmd_eq hc]
  rcases h with hr | ⟨hs, hk⟩
  · simp [hr]
  · simp [hs, hk]

theorem fetchCmd_denied (hr : d.reservedOk = true) (hs : d.opcode / 4096 = 15) :
    fetchCmd p d s = complete { port := p, tag := d.tag, resCap := d.resCap } d.opcode (.err .denied)
      (fetched p d s) := by
  simp [fetchCmd_eq hc, hr, hs]

end

/-! ### Head writes -/

theorem KlPort.cplHeadWrite_inRing (h : t < 2 ^ k.cplSize) : k.cplHeadWrite t = { k with
    cplHead := t, cpl := k.cpl.drop ((t + 2 ^ k.cplSize - k.cplHead) % 2 ^ k.cplSize) } :=
  if_neg (Nat.not_le.2 h)

theorem KlPort.cplHeadWrite_beyond (h : 2 ^ k.cplSize ≤ t) : k.cplHeadWrite t = { k with headErr := true } :=
  if_pos h

theorem KlPort.evtHeadWrite_inRing (h : t < 2 ^ k.evtSize) : k.evtHeadWrite t = { k with
    evtHead := t, evt := k.evt.drop ((t + 2 ^ k.evtSize - k.evtHead) % 2 ^ k.evtSize) } :=
  if_neg (Nat.not_le.2 h)

theorem KlPort.evtHeadWrite_beyond (h : 2 ^ k.evtSize ≤ t) : k.evtHeadWrite t = { k with headErr := true } :=
  if_pos h

@[simp] theorem HostS.port_setPort (h : HostS) (p : Nat) (k : KlPort) : (h.setPort p k).port p = k := by
  unfold port setPort
  split <;> rfl

/-! ### Holdoff -/

theorem exec_irqHoldoffExpiry {src : Nat} (ha : Acts s (pcieBlk (if src ≤ 1 then r else s.ringPort r))) :
    exec (.irqHoldoffExpiry src r) s = .next (holdoffExpiry src r s) := island_acts ha

theorem holdoffExpiry_cpl (h : (s.host.port p).cplIrq.expired s.clk.now = true) : holdoffExpiry 0 p s = { s with
    host := (s.host.setPort p { s.host.port p with cplIrq := (s.host.port p).cplIrq.clear }).signal p 0 512 } :=
  if_pos h

theorem holdoffExpiry_cpl_notDue (h : (s.host.port p).cplIrq.expired s.clk.now = false) : holdoffExpiry 0 p s = s :=
  if_neg (Bool.eq_false_iff.1 h)

theorem holdoffExpiry_evt (h : (s.host.port p).evtIrq.expired s.clk.now = true) : holdoffExpiry 1 p s = { s with
    host := (s.host.setPort p { s.host.port p with evtIrq := (s.host.port p).evtIrq.clear }).signal p 0 513 } :=
  if_pos h

theorem holdoffExpiry_punt (h : (Tab.getD s.host.punt r {}).irq.expired s.clk.now = true) :
    holdoffExpiry 2 r s = { s with host := { s.host with
      punt := Tab.upd s.host.punt r {} fun x => { x with irq := x.irq.clear } }.signal (s.ringPort r) 1 r } :=
  if_pos h

theorem holdoffExpiry_inject (h : (Tab.getD s.host.inject r {}).irq.expired s.clk.now = true) :
    holdoffExpiry 3 r s = { s with host := { s.host with
      inject := Tab.upd s.host.inject r {} fun x => { x with irq := x.irq.clear } }.signal (s.ringPort r) 1 (32 + r) } :=
  if_pos h

end Sys2Proof.Machine
end

section
/-! PROOF. The statements on the Kilak rings' registers. -/

open Sys2Proof Sys2Proof.Machine

/-- Settles O12: each register write and the fetch by the lemma on its case. -/
theorem kilakRingControlAndFetch : Obligations.KilakRingControlAndFetch := by
  intro s p tail d
  refine ⟨fun hp => ⟨fun he hc => ?enable, fun he hc => ?badCfg, fun he => ?enabled, exec_klRingDisable hp,
      fun he => ?disabled, fun he ht => ?beyond, fun ht hpass => ?inRing⟩,
    fun ha => ⟨fun hc => ?cannot, fun hc hr hs hk => ?known, fun hc h => ?badOpcode, fun hc hr hs => ?denied⟩⟩
  case enable => exact next_onPort_congr (exec_klRingEnable hp) (KlPort.setEnable_goodCfg he hc)
  case badCfg => exact next_onPort_congr (exec_klRingEnable hp) (KlPort.setEnable_badCfg he hc)
  case enabled => exact next_onPort_congr (exec_klRingEnable hp) (KlPort.setEnable_enabled he)
  case disabled => exact next_onPort_congr (exec_klCmdDoorbell hp) (KlPort.doorbell_disabled he)
  case beyond => exact next_onPort_congr (exec_klCmdDoorbell hp) (KlPort.doorbell_beyond he ht)
  case inRing => exact next_onPort_congr (exec_klCmdDoorbell hp) (KlPort.doorbell_inRing ht hpass)
  case cannot => rw [exec_klCommandFetch ha, fetchCmd_cannot hc]
  case known => rw [exec_klCommandFetch ha, fetchCmd_known hc hr hs hk, fetched]
  case badOpcode => rw [exec_klCommandFetch ha, fetchCmd_badOpcode hc h, fetched]
  case denied => rw [exec_klCommandFetch ha, fetchCmd_denied hc hr hs, fetched]

/-- Settles O13: each register access and the end of a holdoff by the lemma on its case. -/
theorem kilakHeadsLossAndHoldoff : Obligations.KilakHeadsLossAndHoldoff := by
  intro s p v meet _ r
  refine ⟨fun hp => ⟨fun h => ?cplHead, fun h => ?cplBeyond, fun h => ?evtHead, fun h => ?evtBeyond, ?lost⟩,
    fun hp => ⟨exec_bar0BadAccess hp, exec_bar0BadAccess hp⟩,
    fun ha => ⟨fun h => ?cplDue, fun h => ?evtDue, fun h => ?cplNotDue⟩, fun ha => ⟨fun h => ?punt, fun h => ?inject⟩⟩
  case cplHead => exact next_onPort_congr (exec_klCplHeadWrite hp) (KlPort.cplHeadWrite_inRing h)
  case cplBeyond => exact next_onPort_congr (exec_klCplHeadWrite hp) (KlPort.cplHeadWrite_beyond h)
  case evtHead => exact next_onPort_congr (exec_klEvtHeadWrite hp) (KlPort.evtHeadWrite_inRing h)
  case evtBeyond => exact next_onPort_congr (exec_klEvtHeadWrite hp) (KlPort.evtHeadWrite_beyond h)
  case lost =>
    have hport : ({ s.host.setPort p { s.host.port p with
        evtLost := flag meet, lostFlag := (s.host.port p).lostFlag || meet } with
        rdData := (s.host.port p).evtLost } : HostS).port p = { s.host.port p with
          evtLost := flag meet, lostFlag := (s.host.port p).lostFlag || meet } := HostS.port_setPort ..
    exact ⟨_, exec_klEvtLostRead hp, rfl, congrArg (·.evtLost) hport, congrArg (·.lostFlag) hport,
      congrArg (·.evt) hport, rfl⟩
  case cplDue => rw [exec_irqHoldoffExpiry (src := 0) ha, holdoffExpiry_cpl h]
  case evtDue => rw [exec_irqHoldoffExpiry (src := 1) ha, holdoffExpiry_evt h]
  case cplNotDue => rw [exec_irqHoldoffExpiry (src := 0) ha, holdoffExpiry_cpl_notDue h]
  case punt => rw [exec_irqHoldoffExpiry (src := 2) ha, holdoffExpiry_punt h]
  case inject => rw [exec_irqHoldoffExpiry (src := 3) ha, holdoffExpiry_inject h]

end

section
/-! SUPPORT. A packet with an uncorrectable cell on its way to a punt ring that has a buffer for it (R301, R497). -/

namespace Sys2Proof.Machine

/-- A punt of 64 octets for ring 3, held in cell 0. -/
def spoiledPunt : Punt :=
  { ring := 3, octets := List.replicate 64 0, reason := 0x80, dir := 1, sourceKind := 1, source := 0, ltb := 0, gem := 9
    tc := 0, onu := none, chain := some 0 }

/-- Ring 3 with one buffer posted. -/
def oneBuffer : Pf1Ring := { enable := true, size := 6, tail := 1, bufLog2 := 11 }

/-- A device that is up, its pipeline 0 with that punt, cell 0 with an uncorrectable error. -/
def spoiledState : State := { State.reset with
  rst := { State.reset.rst with asserted := [], phase := .released, reach := 0, strapDue := false }
  pwr := { State.reset.pwr with domains := 2 ^ 24 - 1 }
  host := { State.reset.host with puntQ := [(0, spoiledPunt)], punt := [(3, oneBuffer)] }
  pool := { State.reset.pool with
    cells := [(0, { next := 0, last := true, head := true, st := 1, holder := 52, owner := 0 })], bad := [0]
    chains := [(0, { cells := [0], octets := spoiledPunt.octets, hdr := { len := 64, cells := 1, dir := 1, srcKind := 1
                                                                          source := 0, srcHost := false, dest := none
                                                                          queue := 0, enqNs := 0 } })] } }

theorem exec_puntDelivery_spoiled : exec (.puntDelivery 0) spoiledState = .next (puntDelivery 0 spoiledState) := rfl

/-- The packet is dropped with POOL_ECC; its ring stays as it was. -/
theorem spoiled_ring_kept : Tab.get? (puntDelivery 0 spoiledState).host.punt 3 = some oneBuffer := rfl

end Sys2Proof.Machine
end

section
/-! PROOF. The statement on punt delivery. -/

open Sys2Proof Sys2Proof.Machine

/-- Refutes O15: a punt whose chain has a cell with an uncorrectable error is dropped (R301) where the statement asks for
its entry, although its ring is enabled and has a buffer that it fits. -/
theorem not_puntDeliveryAndInjection : ¬ Obligations.PuntDeliveryAndInjection := by
  intro h
  obtain ⟨-, -, hdelivered, -⟩ := h spoiledState 0 0 0 spoiledPunt []
  have hup : Acts spoiledState (sliceBlk 0 1) ∧ Acts spoiledState (pcieBlk (spoiledState.ringPort spoiledPunt.ring)) := by
    unfold Acts
    decide
  obtain ⟨t, y, ht, hy, hdone, -⟩ := (hdelivered hup.1 hup.2 rfl).1 rfl (by decide) (by decide)
  obtain rfl : puntDelivery 0 spoiledState = t := by
    rw [exec_puntDelivery_spoiled] at ht
    exact Host.Outcome.next.inj ht
  obtain rfl : oneBuffer = y := Option.some.inj (spoiled_ring_kept.symm.trans hy)
  exact absurd hdone (by decide)

end

section
/-! SUPPORT. The fields of PROT_STATUS's word and of DEV_STATUS, each read off the list the word is built of (R468, R478). -/

namespace Sys2Proof.Machine

variable {s : State} {q : Req} {t : Nat}

/-- A field of a word, by the bits it stands at. -/
theorem bits_fields {w v hi lo : Nat} (a b : List (Nat × Nat)) (hlo : widths b = lo) (hw : hi + 1 - lo = w) :
    bits (fields (a ++ (w, v) :: b)) hi lo = v % 2 ^ w := by
  subst hlo hw
  exact fields_at a _ v b

/-- A one-bit field of a word that a flag fills. -/
theorem bit_fields_flag {f : Bool} {lo : Nat} (a b : List (Nat × Nat)) (hlo : widths b = lo) :
    bit (fields (a ++ (1, flag f) :: b)) lo = f := by
  have h := fields_at a 1 (flag f) b
  rw [hlo] at h
  rw [bit, ← pow_one 2, ← pow_mul, one_mul, h]
  cases f <;> rfl

theorem ite_eq_flag {p : Prop} [Decidable p] : (if p then 1 else 0) = flag (decide p) := by
  by_cases h : p <;> simp [flag, h]

theorem protWord_reset : State.reset.protWord t = 0 := by
  have hg : State.reset.grp t = {} := rfl
  have hp : State.reset.peerHeard = false := rfl
  rw [State.protWord, hg, hp]
  rfl

/-- The fields of PROT_STATUS's word, from the top bit down. -/
def protFields (s : State) (t : Nat) : List (Nat × Nat) :=
  [(32, (s.grp t).claim), (3, (s.grp t).st.ctorIdx), (1, flag (s.grp t).held), (1, flag s.peerHeard), (2, (s.grp t).peerState),
    (1, flag s.prot.busFault), (1, flag (s.grp t).auditOk), (1, flag (s.grp t).digestOk), (22, (s.grp t).epochSeen)]

theorem protWord_eq : s.protWord t = fields (protFields s t) := rfl

theorem protFields_st : bits (fields (protFields s t)) 31 29 = (s.grp t).st.ctorIdx % 2 ^ 3 :=
  bits_fields [_] _ rfl rfl

/-- The fields of DEV_STATUS, from the top bit down. -/
def devFields (s : State) (p : Nat) : List (Nat × Nat) :=
  [(1, flag s.host.bexedReady), (1, flag s.ltbSet), (1, flag s.classF), (3, s.sagStage), (3, s.opt.unitId),
    (1, flag (decide (s.opt.copy = 1))), (1, flag (decide (s.opt.copy = 2))), (1, s.opt.cur.pcieMode), (1, p), (19, 0)]

theorem devStatus_eq (p : Nat) : s.devStatus p = fields (devFields s p) := by
  rw [State.devStatus, ite_eq_flag, ite_eq_flag, devFields]

theorem devStatus_reset : State.reset.devStatus 0 = 0 := rfl

theorem exec_protStatus : exec (.protStatus q t) s = execProtStatus q t s := rfl

theorem protStatus_answers (ht : t < 64) :
    Replies (.protStatus q t) q 0xC005 (.vals [.rcd 64 (s.protWord t)]) id s :=
  .of_kilak exec_protStatus rfl (by simp only [Nat.not_le.2 ht, if_false, openCmd_protWord, doneWith, id])

end Sys2Proof.Machine
end

section
/-! PROOF. O57. -/

open Sys2Proof Sys2Proof.Machine

/-- Settles O57: each field is what stands between the fields above it and those below it. -/
theorem protStatusAndDevStatusWords : Obligations.ProtStatusAndDevStatusWords := by
  intro s q t p
  have hbar : s.bar0 p 0x20 = some (s.devStatus p) := rfl
  refine ⟨protStatus_answers, ?_⟩
  rw [hbar, protWord_reset, devStatus_reset, protWord_eq, devStatus_eq]
  refine ⟨?_, ?_, ?_, ?_, ?_, ?_, ?_, ?_, ?_, fields_lt _, rfl, rfl, ?_, ?_, ?_, ?_, ?_, ?_, ?_, ?_, ?_, ?_, fields_lt _, rfl⟩
  · exact bits_fields [] _ rfl rfl
  · rw [protFields_st]
    cases (s.grp t).st <;> rfl
  · exact bit_fields_flag [_, _] _ rfl
  · exact bit_fields_flag [_, _, _] _ rfl
  · exact bits_fields [_, _, _, _] _ rfl rfl
  · exact bit_fields_flag [_, _, _, _, _] _ rfl
  · exact bit_fields_flag [_, _, _, _, _, _] _ rfl
  · exact bit_fields_flag [_, _, _, _, _, _, _] _ rfl
  · exact bits_fields [_, _, _, _, _, _, _, _] _ rfl rfl
  · exact bit_fields_flag [] _ rfl
  · exact bit_fields_flag [_] _ rfl
  · exact bit_fields_flag [_, _] _ rfl
  · exact bits_fields [_, _, _] _ rfl rfl
  · exact bits_fields [_, _, _, _] _ rfl rfl
  · exact bit_fields_flag [_, _, _, _, _] _ rfl
  · exact bit_fields_flag [_, _, _, _, _, _] _ rfl
  · exact bits_fields [_, _, _, _, _, _, _] _ rfl rfl
  · exact bits_fields [_, _, _, _, _, _, _, _] _ rfl rfl
  · exact bits_fields [_, _, _, _, _, _, _, _, _] [] rfl rfl

end

section
/-! SUPPORT. Parameters: what a read answers, what a set of one value does, the descriptors, and the limits that a
protected tree keeps (R171, R389, R440, R490 to R493). -/

namespace Sys2Proof.Machine

variable {s : State} {q : Req} {pid first count i t k g : Nat} {v : Int} {vs : List Int} {d n : PidDesc}

theorem exec_paramGet : exec (.paramGet q pid first count) s = execParamGet q pid first count s := rfl

theorem exec_paramSet : exec (.paramSet q pid first count vs) s = execParamSet q pid first count vs s := rfl

theorem exec_paramDescribe : exec (.paramDescribe q pid) s = execParamDescribe q pid s := rfl

theorem exec_paramNext : exec (.paramNext q pid) s = execParamNext q pid s := rfl

theorem exec_protEnable : exec (.protEnable q t) s = execProtEnable q t s := rfl

/-! ### A PID without a descriptor -/

section
variable (hd : pidDesc? pid = none)
include hd

theorem paramGet_notFound : Replies (.paramGet q pid first count) q 0x0005 (.err .notFound) id s :=
  .of_kilak exec_paramGet rfl (by simp only [paramGet, hd, deny, id])

theorem paramSet_notFound : Replies (.paramSet q pid first count vs) q 0x0006 (.err .notFound) id s :=
  .of_kilak exec_paramSet rfl (by simp only [paramSet, hd, deny, id])

theorem paramDescribe_notFound : Replies (.paramDescribe q pid) q 0x0007 (.err .notFound) id s :=
  .of_kilak exec_paramDescribe rfl (by simp only [hd, deny, id])

end

/-! ### A PID with descriptor d -/

section
variable (hd : pidDesc? pid = some d)
include hd

theorem paramGet_answers (h0 : 0 < count) (h1 : count ≤ 256) (h2 : first + count ≤ d.indexCount) :
    Replies (.paramGet q pid first count) q 0x0005
      (.vals [.lst d.octets ((List.range count).map fun k => signed (8 * d.octets) (s.paramValue pid (first + k)))])
      (afterRead pid first count) s :=
  .of_kilak exec_paramGet rfl (by
    have hc : (decide (count = 0) || decide (256 < count)) = false := by
      simp only [Bool.or_eq_false_iff, decide_eq_false_iff_not]
      omega
    simp only [paramGet, hd, hc, Bool.false_eq_true, if_false, Nat.not_lt.2 h2, openCmd_paramValue, doneWith])

theorem paramSet_denied (h0 : 0 < count) (h1 : count ≤ 256) (hl : vs.length = count) (ha : d.access ≠ 1) :
    Replies (.paramSet q pid first count vs) q 0x0006 (.err .denied) id s :=
  .of_kilak exec_paramSet rfl (by
    simp only [paramSet, hd, hl]
    simp [Nat.ne_of_gt h0, Nat.not_lt.2 h1, ha, deny])

/-- One value at an index that exists is tried by itself. -/
theorem paramSet_one (ha : d.access = 1) (hi : i < d.indexCount) :
    paramSet pid i 1 [v] s = match setEach d [v] i s with
      | .ok s1 => done s1
      | .error (c, i) => if c == .limit then denyAt c 0 i s else deny c s := by
  have hn : ¬ d.indexCount < i + 1 := by omega
  simp only [paramSet, hd, ha, hn, if_false]
  rfl

theorem paramSet_applies (ha : d.access = 1) (hp : d.pid = pid) (hi : i < d.indexCount) (h0 : d.min ≤ v) (h1 : v ≤ d.max)
    (hr : s.setRefused pid i v = none) : Replies (.paramSet q pid i 1 [v]) q 0x0006 .ok (applyParam pid i v) s :=
  .of_kilak exec_paramSet rfl (by
    rw [paramSet_one hd ha hi]
    simp [setEach, not_lt.2 h0, not_lt.2 h1, hp, hr, done])

theorem paramSet_outside (ha : d.access = 1) (hi : i < d.indexCount) (hv : v < d.min ∨ d.max < v) :
    Replies (.paramSet q pid i 1 [v]) q 0x0006 { code := .limit, detail := i % 2 ^ 24 } id s :=
  .of_kilak exec_paramSet rfl (by
    rw [paramSet_one hd ha hi]
    simp [setEach, hv, denyAt])

theorem paramSet_limit (ha : d.access = 1) (hi : i < d.indexCount) (hr : s.setRefused d.pid i v = some .limit) :
    Replies (.paramSet q pid i 1 [v]) q 0x0006 { code := .limit, detail := i % 2 ^ 24 } id s := by
  by_cases hv : v < d.min ∨ d.max < v
  · exact paramSet_outside hd ha hi hv
  · exact .of_kilak exec_paramSet rfl (by
      rw [paramSet_one hd ha hi]
      simp [setEach, hv, hr, denyAt])

theorem paramDescribe_answers : Replies (.paramDescribe q pid) q 0x0007 (.vals [.lst 1 d.bytes]) id s :=
  .of_kilak exec_paramDescribe rfl (by simp only [hd, doneWith, id])

end

theorem paramNext_answers (hn : pidTable.find? (fun d => decide (pid < d.pid)) = some n) :
    Replies (.paramNext q pid) q 0x0008 (.vals [.u 16 n.pid]) id s :=
  .of_kilak exec_paramNext rfl (by simp only [hn, doneWith, id])

theorem paramNext_ended (hn : pidTable.find? (fun d => decide (pid < d.pid)) = none) :
    Replies (.paramNext q pid) q 0x0008 (.err .ended) id s :=
  .of_kilak exec_paramNext rfl (by simp only [hn, deny, id])

/-! ### What applying a value does -/

theorem applyParam_plain (h1 : pid ≠ 0xD013) (h2 : pid ≠ 0xA020) (h3 : pid ≠ 0x1500 ∨ v = 4) :
    applyParam pid i v s = setParam pid i v s := by
  have h4 : (decide (pid = 0x1500) && v != 4) = false := by
    rcases h3 with h3 | h3 <;> simp [h3]
  simp only [applyParam, h1, h2, h4, Bool.false_eq_true, if_false]

theorem applyParam_gemEncrypt : applyParam 0xA020 i v s = logEncrypt i (s.param 0xA020 i == 1) (setParam 0xA020 i v s) := rfl

theorem applyParam_groupMode (hv : v ≠ 4) : applyParam 0x1500 i v s = { setParam 0x1500 i v s with
    lane := { s.lane with ixr := Tab.erase s.lane.ixr i }, prot := { s.prot with links := Tab.erase s.prot.links i } } := by
  simp only [applyParam, bne_iff_ne.2 hv]
  rfl

/-! ### The limits of a protected tree -/

theorem treePairs_any {p : Nat → Bool} {c : Nat} (hc : c < 8) (h : p (8 * t + c) = true) : (treePairs t).any p = true :=
  List.any_eq_true.2 ⟨_, List.mem_map.2 ⟨c, List.mem_range.2 hc, rfl⟩, h⟩

theorem protEnable_limit (ht : t < 64) (h : s.stackRole = 0 ∨ s.paramN 0x3037 t < 32
    ∨ ∃ c, c < 8 ∧ s.paramN 0x3020 (8 * t + c) < 250000) :
    Replies (.protEnable q t) q 0xC000 (.err .limit) id s :=
  .of_kilak exec_protEnable rfl (by
    have hl : (decide (s.stackRole = 0) || decide (s.paramN 0x3037 t < 32)
        || (treePairs t).any fun g => decide (s.paramN 0x3020 g < 250000)) = true := by
      rcases h with h | h | ⟨c, hc, h⟩
      · simp [h]
      · simp [h]
      · rw [treePairs_any hc (decide_eq_true h), Bool.or_true]
    simp only [Nat.not_le.2 ht, if_false, openCmd_stackRole, openCmd_paramN, hl, if_true, deny, id])

/-- The PID is a variable: the kernel then need not evaluate the match on the literals. -/
theorem setRefused_teqd (hpid : pid = 0x3020) (hp : s.param 0xC010 (g / 8) = 1) (hv : v < 250000) :
    s.setRefused pid g v = some .limit := by
  have hn : v.toNat < 250000 := by omega
  unfold State.setRefused
  split
  case h_9 => simp only [hp, hn, decide_true, beq_self_eq_true, Bool.and_self, if_true, ite_self]
  all_goals contradiction

theorem setRefused_lodsWait (hpid : pid = 0x3037) (hp : s.param 0xC010 k = 1) (hv : v < 32) :
    s.setRefused pid k v = some .limit := by
  have hn : v.toNat < 32 := by omega
  unfold State.setRefused
  split
  case h_10 => simp only [hp, hn, decide_true, beq_self_eq_true, Bool.and_self, if_true]
  all_goals contradiction

end Sys2Proof.Machine
end

section
/-! PROOF. O21, O59. -/

open Sys2Proof Sys2Proof.Machine

/-- Settles O21, by the parameter commands' lemmas, a PID with and without descriptor apart. -/
theorem parametersGetSetDescribe : Obligations.ParametersGetSetDescribe := by
  intro s q pid first count i v vs d n
  refine ⟨fun hd => ⟨paramGet_notFound hd, paramSet_notFound hd, paramDescribe_notFound hd⟩,
    fun hd => ⟨paramGet_answers hd, paramSet_denied hd, paramSet_applies hd, paramSet_outside hd, paramDescribe_answers hd⟩,
    ⟨applyParam_plain, ?_, ?_⟩, paramNext_answers, paramNext_ended⟩
  · rintro rfl
    exact applyParam_gemEncrypt
  · rintro rfl hv
    exact applyParam_groupMode hv

/-- Settles O59: the limits are checked before PROT_ENABLE's other conditions, and by each PARAM_SET. -/
theorem protEnableLimits : Obligations.ProtEnableLimits := by
  intro s q k g v
  refine ⟨protEnable_limit, fun hg hp hv => ?_, fun hk hp hv => ?_⟩
  · have h := paramSet_limit (q := q) (pid := 0x3020) rfl rfl hg (setRefused_teqd rfl hp hv)
    rwa [Nat.mod_eq_of_lt (by omega)] at h
  · have h := paramSet_limit (q := q) (pid := 0x3037) rfl rfl hk (setRefused_lodsWait rfl hp hv)
    rwa [Nat.mod_eq_of_lt (by omega)] at h

end

section
/-! SUPPORT. What the completion of a command and an event leave in port 0's rings, and the commands that are turned away
before their own checks (R471, R482 to R488, R523, R536). -/

namespace Sys2Proof.Machine

variable {h : HostS} {s : State} {q : Req} {op code now ltb : Nat} {r : Reply} {e : InProg} {k : KlPort} {pl : List RVal}
  {os : List Nat} {body : State → State × Option Reply}

/-! ### Completions -/

/-- The completion of command e, as it is not signalled itself, on an enabled ring. -/
theorem hostComplete_writes {c : Code} {detail len tag : Nat} (hk : h.port0 = k) (he : findProg k.inProg tag op = some e)
    (hen : k.enable = true) (hd : e.discard = false) (hi : e.irq = false) :
    (h.complete now 0 tag op c detail len os).port0
      = { k with inProg := dropProg k.inProg tag op }.writeCpl e c detail len os := by
  subst hk
  simp [HostS.complete, HostS.port, HostS.setPort, he, hen, hd, hi]

theorem hostComplete_discarded {c : Code} {detail len tag : Nat} (hk : h.port0 = k)
    (he : findProg k.inProg tag op = some e) (hd : e.discard = true) :
    (h.complete now 0 tag op c detail len os).port0 = { k with inProg := dropProg k.inProg tag op } := by
  subst hk
  simp [HostS.complete, HostS.port, HostS.setPort, he, hd]

theorem complete_of_fits (hf : Fits q r) : complete q op r s = { s with
    host := s.host.complete s.clk.now q.port q.tag op r.code r.detail (pack r.res).length (pack r.res) } := by
  have hn : (decide ((pack r.res).length > 16) && decide ((pack r.res).length > q.resCap)) = false := by
    rw [Fits] at hf
    rw [Bool.and_eq_false_iff, decide_eq_false_iff_not, decide_eq_false_iff_not]
    omega
  simp only [complete, hn, Bool.false_eq_true, if_false]

theorem tooLong_of_not_fits (hf : ¬ Fits q r) :
    (decide ((pack r.res).length > 16) && decide ((pack r.res).length > q.resCap)) = true := by
  rw [Fits] at hf
  rw [Bool.and_eq_true, decide_eq_true_iff, decide_eq_true_iff]
  omega

theorem complete_of_not_fits (hf : ¬ Fits q r) : complete q op r s = { s with
    host := s.host.complete s.clk.now q.port q.tag op .shortBuf 0 (pack r.res).length [] } := by
  simp only [complete, tooLong_of_not_fits hf, if_true]

/-! ### Events -/

@[simp] theorem signal_port0 (h : HostS) (p fn vec : Nat) : (h.signal p fn vec).port0 = h.port0 := by
  rw [HostS.signal]
  split
  · rfl
  · split <;> rfl

theorem event_onePort (hp : s.ports = [0]) : (event code pl s).host = s.host.eventAt s.clk.now s.ltbNow 0 code (pack pl) := by
  simp only [event, hp, List.foldl]

theorem eventAt_writes (hk : h.port0 = k) (hen : k.enable = true) (hr : ringFull k.evtSize k.evtHead k.evtTail = false) :
    (h.eventAt now ltb 0 code os).port0 = { k with
      evt := k.evt ++ [{ code := code, phase := k.evtPhase, lost := k.lostFlag, ltb := ltb, payload := os }]
      evtTail := (k.evtTail + 1) % ringLen k.evtSize
      evtPhase := if (k.evtTail + 1) % ringLen k.evtSize = 0 then !k.evtPhase else k.evtPhase
      lostFlag := false
      evtIrq := (k.evtIrq.entry now).1 } := by
  subst hk
  simp only [HostS.eventAt, HostS.port, if_true, hen, hr, Bool.not_false, Bool.and_self]
  split <;> simp [HostS.setPort]

theorem eventAt_lost (hk : h.port0 = k) (hr : k.enable = false ∨ ringFull k.evtSize k.evtHead k.evtTail = true) :
    (h.eventAt now ltb 0 code os).port0 = { k with evtLost := min (k.evtLost + 1) (2 ^ 32 - 1), lostFlag := true } := by
  subst hk
  have hn : (h.port0.enable && !ringFull h.port0.evtSize h.port0.evtHead h.port0.evtTail) = false := by
    rcases hr with hr | hr <;> simp [hr]
  simp only [HostS.eventAt, HostS.port, if_true, hn, Bool.false_eq_true, if_false, HostS.setPort]

/-! ### Commands turned away -/

theorem kilak_undefined104 (h4 : s.undefinedBlk 104 = true) : kilak q op body s = .fault (.blockUndefined 104) := by
  simp only [kilak, h4, if_true]

section
variable (h4 : s.undefinedBlk 104 = false)
include h4

theorem kilak_undefined105 (h5 : s.undefinedBlk 105 = true) : kilak q op body s = .fault (.blockUndefined 105) := by
  simp only [kilak, h4, h5, Bool.false_eq_true, if_false, if_true]

variable (h5 : s.undefinedBlk 105 = false)
include h5

theorem kilak_unserved (hs : s.serves q op = false) : kilak q op body s = .next s := by
  simp only [kilak, h4, h5, hs, Bool.not_false, Bool.false_eq_true, if_false, if_true]

theorem kilak_port1ReadOnly (hs : s.serves q op = true) (hp : q.port = 1) (hw : s.opt.cur.port1Write = 0)
    (ho : readOnlyOps.contains op = false) :
    kilak q op body s = .next (complete q op (.err .denied) (openCmd q op s)) := by
  have hro : (q.port == 1 && s.opt.cur.port1Write == 0 && !readOnlyOps.contains op) = true := by
    rw [hp, hw, ho]
    rfl
  simp only [kilak, h4, h5, hs, hro, Bool.not_true, Bool.false_eq_true, if_false, if_true]

theorem kilak_romMode (hs : s.serves q op = true) (hp : q.port ≠ 1) (hm : s.host.romMode = true) (ho : romOps op = false) :
    kilak q op body s = .next (complete q op (.err .badState) (openCmd q op s)) := by
  have hro : (q.port == 1 && s.opt.cur.port1Write == 0 && !readOnlyOps.contains op) = false := by
    rw [beq_false_of_ne hp, Bool.false_and, Bool.false_and]
  simp only [kilak, h4, h5, hs, hro, hm, ho, Bool.not_true, Bool.not_false, Bool.and_self, Bool.false_eq_true, if_false,
    if_true]

end

/-- An answer too long for its result area: the completion goes into the state the body began with. -/
theorem kilak_shortBuf (hs : Served s q op) (hb : (body (openCmd q op s)).2 = some r) (hf : ¬ Fits q r) :
    kilak q op body s = .next (complete q op r (openCmd q op s)) := by
  obtain ⟨h4, h5, hsv, hw, hm⟩ := hs
  have hpair : body (openCmd q op s) = ((body (openCmd q op s)).1, some r) := Prod.ext rfl hb
  simp only [kilak, h4, h5, hsv, hw, hm, Bool.not_true, Bool.false_eq_true, if_false]
  rw [hpair]
  simp only [tooLong_of_not_fits hf, if_true]

end Sys2Proof.Machine
end

section
/-! PROOF. O56. -/

open Sys2Proof Sys2Proof.Machine

/-- Settles O56: a completion and an event by what they leave in port 0, a refusal by the order of the checks. -/
theorem completionsEventsAndRefusals : Obligations.CompletionsEventsAndRefusals := by
  intro s q op code r e k pl body
  refine ⟨fun hp hk he => ⟨fun hen hd hi hf => ?_, fun hen hd hi hf => ?_, fun hd => ?_⟩,
    fun hp hk _ _ => ⟨fun hen hr => ?_, fun hr => ?_⟩, kilak_undefined104, kilak_undefined105,
    fun h4 h5 => ⟨kilak_unserved h4 h5, kilak_port1ReadOnly h4 h5, kilak_romMode h4 h5⟩, kilak_shortBuf⟩
  · rw [complete_of_fits hf, hp]
    exact hostComplete_writes hk he hen hd hi
  · rw [complete_of_not_fits hf, hp]
    exact ⟨_, congrArg KlPort.cpl (hostComplete_writes hk he hen hd hi), rfl, rfl, rfl, rfl⟩
  · by_cases hf : Fits q r
    · rw [complete_of_fits hf, hp]
      exact hostComplete_discarded hk he hd
    · rw [complete_of_not_fits hf, hp]
      exact hostComplete_discarded hk he hd
  · rw [event_onePort hp, eventAt_writes hk hen hr]
    exact ⟨_, rfl, rfl, rfl, rfl, rfl, rfl, rfl, rfl⟩
  · rw [event_onePort hp]
    exact eventAt_lost hk hr

end

section
/-! SUPPORT. A source set on a time domain that holds the accuracy its previous source declared (R399, R404). -/

namespace Sys2Proof.Machine

/-- A device that is up, its ring 0 enabled and empty, domain 0 without a source, the accuracy of its last source kept. -/
def formerSourceState : State := { State.reset with
  rst := { State.reset.rst with asserted := [], phase := .released, reach := 0, strapDue := false }
  pwr := { State.reset.pwr with domains := 2 ^ 24 - 1 }
  host := { State.reset.host with bexedReady := true, port0 := { enable := true, cmdSize := 6, cplSize := 6, evtSize := 6 } }
  time := { State.reset.time with td0 := { accNs := 25 } } }

/-- TIME_SOURCE_SET's request. -/
def sourceReq : Req := { port := 0, tag := 1, resCap := 16 }

theorem formerSourceState_served : Served formerSourceState sourceReq 0xB002 := by
  unfold Served
  decide

/-- The accuracy that domain 0 holds in the state an outcome goes on in. -/
def accuracyAfter : Host.Outcome State Fault Refusal → Option Nat
  | .next t => some t.time.td0.accNs
  | _ => none

theorem timeSourceSet_keeps_accuracy :
    accuracyAfter (exec (.timeSourceSet sourceReq 0 2 0 0) formerSourceState) = some 25 := by
  decide

end Sys2Proof.Machine
end

section
/-! PROOF. The statement on time domains. -/

open Sys2Proof Sys2Proof.Machine

/-- Refutes O51: TIME_SOURCE_SET of a new source keeps the samples of R404 and the accuracy the domain held, where the
statement asks for a domain with nothing but the new source's kind, number and priority. -/
theorem not_timeDomainsAndTheServo : ¬ Obligations.TimeDomainsAndTheServo := by
  intro h
  obtain ⟨hcommands, -⟩ := h formerSourceState sourceReq sourceReq 0 0 0 2 0 0 0 0 [] 0
  obtain ⟨-, hsource, -⟩ := hcommands (by decide)
  have hreply := (hsource (by decide) (.inl rfl) (by decide) (by decide) (.inl (by decide))).1 (by decide)
    formerSourceState_served (.inl (by decide))
  have hacc := timeSourceSet_keeps_accuracy
  rw [hreply] at hacc
  exact absurd hacc (by decide)

end

section
/-! SUPPORT. Reference inputs, pulses and time of day (R396 to R398, R406, R411 to R416). -/

namespace Sys2Proof.Machine

variable {s : State} {q : Req} {op inp k g h n dly td b d i t0 : Nat} {at64 : Int} {m : TodMsg} {a : PulseArgs} {c : AsymArgs}
  {o : Onu} {p : PulseOut} {r : Reply} {f : State → State} {isB : Bool}

/-! ### A command of the TIME island -/

theorem timeCmd_defined (h2 : s.undefinedBlk 172 = false) {body : State → State × Option Reply} :
    timeCmd q op body s = kilak q op body s := by
  rw [timeCmd, guardBlks_ok (by simpa using h2)]

/-- A command of the TIME island whose body answers at once replies with that answer. -/
theorem Replies.of_timeCmd {x : Instr} {body : State → State × Option Reply} (hx : exec x s = timeCmd q op body s)
    (h2 : s.undefinedBlk 172 = false) (hb : body (openCmd q op s) = (f (openCmd q op s), some r)) : Replies x q op r f s :=
  .of_kilak hx (timeCmd_defined h2) hb

theorem exec_ppsInSet : exec (.ppsInSet q inp dly) s = execPpsInSet q inp dly s := rfl

theorem exec_pulseOutSet : exec (.pulseOutSet q k a) s = execPulseOutSet q k a s := rfl

theorem exec_todPairRead : exec (.todPairRead q h n) s = execTodPairRead q h n s := rfl

theorem exec_asymSet : exec (.asymSet q g c) s = execAsymSet q g c s := rfl

/-- The settings of PULSE_OUT_SET by parameter (R415). -/
def pulseVals (a : PulseArgs) : List (Nat × Int) :=
  [(0xB060, a.mode), (0xB061, a.period), (0xB062, a.offset), (0xB063, a.width), (0xB064, a.polarity), (0xB065, a.delay)]

/-- The settings of ASYM_SET by parameter (R411). -/
def asymVals (c : AsymArgs) : List (Nat × Int) :=
  [(0xB040, c.nDs), (0xB041, c.nUs), (0xB042, c.txDelay), (0xB043, c.rxDelay), (0xB044, c.recRatio)]

/-- Settings stored at one index. -/
def storeVals (vals : List (Nat × Int)) (i : Nat) (s : State) : State := vals.foldl (fun s v => setParam v.1 i v.2 s) s

/-- The coefficients of g's tree once ASYM_SET has stored its settings. -/
def asymPpm (g : Nat) (c : AsymArgs) (s : State) : List (Nat × Int) :=
  (treePairs (g / 8)).map fun x => (x, (storeVals (asymVals c) g s).rtdPpm x)

theorem storeVals_clk (vals : List (Nat × Int)) : (storeVals vals i s).clk = s.clk := by
  induction vals generalizing s with
  | nil => rfl
  | cons v vals ih => exact ih (s := setParam v.1 i v.2 s)

theorem storeVals_host (vals : List (Nat × Int)) (x : HostS) :
    storeVals vals i { s with host := x } = { storeVals vals i s with host := x } := by
  induction vals generalizing s with
  | nil => rfl
  | cons v vals ih => exact ih (s := setParam v.1 i v.2 s)

theorem asymPpm_openCmd : asymPpm g c (openCmd q op s) = asymPpm g c s := by
  rw [openCmd_eq, asymPpm, storeVals_host]
  rfl

section
variable (h2 : s.undefinedBlk 172 = false)
include h2

theorem ppsInSet_replies (hi : inp ≤ 1) (hd : dly ≤ 100000) :
    Replies (.ppsInSet q inp dly) q 0xB00A .ok (setParam 0xB030 inp dly) s :=
  .of_timeCmd exec_ppsInSet h2 (by simp only [Nat.not_lt.2 hi, Nat.not_lt.2 hd, if_false, done])

theorem pulseOutSet_replies (hk : k < 4) (hv : (pulseVals a).all (fun v => pidInRange v.1 v.2) = true)
    (hw : pulseWidthOk a = true) :
    Replies (.pulseOutSet q k a) q 0xB009 .ok (fun u => let v := storeVals (pulseVals a) k u
      { v with time := { v.time with
          pulse := Tab.set v.time.pulse k { v.pulseOf k with next := some (a, s.clk.now + msT 1) } } }) s := by
  refine .of_timeCmd exec_pulseOutSet h2 ?_
  have hok : (!(pulseVals a).all (fun v => pidInRange v.1 v.2) || !pulseWidthOk a) = false := by rw [hv, hw]; rfl
  have hc : (storeVals (pulseVals a) k (openCmd q 0xB009 s)).clk = s.clk := (storeVals_clk _).trans (openCmd_clk ..)
  change (if 4 ≤ k then _ else if (!(pulseVals a).all (fun v => pidInRange v.1 v.2) || !pulseWidthOk a) = true then _
    else done (let v := storeVals (pulseVals a) k (openCmd q 0xB009 s)
      { v with time := { v.time with
          pulse := Tab.set v.time.pulse k { v.pulseOf k with next := some (a, v.clk.now + msT 1) } } })) = _
  simp only [Nat.not_le.2 hk, hok, hc, Bool.false_eq_true, if_false, done]

theorem todPairRead_replies (ho : Tab.get? s.onu.ctx h = some o) (hop : o.state = .operation) (hl : s.ltbSet = true) :
    Replies (.todPairRead q h n) q 0xB008 (.vals [.u 64 n, .u 96 (nsWord (s.todOf h o n).toNat)]) (fun u => { u with
      time := { u.time with pair := Tab.set u.time.pair h (n, s.todOf h o n), told := u.time.told.filter (· != h) } }) s :=
  .of_timeCmd exec_todPairRead h2 (by
    simp only [todPairRead, openCmd_onu, ho, openCmd_ltbSet, hl, hop, bne_self_eq_false, Bool.not_true, Bool.or_self,
      Bool.false_eq_true, if_false, openCmd_todOf, doneWith])

theorem todPairRead_badState (ho : Tab.get? s.onu.ctx h = some o) (hop : o.state ≠ .operation) :
    Replies (.todPairRead q h n) q 0xB008 (.err .badState) id s :=
  .of_timeCmd exec_todPairRead h2 (by
    simp only [todPairRead, openCmd_onu, ho, bne_iff_ne.2 hop, Bool.or_true, if_true, deny, id])

theorem asymSet_badArg (hg : 512 ≤ g) : Replies (.asymSet q g c) q 0xB007 (.err .badArg) id s :=
  .of_timeCmd exec_asymSet h2 (by simp only [asymSet, hg, if_true, deny, id])

theorem asymSet_replies (hg : g < 512) (hv : (asymVals c).all (fun v => pidInRange v.1 v.2) = true)
    (hp : (asymPpm g c s).all (fun e => decide (e.2.natAbs ≤ 200)) = true) :
    Replies (.asymSet q g c) q 0xB007 (.vals (.u 32 (roundAway ((c.nDs : Int) * 1000000000) (c.nDs + c.nUs)).toNat
        :: (asymPpm g c s).map fun e => .i 16 e.2))
      (fun u => (asymPpm g c s).foldl (fun s e => setParam 0x3022 e.1 e.2 s) (storeVals (asymVals c) g u)) s := by
  refine .of_timeCmd exec_asymSet h2 ?_
  change (if 512 ≤ g then _ else if (!(asymVals c).all fun v => pidInRange v.1 v.2) = true then _
    else if (!(asymPpm g c (openCmd q 0xB007 s)).all fun e => decide (e.2.natAbs ≤ 200)) = true then _
    else doneWith (_ :: (asymPpm g c (openCmd q 0xB007 s)).map _)
      ((asymPpm g c (openCmd q 0xB007 s)).foldl _ (storeVals (asymVals c) g (openCmd q 0xB007 s)))) = _
  simp only [Nat.not_le.2 hg, hv, asymPpm_openCmd, hp, Bool.not_true, Bool.false_eq_true, if_false, doneWith]

end

/-! ### Reference inputs -/

theorem bit_lor_two_pow : bit (n ||| 2 ^ k) k = true := by
  have htest : (n ||| 2 ^ k).testBit k = true := by rw [Nat.testBit_or, Nat.testBit_two_pow_self, Bool.or_true]
  rw [← htest, Nat.testBit_eq_decide_div_mod_eq]
  rfl

/-- A fault of a kind that the block has sets its bit of FAULT_STATUS. -/
theorem raiseFault_status (hc : (faultClass b k).isSome = true) : bit ((raiseFault b k d s).window b).status k = true := by
  have hw : ((raiseFault b k d s).window b).status = (s.window b).status ||| 2 ^ k := by
    unfold raiseFault recordFaults
    extract_lets fs w w2 r1 r2 r3 u
    have hfs : fs = [⟨k, d, false, false⟩] := List.filter_cons_of_pos hc
    rw [samples_touch, State.window]
    change (Tab.getD (Tab.set s.flt.win b w2) b {}).status = _
    rw [Tab.getD_set_self]
    simp only [w2, hfs, FaultWin.record, pickFirst, List.foldl]
    split <;> rfl
  rw [hw]
  exact bit_lor_two_pow

@[simp] theorem raiseFault_time (b k d : Nat) (s : State) : (raiseFault b k d s).time = s.time := by
  rw [raiseFault_touch]

@[simp] theorem raiseFault_clk (b k d : Nat) (s : State) : (raiseFault b k d s).clk = s.clk := by
  rw [raiseFault_touch]

theorem exec_refclkLoss (ha : Acts s 172) : exec (.refclkLoss isB) s = .next (refLoss isB s) := island_acts ha

theorem exec_refclkQualify (ha : Acts s 172) : exec (.refclkQualify isB) s = .next (refQualify isB s) := island_acts ha

theorem exec_refclkBReturn (ha : Acts s 172) : exec .refclkBReturn s = .next (refReturn s) := island_acts ha

theorem dcoTo_between (hd : s.time.dco = t0) (ht : t0 < 2) (hi : i < 2) (hne : t0 ≠ i) :
    dcoTo i s = bump .refSwitch 0 { s with
      time := { s.time with dco := i, freq := s.time.freq + Config.inputRatio t0 i s.clk.now } } := by
  have h2 : (decide (t0 = 2) || decide (i = 2)) = false := by
    simp only [Bool.or_eq_false_iff, decide_eq_false_iff_not]
    omega
  simp only [dcoTo, hd, hne, h2, Bool.false_eq_true, if_false]

theorem refLoss_ofB (hB : s.time.refB.lost = false) (hA : s.time.refA.lost = false) (hd : s.time.dco = 0) :
    refLoss true s = bump .refSwitch 0 { s with
      time := { s.time with refB := { s.time.refB with lost := true, qualified := false }, dco := 1
                            freq := s.time.freq + Config.inputRatio 0 1 s.clk.now } } := by
  simp only [refLoss, hB, hA, if_true, Bool.false_and, Bool.false_eq_true, if_false]
  exact dcoTo_between hd (by omega) (by omega) (by omega)

theorem refLoss_known (hA : s.time.refA.lost = true) : refLoss false s = s := by
  simp only [refLoss, hA, Bool.false_eq_true, if_false, if_true]

theorem dcoTo_two_time : (dcoTo 2 s).time = { s.time with dco := 2 } := by
  by_cases hd : s.time.dco = 2
  · rw [dcoTo, if_pos hd, ← hd]
  · rw [dcoTo, if_neg hd]
    simp only [decide_true, Bool.or_true, if_true]
    rfl

theorem dcoTo_clk : (dcoTo i s).clk = s.clk := by
  rw [dcoTo]
  split <;> rfl

/-- The loss of both inputs, whatever the servo does about it. -/
theorem bothRefsLost_leaves : (bothRefsLost s).time.dco = 2
    ∧ (bothRefsLost s).time.bothLost = some (s.time.bothLost.getD s.clk.now)
    ∧ (bothRefsLost s).time.refA = s.time.refA ∧ bit ((bothRefsLost s).window 172).status 8 = true := by
  have hs : bit ((raiseFault 172 8 0 (dcoTo 2 s)).window 172).status 8 = true := raiseFault_status rfl
  have ht : (raiseFault 172 8 0 (dcoTo 2 s)).time = { s.time with dco := 2 } := (raiseFault_time ..).trans dcoTo_two_time
  have hc : (raiseFault 172 8 0 (dcoTo 2 s)).clk = s.clk := (raiseFault_clk ..).trans dcoTo_clk
  rw [bothRefsLost]
  generalize raiseFault 172 8 0 (dcoTo 2 s) = u at hs ht hc
  simp only [ht, hc]
  split
  · exact ⟨rfl, rfl, rfl, hs⟩
  · exact ⟨rfl, rfl, rfl, hs⟩

theorem refLoss_ofBoth (hB : s.time.refB.lost = true) (hA : s.time.refA.lost = false) :
    refLoss false s = bothRefsLost { s with
      time := { s.time with refA := { s.time.refA with lost := true, qualified := false } } } := by
  simp only [refLoss, hA, hB, Bool.false_eq_true, Bool.and_self, if_false, if_true]

theorem refReturn_early (ht : s.clk.now < s.time.refB.since + secT 10) : refReturn s = s := by
  simp only [refReturn, ht, decide_true, Bool.or_true, if_true]

theorem refReturn_due (hd : s.time.dco = 1) (hq : s.time.refB.qualified = true)
    (ht : s.time.refB.since + secT 10 ≤ s.clk.now) : refReturn s = bump .refSwitch 0 { s with
    time := { s.time with dco := 0, freq := s.time.freq + Config.inputRatio 1 0 s.clk.now } } := by
  have hgo : (decide (s.time.dco = 0) || !s.time.refB.qualified || decide (s.clk.now < s.time.refB.since + secT 10))
      = false := by
    simp only [hd, hq, Nat.not_lt.2 ht, decide_false, Bool.not_true, Bool.or_false, decide_eq_false_iff_not]
    omega
  have hne : ¬ s.time.dco = 2 := by omega
  rw [refReturn, hgo, if_neg Bool.false_ne_true, if_neg hne]
  exact dcoTo_between hd (by omega) (by omega) (by omega)

/-! ### Pulses and messages of time of day -/

section
variable (ha : Acts s 172)
include ha

theorem exec_ppsInEdge (hi : inp ≤ 1) : exec (.ppsInEdge inp at64) s = .next (ppsEdge inp at64 s) := by
  change execPpsInEdge inp at64 s = _
  rw [execPpsInEdge, island_acts ha, if_neg (Nat.not_lt.2 hi)]

theorem exec_ppsInMiss (hi : inp ≤ 1) : exec (.ppsInMiss inp) s = .next (bump .ppsInMiss inp s) := by
  change execPpsInMiss inp s = _
  rw [execPpsInMiss, island_acts ha, if_neg (Nat.not_lt.2 hi)]

theorem exec_todInMessage (hm : m.input = 0) : exec (.todInMessage m) s = .next (todIn m s) := by
  change execTodInMessage m s = _
  rw [execTodInMessage, island_acts ha, if_neg (by omega)]

theorem exec_ppsOutEdge : exec (.ppsOutEdge k) s = .next (ppsOutEdge k s) := island_acts ha

theorem exec_todOutMessage : exec .todOutMessage s = .next (todOut s) := island_acts ha

end

theorem todWindow_of_ok (hok : m.crcOk = true) (h1 : 1 ≤ m.startMs) (h9 : m.endMs ≤ 900) :
    (!m.crcOk || decide (m.startMs < 1) || decide (900 < m.endMs)) = false := by
  simp only [hok, Nat.not_lt.2 h1, Nat.not_lt.2 h9, decide_false, Bool.not_true, Bool.or_self]

section
variable (hm : m.input = 0)
include hm

theorem todIn_noEdge (he : s.time.edgeA = none) :
    todIn m s = bump .todInErr 0 { s with time := { s.time with edgeA := none } } := by
  simp only [todIn, hm, he, if_true]

variable (he : s.time.edgeA = some at64)
include he

theorem todIn_bad (hbad : m.crcOk = false ∨ m.startMs < 1 ∨ 900 < m.endMs) :
    todIn m s = bump .todInErr 0 { s with time := { s.time with edgeA := none } } := by
  have hb : (!m.crcOk || decide (m.startMs < 1) || decide (900 < m.endMs)) = true := by
    rcases hbad with h | h | h <;> simp [h]
  simp only [todIn, hm, he, if_true, hb]

variable (hok : m.crcOk = true) (h1 : 1 ≤ m.startMs) (h9 : m.endMs ≤ 900)
include hok h1 h9

theorem todIn_notValid (hv : m.valid = false) : todIn m s = { s with time := { s.time with edgeA := none } } := by
  simp only [todIn, hm, he, if_true, todWindow_of_ok hok h1 h9, hv, Bool.not_false, Bool.false_eq_true, if_false]

theorem todIn_sample {u : State} (hu : u = { s with time := { s.time with edgeA := none } }) (hv : m.valid = true)
    (hd : u.domsOf 2 0 = [td]) : todIn m s = timeSample td ((secT m.sec * 64 : Int) - at64)
      (timeSource td m.clockClass m.accuracyNs (if m.utcValid then m.utcOffset else (u.time.dom td).utc)
        (2 * flag m.leap61 + flag m.leap59) u) := by
  subst hu
  simp only [todIn, hm, he, if_true, todWindow_of_ok hok h1 h9, hv, Bool.not_true, Bool.false_eq_true, if_false, hd,
    List.foldl]

end

section
variable (hk : k < 4) (hl : s.ltbSet = true)
include hk hl

theorem ppsOutEdge_inForce (hp : s.pulseOf k = p) (hn : p.next = none) (hm : p.cur.mode ≠ 0) :
    ppsOutEdge k s = { s.drawn with
      time := { s.time with pulse := Tab.set s.time.pulse k { p with edges := p.edges + 1, last := s.stamp64 } } } := by
  have hgo : (decide (4 ≤ k) || !s.ltbSet) = false := by simp [hk, hl]
  simp only [ppsOutEdge, hgo, hp, hn, hm, Bool.false_eq_true, if_false]

theorem ppsOutEdge_taken (hp : s.pulseOf k = { p with next := some (a, n) }) (hn : n ≤ s.clk.now) (hm : a.mode ≠ 0) :
    ppsOutEdge k s = { s.drawn with time := { s.time with
      pulse := Tab.set s.time.pulse k { p with cur := a, next := none, edges := p.edges + 1, last := s.stamp64 } } } := by
  have hgo : (decide (4 ≤ k) || !s.ltbSet) = false := by simp [hk, hl]
  simp only [ppsOutEdge, hgo, hp, hn, hm, Bool.false_eq_true, if_false, if_true]

end

theorem stamp64_tick : s.stamp64 / 64 = s.clk.ltb := by
  rw [State.stamp64]
  omega

theorem todOut_sends (hl : s.ltbSet = true) (hm : (s.pulseOf 0).cur.mode = 1) (hp : (s.pulseOf 0).cur.period = 1000000000)
    (he : (s.pulseOf 0).edges ≠ 0) (ht : (s.pulseOf 0).last + 64 * msT 10 ≤ s.clk.ltb * 64) :
    (todOut s).time.tod.map (fun x => (x.sec, x.cls, x.utc))
      = [((s.pulseOf 0).last / 64 / 2488320000, s.clockClass, s.utc.1)] := by
  have hgo : (!s.ltbSet || (s.pulseOf 0).cur.mode != 1 || (s.pulseOf 0).cur.period != 1000000000
      || decide ((s.pulseOf 0).edges = 0) || decide (s.clk.ltb * 64 < (s.pulseOf 0).last + 64 * msT 10)) = false := by
    simp [hl, hm, hp, he, ht]
  simp only [todOut, hgo, Bool.false_eq_true, if_false, List.map_cons, List.map_nil, Nat.div_div_eq_div_mul]

end Sys2Proof.Machine
end

section
/-! PROOF. The statement on reference inputs, pulses and time of day. -/

open Sys2Proof Sys2Proof.Machine

/-- Settles O52, by each event's and each command's lemma. -/
theorem referencePulsesAndTimeOfDay : Obligations.ReferencePulsesAndTimeOfDay := by
  intro s q inp k g h n dly at64 m a b o p
  refine ⟨fun ha => ⟨fun hB hA hd => ?_, fun hB hA => ?_, fun hA => ?_, exec_refclkQualify ha,
      fun hd hq => ⟨fun ht => ?_, fun ht => ?_⟩, exec_ppsInEdge ha (by omega), exec_ppsInEdge ha (by omega), exec_ppsInMiss ha,
      fun hm he => ?_, fun hm he hbad => ?_, fun hm he hok h1 h9 => ⟨fun hv => ?_, fun td hv hd => ?_⟩,
      fun hk hl hp hn hm => ?_, fun hk hl hp hn hm => ?_, stamp64_tick, fun hl hm hp he ht => ?_⟩,
    fun h2 => ⟨ppsInSet_replies h2, pulseOutSet_replies h2, todPairRead_replies h2, todPairRead_badState h2,
      asymSet_badArg h2, asymSet_replies h2⟩, by decide⟩
  · rw [exec_refclkLoss ha, refLoss_ofB hB hA hd]
  · rw [exec_refclkLoss ha, refLoss_ofBoth hB hA]
    obtain ⟨hdco, hboth, hrefA, hbit⟩ := bothRefsLost_leaves (s := { s with
      time := { s.time with refA := { s.time.refA with lost := true, qualified := false } } })
    exact ⟨_, rfl, hdco, hboth, congrArg RefIn.lost hrefA, hbit⟩
  · rw [exec_refclkLoss ha, refLoss_known hA]
  · rw [exec_refclkBReturn ha, refReturn_due hd hq ht]
  · rw [exec_refclkBReturn ha, refReturn_early ht]
  · rw [exec_todInMessage ha hm, todIn_noEdge hm he]
  · rw [exec_todInMessage ha hm, todIn_bad hm he hbad]
  · rw [exec_todInMessage ha hm, todIn_notValid hm he hok h1 h9 hv]
  · rw [exec_todInMessage ha hm, todIn_sample hm he hok h1 h9 rfl hv hd]
  · rw [exec_ppsOutEdge ha, ppsOutEdge_inForce hk hl hp hn hm]
  · rw [exec_ppsOutEdge ha, ppsOutEdge_taken hk hl hp hn hm]
  · rw [exec_todOutMessage ha]
    exact ⟨_, rfl, todOut_sends hl hm hp he ht⟩

end

section
/-! SUPPORT. The commands of protection groups, of channel sparing and of the stack (R440, R448 to R450, R457, R458, R461,
R462, R464 to R468). -/

namespace Sys2Proof.Machine

variable {s u : State} {q : Req} {t c g new : Nat} {p : ProtGrp} {w : LanePwr}

theorem exec_protDisable : exec (.protDisable q t) s = execProtDisable q t s := rfl

theorem exec_protActivate : exec (.protActivate q t) s = execProtActivate q t s := rfl

theorem exec_protSwitch {k : Option Nat} : exec (.protSwitch q k) s = execProtSwitch q k s := rfl

theorem exec_protAuditNow : exec (.protAuditNow q t) s = execProtAuditNow q t s := rfl

theorem exec_spareSet : exec (.spareSet q t c) s = execSpareSet q t c s := rfl

theorem exec_channelSpare : exec (.channelSpare q g) s = execChannelSpare q g s := rfl

theorem exec_stackStatus : exec (.stackStatus q) s = execStackStatus q s := rfl

/-! ### Groups -/

section
variable (ht : t < 64) (hp : s.grp t = p)
include ht hp

section
variable (hstack : s.stackRole ≠ 0) (hlead : 32 ≤ s.paramN 0x3037 t)
  (hreach : ((treePairs t).any fun x => decide (s.paramN 0x3020 x < 250000)) = false) (hpeer : s.paramN 0xC011 0 ≠ s.opt.unitId)
  (hdig : ∀ d, p.peerDigest = some d → d = s.groupDigest t)
include hstack hlead hreach hpeer hdig

/-- With R440's conditions met PROT_ENABLE looks at the group's state alone. -/
theorem protEnable_taken {f : State → State}
    (hf : (if p.st != .off then done (openCmd q 0xC000 s) else done (listen t (darken t (setParam 0xC010 t 1
      (onGrp t (fun p => { p with st := .sync, synced := false, copying := false }) (openCmd q 0xC000 s))))))
        = (f (openCmd q 0xC000 s), some .ok)) :
    Replies (.protEnable q t) q 0xC000 .ok f s := by
  refine .of_kilak exec_protEnable rfl ?_
  have hlimit : (decide (s.stackRole = 0) || decide (s.paramN 0x3037 t < 32)
      || (treePairs t).any fun g => decide (s.paramN 0x3020 g < 250000)) = false := by
    rw [hreach, decide_eq_false hstack, decide_eq_false (Nat.not_lt.2 hlead)]
    rfl
  cases hd : p.peerDigest with
  | none =>
    simp only [openCmd_stackRole, openCmd_paramN, openCmd_opt, openCmd_grp, hp, hd, Nat.not_le.2 ht, hlimit,
      beq_false_of_ne hpeer, Bool.or_self, Bool.false_eq_true, if_false]
    exact hf
  | some d =>
    simp only [openCmd_stackRole, openCmd_paramN, openCmd_opt, openCmd_grp, openCmd_groupDigest, hp, hd, hdig d hd,
      bne_self_eq_false, Nat.not_le.2 ht, hlimit, beq_false_of_ne hpeer, Bool.or_self, Bool.false_eq_true, if_false]
    exact hf

theorem protEnable_starts (hoff : p.st = .off) : Replies (.protEnable q t) q 0xC000 .ok (fun u =>
    listen t (darken t (setParam 0xC010 t 1 (onGrp t (fun p => { p with st := .sync, synced := false, copying := false }) u)))) s :=
  protEnable_taken ht hp hstack hlead hreach hpeer hdig (if_neg (by simp [hoff]))

theorem protEnable_again (hon : p.st ≠ .off) : Replies (.protEnable q t) q 0xC000 .ok id s :=
  protEnable_taken ht hp hstack hlead hreach hpeer hdig (if_pos (bne_iff_ne.2 hon))

end

theorem protDisable_replies (h : p.st ≠ .active ∨ p.peerState = 0) : Replies (.protDisable q t) q 0xC001 .ok (fun u =>
    setParam 0xC010 t 0 (onGrp t (fun p => { p with
      st := .off, held := false, raised := false, wanted := false, audit := none, sent := [], drillUntil := none }) u)) s :=
  .of_kilak exec_protDisable rfl (by
    have hgo : (p.st == .active && p.peerState != 0) = false := by
      rcases h with h | h
      · rw [beq_false_of_ne h, Bool.false_and]
      · rw [h, bne_self_eq_false, Bool.and_false]
    simp only [openCmd_grp, hp, Nat.not_le.2 ht, hgo, Bool.false_eq_true, if_false, done])

theorem protActivate_claims (ha : s.peerActive t = false) (h : p.st = .sync ∨ p.st = .released) :
    Replies (.protActivate q t) q 0xC002 .ok (startClaim t) s :=
  .of_kilak exec_protActivate rfl (by
    rcases h with h | h <;> simp [hp, Nat.not_le.2 ht, ha, h, done])

theorem protSwitch_releases (hact : p.st = .active) (hready : p.peerState = 2) :
    Replies (.protSwitch q (some t)) q 0xC003 .ok (dropHold t .released true) s :=
  .of_kilak exec_protSwitch rfl (by
    simp [hp, Nat.not_le.2 ht, hact, hready, done, releaseGroup])

theorem protAuditNow_waits (hact : p.st = .active) (hidle : p.audit = none) :
    Waits (.protAuditNow q t) q 0xC004 (auditStart t (some q)) s :=
  .of_kilak exec_protAuditNow rfl (by
    simp [hp, Nat.not_le.2 ht, hact, hidle, waits])

end

theorem auditSend_grp (a : AuditOut) : (auditSend a s).grp t = s.grp t := by
  rw [auditSend]
  split <;> rfl

theorem auditStart_audit : ((auditStart t (some q) s).grp t).audit
    = some { sfcA := s.clk.sfc + 16, mirrorSeq := s.prot.mirTx, cmd := some q } := by
  rw [auditStart, auditSend_grp, grp_onGrp_self]

/-! ### Sparing -/

/-- The spare of tree t, when another or none takes its place, goes OFF unless it is enabled (R42). -/
def spareFreed (s : State) (t new : Nat) (u : State) : State :=
  if s.paramN 0x3036 t < 8 ∧ s.paramN 0x3036 t ≠ new ∧ (s.laneCh (8 * t + s.paramN 0x3036 t)).enabled = false then
    lanesTo (8 * t + s.paramN 0x3036 t) .off u
  else u

theorem ladder_lanesTo : ((lanesTo c w u).laneCh g).ladder = (u.laneCh g).ladder := by
  by_cases h : g = c
  · subst h
    rw [lanesTo, laneCh_onLaneCh_self]
  · rw [State.laneCh, lanesTo, onLaneCh, Tab.getD_upd_other _ _ _ _ h, State.laneCh]

theorem ladder_spareFreed : ((spareFreed s t new u).laneCh g).ladder = (u.laneCh g).ladder := by
  rw [spareFreed]
  split
  · exact ladder_lanesTo
  · rfl

/-- What SPARE_SET does to a reserved channel pair, by the ladder that runs on it. -/
def spareRests (g : Nat) (l : Option Ladder) (u : State) : State :=
  lanesTo g .standby (match l with
    | some l => ladderFail g l u
    | none => u)

theorem spareSet_taken (ht : t < 64) (hc : c ≤ 8) (hpop : c < 8 → s.populated (8 * t + c) = false) :
    Replies (.spareSet q t c) q 0xC006 .ok (fun u =>
      if c = 8 then setParam 0x3036 t c (spareFreed s t c u)
      else spareRests (8 * t + c) (s.laneCh (8 * t + c)).ladder (setParam 0x3036 t c (spareFreed s t c u))) s := by
  refine .of_kilak exec_spareSet rfl ?_
  have hargs : (decide (64 ≤ t) || decide (9 ≤ c)) = false := by
    rw [decide_eq_false (Nat.not_le.2 ht), decide_eq_false (by omega)]
    rfl
  have hbusy : (decide (c < 8) && s.populated (8 * t + c)) = false := by
    by_cases h : c < 8
    · rw [hpop h, Bool.and_false]
    · rw [decide_eq_false h, Bool.false_and]
  have hfree : (if (decide (s.paramN 0x3036 t < 8) && s.paramN 0x3036 t != c
        && !(Tab.getD s.lane.ch (8 * t + s.paramN 0x3036 t) {}).enabled) = true then
      lanesTo (8 * t + s.paramN 0x3036 t) .off (openCmd q 0xC006 s) else openCmd q 0xC006 s)
      = spareFreed s t c (openCmd q 0xC006 s) := by
    refine if_congr ?_ rfl rfl
    simp only [State.laneCh, Bool.and_eq_true, decide_eq_true_eq, bne_iff_ne, Bool.not_eq_true', and_assoc]
  have hlad : ((setParam 0x3036 t c (spareFreed s t c (openCmd q 0xC006 s))).laneCh (8 * t + c)).ladder
      = (s.laneCh (8 * t + c)).ladder := by
    refine ladder_spareFreed.trans ?_
    rw [openCmd_laneCh]
  simp only [openCmd_populated, openCmd_paramN, openCmd_lane, hargs, hbusy, hfree, hlad, Bool.false_eq_true, if_false]
  by_cases h8 : c = 8
  · rw [if_pos h8, if_pos h8, done]
  · rw [if_neg h8, if_neg h8, done]
    rfl

theorem spareSet_none (ht : t < 64) : Replies (.spareSet q t 8) q 0xC006 .ok
    (fun u => setParam 0x3036 t 8 (spareFreed s t 8 u)) s :=
  spareSet_taken ht le_rfl (fun h => absurd h (by omega))

section
variable (ht : t < 64) (hc : c < 8) (hpop : s.populated (8 * t + c) = false) {l : Option Ladder}
  (hl : (s.laneCh (8 * t + c)).ladder = l)
include ht hc hpop hl

theorem spareSet_reserves : Replies (.spareSet q t c) q 0xC006 .ok
    (fun u => spareRests (8 * t + c) l (setParam 0x3036 t c (spareFreed s t c u))) s := by
  have h := spareSet_taken (q := q) ht hc.le fun _ => hpop
  simpa only [Nat.ne_of_lt hc, if_false, hl] using h

end

theorem param_setParam_self {pid i : Nat} {v : Int} : (setParam pid i v s).param pid i = v := by
  simp [State.param, setParam]

/-- Sparing uses the tree's reservation up (R462). -/
theorem spareChannel_reservation (b : Bool) : (spareChannel g c b s).param 0x3036 (g / 8) = 8 :=
  param_setParam_self

theorem channelSpare_spares (hg : g < 512) (hs : s.idleSpare (g / 8) = some c) (hc : c ≠ g % 8) :
    Replies (.channelSpare q g) q 0xC007 .ok (spareChannel g c true) s :=
  .of_kilak exec_channelSpare rfl (by simp only [openCmd_idleSpare, hs, hc, Nat.not_le.2 hg, if_false, done])

/-! ### The stack -/

theorem stackStatus_replies : Replies (.stackStatus q) q 0xC008 (.vals [.u 8 s.opt.unitId, .u 8 s.stackRole, .u 8 s.members
    , .u 8 s.masters, .u 64 ((s.prot.links.filter fun e => e.2.accepted).foldl (fun a e => a ||| 2 ^ e.1) 0)
    , .u 48 s.stackId, .u 8 s.timeSteps]) id s :=
  .of_kilak exec_stackStatus rfl (by
    simp only [openCmd_opt, openCmd_stackRole, openCmd_members, openCmd_masters, openCmd_prot, openCmd_stackId,
      openCmd_timeSteps, doneWith, id])

end Sys2Proof.Machine
end

section
/-! PROOF. The statement on protection and sparing commands. -/

open Sys2Proof Sys2Proof.Machine

/-- Settles O54, command by command. -/
theorem protectionCommands : Obligations.ProtectionCommands := by
  intro s q t c g p
  refine ⟨fun ht hp => ⟨fun hst hld hre hpe hdig => ⟨protEnable_starts ht hp hst hld hre hpe hdig,
        protEnable_again ht hp hst hld hre hpe hdig⟩, protDisable_replies ht hp, protActivate_claims ht hp,
      protSwitch_releases ht hp, fun hact hidle => ⟨protAuditNow_waits ht hp hact hidle, auditStart_audit⟩,
      protStatus_answers ht, spareSet_none ht, fun hc hpop => ⟨spareSet_reserves ht hc hpop, fun l => spareSet_reserves ht hc hpop⟩⟩,
    fun w => rfl, spareChannel_reservation, channelSpare_spares, stackStatus_replies⟩

end

section
/-! SUPPORT. Ampoule's drains, records, readouts and seal (R419, R426 to R436). -/

namespace Sys2Proof.Machine

variable {s : State} {q w : AmpReq} {h serial first n seq ltb : Nat} {p : SealedParams} {e : SignedRec} {lv : Bool}
  {r : Reply} {f : State → State} {i : Instr} {c : Code} {b : Burn}

/-! ### A PF2 command -/

theorem ampoule_answers {body : State → State × Reply} (ha : Acts s 173) (hq : s.ports.contains q.port = true)
    (hb : body s = (f s, r)) : ampoule q body s = .next (ampAnswer q r (f s)) := by
  rw [ampoule, island_acts ha, if_pos hq, hb]
  rfl

/-- A command whose body answers r and does f replies so. -/
theorem AmpReplies.of_serve {body : State → State × Reply} (hi : exec i s = ampServe q body s) (hb : body s = (f s, r)) :
    AmpReplies i q r f s := by
  intro ha hburn hq
  rw [hi, ampServe, ha.1, hburn]
  exact ampoule_answers ha hq hb

section
variable (ha : Acts s 173) (hburn : s.amp.burn = none) (hq : s.ports.contains q.port = true) {refuse : State → Option Code}
include ha hburn hq

theorem sealBurn_refused (hr : refuse s = some c) : sealBurn q refuse b s = .next (ampAnswer q (.err c) s) := by
  rw [sealBurn, ha.1, hburn]
  simp only [hr, Option.isSome_none, Bool.false_eq_true, if_false]
  exact ampoule_answers (f := id) ha hq rfl

theorem sealBurn_begins (hr : refuse s = none) :
    sealBurn q refuse b s = .next (onAmp (fun a => { a with burn := some b }) s) := by
  rw [sealBurn, ha.1, hburn]
  simp only [hr, Option.isSome_none, Bool.false_eq_true, if_false]
  rw [island_acts ha, if_pos hq]

end

theorem exec_ampouleIdentity : exec (.ampouleIdentity q) s = execAmpouleIdentity q s := rfl

theorem exec_ampouleMeterRead : exec (.ampouleMeterRead q first n) s = execAmpouleMeterRead q first n s := rfl

theorem exec_ampouleLogRead : exec (.ampouleLogRead q first n) s = execAmpouleLogRead q first n s := rfl

theorem exec_ampouleEvidenceRead : exec (.ampouleEvidenceRead q first n) s = execAmpouleEvidenceRead q first n s := rfl

theorem exec_ampouleLogAck : exec (.ampouleLogAck q seq) s = execAmpouleLogAck q seq s := rfl

theorem exec_ampouleCheckpoint : exec (.ampouleCheckpoint q) s = execAmpouleCheckpoint q s := rfl

theorem exec_ampouleParamStage : exec (.ampouleParamStage q p) s = execAmpouleParamStage q p s := rfl

theorem exec_ampouleSealAbort : exec (.ampouleSealAbort q) s = execAmpouleSealAbort q s := rfl

theorem exec_ampouleSealOpen : exec (.ampouleSealOpen q) s = execAmpouleSealOpen q s := rfl

theorem exec_ampouleSealCommit : exec (.ampouleSealCommit q) s = execAmpouleSealCommit q s := rfl

/-! ### The log -/

/-- An event for the log changes the log alone. -/
theorem logged_touch (a : AmpS) (ltb type : Nat) (data : List Nat) : a.logged ltb type data = { a with
    log := (a.logged ltb type data).log, nextSeq := (a.logged ltb type data).nextSeq
    lost := (a.logged ltb type data).lost } := by
  unfold AmpS.logged
  split
  · rfl
  split
  · rfl
  split
  · rfl
  split <;> rfl

section
variable (a : AmpS) (ltb type : Nat) (data : List Nat)

@[simp] theorem logged_isOpen : (a.logged ltb type data).isOpen = a.isOpen := by rw [logged_touch]
@[simp] theorem logged_counter : (a.logged ltb type data).counter = a.counter := by rw [logged_touch]
@[simp] theorem logged_slots : (a.logged ltb type data).slots = a.slots := by rw [logged_touch]
@[simp] theorem logged_pin : (a.logged ltb type data).pin = a.pin := by rw [logged_touch]
@[simp] theorem logged_pinQueue : (a.logged ltb type data).pinQueue = a.pinQueue := by rw [logged_touch]

end

/-! ### Drains, bindings, records of time -/

theorem exec_tapDrain (ha : Acts s 173) : exec .tapDrain s = .next (tapDrain s) := island_acts ha

theorem AmpS.undrained {a : AmpS} (ht : a.tap = []) : { a with tap := [] } = a := by
  cases a
  subst ht
  rfl

/-- A notice that finds nothing to drain closes the binding alone. -/
theorem bindingNotice_undrained (ht : s.amp.tap = []) : bindingNotice h serial s = onAmp (fun a =>
    let b := a.logged s.ltbNow 10 (leOctets 8 (a.meterOf h).serial ++ leOctets 12 (a.meterOf h).down ++ leOctets 12 (a.meterOf h).up)
    { b with meter := Tab.set b.meter h { epoch := ((a.meterOf h).epoch + 1) % 65536, serial := serial } }) s := by
  simp only [bindingNotice, onAmp, ht, List.flatMap_nil, List.foldl_nil, List.map_nil, List.filter_nil, AmpS.undrained ht]

theorem exec_bindingNotice (ha : Acts s 173) (hh : h < 32768) :
    exec (.bindingNotice h serial) s = .next (bindingNotice h serial s) := by
  change execBindingNotice h serial s = _
  rw [execBindingNotice, island_acts ha, if_neg (Nat.not_le.2 hh)]

theorem exec_timeRecordToAmpoule (ha : Acts s 173) (ht : Acts s 172) :
    exec .timeRecordToAmpoule s = .next (onAmp (secArrived s.secRec s.ltbNow) s) := by
  change execTimeRecordToAmpoule s = _
  rw [execTimeRecordToAmpoule, guardBlks_ok (by simpa using ha.1), island_acts ht, if_pos ha.2]

theorem exec_timeGap (ha : Acts s 173) :
    exec .timeGap s = .next (onAmp (fun a => { a.logged s.ltbNow 9 [] with minuteGap := true, missing := 3 }) s) := by
  change execTimeGap s = _
  rw [execTimeGap, island_acts ha]

theorem exec_evidenceMinute (ha : Acts s 173) : exec .evidenceMinute s = .next (evidenceMinute s) := island_acts ha

/-- The evidence kept once a minute's record has joined it. -/
def evidenceKept (l : List SignedRec) : List SignedRec := if 1440 < l.length then l.drop 1 else l

theorem evidenceMinute_evidence : (evidenceMinute s).amp.evidence = evidenceKept (s.amp.evidence ++ [{
    recSeq := s.amp.recSeq, ltb := s.ltbNow, octets := s.amp.record 1 s.ltbNow (!s.ltbSet) (evidenceBody s.amp) }]) := rfl

theorem evidenceKept_getLast? {l : List SignedRec} : (evidenceKept (l ++ [e])).getLast? = some e := by
  rw [evidenceKept]
  split
  · next hlen =>
    rw [List.length_append, List.length_singleton] at hlen
    rw [List.drop_append_of_le_length (by omega), List.getLast?_concat]
  · exact List.getLast?_concat

theorem evidenceKept_length {l : List SignedRec} (hl : l.length ≤ 1440) : (evidenceKept (l ++ [e])).length ≤ 1440 := by
  rw [evidenceKept]
  split
  · rw [List.length_drop, List.length_append, List.length_singleton]
    omega
  · omega

theorem evidenceMinute_last : (evidenceMinute s).amp.evidence.getLast? = some {
    recSeq := s.amp.recSeq, ltb := s.ltbNow, octets := s.amp.record 1 s.ltbNow (!s.ltbSet) (evidenceBody s.amp) } := by
  rw [evidenceMinute_evidence, evidenceKept_getLast?]

theorem evidenceMinute_kept (hl : s.amp.evidence.length ≤ 1440) : (evidenceMinute s).amp.evidence.length ≤ 1440 := by
  rw [evidenceMinute_evidence]
  exact evidenceKept_length hl

/-! ### Readouts -/

theorem ampouleIdentity_replies : AmpReplies (.ampouleIdentity q) q (.vals [.lst 1 (s.amp.record 4 s.ltbNow (!s.ltbSet)
    (beOctets 64 Config.amplePublicKey ++ leOctets 16 Config.devSerial.toNat ++ leOctets 4 s.amp.params.certId
      ++ [s.amp.counter] ++ sealedOctets s.amp.params))])
    (onAmp fun a => { a with recSeq := (a.recSeq + 1) % 2 ^ 32 }) s :=
  .of_serve exec_ampouleIdentity rfl

theorem ampouleMeterRead_replies (h1 : 1 ≤ n) (h2 : n ≤ 256) (h3 : first + n ≤ 32768) :
    AmpReplies (.ampouleMeterRead q first n) q (.vals [.lst 1 (s.amp.record 2 s.ltbNow (!s.ltbSet)
      (leOctets 2 first ++ leOctets 2 n ++ leOctets 4 s.amp.drainSeq ++ (List.range n).flatMap fun i =>
        meterOctets (first + i) (s.amp.meterOf (first + i))))])
      (onAmp fun a => { a with recSeq := (a.recSeq + 1) % 2 ^ 32 }) s :=
  .of_serve exec_ampouleMeterRead (if_neg (by simp; omega))

theorem ampouleLogRead_replies (hn : n ≤ 32) (hf : (s.amp.log.any fun e => e.seq == first) = true) :
    let es := (s.amp.log.filter fun e => decide (first ≤ e.seq)).take n
    AmpReplies (.ampouleLogRead q first n) q (.vals [.lst 1 (s.amp.record 3 s.ltbNow (!s.ltbSet)
      (leOctets 4 es.length ++ es.flatMap LogEntry.octets))]) (onAmp fun a => { a with recSeq := (a.recSeq + 1) % 2 ^ 32 }) s :=
  .of_serve exec_ampouleLogRead ((if_neg (Nat.not_lt.2 hn)).trans (if_pos hf))

theorem ampouleEvidenceRead_replies
    (he : (s.amp.evidence.find? fun e => if n = 1 then e.ltb == first else e.recSeq == first) = some e) :
    AmpReplies (.ampouleEvidenceRead q first n) q (.vals [.lst 1 e.octets]) id s :=
  .of_serve exec_ampouleEvidenceRead (by simp only [he, id])

theorem ampouleLogAck_replies (h1 : seq < s.amp.nextSeq) :
    AmpReplies (.ampouleLogAck q seq) q .ok (onAmp fun a => { a with acked := max a.acked (seq + 1) }) s :=
  .of_serve exec_ampouleLogAck (if_neg (Nat.not_le.2 h1))

theorem ampouleCheckpoint_replies :
    AmpReplies (.ampouleCheckpoint q) q (.vals [.u 32 (checkpoint s).amp.drainSeq]) checkpoint s :=
  .of_serve exec_ampouleCheckpoint rfl

/-! ### The seal -/

section
variable (hopen : s.amp.isOpen = true)
include hopen

theorem ampouleParamStage_replies (hp : sealedInRange p = true) :
    AmpReplies (.ampouleParamStage q p) q .ok (onAmp fun a => { a with staged := some p }) s :=
  .of_serve exec_ampouleParamStage (by
    simp only [hopen, hp, Bool.not_true, Bool.false_eq_true, if_false])

theorem ampouleSealAbort_replies : AmpReplies (.ampouleSealAbort q) q .ok sealAbort s :=
  .of_serve exec_ampouleSealAbort (if_pos hopen)

end

section
variable (ha : Acts s 173) (hburn : s.amp.burn = none) (hq : s.ports.contains q.port = true)
include ha hburn hq

section
variable (hshut : s.amp.isOpen = false)
include hshut

theorem sealOpen_limit (hc : 63 ≤ s.amp.counter) :
    exec (.ampouleSealOpen q) s = .next (ampAnswer q (.err .limit) s) := by
  rw [exec_ampouleSealOpen, execAmpouleSealOpen]
  exact sealBurn_refused ha hburn hq (by simp [hshut, hc])

variable (hc : s.amp.counter < 63) (hl : s.amp.logFull = false)
include hc hl

theorem sealOpen_pinHigh (hp : s.amp.pin = true) :
    exec (.ampouleSealOpen q) s = .next (ampAnswer q (.err .badState) s) := by
  rw [exec_ampouleSealOpen, execAmpouleSealOpen]
  exact sealBurn_refused ha hburn hq (by simp [hshut, Nat.not_le.2 hc, hl, hp])

theorem sealOpen_burns (hp : s.amp.pin = false) (hat : s.amp.pinAt + secT 1 ≤ s.clk.now) :
    exec (.ampouleSealOpen q) s = .next (onAmp (fun a => { a with burn := some (.counter q) }) s) := by
  rw [exec_ampouleSealOpen, execAmpouleSealOpen]
  exact sealBurn_begins ha hburn hq (by simp [hshut, Nat.not_le.2 hc, hl, hp, Nat.not_lt.2 hat])

end

theorem sealCommit_burns (hopen : s.amp.isOpen = true) (hs : s.amp.staged = some p) (hp : s.amp.pin = false) :
    exec (.ampouleSealCommit q) s = .next (onAmp (fun a => { a with burn := some (.slot q p) }) s) := by
  rw [exec_ampouleSealCommit, execAmpouleSealCommit, hs]
  exact sealBurn_begins ha hburn hq (by simp [hopen, hs, hp])

end

/-- What a burn of the counter bit leaves of Ampoule once it is done. -/
def counterBurned (s : State) : AmpS :=
  { s.amp.logged s.ltbNow 2 (sealData (s.amp.counter + 1) [s.amp.params]) with
    counter := s.amp.counter + 1, isOpen := true, openUntil := s.clk.now + secT 600, staged := none, burn := none, pinQueue := [] }

/-- What a burn of a slot with p leaves of Ampoule once it is done. -/
def slotBurned (p : SealedParams) (s : State) : AmpS :=
  { s.amp.logged s.ltbNow 3 (sealData s.amp.counter [s.amp.params, p]) with
    slots := Tab.set s.amp.slots s.amp.counter p, isOpen := false, staged := none, burn := none, pinQueue := [] }

section
variable (hpins : s.amp.pinQueue = [])
include hpins

theorem burnDone_counter (hb : s.amp.burn = some (.counter w)) : (burnDone s).amp = counterBurned s := by
  simp only [burnDone, hb, ampEnd, onAmp, logged_pinQueue, hpins, List.foldl_nil, counterBurned]

theorem burnDone_slot (hb : s.amp.burn = some (.slot w p)) : (burnDone s).amp = slotBurned p s := by
  simp only [burnDone, hb, ampEnd, onAmp, logged_pinQueue, hpins, List.foldl_nil, slotBurned]

end

theorem exec_sealBurnDone (ha : Acts s 173) : exec .sealBurnDone s = .next (burnDone s) := island_acts ha

theorem exec_ampSealPinChange (ha : Acts s 173) : exec (.ampSealPinChange lv) s = .next (sealPin lv s) := island_acts ha

theorem sealPin_same (hp : s.amp.pin = lv) : sealPin lv s = s := by
  rw [sealPin, hp, beq_self_eq_true, if_pos rfl]

/-- A pin that rises while the seal is OPEN ends it. -/
theorem sealPin_rises (hp : s.amp.pin = false) (hb : s.amp.burn = none) (hopen : s.amp.isOpen = true) :
    (sealPin true s).amp.isOpen = false ∧ (sealPin true s).amp.staged = none ∧ (sealPin true s).amp.pin = true := by
  simp [sealPin, pinChange, sealAbort, onAmp, hp, hb, hopen]

theorem sealTimeout_acts (ha : Acts s 173) (hopen : s.amp.isOpen = true) (hb : s.amp.burn = none) :
    exec .sealOpenTimeout s = .next (if s.amp.openUntil ≤ s.clk.now then sealAbort s else s) := by
  change execSealOpenTimeout s = _
  rw [execSealOpenTimeout, island_acts ha]
  simp only [hopen, hb, Option.isNone_none, Bool.true_and, decide_eq_true_eq]

end Sys2Proof.Machine
end

section
/-! PROOF. The statement on Ampoule. -/

open Sys2Proof Sys2Proof.Machine

/-- Settles O53, by the lemmas on each event and each command. -/
theorem ampouleRecordsAndReadouts : Obligations.AmpouleRecordsAndReadouts := by
  intro s q w h serial first n seq p e lv
  refine ⟨fun ha => ⟨exec_tapDrain ha, rfl, rfl, fun hh ht => ?binding,
      fun ht => ⟨exec_timeRecordToAmpoule ha ht, rfl, rfl⟩, exec_timeGap ha,
      evidenceMinute s, exec_evidenceMinute ha, rfl, rfl, evidenceMinute_last, evidenceMinute_kept⟩,
    ⟨ampouleIdentity_replies, ampouleMeterRead_replies, ampouleLogRead_replies⟩, ampouleEvidenceRead_replies,
    ampouleLogAck_replies, ampouleCheckpoint_replies, ampouleParamStage_replies, ampouleSealAbort_replies,
    fun ha hb hq => ⟨sealOpen_burns ha hb hq, sealOpen_limit ha hb hq, sealOpen_pinHigh ha hb hq, sealCommit_burns ha hb hq⟩,
    fun ha => ⟨fun hpins hb => ⟨_, exec_sealBurnDone ha, ?counter⟩, fun hpins hb => ⟨_, exec_sealBurnDone ha, ?slot⟩,
      fun hp => (exec_ampSealPinChange ha).trans (congrArg _ (sealPin_same hp)),
      fun hp hb ho => ⟨_, exec_ampSealPinChange ha, sealPin_rises hp hb ho⟩,
      fun ho hb => ⟨fun ht => ?timeout, fun ht => ?stays⟩⟩⟩
  case binding => rw [exec_bindingNotice ha hh, bindingNotice_undrained ht]
  case counter =>
    rw [burnDone_counter hpins hb]
    exact ⟨rfl, rfl, rfl, logged_slots .., rfl⟩
  case slot =>
    rw [burnDone_slot hpins hb]
    exact ⟨rfl, rfl, logged_counter .., rfl⟩
  case timeout => rw [sealTimeout_acts ha ho hb, if_pos ht]
  case stays => rw [sealTimeout_acts ha ho hb, if_neg (Nat.not_le.2 ht)]

end
